-- ==== Sys2Proof/Word.lean ====
section
/-!
DEFINITION. The widths of words the spec names.
-/

namespace Sys2Proof

/-- A register (R39). -/
abbrev Word := BitVec 32
/-- A byte of a memory. -/
abbrev Byte := BitVec 8
/-- A general register of the loom sequencer, or a lamp value. -/
abbrev W64 := BitVec 64

end Sys2Proof
end

