-- ==== Sys2Proof/Syntax.lean ====
section
/-!
DEFINITION. The commands of the block: one constructor of `Instr` per row of spec/opcode_table.json, in the table's
order, with what the command carries. A register access names its requester (R55), its block and its value; an arriving
packet or answer carries its fields; an event of the outside world carries what the outside world decides.
-/

namespace Sys2Proof

/-- The source behind tag 0x1E (R55). -/
inductive CustodySrc where
  | lantern | lamplighter | warden
  deriving DecidableEq, Repr

/-- Privilege modes of a hart (R73). -/
inductive HartMode where
  | m | hs | u | vs | vu
  deriving DecidableEq, Repr

/-- Who makes an access (R55): a partition, the device, or a custody requester, as its tag says; or a hart of the application
cluster, whose tag follows from its mode (R75). -/
inductive Requester where
  | part (p : Fin 16)
  | device
  | custody (c : CustodySrc)
  | hart (h : Fin 16) (mode : HartMode)
  deriving DecidableEq, Repr

/-- The width of an access (R39): one register, an aligned pair with the value for the upper one, or any other. -/
inductive Width where
  | word
  | pair (hi : Word)
  | other
  deriving DecidableEq, Repr

/-- A logical loom (R13). -/
abbrev LoomId := Fin 768
/-- A warp hub (R18). -/
abbrev HubId := Fin 16
/-- A shuttle (R40). -/
abbrev ShId := Fin 60
/-- A reed or glimmer port. -/
abbrev PortId := Fin 8
/-- An HBM controller. -/
abbrev HbmcId := Fin 4
/-- A timer channel. -/
abbrev TimId := Fin 24
/-- A general register of a sequencer (R275). -/
abbrev GReg := Fin 32

/-- The stream a word belongs to (R174), the partition tag of its packet, and the glimmer port it came in by, if any. -/
structure StreamHdr where
  pkg : BitVec 4
  endpoint : BitVec 11
  tag : BitVec 11
  part : Nat
  port : Option PortId
  deriving DecidableEq, Repr

/-- What the stack and the tag check give for a line that is read, after the second read of R451 and R453: its code corrects or not, and
its tag matches or not. -/
inductive LineRead where
  | clean | corrected | uncorrectable | badTag | correctedBadTag
  deriving DecidableEq, Repr

/-- Lines of HBM, each by an address in it, that the stack holds otherwise than as they were written. -/
abbrev LineMarks := List (BitVec 48 × LineRead)

/-- What the outside world decides at a package reset: the PKGID straps, and the fuse words that sensing finds corrected and
uncorrectable (R519, R582, R682). -/
structure ResetPins where
  pkgid : BitVec 4
  ce : List (BitVec 10)
  ue : List (BitVec 10)
  deriving DecidableEq, Repr

/-- What a step of a bring-up finds (R589 to R592): whether it succeeds, the hottest junction temperature at step 5, row-half
sites that fail their tests, banks of looms that fail, the items trained in full on a warm path, the seam hops that carry
traffic, width and speed of the PCIe link, and the header of the image accepted. -/
structure StepEnd where
  ok : Bool
  tj : Int
  badSites : List (Fin 48 × Fin 17)
  badBanks : List (LoomId × Fin 9)
  fallbacks : Nat
  seams : BitVec 24
  link : BitVec 8
  image : List Byte
  /-- The pseudo-channels that training leaves in service (R434, R459). -/
  trained : BitVec 64
  deriving DecidableEq, Repr

/-- The commands, in the order of spec/opcode_table.json. -/
inductive Instr where
  -- Control pages and transactions (chapter 02)
  | registerWrite (r : Requester) (b off : Nat) (v : Word) (wd : Width := .word)
  | rcCounterRead (r : Requester) (b off : Nat) (wd : Width := .word)
  | latchingLoRead (r : Requester) (b off : Nat) (wd : Width := .word)
  | bitSetAliasWrite (r : Requester) (b off : Nat) (v : Word) (wd : Width := .word)
  | bitClearAliasWrite (r : Requester) (b off : Nat) (v : Word) (wd : Width := .word)
  | shadowViewWrite (r : Requester) (b off : Nat) (v : Word) (wd : Width := .word)
  | resetReq (r : Requester) (b : Nat)
  | blockResetDone (b : Nat)
  | modeChangeWrite (r : Requester) (b : Nat) (v : Word)
  | begin (r : Requester) (b : Nat)
  | commit (r : Requester) (b : Nat)
  | rollback (r : Requester) (b : Nat)
  | arm (r : Requester)
  | cancel (r : Requester)
  | release (r : Requester)
  | groupPrepareAnswer (slot : Fin 32) (b : Nat)
  | groupPrepareTimeout (slot : Fin 32) (b : Nat)
  | apcVmpartWrite (r : Requester) (hart : Fin 16) (v : Word)
  | managementTick (watts : Nat) (work : List (Nat × Nat))
  -- Looms (chapters 03 and 04)
  | thdataWrite (r : Requester) (l : LoomId) (word : Fin 4) (v : Word)
  | loomOpenReceive (l : LoomId) (n : Nat)
  | loomOpenAck (l : LoomId)
  | spillReadbackDone (l : LoomId)
  | loomSettle (l : LoomId) (n : Nat)
  | loomSettleDone (l : LoomId)
  | loomEmitDone (l : LoomId)
  | routeCacheInvalidate (l : LoomId) (pop : BitVec 20)
  | hubDirreq (h : HubId) (l : LoomId) (pop : BitVec 20)
  | dirrspReceive (l : LoomId) (part : BitVec 5) (pop : BitVec 20) (valid : Bool) (w1 w2 : Word)
  | dirreqTimeout (l : LoomId) (pop : BitVec 20)
  | routeCacheFillDone (l : LoomId) (pop : BitVec 20) (idx : Nat) (ok : Bool) (rc : List Byte)
  | rowCacheFillDone (l : LoomId) (line : Nat) (ok : Bool) (data : List Byte)
  | loomRcinv (r : Requester) (l : LoomId) (v : Word)
  -- Loom time and the beat engine (chapter 05)
  | ltimeStepHiWrite (r : Requester) (v : Word)
  | ltimeRateWrite (r : Requester) (v : Word)
  | syncInEdge
  | ltimeSourceTimeout
  | beatArm (r : Requester) (v : Word)
  | beatStop (r : Requester) (v : Word)
  | beatLaunch
  | beatHoldWrite (r : Requester) (v : Word)
  | beatOpen
  | hubTally (l : LoomId) (n : Nat) (round exp del rep : Nat)
  | beatHubSums (h : HubId) (n : Nat) (round exp del rep : Nat)
  | beatEmitDoneReport (l : LoomId)
  | jobWaitTimeout (peer : Fin 16)
  | holdingTimer
  | beatFaultReport (b : Nat) (code : BitVec 16) (hbm : Bool)
  | retryDrainDone
  | retryDrainTimeout
  | streamPacketReceive (l : LoomId) (h : StreamHdr) (ws : List W64)
  | repickClosewaitExpiry (l : LoomId) (pkg : BitVec 4) (endpoint tag : BitVec 11)
  | repickWaitExpiry (l : LoomId) (pkg : BitVec 4) (endpoint tag : BitVec 11) (first : Option Nat)
  | repickReceive (src tag : BitVec 11) (pkg : BitVec 4) (dst : BitVec 11) (part : BitVec 5) (port : Option PortId) (w : W64)
  -- Batten, tensioner and sequencer (chapters 06 to 08)
  | battenOpDone (l : LoomId) (ue : Bool)
  | loomBrun (r : Requester) (l : LoomId) (v : Word)
  | tsnapDone (l : LoomId) (ok : Bool)
  | loomSeqctlRun (r : Requester) (l : LoomId) (v : Word)
  | loomSeqctlRestart (r : Requester) (l : LoomId) (v : Word)
  | activationDispatch (l : LoomId)
  | seqBudgetExpiry (l : LoomId) (cycles : Nat)
  | trapHandlerLimit (l : LoomId)
  | illegalInstruction (l : LoomId)
  | sum (l : LoomId) (d a b : GReg)
  | diff (l : LoomId) (d a b : GReg)
  | and (l : LoomId) (d a b : GReg)
  | or (l : LoomId) (d a b : GReg)
  | xor (l : LoomId) (d a b : GReg)
  | shl (l : LoomId) (d a b : GReg)
  | shrl (l : LoomId) (d a b : GReg)
  | shra (l : LoomId) (d a b : GReg)
  | lt (l : LoomId) (d a b : GReg)
  | ltu (l : LoomId) (d a b : GReg)
  | mullo (l : LoomId) (d a b : GReg)
  | mulhs (l : LoomId) (d a b : GReg)
  | mulhu (l : LoomId) (d a b : GReg)
  | mins (l : LoomId) (d a b : GReg)
  | maxs (l : LoomId) (d a b : GReg)
  | minu (l : LoomId) (d a b : GReg)
  | maxu (l : LoomId) (d a b : GReg)
  | lzc (l : LoomId) (d a : GReg)
  | ones (l : LoomId) (d a : GReg)
  | rne (l : LoomId) (d a b : GReg)
  | sats (l : LoomId) (d a b : GReg)
  | quos (l : LoomId) (d a b : GReg)
  | quou (l : LoomId) (d a b : GReg)
  | mods (l : LoomId) (d a b : GReg)
  | modu (l : LoomId) (d a b : GReg)
  | addk (l : LoomId) (d a : GReg) (k : BitVec 16)
  | maskk (l : LoomId) (d a : GReg) (k : BitVec 16)
  | setk (l : LoomId) (d a : GReg) (k : BitVec 16)
  | flipk (l : LoomId) (d a : GReg) (k : BitVec 16)
  | ltk (l : LoomId) (d a : GReg) (k : BitVec 16)
  | ltku (l : LoomId) (d a : GReg) (k : BitVec 16)
  | shk (l : LoomId) (d a : GReg) (k : BitVec 16)
  | highk (l : LoomId) (d a : GReg) (k : BitVec 16)
  | constK (l : LoomId) (d : GReg) (k : BitVec 21)
  | hereK (l : LoomId) (d : GReg) (k : BitVec 21)
  | get8 (l : LoomId) (d a : GReg) (k : BitVec 16)
  | get8u (l : LoomId) (d a : GReg) (k : BitVec 16)
  | get16 (l : LoomId) (d a : GReg) (k : BitVec 16)
  | get16u (l : LoomId) (d a : GReg) (k : BitVec 16)
  | get32 (l : LoomId) (d a : GReg) (k : BitVec 16)
  | get32u (l : LoomId) (d a : GReg) (k : BitVec 16)
  | get64 (l : LoomId) (d a : GReg) (k : BitVec 16)
  | put8 (l : LoomId) (c a : GReg) (k : BitVec 16)
  | put16 (l : LoomId) (c a : GReg) (k : BitVec 16)
  | put32 (l : LoomId) (c a : GReg) (k : BitVec 16)
  | put64 (l : LoomId) (c a : GReg) (k : BitVec 16)
  | aadd (l : LoomId) (d a b : GReg)
  | aswap (l : LoomId) (d a b : GReg)
  | acas (l : LoomId) (d a b : GReg)
  | rld (l : LoomId) (d a : GReg) (wide : Bool)
  | rst (l : LoomId) (a b : GReg) (wide : Bool)
  | remoteResponse (l : LoomId) (ok : Bool) (data : W64)
  | remoteTimeout (l : LoomId)
  | ifeq (l : LoomId) (c a : GReg) (k : BitVec 16)
  | ifne (l : LoomId) (c a : GReg) (k : BitVec 16)
  | iflt (l : LoomId) (c a : GReg) (k : BitVec 16)
  | ifge (l : LoomId) (c a : GReg) (k : BitVec 16)
  | ifltu (l : LoomId) (c a : GReg) (k : BitVec 16)
  | ifgeu (l : LoomId) (c a : GReg) (k : BitVec 16)
  | leap (l : LoomId) (d : GReg) (k : BitVec 21)
  | leapr (l : LoomId) (d a : GReg) (k : BitVec 16)
  | yield (l : LoomId)
  | endOp (l : LoomId)
  | tret (l : LoomId)
  | trets (l : LoomId)
  | iflush (l : LoomId)
  | rdlt (l : LoomId) (d : GReg)
  | rdbeat (l : LoomId) (d : GReg)
  | rdround (l : LoomId) (d : GReg)
  | rdcyc (l : LoomId) (d : GReg)
  | rdphase (l : LoomId) (d : GReg)
  | trap (l : LoomId) (k : BitVec 21)
  | accadd (l : LoomId) (e : Fin 16) (a b : GReg)
  | brun (l : LoomId) (d a : GReg)
  | bwait (l : LoomId)
  | bstat (l : LoomId) (d : GReg)
  | shsub (l : LoomId) (d a : GReg)
  | shwait (l : LoomId) (d a : GReg)
  | shtest (l : LoomId) (d a : GReg)
  | csend (l : LoomId) (d a b : GReg)
  | ctry (l : LoomId) (d a b : GReg)
  | cpoll (l : LoomId) (d a : GReg)
  | cdone (l : LoomId) (d a : GReg)
  | lsig (l : LoomId) (d a b : GReg)
  | lwait (l : LoomId) (d a b : GReg)
  | lread (l : LoomId) (d a b : GReg)
  | plyput (l : LoomId) (d a b : GReg)
  -- Scratch banks and the fabric (chapters 09 and 10)
  | bankDrainDone (l : LoomId) (k : Fin 8)
  | btestRegionStart (l : LoomId)
  | btestRegionDone (l : LoomId) (pass : Bool)
  | loomBtestintWrite (r : Requester) (l : LoomId) (v : Word)
  | loomBremap (r : Requester) (l : LoomId) (v : Word)
  | bankMoveDone (l : LoomId) (k : Fin 8)
  | fabricPacketRoute (row : Fin 24) (mcol : Fin 34) (port : Fin 6) (col : Fin 32) (flits : List (BitVec 256 × BitVec 26)) (left : Bool)
  | loomNithrotWrite (r : Requester) (l : LoomId) (v : Word)
  | hubRowgo (r : Requester) (h : HubId) (v : Word)
  | rowMapApplied (h : HubId) (i : Fin 3)
  | hubRowisoWrite (r : Requester) (h : HubId) (v : Word)
  | hubPlyArm (r : Requester) (h : HubId)
  | hubPlyDisarm (r : Requester) (h : HubId)
  | hubPlyForce (r : Requester) (h : HubId)
  | plyArmBroadcast (l : LoomId) (q : BitVec 8)
  | plyContribution (h : HubId) (q : Fin 16) (part : BitVec 5) (l : LoomId) (k : Word) (v : W64)
  | plyCreditReceive (l : LoomId) (part : BitVec 5) (q : BitVec 8) (credited : Word) (nack : Option Word)
  | plyResendTimeout (l : LoomId) (q : BitVec 8) (k : Word)
  | plyResultReceive (l : LoomId) (part : BitVec 5) (q : BitVec 8) (k : Word) (v : W64) (doff reslen : Nat) (lamp : Option (BitVec 14))
  | plyResultResendTimeout (h : HubId) (q : Fin 16)
  | plyConfirm (h : HubId) (q : Fin 16) (k : Word)
  | selvedgePacket (h : HubId) (hdr : Word) (ws : List Word) (crc : Byte)
  -- Channels and lamps (chapter 11); no loom: the application cluster's endpoint
  | channelMessageReceive (l : Option LoomId) (spkg : BitVec 4) (sep : BitVec 11) (part : BitVec 5) (ws : List W64)
  | channelCreditReceive (l : Option LoomId) (part : BitVec 5) (chan : BitVec 12) (ack freed : BitVec 16) (gen : BitVec 4)
      (closed nack probe : Bool)
  | channelResendTimeout (l : Option LoomId) (e : BitVec 10)
  | channelProbeTimer (l : Option LoomId) (e : BitVec 10)
  | loomChctlClose (r : Requester) (l : LoomId) (v : Word)
  | apcChsendHiWrite (r : Requester) (v : Word)
  | apcChdone (r : Requester) (v : Word)
  | lampAdd (h : HubId) (i : BitVec 10) (tag : BitVec 5) (v : W64)
  | lampWatchPlace (h : HubId) (l : LoomId) (main : Bool) (i : BitVec 10) (target tmo : W64) (tok : Nat)
  | lampWatchDeadline (h : HubId) (who : Nat)
  | lampWatchComplete (l : LoomId) (main : Bool) (lamp : BitVec 14) (res : BitVec 3) (tok : Nat)
  | lampWatchCancel (h : HubId) (who : Nat)
  | hubLampaddHiWrite (r : Requester) (h : HubId) (v : Word)
  | hubLampforceHiWrite (r : Requester) (h : HubId) (v : Word)
  | hubWatchArm (r : Requester) (h : HubId)
  | hubWatchCancel (r : Requester) (h : HubId)
  -- Shuttles and HBM (chapters 12 and 13)
  | shGo (r : Requester) (k : ShId)
  | shAbort (r : Requester) (k : ShId)
  | shuttleDescriptorStart (k : ShId) (marks : LineMarks)
  | shuttleTransferDone (k : ShId) (host : List Byte) (marks : LineMarks)
  | hbmRequest (req : BitVec 12) (tag : BitVec 5) (rseq : BitVec 12) (write : Bool) (addr : BitVec 48) (size : BitVec 3)
      (data : List Byte) (marks : LineMarks)
  | hbmResponse (req : BitVec 12) (part : BitVec 5) (c : HbmcId) (rseq : BitVec 12) (status : BitVec 3)
  | hbmRequestTimeout (req : BitVec 12) (c : HbmcId)
  | mcApply (r : Requester)
  | mcWipe (r : Requester)
  | regionWipeDone (i : Fin 64)
  | hbmcPoisonclr (r : Requester) (c : HbmcId) (v : Word)
  | hbmScrubTimer (c : HbmcId) (addr : BitVec 48) (marks : LineMarks)
  -- Reed, host and vehicle ports, the warden port (chapter 14)
  | reedPacketReceive (p : PortId) (ecc short crc : Bool) (vc : BitVec 5) (dt : BitVec 6) (data : List Byte) (lost : Nat)
  | reedFlushStart (p : PortId)
  | reedReplayRecord (p : PortId)
  | mirrorRecordReceive (g p : PortId) (mseq : Word) (lt : W64) (word : Word)
  | mirreq (p : PortId) (m : BitVec 120)
  | mirrorWaitExpiry (p : PortId)
  | reedI3ccmdWrite (r : Requester) (p : PortId) (v : Word)
  | i3cTransferDone (p : PortId) (nack : Bool) (data : List Byte)
  | i3cIbi (p : PortId) (addr : BitVec 7)
  | hostRequest (f : Fin 17) (write : Bool) (addr : BitVec 28) (v : Word) (wd : Width := .word)
  | hostportDoorbell (r : Requester) (v : Word)
  | hostportWinctlEnWrite (r : Requester) (v : Word)
  | getVersion (f : Fin 17)
  | getCapabilities (f : Fin 17)
  | negotiateAlgorithms (f : Fin 17)
  | getDigests (f : Fin 17)
  | getCertificate (f : Fin 17) (slot : BitVec 4) (off len : BitVec 16)
  | challenge (f : Fin 17) (slot : BitVec 4) (nonce : List Byte)
  | getMeasurements (f : Fin 17) (nonce : List Byte)
  | keyExchange (f : Fin 17) (point : List Byte)
  | finish (f : Fin 17) (mac : List Byte)
  | keyUpdate (f : Fin 17)
  | heartbeat (f : Fin 17)
  | endSession (f : Fin 17)
  | pcieFlr (p : Fin 16)
  | pcieLinkDown
  | netioRtailWrite (r : Requester) (v : Word)
  | ethFrameReceive (m : Fin 4) (ring : Fin 8) (data : List Byte) (err : Bool)
  | ethFrameTransmitted (m : Fin 4) (ring : Fin 8) (err : Bool)
  | canFrameReceive (m : Fin 4) (ring : Fin 8) (idFlags dlc : Word) (data : List Byte)
  | canFrameTransmitted (m : Fin 4) (ring : Fin 8)
  | gpioEdge (pin : Fin 32) (rising : Bool)
  | read (addr : Word) (crc : Byte)
  | write (addr v : Word) (crc : Byte)
  | ident (crc : Byte)
  | status (crc : Byte)
  | dump (off : BitVec 16) (n : Byte) (crc : Byte)
  | reset (level key : Byte) (crc : Byte)
  | laseroff (key : Byte) (crc : Byte)
  | scrap (r : Option Requester) (key : Word) (crc : Byte)
  | wardenFrameAbort
  -- Glimmer links and laser modules (chapter 15)
  | glimmerFrameReceive (p : PortId) (fec : Fin 3) (payload : BitVec 5140)
  | closed (p : PortId) (m : BitVec 120)
  | holding (p : PortId) (m : BitVec 120)
  | abort (p : PortId) (m : BitVec 120)
  | restart (p : PortId) (m : BitVec 120)
  | tsync (p : PortId) (m : BitVec 120)
  | digest (p : PortId) (m : BitVec 120)
  | elect (p : PortId) (m : BitVec 120)
  | lanemap (p : PortId) (m : BitVec 120)
  | partnerDigestStale (n : BitVec 16)
  | glimCfgEnWrite (r : Requester) (p : PortId) (v : Word)
  | glimmerPeerLight (p : PortId) (lanes : Nat)
  | glimmerTrainDone (p : PortId) (lanes : BitVec 8) (pkg : BitVec 4) (port : BitVec 3)
  | glimmerTrainTimeout (p : PortId)
  | glimmerLaneFail (p : PortId) (lane : Fin 8) (dark : Bool) (errs : Nat)
  | lanemapSwitch (p : PortId)
  | glimmerOpenFibre (p : PortId)
  | probePulseTimer (p : PortId)
  | packageLostCodeSeen (p : PortId)
  | wakeCodeSeen (p : PortId)
  | tsyncSendTimer (p : PortId)
  | jobMarkRepeatTimer (p : PortId)
  | electSendTimer
  | electSettleTimeout
  | fmElectLost
  | glimPkgrtWrite (r : Requester) (word : Fin 2) (v : Word)
  | glimSendwakeWrite (r : Requester) (p : PortId) (v : Word)
  | laserModuleInsert (m : Fin 2) (serial : Nat) (record sigEd sigMl : List Byte) (powered hot drift : Nat)
  | laserModuleVerified (m : Fin 2)
  | laserModuleFail (m : Fin 2)
  | laserLifeHour (m : Fin 2) (drift caset : Nat)
  | laserCtlLightWrite (r : Requester) (v : Word)
  | laserCtlRelease (r : Requester) (v : Word)
  -- Timers (chapter 16)
  | timerTick (c : TimId) (pins : BitVec 24)
  | timerEnable (r : Requester) (c : TimId) (v : Word)
  | timerReloadWrite (r : Requester) (c : TimId) (v : Word)
  | timerCmpWrite (r : Requester) (c : TimId) (v : Word)
  | timerCaptureEdge (c : TimId) (rising : Bool)
  | timerCapRead (r : Requester) (c : TimId)
  | timerStartgo (r : Requester) (v : Word)
  | timerStartTime
  | timerDebugHalt (halted : Bool)
  -- Lantern (chapter 17)
  | verify (r : Requester) (secs : List (Nat × Nat × Nat))
  | svncommit (r : Requester)
  | attest (r : Requester)
  | pcreate (r : Requester)
  | pactivate (r : Requester)
  | psuspend (r : Requester)
  | pdestroy (r : Requester)
  | passign (r : Requester)
  | prelease (r : Requester)
  | nonce (r : Requester)
  | nonceExpiry
  | lcmove (r : Requester)
  | ownerkey (r : Requester)
  | relock (r : Requester)
  | provision (r : Requester) (certEd certMl : List Byte)
  | lcinit (r : Requester)
  | custodyCommandDone
  | trngHealthFail
  -- Resets and bring-up (chapter 18)
  | packageReset (powerOn : Bool) (pins : ResetPins)
  | porstAssert (pins : ResetPins)
  | computePartitionReset
  | fuseTrecinv (r : Requester) (v : Word)
  -- Lamplighter (chapter 19)
  | faultReport (b : Nat) (code : BitVec 16)
  | darnLoadDone (l : LoomId) (ok : Bool)
  | darnReplayDone (l : LoomId) (ok : Bool)
  | darnTimeout (l : LoomId)
  | snapshotComplete (l : LoomId) (ok : Bool)
  | logDrainDone (l : LoomId)
  | rungTimeout (b : Nat)
  | handover
  | llCtlFaultclr (r : Requester) (v : Word)
  | llCtlDump (r : Requester) (v : Word)
  | dumpReadResponse
  | dumpReadTimeout
  | lamplighterHeartbeatLost
  | lanternHeartbeatLost
  | deadmanExpiry
  | llCkptctlGo (r : Requester) (v : Word)
  | ckptAutoTimer
  | checkpointCommit (ok : Bool)
  -- Power, supplies and references (chapters 20 and 22)
  | powerSleepS1 (r : Requester) (wfi : Bool)
  | powerSleepS2 (r : Requester) (wfi : Bool)
  | powerSleepS3 (r : Requester) (wfi : Bool)
  | powerLeaveS1 (r : Requester)
  | apcPwrreqWrite (r : Requester) (budget : Bool) (v : Word) (wfi : Bool)
  | sleepEntryDone
  | wakeEvent (src : Fin 7)
  | wakeSenseDebounce
  | wakeatReached
  | sleepExitDone
  | thermalSample (temps : List Int)
  | levelChangeDone
  | railFault (rail : Fin 12) (alert : Bool)
  | xtalLost
  | powerGoodTimeout (g : Fin 3)
  | lagexceed
  | selvedgeRequestTimeout (b : Option Nat)
  | stitchedHopDown (row : Fin 24)
  | drbgReseed
  | laserModuleRemove (m : Fin 2)
  | pcieLinkUp (width : BitVec 4) (speed : BitVec 4)
  | alwaysOnRailLoss (pins : ResetPins)
  | lamplighterReturn
  | bringupStepDone (step : BitVec 4) (e : StepEnd)
  | catastrophicTempFlag (stack : Fin 2)
  deriving DecidableEq, Repr

end Sys2Proof
end

