-- ==== Sys2Proof/Decode.lean ====
section
/-!
DEFINITION. The words of the table. spec/opcode_table.json gives no row any bits: a command is not spelled by a word, it arrives with
its operands.
-/

namespace Sys2Proof

/-- The command that a word spells by the bits of the table: none, for no row has bits. -/
def decodeTableWord (_nbits _w : Nat) : Option Instr := none

end Sys2Proof
end

