-- ==== Sys2Proof/Config.lean ====
section
/-!
DEFINITION. What an implementation fixes and what the spec leaves open. Every constant here is opaque: nothing can prove
a value of it, so a claim holds whatever it is (log entries 3, 4 and 5).
-/

namespace Sys2Proof.Config

/-- A fresh value that the spec leaves open, by the count of free values drawn so far (State.free). -/
opaque freeNat : Nat → Nat

/-- A digest, key or signature of an algorithm that the spec names by reference only: the algorithm's number
(see Machine/Sha.lean), the key and the message give the bytes. -/
opaque crypto : Nat → List (BitVec 8) → List (BitVec 8) → List (BitVec 8)

/-- Whether a signature or authentication tag verifies: the algorithm's number, key, message and tag. -/
opaque verifies : Nat → List (BitVec 8) → List (BitVec 8) → List (BitVec 8) → Bool

/-- The die number and the UDS that a part was made with, by fuse word (R583, R584). -/
opaque fuseWord : Nat → BitVec 32

/-- How far the copy of LT that a block reads lags the counter, by block id and LT, before it is taken modulo 7 (R24). -/
opaque ltLag : Nat → Nat → Nat

/-- The link word of a delay-queue chunk that names the chunk at an address (R106). -/
opaque dqLink : Nat → BitVec 64

/-- The initial value of the CRC-8 of the selvedge links (R365). -/
opaque selvInit : BitVec 8

/-- Whether the asymmetry correction of an Ethernet MAC is added to a stamp rather than taken from it, on transmit or on receive (R494). -/
opaque asymAdds : Bool → Bool

/-- The class of a fault code, of the 32 that FAULTMASK masks (R50). -/
opaque faultClass : Nat → Nat

/-- Whether an instruction code of the test port selects the boundary register, the bits of a code, and the boundary register's cells
(R683). -/
opaque tapScan : List Bool → Bool
opaque tapBits : Nat
opaque tapPins : Nat

/-- The certificate chains in MRAM as the part was provisioned (R491), by slot. -/
opaque certChain : Nat → List (BitVec 8)

end Sys2Proof.Config
end

