-- ==== Sys2Proof/Machine/RegMap.lean ====
section
/-!
DEFINITION. The register maps of every block: one field constant per row of the spec's register tables
(chapters 02 to 21), and, per block kind, the list of its fields with access code, write guard and reset value.
-/

namespace Sys2Proof.Machine

/-- The kinds of block of R40 and R692. -/
inductive Kind where
  | custody | lamplighter | fuse | power | beat | ltime | timer | hbmc | memcrypt | shuttle | glimmer | laser | reed | hostport | apc | netio | hub | seam | partition | loom
  deriving DecidableEq, Repr

/-- A field of a 32-bit register: the register's offset in its page, and the bits [hi:lo]. -/
structure Fld where
  off : Nat
  hi : Nat
  lo : Nat
  deriving DecidableEq, Repr

/-- Register access codes (R7). -/
inductive Acc where
  | ro | rw | rws | w1s | w1c | wo | rc
  deriving DecidableEq, Repr

/-- Who may write a field: any requester that passes R55 (`any`); custody requesters, other writes ignored
(`custody`) or refused (`custodyRef`); Lantern, other custody writes refused and the rest ignored (R552, `lantern`);
custody and device requesters (`custDev`); a mechanism register of R30, whose writes are ignored in basic control
(`policy`); only under clock source SOFTWARE (R160, `software`). -/
inductive Guard where
  | any | custody | custodyRef | lantern | custDev | policy | software
  deriving DecidableEq, Repr

/-- One field of a register map; `n` registers at `stride` bytes repeat it. -/
structure FldRow where
  fld : Fld
  n : Nat
  stride : Nat
  acc : Acc
  guard : Guard
  reset : Nat
  deriving DecidableEq, Repr

/-! ## The fields -/
namespace F

/-! ### the common header (R45 to R54) -/
abbrev IDENT_CLASS : Fld := ⟨0x000, 31, 16⟩
abbrev IDENT_INSTANCE : Fld := ⟨0x000, 15, 0⟩
abbrev VERSION_MAJOR : Fld := ⟨0x004, 31, 24⟩
abbrev VERSION_MINOR : Fld := ⟨0x004, 23, 16⟩
abbrev VERSION_STEP : Fld := ⟨0x004, 7, 0⟩
abbrev STATE_READY : Fld := ⟨0x008, 0, 0⟩
abbrev STATE_BUSY : Fld := ⟨0x008, 1, 1⟩
abbrev STATE_FAULT : Fld := ⟨0x008, 2, 2⟩
abbrev STATE_DEGRADED : Fld := ⟨0x008, 3, 3⟩
abbrev STATE_MODE : Fld := ⟨0x008, 5, 4⟩
abbrev STATE_TXOPEN : Fld := ⟨0x008, 6, 6⟩
abbrev STATE_RESETTING : Fld := ⟨0x008, 7, 7⟩
abbrev STATE_MODEPEND : Fld := ⟨0x008, 8, 8⟩
abbrev CONTROL_ENABLE : Fld := ⟨0x00C, 0, 0⟩
abbrev CONTROL_RESETREQ : Fld := ⟨0x00C, 1, 1⟩
abbrev CONTROL_EXPERT : Fld := ⟨0x00C, 2, 2⟩
abbrev CONTROL_FREEZE : Fld := ⟨0x00C, 3, 3⟩
abbrev FAULTCAUSE_CAUSE : Fld := ⟨0x010, 15, 0⟩
abbrev FAULTCAUSE_REPEAT : Fld := ⟨0x010, 23, 16⟩
abbrev FAULTCAUSE_VALID : Fld := ⟨0x010, 31, 31⟩
abbrev FAULTMASK_MASK : Fld := ⟨0x014, 31, 0⟩
abbrev TXN_OP : Fld := ⟨0x018, 1, 0⟩
abbrev TXN_TSTATE : Fld := ⟨0x018, 5, 4⟩
abbrev TXN_RESULT : Fld := ⟨0x018, 15, 8⟩
abbrev TXN_GROUP : Fld := ⟨0x018, 20, 16⟩
abbrev TXN_OPENER : Fld := ⟨0x018, 28, 24⟩
abbrev OWNER_PART : Fld := ⟨0x01C, 4, 0⟩
abbrev PROGRESS_COUNT : Fld := ⟨0x020, 31, 0⟩
abbrev PROGWIN_TICKS : Fld := ⟨0x024, 7, 0⟩
abbrev DECISIONS_COUNT : Fld := ⟨0x028, 31, 0⟩
abbrev ACCVIOL_COUNT : Fld := ⟨0x800, 31, 0⟩
abbrev TXNREFUSE_COUNT : Fld := ⟨0x804, 31, 0⟩
abbrev TXNROLLBACK_COUNT : Fld := ⟨0x808, 31, 0⟩
/-! ### custody -/
abbrev CUSTODY_SVN_SVN0 : Fld := ⟨0x068, 6, 0⟩
abbrev CUSTODY_SVN_SVN1 : Fld := ⟨0x068, 14, 8⟩
abbrev CUSTODY_SVN_SVN2 : Fld := ⟨0x068, 22, 16⟩
abbrev CUSTODY_SVN_SVN3 : Fld := ⟨0x068, 30, 24⟩
/-- Lifecycle code (R565) -/
abbrev CUSTODY_LC_LC : Fld := ⟨0x040, 2, 0⟩
/-- Lifecycle wipe in progress (R569) -/
abbrev CUSTODY_LC_WIPEPEND : Fld := ⟨0x040, 3, 3⟩
/-- R575 -/
abbrev CUSTODY_CMD_CODE : Fld := ⟨0x044, 7, 0⟩
/-- Command arguments -/
abbrev CUSTODY_ARG_ARG : Fld := ⟨0x048, 31, 0⟩
/-- Buffer in HBM, 64-byte aligned -/
abbrev CUSTODY_BUF_LO_ADDR : Fld := ⟨0x058, 31, 6⟩
/-- Buffer in HBM, 64-byte aligned -/
abbrev CUSTODY_BUF_HI_ADDR : Fld := ⟨0x05C, 15, 0⟩
/-- Command running -/
abbrev CUSTODY_CSTAT_BUSY : Fld := ⟨0x060, 0, 0⟩
/-- Command finished -/
abbrev CUSTODY_CSTAT_DONE : Fld := ⟨0x060, 1, 1⟩
/-- R576 -/
abbrev CUSTODY_CSTAT_RESULT : Fld := ⟨0x060, 15, 8⟩
/-- Log entries, 0 to 64 -/
abbrev CUSTODY_MEAS_COUNT : Fld := ⟨0x064, 6, 0⟩
/-- Owner key fused -/
abbrev CUSTODY_OWNERSET_SET : Fld := ⟨0x06C, 0, 0⟩
/-- Images accepted -/
abbrev CUSTODY_VERIFIED_COUNT : Fld := ⟨0x810, 31, 0⟩
/-- Images refused (R558) -/
abbrev CUSTODY_VREFUSE_COUNT : Fld := ⟨0x814, 31, 0⟩
/-- Tokens refused (R568) -/
abbrev CUSTODY_LCREFUSE_COUNT : Fld := ⟨0x818, 31, 0⟩
/-- Security events received (R577) -/
abbrev CUSTODY_SECEVENTS_COUNT : Fld := ⟨0x81C, 31, 0⟩
/-- Commands completed -/
abbrev CUSTODY_CMDS_COUNT : Fld := ⟨0x820, 31, 0⟩
/-! ### lamplighter -/
abbrev LL_HEART_LL : Fld := ⟨0x108, 15, 0⟩
abbrev LL_HEART_LANTERN : Fld := ⟨0x108, 31, 16⟩
abbrev LL_RUNG1_COUNT : Fld := ⟨0x820, 31, 0⟩
abbrev LL_RUNG2_COUNT : Fld := ⟨0x824, 31, 0⟩
abbrev LL_RUNG3_COUNT : Fld := ⟨0x828, 31, 0⟩
abbrev LL_RUNG4_COUNT : Fld := ⟨0x82C, 31, 0⟩
/-- 000 BOOT, 001 RUN, 010 DARNING, 011 LADDER, 100 ABSENT, 101 LOST -/
abbrev LL_STAT_STATE : Fld := ⟨0x040, 2, 0⟩
/-- R628; 0 none -/
abbrev LL_STAT_LASTRUNG : Fld := ⟨0x040, 6, 4⟩
/-- FAULT_N asserted -/
abbrev LL_STAT_FAULTN : Fld := ⟨0x040, 7, 7⟩
/-- R634 -/
abbrev LL_STAT_DMEXPIRED : Fld := ⟨0x040, 8, 8⟩
/-- R622 -/
abbrev LL_STAT_DARNSLOW : Fld := ⟨0x040, 9, 9⟩
/-- R635 -/
abbrev LL_CTL_FAULTCLR : Fld := ⟨0x044, 0, 0⟩
/-- R635 -/
abbrev LL_CTL_HANDOVER : Fld := ⟨0x044, 1, 1⟩
/-- R629 -/
abbrev LL_CTL_DUMP : Fld := ⟨0x044, 2, 2⟩
/-- R619 -/
abbrev LL_POLICY_DARNCLASS : Fld := ⟨0x048, 1, 0⟩
/-- R607 -/
abbrev LL_POLICY_BEATFATAL : Fld := ⟨0x048, 4, 4⟩
/-- R622; 0 none -/
abbrev LL_OUTSLACK_NS : Fld := ⟨0x04C, 31, 0⟩
/-- Bit L mod 32 of word ⌊L / 32⌋: loom L is a reserve -/
abbrev LL_RESERVE_MASK : Fld := ⟨0x050, 31, 0⟩
/-- Snapshot slots, 2 MiB aligned (R609) -/
abbrev LL_SNAPBASE_LO_ADDR : Fld := ⟨0x0B0, 31, 21⟩
/-- Snapshot slots, 2 MiB aligned (R609) -/
abbrev LL_SNAPBASE_HI_ADDR : Fld := ⟨0x0B4, 15, 0⟩
/-- Log rings (R613) -/
abbrev LL_LOGBASE_LO_ADDR : Fld := ⟨0x0B8, 31, 16⟩
/-- Log rings (R613) -/
abbrev LL_LOGBASE_HI_ADDR : Fld := ⟨0x0BC, 15, 0⟩
/-- Ring per loom in 64 KiB; 0: no log -/
abbrev LL_LOGSIZE_SIZE : Fld := ⟨0x0C0, 7, 0⟩
/-- R622 -/
abbrev LL_DARNBOUND_NS : Fld := ⟨0x0C4, 31, 0⟩
/-- R622 -/
abbrev LL_DARNWORST_LOOM : Fld := ⟨0x0C8, 9, 0⟩
/-- Last loom darned -/
abbrev LL_LASTDARN_LOOM : Fld := ⟨0x0CC, 9, 0⟩
/-- Its stand-in site -/
abbrev LL_LASTDARN_SITE : Fld := ⟨0x0CC, 14, 10⟩
/-- A reserve loom was displaced -/
abbrev LL_LASTDARN_RESERVE : Fld := ⟨0x0CC, 15, 15⟩
/-- 0 OK, 1 DARNFAIL, 2 not identical -/
abbrev LL_LASTDARN_RESULT : Fld := ⟨0x0CC, 19, 16⟩
/-- Its darn time -/
abbrev LL_LASTDARNNS_NS : Fld := ⟨0x0D0, 31, 0⟩
/-- R635; reading LO latches HI -/
abbrev LL_HANDBEAT_LO_N : Fld := ⟨0x0D4, 31, 0⟩
/-- R635; reading LO latches HI -/
abbrev LL_HANDBEAT_HI_N : Fld := ⟨0x0D8, 31, 0⟩
/-- Event entry, counted back from the newest -/
abbrev LL_EVSEL_INDEX : Fld := ⟨0x0DC, 11, 0⟩
/-- Words of the entry (R631) -/
abbrev LL_EVDATA_ENTRY : Fld := ⟨0x0E0, 31, 0⟩
/-- R628 -/
abbrev LL_LADDER0_BLOCK : Fld := ⟨0x100, 11, 0⟩
/-- R628 -/
abbrev LL_LADDER0_RUNG : Fld := ⟨0x100, 14, 12⟩
/-- R628 -/
abbrev LL_LADDER0_OUTCOME : Fld := ⟨0x100, 17, 16⟩
/-- R628 -/
abbrev LL_LADDER1_CAUSE : Fld := ⟨0x104, 15, 0⟩
/-- Dump in progress -/
abbrev LL_DUMPSTAT_BUSY : Fld := ⟨0x10C, 0, 0⟩
/-- R630 -/
abbrev LL_DUMPSTAT_LOCK : Fld := ⟨0x10C, 1, 1⟩
/-- Manifest entries, 0 to 64 -/
abbrev LL_DUMPSTAT_ENTRIES : Fld := ⟨0x10C, 14, 8⟩
/-- R630 -/
abbrev LL_DUMPBASE_LO_ADDR : Fld := ⟨0x110, 31, 12⟩
/-- R630 -/
abbrev LL_DUMPBASE_HI_ADDR : Fld := ⟨0x114, 15, 0⟩
/-- In 4 KiB -/
abbrev LL_DUMPSIZE_PAGES : Fld := ⟨0x118, 15, 0⟩
/-- R639 -/
abbrev LL_CKPTCTL_GO : Fld := ⟨0x11C, 0, 0⟩
/-- 0 SINGLE, 1 DOUBLE (R268) -/
abbrev LL_CKPTCTL_MODE : Fld := ⟨0x11C, 1, 1⟩
/-- Checkpoint in progress -/
abbrev LL_CKPTCTL_BUSY : Fld := ⟨0x11C, 2, 2⟩
/-- Last GO refused or copy failed -/
abbrev LL_CKPTCTL_ERR : Fld := ⟨0x11C, 3, 3⟩
/-- Bit i: copy i valid -/
abbrev LL_CKPTCTL_VALID : Fld := ⟨0x11C, 5, 4⟩
/-- R639; 0 off -/
abbrev LL_CKPTAUTO_S : Fld := ⟨0x120, 15, 0⟩
/-- Beat of the last valid checkpoint -/
abbrev LL_CKPTBEAT_LO_N : Fld := ⟨0x124, 31, 0⟩
/-- Beat of the last valid checkpoint -/
abbrev LL_CKPTBEAT_HI_N : Fld := ⟨0x128, 31, 0⟩
/-- R623 -/
abbrev LL_SNAPBEATS_BEATS : Fld := ⟨0x400, 6, 0⟩
/-- Row-half k at word ⌊k / 6⌋, bits [5(k mod 6) + 4 : 5(k mod 6)]; 0x1F none -/
abbrev LL_STANDIN_SITE : Fld := ⟨0x404, 29, 0⟩
/-- PROGSTALL judgements (R605) -/
abbrev LL_STALLS_COUNT : Fld := ⟨0x810, 31, 0⟩
/-- Darnings completed -/
abbrev LL_DARNS_COUNT : Fld := ⟨0x814, 31, 0⟩
/-- Darnings failed (R620) -/
abbrev LL_DARNFAIL_COUNT : Fld := ⟨0x818, 31, 0⟩
/-- Darnings of looms with FREERUN (R618) -/
abbrev LL_NONIDENT_COUNT : Fld := ⟨0x81C, 31, 0⟩
/-- Dumps collected -/
abbrev LL_DUMPS_COUNT : Fld := ⟨0x830, 31, 0⟩
/-- Pages entered UNREACHABLE -/
abbrev LL_UNREACH_COUNT : Fld := ⟨0x834, 31, 0⟩
/-- Dumps kept out of a locked dump SRAM -/
abbrev LL_DUMPSKIP_COUNT : Fld := ⟨0x838, 31, 0⟩
/-- Snapshots completed -/
abbrev LL_SNAPS_COUNT : Fld := ⟨0x83C, 31, 0⟩
/-- Snapshots failed -/
abbrev LL_SNAPFAIL_COUNT : Fld := ⟨0x840, 31, 0⟩
/-- Beats lengthened by log room (R615) -/
abbrev LL_LOGSTALL_COUNT : Fld := ⟨0x844, 31, 0⟩
/-- Heartbeat losses, either way -/
abbrev LL_HBMISS_COUNT : Fld := ⟨0x848, 31, 0⟩
/-- Checkpoints committed -/
abbrev LL_CKPTS_COUNT : Fld := ⟨0x84C, 31, 0⟩
/-- Checkpoints refused (R639) -/
abbrev LL_CKPTREFUSE_COUNT : Fld := ⟨0x850, 31, 0⟩
/-! ### fuse -/
abbrev FUSE_BOOTCFG_GLIMEN : Fld := ⟨0x054, 15, 8⟩
/-- Fuse word read by FUSE_DATA -/
abbrev FUSE_SEL_INDEX : Fld := ⟨0x040, 9, 0⟩
/-- Shadow of the selected word (R583) -/
abbrev FUSE_DATA_DATA : Fld := ⟨0x044, 31, 0⟩
/-- Selected word was corrected -/
abbrev FUSE_WSTAT_CE : Fld := ⟨0x048, 0, 0⟩
/-- Selected word is uncorrectable (R587) -/
abbrev FUSE_WSTAT_UE : Fld := ⟨0x048, 1, 1⟩
/-- 00 cold, 01 warm, 10 compute-partition reset, 11 none yet -/
abbrev FUSE_BOOTSTAT_PATH : Fld := ⟨0x04C, 1, 0⟩
/-- Step running, or last ended (R589, R592) -/
abbrev FUSE_BOOTSTAT_STEP : Fld := ⟨0x04C, 7, 4⟩
/-- Every block of the path is READY -/
abbrev FUSE_BOOTSTAT_DONE : Fld := ⟨0x04C, 8, 8⟩
/-- R591 -/
abbrev FUSE_BOOTSTAT_FALLBACK : Fld := ⟨0x04C, 9, 9⟩
/-- Step that failed (R597); 0 none -/
abbrev FUSE_BOOTSTAT_FAILSTEP : Fld := ⟨0x04C, 15, 12⟩
/-- Time from the start of the path to DONE -/
abbrev FUSE_BOOTTIME_MS : Fld := ⟨0x050, 31, 0⟩
/-- R590 -/
abbrev FUSE_BOOTCFG_FAST : Fld := ⟨0x054, 0, 0⟩
/-- Record copy in use -/
abbrev FUSE_TREC_COPY : Fld := ⟨0x058, 0, 0⟩
/-- A valid copy exists -/
abbrev FUSE_TREC_VALID : Fld := ⟨0x058, 1, 1⟩
/-- R599 -/
abbrev FUSE_TREC_WARMCOUNT : Fld := ⟨0x058, 15, 8⟩
/-- R599 -/
abbrev FUSE_TRECINV_GO : Fld := ⟨0x05C, 0, 0⟩
/-- Fuse words corrected at sensing -/
abbrev FUSE_CE_COUNT : Fld := ⟨0x810, 31, 0⟩
/-- Cold bring-ups -/
abbrev FUSE_COLDBOOTS_COUNT : Fld := ⟨0x814, 31, 0⟩
/-- Warm bring-ups -/
abbrev FUSE_WARMBOOTS_COUNT : Fld := ⟨0x818, 31, 0⟩
/-- Compute-partition resets completed -/
abbrev FUSE_CPRESETS_COUNT : Fld := ⟨0x81C, 31, 0⟩
/-- Items trained in full on a warm path (R591) -/
abbrev FUSE_FALLBACK_COUNT : Fld := ⟨0x820, 31, 0⟩
/-- Sites made soft-bad (R596) -/
abbrev FUSE_SOFTBAD_COUNT : Fld := ⟨0x824, 31, 0⟩
/-! ### power -/
abbrev POWER_REFUSE1_COUNT : Fld := ⟨0x810, 31, 0⟩
abbrev POWER_ABORT1_COUNT : Fld := ⟨0x81C, 31, 0⟩
abbrev POWER_REFUSE2_COUNT : Fld := ⟨0x814, 31, 0⟩
abbrev POWER_ABORT2_COUNT : Fld := ⟨0x820, 31, 0⟩
abbrev POWER_REFUSE3_COUNT : Fld := ⟨0x818, 31, 0⟩
abbrev POWER_ABORT3_COUNT : Fld := ⟨0x824, 31, 0⟩
/-- S0 to S3 -/
abbrev POWER_STAT_STATE : Fld := ⟨0x040, 1, 0⟩
/-- 00 steady, 01 entering, 10 exiting -/
abbrev POWER_STAT_PHASE : Fld := ⟨0x040, 3, 2⟩
/-- R649 -/
abbrev POWER_STAT_THROTTLE : Fld := ⟨0x040, 4, 4⟩
/-- R651 -/
abbrev POWER_STAT_ABORTED : Fld := ⟨0x040, 5, 5⟩
/-- WAKE_SENSE above its threshold -/
abbrev POWER_STAT_WSABOVE : Fld := ⟨0x040, 6, 6⟩
/-- 01 S1, 10 S2, 11 S3; 00 leave S1 (R650) -/
abbrev POWER_SLEEP_TARGET : Fld := ⟨0x044, 1, 0⟩
/-- Budget in watts; 0 none -/
abbrev POWER_BUDGET_W : Fld := ⟨0x048, 15, 0⟩
/-- Pm of the last tick -/
abbrev POWER_MEAS_W : Fld := ⟨0x04C, 15, 0⟩
/-- Th, signed -/
abbrev POWER_TJ_DEGC : Fld := ⟨0x050, 7, 0⟩
/-- Hottest sensor: 0–47 row-half, 48–49 seam, 50 APC, 51 always-on, 52–53 stacks -/
abbrev POWER_TJ_SENSOR : Fld := ⟨0x050, 15, 8⟩
/-- R654 -/
abbrev POWER_WAKEEN_EN : Fld := ⟨0x054, 6, 0⟩
/-- R654 -/
abbrev POWER_WAKECAUSE_CAUSE : Fld := ⟨0x058, 6, 0⟩
/-- 0 to 224; a higher value is ignored and counted in TXNREFUSE -/
abbrev POWER_WSTHR_THR : Fld := ⟨0x05C, 7, 0⟩
/-- Debounce in ms, 0 to 255 -/
abbrev POWER_WSTHR_DEB : Fld := ⟨0x05C, 15, 8⟩
/-- R654; 0 off -/
abbrev POWER_WAKEAT_LO_LT : Fld := ⟨0x060, 31, 0⟩
/-- R654; 0 off -/
abbrev POWER_WAKEAT_HI_LT : Fld := ⟨0x064, 31, 0⟩
/-- Hart resume address (R652) -/
abbrev POWER_RESUME_LO_ADDR : Fld := ⟨0x068, 31, 2⟩
/-- Hart resume address (R652) -/
abbrev POWER_RESUME_HI_ADDR : Fld := ⟨0x06C, 15, 0⟩
/-- R650 -/
abbrev POWER_LASTREFUSER_BLOCK : Fld := ⟨0x070, 11, 0⟩
/-- State refused -/
abbrev POWER_LASTREFUSER_TARGET : Fld := ⟨0x070, 13, 12⟩
/-- Loom level -/
abbrev POWER_PLEVEL_P : Fld := ⟨0x400, 2, 0⟩
/-- Warp level -/
abbrev POWER_PLEVEL_W : Fld := ⟨0x400, 4, 4⟩
/-- Entries into throttling (R649) -/
abbrev POWER_THROTTLES_COUNT : Fld := ⟨0x828, 31, 0⟩
/-- Exits begun by a wake event -/
abbrev POWER_WAKES_COUNT : Fld := ⟨0x82C, 31, 0⟩
/-! ### beat -/
abbrev BEAT_TGSEL_SLOT : Fld := ⟨0x300, 4, 0⟩
abbrev BEAT_TGCTL_OP : Fld := ⟨0x304, 1, 0⟩
abbrev BEAT_TGCTL_COUNT : Fld := ⟨0x304, 14, 8⟩
abbrev BEAT_TGBEATLO_BEAT : Fld := ⟨0x308, 31, 0⟩
abbrev BEAT_TGBEATHI_BEAT : Fld := ⟨0x30C, 31, 0⟩
abbrev BEAT_TGMIDX_INDEX : Fld := ⟨0x310, 5, 0⟩
abbrev BEAT_TGMID_BLOCK : Fld := ⟨0x314, 11, 0⟩
abbrev BEAT_TGSTAT_STATE : Fld := ⟨0x318, 2, 0⟩
abbrev BEAT_TGSTAT_CODE : Fld := ⟨0x318, 15, 8⟩
abbrev BEAT_TGSTAT_BLOCK : Fld := ⟨0x318, 27, 16⟩
abbrev BEAT_TGLINK_HEAD : Fld := ⟨0x31C, 4, 0⟩
abbrev BEAT_TGLINK_LINKED : Fld := ⟨0x31C, 5, 5⟩
abbrev BEAT_TGLINK_NLINK : Fld := ⟨0x31C, 12, 8⟩
abbrev BEAT_TEXP_LO_SUM : Fld := ⟨0x0D0, 31, 0⟩
abbrev BEAT_TEXP_HI_SUM : Fld := ⟨0x0D4, 31, 0⟩
abbrev BEAT_TDEL_LO_SUM : Fld := ⟨0x0D8, 31, 0⟩
abbrev BEAT_TDEL_HI_SUM : Fld := ⟨0x0DC, 31, 0⟩
abbrev BEAT_TREP_LO_SUM : Fld := ⟨0x0E0, 31, 0⟩
abbrev BEAT_TREP_HI_SUM : Fld := ⟨0x0E4, 31, 0⟩
abbrev BEAT_DIGEST_DIGEST : Fld := ⟨0x0A0, 31, 0⟩
/-- 01 ARM, 10 STOP, 11 reserved -/
abbrev BEAT_CTL_OP : Fld := ⟨0x040, 1, 0⟩
/-- 0 REAL-TIME-LOCKED, 1 REPLAY (R193) -/
abbrev BEAT_CTL_MODE : Fld := ⟨0x040, 4, 4⟩
/-- 0 IDLE, 1 ARMED, 2 RUNNING, 3 HELD, 4 RETRYING, 5 STOPPED, 6 FAULTED -/
abbrev BEAT_STATUS_STATE : Fld := ⟨0x044, 3, 0⟩
/-- 001 OPEN, 010 INTEGRATE, 011 CLOSE, 100 SETTLE, 101 EMIT -/
abbrev BEAT_STATUS_PHASE : Fld := ⟨0x044, 6, 4⟩
/-- Retry round of the current beat -/
abbrev BEAT_STATUS_ROUND : Fld := ⟨0x044, 10, 8⟩
/-- Last ARM refusal (R169) -/
abbrev BEAT_STATUS_CODE : Fld := ⟨0x044, 23, 16⟩
/-- Beat length in ns (R167) -/
abbrev BEAT_LEN_NS : Fld := ⟨0x048, 26, 0⟩
/-- Launch LT, in ns -/
abbrev BEAT_LAUNCH_LO_T0 : Fld := ⟨0x04C, 31, 0⟩
/-- Launch LT, in ns -/
abbrev BEAT_LAUNCH_HI_T0 : Fld := ⟨0x050, 31, 0⟩
/-- Current beat; reading LO latches HI -/
abbrev BEAT_NUM_LO_N : Fld := ⟨0x054, 31, 0⟩
/-- Current beat; reading LO latches HI -/
abbrev BEAT_NUM_HI_N : Fld := ⟨0x058, 31, 0⟩
/-- ANCHOR_T -/
abbrev BEAT_ANCHORT_LO_T : Fld := ⟨0x05C, 31, 0⟩
/-- ANCHOR_T -/
abbrev BEAT_ANCHORT_HI_T : Fld := ⟨0x060, 31, 0⟩
/-- ANCHOR_N -/
abbrev BEAT_ANCHORN_LO_N : Fld := ⟨0x064, 31, 0⟩
/-- ANCHOR_N -/
abbrev BEAT_ANCHORN_HI_N : Fld := ⟨0x068, 31, 0⟩
/-- R190 -/
abbrev BEAT_LAG_NS : Fld := ⟨0x06C, 31, 0⟩
/-- Lag bound; 0 none -/
abbrev BEAT_LAGMAX_NS : Fld := ⟨0x070, 31, 0⟩
/-- R193 -/
abbrev BEAT_REPLAY_PACE : Fld := ⟨0x074, 7, 0⟩
/-- Rounds per beat, 0 to 7 -/
abbrev BEAT_RETRY_RETRYMAX : Fld := ⟨0x078, 2, 0⟩
/-- Attempts 1 to 7; 0 means 8 -/
abbrev BEAT_RETRY_REPICKMAX : Fld := ⟨0x078, 6, 4⟩
/-- R185 -/
abbrev BEAT_REPICKWAIT_NS : Fld := ⟨0x07C, 19, 0⟩
/-- R185 -/
abbrev BEAT_CLOSEWAIT_NS : Fld := ⟨0x080, 23, 0⟩
/-- Peer packages; own bit ignored -/
abbrev BEAT_JOB_PEERS : Fld := ⟨0x084, 15, 0⟩
/-- Own package id -/
abbrev BEAT_JOB_SELF : Fld := ⟨0x084, 19, 16⟩
/-- R188 -/
abbrev BEAT_JOBWAIT_NS : Fld := ⟨0x088, 23, 0⟩
/-- 00 off, 01 package, 10 package and components -/
abbrev BEAT_DIGCFG_MODE : Fld := ⟨0x08C, 1, 0⟩
/-- Partner package id -/
abbrev BEAT_DIGCFG_PARTNER : Fld := ⟨0x08C, 7, 4⟩
/-- R203 -/
abbrev BEAT_DIGCFG_SEND : Fld := ⟨0x08C, 8, 8⟩
/-- Digest ring, 64-byte aligned -/
abbrev BEAT_DIGBASE_LO_ADDR : Fld := ⟨0x090, 31, 6⟩
/-- Digest ring, 64-byte aligned -/
abbrev BEAT_DIGBASE_HI_ADDR : Fld := ⟨0x094, 15, 0⟩
/-- Ring size in 4 KiB pages -/
abbrev BEAT_DIGSIZE_PAGES : Fld := ⟨0x098, 15, 0⟩
/-- R197 -/
abbrev BEAT_HOLD_HOLD : Fld := ⟨0x09C, 0, 0⟩
/-- Beat of the digest -/
abbrev BEAT_DIGBEAT_LO_N : Fld := ⟨0x0C0, 31, 0⟩
/-- Beat of the digest -/
abbrev BEAT_DIGBEAT_HI_N : Fld := ⟨0x0C4, 31, 0⟩
/-- Beat of the last mismatch -/
abbrev BEAT_DIGMMBEAT_LO_N : Fld := ⟨0x0C8, 31, 0⟩
/-- Beat of the last mismatch -/
abbrev BEAT_DIGMMBEAT_HI_N : Fld := ⟨0x0CC, 31, 0⟩
/-- Coarsening level -/
abbrev BEAT_COARSEN_LEVEL : Fld := ⟨0x400, 1, 0⟩
/-- Beats ending after their nominal end -/
abbrev BEAT_STRETCHED_COUNT : Fld := ⟨0x810, 31, 0⟩
/-- Largest BEAT_LAG since last read, ns -/
abbrev BEAT_LAGPEAK_COUNT : Fld := ⟨0x814, 31, 0⟩
/-- Retry rounds -/
abbrev BEAT_RETRIES_COUNT : Fld := ⟨0x818, 31, 0⟩
/-- ABORTs for earlier rounds -/
abbrev BEAT_ABORTSTALE_COUNT : Fld := ⟨0x81C, 31, 0⟩
/-- Refused ARMs -/
abbrev BEAT_ARMREFUSE_COUNT : Fld := ⟨0x820, 31, 0⟩
/-- Partner digest mismatches -/
abbrev BEAT_DIGMISMATCH_COUNT : Fld := ⟨0x824, 31, 0⟩
/-- Partner digests dropped unmatched -/
abbrev BEAT_DIGSTALE_COUNT : Fld := ⟨0x828, 31, 0⟩
/-- Entries into HELD -/
abbrev BEAT_HOLDS_COUNT : Fld := ⟨0x82C, 31, 0⟩
/-- A loom acknowledged OPEN with FREERUN set (R280) -/
abbrev BEAT_DETSTAT_FREERUN : Fld := ⟨0x0E8, 0, 0⟩
/-- A coarsening level was applied by the basic policy in REAL-TIME-LOCKED mode (R191) -/
abbrev BEAT_DETSTAT_POLICY : Fld := ⟨0x0E8, 1, 1⟩
/-- REAL-TIME-LOCKED: POWER not in expert control, or a level change was applied (R644) -/
abbrev BEAT_DETSTAT_LEVEL : Fld := ⟨0x0E8, 2, 2⟩
/-- REAL-TIME-LOCKED: a thermal throttle occurred (R664) -/
abbrev BEAT_DETSTAT_THROTTLE : Fld := ⟨0x0E8, 3, 3⟩
/-- Any of REED_LATEDROP, REED_INQDROP, REED_SPILLDROP, REED_CAPDROP or GLIM_MIRLOST advanced -/
abbrev BEAT_DETSTAT_INPUTDROP : Fld := ⟨0x0E8, 4, 4⟩
/-- A darning was counted in LL_NONIDENT (R618) -/
abbrev BEAT_DETSTAT_NONIDENT : Fld := ⟨0x0E8, 5, 5⟩
/-- A loom's LOOM_TIMEDEP advanced (R671) -/
abbrev BEAT_DETSTAT_TIMEDEP : Fld := ⟨0x0E8, 6, 6⟩
/-- An RWS value of a LOOM, REED or HUB page was applied by a block COMMIT, or outside a trans -/
abbrev BEAT_DETSTAT_UNGROUPED : Fld := ⟨0x0E8, 7, 7⟩
/-- BEAT_DIGMISMATCH advanced (R203) -/
abbrev BEAT_DETSTAT_DIGMISMATCH : Fld := ⟨0x0E8, 8, 8⟩
/-- Fused DCLASS (R584) -/
abbrev BEAT_DETSTAT_DCLASS : Fld := ⟨0x0E8, 31, 28⟩
/-- Beat at which the first bit was set; reading LO latches HI -/
abbrev BEAT_DETBEAT_LO_N : Fld := ⟨0x0EC, 31, 0⟩
/-- Beat at which the first bit was set; reading LO latches HI -/
abbrev BEAT_DETBEAT_HI_N : Fld := ⟨0x0F0, 31, 0⟩
/-! ### ltime -/
abbrev LTIME_STAT_LOCKED : Fld := ⟨0x060, 0, 0⟩
abbrev LTIME_STAT_HOLDOVER : Fld := ⟨0x060, 1, 1⟩
abbrev LTIME_STAT_SRCLOST : Fld := ⟨0x060, 2, 2⟩
/-- R165 -/
abbrev LTIME_NOW_LO_LT : Fld := ⟨0x040, 31, 0⟩
/-- R165 -/
abbrev LTIME_NOW_HI_LT : Fld := ⟨0x044, 31, 0⟩
/-- R159 -/
abbrev LTIME_SRC_SRC : Fld := ⟨0x048, 1, 0⟩
/-- Reference package for GLIMMER -/
abbrev LTIME_REFPKG_PKG : Fld := ⟨0x048, 11, 8⟩
/-- Signed, in units of 2⁻⁴⁰ (R160) -/
abbrev LTIME_RATE_RATE : Fld := ⟨0x04C, 31, 0⟩
/-- Signed step, applied on the HI write (R161) -/
abbrev LTIME_STEP_LO_STEP : Fld := ⟨0x050, 31, 0⟩
/-- Signed step, applied on the HI write (R161) -/
abbrev LTIME_STEP_HI_STEP : Fld := ⟨0x054, 31, 0⟩
/-- Expected LT mod 10⁹ at the SYNC_IN edge -/
abbrev LTIME_PPSOFF_NS : Fld := ⟨0x058, 29, 0⟩
/-- Last measured error, signed, saturating -/
abbrev LTIME_ERR_NS : Fld := ⟨0x05C, 31, 0⟩
/-- LT at the last SYNC_IN edge -/
abbrev LTIME_CAP_LO_LT : Fld := ⟨0x064, 31, 0⟩
/-- LT at the last SYNC_IN edge -/
abbrev LTIME_CAP_HI_LT : Fld := ⟨0x068, 31, 0⟩
/-- Clamped RATE writes -/
abbrev LTIME_RATECLAMP_COUNT : Fld := ⟨0x810, 31, 0⟩
/-- Refused steps -/
abbrev LTIME_STEPREFUSE_COUNT : Fld := ⟨0x814, 31, 0⟩
/-- Entries into holdover -/
abbrev LTIME_SRCLOST_COUNT : Fld := ⟨0x818, 31, 0⟩
/-! ### timer -/
abbrev TIMER_CAPLOST_COUNT : Fld := ⟨0x810, 31, 0⟩
/-- Channel counts (R535) -/
abbrev TIMER_CTL_EN : Fld := ⟨0x040, 0, 0⟩
/-- R534 -/
abbrev TIMER_CTL_CLKSRC : Fld := ⟨0x040, 2, 1⟩
/-- R536 -/
abbrev TIMER_CTL_GATE : Fld := ⟨0x040, 4, 3⟩
/-- Gate pin, 0 to 23 -/
abbrev TIMER_CTL_GATEPIN : Fld := ⟨0x040, 9, 5⟩
/-- R537 -/
abbrev TIMER_CTL_MATCHACT : Fld := ⟨0x040, 11, 10⟩
/-- R537 -/
abbrev TIMER_CTL_WRAPACT : Fld := ⟨0x040, 13, 12⟩
/-- R541 -/
abbrev TIMER_CTL_CAPEDGE : Fld := ⟨0x040, 15, 14⟩
/-- Capture pin, 0 to 23 -/
abbrev TIMER_CTL_CAPPIN : Fld := ⟨0x040, 20, 16⟩
/-- TMR c driven by OUT (R533) -/
abbrev TIMER_CTL_OUTEN : Fld := ⟨0x040, 21, 21⟩
/-- OUT at enable and start -/
abbrev TIMER_CTL_INIT : Fld := ⟨0x040, 22, 22⟩
/-- R544 -/
abbrev TIMER_CTL_DBGFRZ : Fld := ⟨0x040, 23, 23⟩
/-- Wrap, match, capture events assert the line (R546) -/
abbrev TIMER_CTL_IRQEN : Fld := ⟨0x040, 26, 24⟩
/-- R534 -/
abbrev TIMER_PRESCALE_DIV : Fld := ⟨0x044, 15, 0⟩
/-- R539, R540 -/
abbrev TIMER_RELOAD_RELOAD : Fld := ⟨0x048, 31, 0⟩
/-- R538 -/
abbrev TIMER_CMP_CMP : Fld := ⟨0x04C, 31, 0⟩
/-- Counter -/
abbrev TIMER_COUNT_COUNT : Fld := ⟨0x050, 31, 0⟩
/-- R542; the read clears CAPFRESH -/
abbrev TIMER_CAP_CAP : Fld := ⟨0x054, 31, 0⟩
/-- R541, R542 -/
abbrev TIMER_CAPLT_LO_LT : Fld := ⟨0x058, 31, 0⟩
/-- R541, R542 -/
abbrev TIMER_CAPLT_HI_LT : Fld := ⟨0x05C, 31, 0⟩
/-- Bit c: unread capture -/
abbrev TIMER_CAPFRESH_FRESH : Fld := ⟨0x340, 23, 0⟩
/-- R539 -/
abbrev TIMER_RLDPEND_PEND : Fld := ⟨0x344, 23, 0⟩
/-- R540 -/
abbrev TIMER_SHORTLAP_SHORT : Fld := ⟨0x348, 23, 0⟩
/-- R546 -/
abbrev TIMER_EVWRAP_EV : Fld := ⟨0x34C, 23, 0⟩
/-- R546 -/
abbrev TIMER_EVMATCH_EV : Fld := ⟨0x350, 23, 0⟩
/-- R546 -/
abbrev TIMER_EVCAP_EV : Fld := ⟨0x354, 23, 0⟩
/-- Start time, ns (R543) -/
abbrev TIMER_START_LO_LT : Fld := ⟨0x358, 31, 0⟩
/-- Start time, ns (R543) -/
abbrev TIMER_START_HI_LT : Fld := ⟨0x35C, 31, 0⟩
/-- Arm the channels named (R543) -/
abbrev TIMER_STARTGO_MASK : Fld := ⟨0x360, 23, 0⟩
/-- Armed, not yet started -/
abbrev TIMER_WAITING_WAIT : Fld := ⟨0x364, 23, 0⟩
/-- Started late (R543) -/
abbrev TIMER_STARTLATE_LATE : Fld := ⟨0x368, 23, 0⟩
/-- Debug halt in force (R544) -/
abbrev TIMER_FROZEN_HALT : Fld := ⟨0x36C, 0, 0⟩
/-- R540 -/
abbrev TIMER_IMMED_IMMED : Fld := ⟨0x400, 23, 0⟩
/-! ### hbmc -/
/-- Bit i: pseudo-channel 16c + i in service -/
abbrev HBMC_PCSTAT_UP : Fld := ⟨0x040, 15, 0⟩
/-- Hottest stack temperature reported, °C -/
abbrev HBMC_TEMP_MAXC : Fld := ⟨0x044, 7, 0⟩
/-- Scrub period, 1 to 255 h; 0 off -/
abbrev HBMC_SCRUB_HOURS : Fld := ⟨0x048, 7, 0⟩
/-- Last corrected line; reading LO latches HI -/
abbrev HBMC_CEADDR_LO_ADDR : Fld := ⟨0x04C, 31, 0⟩
/-- Last corrected line; reading LO latches HI -/
abbrev HBMC_CEADDR_HI_ADDR : Fld := ⟨0x050, 31, 0⟩
/-- Last uncorrectable or integrity line -/
abbrev HBMC_UEADDR_LO_ADDR : Fld := ⟨0x054, 31, 0⟩
/-- Last uncorrectable or integrity line -/
abbrev HBMC_UEADDR_HI_ADDR : Fld := ⟨0x058, 31, 0⟩
/-- Clear the poison bit of the line at HBMC_UEADDR -/
abbrev HBMC_POISONCLR_GO : Fld := ⟨0x05C, 0, 0⟩
/-- Lines read -/
abbrev HBMC_READS_COUNT : Fld := ⟨0x810, 31, 0⟩
/-- Lines written, partial writes included -/
abbrev HBMC_WRITES_COUNT : Fld := ⟨0x814, 31, 0⟩
/-- Corrected reads (R450) -/
abbrev HBMC_CE_COUNT : Fld := ⟨0x818, 31, 0⟩
/-- Uncorrectable lines (R451) -/
abbrev HBMC_UE_COUNT : Fld := ⟨0x81C, 31, 0⟩
/-- Integrity failures (R453) -/
abbrev HBMC_INTEG_COUNT : Fld := ⟨0x820, 31, 0⟩
/-- Errors corrected by scrub -/
abbrev HBMC_SCRUBCE_COUNT : Fld := ⟨0x824, 31, 0⟩
/-- On-die ECC corrections reported by the stacks -/
abbrev HBMC_ODECC_COUNT : Fld := ⟨0x828, 31, 0⟩
/-- Commands repeated for parity -/
abbrev HBMC_PARRETRY_COUNT : Fld := ⟨0x82C, 31, 0⟩
/-- Tag cache hits -/
abbrev HBMC_TAGHIT_COUNT : Fld := ⟨0x830, 31, 0⟩
/-- Tag cache misses -/
abbrev HBMC_TAGMISS_COUNT : Fld := ⟨0x834, 31, 0⟩
/-- Duplicate requests (R439) -/
abbrev HBMC_DUPREQ_COUNT : Fld := ⟨0x838, 31, 0⟩
/-- Requests refused by region (R443) -/
abbrev HBMC_PARTREFUSE_COUNT : Fld := ⟨0x83C, 31, 0⟩
/-- Warp cycles waiting on a full pseudo-channel (R440) -/
abbrev HBMC_QFULLCYC_COUNT : Fld := ⟨0x840, 31, 0⟩
/-! ### memcrypt -/
/-- Region entry whose staged copy MC_REGDATA0–1 reach, which APPLY and WIPE act on, and whose -/
abbrev MC_REGSEL_INDEX : Fld := ⟨0x040, 5, 0⟩
/-- Base in 2 MiB units -/
abbrev MC_REGDATA0_BASE : Fld := ⟨0x044, 14, 0⟩
/-- Size in 2 MiB units -/
abbrev MC_REGDATA0_SIZE : Fld := ⟨0x044, 30, 16⟩
/-- Owning partition -/
abbrev MC_REGDATA1_PART : Fld := ⟨0x048, 4, 0⟩
/-- Key slot -/
abbrev MC_REGDATA1_SLOT : Fld := ⟨0x048, 12, 8⟩
/-- 00 GENERAL, 01 SNAPSHOT, 10 PICKLOG, 11 reserved -/
abbrev MC_REGDATA1_KIND : Fld := ⟨0x048, 17, 16⟩
/-- Entry in use -/
abbrev MC_REGDATA1_VALID : Fld := ⟨0x048, 20, 20⟩
/-- Device tag may reach it (R443) -/
abbrev MC_REGDATA1_DEVACC : Fld := ⟨0x048, 21, 21⟩
/-- 01 APPLY (R444), 10 WIPE (R455) -/
abbrev MC_REGCTL_OP : Fld := ⟨0x04C, 1, 0⟩
/-- 00 IDLE, 01 WIPING, 10 READY -/
abbrev MC_REGSTAT_STATE : Fld := ⟨0x050, 1, 0⟩
/-- Last APPLY refused -/
abbrev MC_REGSTAT_REFUSED : Fld := ⟨0x050, 2, 2⟩
/-- Bit k: slot k loaded -/
abbrev MC_KEYLOADED_SLOTS : Fld := ⟨0x054, 31, 0⟩
/-- Slot reported by MC_KEYGEN -/
abbrev MC_KEYSEL_INDEX : Fld := ⟨0x058, 4, 0⟩
/-- KEYGEN of the selected slot -/
abbrev MC_KEYGEN_GEN : Fld := ⟨0x05C, 15, 0⟩
/-! ### shuttle -/
abbrev SH_STRIDE_SSTRIDE : Fld := ⟨0x058, 15, 0⟩
abbrev SH_STRIDE_DSTRIDE : Fld := ⟨0x058, 31, 16⟩
abbrev SH_EVENT_DONE : Fld := ⟨0x090, 0, 0⟩
abbrev SH_EVENT_ERR : Fld := ⟨0x090, 1, 1⟩
/-- Shadow SRC -/
abbrev SH_SRC_LO_ADDR : Fld := ⟨0x040, 31, 0⟩
/-- Shadow SRC -/
abbrev SH_SRC_HI_ADDR : Fld := ⟨0x044, 31, 0⟩
/-- Shadow DST -/
abbrev SH_DST_LO_ADDR : Fld := ⟨0x048, 31, 0⟩
/-- Shadow DST -/
abbrev SH_DST_HI_ADDR : Fld := ⟨0x04C, 31, 0⟩
/-- Shadow LEN -/
abbrev SH_LEN_LEN : Fld := ⟨0x050, 31, 0⟩
/-- Shadow CFG (R421) -/
abbrev SH_CFG_CFG : Fld := ⟨0x054, 15, 0⟩
/-- Shadow LAMP -/
abbrev SH_CFG_LAMP : Fld := ⟨0x054, 29, 16⟩
/-- Shadow PATTERN -/
abbrev SH_PAT_LO_PATTERN : Fld := ⟨0x05C, 31, 0⟩
/-- Shadow PATTERN -/
abbrev SH_PAT_HI_PATTERN : Fld := ⟨0x060, 31, 0⟩
/-- Shadow NEXT -/
abbrev SH_NEXT_LO_ADDR : Fld := ⟨0x064, 31, 0⟩
/-- Shadow NEXT -/
abbrev SH_NEXT_HI_ADDR : Fld := ⟨0x068, 31, 0⟩
/-- R419 -/
abbrev SH_CTL_GO : Fld := ⟨0x06C, 0, 0⟩
/-- Ends the page lane's active transfer and chain with ABORTED, and disarms the shadow set -/
abbrev SH_CTL_ABORT : Fld := ⟨0x06C, 1, 1⟩
/-- Page lane running -/
abbrev SH_STAT_ACTIVE : Fld := ⟨0x070, 0, 0⟩
/-- Shadow set armed -/
abbrev SH_STAT_ARMED : Fld := ⟨0x070, 1, 1⟩
/-- A GO was refused -/
abbrev SH_STAT_REFUSED : Fld := ⟨0x070, 2, 2⟩
/-- Serving the sibling's lanes (R427) -/
abbrev SH_STAT_TAKEOVER : Fld := ⟨0x070, 3, 3⟩
/-- Page lane's last completion code (R426) -/
abbrev SH_STAT_CODE : Fld := ⟨0x070, 15, 8⟩
/-- Queue-lane entries, 0 to 256 -/
abbrev SH_STAT_QDEPTH : Fld := ⟨0x070, 24, 16⟩
/-- Stream bytes done in the running page-lane transfer -/
abbrev SH_DONE_BYTES : Fld := ⟨0x074, 31, 0⟩
/-- R413 -/
abbrev SH_CMPOFF_OFFSET : Fld := ⟨0x078, 31, 0⟩
/-- R413 -/
abbrev SH_CMPCNT_COUNT : Fld := ⟨0x07C, 31, 0⟩
/-- R426 -/
abbrev SH_ERRADDR_LO_ADDR : Fld := ⟨0x080, 31, 0⟩
/-- R426 -/
abbrev SH_ERRADDR_HI_ADDR : Fld := ⟨0x084, 31, 0⟩
/-- R422 -/
abbrev SH_ERRDESC_LO_ADDR : Fld := ⟨0x088, 31, 0⟩
/-- R422 -/
abbrev SH_ERRDESC_HI_ADDR : Fld := ⟨0x08C, 31, 0⟩
/-- Bit set: the event asserts the block line (R76) -/
abbrev SH_EVENTEN_EN : Fld := ⟨0x094, 1, 0⟩
/-- Stream bytes, in units of 64 -/
abbrev SH_BYTES_COUNT : Fld := ⟨0x810, 31, 0⟩
/-- Descriptors completed, all lanes -/
abbrev SH_DESCS_COUNT : Fld := ⟨0x814, 31, 0⟩
/-- Completions with an error code -/
abbrev SH_ERRORS_COUNT : Fld := ⟨0x818, 31, 0⟩
/-- Refused GOs and shadow writes (R419) -/
abbrev SH_REFUSE_COUNT : Fld := ⟨0x81C, 31, 0⟩
/-- AUTHFAIL and REPLAY completions -/
abbrev SH_AUTHFAIL_COUNT : Fld := ⟨0x820, 31, 0⟩
/-- Descriptors restarted after takeover (R427) -/
abbrev SH_RESTART_COUNT : Fld := ⟨0x824, 31, 0⟩
/-! ### glimmer -/
abbrev GLIM_PKGRT_ENTRY : Fld := ⟨0x080, 31, 0⟩
/-- Port enabled (R507) -/
abbrev GLIM_CFG_EN : Fld := ⟨0x040, 0, 0⟩
/-- Send the wake code (R514) -/
abbrev GLIM_CFG_SENDWAKE : Fld := ⟨0x040, 1, 1⟩
/-- 0 OFF, 1 PROBE, 2 TRAIN, 3 UP, 4 DEGRADED, 5 FAILED, 6 LOSTCODE -/
abbrev GLIM_STAT_STATE : Fld := ⟨0x044, 3, 0⟩
/-- Lanes in service -/
abbrev GLIM_STAT_LANES : Fld := ⟨0x044, 11, 4⟩
/-- Peer package id -/
abbrev GLIM_STAT_PEERPKG : Fld := ⟨0x044, 15, 12⟩
/-- Peer port -/
abbrev GLIM_STAT_PEERPORT : Fld := ⟨0x044, 18, 16⟩
/-- R514 -/
abbrev GLIM_STAT_LOSTSEEN : Fld := ⟨0x044, 19, 19⟩
/-- R514 -/
abbrev GLIM_STAT_WAKESEEN : Fld := ⟨0x044, 20, 20⟩
/-- Signed, in 1/16 ns (R515) -/
abbrev GLIM_ASYM_ASYM : Fld := ⟨0x048, 15, 0⟩
/-- In 1/16 ns -/
abbrev GLIM_DELAY_DELAY : Fld := ⟨0x04C, 23, 0⟩
/-- Signed, in 1/16 ns, saturating -/
abbrev GLIM_OFFSET_OFFSET : Fld := ⟨0x050, 31, 0⟩
/-- Symbol errors per lane per tick (R508); 0 off -/
abbrev GLIM_SERTHR_LIMIT : Fld := ⟨0x054, 23, 0⟩
/-- R518 -/
abbrev GLIM_MIRWAIT_NS : Fld := ⟨0x058, 19, 0⟩
/-- 00 NONE, 01 PROMPT, 10 GENERATE, 11 CACHE -/
abbrev GLIM_JOB_ROLE : Fld := ⟨0x088, 1, 0⟩
/-- Package id (R519) -/
abbrev GLIM_JOB_SELF : Fld := ⟨0x088, 11, 8⟩
/-- Candidate (R521) -/
abbrev GLIM_ELECT_CAND : Fld := ⟨0x08C, 0, 0⟩
/-- Priority -/
abbrev GLIM_ELECT_PRIO : Fld := ⟨0x08C, 7, 4⟩
/-- Elected fabric manager -/
abbrev GLIM_FMSTAT_FM : Fld := ⟨0x090, 3, 0⟩
/-- An election has concluded -/
abbrev GLIM_FMSTAT_VALID : Fld := ⟨0x090, 4, 4⟩
/-- Frames accepted -/
abbrev GLIM_FRAMESRX_COUNT : Fld := ⟨0x810, 31, 0⟩
/-- Codewords corrected -/
abbrev GLIM_FECCE_COUNT : Fld := ⟨0x814, 31, 0⟩
/-- Frames FEC-uncorrectable (R503) -/
abbrev GLIM_FECUE_COUNT : Fld := ⟨0x818, 31, 0⟩
/-- Frames failing CRC after correction -/
abbrev GLIM_CRCFAIL_COUNT : Fld := ⟨0x81C, 31, 0⟩
/-- Packets cut by frame loss (R504) -/
abbrev GLIM_PKTCUT_COUNT : Fld := ⟨0x820, 31, 0⟩
/-- Lanes spared (R508) -/
abbrev GLIM_LANESPARE_COUNT : Fld := ⟨0x824, 31, 0⟩
/-- Open-fibre shutdowns (R526) -/
abbrev GLIM_OFSHUT_COUNT : Fld := ⟨0x828, 31, 0⟩
/-- Reserved marks (R509) -/
abbrev GLIM_BADMARK_COUNT : Fld := ⟨0x82C, 31, 0⟩
/-- Mirror records with no receiving port (R517) -/
abbrev GLIM_MIRDROP_COUNT : Fld := ⟨0x830, 31, 0⟩
/-- Mirror records never filled (R518) -/
abbrev GLIM_MIRLOST_COUNT : Fld := ⟨0x834, 31, 0⟩
/-- Packets passed through (R519) -/
abbrev GLIM_TRANSIT_COUNT : Fld := ⟨0x838, 31, 0⟩
/-- Packets discarded during compute-partition reset -/
abbrev GLIM_RSTDROP_COUNT : Fld := ⟨0x83C, 31, 0⟩
/-- Remote requests refused by role (R522) -/
abbrev GLIM_ROLEDROP_COUNT : Fld := ⟨0x840, 31, 0⟩
/-! ### laser -/
abbrev LASER_MOD_STATE0 : Fld := ⟨0x044, 2, 0⟩
abbrev LASER_MOD_READYOUT0 : Fld := ⟨0x044, 3, 3⟩
abbrev LASER_MOD_LIFEWARN0 : Fld := ⟨0x044, 4, 4⟩
abbrev LASER_MOD_STATE1 : Fld := ⟨0x044, 10, 8⟩
abbrev LASER_MOD_READYOUT1 : Fld := ⟨0x044, 11, 11⟩
abbrev LASER_MOD_LIFEWARN1 : Fld := ⟨0x044, 12, 12⟩
/-- Light permitted (R527) -/
abbrev LASER_CTL_LIGHT : Fld := ⟨0x040, 0, 0⟩
/-- Bit m: release module m -/
abbrev LASER_CTL_RELEASE : Fld := ⟨0x040, 2, 1⟩
/-- Module reported below -/
abbrev LASER_LIFESEL_MODULE : Fld := ⟨0x048, 0, 0⟩
/-- R525 -/
abbrev LASER_POWERED_HOURS : Fld := ⟨0x04C, 31, 0⟩
/-- R525 -/
abbrev LASER_HOT_HOURS : Fld := ⟨0x050, 31, 0⟩
/-- Signed, 0.1 % -/
abbrev LASER_DRIFT_PERMILLE : Fld := ⟨0x054, 15, 0⟩
/-- Case temperature, °C, signed -/
abbrev LASER_CASET_DEGC : Fld := ⟨0x058, 7, 0⟩
/-! ### reed -/
abbrev REED_CSI_VC : Fld := ⟨0x044, 4, 0⟩
abbrev REED_CSI_DT : Fld := ⟨0x044, 13, 8⟩
abbrev REED_CLEVEL1_BIN : Fld := ⟨0x07C, 1, 0⟩
abbrev REED_CLEVEL1_POLMERGE : Fld := ⟨0x07C, 2, 2⟩
abbrev REED_CLEVEL1_MINCOUNT : Fld := ⟨0x07C, 7, 4⟩
abbrev REED_CLEVEL2_BIN : Fld := ⟨0x080, 1, 0⟩
abbrev REED_CLEVEL2_POLMERGE : Fld := ⟨0x080, 2, 2⟩
abbrev REED_CLEVEL2_MINCOUNT : Fld := ⟨0x080, 7, 4⟩
abbrev REED_CLEVEL3_BIN : Fld := ⟨0x084, 1, 0⟩
abbrev REED_CLEVEL3_POLMERGE : Fld := ⟨0x084, 2, 2⟩
abbrev REED_CLEVEL3_MINCOUNT : Fld := ⟨0x084, 7, 4⟩
abbrev REED_RECCTL_CAPEN : Fld := ⟨0x0B0, 0, 0⟩
abbrev REED_RECCTL_CAPWRAP : Fld := ⟨0x0B0, 1, 1⟩
abbrev REED_MIRROR_PORT : Fld := ⟨0x0B4, 2, 0⟩
abbrev REED_MIRROR_EN : Fld := ⟨0x0B4, 3, 3⟩
abbrev REED_SYNC_CHAN : Fld := ⟨0x0B8, 4, 0⟩
abbrev REED_SYNC_EN : Fld := ⟨0x0B8, 7, 7⟩
abbrev REED_I3CCMD_ADDR : Fld := ⟨0x0BC, 6, 0⟩
abbrev REED_I3CCMD_RD : Fld := ⟨0x0BC, 7, 7⟩
abbrev REED_I3CCMD_LEN : Fld := ⟨0x0BC, 15, 8⟩
abbrev REED_I3CCMD_CCC : Fld := ⟨0x0BC, 23, 16⟩
abbrev REED_I3CCMD_CCCEN : Fld := ⟨0x0BC, 24, 24⟩
abbrev REED_I3CSTAT_BUSY : Fld := ⟨0x0C4, 0, 0⟩
abbrev REED_I3CSTAT_NACK : Fld := ⟨0x0C4, 1, 1⟩
abbrev REED_I3CSTAT_IBI : Fld := ⟨0x0C4, 2, 2⟩
abbrev REED_I3CSTAT_IBIADDR : Fld := ⟨0x0C4, 14, 8⟩
/-- 0 D-PHY, 1 C-PHY -/
abbrev REED_CFG_PHY : Fld := ⟨0x040, 0, 0⟩
/-- D-PHY lanes 1, 2, 4; C-PHY trios 1 to 3 -/
abbrev REED_CFG_LANES : Fld := ⟨0x040, 3, 1⟩
/-- R478 -/
abbrev REED_CFG_SRC : Fld := ⟨0x040, 5, 4⟩
/-- R469 -/
abbrev REED_CFG_TSMODE : Fld := ⟨0x040, 6, 6⟩
/-- R467 -/
abbrev REED_CFG_DECMODE : Fld := ⟨0x040, 7, 7⟩
/-- 00 16, 01 32, 10 64 bits -/
abbrev REED_CFG_INWIDTH : Fld := ⟨0x040, 9, 8⟩
/-- R469 -/
abbrev REED_TSOFF_LO_OFF : Fld := ⟨0x048, 31, 0⟩
/-- R469 -/
abbrev REED_TSOFF_HI_OFF : Fld := ⟨0x04C, 31, 0⟩
/-- R474 -/
abbrev REED_GUARD_NS : Fld := ⟨0x050, 19, 0⟩
/-- Tiles per row, 1 to 128 -/
abbrev REED_GEOM_TILESX : Fld := ⟨0x054, 7, 0⟩
/-- Tile entry -/
abbrev REED_TMSEL_INDEX : Fld := ⟨0x058, 13, 0⟩
/-- R471 -/
abbrev REED_TMDATA0_MBASE : Fld := ⟨0x05C, 15, 0⟩
/-- R471 -/
abbrev REED_TMDATA0_GROUP : Fld := ⟨0x05C, 21, 16⟩
/-- R471 -/
abbrev REED_TMDATA0_VALID : Fld := ⟨0x05C, 22, 22⟩
/-- R471 -/
abbrev REED_TMDATA1_MSLOT : Fld := ⟨0x060, 11, 0⟩
/-- Group entry -/
abbrev REED_GRPSEL_INDEX : Fld := ⟨0x064, 5, 0⟩
/-- R471 -/
abbrev REED_GRPDATA0_POP : Fld := ⟨0x068, 19, 0⟩
/-- R471 -/
abbrev REED_GRPDATA0_DELAY : Fld := ⟨0x068, 23, 20⟩
/-- R471 -/
abbrev REED_GRPDATA0_VALID : Fld := ⟨0x068, 24, 24⟩
/-- R471 -/
abbrev REED_GRPDATA1_POLOFF : Fld := ⟨0x06C, 15, 0⟩
/-- Microcode entry -/
abbrev REED_UCSEL_INDEX : Fld := ⟨0x070, 5, 0⟩
/-- R467 -/
abbrev REED_UCDATA_LO_OP : Fld := ⟨0x074, 2, 0⟩
/-- R467 -/
abbrev REED_UCDATA_LO_SRC : Fld := ⟨0x074, 8, 3⟩
/-- R467 -/
abbrev REED_UCDATA_LO_WID : Fld := ⟨0x074, 14, 9⟩
/-- R467 -/
abbrev REED_UCDATA_LO_DST : Fld := ⟨0x074, 19, 15⟩
/-- R467 -/
abbrev REED_UCDATA_LO_TGT : Fld := ⟨0x074, 25, 20⟩
/-- R467 -/
abbrev REED_UCDATA_HI_VAL : Fld := ⟨0x078, 31, 0⟩
/-- R476 -/
abbrev REED_RETBASE_LO_ADDR : Fld := ⟨0x088, 31, 21⟩
/-- R476 -/
abbrev REED_RETBASE_HI_ADDR : Fld := ⟨0x08C, 15, 0⟩
/-- R473 -/
abbrev REED_SPILLBASE_LO_ADDR : Fld := ⟨0x090, 31, 12⟩
/-- R473 -/
abbrev REED_SPILLBASE_HI_ADDR : Fld := ⟨0x094, 15, 0⟩
/-- In 4 KiB -/
abbrev REED_SPILLSIZE_PAGES : Fld := ⟨0x098, 15, 0⟩
/-- R478 -/
abbrev REED_RECBASE_LO_ADDR : Fld := ⟨0x09C, 31, 12⟩
/-- R478 -/
abbrev REED_RECBASE_HI_ADDR : Fld := ⟨0x0A0, 15, 0⟩
/-- In 4 KiB -/
abbrev REED_RECSIZE_PAGES : Fld := ⟨0x0A4, 23, 0⟩
/-- R478 -/
abbrev REED_RECCNT_LO_COUNT : Fld := ⟨0x0A8, 31, 0⟩
/-- R478 -/
abbrev REED_RECCNT_HI_COUNT : Fld := ⟨0x0AC, 31, 0⟩
/-- 256-byte FIFO, 4 bytes per access -/
abbrev REED_I3CDATA_DATA : Fld := ⟨0x0C0, 31, 0⟩
/-- Last status word (R465) -/
abbrev REED_SENSTAT_STATUS : Fld := ⟨0x0C8, 29, 0⟩
/-- Event words leaving the decoder -/
abbrev REED_EVENTS_COUNT : Fld := ⟨0x810, 31, 0⟩
/-- Picks flushed -/
abbrev REED_PICKS_COUNT : Fld := ⟨0x814, 31, 0⟩
/-- R470 -/
abbrev REED_IDLEDROP_COUNT : Fld := ⟨0x818, 31, 0⟩
/-- R470 -/
abbrev REED_LATEDROP_COUNT : Fld := ⟨0x81C, 31, 0⟩
/-- R470 -/
abbrev REED_NOTILE_COUNT : Fld := ⟨0x820, 31, 0⟩
/-- R470 -/
abbrev REED_SPILLDROP_COUNT : Fld := ⟨0x824, 31, 0⟩
/-- Events spilled (R473) -/
abbrev REED_SPILLED_COUNT : Fld := ⟨0x828, 31, 0⟩
/-- Blocks below MINCOUNT -/
abbrev REED_SUBTHRESH_COUNT : Fld := ⟨0x82C, 31, 0⟩
/-- R473 -/
abbrev REED_GRADESAT_COUNT : Fld := ⟨0x830, 31, 0⟩
/-- Words lost at the ingress FIFO (R485) -/
abbrev REED_INQDROP_COUNT : Fld := ⟨0x834, 31, 0⟩
/-- R464 -/
abbrev REED_CRCDROP_COUNT : Fld := ⟨0x838, 31, 0⟩
/-- R464 -/
abbrev REED_OTHERPKT_COUNT : Fld := ⟨0x83C, 31, 0⟩
/-- R468 -/
abbrev REED_DECOVF_COUNT : Fld := ⟨0x840, 31, 0⟩
/-- Status words -/
abbrev REED_STATUSW_COUNT : Fld := ⟨0x844, 31, 0⟩
/-- Re-pick requests served -/
abbrev REED_REPICKSRV_COUNT : Fld := ⟨0x848, 31, 0⟩
/-- Re-pick requests discarded -/
abbrev REED_REPICKBAD_COUNT : Fld := ⟨0x84C, 31, 0⟩
/-- R478 -/
abbrev REED_CAPDROP_COUNT : Fld := ⟨0x850, 31, 0⟩
/-! ### hostport -/
abbrev HOSTPORT_LINK_WIDTH : Fld := ⟨0x060, 3, 0⟩
abbrev HOSTPORT_LINK_SPEED : Fld := ⟨0x060, 7, 4⟩
abbrev HOSTPORT_LINK_UP : Fld := ⟨0x060, 8, 8⟩
/-- Window slot -/
abbrev HOSTPORT_WINSEL_SLOT : Fld := ⟨0x040, 5, 0⟩
/-- Device offset, 4 KiB units -/
abbrev HOSTPORT_WINDBASE_DBASE : Fld := ⟨0x044, 19, 0⟩
/-- 4 KiB units -/
abbrev HOSTPORT_WINSIZE_SIZE : Fld := ⟨0x048, 20, 0⟩
/-- Host address -/
abbrev HOSTPORT_WINHADDR_LO_HADDR : Fld := ⟨0x04C, 31, 0⟩
/-- Host address -/
abbrev HOSTPORT_WINHADDR_HI_HADDR : Fld := ⟨0x050, 31, 0⟩
/-- Slot enabled -/
abbrev HOSTPORT_WINCTL_EN : Fld := ⟨0x054, 0, 0⟩
/-- Slot's partition -/
abbrev HOSTPORT_WINCTL_PART : Fld := ⟨0x054, 12, 8⟩
/-- Last EN refused -/
abbrev HOSTPORT_WINSTAT_REFUSED : Fld := ⟨0x058, 0, 0⟩
/-- R487 -/
abbrev HOSTPORT_DOORBELL_VECTOR : Fld := ⟨0x05C, 4, 0⟩
/-- Bit f: function f has a session -/
abbrev HOSTPORT_SESSION_ACTIVE : Fld := ⟨0x064, 16, 0⟩
/-- R488 -/
abbrev HOSTPORT_RSTDROP_COUNT : Fld := ⟨0x810, 31, 0⟩
/-! ### apc -/
abbrev APC_PARTALLOW_ALLOW : Fld := ⟨0x040, 15, 0⟩
abbrev APC_VMPART_PART : Fld := ⟨0x044, 3, 0⟩
abbrev APC_VMPART_VALID : Fld := ⟨0x044, 31, 31⟩
abbrev APC_PWRREQ_SLEEP : Fld := ⟨0x180, 1, 0⟩
abbrev APC_PWRREQ_FREEZE : Fld := ⟨0x180, 4, 4⟩
abbrev APC_PWRBUDGET_W : Fld := ⟨0x184, 15, 0⟩
/-- End reached by CHDATA0–7 -/
abbrev APC_CHSEL_INDEX : Fld := ⟨0x100, 9, 0⟩
/-- As R373, with RBASE unused -/
abbrev APC_CHDATA0_CHAN : Fld := ⟨0x104, 11, 0⟩
/-- As R373, with RBASE unused -/
abbrev APC_CHDATA0_VALID : Fld := ⟨0x104, 12, 12⟩
/-- As R373, with RBASE unused -/
abbrev APC_CHDATA0_DIR : Fld := ⟨0x104, 13, 13⟩
/-- As R373, with RBASE unused -/
abbrev APC_CHDATA0_PKG : Fld := ⟨0x104, 17, 14⟩
/-- As R373, with RBASE unused -/
abbrev APC_CHDATA0_PEER : Fld := ⟨0x104, 28, 18⟩
/-- As R373, with RBASE unused -/
abbrev APC_CHDATA1_NHOPS : Fld := ⟨0x108, 6, 0⟩
/-- As R373, with RBASE unused -/
abbrev APC_CHDATA1_XSEL : Fld := ⟨0x108, 10, 7⟩
/-- As R373, with RBASE unused -/
abbrev APC_CHDATA1_RSIZE : Fld := ⟨0x108, 14, 11⟩
/-- As R373, with RBASE unused -/
abbrev APC_CHDATA1_RBASE : Fld := ⟨0x108, 27, 15⟩
/-- As R373, with RBASE unused -/
abbrev APC_CHDATA1_GEN : Fld := ⟨0x108, 31, 28⟩
/-- As R373, with RBASE unused -/
abbrev APC_CHDATA2_HOPS0 : Fld := ⟨0x10C, 31, 0⟩
/-- As R373, with RBASE unused -/
abbrev APC_CHDATA3_HOPS1 : Fld := ⟨0x110, 31, 0⟩
/-- As R373, with RBASE unused -/
abbrev APC_CHDATA4_HOPS2 : Fld := ⟨0x114, 31, 0⟩
/-- As R373, with RBASE unused -/
abbrev APC_CHDATA5_HOPS3 : Fld := ⟨0x118, 31, 0⟩
/-- As R373, with RBASE unused -/
abbrev APC_CHDATA6_HOPS4 : Fld := ⟨0x11C, 31, 0⟩
/-- As R373, with RBASE unused -/
abbrev APC_CHDATA7_HOPS5 : Fld := ⟨0x120, 31, 0⟩
/-- Partition of the end -/
abbrev APC_CHPART_PART : Fld := ⟨0x124, 4, 0⟩
/-- Arrival asserts the APC line -/
abbrev APC_CHPART_IRQEN : Fld := ⟨0x124, 8, 8⟩
/-- Ring descriptor in HBM -/
abbrev APC_CHRBASE_LO_ADDR : Fld := ⟨0x128, 31, 6⟩
/-- Ring descriptor in HBM -/
abbrev APC_CHRBASE_HI_ADDR : Fld := ⟨0x12C, 15, 0⟩
/-- Send the message at ADDR; performed on the HI write -/
abbrev APC_CHSEND_LO_ADDR : Fld := ⟨0x130, 31, 3⟩
/-- Send the message at ADDR; performed on the HI write -/
abbrev APC_CHSEND_HI_ADDR : Fld := ⟨0x134, 15, 0⟩
/-- Last send or release, codes of R295 -/
abbrev APC_CHSTAT_STATUS : Fld := ⟨0x138, 2, 0⟩
/-- Head message address, or 0 -/
abbrev APC_CHPOLL_LO_ADDR : Fld := ⟨0x13C, 31, 0⟩
/-- Head message address, or 0 -/
abbrev APC_CHPOLL_HI_ADDR : Fld := ⟨0x140, 31, 0⟩
/-- Release the head message (R386) -/
abbrev APC_CHDONE_DONE : Fld := ⟨0x144, 0, 0⟩
/-- Error responses to harts (R38); the first of the block-specific counters (R54), at their first offset (log entry 101) -/
abbrev APC_DECODEERR_COUNT : Fld := ⟨0x810, 31, 0⟩
/-! ### netio -/
abbrev NETIO_RSEL_RING : Fld := ⟨0x040, 2, 0⟩
abbrev NETIO_RSEL_DIR : Fld := ⟨0x040, 3, 3⟩
abbrev NETIO_RSEL_CTRL : Fld := ⟨0x040, 5, 4⟩
abbrev NETIO_BITTIMING_WORD : Fld := ⟨0x100, 31, 0⟩
/-- 0 Ethernet, 1 CAN -/
abbrev NETIO_RSEL_CAN : Fld := ⟨0x040, 6, 6⟩
/-- Ring base, 64-byte aligned -/
abbrev NETIO_RBASE_LO_IOVA : Fld := ⟨0x044, 31, 0⟩
/-- Ring base, 64-byte aligned -/
abbrev NETIO_RBASE_HI_IOVA : Fld := ⟨0x048, 31, 0⟩
/-- 0 disables the ring -/
abbrev NETIO_RSIZE_ENTRIES : Fld := ⟨0x04C, 15, 0⟩
/-- Next entry NETIO will use -/
abbrev NETIO_RHEAD_HEAD : Fld := ⟨0x050, 15, 0⟩
/-- First entry software has not handed over -/
abbrev NETIO_RTAIL_TAIL : Fld := ⟨0x054, 15, 0⟩
/-- Signed asymmetry correction of the MAC in CTRL -/
abbrev NETIO_ETSASYM_NS : Fld := ⟨0x058, 31, 0⟩
/-- Bit n: pin n is an output -/
abbrev NETIO_GPDIR_DIR : Fld := ⟨0x060, 31, 0⟩
/-- Output levels -/
abbrev NETIO_GPOUT_OUT : Fld := ⟨0x064, 31, 0⟩
/-- Pin levels, synchronised -/
abbrev NETIO_GPIN_IN : Fld := ⟨0x068, 31, 0⟩
/-- Edge event enables -/
abbrev NETIO_GPIRQEN_EN : Fld := ⟨0x06C, 31, 0⟩
/-- 1 rising, 0 falling -/
abbrev NETIO_GPEDGE_RISE : Fld := ⟨0x070, 31, 0⟩
/-- Edge seen; asserts the NETIO line (R76) while enabled -/
abbrev NETIO_GPEVENT_EVENT : Fld := ⟨0x074, 31, 0⟩
/-! ### hub -/
abbrev HUB_ROWMAP1_MAP : Fld := ⟨0x088, 29, 0⟩
abbrev HUB_ROWMAP2_MAP : Fld := ⟨0x08C, 19, 0⟩
/-- Directory index in this hub's slice -/
abbrev HUB_DIRSEL_INDEX : Fld := ⟨0x040, 15, 0⟩
/-- Words of the selected entry -/
abbrev HUB_DIRDATA0_VALID : Fld := ⟨0x044, 0, 0⟩
/-- Words of the selected entry -/
abbrev HUB_DIRDATA0_KIND : Fld := ⟨0x044, 3, 1⟩
/-- Words of the selected entry -/
abbrev HUB_DIRDATA0_PLASTIC : Fld := ⟨0x044, 4, 4⟩
/-- Words of the selected entry -/
abbrev HUB_DIRDATA0_PART : Fld := ⟨0x044, 9, 5⟩
/-- Words of the selected entry -/
abbrev HUB_DIRDATA0_SIZEM1 : Fld := ⟨0x044, 31, 16⟩
/-- Words of the selected entry -/
abbrev HUB_DIRDATA1_RSETLO : Fld := ⟨0x048, 31, 0⟩
/-- Words of the selected entry -/
abbrev HUB_DIRDATA2_RSETHI : Fld := ⟨0x04C, 10, 0⟩
/-- Words of the selected entry -/
abbrev HUB_DIRDATA2_RCOUNT : Fld := ⟨0x04C, 22, 11⟩
/-- Words of the selected entry -/
abbrev HUB_DIRDATA3_TAG : Fld := ⟨0x050, 31, 0⟩
/-- Queue within the hub -/
abbrev HUB_PLYSEL_INDEX : Fld := ⟨0x060, 3, 0⟩
/-- Contributions per round, 1 to 1,023; 0 means 1,024 -/
abbrev HUB_PLYCFG_EXPECT : Fld := ⟨0x064, 9, 0⟩
/-- Result slots, 1 to 255; 0 means 256 -/
abbrev HUB_PLYCFG_RESLEN : Fld := ⟨0x064, 23, 16⟩
/-- Logical loom receiving results -/
abbrev HUB_PLYDLOOM_LOOM : Fld := ⟨0x068, 9, 0⟩
/-- Scratch offset of the result slots -/
abbrev HUB_PLYDOFF_DOFF : Fld := ⟨0x06C, 18, 3⟩
/-- Lamp lit per result -/
abbrev HUB_PLYLAMP_LAMP : Fld := ⟨0x070, 13, 0⟩
/-- Light the lamp -/
abbrev HUB_PLYLAMP_LAMPEN : Fld := ⟨0x070, 16, 16⟩
/-- 01 ARM, 10 DISARM, 11 FORCE (custody requesters only) -/
abbrev HUB_PLYCTL_OP : Fld := ⟨0x074, 1, 0⟩
/-- 00 IDLE, 01 ARMED, 10 ERROR -/
abbrev HUB_PLYCTL_STATE : Fld := ⟨0x074, 5, 4⟩
/-- Next round to deliver -/
abbrev HUB_PLYNEXT_ROUND : Fld := ⟨0x078, 31, 0⟩
/-- Owning partition -/
abbrev HUB_PLYPART_PART : Fld := ⟨0x07C, 4, 0⟩
/-- Row-half 0 to 2; 3 is ignored -/
abbrev HUB_ROWSEL_ROW : Fld := ⟨0x080, 1, 0⟩
/-- Columns 0 to 5, column c at [5c + 4 : 5c] -/
abbrev HUB_ROWMAP0_MAP : Fld := ⟨0x084, 29, 0⟩
/-- Bit s: site s isolated (R355) -/
abbrev HUB_ROWISO_ISO : Fld := ⟨0x090, 16, 0⟩
/-- Bit s: site s fused bad -/
abbrev HUB_ROWPASS_PASS : Fld := ⟨0x094, 16, 0⟩
/-- Apply the staged map (R354) -/
abbrev HUB_ROWGO_GO : Fld := ⟨0x098, 0, 0⟩
/-- Map change in progress -/
abbrev HUB_ROWSTAT_BUSY : Fld := ⟨0x09C, 0, 0⟩
/-- Last map refused -/
abbrev HUB_ROWSTAT_REFUSED : Fld := ⟨0x09C, 1, 1⟩
/-- Site of the last CRC failure -/
abbrev HUB_LASTERR_SITE : Fld := ⟨0x0A0, 4, 0⟩
/-- Row -/
abbrev HUB_LASTERR_ROW : Fld := ⟨0x0A0, 9, 5⟩
/-- Half -/
abbrev HUB_LASTERR_HALF : Fld := ⟨0x0A0, 10, 10⟩
/-- 000 N, 001 E, 010 S, 011 W, 100 local, 101 edge -/
abbrev HUB_LASTERR_PORT : Fld := ⟨0x0A0, 13, 11⟩
/-- R351; 0 off -/
abbrev HUB_LINKTHR_LIMIT : Fld := ⟨0x0A4, 15, 0⟩
/-- Flits failing CRC in the hub's rows -/
abbrev HUB_CRCERR_COUNT : Fld := ⟨0x810, 31, 0⟩
/-- Packets cut by CRC failure -/
abbrev HUB_PKTABORT_COUNT : Fld := ⟨0x814, 31, 0⟩
/-- Packets reaching isolated sites -/
abbrev HUB_ISODROP_COUNT : Fld := ⟨0x818, 31, 0⟩
/-- Packets to NONE columns -/
abbrev HUB_NOSITEDROP_COUNT : Fld := ⟨0x81C, 31, 0⟩
/-- Contributions accepted -/
abbrev HUB_PLYACC_COUNT : Fld := ⟨0x820, 31, 0⟩
/-- Duplicate contributions -/
abbrev HUB_PLYDUP_COUNT : Fld := ⟨0x824, 31, 0⟩
/-- Contributions discarded (R352, R358, R360, R361) -/
abbrev HUB_PLYDROP_COUNT : Fld := ⟨0x828, 31, 0⟩
/-- Rounds delivered and confirmed -/
abbrev HUB_PLYROUNDS_COUNT : Fld := ⟨0x82C, 31, 0⟩
/-- Round results clamped -/
abbrev HUB_PLYSAT_COUNT : Fld := ⟨0x830, 31, 0⟩
/-- Selvedge link retries -/
abbrev HUB_SELVRETRY_COUNT : Fld := ⟨0x834, 31, 0⟩
/-- Directory requests served -/
abbrev HUB_DIRREQ_COUNT : Fld := ⟨0x838, 31, 0⟩
/-- Lamp index within the hub -/
abbrev HUB_LAMPSEL_INDEX : Fld := ⟨0x0C0, 9, 0⟩
/-- Lamp value; reading LO latches HI -/
abbrev HUB_LAMPVAL_LO_VALUE : Fld := ⟨0x0C4, 31, 0⟩
/-- Lamp value; reading LO latches HI -/
abbrev HUB_LAMPVAL_HI_VALUE : Fld := ⟨0x0C8, 31, 0⟩
/-- ADD performed on the HI write (R395) -/
abbrev HUB_LAMPADD_LO_ADD : Fld := ⟨0x0CC, 31, 0⟩
/-- ADD performed on the HI write (R395) -/
abbrev HUB_LAMPADD_HI_ADD : Fld := ⟨0x0D0, 31, 0⟩
/-- R401; performed on the HI write -/
abbrev HUB_LAMPFORCE_LO_VALUE : Fld := ⟨0x0D4, 31, 0⟩
/-- R401; performed on the HI write -/
abbrev HUB_LAMPFORCE_HI_VALUE : Fld := ⟨0x0D8, 31, 0⟩
/-- Window watch slot -/
abbrev HUB_WATCHSEL_SLOT : Fld := ⟨0x0DC, 5, 0⟩
/-- Target, for the lamp in HUB_LAMPSEL at ARM -/
abbrev HUB_WATCHTGT_LO_TARGET : Fld := ⟨0x0E0, 31, 0⟩
/-- Target, for the lamp in HUB_LAMPSEL at ARM -/
abbrev HUB_WATCHTGT_HI_TARGET : Fld := ⟨0x0E4, 31, 0⟩
/-- Timeout; 0 none -/
abbrev HUB_WATCHTMO_NS : Fld := ⟨0x0E8, 31, 0⟩
/-- 01 ARM, 10 CANCEL -/
abbrev HUB_WATCHCTL_OP : Fld := ⟨0x0EC, 1, 0⟩
/-- 000 IDLE, 001 WAITING, 010 MET, 011 TIMEOUT, 100 REFUSED -/
abbrev HUB_WATCHCTL_STATUS : Fld := ⟨0x0EC, 6, 4⟩
/-- Completion asserts the hub's line (R76) -/
abbrev HUB_WATCHCTL_IRQEN : Fld := ⟨0x0EC, 8, 8⟩
/-- Block b's partition at word ⌊b / 6⌋, bits [5(b mod 6) + 4 : 5(b mod 6)] -/
abbrev HUB_LAMPPART_PART : Fld := ⟨0x0F0, 29, 0⟩
/-- ADDs applied -/
abbrev HUB_LAMPADDS_COUNT : Fld := ⟨0x840, 31, 0⟩
/-- Saturated ADDs (R395) -/
abbrev HUB_LAMPSAT_COUNT : Fld := ⟨0x844, 31, 0⟩
/-- Watches MET -/
abbrev HUB_WATCHMET_COUNT : Fld := ⟨0x848, 31, 0⟩
/-- Watches timed out -/
abbrev HUB_WATCHTMO_COUNT : Fld := ⟨0x84C, 31, 0⟩
/-- Operations refused (R393) -/
abbrev HUB_LAMPREFUSE_COUNT : Fld := ⟨0x850, 31, 0⟩
/-- Blocks zeroed at partition switch (R400) -/
abbrev HUB_LAMPZERO_COUNT : Fld := ⟨0x854, 31, 0⟩
/-- Forces (R401) -/
abbrev HUB_LAMPFORCE_COUNT : Fld := ⟨0x858, 31, 0⟩
/-- Window watches refused for want of a slot (R398) -/
abbrev HUB_WATCHFULL_COUNT : Fld := ⟨0x85C, 31, 0⟩
/-! ### seam -/
abbrev SEAM_LINKUP_UP : Fld := ⟨0x040, 23, 0⟩
/-- Flits failing CRC on stitched hops -/
abbrev SEAM_CRCERR_COUNT : Fld := ⟨0x810, 31, 0⟩
/-- Packets with an XSEL that names no port (R340) -/
abbrev SEAM_SWDROP_COUNT : Fld := ⟨0x814, 31, 0⟩
/-! ### partition -/
abbrev PART_STATE_STATE : Fld := ⟨0x040, 31, 0⟩
abbrev PART_LOOMS_COUNT : Fld := ⟨0x044, 9, 0⟩
/-! ### loom -/
abbrev LOOM_SNAPHOLD_COUNT : Fld := ⟨0x9B0, 31, 0⟩
abbrev LOOM_LOGWAIT_COUNT : Fld := ⟨0x9B4, 31, 0⟩
abbrev LOOM_TIMEDEP_COUNT : Fld := ⟨0x9B8, 31, 0⟩
abbrev LOOM_SEQHOOKI_EN : Fld := ⟨0x218, 0, 0⟩
abbrev LOOM_SEQHOOKI_ADDR : Fld := ⟨0x218, 18, 2⟩
abbrev LOOM_SEQHOOKS_EN : Fld := ⟨0x21C, 0, 0⟩
abbrev LOOM_SEQHOOKS_ADDR : Fld := ⟨0x21C, 18, 2⟩
abbrev LOOM_SEQHOOKE_EN : Fld := ⟨0x220, 0, 0⟩
abbrev LOOM_SEQHOOKE_ADDR : Fld := ⟨0x220, 18, 2⟩
abbrev LOOM_BANKOWN_OWNER0 : Fld := ⟨0x240, 3, 0⟩
abbrev LOOM_BANKOWN_OWNER1 : Fld := ⟨0x240, 7, 4⟩
abbrev LOOM_BANKOWN_OWNER2 : Fld := ⟨0x240, 11, 8⟩
abbrev LOOM_BANKOWN_OWNER3 : Fld := ⟨0x240, 15, 12⟩
abbrev LOOM_BANKOWN_OWNER4 : Fld := ⟨0x240, 19, 16⟩
abbrev LOOM_BANKOWN_OWNER5 : Fld := ⟨0x240, 23, 20⟩
abbrev LOOM_BANKOWN_OWNER6 : Fld := ⟨0x240, 27, 24⟩
abbrev LOOM_BANKOWN_OWNER7 : Fld := ⟨0x240, 31, 28⟩
abbrev LOOM_SPILLBASE_LO_ADDR : Fld := ⟨0x050, 31, 12⟩
abbrev LOOM_SPILLBASE_HI_ADDR : Fld := ⟨0x054, 15, 0⟩
/-- Slots updated in SETTLE, 0 to 32,768 -/
abbrev LOOM_NSLOTS_NSLOTS : Fld := ⟨0x040, 16, 0⟩
/-- Scratch offset of the accumulator area, 8-byte aligned -/
abbrev LOOM_ACCBASE_BASE : Fld := ⟨0x044, 18, 3⟩
/-- Scratch offset of the delay-queue area, 256-byte aligned -/
abbrev LOOM_DQBASE_BASE : Fld := ⟨0x048, 18, 8⟩
/-- Delay-queue area size in 256-byte chunks -/
abbrev LOOM_DQSIZE_SIZE : Fld := ⟨0x04C, 18, 8⟩
/-- Spill region size in 4 KiB pages, 0 to 65,535 -/
abbrev LOOM_SPILLSIZE_SIZE : Fld := ⟨0x058, 15, 0⟩
/-- Queue entries held, area and spill; the area and a full spill region of 65,535 pages hold  -/
abbrev LOOM_DQCOUNT_COUNT : Fld := ⟨0x05C, 31, 0⟩
/-- Threshold-table entry reached by THDATA0 to THDATA3 -/
abbrev LOOM_THSEL_INDEX : Fld := ⟨0x060, 5, 0⟩
/-- Words of the selected entry (R84) -/
abbrev LOOM_THDATA0_THETA : Fld := ⟨0x064, 23, 0⟩
/-- Words of the selected entry (R84) -/
abbrev LOOM_THDATA0_GMAX : Fld := ⟨0x064, 27, 24⟩
/-- Words of the selected entry (R84) -/
abbrev LOOM_THDATA0_EMODE : Fld := ⟨0x064, 28, 28⟩
/-- Words of the selected entry (R84) -/
abbrev LOOM_THDATA1_LEAKK : Fld := ⟨0x068, 3, 0⟩
/-- Words of the selected entry (R84) -/
abbrev LOOM_THDATA1_REFP : Fld := ⟨0x068, 7, 4⟩
/-- Words of the selected entry (R84) -/
abbrev LOOM_THDATA1_VSHIFT : Fld := ⟨0x068, 11, 8⟩
/-- Words of the selected entry (R84) -/
abbrev LOOM_THDATA1_BIAS : Fld := ⟨0x068, 31, 16⟩
/-- Words of the selected entry (R84) -/
abbrev LOOM_THDATA2_AINC : Fld := ⟨0x06C, 15, 0⟩
/-- Words of the selected entry (R84) -/
abbrev LOOM_THDATA2_ADECK : Fld := ⟨0x06C, 19, 16⟩
/-- Words of the selected entry (R84) -/
abbrev LOOM_THDATA3_VFLOOR : Fld := ⟨0x070, 23, 0⟩
/-- SATLAST level that reports a SATURATION event; 0 off -/
abbrev LOOM_SATBURST_LIMIT : Fld := ⟨0x074, 16, 0⟩
/-- 000 idle, 001 OPEN, 010 INTEGRATE, 011 CLOSE, 100 SETTLE, 101 EMIT -/
abbrev LOOM_NESTAT_PHASE : Fld := ⟨0x078, 2, 0⟩
/-- Current beat number mod 2¹⁶ -/
abbrev LOOM_NESTAT_BEAT : Fld := ⟨0x078, 31, 16⟩
/-- Neurons clipped or value-saturated, once per neuron per beat (R94, R95) -/
abbrev LOOM_SATCOUNT_COUNT : Fld := ⟨0x810, 31, 0⟩
/-- SATCOUNT increments in the last completed SETTLE -/
abbrev LOOM_SATLAST_COUNT : Fld := ⟨0x814, 31, 0⟩
/-- Membrane clamps at the 24-bit range (R97) -/
abbrev LOOM_MEMSAT_COUNT : Fld := ⟨0x818, 31, 0⟩
/-- Picks emitted by the neuron engine -/
abbrev LOOM_EMITTED_COUNT : Fld := ⟨0x81C, 31, 0⟩
/-- Picks accepted from the fabric, including discarded ones -/
abbrev LOOM_PICKSIN_COUNT : Fld := ⟨0x820, 31, 0⟩
/-- Contributions added to accumulators or queued -/
abbrev LOOM_CONTRIB_COUNT : Fld := ⟨0x824, 31, 0⟩
/-- Non-zero accumulators discarded in refractory beats -/
abbrev LOOM_REFDROP_COUNT : Fld := ⟨0x828, 31, 0⟩
/-- Non-zero accumulators cleared at OFF slots -/
abbrev LOOM_OFFHIT_COUNT : Fld := ⟨0x82C, 31, 0⟩
/-- Contributions to slots at or above NSLOTS -/
abbrev LOOM_TGTRANGE_COUNT : Fld := ⟨0x830, 31, 0⟩
/-- Arriving picks of a kind not carried (R102) -/
abbrev LOOM_BADKIND_COUNT : Fld := ⟨0x834, 31, 0⟩
/-- Queue entries written to the spill region -/
abbrev LOOM_DQSPILL_COUNT : Fld := ⟨0x838, 31, 0⟩
/-- Corrected single-bit errors in the neuron store -/
abbrev LOOM_NSCE_COUNT : Fld := ⟨0x83C, 31, 0⟩
/-- Segment reached by SEGDATA0–3 -/
abbrev LOOM_SEGSEL_INDEX : Fld := ⟨0x080, 5, 0⟩
/-- Words of the selected segment (R129) -/
abbrev LOOM_SEGDATA0_BASE : Fld := ⟨0x084, 15, 0⟩
/-- Words of the selected segment (R129) -/
abbrev LOOM_SEGDATA0_LEN : Fld := ⟨0x084, 31, 16⟩
/-- Words of the selected segment (R129) -/
abbrev LOOM_SEGDATA1_POP : Fld := ⟨0x088, 19, 0⟩
/-- Words of the selected segment (R129) -/
abbrev LOOM_SEGDATA1_DELAY : Fld := ⟨0x088, 23, 20⟩
/-- Words of the selected segment (R129) -/
abbrev LOOM_SEGDATA1_SKIND : Fld := ⟨0x088, 25, 24⟩
/-- Words of the selected segment (R129) -/
abbrev LOOM_SEGDATA2_M0 : Fld := ⟨0x08C, 15, 0⟩
/-- Words of the selected segment (R129) -/
abbrev LOOM_SEGDATA3_ROUTE : Fld := ⟨0x090, 11, 0⟩
/-- Synapse-store offset of the afferent table, 16-byte aligned -/
abbrev LOOM_AFFBASE_BASE : Fld := ⟨0x094, 18, 4⟩
/-- 0 no table (every pick misses); 4 to 12; other values rejected -/
abbrev LOOM_AFFCFG_AFFBITS : Fld := ⟨0x098, 3, 0⟩
/-- Probes 1 to 7; 0 means 8 -/
abbrev LOOM_AFFCFG_AFFPROBE : Fld := ⟨0x098, 6, 4⟩
/-- Scratch offset of the row cache, 4 KiB aligned -/
abbrev LOOM_RCBASE_BASE : Fld := ⟨0x09C, 18, 12⟩
/-- In 4 KiB: 0, 4, 8, 16, 32 or 64; other values rejected -/
abbrev LOOM_RCSIZE_SIZE : Fld := ⟨0x0A0, 6, 0⟩
/-- Invalidate the row cache at next OPEN (R151) -/
abbrev LOOM_RCINV_INV : Fld := ⟨0x0A4, 0, 0⟩
/-- Picks whose source population had no afferent entry -/
abbrev LOOM_AFFMISS_COUNT : Fld := ⟨0x840, 31, 0⟩
/-- Picks with member out of range or pointer NONE -/
abbrev LOOM_NOROW_COUNT : Fld := ⟨0x844, 31, 0⟩
/-- Rows fetched -/
abbrev LOOM_ROWS_COUNT : Fld := ⟨0x848, 31, 0⟩
/-- Row-cache line hits -/
abbrev LOOM_RCHIT_COUNT : Fld := ⟨0x84C, 31, 0⟩
/-- Row-cache line fills, and HBM row lines read with LOOM_RCSIZE 0 (R150) -/
abbrev LOOM_RCMISS_COUNT : Fld := ⟨0x850, 31, 0⟩
/-- Entries of reserved type, or delayed FRAME and MOD entries -/
abbrev LOOM_BADSYN_COUNT : Fld := ⟨0x854, 31, 0⟩
/-- Emissions suppressed for slots in no segment -/
abbrev LOOM_NOSEG_COUNT : Fld := ⟨0x858, 31, 0⟩
/-- Corrected single-bit errors in the synapse store -/
abbrev LOOM_SSCE_COUNT : Fld := ⟨0x85C, 31, 0⟩
/-- Route-cache misses -/
abbrev LOOM_RTMISS_COUNT : Fld := ⟨0x860, 31, 0⟩
/-- HBM rows fetched with PLASTIC set -/
abbrev LOOM_HBMPLAST_COUNT : Fld := ⟨0x864, 31, 0⟩
/-- Retention ring, 128 KiB, 4 KiB aligned -/
abbrev LOOM_RETBASE_BASE : Fld := ⟨0x0C0, 18, 12⟩
/-- Inbound stream table, 16-byte aligned -/
abbrev LOOM_INSTBASE_BASE : Fld := ⟨0x0C4, 18, 4⟩
/-- Entries, 0 to 4,096 -/
abbrev LOOM_INSTCOUNT_COUNT : Fld := ⟨0x0C8, 12, 0⟩
/-- R181 -/
abbrev LOOM_NISTAT_BALANCED : Fld := ⟨0x0CC, 0, 0⟩
/-- Current beat is a retry round -/
abbrev LOOM_NISTAT_RETRY : Fld := ⟨0x0CC, 1, 1⟩
/-- Streams whose marker is not yet recorded -/
abbrev LOOM_NISTAT_UNCLOSED : Fld := ⟨0x0CC, 28, 16⟩
/-- Picks found missing by gap or marker -/
abbrev LOOM_GAPPICKS_COUNT : Fld := ⟨0x870, 31, 0⟩
/-- REPICK words sent, repeats included -/
abbrev LOOM_REPICKREQ_COUNT : Fld := ⟨0x874, 31, 0⟩
/-- Re-sent picks accepted -/
abbrev LOOM_REPICKRX_COUNT : Fld := ⟨0x878, 31, 0⟩
/-- Requests served -/
abbrev LOOM_REPICKSRV_COUNT : Fld := ⟨0x87C, 31, 0⟩
/-- Requests discarded (R186) -/
abbrev LOOM_REPICKBAD_COUNT : Fld := ⟨0x880, 31, 0⟩
/-- Duplicates and stale words -/
abbrev LOOM_DUPDROP_COUNT : Fld := ⟨0x884, 31, 0⟩
/-- Packets of unlisted streams -/
abbrev LOOM_STRAYDROP_COUNT : Fld := ⟨0x888, 31, 0⟩
/-- Arrivals discarded in a retry drain -/
abbrev LOOM_ABORTDROP_COUNT : Fld := ⟨0x88C, 31, 0⟩
/-- Frame reached by FRDATA0–3 -/
abbrev LOOM_FRSEL_INDEX : Fld := ⟨0x100, 3, 0⟩
/-- Words of the selected frame (R226) -/
abbrev LOOM_FRDATA0_BASE : Fld := ⟨0x104, 15, 0⟩
/-- Words of the selected frame (R226) -/
abbrev LOOM_FRDATA0_OUTBASE : Fld := ⟨0x104, 31, 16⟩
/-- Words of the selected frame (R226) -/
abbrev LOOM_FRDATA1_OUTSCBASE : Fld := ⟨0x108, 15, 0⟩
/-- Words of the selected frame (R226) -/
abbrev LOOM_FRDATA1_ROWSM1 : Fld := ⟨0x108, 19, 16⟩
/-- Words of the selected frame (R226) -/
abbrev LOOM_FRDATA1_G : Fld := ⟨0x108, 21, 20⟩
/-- Words of the selected frame (R226) -/
abbrev LOOM_FRDATA1_FMT : Fld := ⟨0x108, 22, 22⟩
/-- Words of the selected frame (R226) -/
abbrev LOOM_FRDATA1_VALID : Fld := ⟨0x108, 23, 23⟩
/-- Words of the selected frame (R226) -/
abbrev LOOM_FRDATA2_KLEN : Fld := ⟨0x10C, 15, 0⟩
/-- Words of the selected frame (R226) -/
abbrev LOOM_FRDATA2_FEXP : Fld := ⟨0x10C, 24, 16⟩
/-- R226 -/
abbrev LOOM_FRDATA3_LASTHITS : Fld := ⟨0x110, 31, 0⟩
/-- Operation reached by DOPDATA0–7 -/
abbrev LOOM_DOPSEL_INDEX : Fld := ⟨0x114, 4, 0⟩
/-- Words of the selected operation (R221) -/
abbrev LOOM_DOPDATA0_VALID : Fld := ⟨0x118, 0, 0⟩
/-- Words of the selected operation (R221) -/
abbrev LOOM_DOPDATA0_KIND : Fld := ⟨0x118, 2, 1⟩
/-- Words of the selected operation (R221) -/
abbrev LOOM_DOPDATA0_TRIGGER : Fld := ⟨0x118, 3, 3⟩
/-- Words of the selected operation (R221) -/
abbrev LOOM_DOPDATA0_FRAME : Fld := ⟨0x118, 7, 4⟩
/-- Words of the selected operation (R221) -/
abbrev LOOM_DOPDATA0_ASRC : Fld := ⟨0x118, 8, 8⟩
/-- Words of the selected operation (R221) -/
abbrev LOOM_DOPDATA0_SKIPEMPTY : Fld := ⟨0x118, 9, 9⟩
/-- Words of the selected operation (R221) -/
abbrev LOOM_DOPDATA0_ZSKIP : Fld := ⟨0x118, 10, 10⟩
/-- Words of the selected operation (R221) -/
abbrev LOOM_DOPDATA0_BIASEN : Fld := ⟨0x118, 11, 11⟩
/-- Words of the selected operation (R221) -/
abbrev LOOM_DOPDATA0_PERIOD : Fld := ⟨0x118, 23, 16⟩
/-- Words of the selected operation (R221) -/
abbrev LOOM_DOPDATA0_PHASE : Fld := ⟨0x118, 31, 24⟩
/-- Words of the selected operation (R221) -/
abbrev LOOM_DOPDATA1_MM1 : Fld := ⟨0x11C, 8, 0⟩
/-- Words of the selected operation (R221) -/
abbrev LOOM_DOPDATA1_NM1 : Fld := ⟨0x11C, 20, 9⟩
/-- Words of the selected operation (R221) -/
abbrev LOOM_DOPDATA2_K : Fld := ⟨0x120, 15, 0⟩
/-- Words of the selected operation (R221) -/
abbrev LOOM_DOPDATA2_GA : Fld := ⟨0x120, 17, 16⟩
/-- Words of the selected operation (R221) -/
abbrev LOOM_DOPDATA2_FMTA : Fld := ⟨0x120, 18, 18⟩
/-- Words of the selected operation (R221) -/
abbrev LOOM_DOPDATA2_FMTW : Fld := ⟨0x120, 19, 19⟩
/-- Words of the selected operation (R221) -/
abbrev LOOM_DOPDATA2_WSCALE : Fld := ⟨0x120, 20, 20⟩
/-- Words of the selected operation (R221) -/
abbrev LOOM_DOPDATA2_RELU : Fld := ⟨0x120, 21, 21⟩
/-- Words of the selected operation (R221) -/
abbrev LOOM_DOPDATA2_LUT : Fld := ⟨0x120, 22, 22⟩
/-- Words of the selected operation (R221) -/
abbrev LOOM_DOPDATA2_OUT : Fld := ⟨0x120, 24, 23⟩
/-- Words of the selected operation (R221) -/
abbrev LOOM_DOPDATA2_FMTY : Fld := ⟨0x120, 25, 25⟩
/-- Words of the selected operation (R221) -/
abbrev LOOM_DOPDATA2_GY : Fld := ⟨0x120, 26, 26⟩
/-- Words of the selected operation (R221) -/
abbrev LOOM_DOPDATA2_OSHIFTMODE : Fld := ⟨0x120, 27, 27⟩
/-- Words of the selected operation (R221) -/
abbrev LOOM_DOPDATA2_EMIT : Fld := ⟨0x120, 28, 28⟩
/-- Words of the selected operation (R221) -/
abbrev LOOM_DOPDATA3_ACCEXP : Fld := ⟨0x124, 8, 0⟩
/-- Words of the selected operation (R221) -/
abbrev LOOM_DOPDATA3_OEXP : Fld := ⟨0x124, 16, 9⟩
/-- Words of the selected operation (R221) -/
abbrev LOOM_DOPDATA3_ESHIFT : Fld := ⟨0x124, 22, 17⟩
/-- Words of the selected operation (R221) -/
abbrev LOOM_DOPDATA3_THIDX : Fld := ⟨0x124, 28, 23⟩
/-- Words of the selected operation (R221) -/
abbrev LOOM_DOPDATA4_ABASE : Fld := ⟨0x128, 15, 0⟩
/-- Words of the selected operation (R221) -/
abbrev LOOM_DOPDATA4_ASCBASE : Fld := ⟨0x128, 31, 16⟩
/-- Words of the selected operation (R221) -/
abbrev LOOM_DOPDATA5_WBASE : Fld := ⟨0x12C, 15, 0⟩
/-- Words of the selected operation (R221) -/
abbrev LOOM_DOPDATA5_WSCBASE : Fld := ⟨0x12C, 31, 16⟩
/-- Words of the selected operation (R221) -/
abbrev LOOM_DOPDATA6_YBASE : Fld := ⟨0x130, 15, 0⟩
/-- Words of the selected operation (R221) -/
abbrev LOOM_DOPDATA6_YSCBASE : Fld := ⟨0x130, 31, 16⟩
/-- Words of the selected operation (R221) -/
abbrev LOOM_DOPDATA7_BBASE : Fld := ⟨0x134, 15, 0⟩
/-- Words of the selected operation (R221) -/
abbrev LOOM_DOPDATA7_OUTIDX : Fld := ⟨0x134, 31, 16⟩
/-- Scratch offset of the 256-byte LUT -/
abbrev LOOM_BLUTBASE_BASE : Fld := ⟨0x138, 18, 8⟩
/-- Array running an operation or fold -/
abbrev LOOM_BSTAT_BUSY : Fld := ⟨0x13C, 0, 0⟩
/-- Operation running -/
abbrev LOOM_BSTAT_OP : Fld := ⟨0x13C, 5, 1⟩
/-- Sequencer starts waiting, 0 to 4 -/
abbrev LOOM_BSTAT_QUEUED : Fld := ⟨0x13C, 8, 6⟩
/-- A start was refused (R224) -/
abbrev LOOM_BSTAT_REFUSED : Fld := ⟨0x13C, 9, 9⟩
/-- Operation to start -/
abbrev LOOM_BRUN_INDEX : Fld := ⟨0x140, 4, 0⟩
/-- 1 starts operation INDEX (R224) -/
abbrev LOOM_BRUN_GO : Fld := ⟨0x140, 31, 31⟩
/-- Operations run to completion -/
abbrev LOOM_DOPRUNS_COUNT : Fld := ⟨0x890, 31, 0⟩
/-- Tiles reduced -/
abbrev LOOM_BTILES_COUNT : Fld := ⟨0x894, 31, 0⟩
/-- Groups skipped (R214) -/
abbrev LOOM_ZSKIP_COUNT : Fld := ⟨0x898, 31, 0⟩
/-- Accumulator clamps (R217) -/
abbrev LOOM_ALIGNSAT_COUNT : Fld := ⟨0x89C, 31, 0⟩
/-- Output elements clamped (R219) -/
abbrev LOOM_REQSAT_COUNT : Fld := ⟨0x8A0, 31, 0⟩
/-- Threshold-emit picks (R231) -/
abbrev LOOM_TEEMIT_COUNT : Fld := ⟨0x8A4, 31, 0⟩
/-- Threshold-emit saturations (R230) -/
abbrev LOOM_TESAT_COUNT : Fld := ⟨0x8A8, 31, 0⟩
/-- Frame contributions added (R227) -/
abbrev LOOM_FRAMEHIT_COUNT : Fld := ⟨0x8AC, 31, 0⟩
/-- Operations skipped as empty (R228) -/
abbrev LOOM_FRAMESKIP_COUNT : Fld := ⟨0x8B0, 31, 0⟩
/-- Frames with contributions cleared unfolded (R223) -/
abbrev LOOM_FRAMEDROP_COUNT : Fld := ⟨0x8B4, 31, 0⟩
/-- MXINT8 groups with elements shifted (R234) -/
abbrev LOOM_MXLOSS_COUNT : Fld := ⟨0x8B8, 31, 0⟩
/-- MXINT8 NaN groups (R234) -/
abbrev LOOM_MXNAN_COUNT : Fld := ⟨0x8BC, 31, 0⟩
/-- Weights change (R253, R261) -/
abbrev LOOM_TCTL_LEARN : Fld := ⟨0x180, 0, 0⟩
/-- Loom included in MRAM checkpoints (R268) -/
abbrev LOOM_TCTL_CKPTEN : Fld := ⟨0x180, 1, 1⟩
/-- Synapse-store offset of the plastic region, 8-byte aligned -/
abbrev LOOM_TPBASE_BASE : Fld := ⟨0x184, 18, 3⟩
/-- Region size in 8-byte units; 0 no region -/
abbrev LOOM_TPSIZE_SIZE : Fld := ⟨0x188, 19, 3⟩
/-- Scratch offset of the stage map, 64-byte aligned -/
abbrev LOOM_TSTAGEBASE_BASE : Fld := ⟨0x18C, 18, 6⟩
/-- Sweep period, 1 to 4,095 beats; 0 means 4,096 -/
abbrev LOOM_TSWEEP_PERIOD : Fld := ⟨0x190, 11, 0⟩
/-- Sweep phase (R258) -/
abbrev LOOM_TSWEEP_PHASE : Fld := ⟨0x190, 27, 16⟩
/-- Kernel entry reached by TKDATA -/
abbrev LOOM_TKSEL_INDEX : Fld := ⟨0x194, 5, 0⟩
/-- Signed kernel value (R252) -/
abbrev LOOM_TKDATA_K : Fld := ⟨0x198, 15, 0⟩
/-- Rule reached by TRDATA0–1 -/
abbrev LOOM_TRSEL_INDEX : Fld := ⟨0x19C, 2, 0⟩
/-- Words of the selected rule -/
abbrev LOOM_TRDATA0_POP : Fld := ⟨0x1A0, 19, 0⟩
/-- Words of the selected rule -/
abbrev LOOM_TRDATA0_VALID : Fld := ⟨0x1A0, 20, 20⟩
/-- Words of the selected rule -/
abbrev LOOM_TRDATA0_MODEN : Fld := ⟨0x1A0, 21, 21⟩
/-- Words of the selected rule -/
abbrev LOOM_TRDATA0_MODCH : Fld := ⟨0x1A0, 25, 22⟩
/-- Words of the selected rule -/
abbrev LOOM_TRDATA0_LRATE : Fld := ⟨0x1A0, 29, 26⟩
/-- Words of the selected rule -/
abbrev LOOM_TRDATA1_WMIN : Fld := ⟨0x1A4, 7, 0⟩
/-- Words of the selected rule -/
abbrev LOOM_TRDATA1_WMAX : Fld := ⟨0x1A4, 15, 8⟩
/-- Words of the selected rule -/
abbrev LOOM_TRDATA1_TARGETW : Fld := ⟨0x1A4, 31, 16⟩
/-- Modulator channel reached by TMDATA and TMVAL -/
abbrev LOOM_TMSEL_INDEX : Fld := ⟨0x1A8, 3, 0⟩
/-- Signed base, units of 2⁻⁸ -/
abbrev LOOM_TMDATA_MODBASE : Fld := ⟨0x1AC, 11, 0⟩
/-- Accumulator shift, 0 to 15 -/
abbrev LOOM_TMDATA_MSHIFT : Fld := ⟨0x1AC, 19, 16⟩
/-- Signed modval of the last SETTLE -/
abbrev LOOM_TMVAL_VAL : Fld := ⟨0x1B0, 11, 0⟩
/-- Take a snapshot (R266); cleared when BUSY clears -/
abbrev LOOM_TSNAPCTL_GO : Fld := ⟨0x1B4, 0, 0⟩
/-- Copy in progress -/
abbrev LOOM_TSNAPCTL_BUSY : Fld := ⟨0x1B4, 1, 1⟩
/-- Last copy failed (R267) -/
abbrev LOOM_TSNAPCTL_ERR : Fld := ⟨0x1B4, 2, 2⟩
/-- Snapshot destination -/
abbrev LOOM_TSNAPDST_LO_ADDR : Fld := ⟨0x1B8, 31, 6⟩
/-- Snapshot destination -/
abbrev LOOM_TSNAPDST_HI_ADDR : Fld := ⟨0x1BC, 15, 0⟩
/-- Beat of the last snapshot; reading LO latches HI -/
abbrev LOOM_TSNAPBEAT_LO_N : Fld := ⟨0x1C0, 31, 0⟩
/-- Beat of the last snapshot; reading LO latches HI -/
abbrev LOOM_TSNAPBEAT_HI_N : Fld := ⟨0x1C4, 31, 0⟩
/-- Snapshots completed; wraps modulo 2³² -/
abbrev LOOM_TSNAPSEQ_SEQ : Fld := ⟨0x1C8, 31, 0⟩
/-- Rows with a pre-event, once per row per beat -/
abbrev LOOM_TPRE_COUNT : Fld := ⟨0x8C0, 31, 0⟩
/-- Weight updates evaluated (R253) -/
abbrev LOOM_TUPD_COUNT : Fld := ⟨0x8C4, 31, 0⟩
/-- Weights clamped to WMIN or WMAX -/
abbrev LOOM_TWSAT_COUNT : Fld := ⟨0x8C8, 31, 0⟩
/-- SUMW clamps -/
abbrev LOOM_TSUMSAT_COUNT : Fld := ⟨0x8CC, 31, 0⟩
/-- Stage factors saturated at 255 -/
abbrev LOOM_TFSAT_COUNT : Fld := ⟨0x8D0, 31, 0⟩
/-- Modulator clamps -/
abbrev LOOM_TMODSAT_COUNT : Fld := ⟨0x8D4, 31, 0⟩
/-- Entries of plastic rows onto plastic slots whose population has no rule -/
abbrev LOOM_TNORULE_COUNT : Fld := ⟨0x8D8, 31, 0⟩
/-- Plastic rows fetched outside the region (R241) -/
abbrev LOOM_TPOUTSIDE_COUNT : Fld := ⟨0x8DC, 31, 0⟩
/-- Refused accesses to the region (R263) -/
abbrev LOOM_TPREFUSE_COUNT : Fld := ⟨0x8E0, 31, 0⟩
/-- Read-time weight clamps (R245) -/
abbrev LOOM_TWEFFCLAMP_COUNT : Fld := ⟨0x8E4, 31, 0⟩
/-- Sweeps completed -/
abbrev LOOM_TSWEEPS_COUNT : Fld := ⟨0x8E8, 31, 0⟩
/-- Loom-cycles SETTLE waited on a snapshot copy -/
abbrev LOOM_TSNAPSTALL_COUNT : Fld := ⟨0x8EC, 31, 0⟩
/-- Stamps aged (R248) -/
abbrev LOOM_TAGED_COUNT : Fld := ⟨0x8F0, 31, 0⟩
/-- R279 -/
abbrev LOOM_SEQCTL_RUN : Fld := ⟨0x200, 0, 0⟩
/-- R302 -/
abbrev LOOM_SEQCTL_RESTART : Fld := ⟨0x200, 1, 1⟩
/-- 000 STOPPED, 001 IDLE, 010 MAIN, 011 ACTIVE, 100 TRAP, 101 HALTED -/
abbrev LOOM_SEQSTAT_STATE : Fld := ⟨0x204, 2, 0⟩
/-- Context code of the running code (R276) -/
abbrev LOOM_SEQSTAT_ACT : Fld := ⟨0x204, 6, 4⟩
/-- Handler id while a handler runs -/
abbrev LOOM_SEQSTAT_HANDLER : Fld := ⟨0x204, 15, 8⟩
/-- R280; cleared by RESTART or RUN = 0 -/
abbrev LOOM_SEQSTAT_FREERUN : Fld := ⟨0x204, 16, 16⟩
/-- Queued activations, 0 to 64 -/
abbrev LOOM_SEQSTAT_PENDING : Fld := ⟨0x204, 23, 17⟩
/-- Address of the instruction issuing or stalled -/
abbrev LOOM_SEQPC_PC : Fld := ⟨0x208, 18, 2⟩
/-- Main-program entry -/
abbrev LOOM_SEQENTRY_ADDR : Fld := ⟨0x20C, 18, 2⟩
/-- Trap handler present -/
abbrev LOOM_SEQTVEC_VALID : Fld := ⟨0x210, 0, 0⟩
/-- Trap handler entry -/
abbrev LOOM_SEQTVEC_ADDR : Fld := ⟨0x210, 18, 2⟩
/-- Handler table, 1 KiB aligned -/
abbrev LOOM_SEQHTBASE_BASE : Fld := ⟨0x214, 18, 10⟩
/-- R300 -/
abbrev LOOM_SEQBUDGET_CYCLES : Fld := ⟨0x224, 23, 0⟩
/-- R298 -/
abbrev LOOM_SEQTPC_ADDR : Fld := ⟨0x228, 18, 2⟩
/-- R299 -/
abbrev LOOM_SEQTCAUSE_CAUSE : Fld := ⟨0x22C, 7, 0⟩
/-- Context that trapped -/
abbrev LOOM_SEQTCAUSE_ACT : Fld := ⟨0x22C, 10, 8⟩
/-- R299; reading LO latches HI -/
abbrev LOOM_SEQTVAL_LO_VAL : Fld := ⟨0x230, 31, 0⟩
/-- R299; reading LO latches HI -/
abbrev LOOM_SEQTVAL_HI_VAL : Fld := ⟨0x234, 31, 0⟩
/-- Instructions completed -/
abbrev LOOM_SEQINSTR_COUNT : Fld := ⟨0x900, 31, 0⟩
/-- Activations ended by YIELD -/
abbrev LOOM_SEQACT_COUNT : Fld := ⟨0x904, 31, 0⟩
/-- Traps (R298) -/
abbrev LOOM_SEQTRAPS_COUNT : Fld := ⟨0x908, 31, 0⟩
/-- Messages released with no valid handler (R286) -/
abbrev LOOM_SEQNOHDL_COUNT : Fld := ⟨0x90C, 31, 0⟩
/-- Hooks skipped while halted (R301) -/
abbrev LOOM_SEQSKIP_COUNT : Fld := ⟨0x910, 31, 0⟩
/-- Activations abandoned: INTEGRATE hooks by a retry (R282), and any activation by a RESTART  -/
abbrev LOOM_SEQABANDON_COUNT : Fld := ⟨0x914, 31, 0⟩
/-- OPEN acknowledgements with the main program running (R280) -/
abbrev LOOM_SEQFREERUN_COUNT : Fld := ⟨0x918, 31, 0⟩
/-- Loom-cycles blocked (R304) -/
abbrev LOOM_SEQSTALL_COUNT : Fld := ⟨0x91C, 31, 0⟩
/-- Instruction-buffer misses -/
abbrev LOOM_SEQIMISS_COUNT : Fld := ⟨0x920, 31, 0⟩
/-- Bit b: bank b draining (R316) -/
abbrev LOOM_BANKSTAT_DRAINING : Fld := ⟨0x244, 7, 0⟩
/-- Logical bank served by the spare -/
abbrev LOOM_BANKSTAT_SPAREBANK : Fld := ⟨0x244, 10, 8⟩
/-- Spare serves SPAREBANK, whether it was consumed at bring-up (SPAREYIELD, R311) or by a mov -/
abbrev LOOM_BANKSTAT_SPAREUSED : Fld := ⟨0x244, 11, 11⟩
/-- Spare consumed at bring-up (R311) -/
abbrev LOOM_BANKSTAT_SPAREYIELD : Fld := ⟨0x244, 12, 12⟩
/-- Spare failed its test (R325) -/
abbrev LOOM_BANKSTAT_SPAREBAD : Fld := ⟨0x244, 13, 13⟩
/-- Background test runs (R323) -/
abbrev LOOM_BTESTCTL_EN : Fld := ⟨0x248, 0, 0⟩
/-- Loom-cycles between regions, 256 to 65,535; a write below 256 is ignored and counted in TX -/
abbrev LOOM_BTESTINT_CYCLES : Fld := ⟨0x24C, 15, 0⟩
/-- Region under test or next -/
abbrev LOOM_BTESTPOS_ROW : Fld := ⟨0x250, 7, 0⟩
/-- Physical bank, 0 to 7; 8 for the spare -/
abbrev LOOM_BTESTPOS_BANK : Fld := ⟨0x250, 11, 8⟩
/-- Passes completed, modulo 2¹⁶ -/
abbrev LOOM_BTESTPOS_PASSES : Fld := ⟨0x250, 31, 16⟩
/-- Corrected errors per bank per pass that move the bank; 0 off -/
abbrev LOOM_BCETHR_LIMIT : Fld := ⟨0x254, 7, 0⟩
/-- Bank to move -/
abbrev LOOM_BREMAP_BANK : Fld := ⟨0x258, 2, 0⟩
/-- 1 moves BANK to the spare (R326) -/
abbrev LOOM_BREMAP_GO : Fld := ⟨0x258, 31, 31⟩
/-- Sequencer cycles lost to conflicts (R320) -/
abbrev LOOM_BCONF_SEQ_COUNT : Fld := ⟨0x930, 31, 0⟩
/-- Neuron engine and fetch unit cycles lost -/
abbrev LOOM_BCONF_NEURON_COUNT : Fld := ⟨0x934, 31, 0⟩
/-- Batten cycles lost -/
abbrev LOOM_BCONF_BATTEN_COUNT : Fld := ⟨0x938, 31, 0⟩
/-- Tensioner cycles lost -/
abbrev LOOM_BCONF_TENS_COUNT : Fld := ⟨0x93C, 31, 0⟩
/-- Shuttle port cycles lost -/
abbrev LOOM_BCONF_SHUTTLE_COUNT : Fld := ⟨0x940, 31, 0⟩
/-- Network interface cycles lost -/
abbrev LOOM_BCONF_NETIF_COUNT : Fld := ⟨0x944, 31, 0⟩
/-- Corrected single-bit scratch errors -/
abbrev LOOM_BSCE_COUNT : Fld := ⟨0x948, 31, 0⟩
/-- Regions failing the background test -/
abbrev LOOM_BTESTFAIL_COUNT : Fld := ⟨0x94C, 31, 0⟩
/-- Handovers completed (R316) -/
abbrev LOOM_BHANDOVER_COUNT : Fld := ⟨0x950, 31, 0⟩
/-- Accesses refused for ownership (R314) -/
abbrev LOOM_BOWNREFUSE_COUNT : Fld := ⟨0x954, 31, 0⟩
/-- Loom-cycles accesses were held by the test (R324) -/
abbrev LOOM_BTESTHOLD_COUNT : Fld := ⟨0x958, 31, 0⟩
/-- Throttle-on level in flits, 1 to 63; 0 disables throttling -/
abbrev LOOM_NITHROT_THRON : Fld := ⟨0x260, 5, 0⟩
/-- Throttle-off level. A write with THRON not 0 and THROFF not below THRON is ignored and cou -/
abbrev LOOM_NITHROT_THROFF : Fld := ⟨0x260, 13, 8⟩
/-- VC0, VC1, VC2 subject to R348 -/
abbrev LOOM_NITHROT_VCMASK : Fld := ⟨0x260, 18, 16⟩
/-- Bit q mod 32 of word ⌊q / 32⌋: queue q permitted (R357) -/
abbrev LOOM_PLYMASK_MASK : Fld := ⟨0x264, 31, 0⟩
/-- Physical site of this logical loom -/
abbrev LOOM_NIPOS_SITE : Fld := ⟨0x284, 4, 0⟩
/-- Row -/
abbrev LOOM_NIPOS_ROW : Fld := ⟨0x284, 9, 5⟩
/-- 0 west, 1 east -/
abbrev LOOM_NIPOS_HALF : Fld := ⟨0x284, 10, 10⟩
/-- Packets injected -/
abbrev LOOM_NIPKTTX_COUNT : Fld := ⟨0x960, 31, 0⟩
/-- Packets received whole -/
abbrev LOOM_NIPKTRX_COUNT : Fld := ⟨0x964, 31, 0⟩
/-- Packets received ending in ABORT (R349) -/
abbrev LOOM_NIABORTRX_COUNT : Fld := ⟨0x968, 31, 0⟩
/-- Packets of reserved class or excess length (R334) -/
abbrev LOOM_NIBADPKT_COUNT : Fld := ⟨0x96C, 31, 0⟩
/-- Packets refused by partition (R352) -/
abbrev LOOM_PARTDROP_COUNT : Fld := ⟨0x970, 31, 0⟩
/-- Warp cycles throttled (R348) -/
abbrev LOOM_THROTCYC_COUNT : Fld := ⟨0x974, 31, 0⟩
/-- REPICK words discarded at a full queue (R350) -/
abbrev LOOM_REPICKQFULL_COUNT : Fld := ⟨0x978, 31, 0⟩
/-- Contributions sent, resends excluded -/
abbrev LOOM_PLYPUTS_COUNT : Fld := ⟨0x97C, 31, 0⟩
/-- Contributions resent (R359) -/
abbrev LOOM_PLYRESEND_COUNT : Fld := ⟨0x980, 31, 0⟩
/-- Ply results discarded (R359) -/
abbrev LOOM_PLYRESDROP_COUNT : Fld := ⟨0x984, 31, 0⟩
/-- Channel end reached by CHDATA0–7 -/
abbrev LOOM_CHSEL_INDEX : Fld := ⟨0x2A0, 5, 0⟩
/-- Words of the selected end (R373) -/
abbrev LOOM_CHDATA0_CHAN : Fld := ⟨0x2A4, 11, 0⟩
/-- Words of the selected end (R373) -/
abbrev LOOM_CHDATA0_VALID : Fld := ⟨0x2A4, 12, 12⟩
/-- Words of the selected end (R373) -/
abbrev LOOM_CHDATA0_DIR : Fld := ⟨0x2A4, 13, 13⟩
/-- Words of the selected end (R373) -/
abbrev LOOM_CHDATA0_PKG : Fld := ⟨0x2A4, 17, 14⟩
/-- Words of the selected end (R373) -/
abbrev LOOM_CHDATA0_PEER : Fld := ⟨0x2A4, 28, 18⟩
/-- Words of the selected end (R373) -/
abbrev LOOM_CHDATA1_NHOPS : Fld := ⟨0x2A8, 6, 0⟩
/-- Words of the selected end (R373) -/
abbrev LOOM_CHDATA1_XSEL : Fld := ⟨0x2A8, 10, 7⟩
/-- Words of the selected end (R373) -/
abbrev LOOM_CHDATA1_RSIZE : Fld := ⟨0x2A8, 14, 11⟩
/-- Words of the selected end (R373) -/
abbrev LOOM_CHDATA1_RBASE : Fld := ⟨0x2A8, 27, 15⟩
/-- Words of the selected end (R373) -/
abbrev LOOM_CHDATA1_GEN : Fld := ⟨0x2A8, 31, 28⟩
/-- Words of the selected end (R373) -/
abbrev LOOM_CHDATA2_HOPS0 : Fld := ⟨0x2AC, 31, 0⟩
/-- Words of the selected end (R373) -/
abbrev LOOM_CHDATA3_HOPS1 : Fld := ⟨0x2B0, 31, 0⟩
/-- Words of the selected end (R373) -/
abbrev LOOM_CHDATA4_HOPS2 : Fld := ⟨0x2B4, 31, 0⟩
/-- Words of the selected end (R373) -/
abbrev LOOM_CHDATA5_HOPS3 : Fld := ⟨0x2B8, 31, 0⟩
/-- Words of the selected end (R373) -/
abbrev LOOM_CHDATA6_HOPS4 : Fld := ⟨0x2BC, 31, 0⟩
/-- Words of the selected end (R373) -/
abbrev LOOM_CHDATA7_HOPS5 : Fld := ⟨0x2C0, 31, 0⟩
/-- Send retention area, 4 KiB aligned -/
abbrev LOOM_CHTXBASE_BASE : Fld := ⟨0x2C4, 18, 12⟩
/-- In 4 KiB, 0 to 16 -/
abbrev LOOM_CHTXSIZE_SIZE : Fld := ⟨0x2C8, 4, 0⟩
/-- Close the selected receive end (R387); ignored for a send end -/
abbrev LOOM_CHCTL_CLOSE : Fld := ⟨0x2CC, 0, 0⟩
/-- 00 unused, 01 OPEN, 10 CLOSED -/
abbrev LOOM_CHSTAT_STATE : Fld := ⟨0x2D0, 1, 0⟩
/-- Send end: messages retained -/
abbrev LOOM_CHSTAT_UNACKED : Fld := ⟨0x2D0, 14, 2⟩
/-- Messages sent, or delivered to the ring -/
abbrev LOOM_CHMSGS_COUNT : Fld := ⟨0x2D4, 31, 0⟩
/-- Loom-cycles CSEND blocked on this end -/
abbrev LOOM_CHSTALL_COUNT : Fld := ⟨0x2D8, 31, 0⟩
/-- Receive end: messages discarded or released unread while CLOSED -/
abbrev LOOM_CHORPH_COUNT : Fld := ⟨0x2DC, 31, 0⟩
/-- Messages resent (R384) -/
abbrev LOOM_CHRESEND_COUNT : Fld := ⟨0x990, 31, 0⟩
/-- Duplicate messages (R383) -/
abbrev LOOM_CHDUP_COUNT : Fld := ⟨0x994, 31, 0⟩
/-- Messages for channels with no end here -/
abbrev LOOM_CHORPHAN_COUNT : Fld := ⟨0x998, 31, 0⟩
/-- Messages from the wrong peer -/
abbrev LOOM_CHSTRAY_COUNT : Fld := ⟨0x99C, 31, 0⟩
/-- Messages of another GEN -/
abbrev LOOM_CHSTALE_COUNT : Fld := ⟨0x9A0, 31, 0⟩
/-- Messages that did not fit (R383) -/
abbrev LOOM_CHOVFDROP_COUNT : Fld := ⟨0x9A4, 31, 0⟩
/-- Retained messages dropped on CLOSED (R389) -/
abbrev LOOM_CHCLOSEDROP_COUNT : Fld := ⟨0x9A8, 31, 0⟩
end F

/-- The common header, part 0. -/
def commonMap : List FldRow := [
  ⟨F.IDENT_CLASS, 1, 4, .ro, .any, 0x0⟩,
  ⟨F.IDENT_INSTANCE, 1, 4, .ro, .any, 0x0⟩,
  ⟨F.VERSION_MAJOR, 1, 4, .ro, .any, 0x1⟩,
  ⟨F.VERSION_MINOR, 1, 4, .ro, .any, 0x0⟩,
  ⟨F.VERSION_STEP, 1, 4, .ro, .any, 0xB0⟩,
  ⟨F.STATE_READY, 1, 4, .ro, .any, 0x0⟩,
  ⟨F.STATE_BUSY, 1, 4, .ro, .any, 0x0⟩,
  ⟨F.STATE_FAULT, 1, 4, .ro, .any, 0x0⟩,
  ⟨F.STATE_DEGRADED, 1, 4, .ro, .any, 0x0⟩,
  ⟨F.STATE_MODE, 1, 4, .ro, .any, 0x0⟩,
  ⟨F.STATE_TXOPEN, 1, 4, .ro, .any, 0x0⟩,
  ⟨F.STATE_RESETTING, 1, 4, .ro, .any, 0x0⟩,
  ⟨F.STATE_MODEPEND, 1, 4, .ro, .any, 0x0⟩,
  ⟨F.CONTROL_ENABLE, 1, 4, .rws, .any, 0x0⟩,
  ⟨F.CONTROL_RESETREQ, 1, 4, .wo, .any, 0x0⟩,
  ⟨F.CONTROL_EXPERT, 1, 4, .rws, .any, 0x0⟩,
  ⟨F.CONTROL_FREEZE, 1, 4, .rws, .any, 0x0⟩,
  ⟨F.FAULTCAUSE_CAUSE, 1, 4, .ro, .any, 0x0⟩,
  ⟨F.FAULTCAUSE_REPEAT, 1, 4, .ro, .any, 0x0⟩,
  ⟨F.FAULTCAUSE_VALID, 1, 4, .w1c, .any, 0x0⟩,
  ⟨F.FAULTMASK_MASK, 1, 4, .rw, .any, 0x0⟩,
  ⟨F.TXN_OP, 1, 4, .wo, .any, 0x0⟩,
  ⟨F.TXN_TSTATE, 1, 4, .ro, .any, 0x0⟩,
  ⟨F.TXN_RESULT, 1, 4, .ro, .any, 0x0⟩,
  ⟨F.TXN_GROUP, 1, 4, .ro, .any, 0x0⟩,
  ⟨F.TXN_OPENER, 1, 4, .ro, .any, 0x0⟩,
  ⟨F.OWNER_PART, 1, 4, .ro, .lantern, 0x1F⟩,
  ⟨F.PROGRESS_COUNT, 1, 4, .ro, .any, 0x0⟩,
  ⟨F.PROGWIN_TICKS, 1, 4, .rw, .any, 0x4⟩,
  ⟨F.DECISIONS_COUNT, 1, 4, .ro, .any, 0x0⟩,
  ⟨F.ACCVIOL_COUNT, 1, 4, .rc, .any, 0x0⟩,
  ⟨F.TXNREFUSE_COUNT, 1, 4, .rc, .any, 0x0⟩,
  ⟨F.TXNROLLBACK_COUNT, 1, 4, .rc, .any, 0x0⟩]
/-- Register map of custody, part 0. -/
def custodyMap : List FldRow := [
  ⟨F.CUSTODY_SVN_SVN0, 1, 4, .ro, .any, 0x0⟩,
  ⟨F.CUSTODY_SVN_SVN1, 1, 4, .ro, .any, 0x0⟩,
  ⟨F.CUSTODY_SVN_SVN2, 1, 4, .ro, .any, 0x0⟩,
  ⟨F.CUSTODY_SVN_SVN3, 1, 4, .ro, .any, 0x0⟩,
  ⟨F.CUSTODY_LC_LC, 1, 4, .ro, .any, 0x0⟩,
  ⟨F.CUSTODY_LC_WIPEPEND, 1, 4, .ro, .any, 0x0⟩,
  ⟨F.CUSTODY_CMD_CODE, 1, 4, .wo, .any, 0x0⟩,
  ⟨F.CUSTODY_ARG_ARG, 4, 4, .rw, .any, 0x0⟩,
  ⟨F.CUSTODY_BUF_LO_ADDR, 1, 4, .rw, .any, 0x0⟩,
  ⟨F.CUSTODY_BUF_HI_ADDR, 1, 4, .rw, .any, 0x0⟩,
  ⟨F.CUSTODY_CSTAT_BUSY, 1, 4, .ro, .any, 0x0⟩,
  ⟨F.CUSTODY_CSTAT_DONE, 1, 4, .w1c, .any, 0x0⟩,
  ⟨F.CUSTODY_CSTAT_RESULT, 1, 4, .ro, .any, 0x0⟩,
  ⟨F.CUSTODY_MEAS_COUNT, 1, 4, .ro, .any, 0x0⟩,
  ⟨F.CUSTODY_OWNERSET_SET, 1, 4, .ro, .any, 0x0⟩,
  ⟨F.CUSTODY_VERIFIED_COUNT, 1, 4, .ro, .any, 0x0⟩,
  ⟨F.CUSTODY_VREFUSE_COUNT, 1, 4, .ro, .any, 0x0⟩,
  ⟨F.CUSTODY_LCREFUSE_COUNT, 1, 4, .ro, .any, 0x0⟩,
  ⟨F.CUSTODY_SECEVENTS_COUNT, 1, 4, .ro, .any, 0x0⟩,
  ⟨F.CUSTODY_CMDS_COUNT, 1, 4, .ro, .any, 0x0⟩]
/-- Register map of lamplighter, part 0. -/
def lamplighterMap0 : List FldRow := [
  ⟨F.LL_HEART_LL, 1, 4, .ro, .any, 0x0⟩,
  ⟨F.LL_HEART_LANTERN, 1, 4, .ro, .any, 0x0⟩,
  ⟨F.LL_RUNG1_COUNT, 1, 4, .ro, .any, 0x0⟩,
  ⟨F.LL_RUNG2_COUNT, 1, 4, .ro, .any, 0x0⟩,
  ⟨F.LL_RUNG3_COUNT, 1, 4, .ro, .any, 0x0⟩,
  ⟨F.LL_RUNG4_COUNT, 1, 4, .ro, .any, 0x0⟩,
  ⟨F.LL_STAT_STATE, 1, 4, .ro, .any, 0x0⟩,
  ⟨F.LL_STAT_LASTRUNG, 1, 4, .ro, .any, 0x0⟩,
  ⟨F.LL_STAT_FAULTN, 1, 4, .ro, .any, 0x1⟩,
  ⟨F.LL_STAT_DMEXPIRED, 1, 4, .ro, .any, 0x0⟩,
  ⟨F.LL_STAT_DARNSLOW, 1, 4, .ro, .any, 0x0⟩,
  ⟨F.LL_CTL_FAULTCLR, 1, 4, .wo, .any, 0x0⟩,
  ⟨F.LL_CTL_HANDOVER, 1, 4, .wo, .any, 0x0⟩,
  ⟨F.LL_CTL_DUMP, 1, 4, .wo, .any, 0x0⟩,
  ⟨F.LL_POLICY_DARNCLASS, 1, 4, .rws, .any, 0x2⟩,
  ⟨F.LL_POLICY_BEATFATAL, 1, 4, .rws, .any, 0x1⟩,
  ⟨F.LL_OUTSLACK_NS, 1, 4, .rws, .any, 0x0⟩,
  ⟨F.LL_RESERVE_MASK, 24, 4, .rws, .any, 0x0⟩,
  ⟨F.LL_SNAPBASE_LO_ADDR, 1, 4, .rws, .any, 0x0⟩,
  ⟨F.LL_SNAPBASE_HI_ADDR, 1, 4, .rws, .any, 0x0⟩,
  ⟨F.LL_LOGBASE_LO_ADDR, 1, 4, .rws, .any, 0x0⟩,
  ⟨F.LL_LOGBASE_HI_ADDR, 1, 4, .rws, .any, 0x0⟩,
  ⟨F.LL_LOGSIZE_SIZE, 1, 4, .rws, .any, 0x0⟩,
  ⟨F.LL_DARNBOUND_NS, 1, 4, .ro, .any, 0x0⟩,
  ⟨F.LL_DARNWORST_LOOM, 1, 4, .ro, .any, 0x0⟩,
  ⟨F.LL_LASTDARN_LOOM, 1, 4, .ro, .any, 0x0⟩,
  ⟨F.LL_LASTDARN_SITE, 1, 4, .ro, .any, 0x0⟩,
  ⟨F.LL_LASTDARN_RESERVE, 1, 4, .ro, .any, 0x0⟩,
  ⟨F.LL_LASTDARN_RESULT, 1, 4, .ro, .any, 0x0⟩,
  ⟨F.LL_LASTDARNNS_NS, 1, 4, .ro, .any, 0x0⟩,
  ⟨F.LL_HANDBEAT_LO_N, 1, 4, .ro, .any, 0x0⟩,
  ⟨F.LL_HANDBEAT_HI_N, 1, 4, .ro, .any, 0x0⟩,
  ⟨F.LL_EVSEL_INDEX, 1, 4, .rw, .any, 0x0⟩,
  ⟨F.LL_EVDATA_ENTRY, 8, 4, .ro, .any, 0x0⟩,
  ⟨F.LL_LADDER0_BLOCK, 1, 4, .ro, .any, 0x0⟩,
  ⟨F.LL_LADDER0_RUNG, 1, 4, .ro, .any, 0x0⟩,
  ⟨F.LL_LADDER0_OUTCOME, 1, 4, .ro, .any, 0x0⟩,
  ⟨F.LL_LADDER1_CAUSE, 1, 4, .ro, .any, 0x0⟩,
  ⟨F.LL_DUMPSTAT_BUSY, 1, 4, .ro, .any, 0x0⟩,
  ⟨F.LL_DUMPSTAT_LOCK, 1, 4, .rws, .any, 0x0⟩,
  ⟨F.LL_DUMPSTAT_ENTRIES, 1, 4, .ro, .any, 0x0⟩,
  ⟨F.LL_DUMPBASE_LO_ADDR, 1, 4, .rws, .any, 0x0⟩,
  ⟨F.LL_DUMPBASE_HI_ADDR, 1, 4, .rws, .any, 0x0⟩,
  ⟨F.LL_DUMPSIZE_PAGES, 1, 4, .rws, .any, 0x0⟩,
  ⟨F.LL_CKPTCTL_GO, 1, 4, .wo, .any, 0x0⟩,
  ⟨F.LL_CKPTCTL_MODE, 1, 4, .rws, .any, 0x0⟩,
  ⟨F.LL_CKPTCTL_BUSY, 1, 4, .ro, .any, 0x0⟩,
  ⟨F.LL_CKPTCTL_ERR, 1, 4, .w1c, .any, 0x0⟩,
  ⟨F.LL_CKPTCTL_VALID, 1, 4, .ro, .any, 0x0⟩,
  ⟨F.LL_CKPTAUTO_S, 1, 4, .rws, .any, 0x0⟩,
  ⟨F.LL_CKPTBEAT_LO_N, 1, 4, .ro, .any, 0x0⟩,
  ⟨F.LL_CKPTBEAT_HI_N, 1, 4, .ro, .any, 0x0⟩,
  ⟨F.LL_SNAPBEATS_BEATS, 1, 4, .rws, .policy, 0x20⟩,
  ⟨F.LL_STANDIN_SITE, 8, 4, .rws, .policy, 0x3FFFFFFF⟩,
  ⟨F.LL_STALLS_COUNT, 1, 4, .ro, .any, 0x0⟩,
  ⟨F.LL_DARNS_COUNT, 1, 4, .ro, .any, 0x0⟩,
  ⟨F.LL_DARNFAIL_COUNT, 1, 4, .ro, .any, 0x0⟩,
  ⟨F.LL_NONIDENT_COUNT, 1, 4, .ro, .any, 0x0⟩,
  ⟨F.LL_DUMPS_COUNT, 1, 4, .ro, .any, 0x0⟩,
  ⟨F.LL_UNREACH_COUNT, 1, 4, .ro, .any, 0x0⟩]
/-- Register map of lamplighter, part 1. -/
def lamplighterMap1 : List FldRow := [
  ⟨F.LL_DUMPSKIP_COUNT, 1, 4, .ro, .any, 0x0⟩,
  ⟨F.LL_SNAPS_COUNT, 1, 4, .ro, .any, 0x0⟩,
  ⟨F.LL_SNAPFAIL_COUNT, 1, 4, .ro, .any, 0x0⟩,
  ⟨F.LL_LOGSTALL_COUNT, 1, 4, .ro, .any, 0x0⟩,
  ⟨F.LL_HBMISS_COUNT, 1, 4, .ro, .any, 0x0⟩,
  ⟨F.LL_CKPTS_COUNT, 1, 4, .ro, .any, 0x0⟩,
  ⟨F.LL_CKPTREFUSE_COUNT, 1, 4, .ro, .any, 0x0⟩]
/-- Register map of lamplighter. -/
def lamplighterMap : List FldRow := lamplighterMap0 ++ lamplighterMap1
/-- Register map of fuse, part 0. -/
def fuseMap : List FldRow := [
  ⟨F.FUSE_BOOTCFG_GLIMEN, 1, 4, .rw, .any, 0x0⟩,
  ⟨F.FUSE_SEL_INDEX, 1, 4, .rw, .any, 0x0⟩,
  ⟨F.FUSE_DATA_DATA, 1, 4, .ro, .any, 0x0⟩,
  ⟨F.FUSE_WSTAT_CE, 1, 4, .ro, .any, 0x0⟩,
  ⟨F.FUSE_WSTAT_UE, 1, 4, .ro, .any, 0x0⟩,
  ⟨F.FUSE_BOOTSTAT_PATH, 1, 4, .ro, .any, 0x3⟩,
  ⟨F.FUSE_BOOTSTAT_STEP, 1, 4, .ro, .any, 0x0⟩,
  ⟨F.FUSE_BOOTSTAT_DONE, 1, 4, .ro, .any, 0x0⟩,
  ⟨F.FUSE_BOOTSTAT_FALLBACK, 1, 4, .ro, .any, 0x0⟩,
  ⟨F.FUSE_BOOTSTAT_FAILSTEP, 1, 4, .ro, .any, 0x0⟩,
  ⟨F.FUSE_BOOTTIME_MS, 1, 4, .ro, .any, 0x0⟩,
  ⟨F.FUSE_BOOTCFG_FAST, 1, 4, .rw, .any, 0x1⟩,
  ⟨F.FUSE_TREC_COPY, 1, 4, .ro, .any, 0x0⟩,
  ⟨F.FUSE_TREC_VALID, 1, 4, .ro, .any, 0x0⟩,
  ⟨F.FUSE_TREC_WARMCOUNT, 1, 4, .ro, .any, 0x0⟩,
  ⟨F.FUSE_TRECINV_GO, 1, 4, .wo, .custody, 0x0⟩,
  ⟨F.FUSE_CE_COUNT, 1, 4, .ro, .any, 0x0⟩,
  ⟨F.FUSE_COLDBOOTS_COUNT, 1, 4, .ro, .any, 0x0⟩,
  ⟨F.FUSE_WARMBOOTS_COUNT, 1, 4, .ro, .any, 0x0⟩,
  ⟨F.FUSE_CPRESETS_COUNT, 1, 4, .ro, .any, 0x0⟩,
  ⟨F.FUSE_FALLBACK_COUNT, 1, 4, .ro, .any, 0x0⟩,
  ⟨F.FUSE_SOFTBAD_COUNT, 1, 4, .ro, .any, 0x0⟩]
/-- Register map of power, part 0. -/
def powerMap : List FldRow := [
  ⟨F.POWER_REFUSE1_COUNT, 1, 4, .ro, .any, 0x0⟩,
  ⟨F.POWER_ABORT1_COUNT, 1, 4, .ro, .any, 0x0⟩,
  ⟨F.POWER_REFUSE2_COUNT, 1, 4, .ro, .any, 0x0⟩,
  ⟨F.POWER_ABORT2_COUNT, 1, 4, .ro, .any, 0x0⟩,
  ⟨F.POWER_REFUSE3_COUNT, 1, 4, .ro, .any, 0x0⟩,
  ⟨F.POWER_ABORT3_COUNT, 1, 4, .ro, .any, 0x0⟩,
  ⟨F.POWER_STAT_STATE, 1, 4, .ro, .any, 0x0⟩,
  ⟨F.POWER_STAT_PHASE, 1, 4, .ro, .any, 0x0⟩,
  ⟨F.POWER_STAT_THROTTLE, 1, 4, .ro, .any, 0x0⟩,
  ⟨F.POWER_STAT_ABORTED, 1, 4, .w1c, .any, 0x0⟩,
  ⟨F.POWER_STAT_WSABOVE, 1, 4, .ro, .any, 0x0⟩,
  ⟨F.POWER_SLEEP_TARGET, 1, 4, .wo, .any, 0x0⟩,
  ⟨F.POWER_BUDGET_W, 1, 4, .rws, .any, 0x0⟩,
  ⟨F.POWER_MEAS_W, 1, 4, .ro, .any, 0x0⟩,
  ⟨F.POWER_TJ_DEGC, 1, 4, .ro, .any, 0x0⟩,
  ⟨F.POWER_TJ_SENSOR, 1, 4, .ro, .any, 0x0⟩,
  ⟨F.POWER_WAKEEN_EN, 1, 4, .rw, .any, 0x7⟩,
  ⟨F.POWER_WAKECAUSE_CAUSE, 1, 4, .w1c, .any, 0x0⟩,
  ⟨F.POWER_WSTHR_THR, 1, 4, .rw, .any, 0x60⟩,
  ⟨F.POWER_WSTHR_DEB, 1, 4, .rw, .any, 0xA⟩,
  ⟨F.POWER_WAKEAT_LO_LT, 1, 4, .rw, .any, 0x0⟩,
  ⟨F.POWER_WAKEAT_HI_LT, 1, 4, .rw, .any, 0x0⟩,
  ⟨F.POWER_RESUME_LO_ADDR, 1, 4, .rw, .any, 0x0⟩,
  ⟨F.POWER_RESUME_HI_ADDR, 1, 4, .rw, .any, 0x0⟩,
  ⟨F.POWER_LASTREFUSER_BLOCK, 1, 4, .ro, .any, 0x0⟩,
  ⟨F.POWER_LASTREFUSER_TARGET, 1, 4, .ro, .any, 0x0⟩,
  ⟨F.POWER_PLEVEL_P, 1, 4, .rws, .policy, 0x0⟩,
  ⟨F.POWER_PLEVEL_W, 1, 4, .rws, .policy, 0x0⟩,
  ⟨F.POWER_THROTTLES_COUNT, 1, 4, .ro, .any, 0x0⟩,
  ⟨F.POWER_WAKES_COUNT, 1, 4, .ro, .any, 0x0⟩]
/-- Register map of beat, part 0. -/
def beatMap0 : List FldRow := [
  ⟨F.BEAT_TGSEL_SLOT, 1, 4, .rw, .any, 0x0⟩,
  ⟨F.BEAT_TGCTL_OP, 1, 4, .wo, .any, 0x0⟩,
  ⟨F.BEAT_TGCTL_COUNT, 1, 4, .rw, .any, 0x0⟩,
  ⟨F.BEAT_TGBEATLO_BEAT, 1, 4, .rw, .any, 0x0⟩,
  ⟨F.BEAT_TGBEATHI_BEAT, 1, 4, .rw, .any, 0x0⟩,
  ⟨F.BEAT_TGMIDX_INDEX, 1, 4, .rw, .any, 0x0⟩,
  ⟨F.BEAT_TGMID_BLOCK, 1, 4, .rw, .any, 0x0⟩,
  ⟨F.BEAT_TGSTAT_STATE, 1, 4, .ro, .any, 0x0⟩,
  ⟨F.BEAT_TGSTAT_CODE, 1, 4, .ro, .any, 0x0⟩,
  ⟨F.BEAT_TGSTAT_BLOCK, 1, 4, .ro, .any, 0x0⟩,
  ⟨F.BEAT_TGLINK_HEAD, 1, 4, .rw, .any, 0x0⟩,
  ⟨F.BEAT_TGLINK_LINKED, 1, 4, .rw, .any, 0x0⟩,
  ⟨F.BEAT_TGLINK_NLINK, 1, 4, .rw, .any, 0x0⟩,
  ⟨F.BEAT_TEXP_LO_SUM, 1, 4, .ro, .any, 0x0⟩,
  ⟨F.BEAT_TEXP_HI_SUM, 1, 4, .ro, .any, 0x0⟩,
  ⟨F.BEAT_TDEL_LO_SUM, 1, 4, .ro, .any, 0x0⟩,
  ⟨F.BEAT_TDEL_HI_SUM, 1, 4, .ro, .any, 0x0⟩,
  ⟨F.BEAT_TREP_LO_SUM, 1, 4, .ro, .any, 0x0⟩,
  ⟨F.BEAT_TREP_HI_SUM, 1, 4, .ro, .any, 0x0⟩,
  ⟨F.BEAT_DIGEST_DIGEST, 8, 4, .ro, .any, 0x0⟩,
  ⟨F.BEAT_CTL_OP, 1, 4, .wo, .any, 0x0⟩,
  ⟨F.BEAT_CTL_MODE, 1, 4, .rw, .any, 0x0⟩,
  ⟨F.BEAT_STATUS_STATE, 1, 4, .ro, .any, 0x0⟩,
  ⟨F.BEAT_STATUS_PHASE, 1, 4, .ro, .any, 0x0⟩,
  ⟨F.BEAT_STATUS_ROUND, 1, 4, .ro, .any, 0x0⟩,
  ⟨F.BEAT_STATUS_CODE, 1, 4, .ro, .any, 0x0⟩,
  ⟨F.BEAT_LEN_NS, 1, 4, .rws, .any, 0xF4240⟩,
  ⟨F.BEAT_LAUNCH_LO_T0, 1, 4, .rw, .any, 0x0⟩,
  ⟨F.BEAT_LAUNCH_HI_T0, 1, 4, .rw, .any, 0x0⟩,
  ⟨F.BEAT_NUM_LO_N, 1, 4, .ro, .any, 0x0⟩,
  ⟨F.BEAT_NUM_HI_N, 1, 4, .ro, .any, 0x0⟩,
  ⟨F.BEAT_ANCHORT_LO_T, 1, 4, .ro, .any, 0x0⟩,
  ⟨F.BEAT_ANCHORT_HI_T, 1, 4, .ro, .any, 0x0⟩,
  ⟨F.BEAT_ANCHORN_LO_N, 1, 4, .ro, .any, 0x0⟩,
  ⟨F.BEAT_ANCHORN_HI_N, 1, 4, .ro, .any, 0x0⟩,
  ⟨F.BEAT_LAG_NS, 1, 4, .ro, .any, 0x0⟩,
  ⟨F.BEAT_LAGMAX_NS, 1, 4, .rws, .any, 0x0⟩,
  ⟨F.BEAT_REPLAY_PACE, 1, 4, .rw, .any, 0x0⟩,
  ⟨F.BEAT_RETRY_RETRYMAX, 1, 4, .rw, .any, 0x1⟩,
  ⟨F.BEAT_RETRY_REPICKMAX, 1, 4, .rw, .any, 0x4⟩,
  ⟨F.BEAT_REPICKWAIT_NS, 1, 4, .rw, .any, 0x4E20⟩,
  ⟨F.BEAT_CLOSEWAIT_NS, 1, 4, .rw, .any, 0xC350⟩,
  ⟨F.BEAT_JOB_PEERS, 1, 4, .rw, .any, 0x0⟩,
  ⟨F.BEAT_JOB_SELF, 1, 4, .ro, .any, 0x0⟩,
  ⟨F.BEAT_JOBWAIT_NS, 1, 4, .rw, .any, 0x30D40⟩,
  ⟨F.BEAT_DIGCFG_MODE, 1, 4, .rw, .any, 0x0⟩,
  ⟨F.BEAT_DIGCFG_PARTNER, 1, 4, .rw, .any, 0x0⟩,
  ⟨F.BEAT_DIGCFG_SEND, 1, 4, .rw, .any, 0x0⟩,
  ⟨F.BEAT_DIGBASE_LO_ADDR, 1, 4, .rw, .any, 0x0⟩,
  ⟨F.BEAT_DIGBASE_HI_ADDR, 1, 4, .rw, .any, 0x0⟩,
  ⟨F.BEAT_DIGSIZE_PAGES, 1, 4, .rw, .any, 0x0⟩,
  ⟨F.BEAT_HOLD_HOLD, 1, 4, .rw, .custody, 0x0⟩,
  ⟨F.BEAT_DIGBEAT_LO_N, 1, 4, .ro, .any, 0x0⟩,
  ⟨F.BEAT_DIGBEAT_HI_N, 1, 4, .ro, .any, 0x0⟩,
  ⟨F.BEAT_DIGMMBEAT_LO_N, 1, 4, .ro, .any, 0x0⟩,
  ⟨F.BEAT_DIGMMBEAT_HI_N, 1, 4, .ro, .any, 0x0⟩,
  ⟨F.BEAT_COARSEN_LEVEL, 1, 4, .rws, .policy, 0x0⟩,
  ⟨F.BEAT_STRETCHED_COUNT, 1, 4, .ro, .any, 0x0⟩,
  ⟨F.BEAT_LAGPEAK_COUNT, 1, 4, .rc, .any, 0x0⟩,
  ⟨F.BEAT_RETRIES_COUNT, 1, 4, .ro, .any, 0x0⟩]
/-- Register map of beat, part 1. -/
def beatMap1 : List FldRow := [
  ⟨F.BEAT_ABORTSTALE_COUNT, 1, 4, .ro, .any, 0x0⟩,
  ⟨F.BEAT_ARMREFUSE_COUNT, 1, 4, .ro, .any, 0x0⟩,
  ⟨F.BEAT_DIGMISMATCH_COUNT, 1, 4, .ro, .any, 0x0⟩,
  ⟨F.BEAT_DIGSTALE_COUNT, 1, 4, .ro, .any, 0x0⟩,
  ⟨F.BEAT_HOLDS_COUNT, 1, 4, .ro, .any, 0x0⟩,
  ⟨F.BEAT_DETSTAT_FREERUN, 1, 4, .w1c, .any, 0x0⟩,
  ⟨F.BEAT_DETSTAT_POLICY, 1, 4, .w1c, .any, 0x0⟩,
  ⟨F.BEAT_DETSTAT_LEVEL, 1, 4, .w1c, .any, 0x0⟩,
  ⟨F.BEAT_DETSTAT_THROTTLE, 1, 4, .w1c, .any, 0x0⟩,
  ⟨F.BEAT_DETSTAT_INPUTDROP, 1, 4, .w1c, .any, 0x0⟩,
  ⟨F.BEAT_DETSTAT_NONIDENT, 1, 4, .w1c, .any, 0x0⟩,
  ⟨F.BEAT_DETSTAT_TIMEDEP, 1, 4, .w1c, .any, 0x0⟩,
  ⟨F.BEAT_DETSTAT_UNGROUPED, 1, 4, .w1c, .any, 0x0⟩,
  ⟨F.BEAT_DETSTAT_DIGMISMATCH, 1, 4, .w1c, .any, 0x0⟩,
  ⟨F.BEAT_DETSTAT_DCLASS, 1, 4, .ro, .any, 0x0⟩,
  ⟨F.BEAT_DETBEAT_LO_N, 1, 4, .ro, .any, 0x0⟩,
  ⟨F.BEAT_DETBEAT_HI_N, 1, 4, .ro, .any, 0x0⟩]
/-- Register map of beat. -/
def beatMap : List FldRow := beatMap0 ++ beatMap1
/-- Register map of ltime, part 0. -/
def ltimeMap : List FldRow := [
  ⟨F.LTIME_STAT_LOCKED, 1, 4, .ro, .any, 0x0⟩,
  ⟨F.LTIME_STAT_HOLDOVER, 1, 4, .ro, .any, 0x0⟩,
  ⟨F.LTIME_STAT_SRCLOST, 1, 4, .ro, .any, 0x0⟩,
  ⟨F.LTIME_NOW_LO_LT, 1, 4, .ro, .any, 0x0⟩,
  ⟨F.LTIME_NOW_HI_LT, 1, 4, .ro, .any, 0x0⟩,
  ⟨F.LTIME_SRC_SRC, 1, 4, .rw, .any, 0x0⟩,
  ⟨F.LTIME_REFPKG_PKG, 1, 4, .rw, .any, 0x0⟩,
  ⟨F.LTIME_RATE_RATE, 1, 4, .rw, .software, 0x0⟩,
  ⟨F.LTIME_STEP_LO_STEP, 1, 4, .wo, .any, 0x0⟩,
  ⟨F.LTIME_STEP_HI_STEP, 1, 4, .wo, .any, 0x0⟩,
  ⟨F.LTIME_PPSOFF_NS, 1, 4, .rw, .any, 0x0⟩,
  ⟨F.LTIME_ERR_NS, 1, 4, .ro, .any, 0x0⟩,
  ⟨F.LTIME_CAP_LO_LT, 1, 4, .ro, .any, 0x0⟩,
  ⟨F.LTIME_CAP_HI_LT, 1, 4, .ro, .any, 0x0⟩,
  ⟨F.LTIME_RATECLAMP_COUNT, 1, 4, .ro, .any, 0x0⟩,
  ⟨F.LTIME_STEPREFUSE_COUNT, 1, 4, .ro, .any, 0x0⟩,
  ⟨F.LTIME_SRCLOST_COUNT, 1, 4, .ro, .any, 0x0⟩]
/-- Register map of timer, part 0. -/
def timerMap : List FldRow := [
  ⟨F.TIMER_CAPLOST_COUNT, 24, 4, .ro, .any, 0x0⟩,
  ⟨F.TIMER_CTL_EN, 24, 32, .rws, .any, 0x0⟩,
  ⟨F.TIMER_CTL_CLKSRC, 24, 32, .rws, .any, 0x0⟩,
  ⟨F.TIMER_CTL_GATE, 24, 32, .rws, .any, 0x0⟩,
  ⟨F.TIMER_CTL_GATEPIN, 24, 32, .rws, .any, 0x0⟩,
  ⟨F.TIMER_CTL_MATCHACT, 24, 32, .rws, .any, 0x0⟩,
  ⟨F.TIMER_CTL_WRAPACT, 24, 32, .rws, .any, 0x0⟩,
  ⟨F.TIMER_CTL_CAPEDGE, 24, 32, .rws, .any, 0x0⟩,
  ⟨F.TIMER_CTL_CAPPIN, 24, 32, .rws, .any, 0x0⟩,
  ⟨F.TIMER_CTL_OUTEN, 24, 32, .rws, .any, 0x0⟩,
  ⟨F.TIMER_CTL_INIT, 24, 32, .rws, .any, 0x0⟩,
  ⟨F.TIMER_CTL_DBGFRZ, 24, 32, .rws, .any, 0x0⟩,
  ⟨F.TIMER_CTL_IRQEN, 24, 32, .rws, .any, 0x0⟩,
  ⟨F.TIMER_PRESCALE_DIV, 24, 32, .rws, .any, 0x0⟩,
  ⟨F.TIMER_RELOAD_RELOAD, 24, 32, .rws, .any, 0xFFFFFFFF⟩,
  ⟨F.TIMER_CMP_CMP, 24, 32, .rws, .any, 0xFFFFFFFF⟩,
  ⟨F.TIMER_COUNT_COUNT, 24, 32, .ro, .any, 0x0⟩,
  ⟨F.TIMER_CAP_CAP, 24, 32, .ro, .any, 0x0⟩,
  ⟨F.TIMER_CAPLT_LO_LT, 24, 32, .ro, .any, 0x0⟩,
  ⟨F.TIMER_CAPLT_HI_LT, 24, 32, .ro, .any, 0x0⟩,
  ⟨F.TIMER_CAPFRESH_FRESH, 1, 4, .ro, .any, 0x0⟩,
  ⟨F.TIMER_RLDPEND_PEND, 1, 4, .ro, .any, 0x0⟩,
  ⟨F.TIMER_SHORTLAP_SHORT, 1, 4, .w1c, .any, 0x0⟩,
  ⟨F.TIMER_EVWRAP_EV, 1, 4, .w1c, .any, 0x0⟩,
  ⟨F.TIMER_EVMATCH_EV, 1, 4, .w1c, .any, 0x0⟩,
  ⟨F.TIMER_EVCAP_EV, 1, 4, .w1c, .any, 0x0⟩,
  ⟨F.TIMER_START_LO_LT, 1, 4, .rw, .any, 0x0⟩,
  ⟨F.TIMER_START_HI_LT, 1, 4, .rw, .any, 0x0⟩,
  ⟨F.TIMER_STARTGO_MASK, 1, 4, .wo, .any, 0x0⟩,
  ⟨F.TIMER_WAITING_WAIT, 1, 4, .ro, .any, 0x0⟩,
  ⟨F.TIMER_STARTLATE_LATE, 1, 4, .w1c, .any, 0x0⟩,
  ⟨F.TIMER_FROZEN_HALT, 1, 4, .ro, .any, 0x0⟩,
  ⟨F.TIMER_IMMED_IMMED, 1, 4, .rw, .policy, 0x0⟩]
/-- Register map of hbmc, part 0. -/
def hbmcMap : List FldRow := [
  ⟨F.HBMC_PCSTAT_UP, 1, 4, .ro, .any, 0x0⟩,
  ⟨F.HBMC_TEMP_MAXC, 1, 4, .ro, .any, 0x0⟩,
  ⟨F.HBMC_SCRUB_HOURS, 1, 4, .rw, .any, 0x18⟩,
  ⟨F.HBMC_CEADDR_LO_ADDR, 1, 4, .ro, .any, 0x0⟩,
  ⟨F.HBMC_CEADDR_HI_ADDR, 1, 4, .ro, .any, 0x0⟩,
  ⟨F.HBMC_UEADDR_LO_ADDR, 1, 4, .ro, .any, 0x0⟩,
  ⟨F.HBMC_UEADDR_HI_ADDR, 1, 4, .ro, .any, 0x0⟩,
  ⟨F.HBMC_POISONCLR_GO, 1, 4, .wo, .custody, 0x0⟩,
  ⟨F.HBMC_READS_COUNT, 1, 4, .ro, .any, 0x0⟩,
  ⟨F.HBMC_WRITES_COUNT, 1, 4, .ro, .any, 0x0⟩,
  ⟨F.HBMC_CE_COUNT, 1, 4, .ro, .any, 0x0⟩,
  ⟨F.HBMC_UE_COUNT, 1, 4, .ro, .any, 0x0⟩,
  ⟨F.HBMC_INTEG_COUNT, 1, 4, .ro, .any, 0x0⟩,
  ⟨F.HBMC_SCRUBCE_COUNT, 1, 4, .ro, .any, 0x0⟩,
  ⟨F.HBMC_ODECC_COUNT, 1, 4, .ro, .any, 0x0⟩,
  ⟨F.HBMC_PARRETRY_COUNT, 1, 4, .ro, .any, 0x0⟩,
  ⟨F.HBMC_TAGHIT_COUNT, 1, 4, .ro, .any, 0x0⟩,
  ⟨F.HBMC_TAGMISS_COUNT, 1, 4, .ro, .any, 0x0⟩,
  ⟨F.HBMC_DUPREQ_COUNT, 1, 4, .ro, .any, 0x0⟩,
  ⟨F.HBMC_PARTREFUSE_COUNT, 1, 4, .ro, .any, 0x0⟩,
  ⟨F.HBMC_QFULLCYC_COUNT, 1, 4, .ro, .any, 0x0⟩]
/-- Register map of memcrypt, part 0. -/
def memcryptMap : List FldRow := [
  ⟨F.MC_REGSEL_INDEX, 1, 4, .rw, .any, 0x0⟩,
  ⟨F.MC_REGDATA0_BASE, 1, 4, .rw, .lantern, 0x0⟩,
  ⟨F.MC_REGDATA0_SIZE, 1, 4, .rw, .lantern, 0x0⟩,
  ⟨F.MC_REGDATA1_PART, 1, 4, .rw, .lantern, 0x1F⟩,
  ⟨F.MC_REGDATA1_SLOT, 1, 4, .rw, .lantern, 0x0⟩,
  ⟨F.MC_REGDATA1_KIND, 1, 4, .rw, .lantern, 0x0⟩,
  ⟨F.MC_REGDATA1_VALID, 1, 4, .rw, .lantern, 0x0⟩,
  ⟨F.MC_REGDATA1_DEVACC, 1, 4, .rw, .lantern, 0x0⟩,
  ⟨F.MC_REGCTL_OP, 1, 4, .wo, .lantern, 0x0⟩,
  ⟨F.MC_REGSTAT_STATE, 1, 4, .ro, .any, 0x0⟩,
  ⟨F.MC_REGSTAT_REFUSED, 1, 4, .w1c, .any, 0x0⟩,
  ⟨F.MC_KEYLOADED_SLOTS, 1, 4, .ro, .any, 0x0⟩,
  ⟨F.MC_KEYSEL_INDEX, 1, 4, .rw, .any, 0x0⟩,
  ⟨F.MC_KEYGEN_GEN, 1, 4, .ro, .any, 0x0⟩]
/-- Register map of shuttle, part 0. -/
def shuttleMap : List FldRow := [
  ⟨F.SH_STRIDE_SSTRIDE, 1, 4, .rw, .any, 0x0⟩,
  ⟨F.SH_STRIDE_DSTRIDE, 1, 4, .rw, .any, 0x0⟩,
  ⟨F.SH_EVENT_DONE, 1, 4, .w1c, .any, 0x0⟩,
  ⟨F.SH_EVENT_ERR, 1, 4, .w1c, .any, 0x0⟩,
  ⟨F.SH_SRC_LO_ADDR, 1, 4, .rw, .any, 0x0⟩,
  ⟨F.SH_SRC_HI_ADDR, 1, 4, .rw, .any, 0x0⟩,
  ⟨F.SH_DST_LO_ADDR, 1, 4, .rw, .any, 0x0⟩,
  ⟨F.SH_DST_HI_ADDR, 1, 4, .rw, .any, 0x0⟩,
  ⟨F.SH_LEN_LEN, 1, 4, .rw, .any, 0x0⟩,
  ⟨F.SH_CFG_CFG, 1, 4, .rw, .any, 0x0⟩,
  ⟨F.SH_CFG_LAMP, 1, 4, .rw, .any, 0x0⟩,
  ⟨F.SH_PAT_LO_PATTERN, 1, 4, .rw, .any, 0x0⟩,
  ⟨F.SH_PAT_HI_PATTERN, 1, 4, .rw, .any, 0x0⟩,
  ⟨F.SH_NEXT_LO_ADDR, 1, 4, .rw, .any, 0x0⟩,
  ⟨F.SH_NEXT_HI_ADDR, 1, 4, .rw, .any, 0x0⟩,
  ⟨F.SH_CTL_GO, 1, 4, .wo, .any, 0x0⟩,
  ⟨F.SH_CTL_ABORT, 1, 4, .wo, .any, 0x0⟩,
  ⟨F.SH_STAT_ACTIVE, 1, 4, .ro, .any, 0x0⟩,
  ⟨F.SH_STAT_ARMED, 1, 4, .ro, .any, 0x0⟩,
  ⟨F.SH_STAT_REFUSED, 1, 4, .w1c, .any, 0x0⟩,
  ⟨F.SH_STAT_TAKEOVER, 1, 4, .ro, .any, 0x0⟩,
  ⟨F.SH_STAT_CODE, 1, 4, .ro, .any, 0x0⟩,
  ⟨F.SH_STAT_QDEPTH, 1, 4, .ro, .any, 0x0⟩,
  ⟨F.SH_DONE_BYTES, 1, 4, .ro, .any, 0x0⟩,
  ⟨F.SH_CMPOFF_OFFSET, 1, 4, .ro, .any, 0xFFFFFFFF⟩,
  ⟨F.SH_CMPCNT_COUNT, 1, 4, .ro, .any, 0x0⟩,
  ⟨F.SH_ERRADDR_LO_ADDR, 1, 4, .ro, .any, 0x0⟩,
  ⟨F.SH_ERRADDR_HI_ADDR, 1, 4, .ro, .any, 0x0⟩,
  ⟨F.SH_ERRDESC_LO_ADDR, 1, 4, .ro, .any, 0x0⟩,
  ⟨F.SH_ERRDESC_HI_ADDR, 1, 4, .ro, .any, 0x0⟩,
  ⟨F.SH_EVENTEN_EN, 1, 4, .rw, .any, 0x0⟩,
  ⟨F.SH_BYTES_COUNT, 1, 4, .ro, .any, 0x0⟩,
  ⟨F.SH_DESCS_COUNT, 1, 4, .ro, .any, 0x0⟩,
  ⟨F.SH_ERRORS_COUNT, 1, 4, .ro, .any, 0x0⟩,
  ⟨F.SH_REFUSE_COUNT, 1, 4, .ro, .any, 0x0⟩,
  ⟨F.SH_AUTHFAIL_COUNT, 1, 4, .ro, .any, 0x0⟩,
  ⟨F.SH_RESTART_COUNT, 1, 4, .ro, .any, 0x0⟩]
/-- Register map of glimmer, part 0. -/
def glimmerMap : List FldRow := [
  ⟨F.GLIM_PKGRT_ENTRY, 2, 4, .rw, .any, 0x0⟩,
  ⟨F.GLIM_CFG_EN, 1, 4, .rw, .any, 0x0⟩,
  ⟨F.GLIM_CFG_SENDWAKE, 1, 4, .rw, .any, 0x0⟩,
  ⟨F.GLIM_STAT_STATE, 1, 4, .ro, .any, 0x0⟩,
  ⟨F.GLIM_STAT_LANES, 1, 4, .ro, .any, 0x0⟩,
  ⟨F.GLIM_STAT_PEERPKG, 1, 4, .ro, .any, 0x0⟩,
  ⟨F.GLIM_STAT_PEERPORT, 1, 4, .ro, .any, 0x0⟩,
  ⟨F.GLIM_STAT_LOSTSEEN, 1, 4, .w1c, .any, 0x0⟩,
  ⟨F.GLIM_STAT_WAKESEEN, 1, 4, .w1c, .any, 0x0⟩,
  ⟨F.GLIM_ASYM_ASYM, 1, 4, .rw, .any, 0x0⟩,
  ⟨F.GLIM_DELAY_DELAY, 1, 4, .ro, .any, 0x0⟩,
  ⟨F.GLIM_OFFSET_OFFSET, 1, 4, .ro, .any, 0x0⟩,
  ⟨F.GLIM_SERTHR_LIMIT, 1, 4, .rw, .any, 0xF4240⟩,
  ⟨F.GLIM_MIRWAIT_NS, 1, 4, .rw, .any, 0xC350⟩,
  ⟨F.GLIM_JOB_ROLE, 1, 4, .rw, .any, 0x0⟩,
  ⟨F.GLIM_JOB_SELF, 1, 4, .ro, .any, 0x0⟩,
  ⟨F.GLIM_ELECT_CAND, 1, 4, .rw, .any, 0x0⟩,
  ⟨F.GLIM_ELECT_PRIO, 1, 4, .rw, .any, 0x0⟩,
  ⟨F.GLIM_FMSTAT_FM, 1, 4, .ro, .any, 0x0⟩,
  ⟨F.GLIM_FMSTAT_VALID, 1, 4, .ro, .any, 0x0⟩,
  ⟨F.GLIM_FRAMESRX_COUNT, 1, 4, .ro, .any, 0x0⟩,
  ⟨F.GLIM_FECCE_COUNT, 1, 4, .ro, .any, 0x0⟩,
  ⟨F.GLIM_FECUE_COUNT, 1, 4, .ro, .any, 0x0⟩,
  ⟨F.GLIM_CRCFAIL_COUNT, 1, 4, .ro, .any, 0x0⟩,
  ⟨F.GLIM_PKTCUT_COUNT, 1, 4, .ro, .any, 0x0⟩,
  ⟨F.GLIM_LANESPARE_COUNT, 1, 4, .ro, .any, 0x0⟩,
  ⟨F.GLIM_OFSHUT_COUNT, 1, 4, .ro, .any, 0x0⟩,
  ⟨F.GLIM_BADMARK_COUNT, 1, 4, .ro, .any, 0x0⟩,
  ⟨F.GLIM_MIRDROP_COUNT, 1, 4, .ro, .any, 0x0⟩,
  ⟨F.GLIM_MIRLOST_COUNT, 1, 4, .ro, .any, 0x0⟩,
  ⟨F.GLIM_TRANSIT_COUNT, 1, 4, .ro, .any, 0x0⟩,
  ⟨F.GLIM_RSTDROP_COUNT, 1, 4, .ro, .any, 0x0⟩,
  ⟨F.GLIM_ROLEDROP_COUNT, 1, 4, .ro, .any, 0x0⟩]
/-- Register map of laser, part 0. -/
def laserMap : List FldRow := [
  ⟨F.LASER_MOD_STATE0, 1, 4, .ro, .any, 0x0⟩,
  ⟨F.LASER_MOD_READYOUT0, 1, 4, .ro, .any, 0x0⟩,
  ⟨F.LASER_MOD_LIFEWARN0, 1, 4, .ro, .any, 0x0⟩,
  ⟨F.LASER_MOD_STATE1, 1, 4, .ro, .any, 0x0⟩,
  ⟨F.LASER_MOD_READYOUT1, 1, 4, .ro, .any, 0x0⟩,
  ⟨F.LASER_MOD_LIFEWARN1, 1, 4, .ro, .any, 0x0⟩,
  ⟨F.LASER_CTL_LIGHT, 1, 4, .rw, .custody, 0x1⟩,
  ⟨F.LASER_CTL_RELEASE, 1, 4, .w1s, .custody, 0x0⟩,
  ⟨F.LASER_LIFESEL_MODULE, 1, 4, .rw, .any, 0x0⟩,
  ⟨F.LASER_POWERED_HOURS, 1, 4, .ro, .any, 0x0⟩,
  ⟨F.LASER_HOT_HOURS, 1, 4, .ro, .any, 0x0⟩,
  ⟨F.LASER_DRIFT_PERMILLE, 1, 4, .ro, .any, 0x0⟩,
  ⟨F.LASER_CASET_DEGC, 1, 4, .ro, .any, 0x0⟩]
/-- Register map of reed, part 0. -/
def reedMap0 : List FldRow := [
  ⟨F.REED_CSI_VC, 1, 4, .rws, .any, 0x0⟩,
  ⟨F.REED_CSI_DT, 1, 4, .rws, .any, 0x30⟩,
  ⟨F.REED_CLEVEL1_BIN, 1, 4, .rws, .any, 0x0⟩,
  ⟨F.REED_CLEVEL1_POLMERGE, 1, 4, .rws, .any, 0x0⟩,
  ⟨F.REED_CLEVEL1_MINCOUNT, 1, 4, .rws, .any, 0x1⟩,
  ⟨F.REED_CLEVEL2_BIN, 1, 4, .rws, .any, 0x0⟩,
  ⟨F.REED_CLEVEL2_POLMERGE, 1, 4, .rws, .any, 0x0⟩,
  ⟨F.REED_CLEVEL2_MINCOUNT, 1, 4, .rws, .any, 0x1⟩,
  ⟨F.REED_CLEVEL3_BIN, 1, 4, .rws, .any, 0x0⟩,
  ⟨F.REED_CLEVEL3_POLMERGE, 1, 4, .rws, .any, 0x0⟩,
  ⟨F.REED_CLEVEL3_MINCOUNT, 1, 4, .rws, .any, 0x1⟩,
  ⟨F.REED_RECCTL_CAPEN, 1, 4, .rw, .any, 0x0⟩,
  ⟨F.REED_RECCTL_CAPWRAP, 1, 4, .rw, .any, 0x0⟩,
  ⟨F.REED_MIRROR_PORT, 1, 4, .rw, .any, 0x0⟩,
  ⟨F.REED_MIRROR_EN, 1, 4, .rw, .any, 0x0⟩,
  ⟨F.REED_SYNC_CHAN, 1, 4, .rw, .any, 0x0⟩,
  ⟨F.REED_SYNC_EN, 1, 4, .rw, .any, 0x0⟩,
  ⟨F.REED_I3CCMD_ADDR, 1, 4, .wo, .any, 0x0⟩,
  ⟨F.REED_I3CCMD_RD, 1, 4, .wo, .any, 0x0⟩,
  ⟨F.REED_I3CCMD_LEN, 1, 4, .wo, .any, 0x0⟩,
  ⟨F.REED_I3CCMD_CCC, 1, 4, .wo, .any, 0x0⟩,
  ⟨F.REED_I3CCMD_CCCEN, 1, 4, .wo, .any, 0x0⟩,
  ⟨F.REED_I3CSTAT_BUSY, 1, 4, .ro, .any, 0x0⟩,
  ⟨F.REED_I3CSTAT_NACK, 1, 4, .w1c, .any, 0x0⟩,
  ⟨F.REED_I3CSTAT_IBI, 1, 4, .w1c, .any, 0x0⟩,
  ⟨F.REED_I3CSTAT_IBIADDR, 1, 4, .ro, .any, 0x0⟩,
  ⟨F.REED_CFG_PHY, 1, 4, .rws, .any, 0x0⟩,
  ⟨F.REED_CFG_LANES, 1, 4, .rws, .any, 0x4⟩,
  ⟨F.REED_CFG_SRC, 1, 4, .rws, .any, 0x0⟩,
  ⟨F.REED_CFG_TSMODE, 1, 4, .rws, .any, 0x0⟩,
  ⟨F.REED_CFG_DECMODE, 1, 4, .rws, .any, 0x0⟩,
  ⟨F.REED_CFG_INWIDTH, 1, 4, .rws, .any, 0x1⟩,
  ⟨F.REED_TSOFF_LO_OFF, 1, 4, .rws, .any, 0x0⟩,
  ⟨F.REED_TSOFF_HI_OFF, 1, 4, .rws, .any, 0x0⟩,
  ⟨F.REED_GUARD_NS, 1, 4, .rws, .any, 0x7D0⟩,
  ⟨F.REED_GEOM_TILESX, 1, 4, .rws, .any, 0x0⟩,
  ⟨F.REED_TMSEL_INDEX, 1, 4, .rw, .any, 0x0⟩,
  ⟨F.REED_TMDATA0_MBASE, 1, 4, .rws, .any, 0x0⟩,
  ⟨F.REED_TMDATA0_GROUP, 1, 4, .rws, .any, 0x0⟩,
  ⟨F.REED_TMDATA0_VALID, 1, 4, .rws, .any, 0x0⟩,
  ⟨F.REED_TMDATA1_MSLOT, 1, 4, .rws, .any, 0x0⟩,
  ⟨F.REED_GRPSEL_INDEX, 1, 4, .rw, .any, 0x0⟩,
  ⟨F.REED_GRPDATA0_POP, 1, 4, .rws, .any, 0x0⟩,
  ⟨F.REED_GRPDATA0_DELAY, 1, 4, .rws, .any, 0x0⟩,
  ⟨F.REED_GRPDATA0_VALID, 1, 4, .rws, .any, 0x0⟩,
  ⟨F.REED_GRPDATA1_POLOFF, 1, 4, .rws, .any, 0x0⟩,
  ⟨F.REED_UCSEL_INDEX, 1, 4, .rw, .any, 0x0⟩,
  ⟨F.REED_UCDATA_LO_OP, 1, 4, .rws, .any, 0x0⟩,
  ⟨F.REED_UCDATA_LO_SRC, 1, 4, .rws, .any, 0x0⟩,
  ⟨F.REED_UCDATA_LO_WID, 1, 4, .rws, .any, 0x0⟩,
  ⟨F.REED_UCDATA_LO_DST, 1, 4, .rws, .any, 0x0⟩,
  ⟨F.REED_UCDATA_LO_TGT, 1, 4, .rws, .any, 0x0⟩,
  ⟨F.REED_UCDATA_HI_VAL, 1, 4, .rws, .any, 0x0⟩,
  ⟨F.REED_RETBASE_LO_ADDR, 1, 4, .rws, .any, 0x0⟩,
  ⟨F.REED_RETBASE_HI_ADDR, 1, 4, .rws, .any, 0x0⟩,
  ⟨F.REED_SPILLBASE_LO_ADDR, 1, 4, .rws, .any, 0x0⟩,
  ⟨F.REED_SPILLBASE_HI_ADDR, 1, 4, .rws, .any, 0x0⟩,
  ⟨F.REED_SPILLSIZE_PAGES, 1, 4, .rws, .any, 0x0⟩,
  ⟨F.REED_RECBASE_LO_ADDR, 1, 4, .rws, .any, 0x0⟩,
  ⟨F.REED_RECBASE_HI_ADDR, 1, 4, .rws, .any, 0x0⟩]
/-- Register map of reed, part 1. -/
def reedMap1 : List FldRow := [
  ⟨F.REED_RECSIZE_PAGES, 1, 4, .rws, .any, 0x0⟩,
  ⟨F.REED_RECCNT_LO_COUNT, 1, 4, .rw, .any, 0x0⟩,
  ⟨F.REED_RECCNT_HI_COUNT, 1, 4, .rw, .any, 0x0⟩,
  ⟨F.REED_I3CDATA_DATA, 1, 4, .rw, .any, 0x0⟩,
  ⟨F.REED_SENSTAT_STATUS, 1, 4, .ro, .any, 0x0⟩,
  ⟨F.REED_EVENTS_COUNT, 1, 4, .ro, .any, 0x0⟩,
  ⟨F.REED_PICKS_COUNT, 1, 4, .ro, .any, 0x0⟩,
  ⟨F.REED_IDLEDROP_COUNT, 1, 4, .ro, .any, 0x0⟩,
  ⟨F.REED_LATEDROP_COUNT, 1, 4, .ro, .any, 0x0⟩,
  ⟨F.REED_NOTILE_COUNT, 1, 4, .ro, .any, 0x0⟩,
  ⟨F.REED_SPILLDROP_COUNT, 1, 4, .ro, .any, 0x0⟩,
  ⟨F.REED_SPILLED_COUNT, 1, 4, .ro, .any, 0x0⟩,
  ⟨F.REED_SUBTHRESH_COUNT, 1, 4, .ro, .any, 0x0⟩,
  ⟨F.REED_GRADESAT_COUNT, 1, 4, .ro, .any, 0x0⟩,
  ⟨F.REED_INQDROP_COUNT, 1, 4, .ro, .any, 0x0⟩,
  ⟨F.REED_CRCDROP_COUNT, 1, 4, .ro, .any, 0x0⟩,
  ⟨F.REED_OTHERPKT_COUNT, 1, 4, .ro, .any, 0x0⟩,
  ⟨F.REED_DECOVF_COUNT, 1, 4, .ro, .any, 0x0⟩,
  ⟨F.REED_STATUSW_COUNT, 1, 4, .ro, .any, 0x0⟩,
  ⟨F.REED_REPICKSRV_COUNT, 1, 4, .ro, .any, 0x0⟩,
  ⟨F.REED_REPICKBAD_COUNT, 1, 4, .ro, .any, 0x0⟩,
  ⟨F.REED_CAPDROP_COUNT, 1, 4, .ro, .any, 0x0⟩]
/-- Register map of reed. -/
def reedMap : List FldRow := reedMap0 ++ reedMap1
/-- Register map of hostport, part 0. -/
def hostportMap : List FldRow := [
  ⟨F.HOSTPORT_LINK_WIDTH, 1, 4, .ro, .any, 0x0⟩,
  ⟨F.HOSTPORT_LINK_SPEED, 1, 4, .ro, .any, 0x0⟩,
  ⟨F.HOSTPORT_LINK_UP, 1, 4, .ro, .any, 0x0⟩,
  ⟨F.HOSTPORT_WINSEL_SLOT, 1, 4, .rw, .any, 0x0⟩,
  ⟨F.HOSTPORT_WINDBASE_DBASE, 1, 4, .rw, .any, 0x0⟩,
  ⟨F.HOSTPORT_WINSIZE_SIZE, 1, 4, .rw, .any, 0x0⟩,
  ⟨F.HOSTPORT_WINHADDR_LO_HADDR, 1, 4, .rw, .any, 0x0⟩,
  ⟨F.HOSTPORT_WINHADDR_HI_HADDR, 1, 4, .rw, .any, 0x0⟩,
  ⟨F.HOSTPORT_WINCTL_EN, 1, 4, .rw, .any, 0x0⟩,
  ⟨F.HOSTPORT_WINCTL_PART, 1, 4, .ro, .any, 0x1F⟩,
  ⟨F.HOSTPORT_WINSTAT_REFUSED, 1, 4, .w1c, .any, 0x0⟩,
  ⟨F.HOSTPORT_DOORBELL_VECTOR, 1, 4, .wo, .any, 0x0⟩,
  ⟨F.HOSTPORT_SESSION_ACTIVE, 1, 4, .ro, .any, 0x0⟩,
  ⟨F.HOSTPORT_RSTDROP_COUNT, 1, 4, .ro, .any, 0x0⟩]
/-- Register map of apc, part 0. -/
def apcMap : List FldRow := [
  ⟨F.APC_PARTALLOW_ALLOW, 16, 8, .rw, .lantern, 0x0⟩,
  ⟨F.APC_VMPART_PART, 16, 8, .rw, .any, 0x0⟩,
  ⟨F.APC_VMPART_VALID, 16, 8, .rw, .any, 0x0⟩,
  ⟨F.APC_PWRREQ_SLEEP, 1, 4, .wo, .any, 0x0⟩,
  ⟨F.APC_PWRREQ_FREEZE, 1, 4, .rw, .any, 0x0⟩,
  ⟨F.APC_PWRBUDGET_W, 1, 4, .rw, .any, 0x0⟩,
  ⟨F.APC_CHSEL_INDEX, 1, 4, .rw, .any, 0x0⟩,
  ⟨F.APC_CHDATA0_CHAN, 1, 4, .rws, .any, 0x0⟩,
  ⟨F.APC_CHDATA0_VALID, 1, 4, .rws, .any, 0x0⟩,
  ⟨F.APC_CHDATA0_DIR, 1, 4, .rws, .any, 0x0⟩,
  ⟨F.APC_CHDATA0_PKG, 1, 4, .rws, .any, 0x0⟩,
  ⟨F.APC_CHDATA0_PEER, 1, 4, .rws, .any, 0x0⟩,
  ⟨F.APC_CHDATA1_NHOPS, 1, 4, .rws, .any, 0x0⟩,
  ⟨F.APC_CHDATA1_XSEL, 1, 4, .rws, .any, 0x0⟩,
  ⟨F.APC_CHDATA1_RSIZE, 1, 4, .rws, .any, 0x0⟩,
  ⟨F.APC_CHDATA1_RBASE, 1, 4, .rws, .any, 0x0⟩,
  ⟨F.APC_CHDATA1_GEN, 1, 4, .rws, .any, 0x0⟩,
  ⟨F.APC_CHDATA2_HOPS0, 1, 4, .rws, .any, 0x0⟩,
  ⟨F.APC_CHDATA3_HOPS1, 1, 4, .rws, .any, 0x0⟩,
  ⟨F.APC_CHDATA4_HOPS2, 1, 4, .rws, .any, 0x0⟩,
  ⟨F.APC_CHDATA5_HOPS3, 1, 4, .rws, .any, 0x0⟩,
  ⟨F.APC_CHDATA6_HOPS4, 1, 4, .rws, .any, 0x0⟩,
  ⟨F.APC_CHDATA7_HOPS5, 1, 4, .rws, .any, 0x0⟩,
  ⟨F.APC_CHPART_PART, 1, 4, .rws, .custDev, 0x1F⟩,
  ⟨F.APC_CHPART_IRQEN, 1, 4, .rw, .any, 0x0⟩,
  ⟨F.APC_CHRBASE_LO_ADDR, 1, 4, .rws, .any, 0x0⟩,
  ⟨F.APC_CHRBASE_HI_ADDR, 1, 4, .rws, .any, 0x0⟩,
  ⟨F.APC_CHSEND_LO_ADDR, 1, 4, .wo, .any, 0x0⟩,
  ⟨F.APC_CHSEND_HI_ADDR, 1, 4, .wo, .any, 0x0⟩,
  ⟨F.APC_CHSTAT_STATUS, 1, 4, .ro, .any, 0x0⟩,
  ⟨F.APC_CHPOLL_LO_ADDR, 1, 4, .ro, .any, 0x0⟩,
  ⟨F.APC_CHPOLL_HI_ADDR, 1, 4, .ro, .any, 0x0⟩,
  ⟨F.APC_CHDONE_DONE, 1, 4, .wo, .any, 0x0⟩,
  ⟨F.APC_DECODEERR_COUNT, 1, 4, .ro, .any, 0x0⟩]
/-- Register map of netio, part 0. -/
def netioMap : List FldRow := [
  ⟨F.NETIO_RSEL_RING, 1, 4, .rw, .any, 0x0⟩,
  ⟨F.NETIO_RSEL_DIR, 1, 4, .rw, .any, 0x0⟩,
  ⟨F.NETIO_RSEL_CTRL, 1, 4, .rw, .any, 0x0⟩,
  ⟨F.NETIO_BITTIMING_WORD, 16, 4, .rw, .any, 0x0⟩,
  ⟨F.NETIO_RSEL_CAN, 1, 4, .rw, .any, 0x0⟩,
  ⟨F.NETIO_RBASE_LO_IOVA, 1, 4, .rw, .any, 0x0⟩,
  ⟨F.NETIO_RBASE_HI_IOVA, 1, 4, .rw, .any, 0x0⟩,
  ⟨F.NETIO_RSIZE_ENTRIES, 1, 4, .rw, .any, 0x0⟩,
  ⟨F.NETIO_RHEAD_HEAD, 1, 4, .ro, .any, 0x0⟩,
  ⟨F.NETIO_RTAIL_TAIL, 1, 4, .rw, .any, 0x0⟩,
  ⟨F.NETIO_ETSASYM_NS, 1, 4, .rw, .any, 0x0⟩,
  ⟨F.NETIO_GPDIR_DIR, 1, 4, .rw, .any, 0x0⟩,
  ⟨F.NETIO_GPOUT_OUT, 1, 4, .rw, .any, 0x0⟩,
  ⟨F.NETIO_GPIN_IN, 1, 4, .ro, .any, 0x0⟩,
  ⟨F.NETIO_GPIRQEN_EN, 1, 4, .rw, .any, 0x0⟩,
  ⟨F.NETIO_GPEDGE_RISE, 1, 4, .rw, .any, 0x0⟩,
  ⟨F.NETIO_GPEVENT_EVENT, 1, 4, .w1c, .any, 0x0⟩]
/-- Register map of hub, part 0. -/
def hubMap0 : List FldRow := [
  ⟨F.HUB_ROWMAP1_MAP, 1, 4, .rw, .custody, 0x0⟩,
  ⟨F.HUB_ROWMAP2_MAP, 1, 4, .rw, .custody, 0x0⟩,
  ⟨F.HUB_DIRSEL_INDEX, 1, 4, .rw, .any, 0x0⟩,
  ⟨F.HUB_DIRDATA0_VALID, 1, 4, .rws, .any, 0x0⟩,
  ⟨F.HUB_DIRDATA0_KIND, 1, 4, .rws, .any, 0x0⟩,
  ⟨F.HUB_DIRDATA0_PLASTIC, 1, 4, .rws, .any, 0x0⟩,
  ⟨F.HUB_DIRDATA0_PART, 1, 4, .rws, .any, 0x1F⟩,
  ⟨F.HUB_DIRDATA0_SIZEM1, 1, 4, .rws, .any, 0x0⟩,
  ⟨F.HUB_DIRDATA1_RSETLO, 1, 4, .rws, .any, 0x0⟩,
  ⟨F.HUB_DIRDATA2_RSETHI, 1, 4, .rws, .any, 0x0⟩,
  ⟨F.HUB_DIRDATA2_RCOUNT, 1, 4, .rws, .any, 0x0⟩,
  ⟨F.HUB_DIRDATA3_TAG, 1, 4, .rws, .any, 0x0⟩,
  ⟨F.HUB_PLYSEL_INDEX, 1, 4, .rw, .any, 0x0⟩,
  ⟨F.HUB_PLYCFG_EXPECT, 1, 4, .rw, .any, 0x0⟩,
  ⟨F.HUB_PLYCFG_RESLEN, 1, 4, .rw, .any, 0x0⟩,
  ⟨F.HUB_PLYDLOOM_LOOM, 1, 4, .rw, .any, 0x0⟩,
  ⟨F.HUB_PLYDOFF_DOFF, 1, 4, .rw, .any, 0x0⟩,
  ⟨F.HUB_PLYLAMP_LAMP, 1, 4, .rw, .any, 0x0⟩,
  ⟨F.HUB_PLYLAMP_LAMPEN, 1, 4, .rw, .any, 0x0⟩,
  ⟨F.HUB_PLYCTL_OP, 1, 4, .wo, .any, 0x0⟩,
  ⟨F.HUB_PLYCTL_STATE, 1, 4, .ro, .any, 0x0⟩,
  ⟨F.HUB_PLYNEXT_ROUND, 1, 4, .ro, .any, 0x0⟩,
  ⟨F.HUB_PLYPART_PART, 1, 4, .rw, .lantern, 0x1F⟩,
  ⟨F.HUB_ROWSEL_ROW, 1, 4, .rw, .any, 0x0⟩,
  ⟨F.HUB_ROWMAP0_MAP, 1, 4, .rw, .custody, 0x0⟩,
  ⟨F.HUB_ROWISO_ISO, 1, 4, .rw, .custody, 0x0⟩,
  ⟨F.HUB_ROWPASS_PASS, 1, 4, .ro, .any, 0x0⟩,
  ⟨F.HUB_ROWGO_GO, 1, 4, .wo, .custody, 0x0⟩,
  ⟨F.HUB_ROWSTAT_BUSY, 1, 4, .ro, .any, 0x0⟩,
  ⟨F.HUB_ROWSTAT_REFUSED, 1, 4, .w1c, .any, 0x0⟩,
  ⟨F.HUB_LASTERR_SITE, 1, 4, .ro, .any, 0x0⟩,
  ⟨F.HUB_LASTERR_ROW, 1, 4, .ro, .any, 0x0⟩,
  ⟨F.HUB_LASTERR_HALF, 1, 4, .ro, .any, 0x0⟩,
  ⟨F.HUB_LASTERR_PORT, 1, 4, .ro, .any, 0x0⟩,
  ⟨F.HUB_LINKTHR_LIMIT, 1, 4, .rw, .any, 0x40⟩,
  ⟨F.HUB_CRCERR_COUNT, 1, 4, .ro, .any, 0x0⟩,
  ⟨F.HUB_PKTABORT_COUNT, 1, 4, .ro, .any, 0x0⟩,
  ⟨F.HUB_ISODROP_COUNT, 1, 4, .ro, .any, 0x0⟩,
  ⟨F.HUB_NOSITEDROP_COUNT, 1, 4, .ro, .any, 0x0⟩,
  ⟨F.HUB_PLYACC_COUNT, 1, 4, .ro, .any, 0x0⟩,
  ⟨F.HUB_PLYDUP_COUNT, 1, 4, .ro, .any, 0x0⟩,
  ⟨F.HUB_PLYDROP_COUNT, 1, 4, .ro, .any, 0x0⟩,
  ⟨F.HUB_PLYROUNDS_COUNT, 1, 4, .ro, .any, 0x0⟩,
  ⟨F.HUB_PLYSAT_COUNT, 1, 4, .ro, .any, 0x0⟩,
  ⟨F.HUB_SELVRETRY_COUNT, 1, 4, .ro, .any, 0x0⟩,
  ⟨F.HUB_DIRREQ_COUNT, 1, 4, .ro, .any, 0x0⟩,
  ⟨F.HUB_LAMPSEL_INDEX, 1, 4, .rw, .any, 0x0⟩,
  ⟨F.HUB_LAMPVAL_LO_VALUE, 1, 4, .ro, .any, 0x0⟩,
  ⟨F.HUB_LAMPVAL_HI_VALUE, 1, 4, .ro, .any, 0x0⟩,
  ⟨F.HUB_LAMPADD_LO_ADD, 1, 4, .wo, .any, 0x0⟩,
  ⟨F.HUB_LAMPADD_HI_ADD, 1, 4, .wo, .any, 0x0⟩,
  ⟨F.HUB_LAMPFORCE_LO_VALUE, 1, 4, .wo, .any, 0x0⟩,
  ⟨F.HUB_LAMPFORCE_HI_VALUE, 1, 4, .wo, .any, 0x0⟩,
  ⟨F.HUB_WATCHSEL_SLOT, 1, 4, .rw, .any, 0x0⟩,
  ⟨F.HUB_WATCHTGT_LO_TARGET, 1, 4, .rw, .any, 0x0⟩,
  ⟨F.HUB_WATCHTGT_HI_TARGET, 1, 4, .rw, .any, 0x0⟩,
  ⟨F.HUB_WATCHTMO_NS, 1, 4, .rw, .any, 0x0⟩,
  ⟨F.HUB_WATCHCTL_OP, 1, 4, .wo, .any, 0x0⟩,
  ⟨F.HUB_WATCHCTL_STATUS, 1, 4, .ro, .any, 0x0⟩,
  ⟨F.HUB_WATCHCTL_IRQEN, 1, 4, .rw, .any, 0x0⟩]
/-- Register map of hub, part 1. -/
def hubMap1 : List FldRow := [
  ⟨F.HUB_LAMPPART_PART, 3, 4, .ro, .lantern, 0x3FFFFFFF⟩,
  ⟨F.HUB_LAMPADDS_COUNT, 1, 4, .ro, .any, 0x0⟩,
  ⟨F.HUB_LAMPSAT_COUNT, 1, 4, .ro, .any, 0x0⟩,
  ⟨F.HUB_WATCHMET_COUNT, 1, 4, .ro, .any, 0x0⟩,
  ⟨F.HUB_WATCHTMO_COUNT, 1, 4, .ro, .any, 0x0⟩,
  ⟨F.HUB_LAMPREFUSE_COUNT, 1, 4, .ro, .any, 0x0⟩,
  ⟨F.HUB_LAMPZERO_COUNT, 1, 4, .ro, .any, 0x0⟩,
  ⟨F.HUB_LAMPFORCE_COUNT, 1, 4, .ro, .any, 0x0⟩,
  ⟨F.HUB_WATCHFULL_COUNT, 1, 4, .ro, .any, 0x0⟩]
/-- Register map of hub. -/
def hubMap : List FldRow := hubMap0 ++ hubMap1
/-- Register map of seam, part 0. -/
def seamMap : List FldRow := [
  ⟨F.SEAM_LINKUP_UP, 1, 4, .ro, .any, 0x0⟩,
  ⟨F.SEAM_CRCERR_COUNT, 1, 4, .ro, .any, 0x0⟩,
  ⟨F.SEAM_SWDROP_COUNT, 1, 4, .ro, .any, 0x0⟩]
/-- Register map of partition, part 0. -/
def partitionMap : List FldRow := [
  ⟨F.PART_STATE_STATE, 1, 4, .ro, .lantern, 0x0⟩,
  ⟨F.PART_LOOMS_COUNT, 16, 4, .ro, .lantern, 0x0⟩]
/-- Register map of loom, part 0. -/
def loomMap0 : List FldRow := [
  ⟨F.LOOM_SNAPHOLD_COUNT, 1, 4, .ro, .any, 0x0⟩,
  ⟨F.LOOM_LOGWAIT_COUNT, 1, 4, .ro, .any, 0x0⟩,
  ⟨F.LOOM_TIMEDEP_COUNT, 1, 4, .ro, .any, 0x0⟩,
  ⟨F.LOOM_SEQHOOKI_EN, 1, 4, .rws, .any, 0x0⟩,
  ⟨F.LOOM_SEQHOOKI_ADDR, 1, 4, .rws, .any, 0x0⟩,
  ⟨F.LOOM_SEQHOOKS_EN, 1, 4, .rws, .any, 0x0⟩,
  ⟨F.LOOM_SEQHOOKS_ADDR, 1, 4, .rws, .any, 0x0⟩,
  ⟨F.LOOM_SEQHOOKE_EN, 1, 4, .rws, .any, 0x0⟩,
  ⟨F.LOOM_SEQHOOKE_ADDR, 1, 4, .rws, .any, 0x0⟩,
  ⟨F.LOOM_BANKOWN_OWNER0, 1, 4, .rws, .any, 0x0⟩,
  ⟨F.LOOM_BANKOWN_OWNER1, 1, 4, .rws, .any, 0x0⟩,
  ⟨F.LOOM_BANKOWN_OWNER2, 1, 4, .rws, .any, 0x0⟩,
  ⟨F.LOOM_BANKOWN_OWNER3, 1, 4, .rws, .any, 0x0⟩,
  ⟨F.LOOM_BANKOWN_OWNER4, 1, 4, .rws, .any, 0x0⟩,
  ⟨F.LOOM_BANKOWN_OWNER5, 1, 4, .rws, .any, 0x0⟩,
  ⟨F.LOOM_BANKOWN_OWNER6, 1, 4, .rws, .any, 0x0⟩,
  ⟨F.LOOM_BANKOWN_OWNER7, 1, 4, .rws, .any, 0x0⟩,
  ⟨F.LOOM_SPILLBASE_LO_ADDR, 1, 4, .rws, .any, 0x0⟩,
  ⟨F.LOOM_SPILLBASE_HI_ADDR, 1, 4, .rws, .any, 0x0⟩,
  ⟨F.LOOM_NSLOTS_NSLOTS, 1, 4, .rws, .any, 0x0⟩,
  ⟨F.LOOM_ACCBASE_BASE, 1, 4, .rws, .any, 0x0⟩,
  ⟨F.LOOM_DQBASE_BASE, 1, 4, .rws, .any, 0x0⟩,
  ⟨F.LOOM_DQSIZE_SIZE, 1, 4, .rws, .any, 0x0⟩,
  ⟨F.LOOM_SPILLSIZE_SIZE, 1, 4, .rws, .any, 0x0⟩,
  ⟨F.LOOM_DQCOUNT_COUNT, 1, 4, .ro, .any, 0x0⟩,
  ⟨F.LOOM_THSEL_INDEX, 1, 4, .rw, .any, 0x0⟩,
  ⟨F.LOOM_THDATA0_THETA, 1, 4, .rws, .any, 0x7FFFFF⟩,
  ⟨F.LOOM_THDATA0_GMAX, 1, 4, .rws, .any, 0x1⟩,
  ⟨F.LOOM_THDATA0_EMODE, 1, 4, .rws, .any, 0x0⟩,
  ⟨F.LOOM_THDATA1_LEAKK, 1, 4, .rws, .any, 0x0⟩,
  ⟨F.LOOM_THDATA1_REFP, 1, 4, .rws, .any, 0x0⟩,
  ⟨F.LOOM_THDATA1_VSHIFT, 1, 4, .rws, .any, 0x0⟩,
  ⟨F.LOOM_THDATA1_BIAS, 1, 4, .rws, .any, 0x0⟩,
  ⟨F.LOOM_THDATA2_AINC, 1, 4, .rws, .any, 0x0⟩,
  ⟨F.LOOM_THDATA2_ADECK, 1, 4, .rws, .any, 0x0⟩,
  ⟨F.LOOM_THDATA3_VFLOOR, 1, 4, .rws, .any, 0x800000⟩,
  ⟨F.LOOM_SATBURST_LIMIT, 1, 4, .rw, .any, 0x0⟩,
  ⟨F.LOOM_NESTAT_PHASE, 1, 4, .ro, .any, 0x0⟩,
  ⟨F.LOOM_NESTAT_BEAT, 1, 4, .ro, .any, 0x0⟩,
  ⟨F.LOOM_SATCOUNT_COUNT, 1, 4, .ro, .any, 0x0⟩,
  ⟨F.LOOM_SATLAST_COUNT, 1, 4, .ro, .any, 0x0⟩,
  ⟨F.LOOM_MEMSAT_COUNT, 1, 4, .ro, .any, 0x0⟩,
  ⟨F.LOOM_EMITTED_COUNT, 1, 4, .ro, .any, 0x0⟩,
  ⟨F.LOOM_PICKSIN_COUNT, 1, 4, .ro, .any, 0x0⟩,
  ⟨F.LOOM_CONTRIB_COUNT, 1, 4, .ro, .any, 0x0⟩,
  ⟨F.LOOM_REFDROP_COUNT, 1, 4, .ro, .any, 0x0⟩,
  ⟨F.LOOM_OFFHIT_COUNT, 1, 4, .ro, .any, 0x0⟩,
  ⟨F.LOOM_TGTRANGE_COUNT, 1, 4, .ro, .any, 0x0⟩,
  ⟨F.LOOM_BADKIND_COUNT, 1, 4, .ro, .any, 0x0⟩,
  ⟨F.LOOM_DQSPILL_COUNT, 1, 4, .ro, .any, 0x0⟩,
  ⟨F.LOOM_NSCE_COUNT, 1, 4, .ro, .any, 0x0⟩,
  ⟨F.LOOM_SEGSEL_INDEX, 1, 4, .rw, .any, 0x0⟩,
  ⟨F.LOOM_SEGDATA0_BASE, 1, 4, .rws, .any, 0x0⟩,
  ⟨F.LOOM_SEGDATA0_LEN, 1, 4, .rws, .any, 0x0⟩,
  ⟨F.LOOM_SEGDATA1_POP, 1, 4, .rws, .any, 0x0⟩,
  ⟨F.LOOM_SEGDATA1_DELAY, 1, 4, .rws, .any, 0x0⟩,
  ⟨F.LOOM_SEGDATA1_SKIND, 1, 4, .rws, .any, 0x0⟩,
  ⟨F.LOOM_SEGDATA2_M0, 1, 4, .rws, .any, 0x0⟩,
  ⟨F.LOOM_SEGDATA3_ROUTE, 1, 4, .rws, .any, 0x0⟩,
  ⟨F.LOOM_AFFBASE_BASE, 1, 4, .rws, .any, 0x0⟩]
/-- Register map of loom, part 1. -/
def loomMap1 : List FldRow := [
  ⟨F.LOOM_AFFCFG_AFFBITS, 1, 4, .rws, .any, 0x0⟩,
  ⟨F.LOOM_AFFCFG_AFFPROBE, 1, 4, .rws, .any, 0x0⟩,
  ⟨F.LOOM_RCBASE_BASE, 1, 4, .rws, .any, 0x0⟩,
  ⟨F.LOOM_RCSIZE_SIZE, 1, 4, .rws, .any, 0x0⟩,
  ⟨F.LOOM_RCINV_INV, 1, 4, .wo, .any, 0x0⟩,
  ⟨F.LOOM_AFFMISS_COUNT, 1, 4, .ro, .any, 0x0⟩,
  ⟨F.LOOM_NOROW_COUNT, 1, 4, .ro, .any, 0x0⟩,
  ⟨F.LOOM_ROWS_COUNT, 1, 4, .ro, .any, 0x0⟩,
  ⟨F.LOOM_RCHIT_COUNT, 1, 4, .ro, .any, 0x0⟩,
  ⟨F.LOOM_RCMISS_COUNT, 1, 4, .ro, .any, 0x0⟩,
  ⟨F.LOOM_BADSYN_COUNT, 1, 4, .ro, .any, 0x0⟩,
  ⟨F.LOOM_NOSEG_COUNT, 1, 4, .ro, .any, 0x0⟩,
  ⟨F.LOOM_SSCE_COUNT, 1, 4, .ro, .any, 0x0⟩,
  ⟨F.LOOM_RTMISS_COUNT, 1, 4, .ro, .any, 0x0⟩,
  ⟨F.LOOM_HBMPLAST_COUNT, 1, 4, .ro, .any, 0x0⟩,
  ⟨F.LOOM_RETBASE_BASE, 1, 4, .rws, .any, 0x0⟩,
  ⟨F.LOOM_INSTBASE_BASE, 1, 4, .rws, .any, 0x0⟩,
  ⟨F.LOOM_INSTCOUNT_COUNT, 1, 4, .rws, .any, 0x0⟩,
  ⟨F.LOOM_NISTAT_BALANCED, 1, 4, .ro, .any, 0x0⟩,
  ⟨F.LOOM_NISTAT_RETRY, 1, 4, .ro, .any, 0x0⟩,
  ⟨F.LOOM_NISTAT_UNCLOSED, 1, 4, .ro, .any, 0x0⟩,
  ⟨F.LOOM_GAPPICKS_COUNT, 1, 4, .ro, .any, 0x0⟩,
  ⟨F.LOOM_REPICKREQ_COUNT, 1, 4, .ro, .any, 0x0⟩,
  ⟨F.LOOM_REPICKRX_COUNT, 1, 4, .ro, .any, 0x0⟩,
  ⟨F.LOOM_REPICKSRV_COUNT, 1, 4, .ro, .any, 0x0⟩,
  ⟨F.LOOM_REPICKBAD_COUNT, 1, 4, .ro, .any, 0x0⟩,
  ⟨F.LOOM_DUPDROP_COUNT, 1, 4, .ro, .any, 0x0⟩,
  ⟨F.LOOM_STRAYDROP_COUNT, 1, 4, .ro, .any, 0x0⟩,
  ⟨F.LOOM_ABORTDROP_COUNT, 1, 4, .ro, .any, 0x0⟩,
  ⟨F.LOOM_FRSEL_INDEX, 1, 4, .rw, .any, 0x0⟩,
  ⟨F.LOOM_FRDATA0_BASE, 1, 4, .rws, .any, 0x0⟩,
  ⟨F.LOOM_FRDATA0_OUTBASE, 1, 4, .rws, .any, 0x0⟩,
  ⟨F.LOOM_FRDATA1_OUTSCBASE, 1, 4, .rws, .any, 0x0⟩,
  ⟨F.LOOM_FRDATA1_ROWSM1, 1, 4, .rws, .any, 0x0⟩,
  ⟨F.LOOM_FRDATA1_G, 1, 4, .rws, .any, 0x0⟩,
  ⟨F.LOOM_FRDATA1_FMT, 1, 4, .rws, .any, 0x0⟩,
  ⟨F.LOOM_FRDATA1_VALID, 1, 4, .rws, .any, 0x0⟩,
  ⟨F.LOOM_FRDATA2_KLEN, 1, 4, .rws, .any, 0x0⟩,
  ⟨F.LOOM_FRDATA2_FEXP, 1, 4, .rws, .any, 0x0⟩,
  ⟨F.LOOM_FRDATA3_LASTHITS, 1, 4, .ro, .any, 0x0⟩,
  ⟨F.LOOM_DOPSEL_INDEX, 1, 4, .rw, .any, 0x0⟩,
  ⟨F.LOOM_DOPDATA0_VALID, 1, 4, .rws, .any, 0x0⟩,
  ⟨F.LOOM_DOPDATA0_KIND, 1, 4, .rws, .any, 0x0⟩,
  ⟨F.LOOM_DOPDATA0_TRIGGER, 1, 4, .rws, .any, 0x0⟩,
  ⟨F.LOOM_DOPDATA0_FRAME, 1, 4, .rws, .any, 0x0⟩,
  ⟨F.LOOM_DOPDATA0_ASRC, 1, 4, .rws, .any, 0x0⟩,
  ⟨F.LOOM_DOPDATA0_SKIPEMPTY, 1, 4, .rws, .any, 0x0⟩,
  ⟨F.LOOM_DOPDATA0_ZSKIP, 1, 4, .rws, .any, 0x0⟩,
  ⟨F.LOOM_DOPDATA0_BIASEN, 1, 4, .rws, .any, 0x0⟩,
  ⟨F.LOOM_DOPDATA0_PERIOD, 1, 4, .rws, .any, 0x0⟩,
  ⟨F.LOOM_DOPDATA0_PHASE, 1, 4, .rws, .any, 0x0⟩,
  ⟨F.LOOM_DOPDATA1_MM1, 1, 4, .rws, .any, 0x0⟩,
  ⟨F.LOOM_DOPDATA1_NM1, 1, 4, .rws, .any, 0x0⟩,
  ⟨F.LOOM_DOPDATA2_K, 1, 4, .rws, .any, 0x0⟩,
  ⟨F.LOOM_DOPDATA2_GA, 1, 4, .rws, .any, 0x0⟩,
  ⟨F.LOOM_DOPDATA2_FMTA, 1, 4, .rws, .any, 0x0⟩,
  ⟨F.LOOM_DOPDATA2_FMTW, 1, 4, .rws, .any, 0x0⟩,
  ⟨F.LOOM_DOPDATA2_WSCALE, 1, 4, .rws, .any, 0x0⟩,
  ⟨F.LOOM_DOPDATA2_RELU, 1, 4, .rws, .any, 0x0⟩,
  ⟨F.LOOM_DOPDATA2_LUT, 1, 4, .rws, .any, 0x0⟩]
/-- Register map of loom, part 2. -/
def loomMap2 : List FldRow := [
  ⟨F.LOOM_DOPDATA2_OUT, 1, 4, .rws, .any, 0x0⟩,
  ⟨F.LOOM_DOPDATA2_FMTY, 1, 4, .rws, .any, 0x0⟩,
  ⟨F.LOOM_DOPDATA2_GY, 1, 4, .rws, .any, 0x0⟩,
  ⟨F.LOOM_DOPDATA2_OSHIFTMODE, 1, 4, .rws, .any, 0x0⟩,
  ⟨F.LOOM_DOPDATA2_EMIT, 1, 4, .rws, .any, 0x0⟩,
  ⟨F.LOOM_DOPDATA3_ACCEXP, 1, 4, .rws, .any, 0x0⟩,
  ⟨F.LOOM_DOPDATA3_OEXP, 1, 4, .rws, .any, 0x0⟩,
  ⟨F.LOOM_DOPDATA3_ESHIFT, 1, 4, .rws, .any, 0x0⟩,
  ⟨F.LOOM_DOPDATA3_THIDX, 1, 4, .rws, .any, 0x0⟩,
  ⟨F.LOOM_DOPDATA4_ABASE, 1, 4, .rws, .any, 0x0⟩,
  ⟨F.LOOM_DOPDATA4_ASCBASE, 1, 4, .rws, .any, 0x0⟩,
  ⟨F.LOOM_DOPDATA5_WBASE, 1, 4, .rws, .any, 0x0⟩,
  ⟨F.LOOM_DOPDATA5_WSCBASE, 1, 4, .rws, .any, 0x0⟩,
  ⟨F.LOOM_DOPDATA6_YBASE, 1, 4, .rws, .any, 0x0⟩,
  ⟨F.LOOM_DOPDATA6_YSCBASE, 1, 4, .rws, .any, 0x0⟩,
  ⟨F.LOOM_DOPDATA7_BBASE, 1, 4, .rws, .any, 0x0⟩,
  ⟨F.LOOM_DOPDATA7_OUTIDX, 1, 4, .rws, .any, 0x0⟩,
  ⟨F.LOOM_BLUTBASE_BASE, 1, 4, .rws, .any, 0x0⟩,
  ⟨F.LOOM_BSTAT_BUSY, 1, 4, .ro, .any, 0x0⟩,
  ⟨F.LOOM_BSTAT_OP, 1, 4, .ro, .any, 0x0⟩,
  ⟨F.LOOM_BSTAT_QUEUED, 1, 4, .ro, .any, 0x0⟩,
  ⟨F.LOOM_BSTAT_REFUSED, 1, 4, .w1c, .any, 0x0⟩,
  ⟨F.LOOM_BRUN_INDEX, 1, 4, .wo, .any, 0x0⟩,
  ⟨F.LOOM_BRUN_GO, 1, 4, .wo, .any, 0x0⟩,
  ⟨F.LOOM_DOPRUNS_COUNT, 1, 4, .ro, .any, 0x0⟩,
  ⟨F.LOOM_BTILES_COUNT, 1, 4, .ro, .any, 0x0⟩,
  ⟨F.LOOM_ZSKIP_COUNT, 1, 4, .ro, .any, 0x0⟩,
  ⟨F.LOOM_ALIGNSAT_COUNT, 1, 4, .ro, .any, 0x0⟩,
  ⟨F.LOOM_REQSAT_COUNT, 1, 4, .ro, .any, 0x0⟩,
  ⟨F.LOOM_TEEMIT_COUNT, 1, 4, .ro, .any, 0x0⟩,
  ⟨F.LOOM_TESAT_COUNT, 1, 4, .ro, .any, 0x0⟩,
  ⟨F.LOOM_FRAMEHIT_COUNT, 1, 4, .ro, .any, 0x0⟩,
  ⟨F.LOOM_FRAMESKIP_COUNT, 1, 4, .ro, .any, 0x0⟩,
  ⟨F.LOOM_FRAMEDROP_COUNT, 1, 4, .ro, .any, 0x0⟩,
  ⟨F.LOOM_MXLOSS_COUNT, 1, 4, .ro, .any, 0x0⟩,
  ⟨F.LOOM_MXNAN_COUNT, 1, 4, .ro, .any, 0x0⟩,
  ⟨F.LOOM_TCTL_LEARN, 1, 4, .rws, .any, 0x0⟩,
  ⟨F.LOOM_TCTL_CKPTEN, 1, 4, .rws, .any, 0x0⟩,
  ⟨F.LOOM_TPBASE_BASE, 1, 4, .rws, .any, 0x0⟩,
  ⟨F.LOOM_TPSIZE_SIZE, 1, 4, .rws, .any, 0x0⟩,
  ⟨F.LOOM_TSTAGEBASE_BASE, 1, 4, .rws, .any, 0x0⟩,
  ⟨F.LOOM_TSWEEP_PERIOD, 1, 4, .rws, .any, 0x0⟩,
  ⟨F.LOOM_TSWEEP_PHASE, 1, 4, .rws, .any, 0x0⟩,
  ⟨F.LOOM_TKSEL_INDEX, 1, 4, .rw, .any, 0x0⟩,
  ⟨F.LOOM_TKDATA_K, 1, 4, .rws, .any, 0x0⟩,
  ⟨F.LOOM_TRSEL_INDEX, 1, 4, .rw, .any, 0x0⟩,
  ⟨F.LOOM_TRDATA0_POP, 1, 4, .rws, .any, 0x0⟩,
  ⟨F.LOOM_TRDATA0_VALID, 1, 4, .rws, .any, 0x0⟩,
  ⟨F.LOOM_TRDATA0_MODEN, 1, 4, .rws, .any, 0x0⟩,
  ⟨F.LOOM_TRDATA0_MODCH, 1, 4, .rws, .any, 0x0⟩,
  ⟨F.LOOM_TRDATA0_LRATE, 1, 4, .rws, .any, 0x0⟩,
  ⟨F.LOOM_TRDATA1_WMIN, 1, 4, .rws, .any, 0x80⟩,
  ⟨F.LOOM_TRDATA1_WMAX, 1, 4, .rws, .any, 0x7F⟩,
  ⟨F.LOOM_TRDATA1_TARGETW, 1, 4, .rws, .any, 0x0⟩,
  ⟨F.LOOM_TMSEL_INDEX, 1, 4, .rw, .any, 0x0⟩,
  ⟨F.LOOM_TMDATA_MODBASE, 1, 4, .rws, .any, 0x100⟩,
  ⟨F.LOOM_TMDATA_MSHIFT, 1, 4, .rws, .any, 0x0⟩,
  ⟨F.LOOM_TMVAL_VAL, 1, 4, .ro, .any, 0x0⟩,
  ⟨F.LOOM_TSNAPCTL_GO, 1, 4, .rws, .any, 0x0⟩,
  ⟨F.LOOM_TSNAPCTL_BUSY, 1, 4, .ro, .any, 0x0⟩]
/-- Register map of loom, part 3. -/
def loomMap3 : List FldRow := [
  ⟨F.LOOM_TSNAPCTL_ERR, 1, 4, .w1c, .any, 0x0⟩,
  ⟨F.LOOM_TSNAPDST_LO_ADDR, 1, 4, .rws, .any, 0x0⟩,
  ⟨F.LOOM_TSNAPDST_HI_ADDR, 1, 4, .rws, .any, 0x0⟩,
  ⟨F.LOOM_TSNAPBEAT_LO_N, 1, 4, .ro, .any, 0x0⟩,
  ⟨F.LOOM_TSNAPBEAT_HI_N, 1, 4, .ro, .any, 0x0⟩,
  ⟨F.LOOM_TSNAPSEQ_SEQ, 1, 4, .ro, .any, 0x0⟩,
  ⟨F.LOOM_TPRE_COUNT, 1, 4, .ro, .any, 0x0⟩,
  ⟨F.LOOM_TUPD_COUNT, 1, 4, .ro, .any, 0x0⟩,
  ⟨F.LOOM_TWSAT_COUNT, 1, 4, .ro, .any, 0x0⟩,
  ⟨F.LOOM_TSUMSAT_COUNT, 1, 4, .ro, .any, 0x0⟩,
  ⟨F.LOOM_TFSAT_COUNT, 1, 4, .ro, .any, 0x0⟩,
  ⟨F.LOOM_TMODSAT_COUNT, 1, 4, .ro, .any, 0x0⟩,
  ⟨F.LOOM_TNORULE_COUNT, 1, 4, .ro, .any, 0x0⟩,
  ⟨F.LOOM_TPOUTSIDE_COUNT, 1, 4, .ro, .any, 0x0⟩,
  ⟨F.LOOM_TPREFUSE_COUNT, 1, 4, .ro, .any, 0x0⟩,
  ⟨F.LOOM_TWEFFCLAMP_COUNT, 1, 4, .ro, .any, 0x0⟩,
  ⟨F.LOOM_TSWEEPS_COUNT, 1, 4, .ro, .any, 0x0⟩,
  ⟨F.LOOM_TSNAPSTALL_COUNT, 1, 4, .ro, .any, 0x0⟩,
  ⟨F.LOOM_TAGED_COUNT, 1, 4, .ro, .any, 0x0⟩,
  ⟨F.LOOM_SEQCTL_RUN, 1, 4, .rw, .any, 0x0⟩,
  ⟨F.LOOM_SEQCTL_RESTART, 1, 4, .wo, .any, 0x0⟩,
  ⟨F.LOOM_SEQSTAT_STATE, 1, 4, .ro, .any, 0x0⟩,
  ⟨F.LOOM_SEQSTAT_ACT, 1, 4, .ro, .any, 0x0⟩,
  ⟨F.LOOM_SEQSTAT_HANDLER, 1, 4, .ro, .any, 0x0⟩,
  ⟨F.LOOM_SEQSTAT_FREERUN, 1, 4, .ro, .any, 0x0⟩,
  ⟨F.LOOM_SEQSTAT_PENDING, 1, 4, .ro, .any, 0x0⟩,
  ⟨F.LOOM_SEQPC_PC, 1, 4, .ro, .any, 0x0⟩,
  ⟨F.LOOM_SEQENTRY_ADDR, 1, 4, .rws, .any, 0x0⟩,
  ⟨F.LOOM_SEQTVEC_VALID, 1, 4, .rws, .any, 0x0⟩,
  ⟨F.LOOM_SEQTVEC_ADDR, 1, 4, .rws, .any, 0x0⟩,
  ⟨F.LOOM_SEQHTBASE_BASE, 1, 4, .rws, .any, 0x0⟩,
  ⟨F.LOOM_SEQBUDGET_CYCLES, 1, 4, .rws, .any, 0x0⟩,
  ⟨F.LOOM_SEQTPC_ADDR, 1, 4, .ro, .any, 0x0⟩,
  ⟨F.LOOM_SEQTCAUSE_CAUSE, 1, 4, .ro, .any, 0x0⟩,
  ⟨F.LOOM_SEQTCAUSE_ACT, 1, 4, .ro, .any, 0x0⟩,
  ⟨F.LOOM_SEQTVAL_LO_VAL, 1, 4, .ro, .any, 0x0⟩,
  ⟨F.LOOM_SEQTVAL_HI_VAL, 1, 4, .ro, .any, 0x0⟩,
  ⟨F.LOOM_SEQINSTR_COUNT, 1, 4, .ro, .any, 0x0⟩,
  ⟨F.LOOM_SEQACT_COUNT, 1, 4, .ro, .any, 0x0⟩,
  ⟨F.LOOM_SEQTRAPS_COUNT, 1, 4, .ro, .any, 0x0⟩,
  ⟨F.LOOM_SEQNOHDL_COUNT, 1, 4, .ro, .any, 0x0⟩,
  ⟨F.LOOM_SEQSKIP_COUNT, 1, 4, .ro, .any, 0x0⟩,
  ⟨F.LOOM_SEQABANDON_COUNT, 1, 4, .ro, .any, 0x0⟩,
  ⟨F.LOOM_SEQFREERUN_COUNT, 1, 4, .ro, .any, 0x0⟩,
  ⟨F.LOOM_SEQSTALL_COUNT, 1, 4, .ro, .any, 0x0⟩,
  ⟨F.LOOM_SEQIMISS_COUNT, 1, 4, .ro, .any, 0x0⟩,
  ⟨F.LOOM_BANKSTAT_DRAINING, 1, 4, .ro, .any, 0x0⟩,
  ⟨F.LOOM_BANKSTAT_SPAREBANK, 1, 4, .ro, .any, 0x0⟩,
  ⟨F.LOOM_BANKSTAT_SPAREUSED, 1, 4, .ro, .any, 0x0⟩,
  ⟨F.LOOM_BANKSTAT_SPAREYIELD, 1, 4, .ro, .any, 0x0⟩,
  ⟨F.LOOM_BANKSTAT_SPAREBAD, 1, 4, .ro, .any, 0x0⟩,
  ⟨F.LOOM_BTESTCTL_EN, 1, 4, .rw, .any, 0x1⟩,
  ⟨F.LOOM_BTESTINT_CYCLES, 1, 4, .rw, .any, 0x1000⟩,
  ⟨F.LOOM_BTESTPOS_ROW, 1, 4, .ro, .any, 0x0⟩,
  ⟨F.LOOM_BTESTPOS_BANK, 1, 4, .ro, .any, 0x0⟩,
  ⟨F.LOOM_BTESTPOS_PASSES, 1, 4, .ro, .any, 0x0⟩,
  ⟨F.LOOM_BCETHR_LIMIT, 1, 4, .rw, .any, 0x10⟩,
  ⟨F.LOOM_BREMAP_BANK, 1, 4, .wo, .custodyRef, 0x0⟩,
  ⟨F.LOOM_BREMAP_GO, 1, 4, .wo, .custodyRef, 0x0⟩,
  ⟨F.LOOM_BCONF_SEQ_COUNT, 1, 4, .ro, .any, 0x0⟩]
/-- Register map of loom, part 4. -/
def loomMap4 : List FldRow := [
  ⟨F.LOOM_BCONF_NEURON_COUNT, 1, 4, .ro, .any, 0x0⟩,
  ⟨F.LOOM_BCONF_BATTEN_COUNT, 1, 4, .ro, .any, 0x0⟩,
  ⟨F.LOOM_BCONF_TENS_COUNT, 1, 4, .ro, .any, 0x0⟩,
  ⟨F.LOOM_BCONF_SHUTTLE_COUNT, 1, 4, .ro, .any, 0x0⟩,
  ⟨F.LOOM_BCONF_NETIF_COUNT, 1, 4, .ro, .any, 0x0⟩,
  ⟨F.LOOM_BSCE_COUNT, 1, 4, .ro, .any, 0x0⟩,
  ⟨F.LOOM_BTESTFAIL_COUNT, 1, 4, .ro, .any, 0x0⟩,
  ⟨F.LOOM_BHANDOVER_COUNT, 1, 4, .ro, .any, 0x0⟩,
  ⟨F.LOOM_BOWNREFUSE_COUNT, 1, 4, .ro, .any, 0x0⟩,
  ⟨F.LOOM_BTESTHOLD_COUNT, 1, 4, .ro, .any, 0x0⟩,
  ⟨F.LOOM_NITHROT_THRON, 1, 4, .rw, .any, 0x28⟩,
  ⟨F.LOOM_NITHROT_THROFF, 1, 4, .rw, .any, 0x18⟩,
  ⟨F.LOOM_NITHROT_VCMASK, 1, 4, .rw, .any, 0x7⟩,
  ⟨F.LOOM_PLYMASK_MASK, 8, 4, .ro, .any, 0x0⟩,
  ⟨F.LOOM_NIPOS_SITE, 1, 4, .ro, .any, 0x0⟩,
  ⟨F.LOOM_NIPOS_ROW, 1, 4, .ro, .any, 0x0⟩,
  ⟨F.LOOM_NIPOS_HALF, 1, 4, .ro, .any, 0x0⟩,
  ⟨F.LOOM_NIPKTTX_COUNT, 1, 4, .ro, .any, 0x0⟩,
  ⟨F.LOOM_NIPKTRX_COUNT, 1, 4, .ro, .any, 0x0⟩,
  ⟨F.LOOM_NIABORTRX_COUNT, 1, 4, .ro, .any, 0x0⟩,
  ⟨F.LOOM_NIBADPKT_COUNT, 1, 4, .ro, .any, 0x0⟩,
  ⟨F.LOOM_PARTDROP_COUNT, 1, 4, .ro, .any, 0x0⟩,
  ⟨F.LOOM_THROTCYC_COUNT, 1, 4, .ro, .any, 0x0⟩,
  ⟨F.LOOM_REPICKQFULL_COUNT, 1, 4, .ro, .any, 0x0⟩,
  ⟨F.LOOM_PLYPUTS_COUNT, 1, 4, .ro, .any, 0x0⟩,
  ⟨F.LOOM_PLYRESEND_COUNT, 1, 4, .ro, .any, 0x0⟩,
  ⟨F.LOOM_PLYRESDROP_COUNT, 1, 4, .ro, .any, 0x0⟩,
  ⟨F.LOOM_CHSEL_INDEX, 1, 4, .rw, .any, 0x0⟩,
  ⟨F.LOOM_CHDATA0_CHAN, 1, 4, .rws, .any, 0x0⟩,
  ⟨F.LOOM_CHDATA0_VALID, 1, 4, .rws, .any, 0x0⟩,
  ⟨F.LOOM_CHDATA0_DIR, 1, 4, .rws, .any, 0x0⟩,
  ⟨F.LOOM_CHDATA0_PKG, 1, 4, .rws, .any, 0x0⟩,
  ⟨F.LOOM_CHDATA0_PEER, 1, 4, .rws, .any, 0x0⟩,
  ⟨F.LOOM_CHDATA1_NHOPS, 1, 4, .rws, .any, 0x0⟩,
  ⟨F.LOOM_CHDATA1_XSEL, 1, 4, .rws, .any, 0x0⟩,
  ⟨F.LOOM_CHDATA1_RSIZE, 1, 4, .rws, .any, 0x0⟩,
  ⟨F.LOOM_CHDATA1_RBASE, 1, 4, .rws, .any, 0x0⟩,
  ⟨F.LOOM_CHDATA1_GEN, 1, 4, .rws, .any, 0x0⟩,
  ⟨F.LOOM_CHDATA2_HOPS0, 1, 4, .rws, .any, 0x0⟩,
  ⟨F.LOOM_CHDATA3_HOPS1, 1, 4, .rws, .any, 0x0⟩,
  ⟨F.LOOM_CHDATA4_HOPS2, 1, 4, .rws, .any, 0x0⟩,
  ⟨F.LOOM_CHDATA5_HOPS3, 1, 4, .rws, .any, 0x0⟩,
  ⟨F.LOOM_CHDATA6_HOPS4, 1, 4, .rws, .any, 0x0⟩,
  ⟨F.LOOM_CHDATA7_HOPS5, 1, 4, .rws, .any, 0x0⟩,
  ⟨F.LOOM_CHTXBASE_BASE, 1, 4, .rws, .any, 0x0⟩,
  ⟨F.LOOM_CHTXSIZE_SIZE, 1, 4, .rws, .any, 0x0⟩,
  ⟨F.LOOM_CHCTL_CLOSE, 1, 4, .wo, .any, 0x0⟩,
  ⟨F.LOOM_CHSTAT_STATE, 1, 4, .ro, .any, 0x0⟩,
  ⟨F.LOOM_CHSTAT_UNACKED, 1, 4, .ro, .any, 0x0⟩,
  ⟨F.LOOM_CHMSGS_COUNT, 1, 4, .ro, .any, 0x0⟩,
  ⟨F.LOOM_CHSTALL_COUNT, 1, 4, .ro, .any, 0x0⟩,
  ⟨F.LOOM_CHORPH_COUNT, 1, 4, .ro, .any, 0x0⟩,
  ⟨F.LOOM_CHRESEND_COUNT, 1, 4, .ro, .any, 0x0⟩,
  ⟨F.LOOM_CHDUP_COUNT, 1, 4, .ro, .any, 0x0⟩,
  ⟨F.LOOM_CHORPHAN_COUNT, 1, 4, .ro, .any, 0x0⟩,
  ⟨F.LOOM_CHSTRAY_COUNT, 1, 4, .ro, .any, 0x0⟩,
  ⟨F.LOOM_CHSTALE_COUNT, 1, 4, .ro, .any, 0x0⟩,
  ⟨F.LOOM_CHOVFDROP_COUNT, 1, 4, .ro, .any, 0x0⟩,
  ⟨F.LOOM_CHCLOSEDROP_COUNT, 1, 4, .ro, .any, 0x0⟩]
/-- Register map of loom. -/
def loomMap : List FldRow := loomMap0 ++ loomMap1 ++ loomMap2 ++ loomMap3 ++ loomMap4
/-- The block-specific map of a kind. -/
def kindMap : Kind → List FldRow
  | .custody => custodyMap
  | .lamplighter => lamplighterMap
  | .fuse => fuseMap
  | .power => powerMap
  | .beat => beatMap
  | .ltime => ltimeMap
  | .timer => timerMap
  | .hbmc => hbmcMap
  | .memcrypt => memcryptMap
  | .shuttle => shuttleMap
  | .glimmer => glimmerMap
  | .laser => laserMap
  | .reed => reedMap
  | .hostport => hostportMap
  | .apc => apcMap
  | .netio => netioMap
  | .hub => hubMap
  | .seam => seamMap
  | .partition => partitionMap
  | .loom => loomMap

/-- The selection register of a windowed register, with the field that holds the index: the registers of a window act on
the entry that it names (R65, R84, R124, R129, ...). -/
def selFld : Kind → Nat → Option Fld
  | .memcrypt, off =>
    if 0x44 ≤ off ∧ off ≤ 0x48 then some F.MC_REGSEL_INDEX else
    if 0x50 ≤ off ∧ off ≤ 0x50 then some F.MC_REGSEL_INDEX else
    if 0x5C ≤ off ∧ off ≤ 0x5C then some F.MC_KEYSEL_INDEX else
    none
  | .laser, off =>
    if 0x4C ≤ off ∧ off ≤ 0x58 then some F.LASER_LIFESEL_MODULE else
    none
  | .reed, off =>
    if 0x5C ≤ off ∧ off ≤ 0x60 then some F.REED_TMSEL_INDEX else
    if 0x68 ≤ off ∧ off ≤ 0x6C then some F.REED_GRPSEL_INDEX else
    if 0x74 ≤ off ∧ off ≤ 0x78 then some F.REED_UCSEL_INDEX else
    none
  | .hostport, off =>
    if 0x44 ≤ off ∧ off ≤ 0x58 then some F.HOSTPORT_WINSEL_SLOT else
    none
  | .apc, off =>
    if 0x104 ≤ off ∧ off ≤ 0x12C then some F.APC_CHSEL_INDEX else
    if 0x138 ≤ off ∧ off ≤ 0x140 then some F.APC_CHSEL_INDEX else
    none
  | .netio, off =>
    if 0x44 ≤ off ∧ off ≤ 0x54 then some (⟨0x040, 6, 0⟩ : Fld) else
    if 0x58 ≤ off ∧ off ≤ 0x58 then some F.NETIO_RSEL_CTRL else
    none
  | .hub, off =>
    if 0x44 ≤ off ∧ off ≤ 0x50 then some F.HUB_DIRSEL_INDEX else
    if 0x64 ≤ off ∧ off ≤ 0x7C then some F.HUB_PLYSEL_INDEX else
    if 0x84 ≤ off ∧ off ≤ 0x9C then some F.HUB_ROWSEL_ROW else
    if 0xE0 ≤ off ∧ off ≤ 0xEC then some F.HUB_WATCHSEL_SLOT else
    none
  | .loom, off =>
    if 0x64 ≤ off ∧ off ≤ 0x70 then some F.LOOM_THSEL_INDEX else
    if 0x84 ≤ off ∧ off ≤ 0x90 then some F.LOOM_SEGSEL_INDEX else
    if 0x104 ≤ off ∧ off ≤ 0x110 then some F.LOOM_FRSEL_INDEX else
    if 0x118 ≤ off ∧ off ≤ 0x134 then some F.LOOM_DOPSEL_INDEX else
    if 0x198 ≤ off ∧ off ≤ 0x198 then some F.LOOM_TKSEL_INDEX else
    if 0x1A0 ≤ off ∧ off ≤ 0x1A4 then some F.LOOM_TRSEL_INDEX else
    if 0x1AC ≤ off ∧ off ≤ 0x1B0 then some F.LOOM_TMSEL_INDEX else
    if 0x2A4 ≤ off ∧ off ≤ 0x2C0 then some F.LOOM_CHSEL_INDEX else
    if 0x2D0 ≤ off ∧ off ≤ 0x2DC then some F.LOOM_CHSEL_INDEX else
    none
  | _, _ => none

end Sys2Proof.Machine
end

