-- ==== Sys2Proof/Machine/Bits.lean ====
section
/-!
DEFINITION. Bit fields, byte order, clamping, rounding and check codes: the arithmetic the chapters share.
-/

namespace Sys2Proof.Machine

/-! ## Fields of a register word -/

/-- How many bits a field has. -/
def fldWidth (f : Fld) : Nat := f.hi - f.lo + 1

/-- The field's bits as a mask. -/
def fldMask (f : Fld) : Word := BitVec.ofNat 32 ((2 ^ fldWidth f - 1) * 2 ^ f.lo)

/-- The field's value in a register word. -/
def fldGet (f : Fld) (w : Word) : Nat := (w.toNat / 2 ^ f.lo) % 2 ^ fldWidth f

/-- The register word with the field set to `v` modulo its width, every other bit kept. -/
def fldSet (f : Fld) (w : Word) (v : Nat) : Word :=
  (w &&& ~~~fldMask f) ||| (BitVec.ofNat 32 (v % 2 ^ fldWidth f * 2 ^ f.lo) &&& fldMask f)

/-- Bits of `new` under the mask, bits of `old` elsewhere. -/
def mergeBits (mask old new : Word) : Word := (old &&& ~~~mask) ||| (new &&& mask)

/-- Bits [hi:lo] of a number. -/
def bits (x hi lo : Nat) : Nat := (x / 2 ^ lo) % 2 ^ (hi - lo + 1)

/-- A number with bits [hi:lo] replaced. -/
def setBits (x hi lo v : Nat) : Nat := x - bits x hi lo * 2 ^ lo + v % 2 ^ (hi - lo + 1) * 2 ^ lo

/-- One bit of a number. -/
def bit (x i : Nat) : Bool := (x / 2 ^ i) % 2 == 1

/-- `n` two's complement bits as an integer. -/
def sext (n x : Nat) : Int :=
  let y := x % 2 ^ n
  if y < 2 ^ (n - 1) then (y : Int) else (y : Int) - 2 ^ n

/-- The low `n` bits of an integer in two's complement. -/
def toBits (n : Nat) (x : Int) : Nat := (x % (2 ^ n : Int)).toNat

/-! ## Integers -/

/-- Clamp to [lo, hi]. -/
def clampI (lo hi x : Int) : Int := if x < lo then lo else if hi < x then hi else x

/-- Shift right by `n` with round half to even. -/
def rshiftRne (x : Int) (n : Nat) : Int :=
  let d : Int := 2 ^ n
  let q := x.fdiv d
  let r := x.fmod d
  if 2 * r < d then q else if d < 2 * r then q + 1 else if q % 2 = 0 then q else q + 1

/-- Number of leading zeros of a 64-bit word. -/
def lzc64 (x : W64) : Nat := 64 - (x.toNat.log2 + (if x = 0 then 0 else 1))

/-- Number of set bits below bit `n`. -/
def popcount (n x : Nat) : Nat := ((List.range n).filter (fun i => bit x i)).length

/-! ## Bytes, lowest address first (little endian) -/

/-- The value of a run of bytes. -/
def leNat : List Byte → Nat
  | [] => 0
  | b :: bs => b.toNat + 256 * leNat bs

/-- `n` bytes of a value. -/
def leBytes : Nat → Nat → List Byte
  | 0, _ => []
  | n + 1, x => BitVec.ofNat 8 (x % 256) :: leBytes n (x / 256)

/-- A list of numbers of `w` bytes each, as bytes. -/
def leWords (w : Nat) (xs : List Nat) : List Byte := xs.flatMap (leBytes w)

/-- The first `n` elements, padded with zero bytes. -/
def padTo (n : Nat) (bs : List Byte) : List Byte := (bs ++ List.replicate (n - bs.length) 0).take n

/-! ## Cyclic redundancy checks -/

/-- One bit of a CRC of width `n`, most significant bit first. -/
def crcBit (n poly : Nat) (crc : Nat) (b : Bool) : Nat :=
  let top := bit crc (n - 1) != b
  let s := (crc * 2) % 2 ^ n
  if top then s ^^^ poly else s

/-- CRC of width `n` over bytes, each most significant bit first. -/
def crcMsb (n poly init : Nat) (bs : List Byte) : Nat :=
  bs.foldl (fun c b => (List.range 8).foldl (fun c i => crcBit n poly c (bit b.toNat (7 - i))) c) init

/-! ## Lists -/

/-- Replaces element `i`, where there is one. -/
def listSet {α : Type} (l : List α) (i : Nat) (v : α) : List α := l.set i v

/-- The index of the first element that satisfies `p`. -/
def findIdx? {α : Type} (p : α → Bool) : List α → Option Nat
  | [] => none
  | a :: l => if p a then some 0 else (findIdx? p l).map (· + 1)

end Sys2Proof.Machine
end

