-- ==== Sys2Proof/Machine/Tab.lean ====
section
/-!
DEFINITION. Sparse tables: a sorted list of (key, value) pairs in which a key that is not listed holds the default.
Every memory of the model is one (Host.Cell is the pair with bytes), and so is every register file and every family of
sub-states. The canonical form is: keys strictly rising, no listed value equal to the default.
-/

namespace Sys2Proof.Machine

/-- A sparse table of values of `α` by number. -/
abbrev Tab (α : Type) := List (Nat × α)

/-- The value at `k`, the default `d` where the table lists none. -/
def tabGet {α : Type} (d : α) : Tab α → Nat → α
  | [], _ => d
  | p :: t, k => if p.1 = k then p.2 else tabGet d t k

/-- The table without the key `k`. -/
def tabErase {α : Type} (t : Tab α) (k : Nat) : Tab α :=
  t.filter (fun p => p.1 != k)

/-- Places an entry before the first greater key. -/
def tabInsert {α : Type} (k : Nat) (v : α) : Tab α → Tab α
  | [] => [(k, v)]
  | p :: t => if k < p.1 then (k, v) :: p :: t else p :: tabInsert k v t

/-- Writes `v` at `k`; writing the default removes the entry, so equal tables are equal lists. -/
def tabSet {α : Type} [DecidableEq α] (d : α) (t : Tab α) (k : Nat) (v : α) : Tab α :=
  if v = d then tabErase t k else tabInsert k v (tabErase t k)

/-- The keys rise strictly. -/
def tabSorted {α : Type} : Tab α → Bool
  | [] => true
  | [_] => true
  | p :: q :: t => (p.1 < q.1) && tabSorted (q :: t)

/-- The canonical form of a table whose default at key `k` is `d k`. -/
def tabWf {α : Type} [DecidableEq α] (d : Nat → α) (t : Tab α) : Bool :=
  tabSorted t && t.all (fun p => p.2 != d p.1)

/-- Writes a run of values at consecutive keys. -/
def tabSetRun {α : Type} [DecidableEq α] (d : α) (t : Tab α) (k : Nat) : List α → Tab α
  | [] => t
  | v :: vs => tabSetRun d (tabSet d t k v) (k + 1) vs

/-- Reads `n` values at consecutive keys. -/
def tabGetRun {α : Type} (d : α) (t : Tab α) (k : Nat) (n : Nat) : List α :=
  (List.range n).map (fun i => tabGet d t (k + i))

/-- Removes every key in `[lo, hi)`. -/
def tabClear {α : Type} (t : Tab α) (lo hi : Nat) : Tab α :=
  t.filter (fun p => p.1 < lo || hi ≤ p.1)

end Sys2Proof.Machine
end

