-- ==== Sys2Proof/Machine/StCommon.lean ====
section
/-!
DEFINITION. State common to every block: the transaction and mode latch, group slots, policy decisions, the event log's
entry, and what leaves the block (messages, responses, pins).
-/

namespace Sys2Proof.Machine

/-- A staged word: the register (offset × 65,536 + table index), the bits the writes named, and their values. -/
structure StagedWord where
  key : Nat
  mask : Word
  val : Word
  deriving DecidableEq, Repr

/-- Staged words, at most one per key. -/
abbrev Staged := List StagedWord

/-- What a block holds besides its registers: the staged values of its transaction (R61), kept per table entry (R115),
and the mode latch of R64 with the expert values that wait with it. -/
structure BlockCtl where
  staged : Staged
  latchExpert : Option Bool
  latchFreeze : Option Bool
  latchVals : Staged
  deriving DecidableEq, Repr

/-- No transaction, nothing latched. -/
def BlockCtl.reset : BlockCtl := ⟨[], none, none, []⟩

/-- States of a group slot (R65). -/
inductive SlotState where
  | free | building | armed | preparing | committed | rolledBack | partly
  deriving DecidableEq, Repr

/-- A transaction-group slot (R65). `owner` is a requester tag; `members` lists block ids by index; `accepted` are the
members whose ACCEPT has arrived while PREPARING, `window` says that the apply window is open (R69). -/
structure GroupSlot where
  state : SlotState
  owner : Option Nat
  count : Nat
  beat : Nat
  members : Tab Nat
  code : Nat
  block : Nat
  head : Nat
  linked : Bool
  nlink : Nat
  accepted : List Nat
  window : Bool
  deriving DecidableEq, Repr

/-- A FREE slot. -/
def GroupSlot.reset : GroupSlot := ⟨.free, none, 0, 0, [], 0, 0, 0, false, 0, [], false⟩

/-- An event-log entry (R631); `id` is the model's own serial number, by which a decision finds its entry again. -/
structure EvEntry where
  id : Nat
  lt : Nat
  beat : Nat
  block : Nat
  kind : Nat
  flags : Nat
  cause : Nat
  value : Nat
  deriving DecidableEq, Repr

/-- A policy decision taken and not yet applied (R26): the block, the mechanism as a register field, the value chosen,
and the log entry it wrote. -/
structure Decision where
  block : Nat
  fld : Fld
  idx : Nat
  value : Nat
  ev : Nat
  deriving DecidableEq, Repr

/-- The kinds of message, broadcast, response and pin action that leave a block. The arguments follow as numbers in the
order each docstring gives. -/
inductive MsgKind where
  /-- Answer to a bus access: 1 ok or 0 error, data. -/
  | resp
  /-- FAULTCAUSE report to Lamplighter: cause code. -/
  | fault
  /-- Prepare request of a group slot to a member: slot. -/
  | prepare
  /-- Broadcasts of the beat engine: OPEN(N), SETTLE(N), ABORT(N, r, fatal), RESTART(N, r), CLOSED(N), HOLDING(N). -/
  | openB | settleB | abortB | restartB | closedB | holdingB
  /-- Reports of a loom to the beat engine or its hub: OPEN acknowledged, SETTLE done, EMIT done, tally (n, round,
  expected, delivered, re-picked). -/
  | openAck | settleDone | emitDone | tally
  /-- A hub's sums to the beat engine: hub, n, round, expected, delivered, re-picked. -/
  | hubSums
  /-- A STREAM packet's word on VC0: tag of the stream, word. -/
  | stream
  /-- REPICK word to a source: endpoint, package, tag, epoch, first, num. -/
  | repick
  /-- RESEND word and its pick to a requester: tag, epoch, xseq, pick. -/
  | resend
  /-- VC1 directory request and its answer; directory invalidation broadcast: population. -/
  | dirReq | dirRsp | dirInv
  /-- VC2 HBM read and write requests and their responses. -/
  | hbmRead | hbmWrite | hbmRsp
  /-- SATURATION event to Lamplighter. -/
  | saturation
  /-- Ply queue traffic: contribution, credit, result, confirmation, ARM broadcast. -/
  | ply | plyCredit | plyResult | plyConfirm | plyArm
  /-- Channel message and credit. -/
  | message | credit
  /-- Lamp operation (its source block first), watch, completion, cancellation. -/
  | lampAdd | watch | watchDone | watchCancel
  /-- Remote load or store of a sequencer: address, data. -/
  | remote
  /-- A shuttle descriptor submitted, a ticket's completion. -/
  | ticket | ticketDone
  /-- Row map pushed to the routers of a row. -/
  | rowMap
  /-- A packet forwarded by a router: port or leaf, payload. -/
  | forward
  /-- A frame that leaves by a glimmer port: its payload bits. -/
  | frame
  /-- Light and code actions of a glimmer port: action; life counters written to a laser module: 6, module, POWERED, HOT. -/
  | light
  /-- I3C, Ethernet, CAN and GPIO actions towards the vehicle. -/
  | i3c | eth | can | gpio
  /-- PCIe completions, MSI-X vectors, SPDM answers. -/
  | pcie | msix | spdm
  /-- A warden-port answer frame's bytes. -/
  | warden
  /-- Pins: FAULT_N, ALIVE, SYNC_OUT, TMR, rail enables. -/
  | pin
  /-- Interrupt, wake or exception events to the application cluster. -/
  | apc
  /-- A Lantern or Lamplighter action on another block: reset, isolate, reload. -/
  | act
  /-- A dump read request on the selvedge network. -/
  | dumpRead
  /-- A hold of inputs by a full log or queue. -/
  | hold
  /-- A digest published, written or sent: beat, bytes. -/
  | digest
  deriving DecidableEq, Repr

/-- A message: its kind, the block id, link or pin it goes to, and its arguments. -/
structure Out where
  kind : MsgKind
  dst : Nat
  args : List Nat
  deriving DecidableEq, Repr

end Sys2Proof.Machine
end

