-- ==== Sys2Proof/Machine/StBeat.lean ====
section
/-!
DEFINITION. The state of the beat engine and of LTIME besides their registers (chapters 02 and 05).
-/

namespace Sys2Proof.Machine

/-- An anchor of the nominal schedule (R166, R167): ANCHOR_T, ANCHOR_N and the beat length that holds from it on. -/
structure Anchor where
  t : Nat
  n : Nat
  len : Nat
  deriving DecidableEq, Repr

/-- An ABORT kept during a hold (R197): beat, round, FATAL. -/
structure KeptAbort where
  n : Nat
  round : Nat
  fatal : Bool
  deriving DecidableEq, Repr

/-- The beat engine. -/
structure BeatSt where
  /-- The current beat, or the next one while none is open. -/
  n : Nat
  /-- The beat is open: its OPEN has been broadcast and its EMIT has not ended. -/
  isOpen : Bool
  /-- Anchors, newest first; older ones cover older intervals of nominal time (R168). -/
  anchors : List Anchor
  tArm : Nat
  /-- T0 of the arming. -/
  t0 : Nat
  openLt : Nat
  /-- The looms with ENABLE at OPEN, which the beat waits for (log entry 26). -/
  on : List Nat
  acked : List Nat
  settled : List Nat
  emitted : List Nat
  hubs : List Nat
  expSum : Nat
  delSum : Nat
  repSum : Nat
  localClosed : Bool
  /-- CLOSED has been sent for the beat: no ABORT is (R188). -/
  closedSent : Bool
  closeLt : Nat
  /-- CLOSED marks received: beat and peer; the LT of the last HOLDING of each peer; RESTART marks received: beat, round,
  port (R188, R195). -/
  closedPeers : List (Nat × Nat)
  holdLt : Tab Nat
  restarts : List (Nat × Nat × Nat)
  stopReq : Bool
  /-- A retry round that waits: for the hold to be released (R197), or for the next beat to integrate. -/
  heldRetry : Bool
  keptAborts : List KeptAbort
  /-- Consecutive ticks with BEAT_LAG below LAGMAX / 2 (R191), and whether LAGEXCEED is armed again (R192). -/
  lowTicks : Nat
  lagAbove : Bool
  /-- Component digests by beat × 1,024 + loom, or + 768 + reed port (R201); own package digests; partner digests that
  wait for comparison (R203). -/
  digs : Tab (List Byte)
  own : List (Nat × List Byte)
  partner : List (Nat × List Byte)
  /-- Records written to the digest ring, by which it wraps (R202). -/
  digPos : Nat
  slots : Tab GroupSlot
  deriving DecidableEq, Repr

/-- The beat engine after reset (R169). -/
def BeatSt.reset : BeatSt where
  n := 0
  isOpen := false
  anchors := []
  tArm := 0
  t0 := 0
  openLt := 0
  on := []
  acked := []
  settled := []
  emitted := []
  hubs := []
  expSum := 0
  delSum := 0
  repSum := 0
  localClosed := false
  closedSent := false
  closeLt := 0
  closedPeers := []
  holdLt := []
  restarts := []
  stopReq := false
  heldRetry := false
  keptAborts := []
  lowTicks := 0
  lagAbove := false
  digs := []
  own := []
  partner := []
  digPos := 0
  slots := []

/-- LTIME: the counter, the fraction of a nanosecond below it in units of 2⁻⁴⁰ (R160),
consecutive good measurements (R162, R163) and the LT of the last measurement (R164). -/
structure LtimeSt where
  lt : Nat
  frac : Nat
  good : Nat
  lastMeas : Nat
  deriving DecidableEq, Repr

/-- LT is 0 at package reset (R158). -/
def LtimeSt.reset : LtimeSt := ⟨0, 0, 0, 0⟩

end Sys2Proof.Machine
end

