-- ==== Sys2Proof/Machine/StCluster.lean ====
section
/-!
DEFINITION. The state of the application cluster's private space (R74, R76, R77): machine timer, APLIC, IMSIC files, IOMMU.
-/

namespace Sys2Proof.Machine

/-- A hart (R73): general and floating-point registers, the program counter, the mode, and the control and status registers that a
write has changed, by number. -/
structure Hart where
  x : Tab W64
  f : Tab W64
  pc : Nat
  mode : HartMode
  csr : Tab Nat
  deriving DecidableEq, Repr

/-- A hart after a reset: in M-mode, every register 0 (log entry 128). -/
def Hart.reset : Hart := ⟨[], [], 0, .m, []⟩

/-- The application cluster besides its page. -/
structure CluSt where
  /-- mtimecmp by hart. -/
  timecmp : Tab Nat
  /-- APLIC registers by domain × 0x8000 + offset (0 machine level, 1 supervisor level), but for pending and enable bits. -/
  aplic : Tab Word
  /-- Pending and enabled sources, by domain × 1,024 + source. -/
  pend : List Nat
  enab : List Nat
  /-- Rectified inputs that were high when the APLIC last looked, by domain × 1,024 + source. -/
  high : List Nat
  /-- Blocks whose line has been pulsed by an event that no register holds, since the APLIC last looked (R521, R637). -/
  pulse : List Nat
  /-- The last tenant or session event that Lamplighter has raised its line for, 0 for none (R637). -/
  event : Nat
  /-- Pending identities of the interrupt files: (hart × 16 + file) × 256 + identity; file 0 is the machine file, 1 + g the supervisor
  file (g = 0) and the guest files. -/
  eip : List Nat
  /-- Enabled identities likewise; delivery and threshold by file (R76). -/
  eie : List Nat
  edel : Tab Nat
  ethr : Tab Nat
  /-- The harts (R73), and those that the debug module holds (R544). -/
  harts : Tab Hart
  halted : List Nat
  /-- Debug module registers by number (R74). -/
  dm : Tab Word
  /-- Bytes that the L2 holds newer than HBM does, plus 1, by physical address (R73). -/
  l2 : Tab Nat
  /-- IOMMU registers by offset. -/
  iommu : Tab Word
  deriving DecidableEq, Repr

/-- After a reset: nothing configured, nothing pending (log entries 41, 44). -/
def CluSt.reset : CluSt := ⟨[], [], [], [], [], [], 0, [], [], [], [], [], [], [], [], []⟩

end Sys2Proof.Machine
end

