-- ==== Sys2Proof/Machine/StHub.lean ====
section
/-!
DEFINITION. The state of a warp hub besides its registers: tallies (chapter 05), row maps and links (chapter 10), ply
queues (chapter 10), lamps and watches (chapter 11).
-/

namespace Sys2Proof.Machine

/-- A contributor of a ply queue (R359): its logical loom, the sequence expected next, and the contributions that were
discarded but credited. -/
structure PlySrc where
  loom : Nat
  next : Nat
  deriving DecidableEq, Repr

/-- An open round (R358): its number, contributions accepted, and the exact sum. -/
structure PlyRound where
  k : Nat
  count : Nat
  sum : Int
  deriving DecidableEq, Repr

/-- A ply queue besides its registers: contributor slots, open rounds, results sent and not confirmed. -/
structure PlyQ where
  srcs : List PlySrc
  rounds : List PlyRound
  unconf : List (Nat × Int)
  deriving DecidableEq, Repr

/-- A queue that holds nothing. -/
def PlyQ.reset : PlyQ := ⟨[], [], []⟩

/-- A watch (R396, R398): who waits (loom × 2 + 0 for its main program or + 1 for its activation; 1,536 + slot for the
window), the lamp index, the target and the deadline. -/
structure Watch where
  who : Nat
  lamp : Nat
  target : Nat
  deadline : Option Nat
  /-- The number of a loom's LWAIT, which its completion and its CANCEL carry; 0 for a window slot (R402, log entry 135). -/
  tok : Nat
  deriving DecidableEq, Repr

/-- A hub. -/
structure Hub where
  /-- Looms whose tally of the beat has come, and the sums (R187). -/
  tallied : List Nat
  exp : Nat
  del : Nat
  rep : Nat
  /-- Row maps in force by row-half × 16 + column (R353), row-halves that are being changed, and whether the map was ever
  written. -/
  map : List Nat
  mapping : List Nat
  /-- HUB_CRCERR at the last management tick (R351). -/
  crcTick : Nat
  /-- Consecutive failed retries on the selvedge link, and whether it is down (R365). -/
  selvFail : Nat
  /-- The link's replay buffer: packets that have failed and are retried. -/
  selvReplay : List (List Word)
  selvDown : Bool
  ply : Tab PlyQ
  lamps : Tab Nat
  watches : List Watch
  /-- LO halves of lamp adds and forces by requester tag, and arming requesters of the window slots (tag + 1). -/
  addLo : Tab Nat
  forceLo : Tab Nat
  winOwner : Tab Nat
  deriving DecidableEq, Repr

/-- A hub after reset, with the row maps of a part without bad sites (R16, log entry 5). -/
def Hub.reset : Hub where
  tallied := []
  exp := 0
  del := 0
  rep := 0
  map := List.range 16 ++ List.range 16 ++ List.range 16
  mapping := []
  crcTick := 0
  selvFail := 0
  selvReplay := []
  selvDown := false
  ply := []
  lamps := []
  watches := []
  addLo := []
  forceLo := []
  winOwner := []

end Sys2Proof.Machine
end

