-- ==== Sys2Proof/Machine/StIo.lean ====
section
/-!
DEFINITION. The state of the glimmer ports and laser modules (chapter 15) and of the reed ports (chapter 14) besides their
registers.
-/

namespace Sys2Proof.Machine

/-- A packet on its way through a glimmer port on one virtual channel (R504, R519): its header, its flits, and whether its tail carries
ABORT. -/
structure GlimPkt where
  head : Nat
  flits : List Nat
  abort : Bool
  deriving DecidableEq, Repr

/-- A glimmer port. -/
structure Glim where
  /-- Marks that wait for a frame, in the order they were queued (R510); a mark is its 120 bits (R509). -/
  q : List Nat
  /-- FSEQ of the next frame sent, and of the last one accepted. -/
  fseq : Nat
  last : Option Nat
  /-- By virtual channel: slots sent, CFREED of the peer, slots received, slots freed (R505, R506). -/
  sent : Tab Nat
  freed : Tab Nat
  rcvd : Tab Nat
  done : Tab Nat
  /-- Packets in progress and channels that drop flits up to the next TAIL or ONLY (R504). -/
  pkt : Tab (Option GlimPkt)
  cut : List Nat
  /-- The switch of a LANEMAP: lane mask and FSEQ (R508). -/
  switch : Option (Nat × Nat)
  /-- The peer's last TSYNC: its T3 and the LT of its arrival (R515). -/
  tsync : Option (Nat × Nat)
  /-- Packets that wait for credits to leave by the fibre: virtual channel and packet (R505, R519). -/
  tq : List (Nat × GlimPkt)
  /-- Slots of started packets, and records to mirror with their reed port, that wait for a frame; the last frame was a MIRROR frame
  (R502, R517). -/
  slots : List Nat
  recs : List (Nat × Nat)
  mirrored : Bool
  deriving DecidableEq, Repr

/-- A dark port. -/
def Glim.reset : Glim := ⟨[], 0, none, [], [], [], [], [], [], none, none, [], [], [], false⟩

/-- What an ELECT mark of a package said, and when (R521). -/
structure ElectView where
  prio : Nat
  cand : Bool
  fm : Nat
  fmv : Bool
  lt : Nat
  deriving DecidableEq, Repr

/-- What a package knows of its job (R511, R512, R521). -/
structure GlimPkg where
  /-- The own package id, from the PKGID straps (R519). -/
  self : Nat
  /-- Job marks seen: origin, kind, N, r. -/
  seen : List (Nat × Nat × Nat × Nat)
  /-- The latest job mark of each origin, plus 1; 0 for none. -/
  latest : Tab Nat
  elect : Tab (Option ElectView)
  /-- The port that forwarded ELECT marks of an origin come in by, plus 1 (log entry 35). -/
  electPort : Tab Nat
  /-- The LT of the last change of what is known, and whether the election has concluded since. -/
  change : Nat
  elected : Bool
  /-- Digest quarters that have arrived: origin, N mod 2¹⁶, PART, bytes. -/
  quarters : List (Nat × Nat × Nat × List Byte)
  deriving DecidableEq, Repr

/-- Nothing known; the straps read 0 until a package reset latches them. -/
def GlimPkg.reset : GlimPkg := ⟨0, [], [], [], [], 0, false, []⟩

/-- A laser source module (R523 to R525): its serial, the identity record with its two signatures, and whether it gives
full output. -/
structure Laser where
  serial : Nat
  record : List Byte
  sigEd : List Byte
  sigMl : List Byte
  full : Bool
  deriving DecidableEq, Repr

/-- No module. -/
def Laser.reset : Laser := ⟨0, [], [], [], false⟩

/-- An event word of a reed port with its stamp in nanoseconds of LT. -/
structure ReedEv where
  t : Int
  word : Nat
  deriving DecidableEq, Repr

/-- The retention of a reed port (R476): the epoch, its picks with SEQ 0 by group in flush order, and the route records of every VALID
group's chain (R132). -/
structure ReedRet where
  epoch : Nat
  /-- Where the picks lie in HBM, and the group of each. -/
  base : Nat
  groups : List Nat
  chains : List (Nat × List Nat)
  deriving DecidableEq, Repr

/-- A reed port. -/
structure Reed where
  /-- The extended sensor time in 128 µs units, and the last V (R466). -/
  time : Nat
  lastV : Option Nat
  /-- A microcode word in progress across packets: entry, O, entries executed (R468). -/
  uc : Option (Nat × Nat × Nat)
  /-- The oldest epoch whose flush has not begun, and the merge banks of it and the next: by epoch × 2²¹ + position, the
  count up to 16 (R473). -/
  epoch : Nat
  bank : Tab Nat
  /-- Spilled events in arrival order, each by its place in the spill ring, counted on, and its epoch; and how many places have been taken. -/
  spill : List (Nat × Nat)
  spillPos : Nat
  full : Bool
  ret : Option ReedRet
  /-- NUM 0 requests held until the markers are sent: tag, epoch, package, endpoint. -/
  held : List (Nat × Nat × Nat × Nat)
  /-- Replay: records read and the highest stamp among them. -/
  rdPos : Nat
  rdLast : Int
  /-- Mirror reception: next MSEQ, records held behind a gap, the LT when the gap opened and the MSEQ it ends before, the glimmer port. -/
  mNext : Option Nat
  mHeld : List (Nat × ReedEv)
  mGap : Option (Nat × Nat)
  mPort : Nat
  /-- Configurations that have been changed, oldest first, each with the epoch from which its change governs (R472). -/
  old : List (Nat × Tab Word)
  /-- Coarsening level by beat (R474), newest first. -/
  levels : List (Nat × Nat)
  /-- The I3C FIFO and the transfer in progress. -/
  fifo : List Byte
  i3c : Option Nat
  deriving DecidableEq, Repr

/-- A port after its reset. -/
def Reed.reset : Reed where
  time := 0
  lastV := none
  uc := none
  epoch := 0
  bank := []
  spill := []
  spillPos := 0
  full := false
  ret := none
  held := []
  rdPos := 0
  rdLast := 0
  mNext := none
  mHeld := []
  mGap := none
  mPort := 0
  old := []
  levels := []
  fifo := []
  i3c := none

end Sys2Proof.Machine
end

