-- ==== Sys2Proof/Machine/StSeq.lean ====
section
/-!
DEFINITION. The state of a loom's sequencer (chapter 08), of its channel ends (chapter 11) and of its ply windows
(chapter 10).
-/

namespace Sys2Proof.Machine

/-- An activation (R276, R278): context 1 to 4, what the event file is loaded with, and for a handler the channel end. -/
structure Act where
  ctx : Nat
  g2 : Nat
  g3 : Nat
  g4 : Nat
  g5 : Nat
  ent : Nat
  /-- Its place among the handlers: the number of its message in the order of completion (R277). -/
  ord : Nat
  /-- BUDGET has been raised in this activation, or is due after the trap handler (R300). -/
  raised : Bool
  due : Bool
  deriving DecidableEq, Repr

/-- What a blocking instruction waits for (R290, R294): a remote load into a register, a remote store, a lamp watch. The other
blocking instructions are tried again. -/
inductive Wait where
  | rld (addr dst : Nat) (wide : Bool)
  | rst (addr : Nat)
  /-- For a lamp: its destination register, and the number of the LWAIT (log entry 135). -/
  | lamp (lamp dst tok : Nat)
  deriving DecidableEq, Repr

/-- A trap being handled (R298): the context that trapped, the trapping instruction's address, the handler's PC. -/
structure TrapSt where
  ctx : Nat
  tpc : Nat
  pc : Nat
  deriving DecidableEq, Repr

/-- The sequencer (R275 to R303). -/
structure Seq where
  /-- RUN has started it and RUN = 0 has not stopped it. -/
  running : Bool
  /-- The main program has not reached END. -/
  main : Bool
  halted : Bool
  mfile : Tab W64
  efile : Tab W64
  mpc : Nat
  apc : Nat
  act : Option Act
  trap : Option TrapSt
  queue : List Act
  wait : Option Wait
  /-- What the main program waited for when an activation pre-empted it (R402). -/
  mwait : Option Wait
  freerun : Bool
  /-- A RESTART that waits for the OPEN acknowledgement (R302). -/
  restart : Bool
  /-- Instruction buffer: line number and its 64 bytes as a number (R289). -/
  ibuf : List (Nat × Nat)
  /-- LWAITs that the loom has placed (R402, log entry 135). -/
  wtok : Nat
  deriving DecidableEq, Repr

/-- A stopped sequencer. -/
def Seq.reset : Seq where
  running := false
  main := false
  halted := false
  mfile := []
  efile := []
  mpc := 0
  apc := 0
  act := none
  trap := none
  queue := []
  wait := none
  mwait := none
  freerun := false
  restart := false
  ibuf := []
  wtok := 0

/-- A message in a receive ring: its first slot, its slots, handler id and words; `pad` marks a WRAP marker (R379). -/
structure RingMsg where
  slot : Nat
  slots : Nat
  handler : Nat
  words : Nat
  pad : Bool
  /-- Queued for dispatch or being handled (R385). -/
  queued : Bool
  /-- Its number in the order in which the interface completed messages (R277). -/
  ord : Nat
  deriving DecidableEq, Repr

/-- A retained message of a send end (R381): its SEQ, words (header first) and ring slots. -/
structure SentMsg where
  seq : Nat
  words : List W64
  deriving DecidableEq, Repr

/-- The interface's own state of a channel end (R375, R378, R381, R387). -/
structure ChEnd where
  closed : Bool
  /-- Send end: next SEQ, slots SENT and FREED, its copy of the receiver's TAIL, retained messages, and the code that is blocked on credits
  at it: the main program (true) or an activation; the application cluster counts as a main program. -/
  seq : Nat
  sent : Nat
  freed : Nat
  tailCopy : Nat
  kept : List SentMsg
  blocked : List Bool
  /-- Receive end: HEAD, TAIL, epochs, ACKSEQ, FREED, OVERFLOW, messages in the ring. -/
  head : Nat
  tail : Nat
  hep : Nat
  tep : Nat
  ack : Nat
  rfreed : Nat
  ovf : Bool
  ring : List RingMsg
  msgs : Nat
  stall : Nat
  orph : Nat
  deriving DecidableEq, Repr

/-- An end that starts empty (R375). -/
def ChEnd.reset : ChEnd where
  closed := false
  seq := 0
  sent := 0
  freed := 0
  tailCopy := 0
  kept := []
  blocked := []
  head := 0
  tail := 0
  hep := 0
  tep := 0
  ack := 0
  rfreed := 0
  ovf := false
  ring := []
  msgs := 0
  stall := 0
  orph := 0

/-- A contributing interface's window of one ply queue (R359): the next sequence number and the uncredited values. -/
structure PlyWin where
  k : Nat
  kept : List (Nat × Int)
  deriving DecidableEq, Repr

/-- A window after ARM(q) (R358). -/
def PlyWin.reset : PlyWin := ⟨0, []⟩

/-- A logical bank's handover in progress (R316): work accepted under the old code that has not ended: a batten operation
or fold, and the shuttles with a transfer on the bank. -/
structure Drain where
  batten : Bool
  shuttles : List Nat
  deriving DecidableEq, Repr

/-- A rule of the tensioner (R243). -/
structure TRule where
  pop : Nat
  moden : Bool
  modch : Nat
  lrate : Nat
  wmin : Int
  wmax : Int
  targetw : Nat
  deriving DecidableEq, Repr

/-- The tensioner's registers as latched at OPEN (R264). -/
structure TLatch where
  learn : Bool
  base : Nat
  size : Nat
  stage : Nat
  period : Nat
  phase : Nat
  kern : List Int
  rules : List TRule
  mods : List (Int × Nat)
  deriving DecidableEq, Repr

/-- Nothing latched. -/
def TLatch.reset : TLatch := ⟨false, 0, 0, 0, 4096, 0, [], [], []⟩

/-- A weight snapshot being copied (R266): its beat, layout, and the slots and region as captured at the boundary. -/
structure TSnap where
  beat : Nat
  nslots : Nat
  base : Nat
  size : Nat
  slots : Tab Byte
  region : Tab Byte
  /-- It is made for a checkpoint: Lamplighter's transaction, into its staging area (R268). -/
  ckpt : Bool
  deriving DecidableEq, Repr

end Sys2Proof.Machine
end

