-- ==== Sys2Proof/Machine/StLoom.lean ====
section
/-!
DEFINITION. The state of a loom: its stores, neuron engine, fetch unit and network interface (chapters 03 to 05).
-/

namespace Sys2Proof.Machine

/-- Phases of the neuron engine (R110, LOOM_NESTAT.PHASE). -/
inductive LPhase where
  | idle | opening | integrate | close | settle | emit
  deriving DecidableEq, Repr

/-- A segment of the population segment table (R129), with its index in the table. -/
structure Seg where
  idx : Nat
  base : Nat
  len : Nat
  pop : Nat
  delay : Nat
  skind : Nat
  m0 : Nat
  route : Nat
  deriving DecidableEq, Repr

/-- The layout registers and segment table as latched at OPEN (R110, R131, R178). -/
structure Latched where
  nslots : Nat
  accBase : Nat
  dqBase : Nat
  dqSize : Nat
  segs : List Seg
  /-- Scratch offset of the inbound stream table. -/
  instBase : Nat
  tens : TLatch
  deriving DecidableEq, Repr

/-- What the neuron engine knows of a delay-queue entry besides its word: for a pick the epoch it was emitted in; whether it came after
OPEN of the current beat, whether a retry round has taken it out (R195), and whether it has been counted in LOOM_CONTRIB (R119). -/
structure DqMark where
  epoch : Option Nat
  late : Bool
  dead : Bool
  counted : Bool
  deriving DecidableEq, Repr

/-- A chain of 256-byte chunks (R106): their addresses, and the entries they hold. -/
structure DqChain where
  chunks : List Nat
  marks : List DqMark
  deriving DecidableEq, Repr

/-- No chunks. -/
def DqChain.reset : DqChain := ⟨[], []⟩

/-- One of the 16 delay-queue slots (R103): its chunks in the area, at scratch offsets, and those spilled to HBM, at HBM addresses
(R107). The entries stand in the chunks. -/
structure DqSlot where
  area : DqChain
  spill : DqChain
  deriving DecidableEq, Repr

/-- An empty delay-queue slot. -/
def DqSlot.reset : DqSlot := ⟨DqChain.reset, DqChain.reset⟩

/-- An entry that found no room (R108): its queue slot, its word and its mark. -/
structure DqWait where
  slot : Nat
  word : W64
  mark : DqMark
  deriving DecidableEq, Repr

/-- A route record in the route cache (R136): population, record index and the record's 32 bytes as a number (R132). -/
structure RouteRec where
  pop : Nat
  idx : Nat
  word : Nat
  deriving DecidableEq, Repr

/-- A route record being fetched (R136): population and record index, and once the directory has answered the record's
address and the set's RCOUNT. -/
structure RouteWait where
  pop : Nat
  idx : Nat
  addr : Option Nat
  rcount : Nat
  deriving DecidableEq, Repr

/-- A row waiting for HBM lines (R150): its address, the pick that drives it, the lines it already has, and those it has asked for
itself; with `ptr` it is the word of a pointer array in HBM that is waited for (R140). -/
structure RowWait where
  addr : Nat
  pick : W64
  ptr : Bool
  lines : List (Nat × List Byte)
  asked : List Nat
  deriving DecidableEq, Repr

/-- A range of missing XSEQ of a stream (R180), from `first` to `last`, with the attempts made (R185). -/
structure Miss where
  first : Nat
  last : Nat
  tries : Nat
  /-- LT of the last request for it. -/
  asked : Nat
  deriving DecidableEq, Repr

/-- What the network interface holds per inbound stream (R180): the epoch that arriving picks belong to, the next XSEQ,
the picks accepted and those of them re-picked, the missing ranges, the marker's COUNT once recorded, the NUM 0
attempts, and the counts of the epoch before it as held for the tally (expected, delivered, re-picked). -/
structure StreamSt where
  ep : Nat
  x : Nat
  r : Nat
  rep : Nat
  miss : List Miss
  marker : Option Nat
  tries0 : Nat
  /-- LT of the last NUM 0 request. -/
  asked0 : Nat
  held : Nat × Nat × Nat
  /-- A stand-in's stream whose marker is taken whatever its COUNT (R197). -/
  any : Bool
  deriving DecidableEq, Repr

/-- A stream that has seen nothing of epoch `ep`. -/
def StreamSt.fresh (ep : Nat) : StreamSt := ⟨ep, 0, 0, 0, [], none, 0, 0, (0, 0, 0), false⟩

/-- The retention of an epoch (R182 to R184): the epoch, the entries held, per segment index the first ring entry and the
number of picks, the segment table latched for it, and whether its CLOSE words have been sent. The 4-byte entries stand
in scratch at LOOM_RETBASE. -/
structure Retain where
  epoch : Option Nat
  count : Nat
  first : List (Nat × Nat × Nat)
  segs : List Seg
  closed : Bool
  full : Bool
  deriving DecidableEq, Repr

/-- A NUM 0 request held until the source sends the CLOSE word (R186). -/
structure HeldReq where
  tag : Nat
  epoch : Nat
  pkg : Nat
  dst : Nat
  deriving DecidableEq, Repr

/-- A write to the neuron or synapse store, by its local address, held until the last slot update of SETTLE (R112, R147); `main` says which
code of the sequencer made it, the main program's or an activation's. -/
structure HeldWrite where
  main : Option Bool
  addr : Nat
  data : List Byte
  deriving DecidableEq, Repr


/-- A message in the send retention area (R381): its channel end, SEQ and ring slots, the area slot where it starts, and whether it is
acknowledged. -/
structure TxMsg where
  ent : Nat
  seq : Nat
  slots : Nat
  pos : Nat
  acked : Bool
  deriving DecidableEq, Repr

/-- The state of one loom besides its registers. -/
structure Loom where
  /-- Neuron store, synapse store and scratch, 512 KiB each, by byte offset (R78). -/
  nstore : Tab Byte
  sstore : Tab Byte
  scratch : Tab Byte
  /-- Words of the three stores with a single-bit or a double-bit error (R80, R148, R310): 8-byte word numbers; of scratch the number of
  the word's place in the banks (R318). -/
  nErr1 : List Nat
  nErr2 : List Nat
  sErr1 : List Nat
  sErr2 : List Nat
  xErr1 : List Nat
  xErr2 : List Nat
  phase : LPhase
  beat : Nat
  lat : Latched
  dq : List DqSlot
  /-- The slot released at OPEN, as it stood (R103, R195), and its spilled part still to be read back. -/
  released : DqSlot
  spillDue : Bool
  /-- Entries that wait for room in the queues, while VC0 credits are withheld (R108). -/
  dqWaits : List DqWait
  /-- Those of them that were due at OPEN: they are integrated with the released slot. -/
  dqLast : List DqWait
  /-- Contributions added in this beat (R90). -/
  contrib : Nat
  /-- SATCOUNT increments of the SETTLE in progress (R98). -/
  satNow : Nat
  /-- Writes held during a beat, in arrival order, and whether the last slot update of this beat's SETTLE is done (R112, R147). -/
  held : List HeldWrite
  slotsDone : Bool
  routes : List RouteRec
  /-- Route records of the latched segments, gathered since OPEN (R136, R184). -/
  openRoutes : List RouteRec
  /-- Records that the retained epoch was injected with (R184). -/
  retRoutes : List RouteRec
  /-- Route-cache fills under way (R136). -/
  dirWait : List RouteWait
  rcinvPending : Bool
  /-- Row cache (R150): per set, its lines, least recently used first, each the line number and its way; the bytes stand in scratch at
  LOOM_RCBASE. -/
  rowCache : Tab (List (Nat × Nat))
  rowWaits : List RowWait
  /-- Line fills under way, and those to be discarded on arrival (R151). -/
  fills : List Nat
  deadFills : List Nat
  /-- Inbound streams by (package, endpoint, tag) packed as in word 0 of a table entry (R177), and the latched list. -/
  streams : List (Nat × StreamSt)
  latKeys : List Nat
  drain : Bool
  /-- Glimmer ports whose RESTART has not arrived in this retry round (R195 step 5). -/
  noRestart : List Nat
  tallySent : Bool
  /-- Retry round of the current beat as the loom knows it. -/
  round : Nat
  /-- The INTEGRATE hook of the round has not yielded yet (R281), or SETTLE and EMIT hooks likewise. -/
  hookI : Bool
  hookS : Bool
  /-- Pick-log words in the staging buffer (R614), the words of the log that HBM holds, counted from the loom's reset, and
  the place of the BEAT record of each beat in that count, newest first (R610, R613). -/
  logBuf : List W64
  logPos : Nat
  logBeats : List (Nat × Nat)
  /-- The beat has been counted in LL_LOGSTALL. -/
  logStall : Bool
  waitStart : Nat
  ret : Retain
  heldReqs : List HeldReq
  /-- Segments whose route is malformed in this beat (R135). -/
  badSegs : List Nat
  /-- Digest of the last settled beat: the beat and 32 bytes (R201). -/
  digest : Nat × List Byte
  /-- Modulator accumulators (R255), contributions of the beat per frame (R226), the tensioner's change map (R262). -/
  modAcc : Tab Int
  frHits : Tab Nat
  tmap : Tab Bool
  tsnap : Option TSnap
  /-- Batten: the operation running and whether SETTLE triggered it, the due operations still to run in this SETTLE,
  whether the fold waits for a running operation, and the queued sequencer starts (R223, R224). -/
  bOp : Option (Nat × Bool)
  bDue : List Nat
  bFold : Bool
  bSettle : Bool
  bQueue : List Nat
  /-- Threshold table as copied at SETTLE for threshold emit (R86, R230): THETA, GMAX, value mode, VSHIFT. -/
  thCopy : List (Nat × Nat × Bool × Nat)
  seq : Seq
  /-- Handovers in progress by bank (R316); banks being moved (R326); corrected errors per bank (R326). -/
  drains : List (Nat × Drain)
  moving : List Nat
  bankCe : Tab Nat
  /-- Region under background test, and whether the next one starts a new pass (R323, R326). -/
  testing : Bool
  passNew : Bool
  /-- Writes of the network interface that are held at their bank, oldest first: address, bytes, value (R316, R324, R326). -/
  netHeld : List (Nat × Nat × Nat)
  /-- OPEN has come and its areas of scratch are still to be read: the entries of the stream table (R317). -/
  openDue : Option Nat
  /-- Channel ends by entry; the send retention in order of sending, and the area slot that follows it (R381); messages completed in the
  rings (R277). -/
  ch : Tab ChEnd
  txOrder : List TxMsg
  txNext : Nat
  msgNo : Nat
  /-- Ply windows by queue, and the results taken: 1 at queue × 2³² + round (R359, duplicates are recognised by it). -/
  ply : Tab PlyWin
  plyGot : Tab Nat
  deriving DecidableEq, Repr

/-- A loom after its reset: every store zero, nothing latched (R693, R387, R425). -/
def Loom.reset : Loom where
  nstore := []
  sstore := []
  scratch := []
  nErr1 := []
  nErr2 := []
  sErr1 := []
  sErr2 := []
  xErr1 := []
  xErr2 := []
  phase := .idle
  beat := 0
  lat := ⟨0, 0, 0, 0, [], 0, TLatch.reset⟩
  dq := List.replicate 16 DqSlot.reset
  released := DqSlot.reset
  spillDue := false
  dqWaits := []
  dqLast := []
  contrib := 0
  satNow := 0
  held := []
  slotsDone := false
  routes := []
  openRoutes := []
  retRoutes := []
  dirWait := []
  rcinvPending := false
  rowCache := []
  rowWaits := []
  fills := []
  deadFills := []
  streams := []
  latKeys := []
  drain := false
  noRestart := []
  tallySent := false
  round := 0
  hookI := false
  hookS := false
  logBuf := []
  logPos := 0
  logBeats := []
  logStall := false
  waitStart := 0
  ret := ⟨none, 0, [], [], false, false⟩
  heldReqs := []
  badSegs := []
  digest := (0, [])
  modAcc := []
  frHits := []
  tmap := []
  tsnap := none
  bOp := none
  bDue := []
  bFold := false
  bSettle := false
  bQueue := []
  thCopy := []
  seq := Seq.reset
  drains := []
  moving := []
  bankCe := []
  testing := false
  passNew := true
  netHeld := []
  openDue := none
  ch := []
  txOrder := []
  txNext := 0
  msgNo := 0
  ply := []
  plyGot := []

end Sys2Proof.Machine
end

