-- ==== Sys2Proof/Machine/StNv.lean ====
section
/-!
DEFINITION. What lives through a package reset: fuses, the MRAM regions and Lantern's volatile state (chapters 07, 15, 17, 18),
and the state of a bring-up.
-/

namespace Sys2Proof.Machine

/-- A copy of the training record (R599): which write it was, the identity it was made for, Tj, soft-bad sites (row-half × 32 +
site), WARMCOUNT. The analogue training values stand for themselves (log entry 42). -/
structure TrecCopy where
  seq : Nat
  die : Nat
  step : Nat
  dclass : Nat
  tj : Int
  soft : List Nat
  warm : Nat
  deriving DecidableEq, Repr

/-- A loom's record in a checkpoint (R268). -/
structure CkptRec where
  loom : Nat
  bytes : List Byte
  deriving DecidableEq, Repr

/-- A checkpoint copy in MRAM: its beat, the measurement of the image that produced it, the records, and whether the commit
record has been written. -/
structure CkptCopy where
  beat : Nat
  meas : List Byte
  recs : List CkptRec
  valid : Bool
  /-- Its number in the order of writing. -/
  seq : Nat
  deriving DecidableEq, Repr

/-- The non-volatile state. -/
structure NvSt where
  /-- Life counters of laser modules by serial: POWERED and HOT (R525). -/
  life : Tab (Nat × Nat)
  /-- Serials of the modules that have worn (R525). -/
  worn : List Nat
  /-- Fuse bits blown, by word index, but those of the die number and the UDS, which Config holds (R583). -/
  fuse : Tab Word
  /-- Words with an error: 1 single-bit, 2 double-bit (R582). -/
  fuseErr : Tab Nat
  wipepend : Bool
  /-- The two copies of the training record; none where invalid. -/
  trec : Tab (Option TrecCopy)
  /-- The identity certificate chains by slot as PROVISION wrote them (R554); none where the part came with its own. -/
  certs : List (List Byte)
  ckpt : Tab (Option CkptCopy)
  /-- The mode that the checkpoint area was last written in (R268). -/
  ckptMode : Nat
  deriving DecidableEq, Repr

/-- As the part was delivered (log entry 5): the identity of an A2 part, lifecycle FIELD, an owner key set whose digest reads 0, no
bad site, lane or row. -/
def NvSt.reset : NvSt := ⟨[], [], [(0, 0x1B010768), (1, 1), (0xC, 7), (0x15, 1)], [], false, [], [], [], 0⟩

/-- Lantern (chapter 17). FIELD_DEBUG and ENTRY are held in always-on logic. -/
structure CustSt where
  fieldDebug : Bool
  entry : Bool
  /-- The nonce and the LT it was drawn at (R567). -/
  nonce : Option (List Byte × Nat)
  /-- The measurement log, oldest first, and the running digest (R562). -/
  meas : List (List Byte)
  digest : List Byte
  /-- SVN + 1 of the last image of each KIND accepted since the package reset (R560). -/
  accepted : Tab Nat
  /-- The running command: its code, and the result it ends with. -/
  run : Option (Nat × Nat)
  /-- The TRNG has failed its health test (R551). -/
  noEntropy : Bool
  /-- The LT of a first SCRAP frame (R499). -/
  scrapFrame : Option Nat
  /-- Resources that are being wiped on their way back to the device (R573): a block id, or 65,536 + a region entry. -/
  releasing : List Nat
  /-- A warden access waits for an answer of the selvedge network (R499, R500). -/
  wardenBusy : Bool
  deriving DecidableEq, Repr

/-- Lantern after a package reset. -/
def CustSt.reset : CustSt := ⟨false, false, none, [], List.replicate 64 0, [], none, false, none, [], false⟩

/-- A bring-up or compute-partition reset under way (R589, R592): whether one runs, which of the two, the steps that have ended,
the LT it began, whether a fuse word was uncorrectable, and whether WIPEPEND was found. -/
structure BootSt where
  active : Bool
  cpr : Bool
  ended : List Nat
  start : Nat
  fuseUe : Bool
  wipe : Bool
  /-- The exit from sleep that the bring-up or the rebuilding belongs to: 0 none, 2 or 3. -/
  sleep : Nat
  /-- Blocks that have been READY since the last package reset: until then R593 refuses every access. -/
  seen : List Nat
  /-- Tj at step 5, and the looms that a compute-partition reset will restore from their snapshots and logs, each with its state
  as it stood and its configuration registers. -/
  tj : Int
  kept : List (Nat × Loom × Tab Word)
  deriving DecidableEq, Repr

/-- No bring-up has begun. -/
def BootSt.reset : BootSt := ⟨false, false, [], 0, false, false, 0, [], 0, []⟩

end Sys2Proof.Machine
end

