-- ==== Sys2Proof/Machine/StLamp.lean ====
section
/-!
DEFINITION. The state of Lamplighter besides its registers (chapter 19).
-/

namespace Sys2Proof.Machine

/-- A darning snapshot (R609, R610, log entry 38): its beat and sequence, FREERUN at capture, the configuration registers by
offset × 65,536 + table index, the loom's state, the maps of the regions it copied, the place of the BEAT record of its beat in
the log, and whether COMMIT has been written. -/
structure SnapImg where
  beat : Nat
  seq : Nat
  freerun : Bool
  regs : Tab Word
  loom : Loom
  nmap : List Nat
  smap : List Nat
  xmap : List Nat
  logOff : Nat
  done : Bool
  deriving DecidableEq, Repr

/-- A darning in progress (R616): the loom, the site that failed, the site chosen, the reserve loom displaced, its row-half's hub and index, the LT it
began, the failed loom's state as it was kept recoverable, and whether the image has been loaded. -/
structure DarnSt where
  loom : Nat
  bad : Nat
  site : Nat
  reserve : Option Nat
  start : Nat
  cause : Nat
  image : SnapImg
  kept : Loom
  loaded : Bool
  deriving DecidableEq, Repr

/-- A rung in progress (R624): rung 1 or 2, the block it was entered for, the blocks that must be READY again, the cause, the LT
it began. -/
structure RungSt where
  rung : Nat
  block : Nat
  waits : List Nat
  cause : Nat
  start : Nat
  deriving DecidableEq, Repr

/-- A dump being collected (R629): the blocks still to be read, the one being read first, with the offset reached in its page, whether it
goes to HBM only, how many bytes of data it has and how many the page had found, the manifest entries so far, and the darned loom
whose stores follow. -/
structure DumpSt where
  pages : List Nat
  off : Nat
  hbmOnly : Bool
  pos : Nat
  start : Nat
  entries : Nat
  stores : Option Nat
  deriving DecidableEq, Repr

/-- A checkpoint being taken (R268, R639): which copy, and what the snapshot captured once its boundary has come. -/
structure CkptRun where
  copy : Nat
  cap : Option CkptCopy
  deriving DecidableEq, Repr

/-- Lamplighter. -/
structure LlSt where
  /-- The event log newest first (R604, R631), the always-on event window used while the core is absent, and the next serial
  number of an entry. -/
  log : List EvEntry
  window : List EvEntry
  evNext : Nat
  /-- The core is absent (R632); Lantern has halted or stopped (R633). -/
  absent : Bool
  lanternGone : Bool
  /-- FAULT_N asserted, ALIVE, a handover that waits for its boundary, causes of FAULT_N that remain. -/
  faultN : Bool
  alive : Bool
  handPend : Bool
  /-- LL_STAT.STATE LOST: handed over. -/
  lost : Bool
  /-- Snapshots by loom × 2 + image, and the image of the latest snapshot started + 1. -/
  snaps : Tab (Option SnapImg)
  snapSeq : Tab Nat
  darn : Option DarnSt
  /-- Looms held for darning while the core is absent (R632). -/
  heldLooms : List (Nat × Nat)
  /-- Per block: PROGRESS at the last tick + 1 and the ticks since in which the block was BUSY without moving (R605). -/
  watch : Tab (Nat × Nat)
  rungs : List RungSt
  /-- LT of past entries to rung 1 by block, and to rung 2 by block. -/
  rung1 : List (Nat × Nat)
  rung2 : List (Nat × Nat)
  /-- Consecutive ticks with LINKERR by hub (R607). -/
  linkTicks : Tab Nat
  /-- Dump SRAM beyond the event window, the dump in progress, the dumps' sequence. -/
  dumpRam : Tab Byte
  dump : Option DumpSt
  dumpSeq : Nat
  /-- Fault codes latched per block since the last tick (R629). -/
  tickFaults : List Nat
  ckpt : Option CkptRun
  /-- LT + 1 of the last checkpoint's start. -/
  ckptLt : Nat
  /-- A checkpoint has been restored, or none was valid, since the package reset (R270). -/
  restored : Bool
  /-- Soft-bad sites (row-half × 32 + site). -/
  soft : List Nat
  deriving DecidableEq, Repr

/-- Lamplighter at power-on: FAULT_N asserted, ALIVE low (R597). -/
def LlSt.reset : LlSt where
  log := []
  window := []
  evNext := 0
  absent := false
  lanternGone := false
  faultN := true
  alive := false
  handPend := false
  lost := false
  snaps := []
  snapSeq := []
  darn := none
  heldLooms := []
  watch := []
  rungs := []
  rung1 := []
  rung2 := []
  linkTicks := []
  dumpRam := []
  dump := none
  dumpSeq := 0
  tickFaults := []
  ckpt := none
  ckptLt := 0
  restored := false
  soft := []

end Sys2Proof.Machine
end

