-- ==== Sys2Proof/Machine/StMem.lean ====
section
/-!
DEFINITION. The state of HBM and MEMCRYPT (chapter 13) and of the shuttles (chapter 12) besides their registers.
-/

namespace Sys2Proof.Machine

/-- An installed region entry (R443, R444); base and size in units of 2 MiB. -/
structure Region where
  base : Nat
  size : Nat
  part : Nat
  slot : Nat
  kind : Nat
  valid : Bool
  devacc : Bool
  deriving DecidableEq, Repr

/-- No region. -/
def Region.reset : Region := ⟨0, 0, 0x1F, 0, 0, false, false⟩

/-- A numbered memory request that has no response yet (R439). -/
structure HbmReq where
  rseq : Nat
  write : Bool
  addr : Nat
  size : Nat
  data : List Byte
  /-- A write or read of a loom's spill region (R107). -/
  spill : Bool
  deriving DecidableEq, Repr

/-- A requester's window towards one controller: the next RSEQ, the unanswered requests oldest first, the requests held
behind the limit of 1,024. -/
structure HbmTx where
  next : Nat
  unans : List HbmReq
  held : List HbmReq
  deriving DecidableEq, Repr

/-- Nothing sent. -/
def HbmTx.reset : HbmTx := ⟨0, [], []⟩

/-- HBM and its protection. -/
structure MemSt where
  /-- HBM by physical address, as plaintext; the stack's own view of it is lineCipher and lineTag (R446, R447, log entry 21). -/
  hbm : Tab Byte
  /-- Lines (of 128 bytes) whose poison bit is set (R451, R452). -/
  poison : List Nat
  /-- Lines that the stack holds otherwise than as they were written (R450 to R453), until they are written again. -/
  marks : Tab LineRead
  /-- The number of the key a line was written under; 0 for a line that a wipe wrote last, which `wiped` gives (log entry 22). -/
  lineKey : Tab Nat
  /-- The wipes of regions, the last one first: the lines [lo, hi), and the number of the key (R455). -/
  wiped : List (Nat × Nat × Nat)
  regions : Tab Region
  /-- MC_REGSTAT.STATE per entry: 0 IDLE, 1 WIPING, 2 READY. -/
  rstate : Tab Nat
  /-- The tag, plus 1, that each pool slot is assigned to: a partition's or the device's (R445). -/
  pool : Tab Nat
  /-- KEYGEN per slot. -/
  keygen : Tab Nat
  /-- The key in each slot (R445, R556) by its number: that of the free value that gives the key × 65,536 + KEYGEN + 1. -/
  keys : Tab Nat
  /-- Tag cache (R449): by controller × 512 + set, its tag lines (pseudo-channel × 2²⁰ + number), least recently used
  first. -/
  tags : Tab (List Nat)
  /-- Expected RSEQ, and LT plus 1 of the last RESEND answer, by controller × 4,096 + requester (R439). -/
  expect : Tab Nat
  resent : Tab Nat
  /-- Requesters' windows by requester × 4 + controller. -/
  tx : Tab HbmTx
  deriving DecidableEq, Repr

/-- HBM after the wipe of the cold path. -/
def MemSt.reset : MemSt := ⟨[], [], [], [], [], [], [], [], [], [], [], [], [], []⟩

/-- A shuttle descriptor (R420). -/
structure ShDesc where
  src : Nat
  dst : Nat
  len : Nat
  cfg : Nat
  lamp : Nat
  sstr : Nat
  dstr : Nat
  pat : Nat
  next : Nat
  deriving DecidableEq, Repr

/-- The next descriptor of a chain: one at hand with its address (none for the register set), or one to be fetched. -/
inductive ShNext where
  | desc (d : ShDesc) (addr : Option Nat)
  | fetch (addr : Nat)
  deriving DecidableEq, Repr

/-- The lanes of a shuttle that run descriptors (R418). -/
inductive ShLane where
  | page | queue
  deriving DecidableEq, Repr

/-- The work of the custody lane (R418): to write a loom's snapshot, or up to 512 bytes of its pick log, to HBM. -/
inductive ShJob where
  | snap (l : Nat)
  | log (l : Nat)
  deriving DecidableEq, Repr

/-- A queue-lane entry (R425): ticket, submitting loom, tag, what runs next of it, and the final code once it has ended. -/
structure ShEntry where
  ticket : Nat
  loom : Nat
  tag : Nat
  next : ShNext
  code : Option Nat
  /-- A loom reset has discarded the ticket; the entry goes when its transfer ends. -/
  lost : Bool
  deriving DecidableEq, Repr

/-- The descriptor that runs: the shuttle whose lane it is on, the lane, its tag, and the ticket of the queue lane. -/
structure ShRun where
  home : Nat
  lane : ShLane
  desc : ShDesc
  addr : Option Nat
  tag : Nat
  ticket : Option Nat
  deriving DecidableEq, Repr

/-- What a transfer gives: code, failing address, stream bytes done, and for COMPARE the offset and the count. -/
structure ShRes where
  code : Nat
  err : Nat
  bytes : Nat
  cmp : Option (Nat × Nat)
  deriving DecidableEq, Repr

/-- A shuttle. -/
structure Shuttle where
  /-- The page lane's work: what its active chain runs next, none while idle. -/
  page : Option ShNext
  armed : Bool
  queue : List ShEntry
  run : Option ShRun
  /-- The custody-lane work that it runs instead, under tag 0x1E. -/
  job : Option ShJob
  /-- The page or queue lane served last, for their alternation: home × 2 + 1 for a queue lane, + 0 for a page lane. -/
  last : Option Nat
  /-- Judged failed; the sibling serves its lanes (R427). -/
  failed : Bool
  /-- The descriptor that ran when the shuttle failed, to be restarted by the sibling. -/
  redo : Option ShRun
  /-- Stream bytes beyond the last whole 64. -/
  rest : Nat
  /-- What the running transfer gave, while a write of it is held (R112, R147, R316), and whether its STATUS word has been written. -/
  wait : Option (ShRes × Bool)
  deriving DecidableEq, Repr

/-- An idle shuttle. -/
def Shuttle.reset : Shuttle := ⟨none, false, [], none, none, none, false, none, 0, none⟩

/-- A session-key slot of the host-port shuttles (R428): loaded, its KEYGEN, the SEAL counter and the last accepted OPEN
counter. The key is a free value drawn when it was loaded. -/
structure SessKey where
  loaded : Bool
  key : Nat
  gen : Nat
  sealCtr : Nat
  openCtr : Nat
  deriving DecidableEq, Repr

/-- Never loaded. -/
def SessKey.reset : SessKey := ⟨false, 0, 0, 0, 0⟩

end Sys2Proof.Machine
end

