-- ==== Sys2Proof/Machine/StPower.lean ====
section
/-!
DEFINITION. The state of POWER besides its registers (chapters 20 and 22), and of the host port and the vehicle interfaces
(chapter 14).
-/

namespace Sys2Proof.Machine

/-- POWER. -/
structure PowerSt where
  /-- The levels in force: loom level and warp level (R643). -/
  level : Nat × Nat
  /-- Ticks in a row with BEAT_LAG 0 (R645) and with Th below TJMAX − 5 °C (R649). -/
  lagZero : Nat
  cool : Nat
  /-- A thermal trip holds the package in S3 until Th has fallen (R649); a rail fault until a package reset (R677). -/
  tripped : Bool
  railFault : Bool
  /-- Rail groups enabled: I/O, HBM, compute (R675). -/
  enIo : Bool
  enHbm : Bool
  enCmp : Bool
  /-- The crystal is lost (R679). -/
  rc : Bool
  /-- The sleep state being entered or left; before the entry the beat engine was STOPPED, and its next beat. -/
  target : Nat
  wasStopped : Bool
  beatN : Nat
  /-- A wake seen while a thermal trip holds the package (R649). -/
  wake : Bool
  deriving DecidableEq, Repr

/-- Before bring-up: no rail enabled. -/
def PowerSt.reset : PowerSt := ⟨(0, 0), 0, 0, false, false, false, false, false, false, 0, false, 0, false⟩

/-- An SPDM session of a function (R491): KEY_EXCHANGE has begun one, FINISH has completed it, its secret, and how often
KEY_UPDATE has renewed its session keys. -/
structure SpdmSess where
  pending : Bool
  active : Bool
  secret : List Byte
  /-- The points of KEY_EXCHANGE, as the transcript holds them. -/
  hist : List Byte
  updates : Nat
  deriving DecidableEq, Repr

/-- No session. -/
def SpdmSess.reset : SpdmSess := ⟨false, false, [], [], 0⟩

/-- HOSTPORT: sessions by function. -/
structure HostSt where
  sess : Tab SpdmSess
  deriving DecidableEq, Repr

/-- No session. -/
def HostSt.reset : HostSt := ⟨[]⟩

end Sys2Proof.Machine
end

