-- ==== Sys2Proof/Machine/StTap.lean ====
section
/-!
DEFINITION. The state of the test port (R683): the controller of IEEE 1149.1 and its registers.
-/

namespace Sys2Proof.Machine

/-- The sixteen states of the controller. -/
inductive TapState where
  | reset | runIdle
  | selectDr | captureDr | shiftDr | exit1Dr | pauseDr | exit2Dr | updateDr
  | selectIr | captureIr | shiftIr | exit1Ir | pauseIr | exit2Ir | updateIr
  deriving DecidableEq, Repr

/-- The test port: its controller, the instruction being shifted in and the one in force, the bypass bit, the boundary register. -/
structure TapSt where
  ctrl : TapState
  shift : List Bool
  instr : List Bool
  bypass : Bool
  boundary : List Bool
  deriving DecidableEq, Repr

/-- After TRST_N or at power-on: no instruction but BYPASS. -/
def TapSt.reset : TapSt := ⟨.reset, [], [], false, []⟩

end Sys2Proof.Machine
end

