-- ==== Sys2Proof/Machine/StTimer.lean ====
section
/-!
DEFINITION. The state of the timer block besides its registers (chapter 16).
-/

namespace Sys2Proof.Machine

/-- The timer block. -/
structure TimerSt where
  /-- OUT by channel, one bit each. -/
  out : Nat
  /-- The RELOAD in force by channel. -/
  reload : Tab Nat
  /-- Channels whose pending reload applies at the next tick (R540). -/
  imm : List Nat
  /-- Cycles, edges or wraps of the source counted towards the next tick of an AON, PIN or CHAIN channel (R534). -/
  presc : Tab Nat
  /-- The LT of an LT channel's last tick, or of its start. -/
  last : Tab Int
  /-- CAPLT latched by a read of CAP, by channel × 32 + requester tag, plus 1 (R542). -/
  capLatch : Tab Nat
  deriving DecidableEq, Repr

/-- Every channel stopped with OUT 0 (R547). -/
def TimerSt.reset : TimerSt := ⟨0, [], [], [], [], []⟩

end Sys2Proof.Machine
end

