-- ==== Sys2Proof/Machine/State.lean ====
section
/-!
DEFINITION. The state of the package, its reset, and the reasons a step can stop.
-/

namespace Sys2Proof.Machine

/-- The package. Plain data: register files and sub-states are sparse tables whose unlisted entries hold the reset
value. -/
structure State where
  /-- The commands that wait, first in, first out. -/
  pending : List Instr
  /-- What has left the block: messages, responses, pin actions, oldest first (the model's own record). -/
  out : List Out
  /-- Free values drawn so far (the model's own counter, log entry 3). -/
  free : Nat
  /-- Live register values by (block × 4,096 + offset) × 65,536 + table index. -/
  regs : Tab Word
  /-- Transactions and mode latches by block id. -/
  blk : Tab BlockCtl
  /-- HI halves latched by a read of LO (R165), by register key × 32 + requester tag; the value plus 1, 0 for none. -/
  hiLatch : Tab Nat
  /-- Policy decisions taken and not yet applied (R26). -/
  decisions : List Decision
  looms : Tab Loom
  hubs : Tab Hub
  /-- Channels of router inputs on which what comes up to the next TAIL is dropped (R349). -/
  cuts : List Nat
  beat : BeatSt
  ltime : LtimeSt
  ll : LlSt
  mem : MemSt
  shs : Tab Shuttle
  sess : Tab SessKey
  glims : Tab Glim
  gpkg : GlimPkg
  lasers : Tab Laser
  reeds : Tab Reed
  pw : PowerSt
  nv : NvSt
  tim : TimerSt
  cust : CustSt
  boot : BootSt
  host : HostSt
  /-- Channel ends of the application cluster's endpoint, by entry (R389). -/
  apc : Tab ChEnd
  /-- The private space of the application cluster. -/
  clu : CluSt
  /-- The test port (R683). -/
  tap : TapSt
  deriving DecidableEq, Repr

/-- Why the machine stops with a fault: no meaning of this model does (every command has an effect or leaves the state
as it is). The constructor names the one case a meaning could not act on: an operand that names no part of the machine,
where Syntax could not rule it out. Safe: nothing happens. -/
inductive Fault where
  /-- A command names a part that the spec does not give the machine. Raised by no meaning. Safe. -/
  | noSuchPart
  deriving DecidableEq, Repr

/-- Why a command has no meaning. -/
inductive Refusal where
  /-- Raised by the arms of exec that have no meaning yet. Safe: nothing happens. -/
  | notModelled (mnemonic : String)
  deriving DecidableEq, Repr

/-- The package right after reset: LT 0, no block READY, every register at its reset value, no command waiting. -/
def State.reset : State where
  pending := []
  out := []
  free := 0
  regs := []
  blk := []
  hiLatch := []
  decisions := []
  looms := []
  hubs := []
  cuts := []
  beat := BeatSt.reset
  ltime := LtimeSt.reset
  ll := LlSt.reset
  mem := MemSt.reset
  shs := []
  sess := []
  glims := []
  gpkg := GlimPkg.reset
  lasers := []
  reeds := []
  pw := PowerSt.reset
  nv := NvSt.reset
  tim := TimerSt.reset
  cust := CustSt.reset
  boot := BootSt.reset
  host := HostSt.reset
  apc := []
  clu := CluSt.reset
  tap := TapSt.reset

end Sys2Proof.Machine
end

