-- ==== Sys2Proof/Machine/Ops.lean ====
section
/-!
DEFINITION. The named operations that every chapter's meanings use: block ids, register reads and writes, counters,
faults, the event log, messages.
-/

namespace Sys2Proof.Machine

/-! ## Block ids (R40) -/

abbrev bCustody : Nat := 0x001
abbrev bLamplighter : Nat := 0x002
abbrev bFuse : Nat := 0x003
abbrev bPower : Nat := 0x004
abbrev bBeat : Nat := 0x005
abbrev bLtime : Nat := 0x006
abbrev bTimer : Nat := 0x008
abbrev bMemcrypt : Nat := 0x018
abbrev bLaser : Nat := 0x068
abbrev bHostport : Nat := 0x078
abbrev bApc : Nat := 0x079
abbrev bNetio : Nat := 0x07A
abbrev bSeam : Nat := 0x090
abbrev bPartition : Nat := 0x0A0
/-- HBMC c. -/
abbrev bHbmc (c : Nat) : Nat := 0x010 + c
/-- SHUTTLE k. -/
abbrev bShuttle (k : Nat) : Nat := 0x020 + k
/-- GLIMMER p. -/
abbrev bGlimmer (p : Nat) : Nat := 0x060 + p
/-- REED p. -/
abbrev bReed (p : Nat) : Nat := 0x070 + p
/-- HUB h. -/
abbrev bHub (h : Nat) : Nat := 0x080 + h
/-- LOOM L (R13). -/
abbrev bLoom (l : Nat) : Nat := 0x100 + l

/-- The kind of block that an id holds; none for an unassigned id (R40). -/
def kindOf (b : Nat) : Option Kind :=
  if b = 0x001 then some .custody else if b = 0x002 then some .lamplighter else if b = 0x003 then some .fuse
  else if b = 0x004 then some .power else if b = 0x005 then some .beat else if b = 0x006 then some .ltime
  else if b = 0x008 then some .timer else if 0x010 ≤ b ∧ b ≤ 0x013 then some .hbmc
  else if b = 0x018 then some .memcrypt else if 0x020 ≤ b ∧ b ≤ 0x05B then some .shuttle
  else if 0x060 ≤ b ∧ b ≤ 0x067 then some .glimmer else if b = 0x068 then some .laser
  else if 0x070 ≤ b ∧ b ≤ 0x077 then some .reed else if b = 0x078 then some .hostport
  else if b = 0x079 then some .apc else if b = 0x07A then some .netio
  else if 0x080 ≤ b ∧ b ≤ 0x08F then some .hub else if b = 0x090 then some .seam
  else if b = 0x0A0 then some .partition else if 0x100 ≤ b ∧ b ≤ 0x3FF then some .loom else none

/-- IDENT.CLASS: the block id of the first instance of the kind (R692). -/
def classOf : Kind → Nat
  | .custody => 0x001 | .lamplighter => 0x002 | .fuse => 0x003 | .power => 0x004 | .beat => 0x005 | .ltime => 0x006
  | .timer => 0x008 | .hbmc => 0x010 | .memcrypt => 0x018 | .shuttle => 0x020 | .glimmer => 0x060 | .laser => 0x068
  | .reed => 0x070 | .hostport => 0x078 | .apc => 0x079 | .netio => 0x07A | .hub => 0x080 | .seam => 0x090
  | .partition => 0x0A0 | .loom => 0x100

/-- Every block id that holds a block, ascending. -/
def allBlocks : List Nat :=
  [1, 2, 3, 4, 5, 6, 8] ++ (List.range 4).map (0x10 + ·) ++ [0x18] ++ (List.range 60).map (0x20 + ·)
    ++ (List.range 9).map (0x60 + ·) ++ (List.range 11).map (0x70 + ·) ++ (List.range 17).map (0x80 + ·)
    ++ [0xA0] ++ (List.range 768).map (0x100 + ·)

/-- The tag that an access carries (R55). A hart's access is resolved to a partition or the device before it leaves the cluster
(`who`, R75). -/
def tagOf : Requester → Nat
  | .part p => p.val
  | .device | .hart .. => 0x1F
  | .custody _ => 0x1E

/-! ## Registers -/

/-- The key of a register, or of the word of a table entry behind a selection register. -/
def regKey (b off idx : Nat) : Nat := (b * 4096 + off) * 65536 + idx

/-- The rows of a block's register map that stand at an offset, each with its repetition resolved. -/
def rowsAt (k : Kind) (off : Nat) : List FldRow :=
  (commonMap ++ kindMap k).filter (fun r =>
    r.fld.off ≤ off && (off - r.fld.off) % r.stride == 0 && (off - r.fld.off) / r.stride < r.n)

/-- The reset value that the register map gives an offset. -/
def mapReset (k : Kind) (off : Nat) : Word :=
  (rowsAt k off).foldl (fun w r => w ||| BitVec.ofNat 32 (r.reset * 2 ^ r.fld.lo)) 0

/-- Word `w` of the row map of a row-half without a bad site (R16, R368). -/
def straightMap (w : Nat) : Word :=
  BitVec.ofNat 32 ((List.range (if w = 2 then 4 else 6)).foldl (fun a j => a + (6 * w + j) * 2 ^ (5 * j)) 0)

/-- The reset value of a register of block `b`: the register map's, with IDENT of R45 and R692 and the row maps of R16. -/
def resetWord (b off : Nat) : Word :=
  match kindOf b with
  | none => 0
  | some k =>
    if off = 0 then BitVec.ofNat 32 (classOf k * 65536 + (b - classOf k))
    else if k = .hub ∧ (off = 0x84 ∨ off = 0x88 ∨ off = 0x8C) then straightMap ((off - 0x84) / 4)
    else mapReset k off

/-- The live value of a register, or of entry `idx` of a table. -/
def regGet (s : State) (b off idx : Nat) : Word := tabGet (resetWord b off) s.regs (regKey b off idx)

/-- Sets a live register value. -/
def regSet (s : State) (b off idx : Nat) (w : Word) : State :=
  { s with regs := tabSet (resetWord b off) s.regs (regKey b off idx) w }

/-- A field's live value in table entry `i`. -/
def rdI (s : State) (b : Nat) (f : Fld) (i : Nat) : Nat := fldGet f (regGet s b f.off i)

/-- A field's live value. -/
def rd (s : State) (b : Nat) (f : Fld) : Nat := rdI s b f 0

/-- A one-bit field's live value. -/
def rdB (s : State) (b : Nat) (f : Fld) : Bool := rd s b f == 1

/-- A register whose offset is `4 × i` past the field's. -/
def fAt (f : Fld) (i : Nat) : Fld := { f with off := f.off + 4 * i }

/-- A field of a register repeated at a stride. -/
def fStep (f : Fld) (step i : Nat) : Fld := { f with off := f.off + step * i }

/-- Sets a field of table entry `i`. -/
def wrI (s : State) (b : Nat) (f : Fld) (i v : Nat) : State :=
  regSet s b f.off i (fldSet f (regGet s b f.off i) v)

/-- Sets a field. -/
def wr (s : State) (b : Nat) (f : Fld) (v : Nat) : State := wrI s b f 0 v

/-- Adds to a counter field, modulo its width (R119). -/
def incBy (s : State) (b : Nat) (f : Fld) (n : Nat) : State := wr s b f (rd s b f + n)

/-- Adds 1 to a counter field, modulo its width (R119). -/
def inc (s : State) (b : Nat) (f : Fld) : State := incBy s b f 1

/-- A 64-bit value in a LO and HI pair. -/
def rdPair (s : State) (b : Nat) (lo hi : Fld) : Nat :=
  rd s b lo * 2 ^ lo.lo + rd s b hi * 2 ^ 32

/-- Sets a 64-bit value in a LO and HI pair. -/
def wrPair (s : State) (b : Nat) (lo hi : Fld) (v : Nat) : State :=
  wr (wr s b lo (v % 2 ^ 32 / 2 ^ lo.lo)) b hi (v / 2 ^ 32)

/-- A field read as two's complement. -/
def rdS (s : State) (b : Nat) (f : Fld) : Int := sext (fldWidth f) (rd s b f)

/-! ## Sub-states -/

/-- The transaction and latch of a block. -/
def ctl (s : State) (b : Nat) : BlockCtl := tabGet BlockCtl.reset s.blk b
/-- Sets them. -/
def setCtl (s : State) (b : Nat) (c : BlockCtl) : State := { s with blk := tabSet BlockCtl.reset s.blk b c }
/-- Loom L. -/
def loom (s : State) (l : Nat) : Loom := tabGet Loom.reset s.looms l
/-- Sets loom L. -/
def setLoom (s : State) (l : Nat) (x : Loom) : State := { s with looms := tabSet Loom.reset s.looms l x }
/-- Changes loom L. -/
def modLoom (s : State) (l : Nat) (f : Loom → Loom) : State := setLoom s l (f (loom s l))
/-- Hub h. -/
def hub (s : State) (h : Nat) : Hub := tabGet Hub.reset s.hubs h
/-- Changes hub h. -/
def modHub (s : State) (h : Nat) (f : Hub → Hub) : State :=
  { s with hubs := tabSet Hub.reset s.hubs h (f (hub s h)) }
/-- Changes the beat engine. -/
def modBeat (s : State) (f : BeatSt → BeatSt) : State := { s with beat := f s.beat }
/-- Changes LTIME. -/
def modLt (s : State) (f : LtimeSt → LtimeSt) : State := { s with ltime := f s.ltime }
/-- LT now. -/
def ltNow (s : State) : Nat := s.ltime.lt

/-- Threads a state through a list. -/
def forEach {α : Type} (xs : List α) (f : α → State → State) (s : State) : State := xs.foldl (fun s a => f a s) s

/-- Acts where a condition holds. -/
def when' (c : Bool) (f : State → State) (s : State) : State := if c then f s else s

/-! ## Messages, faults, free values -/

/-- CLASS codes of the selvedge network (R363). -/
abbrev scFault : Nat := 0
abbrev scBeat : Nat := 1
abbrev scLamp : Nat := 2
abbrev scReg : Nat := 3

/-- The header of a selvedge packet with `len` data words (R363). -/
def selvHeader (cls : Nat) (bcast : Bool) (dest src len : Nat) : Nat :=
  cls % 4 + bcast.toNat * 4 + dest % 4096 * 8 + src % 4096 * 2 ^ 15 + len % 8 * 2 ^ 27

/-- The header of a message of the classes FAULT, BEAT and LAMP; none for one that travels otherwise. How many data words its arguments take
is the model's choice (log entry 133). -/
def selvOf (k : MsgKind) (dst : Nat) (args : List Nat) : Option Nat :=
  let arg0 := (args.head?).getD 0
  match k with
  | .fault => some (selvHeader scFault false bLamplighter dst 1)
  | .saturation => some (selvHeader scFault false bLamplighter dst 1)
  | .prepare => some (selvHeader scBeat false dst bBeat 1)
  | .openB | .settleB | .closedB | .holdingB => some (selvHeader scBeat true dst bBeat 3)
  | .abortB | .restartB => some (selvHeader scBeat true dst bBeat 4)
  | .emitDone => some (selvHeader scBeat false bBeat dst 0)
  | .tally => some (selvHeader scBeat false dst (bLoom arg0) 5)
  | .hubSums => some (selvHeader scBeat false dst (bHub arg0) 7)
  | .dirInv => some (selvHeader scBeat true 0 (bHub dst) 2)
  | .plyArm => some (selvHeader scBeat true 0 dst 2)
  | .plyConfirm => some (selvHeader scLamp false dst (bLoom arg0) 2)
  | .lampAdd => some (selvHeader scLamp false dst arg0 3)
  | .watch => some (selvHeader scLamp false dst (bLoom (arg0 / 2)) 6)
  | .watchCancel => some (selvHeader scLamp false dst (bLoom (arg0 / 2)) 2)
  | .watchDone => some (selvHeader scLamp false dst (bHub ((args[1]?).getD 0 / 1024)) 2)
  | _ => none

/-- A message as it leaves: on the selvedge network its header comes first (R363). -/
def outOf (k : MsgKind) (dst : Nat) (args : List Nat) : Out :=
  ⟨k, dst, match selvOf k dst args with | some h => h :: args | none => args⟩

/-- Sends a message. -/
def send (s : State) (k : MsgKind) (dst : Nat) (args : List Nat) : State := { s with out := s.out ++ [outOf k dst args] }

/-- LT as block `b` reads it: through a copy that lags by at most 6 ns (R24). The lag is a constant of Config that nothing knows a value
of (log entry 19). -/
def ltAt (s : State) (b : Nat) : Nat := ltNow s - Config.ltLag b (ltNow s) % 7

/-- LT as a block outside LTIME reads it: through a copy that lags by at most 6 ns, a free value (R24, log entry 19). -/
def ltLagged (s : State) : Nat × State := (ltNow s - Config.freeNat s.free % 7, { s with free := s.free + 1 })

/-- Draws a free value. -/
def drawFree (s : State) : Nat × State := (Config.freeNat s.free, { s with free := s.free + 1 })

/-- Draws free bytes. -/
def freeBytes (s : State) : Nat → List Byte × State
  | 0 => ([], s)
  | n + 1 =>
    let f := drawFree s
    let r := freeBytes f.2 n
    (BitVec.ofNat 8 f.1 :: r.1, r.2)

/-- A fault's class is unmasked in `m` (R50). The manual names no class of a fault code: which of the 32 it is, the part fixes (log
entry 53). -/
def unmasked (m code : Nat) : Bool := !bit m (Config.faultClass code % 32)

/-- The interrupt line of a block with valid fault `code` under mask `m` (R50, R76). -/
def faultLine (s : State) (b m code : Nat) : State := { s with out := s.out ++ if unmasked m code then [⟨.apc, b, [1]⟩] else [] }

/-- Latches a fault of block `b` in FAULTCAUSE: the first one with its cause, a further one in REPEAT (R50). -/
def latchCause (s : State) (b code : Nat) : State :=
  if rd s b F.FAULTCAUSE_VALID = 0 then
    let m := rd s b F.FAULTMASK_MASK
    faultLine (wr (wr (wr s b F.FAULTCAUSE_VALID 1) b F.FAULTCAUSE_CAUSE code) b F.FAULTCAUSE_REPEAT 0) b m code
  else wr s b F.FAULTCAUSE_REPEAT (min 0xFF (rd s b F.FAULTCAUSE_REPEAT + 1))

/-- Latches a fault of block `b` (R50) and reports it to Lamplighter whatever FAULTMASK holds (R52). -/
def latchFault (s : State) (b code : Nat) : State := send (latchCause s b code) .fault b [code]

/-- Writes an event-log entry (R631): into the log while Lamplighter's core runs, else into the always-on event window
(R20, R631). The entry's serial number comes back. -/
def logEntry (s : State) (block kind flags cause value : Nat) : Nat × State :=
  let e : EvEntry := ⟨s.ll.evNext, ltAt s bLamplighter, s.beat.n, block, kind, flags, cause, value⟩
  let x := if s.ll.absent then { s.ll with window := (e :: s.ll.window).take 256, evNext := s.ll.evNext + 1 }
    else { s.ll with log := (e :: s.ll.log).take 4096, evNext := s.ll.evNext + 1 }
  (e.id, { s with ll := x })

/-- Writes an event-log entry. -/
def logEvent (s : State) (block kind flags cause value : Nat) : State := (logEntry s block kind flags cause value).2

/-- Sets flag bits of a logged entry (R26: applied, superseded). -/
def flagEntry (s : State) (id flags : Nat) : State :=
  let mark := fun (e : EvEntry) => if e.id = id then { e with flags := e.flags ||| flags } else e
  { s with ll := { s.ll with log := s.ll.log.map mark, window := s.ll.window.map mark } }

/-- Lamplighter runs: its core is there and the page is READY. -/
def llRuns (s : State) : Bool := rdB s bLamplighter F.STATE_READY && !s.ll.absent

/-- A block asserts its line for an event that none of its registers holds (R76). -/
def pulseLine (s : State) (b : Nat) : State :=
  send { s with clu := { s.clu with pulse := if s.clu.pulse.contains b then s.clu.pulse else s.clu.pulse ++ [b] } } .apc b [1]

/-- EVENT codes of tenant and session events (R637). -/
abbrev tePartitionDown : Nat := 1
abbrev teLifecycle : Nat := 2
abbrev teLaserSwap : Nat := 3
abbrev teRecovering : Nat := 4
abbrev teReturned : Nat := 5

/-- A tenant or session event of the own package: Lamplighter raises its line, so that the fabric manager's software can tell the peers of
the job (R637, log entry 118). -/
def tenantEvent (s : State) (event : Nat) : State :=
  if llRuns s then
    let s := { s with clu := { s.clu with event := event } }
    pulseLine s bLamplighter
  else s

/-- A refused or ignored write that this manual counts in TXNREFUSE (R54). -/
def txnRefuse (s : State) (b : Nat) : State := inc s b F.TXNREFUSE_COUNT

/-- One unit of a block's work (R53). -/
def progress (s : State) (b : Nat) : State := inc s b F.PROGRESS_COUNT

/-! ## Fuses (R583 to R585) -/

/-- The fuse words that each part is made with and nothing is known of (log entry 5): its die number and its UDS. -/
def fuseMade (i : Nat) : Word := if 2 ≤ i ∧ i ≤ 11 then Config.fuseWord i else 0

/-- A fuse word. -/
def fuse (s : State) (i : Nat) : Word := fuseMade i ||| tabGet 0 s.nv.fuse i

/-- Blows fuse bits. -/
def fuseBlow (s : State) (i : Nat) (w : Word) : State :=
  { s with nv := { s.nv with fuse := tabSet 0 s.nv.fuse i (tabGet 0 s.nv.fuse i ||| w) } }

/-- Byte `k` of a run of fuse words that starts at `base`; 0 in an uncorrectable word, which names nothing (R587). -/
def fuseByte (s : State) (base k : Nat) : Nat :=
  if tabGet 0 s.nv.fuseErr (base + k / 4) = 2 then 0 else (fuse s (base + k / 4)).toNat / 2 ^ (8 * (k % 4)) % 256

/-- Fused DCLASS. -/
def fusedDclass (s : State) : Nat := (fuse s 0).toNat / 2 ^ 28

/-- Lifecycle codes (R565). -/
abbrev lcBlank : Nat := 0
abbrev lcTest : Nat := 1
abbrev lcProvisioned : Nat := 2
abbrev lcField : Nat := 3
abbrev lcFieldDebug : Nat := 4
abbrev lcReturn : Nat := 5
abbrev lcScrapped : Nat := 7

/-- The lifecycle: of the highest fused bit, FIELD_DEBUG on top of a fused FIELD; SCRAPPED while a word that decides it is
uncorrectable (R585, R587). -/
def lifecycle (s : State) : Nat :=
  let w := (fuse s 0xC).toNat
  let bit := fun (i : Nat) => w / 2 ^ i % 2 == 1
  if (List.range 0x36).any (fun i => tabGet 0 s.nv.fuseErr i == 2) ∧ s.boot.fuseUe then lcScrapped
  else if bit 4 then lcScrapped else if bit 3 then lcReturn
  else if bit 2 then (if s.cust.fieldDebug then lcFieldDebug else lcField)
  else if bit 1 then lcProvisioned else if bit 0 then lcTest else lcBlank

/-! ## The pick log (R613, R614) -/

/-- Looms keep a log. -/
def logOn (s : State) : Bool := rd s bLamplighter F.LL_LOGSIZE_SIZE != 0

/-- Puts records into the staging buffer of loom `l`. -/
def logPut (s : State) (l : Nat) (ws : List W64) : State :=
  if logOn s then modLoom s l (fun m => { m with logBuf := m.logBuf ++ ws }) else s

/-- The staging buffer of 2 KiB is full: inputs wait (R614). -/
def logFull (s : State) (l : Nat) : Bool := 256 ≤ (loom s l).logBuf.length

/-- A VALUE record of a source and the value that follows it. -/
def logValue (s : State) (l src : Nat) (v : W64) : State :=
  logPut s l [BitVec.ofNat 64 (0xE * 2 ^ 60 + src * 2 ^ 56), v]

/-- A BEAT record of beat `n` and retry round `r`; its place is kept for round 0 (R610). -/
def logBeat (s : State) (l n r : Nat) : State :=
  let s := if logOn s ∧ r = 0 then
      modLoom s l (fun m => { m with logBeats := ((n, m.logPos + m.logBuf.length) :: m.logBeats).take 256 })
    else s
  logPut s l [BitVec.ofNat 64 (0xC * 2 ^ 60 + r % 8 * 2 ^ 57 + n % 2 ^ 48)]

/-- A PICK record: the pick word with EPOCHSEL in place of SEQ. -/
def logPick (s : State) (l : Nat) (w : W64) (sel : Bool) : State :=
  logPut s l [BitVec.ofNat 64 (w.toNat / 4096 * 4096 + sel.toNat)]

/-- A MESSAGE record and the words written to the ring. -/
def logMessage (s : State) (l chan : Nat) (ws : List W64) : State :=
  logPut s l (BitVec.ofNat 64 (0xD * 2 ^ 60 + chan % 4096 * 2 ^ 48 + ws.length % 256 * 2 ^ 32) :: ws)

/-- An XFER record of `n` bytes at local address `a`, as the words of the store that hold them read now (log entry 40). -/
def logXfer (s : State) (l a n : Nat) : State :=
  let m := loom s l
  let byte := fun (i : Nat) => if i < 0x80000 then tabGet 0 m.scratch i
    else if i < 0x100000 then tabGet 0 m.nstore (i - 0x80000) else tabGet 0 m.sstore (i - 0x100000)
  let w0 := a / 8
  let k := (a + n + 7) / 8 - w0
  if n = 0 then s
  else logPut s l (BitVec.ofNat 64 (0xF * 2 ^ 60 + 8 * w0 % 2 ^ 24 * 2 ^ 36 + k % 2 ^ 20) ::
    (List.range k).map (fun i => BitVec.ofNat 64 (leNat ((List.range 8).map (fun j => byte (8 * (w0 + i) + j))))))

/-! ## Packages (R519) -/

/-- The own package id. -/
def selfPkg (s : State) : Nat := s.gpkg.self

/-- The egress port that the package route table gives for package `d` (R519). -/
def pkgRoute (s : State) (d : Nat) : Option Nat :=
  let e := bits (regGet s (bGlimmer 0) (F.GLIM_PKGRT_ENTRY.off + 4 * (d / 8)) 0).toNat (4 * (d % 8) + 3) (4 * (d % 8))
  if bit e 3 then some (e % 8) else none

/-! ## The beat engine's state -/

/-- BEAT_STATUS.STATE codes (R204). -/
abbrev stIdle : Nat := 0
abbrev stArmed : Nat := 1
abbrev stRunning : Nat := 2
abbrev stHeld : Nat := 3
abbrev stRetrying : Nat := 4
abbrev stStopped : Nat := 5
abbrev stFaulted : Nat := 6

/-- The beat engine's state code. -/
def beatState (s : State) : Nat := rd s bBeat F.BEAT_STATUS_STATE

/-- No boundary to wait for: IDLE, STOPPED or FAULTED (R26, R64). -/
def noBoundary (s : State) : Bool :=
  beatState s = stIdle || beatState s = stStopped || beatState s = stFaulted

/-- The W1C bits of BEAT_DETSTAT. -/
abbrev detBits : Nat := 0x1FF

/-- Records an event that leaves the promise (R670): only in a run; the first one latches the beat. -/
def detSet (s : State) (f : Fld) : State :=
  let st := beatState s
  if st = stRunning ∨ st = stHeld ∨ st = stRetrying then
    let s := if (regGet s bBeat F.BEAT_DETSTAT_FREERUN.off 0).toNat % (detBits + 1) = 0 then
        wrPair s bBeat F.BEAT_DETBEAT_LO_N F.BEAT_DETBEAT_HI_N s.beat.n
      else s
    wr s bBeat f 1
  else s

/-- Counts `n` values that depend on timing in LOOM_TIMEDEP (R671). -/
def timeDep (s : State) (l n : Nat) : State :=
  if n = 0 then s else detSet (incBy s (bLoom l) F.LOOM_TIMEDEP_COUNT n) F.BEAT_DETSTAT_TIMEDEP

end Sys2Proof.Machine
end

