-- ==== Sys2Proof/Machine/GlimCore.lean ====
section
/-!
DEFINITION. Glimmer ports as the other blocks use them: live links, marks and their queues, job marks (R507, R509 to
R511, R519).
-/

namespace Sys2Proof.Machine

/-! ## Ports -/

/-- Port `p`. -/
def glim (s : State) (p : Nat) : Glim := tabGet Glim.reset s.glims p
/-- Changes port `p`. -/
def modGlim (s : State) (p : Nat) (f : Glim → Glim) : State :=
  { s with glims := tabSet Glim.reset s.glims p (f (glim s p)) }

/-- GLIM_STAT.STATE codes (R528). -/
abbrev gsOff : Nat := 0
abbrev gsProbe : Nat := 1
abbrev gsTrain : Nat := 2
abbrev gsUp : Nat := 3
abbrev gsDegraded : Nat := 4
abbrev gsFailed : Nat := 5
abbrev gsLost : Nat := 6

/-- The state of port `p`. -/
def glimState (s : State) (p : Nat) : Nat := rd s (bGlimmer p) F.GLIM_STAT_STATE
/-- Sets it. -/
def setGlimState (s : State) (p v : Nat) : State := wr s (bGlimmer p) F.GLIM_STAT_STATE v
/-- The link carries frames. -/
def glimLive (s : State) (p : Nat) : Bool := glimState s p = gsUp || glimState s p = gsDegraded
/-- The package at the other end. -/
def glimPeer (s : State) (p : Nat) : Nat := rd s (bGlimmer p) F.GLIM_STAT_PEERPKG
/-- Changes what is known of the job. -/
def modGpkg (s : State) (f : GlimPkg → GlimPkg) : State := { s with gpkg := f s.gpkg }

/-- The peers of BEAT_JOB; the own bit is ignored. -/
def jobPeers (s : State) : List Nat :=
  (List.range 16).filter (fun k => k != selfPkg s && bit (rd s bBeat F.BEAT_JOB_PEERS) k)

/-- The live links to packages of the job. -/
def jobPorts (s : State) : List Nat := (List.range 8).filter (fun p => glimLive s p && (jobPeers s).contains (glimPeer s p))

/-! ## Marks (R509, R510) -/

/-- MKIND codes. -/
abbrev mkClosed : Nat := 1
abbrev mkHolding : Nat := 2
abbrev mkAbort : Nat := 3
abbrev mkRestart : Nat := 4
abbrev mkTsync : Nat := 5
abbrev mkDigest : Nat := 6
abbrev mkMirreq : Nat := 7
abbrev mkElect : Nat := 8
abbrev mkLanemap : Nat := 9

/-- A mark: kind, origin, REPEAT, and the fields from bit 9 on as one number. -/
def mkMark (kind origin : Nat) (rep : Bool) (fields : Nat) : Nat :=
  (kind + origin * 16 + rep.toNat * 256 + fields * 2 ^ 9) % 2 ^ 120

/-- Fields of a mark. -/
def markKind (m : Nat) : Nat := bits m 3 0
/-- Its origin. -/
def markOrigin (m : Nat) : Nat := bits m 7 4
/-- N of a job mark. -/
def markN (m : Nat) : Nat := bits m 72 9
/-- r of an ABORT or RESTART. -/
def markR (m : Nat) : Nat := bits m 75 73

/-- Place of a kind in the order of R510. -/
def markRank (m : Nat) : Nat :=
  let k := markKind m
  if k = mkAbort ∨ k = mkRestart then 0 else if k = mkLanemap then 1 else if k = mkClosed then 2
  else if k = mkHolding then 3 else if k = mkTsync then 4 else if k = mkMirreq then 5 else if k = mkDigest then 6 else 7

/-- Queues a mark on a live port. -/
def queueMark (s : State) (p m : Nat) : State :=
  if glimLive s p then modGlim s p (fun g => { g with q := g.q ++ [m] }) else s

/-- The first waiting mark by R510. -/
def nextMark (q : List Nat) : Option Nat :=
  (List.range 8).foldl (fun r k => if r.isSome then r else q.find? (fun m => markRank m = k)) none

/-- The channel that a frame reports on. -/
def frameVc (fseq : Nat) : Nat := fseq % 4

/-- A TSYNC mark takes its times as its frame leaves (R515): T3 the LT now, T1 and T2 the echo of the peer's last TSYNC. Where
none has come, the spec states no echo: free values. Every other mark goes as it waited. -/
def stampMark (s : State) (p m : Nat) : Nat × State :=
  if markKind m ≠ mkTsync then (m, s)
  else
    let f := match (glim s p).tsync with
      | some e => (e.1, e.2, s)
      | none =>
        let a := drawFree s
        let b := drawFree a.2
        (a.1, b.1, b.2)
    let t3 := ltLagged f.2.2
    (mkMark mkTsync (selfPkg s) false
      (t3.1 % 2 ^ 36 + f.1 % 2 ^ 36 * 2 ^ 36 + f.2.1 % 2 ^ 36 * 2 ^ 72), t3.2)

/-! ## Frames (R501, R502) -/

/-- A frame: the fields of its header, its slots of 260 bits, its mark. -/
structure GFrame where
  mirror : Bool
  fseq : Nat
  freed : Nat
  sent : Nat
  ab : Nat
  slots : List Nat
  mark : Nat
  deriving DecidableEq, Repr

/-- The CRC-32 of bits [i, i + n) of a number, bit `i` first, on from `c`. -/
def crc32Go (x : Nat) : Nat → Nat → Nat → Nat
  | 0, _, c => c
  | n + 1, i, c =>
    let h := c / 2
    crc32Go x n (i + 1) (if c.testBit 0 != x.testBit i then h ^^^ 0xEDB88320 else h)

/-- The CRC-32 of the low `n` bits of a number with the polynomial of IEEE 802.3, its start value and its final inversion (log entry 142). -/
def crc32 (n x : Nat) : Nat := crc32Go x n 0 0xFFFFFFFF ^^^ 0xFFFFFFFF

/-- Bits [5107:0] of a frame. -/
def frameBody (f : GFrame) : Nat :=
  f.mirror.toNat + f.fseq % 256 * 2 + f.fseq % 4 * 2 ^ 9 + f.freed % 4096 * 2 ^ 11 + f.sent % 4096 * 2 ^ 23 + f.slots.length * 2 ^ 35
    + f.ab * 2 ^ 40 + f.mark % 2 ^ 120 * 2 ^ 48 + ((f.slots.zipIdx).map (fun x => x.1 % 2 ^ 260 * 2 ^ (168 + 260 * x.2))).sum

/-- The 5,140 payload bits of a frame. -/
def framePayload (f : GFrame) : Nat := frameBody f + crc32 5108 (frameBody f) * 2 ^ 5108

/-- The frame that payload bits spell: slots 0 to NSLOT − 1 are used. -/
def glimFrameOf (w : Nat) : GFrame :=
  { mirror := bit w 0, fseq := bits w 8 1, freed := bits w 22 11, sent := bits w 34 23, ab := bits w 44 40, mark := bits w 167 48
    slots := (List.range (min 19 (bits w 39 35))).map (fun i => bits w (427 + 260 * i) (168 + 260 * i)) }

/-- The CRC of payload bits is right. -/
def frameCrcOk (w : Nat) : Bool := crc32 5108 (w % 2 ^ 5108) = bits w 5139 5108

/-! ## Sending (R502, R505, R510, R517) -/

/-- A slot of a FLIT frame: 256 data bits and the control bits with VC and TYPE; its 261st bit here says that it is a TAIL with ABORT. -/
def flitSlot (vc ty data : Nat) (abort : Bool) : Nat := data % 2 ^ 256 + (vc + 4 * ty) * 2 ^ 256 + abort.toNat * 2 ^ 260

/-- The slots of a packet. -/
def GlimPkt.slots (k : GlimPkt) (vc : Nat) : List Nat :=
  if k.flits.isEmpty then [flitSlot vc 3 k.head k.abort]
  else flitSlot vc 0 k.head false :: (k.flits.zipIdx).map (fun x =>
    let last := decide (x.2 + 1 = k.flits.length)
    flitSlot vc (if last then 2 else 1) x.1 (last && k.abort))

/-- One pass over the waiting packets: each channel's oldest starts while the window has room for it (R505). -/
def startPackets (s : State) (q : Nat) : State :=
  let r := (glim s q).tq.foldl (fun (a : List Nat × List (Nat × GlimPkt) × Glim) (x : Nat × GlimPkt) =>
    let g := a.2.2
    let n := 1 + x.2.flits.length
    if a.1.contains x.1 || 2048 < (tabGet 0 g.sent x.1 + 4096 - tabGet 0 g.freed x.1) % 4096 + n then
      (x.1 :: a.1, a.2.1 ++ [x], g)
    else
      (a.1, a.2.1, { g with sent := tabSet 0 g.sent x.1 ((tabGet 0 g.sent x.1 + n) % 4096), slots := g.slots ++ x.2.slots x.1 }))
    (([], [], glim s q) : List Nat × List (Nat × GlimPkt) × Glim)
  modGlim s q (fun _ => { r.2.2 with tq := r.2.1 })

/-- The slots that the next FLIT frame takes: up to 19, and none from a second ABORT tail on. -/
def frameSlots : Nat → Bool → List Nat → List Nat
  | 0, _, _ => []
  | _, _, [] => []
  | n + 1, had, x :: xs =>
    let ab := bit x 260
    if ab && had then [] else x :: frameSlots n (had || ab) xs

/-- The slots that the next MIRROR frame takes, two records of one reed port to a slot, and how many records that is. -/
def mirrorSlots : Nat → List (Nat × Nat) → List Nat × Nat
  | 0, _ => ([], 0)
  | _, [] => ([], 0)
  | n + 1, [x] =>
    let r := mirrorSlots n []
    ((x.2 + x.1 * 2 ^ 256) :: r.1, r.2 + 1)
  | n + 1, x :: y :: rest =>
    if x.1 = y.1 then
      let r := mirrorSlots n rest
      ((x.2 + y.2 * 2 ^ 128 + (x.1 + 8) * 2 ^ 256) :: r.1, r.2 + 2)
    else
      let r := mirrorSlots n (y :: rest)
      ((x.2 + x.1 * 2 ^ 256) :: r.1, r.2 + 1)

/-- Sends one frame on port `p`, if a mark, a slot or a record waits: the first waiting mark, and slots or records, in turn where both wait;
none while the port sends the wake code (R514). -/
def sendFrame (s : State) (p : Nat) : State :=
  let g := glim s p
  if !glimLive s p || rdB s (bGlimmer p) F.GLIM_CFG_SENDWAKE || (g.q.isEmpty && g.slots.isEmpty && g.recs.isEmpty) then s
  else
    let m := nextMark g.q
    let x := match m with
      | some m => stampMark s p m
      | none => (0, s)
    let s := x.2
    let mirror := !g.recs.isEmpty && (g.slots.isEmpty || !g.mirrored)
    let mir := mirrorSlots 19 g.recs
    let slots := if mirror then mir.1 else frameSlots 19 false g.slots
    let rest := if mirror then g.slots else g.slots.drop slots.length
    let v := frameVc g.fseq
    let csent := (tabGet 0 g.sent v + 4096 - (rest.filter (fun x => bits x 257 256 = v)).length % 4096) % 4096
    let ab := match findIdx? (fun x => bit x 260) slots with | some i => i + 1 | none => 0
    let f : GFrame := ⟨mirror, g.fseq, tabGet 0 g.done v % 4096, csent, if mirror then 0 else ab, slots, x.1⟩
    send (modGlim s p (fun g => { g with
      q := match m with | some m => g.q.erase m | none => g.q
      slots := rest, recs := if mirror then g.recs.drop mir.2 else g.recs
      mirrored := mirror, fseq := (g.fseq + 1) % 256 })) .frame (bGlimmer p) [framePayload f]

/-- Sends frames on port `p` until no slot and no record waits that may go. -/
def flushFrames (p : Nat) : Nat → State → State
  | 0, s => s
  | n + 1, s =>
    let s := startPackets s p
    let g := glim s p
    if g.slots.isEmpty && g.recs.isEmpty then s else flushFrames p n (sendFrame s p)

/-- Sends what port `p` may send: packets as far as their credits go, and records to mirror. -/
def glimDrain (s : State) (p : Nat) : State :=
  let g := glim s p
  if glimLive s p then flushFrames p (2 + g.slots.length + g.recs.length + (g.tq.map (fun x => 1 + x.2.flits.length)).sum) s else s

/-- Hands a packet to egress port `q`. -/
def glimForward (s : State) (q vc : Nat) (k : GlimPkt) : State :=
  glimDrain (modGlim s q (fun g => { g with tq := g.tq ++ [(vc, k)] })) q

/-- Every live port with something that waits sends one frame. -/
def sendFrames (s : State) : State := forEach (List.range 8) (fun p s => sendFrame s p) s

/-! ## Job marks (R511) -/

/-- What makes two job marks the same. -/
def markId (m : Nat) : Nat × Nat × Nat × Nat :=
  (markOrigin m, markKind m, markN m, if markKind m = mkAbort ∨ markKind m = mkRestart then markR m else 0)

/-- Sends an own job mark on every live link to a package of the job. -/
def jobMark (s : State) (kind fields : Nat) : State :=
  let m := mkMark kind (selfPkg s) false fields
  let s := forEach (jobPorts s) (fun p s => queueMark s p m) s
  if (jobPeers s).isEmpty then s
  else modGpkg s (fun g => { g with
    seen := if g.seen.contains (markId m) then g.seen else g.seen ++ [markId m]
    latest := tabSet 0 g.latest (selfPkg s) (m + 1) })

/-- Fields of CLOSED and HOLDING. -/
def nFields (n : Nat) : Nat := n % 2 ^ 64
/-- Fields of ABORT and RESTART. -/
def nrFields (n r : Nat) (fatal : Bool) : Nat := n % 2 ^ 64 + r % 8 * 2 ^ 64 + fatal.toNat * 2 ^ 67

end Sys2Proof.Machine
end

