-- ==== Sys2Proof/Machine/Packet.lean ====
section
/-!
DEFINITION. The warp fabric's form: positions, sites, generated routes, headers, flits and their check, and the packets that interfaces
inject (chapter 10).
-/

namespace Sys2Proof.Machine

/-! ## Positions and sites (R13, R18, R332, R339, R353) -/

/-- The row-half of a hub that a logical row and column lie in: hub and row-half index. -/
def rowHalfOf (row col : Nat) : Nat × Nat := (row / 3 + (if 16 ≤ col then 8 else 0), row % 3)

/-- The site of a logical position by the map in force; 0x1F for NONE. -/
def siteOf (s : State) (row col : Nat) : Nat :=
  let h := rowHalfOf row col
  ((hub s h.1).map[16 * h.2 + col % 16]?).getD 0x1F

/-- The mesh column of a site of the half that a logical column lies in: 17 sites a half. -/
def meshCol (col site : Nat) : Nat := site + (if 16 ≤ col then 17 else 0)

/-- The mesh column of a logical position, none where its map entry is NONE. -/
def meshOf (s : State) (row col : Nat) : Option Nat :=
  let site := siteOf s row col
  if site = 0x1F then none else some (meshCol col site)

/-- The site of loom `l` is isolated: its local port is closed in both directions (R355). -/
def isolated (s : State) (l : Nat) : Bool :=
  let h := rowHalfOf (l / 32) (l % 32)
  bit (rdI s (bHub h.1) F.HUB_ROWISO_ISO h.2) (siteOf s (l / 32) (l % 32))

/-- A packet that reaches the local port of an isolated site is discarded and counted (R355). -/
def isoDrop (s : State) (l : Nat) : State := inc s (bHub (rowHalfOf (l / 32) (l % 32)).1) F.HUB_ISODROP_COUNT

/-! ## Moves and generated routes (R133, R337, R340 to R342) -/

/-- Where a move leads: a position, an edge, or nowhere. -/
inductive Move where
  | pos (row col : Nat)
  | west | east | north | south | seam
  | off
  deriving DecidableEq, Repr

/-- A move from a logical position. -/
def moveTo (row col code : Nat) : Move :=
  if code = 0 then (if row = 0 then .north else .pos (row - 1) col)
  else if code = 2 then (if row = 23 then .south else .pos (row + 1) col)
  else if code = 1 then (if col = 31 then .east else if col = 15 then .seam else .pos row (col + 1))
  else if code = 3 then (if col = 0 then .west else if col = 16 then .seam else .pos row (col - 1))
  else if code = 7 then (if col = 15 then .pos row 16 else if col = 16 then .pos row 15 else .off)
  else .off

/-- The endpoint that a port of an edge leads to, from row `row` (R340, R341); none for an XSEL that names no port. -/
def edgePort (m : Move) (row xsel : Nat) : Option Nat :=
  match m with
  | .west => if xsel < 2 then some (0x420 + xsel) else if xsel = 2 then some 0x470 else if xsel = 3 then some (0x440 + 2 * row) else none
  | .east => if xsel < 2 then some (0x422 + xsel) else if xsel = 2 then some 0x471 else if xsel = 3 then some (0x441 + 2 * row) else none
  | .north => if xsel < 4 then some (0x428 + xsel) else if xsel < 8 then some (0x400 + (xsel - 4)) else none
  | .south => if xsel < 4 then some (0x42C + xsel) else if xsel < 8 then some (0x404 + (xsel - 4)) else none
  | .seam => if xsel < 16 then some (0x410 + xsel) else none
  | _ => none

/-- The moves of a generated route from (row, col) to the row and column of its target, in the order of R342. -/
def routeMoves (row col trow tcol : Nat) : List Nat :=
  let west := if tcol < col then (List.range (col - tcol)).map (fun i => if col - i = 16 then 7 else 3) else []
  let east := if col < tcol then (List.range (tcol - col)).map (fun i => if col + i = 15 then 7 else 1) else []
  west ++ List.replicate (row - trow) 0 ++ east ++ List.replicate (trow - row) 2

/-- The generated route to an endpoint, with XSEL; none for an endpoint that no generated route reaches from there. -/
def genRoute (row col ep : Nat) : Option (List Nat × Nat) :=
  if ep < 768 then some (routeMoves row col (ep / 32) (ep % 32) ++ [4], 0)
  else if 0x400 ≤ ep ∧ ep < 0x404 then some (routeMoves row col 0 col ++ [0], ep - 0x400 + 4)
  else if 0x404 ≤ ep ∧ ep < 0x408 then some (routeMoves row col 23 col ++ [2], ep - 0x404 + 4)
  else if 0x428 ≤ ep ∧ ep < 0x42C then some (routeMoves row col 0 col ++ [0], ep - 0x428)
  else if 0x42C ≤ ep ∧ ep < 0x430 then some (routeMoves row col 23 col ++ [2], ep - 0x42C)
  else if ep = 0x420 ∨ ep = 0x421 then some (routeMoves row col row 0 ++ [3], ep - 0x420)
  else if ep = 0x470 then some (routeMoves row col row 0 ++ [3], 2)
  else if ep = 0x422 ∨ ep = 0x423 then some (routeMoves row col row 31 ++ [1], ep - 0x422)
  else if ep = 0x471 then some (routeMoves row col row 31 ++ [1], 2)
  else if 0x410 ≤ ep ∧ ep < 0x420 then
    some (routeMoves row col row (if col < 16 then 15 else 16) ++ [if col < 16 then 1 else 3], ep - 0x410)
  else if 0x440 ≤ ep ∧ ep < 0x470 ∧ row = (ep - 0x440) / 2 then
    some (if ep % 2 = 0 then routeMoves row col row 0 ++ [3] else routeMoves row col row 31 ++ [1], 3)
  else none

/-- The column of the ingress position of port `p` of an edge with four (R519). -/
def portCol (p : Nat) : Nat := ([4, 12, 19, 27][p % 4]?).getD 4

/-- The row and column of an endpoint: a loom's own; of an endpoint at an edge, where its port stands on that edge (DEDUCED, log entry 134). -/
def epPos (ep : Nat) : Nat × Nat :=
  if ep < 768 then (ep / 32, ep % 32)
  else if 0x440 ≤ ep ∧ ep < 0x470 then ((ep - 0x440) / 2, if ep % 2 = 0 then 0 else 31)
  else if 0x410 ≤ ep ∧ ep < 0x420 then (3 * ((ep - 0x410) % 8), if ep < 0x418 then 15 else 16)
  else if (0x400 ≤ ep ∧ ep < 0x404) ∨ (0x428 ≤ ep ∧ ep < 0x42C) then (0, portCol ep)
  else if (0x404 ≤ ep ∧ ep < 0x408) ∨ (0x42C ≤ ep ∧ ep < 0x430) then (23, portCol ep)
  else (0, if ep = 0x422 ∨ ep = 0x423 ∨ ep = 0x471 then 31 else 0)

/-- The logical position at which traffic of an endpoint to endpoint `ep` enters the mesh; a loom's own position (R340, R342). -/
def entryPos (src ep : Nat) : Nat × Nat :=
  let r := (epPos ep).1
  let c := (epPos ep).2
  if src < 768 then (src / 32, src % 32)
  else if src = 0x420 ∨ src = 0x421 ∨ src = 0x470 ∨ (0x440 ≤ src ∧ src < 0x470 ∧ src % 2 = 0) then (r, 0)
  else if src = 0x422 ∨ src = 0x423 ∨ src = 0x471 ∨ (0x440 ≤ src ∧ src < 0x470) then (r, 31)
  else if (0x400 ≤ src ∧ src < 0x404) ∨ (0x428 ≤ src ∧ src < 0x42C) then (0, c)
  else if (0x404 ≤ src ∧ src < 0x408) ∨ (0x42C ≤ src ∧ src < 0x430) then (23, c)
  else (r, if c < 16 then 15 else 16)

/-- The mesh column at which traffic of endpoint `src` enters the mesh on its way to logical position (row, col) (R340): the ends of the row,
the two sides of the seam, or on the north and south edges the site of the column (where it has none, the one of its own number, log entry
112). -/
def entryMesh (s : State) (src row col : Nat) : Nat :=
  if src = 0x420 ∨ src = 0x421 ∨ src = 0x470 ∨ (0x440 ≤ src ∧ src < 0x470 ∧ src % 2 = 0) then 0
  else if src = 0x422 ∨ src = 0x423 ∨ src = 0x471 ∨ (0x440 ≤ src ∧ src < 0x470) then 33
  else if 0x410 ≤ src ∧ src < 0x420 then (if col < 16 then 16 else 17)
  else (meshOf s row col).getD (meshCol col (col % 16))

/-- Where a packet of an edge endpoint starts: the router that it enters at, and the logical column that it goes to there. -/
def entryAt (s : State) (src : Nat) (pos : Nat × Nat) : List Nat := [pos.1 * 34 + entryMesh s src pos.1 pos.2, pos.2]

/-- Hop codes as the HOPS field. -/
def hopsNat (cs : List Nat) : Nat := (cs.zip (List.range cs.length)).foldl (fun n c => n + c.1 % 8 * 2 ^ (3 * c.2)) 0

/-! ## Headers (R336) -/

/-- A header as its source forms it: HPTR is 0. -/
structure Head where
  hops : Nat
  hend : Nat
  sep : Nat
  spkg : Nat
  tag : Nat
  part : Nat
  dpkg : Nat
  remote : Bool
  len : Nat
  cls : Nat
  xsel : Nat
  deriving DecidableEq, Repr

/-- The HEAD flit. -/
def headFlit (h : Head) : Nat :=
  h.hops % 2 ^ 192 + h.hend % 128 * 2 ^ 199 + h.spkg % 16 * 2 ^ 206 + h.sep % 2 ^ 11 * 2 ^ 210 + h.tag % 2 ^ 11 * 2 ^ 221
    + h.part % 32 * 2 ^ 232 + h.dpkg % 16 * 2 ^ 237 + h.remote.toNat * 2 ^ 241 + h.len % 128 * 2 ^ 242 + h.cls % 8 * 2 ^ 249
    + h.xsel % 16 * 2 ^ 252

/-- Header fields. -/
def hdrHptr (h : Nat) : Nat := bits h 198 192
/-- Where the copy's path ends. -/
def hdrHend (h : Nat) : Nat := bits h 205 199
/-- Source package. -/
def hdrSpkg (h : Nat) : Nat := bits h 209 206
/-- Source endpoint. -/
def hdrSep (h : Nat) : Nat := bits h 220 210
/-- Tag of the sender. -/
def hdrPart (h : Nat) : Nat := bits h 236 232
/-- Destination package. -/
def hdrDpkg (h : Nat) : Nat := bits h 240 237
/-- Payload flits. -/
def hdrFlits (h : Nat) : Nat := bits h 248 242
/-- Class. -/
def hdrClass (h : Nat) : Nat := bits h 251 249
/-- Edge-port selector. -/
def hdrXsel (h : Nat) : Nat := bits h 255 252

/-- The most payload flits of a class on a virtual channel; none for a reserved class (R334). -/
def classMax (vc cls : Nat) : Option Nat :=
  if vc = 0 then (if cls = 0 then some 4 else if cls = 1 then some 1 else none)
  else if vc = 1 then
    (if cls = 0 then some 64 else if cls = 1 ∨ cls = 2 then some 1 else if cls = 3 then some 2 else if cls ≤ 6 then some 1 else none)
  else if cls ≤ 1 then some 8 else none

/-! ## Flits (R333, R335) -/

/-- TYPE codes. -/
abbrev tyHead : Nat := 0
abbrev tyBody : Nat := 1
abbrev tyTail : Nat := 2
abbrev tyOnly : Nat := 3

/-- The CRC-16 of a flit: over its data bits from 255 down, then sideband bits [4:0] and [25:21], each from the highest down. -/
def flitCrc (data side : Nat) : Nat :=
  let down := fun (x hi n : Nat) => (List.range n).map (fun i => bit x (hi - i))
  (down data 255 256 ++ down side 4 5 ++ down side 25 5).foldl (crcBit 16 0x1021) 0xFFFF

/-- A flit's 26 sideband bits: its channel and TYPE, ABORT, the OFF bits of the opposite direction, VALID, and the CRC. -/
def sideband (data vc ty : Nat) (abort : Bool) (off : Nat) : Nat :=
  let x := vc % 4 + ty % 4 * 4 + abort.toNat * 16 + off % 16 * 2 ^ 21 + 2 ^ 25
  x + flitCrc data x * 32

/-- A flit as one number: its data with the sideband above. -/
def flit (data vc ty : Nat) (abort : Bool) (off : Nat) : Nat := data + sideband data vc ty abort off * 2 ^ 256

/-- The flits of a packet, its header and its payload; `abort` marks the last one. -/
def packetFlits (vc off head : Nat) (payload : List Nat) (abort : Bool) : List Nat :=
  if payload.isEmpty then [flit head vc tyOnly abort off]
  else flit head vc tyHead false off :: (payload.zip (List.range payload.length)).map (fun p =>
    let last := decide (p.2 + 1 = payload.length)
    flit p.1 vc (if last then tyTail else tyBody) (last && abort) off)

/-- 64-bit words as flits, four to a flit, word 0 lowest; `pad` fills the last one. -/
def wordFlits (ws : List Nat) (pad : Nat) : List Nat :=
  (List.range ((ws.length + 3) / 4)).map (fun i =>
    (List.range 4).foldl (fun n j => n + (ws[4 * i + j]?).getD pad % 2 ^ 64 * 2 ^ (64 * j)) 0)

/-- Bytes as flits of 32. -/
def byteFlits (d : List Byte) : List Nat := (List.range ((d.length + 31) / 32)).map (fun i => leNat ((d.drop (32 * i)).take 32))

/-- The PAD word of a STREAM packet. -/
abbrev padWord : Nat := 0xB * 2 ^ 60

/-! ## Packets that a loom's interface injects (R342, R352, R519) -/

/-- The OFF bits that the interface of loom `l` shows its router: VC0 while it withholds credits (R108, R344). -/
def niOff (s : State) (l : Nat) : Nat := if (loom s l).dqWaits.isEmpty then 0 else 1

/-- HOPS, HEND and XSEL of the path with the codes `cs`. -/
def pathOf (cs : List Nat) (xsel : Nat) : Nat × Nat × Nat := (hopsNat cs, cs.length, xsel)

/-- HOPS, HEND and XSEL of a generated route from endpoint `src` to endpoint `ep` of package `dpkg`: codes in the own package; towards
another one HOPS[10:0] is the target endpoint, from which the ingress port there makes the route (R519, log entry 108). -/
def genPath (s : State) (src dpkg ep : Nat) : Nat × Nat × Nat :=
  if dpkg = selfPkg s then
    let p := entryPos src ep
    match genRoute p.1 p.2 ep with
    | some r => pathOf r.1 r.2
    | none => pathOf [] 0
  else (ep, 0, 0)

/-- The endpoint of a block that takes part in the fabric (R341). -/
def blockEp (b : Nat) : Nat :=
  match kindOf b with
  | some .loom => b - bLoom 0
  | some .reed => 0x400 + (b - bReed 0)
  | some .hub => 0x410 + (b - bHub 0)
  | some .hbmc => 0x420 + (b - bHbmc 0)
  | some .glimmer => 0x428 + (b - bGlimmer 0)
  | some .shuttle => let k := b - bShuttle 0; if k < 48 then 0x440 + k else if k < 56 then 0x470 else 0x471
  | some .hostport => 0x471
  | _ => 0x470

/-- The header of a packet that endpoint `src` sends under tag `part`. On the way to another package it leaves through the port that the
package route table names. -/
def headOf (s : State) (src part cls tag dpkg len : Nat) (path : Nat × Nat × Nat) : Head where
  hops := path.1
  hend := path.2.1
  sep := src
  spkg := selfPkg s
  tag := tag
  part := part
  dpkg := dpkg
  remote := dpkg != selfPkg s
  len := len
  cls := cls
  xsel := if dpkg = selfPkg s then path.2.2 else (pkgRoute s dpkg).getD 0 % 4

/-- Injects a packet at loom `l`. One for a package without a valid egress entry is not sent, and LOOM_NIBADPKT counts it; the closed port
of an isolated site takes none (R355). -/
def niSend (s : State) (l dpkg : Nat) (k : MsgKind) (args : List Nat) : State :=
  if dpkg ≠ selfPkg s ∧ (pkgRoute s dpkg).isNone then inc s (bLoom l) F.LOOM_NIBADPKT_COUNT
  else if isolated s l then s
  else send (inc s (bLoom l) F.LOOM_NIPKTTX_COUNT) k (bLoom l) args

/-- The flits of a packet that loom `l` injects. -/
def niFlits (s : State) (l vc cls tag dpkg : Nat) (path : Nat × Nat × Nat) (payload : List Nat) : List Nat :=
  packetFlits vc (niOff s l) (headFlit (headOf s l (rd s (bLoom l) F.OWNER_PART) cls tag dpkg payload.length path)) payload false

/-- A packet of loom `l` on a generated route, whose payload's layout the manual does not give: its HEAD flit, and what `len` payload flits
say (log entry 109). -/
def niFields (s : State) (l vc cls ep len : Nat) (fields : List Nat) : List Nat :=
  flit (headFlit (headOf s l (rd s (bLoom l) F.OWNER_PART) cls 0 (selfPkg s) len (genPath s l (selfPkg s) ep))) vc tyHead false (niOff s l)
    :: fields

/-- A packet of an edge endpoint to loom `l` under tag `part`, likewise, after the router and column that it enters at. -/
def edgeFields (s : State) (src part l vc cls len : Nat) (fields : List Nat) : List Nat :=
  entryAt s src (entryPos src l) ++ flit (headFlit (headOf s src part cls 0 (selfPkg s) len (genPath s src (selfPkg s) l))) vc tyHead false 0 :: fields

/-- Injects a packet of endpoint `src` under tag `part` from block `b`, which enters the mesh at logical position `pos`, or on its way to
another package where the egress port's traffic does; one for a package without a valid egress entry is not sent. -/
def edgeSend (s : State) (b src part vc cls tag dpkg : Nat) (k : MsgKind) (pos : Nat × Nat) (path : Nat × Nat × Nat) (payload : List Nat) :
    State :=
  if dpkg ≠ selfPkg s ∧ (pkgRoute s dpkg).isNone then s
  else send s k b (entryAt s src (if dpkg = selfPkg s then pos else entryPos src (0x428 + (pkgRoute s dpkg).getD 0)) ++ packetFlits vc 0 (headFlit (headOf s src part cls tag dpkg payload.length path)) payload false)

/-! ## Selvedge packets (R55, R363, R365) -/

/-- A REG packet: its header, the tag and custody source, the address in the control region, and the data of a write. -/
def regPacket (src tag source addr : Nat) (data : List Nat) : List Nat :=
  selvHeader scReg false (addr / 65536) src (2 + data.length) :: (tag % 32 + source % 4 * 32) :: addr :: data

/-- The CRC-8 of a selvedge packet: its words in order, each from its highest bit down (log entry 111). -/
def selvCrc (ws : List Word) : Nat :=
  (ws.flatMap (fun w => (List.range 32).map (fun i => bit w.toNat (31 - i)))).foldl (crcBit 8 0x07) Config.selvInit.toNat

end Sys2Proof.Machine
end

