-- ==== Sys2Proof/Machine/Sha.lean ====
section
/-!
DEFINITION. SHA-256 and SHA-512 as in FIPS 180-4 (R201, R266, R550), HMAC and HKDF over SHA-512 (R554, R491). The ciphers and
signatures of the security chapter are Config.crypto and Config.verifies.
-/

namespace Sys2Proof.Machine

/-! ## The hash functions of FIPS 180-4: one engine over words of a kind -/

/-- A big-endian word of bytes. -/
def beNat (bs : List Byte) : Nat := bs.foldl (fun n b => n * 256 + b.toNat) 0
/-- `n` bytes, most significant first. -/
def beBytes (n x : Nat) : List Byte := (leBytes n x).reverse

/-- Three distances: two rotations, and a third one that is a shift in the schedule and a rotation in a round. -/
structure Dist where
  i : Nat
  j : Nat
  k : Nat

/-- A hash of the family: bits of a word, rounds, the distances of the schedule and of a round. -/
structure HashKind where
  width : Nat
  rounds : Nat
  old : Dist
  young : Dist
  left : Dist
  right : Dist

/-- SHA-256. -/
def kind256 : HashKind := ⟨32, 64, ⟨7, 18, 3⟩, ⟨17, 19, 10⟩, ⟨2, 13, 22⟩, ⟨6, 11, 25⟩⟩
/-- SHA-512. -/
def kind512 : HashKind := ⟨64, 80, ⟨1, 8, 7⟩, ⟨19, 61, 6⟩, ⟨28, 34, 39⟩, ⟨14, 18, 41⟩⟩

/-- The primes whose roots give the constants. -/
def hashPrimes : List Nat := (List.range 410).filter (fun p => 2 ≤ p && (List.range 21).all (fun d => d < 2 || p ≤ d || p % d != 0))

/-- The largest number below `2 ^ n` whose `e`-th power is at most `x`, bit by bit from the top. -/
def rootBelow (e x : Nat) : Nat → Nat → Nat
  | 0, r => r
  | n + 1, r => rootBelow e x n (if (r + 2 ^ n) ^ e ≤ x then r + 2 ^ n else r)

/-- The first bits of the fraction of the `e`-th root of a prime, as many as a word has. -/
def rootFraction (h : HashKind) (e p : Nat) : Nat := rootBelow e (p * 2 ^ (e * h.width)) (h.width + 5) 0 % 2 ^ h.width

/-- The constants of the rounds: of cube roots. -/
def roundWords (h : HashKind) : List Nat := (hashPrimes.take h.rounds).map (rootFraction h 3)

/-- The hash value of no block: of square roots. -/
def firstValue (h : HashKind) : List Nat := (hashPrimes.take 8).map (rootFraction h 2)

/-- A word turned right by `n` bits. -/
def turn (h : HashKind) (x n : Nat) : Nat := x / 2 ^ n + x % 2 ^ n * 2 ^ (h.width - n)

/-- The three turns of a word in a round, added without carry. -/
def turns (h : HashKind) (d : Dist) (x : Nat) : Nat := turn h x d.i ^^^ turn h x d.j ^^^ turn h x d.k

/-- The same in the schedule, where the third is a shift. -/
def mixes (h : HashKind) (d : Dist) (x : Nat) : Nat := turn h x d.i ^^^ turn h x d.j ^^^ (x / 2 ^ d.k)

/-- The rounds of one block: the 16 words of the schedule that come next, the oldest first, move on by one word a round. -/
def hashRounds (h : HashKind) : List Nat → List Nat → List Nat → List Nat
  | [], _, v => v
  | c :: cs, w, v =>
    let x := fun (i : Nat) => v.getD i 0
    let y := fun (i : Nat) => w.getD i 0
    let one := x 7 + turns h h.right (x 4) + (x 6 ^^^ (x 4 &&& (x 5 ^^^ x 6))) + c + y 0
    let two := turns h h.left (x 0) + ((x 0 &&& x 1) ||| (x 2 &&& (x 0 ||| x 1)))
    let next := (mixes h h.young (y 14) + y 9 + mixes h h.old (y 1) + y 0) % 2 ^ h.width
    hashRounds h cs (w.drop 1 ++ [next])
      ((one + two) % 2 ^ h.width :: v.take 3 ++ (x 3 + one) % 2 ^ h.width :: (v.drop 4).take 3)

/-- The words of a block of bytes. -/
def blockWords (h : HashKind) (bs : List Byte) : List Nat :=
  (List.range 16).map (fun i => beNat ((bs.drop (i * (h.width / 8))).take (h.width / 8)))

/-- One block is taken into a hash value. -/
def hashBlock (h : HashKind) (cs v : List Nat) (bs : List Byte) : List Nat :=
  List.zipWith (fun a b => (a + b) % 2 ^ h.width) v (hashRounds h cs (blockWords h bs) v)

/-- The digest of bytes: a 1 bit, zeros and the length in bits in two words fill the last block. -/
def digest (h : HashKind) (msg : List Byte) : List Byte :=
  let w := h.width / 8
  let used := msg.length + 1 + 2 * w
  let whole := msg ++ 0x80 :: List.replicate ((16 * w - used % (16 * w)) % (16 * w)) 0 ++ beBytes (2 * w) (8 * msg.length)
  let cs := roundWords h
  ((List.range (whole.length / (16 * w))).foldl (fun v i => hashBlock h cs v ((whole.drop (16 * w * i)).take (16 * w)))
    (firstValue h)).flatMap (beBytes w)

/-- SHA-256 of bytes. -/
def sha256 (msg : List Byte) : List Byte := digest kind256 msg

/-- SHA-512 of bytes, which Lantern uses (R550). -/
def sha512 (msg : List Byte) : List Byte := digest kind512 msg

/-- HMAC with SHA-512, for keys of at most 128 bytes. -/
def hmac512 (key msg : List Byte) : List Byte :=
  let k := padTo 128 key
  sha512 (k.map (· ^^^ 0x5C) ++ sha512 (k.map (· ^^^ 0x36) ++ msg))

/-- HKDF-Expand over SHA-512 for at most 64 bytes. -/
def hkdfExpand (prk info : List Byte) (n : Nat) : List Byte := (hmac512 prk (info ++ [1])).take n

/-- HKDF over SHA-512 for at most 64 bytes. -/
def hkdf512 (ikm salt info : List Byte) (n : Nat) : List Byte :=
  hkdfExpand (hmac512 (if salt.isEmpty then List.replicate 64 0 else salt) ikm) info n

/-! ## The algorithms named by reference only (log entry 4): numbers for Config.crypto and Config.verifies -/

/-- AES-256-GCM: encryption gives text and tag, decryption gives text. -/
abbrev algGcmSeal : Nat := 1
abbrev algGcmOpen : Nat := 2
/-- Signatures. -/
abbrev algEd25519 : Nat := 3
abbrev algMlDsa : Nat := 4
/-- ML-KEM-768 decapsulation, ECDH over secp384r1. -/
abbrev algMlKem : Nat := 5
abbrev algEcdh : Nat := 6
/-- The block cipher AES-256, and AES-256-GMAC over the IV and the authenticated data. -/
abbrev algAes : Nat := 7
abbrev algGmac : Nat := 8

/-- Bytes of a text in ASCII. -/
def ascii (t : String) : List Byte := t.toList.map (fun c => BitVec.ofNat 8 c.toNat)

end Sys2Proof.Machine
end

