-- ==== Sys2Proof/Machine/Hbm.lean ====
section
/-!
DEFINITION. HBM and MEMCRYPT (chapter 13): interleave, regions, lines with their keys and poison, requests by RSEQ, region
entries, wipes, scrub.
-/

namespace Sys2Proof.Machine

/-! ## Interleave (R435, R449) -/

/-- Usable HBM: 45 GiB (R37). -/
abbrev hbmSize : Nat := 0xB40000000
/-- The pseudo-channel of an address. -/
def hbmPc (a : Nat) : Nat := (bits a 13 8 ^^^ bits a 19 14) ^^^ bits a 25 20
/-- Its controller: p[5:4]. -/
def hbmCtl (a : Nat) : Nat := hbmPc a / 16 % 4
/-- The offset within the pseudo-channel. -/
def hbmOffset (a : Nat) : Nat := a / 2 ^ 14 * 256 + a % 256
/-- Line `k` of pseudo-channel `p`: its address, by the inverse of the map (R435). -/
def lineOf (p k : Nat) : Nat :=
  let q := k / 2
  q * 2 ^ 14 + ((p ^^^ bits q 5 0) ^^^ bits q 11 6) * 256 + k % 2 * 128
/-- Where the carve-out of each pseudo-channel starts (R436). -/
abbrev hbmCarve : Nat := 720 * 2 ^ 20
/-- The lines of a pseudo-channel. -/
abbrev pcLines : Nat := 5898240
/-- Where the tag of the line at `a` lies in the line's pseudo-channel (R436). -/
def tagOffset (a : Nat) : Nat := hbmCarve + 8 * (hbmOffset a / 128)
/-- The controller's block. -/
def hbmBlk (a : Nat) : Nat := bHbmc (hbmCtl a)

/-- Changes the memory system. -/
def modMem (s : State) (f : MemSt → MemSt) : State := { s with mem := f s.mem }

/-- One look-up of the tag line that covers the line at `a`, least recently used replacement of 8 ways. -/
def tagTouch (s : State) (a : Nat) : State :=
  let k := hbmOffset a / 128 / 8
  let set := hbmCtl a * 512 + k % 512
  let line := hbmPc a * 2 ^ 20 + k
  let ways := tabGet [] s.mem.tags set
  let hit := ways.contains line
  let ways := ways.filter (fun x => x != line) ++ [line]
  let s := modMem s (fun m => { m with tags := tabSet [] m.tags set (ways.drop (ways.length - 8)) })
  inc s (hbmBlk a) (if hit then F.HBMC_TAGHIT_COUNT else F.HBMC_TAGMISS_COUNT)

/-! ## Regions (R443 to R445) -/

/-- The status codes of R438. -/
abbrev hOk : Nat := 0
abbrev hDecode : Nat := 1
abbrev hPartition : Nat := 2
abbrev hMemerr : Nat := 3
abbrev hIntegrity : Nat := 4
abbrev hWiping : Nat := 5
abbrev hResend : Nat := 6

/-- Installed entry `i`. -/
def region (s : State) (i : Nat) : Region := tabGet Region.reset s.mem.regions i
/-- It covers the address. -/
def Region.covers (r : Region) (a : Nat) : Bool := r.valid && r.base * 2 ^ 21 ≤ a && a < (r.base + r.size) * 2 ^ 21
/-- The VALID entry that covers an address. -/
def regionAt (s : State) (a : Nat) : Option Nat := (List.range 64).find? (fun i => (region s i).covers a)
/-- Which regions a tag reaches. -/
def Region.reach (r : Region) (tag : Nat) : Bool :=
  if tag = 0x1E then true
  else if tag = 0x1F then (r.part = 0x1F && r.kind = 0) || (r.devacc && r.part < 16)
  else r.part = tag && r.kind = 0

/-- The status an access of a tag meets at an address before the line is touched. -/
def hbmCheck (s : State) (tag a n : Nat) : Nat :=
  if hbmSize < a + n then hDecode
  else match regionAt s a with
    | none => hPartition
    | some i =>
      if !(region s i).reach tag then hPartition
      else if tabGet 0 s.mem.rstate i = 1 then hWiping else hOk

/-- The tag a key slot belongs to, if any: a pool slot may be a partition's or the device's. -/
def slotTag (s : State) (k : Nat) : Option Nat :=
  if k = 0 then some 0x1F
  else if k ≤ 16 then some (k - 1)
  else match tabGet 0 s.mem.pool k with
    | 0 => none
    | t + 1 => some t

/-- Whether slot `k` is loaded. -/
def slotLoaded (s : State) (k : Nat) : Bool := bit (regGet s bMemcrypt F.MC_KEYLOADED_SLOTS.off 0).toNat k

/-- Loads a slot from a fresh key, the next free value: KEYGEN grows by 1. -/
def slotLoad (s : State) (k : Nat) : State :=
  let s := wr s bMemcrypt F.MC_KEYLOADED_SLOTS ((rd s bMemcrypt F.MC_KEYLOADED_SLOTS) ||| 2 ^ k)
  let g := (tabGet 0 s.mem.keygen k + 1) % 65536
  let draw := s.free
  modMem (drawFree s).2 (fun m => { m with
    keygen := tabSet 0 m.keygen k g
    keys := tabSet 0 m.keys k (draw * 65536 + g + 1) })

/-- Unloads a slot; a pool slot becomes free. -/
def slotUnload (s : State) (k : Nat) : State :=
  let w := rd s bMemcrypt F.MC_KEYLOADED_SLOTS
  let s := wr s bMemcrypt F.MC_KEYLOADED_SLOTS (if bit w k then w - 2 ^ k else w)
  modMem s (fun m => { m with pool := tabSet 0 m.pool k 0 })

/-- The number of the key a region's lines are written under now. -/
def regionKey (s : State) (i : Nat) : Nat := tabGet 0 s.mem.keys (region s i).slot

/-- The number of the key that the line at `a` stands under: the one it was written under, by a store or by the last wipe; none for a line
that has been under no region's key since all of HBM was wiped (log entry 22). -/
def keyOfLine (s : State) (a : Nat) : Option Nat :=
  match tabGet 0 s.mem.lineKey (a / 128) with
  | 0 => (s.mem.wiped.find? (fun w => w.1 ≤ a / 128 && a / 128 < w.2.1)).map (fun w => w.2.2)
  | k => some k

/-! ## Lines (R441, R442, R450 to R453) -/

/-- A security event of a block (R577): counted by Lantern, recorded in Lamplighter's log. -/
def securityEvent (s : State) (b code : Nat) : State :=
  logEvent (inc s bCustody F.CUSTODY_SECEVENTS_COUNT) b 6 0 code 0

/-- Sets the poison bit of the line at `a`. -/
def poisonSet (s : State) (a : Nat) : State :=
  modMem s (fun m => { m with poison := if m.poison.contains (a / 128) then m.poison else m.poison ++ [a / 128] })

/-- The line at `a` is uncorrectable. -/
def lineUe (s : State) (a : Nat) : State :=
  let b := hbmBlk a
  let s := wrPair (inc (poisonSet s a) b F.HBMC_UE_COUNT) b F.HBMC_UEADDR_LO_ADDR F.HBMC_UEADDR_HI_ADDR (a / 128 * 128)
  latchFault s b 0x0601

/-- The tag of the line at `a` fails. -/
def lineInteg (s : State) (a : Nat) : State :=
  let b := hbmBlk a
  let s := wrPair (inc (poisonSet s a) b F.HBMC_INTEG_COUNT) b F.HBMC_UEADDR_LO_ADDR F.HBMC_UEADDR_HI_ADDR (a / 128 * 128)
  securityEvent (latchFault s b 0x0602) b 0x0602

/-- A corrected error of the line at `a`. -/
def lineCe (s : State) (a : Nat) (scrub : Bool) : State :=
  let b := hbmBlk a
  wrPair (inc s b (if scrub then F.HBMC_SCRUBCE_COUNT else F.HBMC_CE_COUNT)) b F.HBMC_CEADDR_LO_ADDR
    F.HBMC_CEADDR_HI_ADDR (a / 128 * 128)

/-- The line at `a` was written under a key that its region no longer has. -/
def staleKey (s : State) (a : Nat) : Bool :=
  match regionAt s a, keyOfLine s a with
  | some i, some k => k != regionKey s i
  | _, _ => false

/-! ## What the stack holds (R445 to R447) -/

/-- The key of a number of MemSt.keys: 64 bytes for XTS, then 32 for GMAC. -/
def memKey (k : Nat) : List Byte := leBytes 96 (Config.freeNat ((k - 1) / 65536))

/-- AES-256 on one block of 16 bytes. -/
def aes256 (key block : List Byte) : List Byte := padTo 16 (Config.crypto algAes key block)

/-- A tweak times the generator of GF(2¹²⁸), least significant bit first. -/
def tweakNext (t : Nat) : Nat := (t * 2 % 2 ^ 128) ^^^ (if bit t 127 then 0x87 else 0)

/-- XTS over `n` whole blocks: each is masked by its tweak before and after the cipher under the first half of the key. -/
def xtsBlocks (key : List Byte) : Nat → Nat → List Byte → List Byte
  | 0, _, _ => []
  | n + 1, t, d =>
    let mask := leBytes 16 t
    let c := aes256 (key.take 32) (List.zipWith (· ^^^ ·) (d.take 16) mask)
    List.zipWith (· ^^^ ·) c mask ++ xtsBlocks key n (tweakNext t) (d.drop 16)

/-- AES-256-XTS of the data unit `unit`: its number as a 128-bit little-endian integer, under the second half of the key, is the first
tweak (R446). -/
def xts (key : List Byte) (unit : Nat) (d : List Byte) : List Byte :=
  xtsBlocks key (d.length / 16) (leNat (aes256 ((key.drop 32).take 32) (leBytes 16 unit))) d

/-- The ciphertext of the line at `a`, of 128 bytes, as the stack holds it; none for a line of no key. -/
def lineCipher (s : State) (a : Nat) : Option (List Byte) :=
  (keyOfLine s a).map (fun k => xts ((memKey k).take 64) (a / 128) (tabGetRun 0 s.mem.hbm (a / 128 * 128) 128))

/-- The tag of the line at `a` (R447): 8 bytes of GMAC over the ciphertext and A, with A[47:7] and KEYGEN in the IV. -/
def lineTag (s : State) (a : Nat) : Option (List Byte) :=
  match keyOfLine s a, lineCipher s a with
  | some k, some c => some (padTo 8 (Config.crypto algGmac ((memKey k).drop 64)
      (leBytes 12 (a / 128 + (k - 1) % 65536 * 2 ^ 80) ++ c ++ leBytes 8 (a / 128 * 128))))
  | _, _ => none

/-- The carve-out of pseudo-channel `p` at an offset of its tag area: the tag of the line whose tag lies there (R436). -/
def carveTag (s : State) (p off : Nat) : Option (List Byte) :=
  let k := (off - hbmCarve) / 8
  if hbmCarve ≤ off ∧ k < pcLines then lineTag s (lineOf p k) else none

/-- The mark of the line at `a`. -/
def lineMark (s : State) (a : Nat) : LineRead := tabGet .clean s.mem.marks (a / 128)

/-- Sets it. -/
def setMark (s : State) (a : Nat) (x : LineRead) : State := modMem s (fun m => { m with marks := tabSet .clean m.marks (a / 128) x })

/-- What has happened in the stack to lines of HBM, as a row tells it. -/
def memMarks (s : State) (marks : LineMarks) : State :=
  forEach marks (fun x s => if x.1.toNat < hbmSize then setMark s x.1.toNat x.2 else s) s

/-- The line has been read with a code that passes: its tag is checked. -/
def lineTagged (s : State) (a : Nat) (bad : Bool) : Nat × State :=
  if bad || staleKey s a then (hIntegrity, lineInteg s a) else (hOk, s)

/-- Reads the line at `a` from the stack; a corrected line is written back corrected (R450). -/
def lineRead (s : State) (a : Nat) (scrub : Bool) : Nat × State :=
  if s.mem.poison.contains (a / 128) then (hMemerr, s)
  else
    let s := tagTouch (if scrub then s else inc s (hbmBlk a) F.HBMC_READS_COUNT) a
    match lineMark s a with
    | .uncorrectable => (hMemerr, lineUe s a)
    | .badTag => lineTagged s a true
    | .corrected => lineTagged (setMark (lineCe s a scrub) a .clean) a false
    | .correctedBadTag => lineTagged (setMark (lineCe s a scrub) a .badTag) a true
    | .clean => lineTagged s a false

/-- Stores bytes of one line at `a`, which lies in region `i`: the whole line is encrypted and tagged anew. -/
def lineStore (s : State) (i a : Nat) (d : List Byte) : State :=
  let s := modMem (setMark s a .clean) (fun m => { m with
    hbm := tabSetRun 0 m.hbm a d
    lineKey := tabSet 0 m.lineKey (a / 128) (regionKey s i) })
  inc s (hbmBlk a) F.HBMC_WRITES_COUNT

/-- Writes bytes of one line at `a`: a whole line directly, less by read-modify-write. -/
def lineWrite (s : State) (a : Nat) (d : List Byte) : Nat × State :=
  match regionAt s a with
  | none => (hPartition, s)
  | some i =>
    if d.length = 128 ∧ a % 128 = 0 then
      let s := modMem s (fun m => { m with poison := m.poison.filter (fun x => x != a / 128) })
      (hOk, tagTouch (lineStore s i a d) a)
    else
      let r := lineRead s a false
      if r.1 = hOk then (hOk, lineStore r.2 i a d) else r

/-- The pieces of [a, a + n) by line: address and length. -/
def linePieces (a n : Nat) : List (Nat × Nat) :=
  if n = 0 then []
  else (List.range ((a + n - 1) / 128 + 1 - a / 128)).map (fun k =>
    let lo := max a ((a / 128 + k) * 128)
    (lo, min (a + n) ((a / 128 + k) * 128 + 128) - lo))

/-- An access of one granule refused before its lines are touched. -/
def hbmRefused (s : State) (a st : Nat) : State :=
  if st = hPartition then inc s (hbmBlk a) F.HBMC_PARTREFUSE_COUNT else s

/-- Reads [a, a + n), within one granule, for a tag: the status and the bytes. -/
def hbmRead (s : State) (tag a n : Nat) : Nat × List Byte × State :=
  let st := hbmCheck s tag a n
  if st ≠ hOk then (st, [], hbmRefused s a st)
  else
    let r := (linePieces a n).foldl (fun (p : Nat × State) x =>
      if p.1 ≠ hOk then p else lineRead p.2 x.1 false) (hOk, s)
    (r.1, if r.1 = hOk then tabGetRun 0 r.2.mem.hbm a n else [], r.2)

/-- Writes bytes within one granule for a tag. -/
def hbmWrite (s : State) (tag a : Nat) (d : List Byte) : Nat × State :=
  let st := hbmCheck s tag a d.length
  if st ≠ hOk then (st, hbmRefused s a st)
  else (linePieces a d.length).foldl (fun (p : Nat × State) x =>
    if p.1 ≠ hOk then p else lineWrite p.2 x.1 ((d.drop (x.1 - a)).take x.2)) (hOk, s)

/-- The pieces of [a, a + n) by granule of 256 bytes. -/
def granules (a n : Nat) : List (Nat × Nat) :=
  if n = 0 then []
  else (List.range ((a + n - 1) / 256 + 1 - a / 256)).map (fun k =>
    let lo := max a ((a / 256 + k) * 256)
    (lo, min (a + n) ((a / 256 + k) * 256 + 256) - lo))

/-! ## A requester's own accesses

Blocks whose accesses to HBM are part of a larger step make each request and take its response in that step: the request has the number that
its window gives it, and arrives in its turn. Where a controller is in reset the request is sent again until it is answered (R439, R456); a
row of a shuttle's or of the pick log waits for it, and every other is performed as if it had been (log entry 136). -/

/-- The controllers of [a, a + n) answer. -/
def memUp (s : State) (a n : Nat) : Bool :=
  if hbmSize < a + n then true
  else if 2 ^ 14 ≤ n then (List.range 4).all (fun c => rdB s (bHbmc c) F.STATE_READY)
  else (granules a n).all (fun g => rdB s (hbmBlk g.1) F.STATE_READY)

/-- A requester's window towards a controller. -/
def hbmTx (s : State) (req c : Nat) : HbmTx := tabGet HbmTx.reset s.mem.tx (req * 4 + c)
/-- Sets it. -/
def setHbmTx (s : State) (req c : Nat) (x : HbmTx) : State :=
  modMem s (fun m => { m with tx := tabSet HbmTx.reset m.tx (req * 4 + c) x })

/-- A request of block `req` towards the controller of `a` is numbered, accepted in its turn and answered. -/
def hbmTurn (s : State) (req a : Nat) : State :=
  let c := hbmCtl a
  let x := hbmTx s req c
  if tabGet 0 s.mem.expect (c * 4096 + req) = x.next then
    modMem (setHbmTx s req c { x with next := (x.next + 1) % 4096 }) (fun m => { m with
      expect := tabSet 0 m.expect (c * 4096 + req) ((x.next + 1) % 4096) })
  else s

/-- Reads any run of bytes for block `req`; stops at the first failure: status, address reached, bytes. -/
def hbmReadRun (s : State) (req tag a n : Nat) : Nat × Nat × List Byte × State :=
  (granules a n).foldl (fun (p : Nat × Nat × List Byte × State) x =>
    if p.1 ≠ hOk then p
    else
      let r := hbmRead (hbmTurn p.2.2.2 req x.1) tag x.1 x.2
      if r.1 = hOk then (hOk, x.1 + x.2, p.2.2.1 ++ r.2.1, r.2.2) else (r.1, x.1, p.2.2.1, r.2.2)) (hOk, a, [], s)

/-- Writes any run of bytes for block `req`; stops at the first failure. -/
def hbmWriteRun (s : State) (req tag a : Nat) (d : List Byte) : Nat × Nat × State :=
  (granules a d.length).foldl (fun (p : Nat × Nat × State) x =>
    if p.1 ≠ hOk then p
    else
      let r := hbmWrite (hbmTurn p.2.2 req x.1) tag x.1 ((d.drop (x.1 - a)).take x.2)
      if r.1 = hOk then (hOk, x.1 + x.2, r.2) else (r.1, x.1, r.2)) (hOk, a, s)

/-! ## Requests (R437 to R439) -/

/-- Bytes of a SIZE code; 0 for a reserved one. -/
def hbmBytes (size : Nat) : Nat :=
  if size = 0 then 4 else if size = 1 then 8 else if size = 2 then 32 else if size = 3 then 64
  else if size = 4 then 128 else if size = 5 then 256 else 0

/-- HOPS bits [191:128] of a memory packet. -/
def memWord (a size st rseq : Nat) : Nat := a / 4 % 2 ^ 46 + size % 8 * 2 ^ 46 + st % 8 * 2 ^ 49 + rseq % 4096 * 2 ^ 52

/-- A generated path, whose codes stay below HOPS bit 128, with the memory word. -/
def memPath (p : Nat × Nat × Nat) (w : Nat) : Nat × Nat × Nat := (p.1 % 2 ^ 128 + w * 2 ^ 128, p.2)

/-- Controller `c` answers requester `req`, a block, under the tag it serves: READRSP or WRITEACK with status, address, size, and the data
of a read that went well. -/
def hbmAnswer (s : State) (req tag : Nat) (write : Bool) (c rseq st a size : Nat) (d : List Byte) : State :=
  let src := blockEp (bHbmc c)
  edgeSend s (bHbmc c) src tag 3 write.toNat 0 (selfPkg s) .hbmRsp (entryPos src (blockEp req))
    (memPath (genPath s src (selfPkg s) (blockEp req)) (memWord a size st rseq)) (byteFlits d)

/-- The payload of a request has the flits that R437 gives it. -/
def payloadOk (write : Bool) (n : Nat) (d : List Byte) : Bool := (d.length + 31) / 32 = (if write then (n + 31) / 32 else 0)

/-- Performs an accepted request. Its response is sent in the same step, so no pseudo-channel ever holds 512 of them (R440, log entry 137). -/
def hbmPerform (s : State) (req tag rseq : Nat) (write : Bool) (a size : Nat) (d : List Byte) : State :=
  let n := hbmBytes size
  let c := hbmCtl a
  if n = 0 ∨ a % n ≠ 0 ∨ !payloadOk write n d then hbmAnswer s req tag write c rseq hDecode a size []
  else if write then
    let r := hbmWrite s tag a (padTo n d)
    hbmAnswer r.2 req tag write c rseq r.1 a size []
  else
    let r := hbmRead s tag a n
    hbmAnswer r.2.2 req tag write c rseq r.1 a size r.2.1

/-- HBM_REQUEST at the controller of the address: unanswered while the controller is not READY (R456). -/
def hbmRequest (s : State) (req tag rseq : Nat) (write : Bool) (a size : Nat) (d : List Byte) : State :=
  let c := hbmCtl a
  if !rdB s (bHbmc c) F.STATE_READY then s
  else
    let key := c * 4096 + req
    let want := tabGet 0 s.mem.expect key
    let delta := (rseq + 4096 - want) % 4096
    if delta = 0 then
      hbmPerform (modMem s (fun m => { m with expect := tabSet 0 m.expect key ((want + 1) % 4096) })) req tag rseq write a
        size d
    else if delta ≤ 2047 then
      if tabGet 0 s.mem.resent key ≠ 0 ∧ ltNow s < tabGet 0 s.mem.resent key - 1 + 1000 then s
      else hbmAnswer (modMem s (fun m => { m with resent := tabSet 0 m.resent key (ltNow s + 1) })) req tag write c want
        hResend a size []
    else
      let s := inc s (bHbmc c) F.HBMC_DUPREQ_COUNT
      if write then hbmAnswer s req tag write c rseq hOk a size [] else hbmPerform s req tag rseq false a size d

/-- The most requests of a requester that a controller may owe an answer. -/
abbrev hbmWindow : Nat := 1024

/-- The interface of a loom, block `req`, sends a numbered request on VC2 under its OWNER's tag (R117, R136, R150, R352). -/
def hbmEmit (s : State) (req : Nat) (q : HbmReq) : State :=
  let l := req - bLoom 0
  let me := selfPkg s
  niSend s l me (if q.write then .hbmWrite else .hbmRead) (niFlits s l 2 q.write.toNat 0 me
    (memPath (genPath s l me (blockEp (hbmBlk q.addr))) (memWord q.addr q.size 0 q.rseq)) (byteFlits q.data))

/-- Sends held requests while the window has room. -/
def hbmFeed (req c : Nat) : Nat → State → State
  | 0, s => s
  | n + 1, s =>
    let x := hbmTx s req c
    match x.held with
    | [] => s
    | q :: rest =>
      if hbmWindow ≤ x.unans.length then s
      else
        let q := { q with rseq := x.next }
        let y : HbmTx := ⟨(x.next + 1) % 4096, x.unans ++ [q], rest⟩
        hbmFeed req c n (hbmEmit (setHbmTx s req c y) req q)

/-- A requester asks for a memory access, on its spill region or not: it is numbered and sent, or held behind the window. -/
def hbmAskAs (s : State) (req : Nat) (write : Bool) (a size : Nat) (d : List Byte) (spill : Bool) : State :=
  let c := hbmCtl a
  let x := hbmTx s req c
  hbmFeed req c 1 (setHbmTx s req c { x with held := x.held ++ [⟨0, write, a, size, d, spill⟩] })

/-- A requester asks for a memory access. -/
def hbmAsk (s : State) (req : Nat) (write : Bool) (a size : Nat) (d : List Byte) : State := hbmAskAs s req write a size d false

/-- HBM_RESPONSE at the requester: matched by RSEQ; a RESEND sends every unanswered request from the expected one on. -/
def hbmResponse (s : State) (req c rseq st : Nat) : State :=
  let x := hbmTx s req c
  if st = hResend then
    let behind := fun (q : HbmReq) => (q.rseq + 4096 - rseq) % 4096 < 2048
    forEach (x.unans.filter behind) (fun q s => hbmEmit s req q) s
  else if x.unans.any (fun q => q.rseq = rseq) then
    hbmFeed req c 1 (setHbmTx s req c { x with unans := x.unans.filter (fun q => q.rseq != rseq) })
  else s

/-- HBM_REQUEST_TIMEOUT: every unanswered request is sent again from the oldest. -/
def hbmTimeout (s : State) (req c : Nat) : State := forEach (hbmTx s req c).unans (fun q s => hbmEmit s req q) s

/-! ## Region entries and wipes (R444, R455) -/

/-- The staged copy of entry `i`. -/
def regionStaged (s : State) (i : Nat) : Region :=
  let b := bMemcrypt
  ⟨rdI s b F.MC_REGDATA0_BASE i, rdI s b F.MC_REGDATA0_SIZE i, rdI s b F.MC_REGDATA1_PART i, rdI s b F.MC_REGDATA1_SLOT i,
    rdI s b F.MC_REGDATA1_KIND i, rdI s b F.MC_REGDATA1_VALID i = 1, rdI s b F.MC_REGDATA1_DEVACC i = 1⟩

/-- Two ranges of units meet. -/
def Region.meets (r q : Region) : Bool := r.base < q.base + q.size && q.base < r.base + r.size

/-- A staged entry that APPLY accepts. -/
def regionOk (s : State) (i : Nat) (r : Region) : Bool :=
  tabGet 0 s.mem.rstate i != 1 && (!r.valid ||
    (!(List.range 64).any (fun j => j != i && (region s j).valid && (region s j).meets r)
      && r.base + r.size ≤ 23040 && r.size != 0 && r.kind != 3
      && slotLoaded s r.slot && slotTag s r.slot = some r.part
      && (r.kind = 0 || (r.part = 0x1F && r.slot = 0))))

/-- A refused MC_REGCTL operation on entry `i`, whose MC_REGSTAT shows it (R460). -/
def mcRefuse (s : State) (i : Nat) : State := txnRefuse (wrI s bMemcrypt F.MC_REGSTAT_REFUSED i 1) bMemcrypt

/-- A free pool slot `k` goes to a tag, a partition's or the device's, with a fresh key (R445, R556). -/
def poolAssign (s : State) (k tag : Nat) : State := modMem (slotLoad s k) (fun m => { m with pool := tabSet 0 m.pool k (tag + 1) })

/-- A device region of Lantern's that names a free pool slot: Lantern assigns the slot to the device before it applies the entry, since the
spec gives it no command of its own for that (log entry 138). -/
def deviceSlot (s : State) (r : Region) : State :=
  if r.valid ∧ r.part = 0x1F ∧ 17 ≤ r.slot ∧ tabGet 0 s.mem.pool r.slot = 0 ∧ !s.cust.noEntropy then poolAssign s r.slot 0x1F else s

/-- APPLY of entry `i`. -/
def mcApply (s : State) (i : Nat) : State :=
  let r := regionStaged s i
  let t := deviceSlot s r
  if regionOk t i r then
    let rst := tabGet 0 s.mem.rstate i
    modMem t (fun m => { m with
      regions := tabSet Region.reset m.regions i r
      rstate := tabSet 0 m.rstate i (if r.valid then rst else 0) })
  else mcRefuse s i

/-- WIPE of entry `i`: its slot is loaded afresh (R556), and the region answers WIPING. -/
def mcWipe (s : State) (i : Nat) : State :=
  if !(region s i).valid ∨ tabGet 0 s.mem.rstate i = 1 then mcRefuse s i
  else modMem (slotLoad s (region s i).slot) (fun m => { m with rstate := tabSet 0 m.rstate i 1 })

/-- Zeros under the key of number `key`, fresh tags and cleared poison bits for the bytes [lo, hi); a key number of 0 is none. -/
def hbmZero (s : State) (lo hi key : Nat) : State :=
  modMem s (fun m => { m with
    hbm := tabClear m.hbm lo hi
    marks := tabClear m.marks (lo / 128) (hi / 128)
    lineKey := tabClear m.lineKey (lo / 128) (hi / 128)
    wiped := (if key = 0 then [] else [(lo / 128, hi / 128, key)])
      ++ m.wiped.filter (fun w => !(lo / 128 ≤ w.1 && w.2.1 ≤ hi / 128))
    poison := m.poison.filter (fun x => x < lo / 128 || hi / 128 ≤ x) })

/-- The wipe of entry `i` ends: the region is READY. -/
def regionWiped (s : State) (i : Nat) : State :=
  let r := region s i
  modMem (hbmZero s (r.base * 2 ^ 21) ((r.base + r.size) * 2 ^ 21) (regionKey s i)) (fun m => { m with rstate := tabSet 0 m.rstate i 2 })

/-- All of HBM is wiped: every loaded slot is loaded afresh, since each wipe does that to its own (R448, R556), and every region's lines are
zeros under its slot's new key. -/
def hbmWipeAll (s : State) : State :=
  let s := forEach ((List.range 32).filter (slotLoaded s)) (fun k s => slotLoad s k) s
  forEach ((List.range 64).filter (fun i => (region s i).valid)) (fun i s =>
    hbmZero s ((region s i).base * 2 ^ 21) (((region s i).base + (region s i).size) * 2 ^ 21) (regionKey s i)) (hbmZero s 0 hbmSize 0)

/-! ## Controller registers -/

/-- HBMC_POISONCLR.GO of controller `c`. -/
def poisonClear (s : State) (c : Nat) : State :=
  let a := rdPair s (bHbmc c) F.HBMC_UEADDR_LO_ADDR F.HBMC_UEADDR_HI_ADDR
  modMem s (fun m => { m with poison := m.poison.filter (fun x => x != a / 128) })

/-- One line of the scrub of controller `c` (R454). -/
def hbmScrub (s : State) (c a : Nat) : State :=
  if rd s (bHbmc c) F.HBMC_SCRUB_HOURS = 0 ∨ hbmSize ≤ a ∨ hbmCtl a ≠ c ∨ !rdB s (bHbmc c) F.STATE_READY then s
  else (lineRead s (a / 128 * 128) true).2

end Sys2Proof.Machine
end

