-- ==== Sys2Proof/Machine/Scratch.lean ====
section
/-!
DEFINITION. A loom's scratch as its masters reach it (chapter 09): owner codes, the pool of SHARED banks, words with errors, accesses
that are held at a bank, and the move to the spare.
-/

namespace Sys2Proof.Machine

/-! ## Bytes of a store -/

/-- `n` bytes of a store as a number, little-endian. -/
def memNat (t : Tab Byte) (a n : Nat) : Nat := leNat (tabGetRun 0 t a n)
/-- A store with `n` bytes of a number written. -/
def memPut (t : Tab Byte) (a n x : Nat) : Tab Byte := tabSetRun 0 t a (leBytes n x)
/-- Marks of words with errors after the bytes [a, a + n) have been written: a word written whole is sound again. `w` gives the word that a
mark stands for. -/
def errWritten (w : Nat → Nat) (a n : Nat) (es : List Nat) : List Nat :=
  es.filter (fun e => !(a ≤ 8 * w e && 8 * w e + 8 ≤ a + n))

/-! ## Bank ownership (R312, R313) -/

abbrev ownSeq : Nat := 1
abbrev ownNeuron : Nat := 2
abbrev ownBatten : Nat := 3
abbrev ownTens : Nat := 4
abbrev ownShuttle : Nat := 5
abbrev ownNetif : Nat := 6
abbrev ownShared : Nat := 7

/-- The owner code of a bank in a value of LOOM_BANKOWN. -/
def ownerIn (w : Word) (k : Nat) : Nat := bits w.toNat (4 * k + 3) (4 * k)
/-- LOOM_BANKOWN of loom `l`. -/
def bankOwn (s : State) (l : Nat) : Word := regGet s (bLoom l) F.LOOM_BANKOWN_OWNER0.off 0
/-- The owner code of bank `k` of loom `l`. -/
def owner (s : State) (l k : Nat) : Nat := ownerIn (bankOwn s l) k
/-- The banks that the bytes [a, a + n) touch; a range of no bytes touches none. -/
def banksOf (a n : Nat) : List Nat := if n = 0 then [] else (List.range ((a + n - 1) / 65536 + 1 - a / 65536)).map (· + a / 65536)
/-- Every bank that a range touches has owner `code`. -/
def ownedBy (s : State) (l code a n : Nat) : Bool := (banksOf a n).all (fun k => owner s l k = code)

/-! ## The pool (R318, R319) -/

/-- The SHARED banks of a LOOM_BANKOWN word, ascending. -/
def sharedBanks (w : Word) : List Nat := (List.range 8).filter (fun k => ownerIn w k = ownShared)

/-- The place in the banks (bank × 65,536 + byte) of a scratch offset. -/
def physOf (shared : List Nat) (a : Nat) : Nat :=
  match findIdx? (fun k => k = a / 65536) shared with
  | none => a
  | some i =>
    let p := i * 65536 + a % 65536
    let n := shared.length
    (shared[p / 8 % n]?).getD 0 * 65536 + p / (8 * n) * 8 + p % 8

/-- The scratch offset of a place in the banks. -/
def offsetOf (shared : List Nat) (q : Nat) : Nat :=
  match findIdx? (fun k => k = q / 65536) shared with
  | none => q
  | some i =>
    let n := shared.length
    let p := (q % 65536 / 8 * n + i) * 8 + q % 8
    (shared[p / 65536]?).getD 0 * 65536 + p % 65536

/-- Scratch after the set of SHARED banks has changed: the bytes stay where they are in the banks. -/
def poolRemap (old new : List Nat) (t : Tab Byte) : Tab Byte :=
  if old = new then t
  else t.foldl (fun r e => tabSet 0 r (offsetOf new (physOf old e.1)) e.2) []

/-- The place of scratch word `w` in the banks, as a word number. -/
def wordPlace (s : State) (l w : Nat) : Nat := physOf (sharedBanks (bankOwn s l)) (8 * w) / 8
/-- The scratch word at a place. -/
def placeWord (s : State) (l q : Nat) : Nat := offsetOf (sharedBanks (bankOwn s l)) (8 * q) / 8
/-- The words, by their places, that the bytes [a, a + n) touch. -/
def placesOf (s : State) (l a n : Nat) : List Nat := (List.range ((a + n + 7) / 8 - a / 8)).map (fun i => wordPlace s l (a / 8 + i))
/-- Words of bank `k`. -/
def inBank (k w : Nat) : Bool := w / 8192 = k

/-! ## Plain reads and writes -/

/-- `n` bytes of scratch of loom `l`. -/
def scrNat (s : State) (l a n : Nat) : Nat := memNat (loom s l).scratch a n

/-- The marks of scratch words with errors after [a, a + n) has been written. -/
def scrMend (s : State) (l a n : Nat) (m : Loom) : Loom :=
  if m.xErr1.isEmpty && m.xErr2.isEmpty then m
  else { m with xErr1 := errWritten (placeWord s l) a n m.xErr1, xErr2 := errWritten (placeWord s l) a n m.xErr2 }

/-- Scratch written. -/
def scrPut (s : State) (l a n x : Nat) : State :=
  modLoom s l (fun m => scrMend s l a n { m with scratch := memPut m.scratch a n x })

/-- Scratch bytes [lo, hi) cleared. -/
def scrClear (s : State) (l lo hi : Nat) : State :=
  modLoom s l (fun m => scrMend s l lo (hi - lo) { m with scratch := tabClear m.scratch lo hi })

/-! ## The move to the spare (R326, R327) -/

/-- The spare cannot be moved to. -/
def spareGone (s : State) (l : Nat) : Bool :=
  let b := bLoom l
  rdB s b F.LOOM_BANKSTAT_SPAREUSED || rdB s b F.LOOM_BANKSTAT_SPAREYIELD || rdB s b F.LOOM_BANKSTAT_SPAREBAD

/-- A move of bank `k` is called for. -/
def moveStart (s : State) (l k : Nat) : State :=
  let m := loom s l
  if m.moving.contains k then s
  else if spareGone s l || !m.moving.isEmpty then latchFault s (bLoom l) 0x0114
  else setLoom s l { m with moving := [k] }

/-- The logical bank that a physical bank serves: 8 is the spare; none while it serves none. -/
def servedBank (s : State) (l p : Nat) : Option Nat :=
  let b := bLoom l
  let used := rdB s b F.LOOM_BANKSTAT_SPAREUSED
  let k := rd s b F.LOOM_BANKSTAT_SPAREBANK
  if p = 8 then (if used then some k else none) else if used && k = p then none else some p

/-! ## Words with errors (R310, R326, R328) -/

/-- Counts corrected errors of bank `k`; a count that reaches LOOM_BCETHR moves the bank. -/
def bankCorrected (s : State) (l k n : Nat) : State :=
  if n = 0 then s
  else
    let old := tabGet 0 (loom s l).bankCe k
    let lim := rd s (bLoom l) F.LOOM_BCETHR_LIMIT
    let s := modLoom s l (fun m => { m with bankCe := tabSet 0 m.bankCe k (old + n) })
    let s := incBy s (bLoom l) F.LOOM_BSCE_COUNT n
    if lim ≠ 0 ∧ old < lim ∧ lim ≤ old + n then moveStart s l k else s

/-- Single-bit errors of the words at some places are corrected and counted. -/
def scratchMend (s : State) (l : Nat) (ps : List Nat) : State :=
  let ces := (loom s l).xErr1.filter (fun w => ps.contains w)
  let s := modLoom s l (fun m => { m with xErr1 := m.xErr1.filter (fun w => !ps.contains w) })
  forEach (List.range 8) (fun k s => bankCorrected s l k (ces.filter (inBank k)).length) s

/-- A scratch word that a read of [a, a + n) meets cannot be corrected. -/
def scrBroken (s : State) (l a n : Nat) : Bool :=
  let m := loom s l
  !m.xErr2.isEmpty && (let ps := placesOf s l a n; m.xErr2.any (fun w => ps.contains w))

/-- The words that a read of [a, a + n) meets: single-bit errors are corrected and counted; a word that cannot be corrected latches
`code` and fails the read. -/
def scrCheck (s : State) (l a n code : Nat) : Bool × State :=
  if scrBroken s l a n then (false, latchFault s (bLoom l) code)
  else if (loom s l).xErr1.isEmpty then (true, s)
  else (true, scratchMend s l (placesOf s l a n))

/-- A read by a master other than the sequencer (R328). -/
def scratchCheck (s : State) (l a n : Nat) : Bool × State := scrCheck s l a n 0x0112

/-- Reads `n` bytes for such a master; what a word that cannot be corrected gives is not stated: a free value. -/
def scrLoad (s : State) (l a n : Nat) : Nat × State :=
  let c := scratchCheck s l a n
  if c.1 then (scrNat c.2 l a n, c.2)
  else
    let f := drawFree c.2
    (f.1 % 2 ^ (8 * n), f.2)

/-- Words of [a, a + n) that cannot be corrected give free values to the reads that follow. -/
def scrUnknown (s : State) (l a n : Nat) : State :=
  if scrBroken s l a n then
    let ps := placesOf s l a n
    forEach ((loom s l).xErr2.filter (fun w => ps.contains w)) (fun w s =>
      let f := drawFree s
      modLoom f.2 l (fun m => { m with scratch := memPut m.scratch (8 * placeWord s l w) 8 (f.1 % 2 ^ 64) })) s
  else s

/-- Reads bytes likewise. -/
def scrBytes (s : State) (l a n : Nat) : List Byte × State :=
  let r := scrLoad s l a n
  (leBytes n r.1, r.2)

/-! ## Accesses that are held (R316, R324, R326) -/

/-- Some bank of the loom holds accesses. -/
def holdsAny (m : Loom) : Bool := !m.drains.isEmpty || !m.moving.isEmpty || m.testing

/-- The bank drains or is being moved. -/
def bankHeld (s : State) (l k : Nat) : Bool := (loom s l).drains.any (fun e => e.1 = k) || (loom s l).moving.contains k

/-- The region under test lies at places [lo, hi) of bank `k` (R324). -/
def testMeets (s : State) (l k lo hi : Nat) : Bool :=
  let r := k * 65536 + 256 * rd s (bLoom l) F.LOOM_BTESTPOS_ROW
  (loom s l).testing && servedBank s l (rd s (bLoom l) F.LOOM_BTESTPOS_BANK) == some k && lo < r + 256 && r < hi

/-- An access to the word at place `q` is held. -/
def placeHeld (s : State) (l q : Nat) : Bool := bankHeld s l (q / 8192) || testMeets s l (q / 8192) (8 * q) (8 * q + 8)

/-- An access to the part of [a, a + n) that lies in logical bank `k` is held. -/
def partHeld (s : State) (l a n k : Nat) : Bool :=
  let lo := max a (k * 65536)
  let hi := min (a + n) (k * 65536 + 65536)
  if owner s l k = ownShared then (placesOf s l lo (hi - lo)).any (placeHeld s l)
  else bankHeld s l k || testMeets s l k lo hi

/-- An access to the scratch bytes [a, a + n) is held. -/
def scrHeld (s : State) (l a n : Nat) : Bool := holdsAny (loom s l) && (banksOf a n).any (partHeld s l a n)

/-- The bank is being moved, or has places [lo, hi) under test: what holds even an access accepted before a handover (R324, R326). -/
def partBusy (s : State) (l a n k : Nat) : Bool :=
  let lo := max a (k * 65536)
  let hi := min (a + n) (k * 65536 + 65536)
  if owner s l k = ownShared then
    (placesOf s l lo (hi - lo)).any (fun q => (loom s l).moving.contains (q / 8192) || testMeets s l (q / 8192) (8 * q) (8 * q + 8))
  else (loom s l).moving.contains k || testMeets s l k lo hi

/-- Such an access to the scratch bytes [a, a + n) is held. -/
def scrBusy (s : State) (l a n : Nat) : Bool := holdsAny (loom s l) && (banksOf a n).any (partBusy s l a n)

/-- A write of the network interface: made, or held at its bank. -/
def netPut (s : State) (l a n x : Nat) : State :=
  if scrHeld s l a n then modLoom s l (fun m => { m with netHeld := m.netHeld ++ [(a, n, x)] }) else scrPut s l a n x

/-- Held writes of the network interface go on in the order of their arrival. -/
def netGo (s : State) (l : Nat) : State :=
  let ws := (loom s l).netHeld
  if ws.isEmpty then s
  else forEach ws (fun w s => netPut s l w.1 w.2.1 w.2.2) (modLoom s l (fun m => { m with netHeld := [] }))

end Sys2Proof.Machine
end

