-- ==== Sys2Proof/Machine/LoomNeuron.lean ====
section
/-!
DEFINITION. The neuron engine (chapter 03): slots, the threshold table, the update in SETTLE, accumulators, delay queues,
picks and the retention ring.
-/

namespace Sys2Proof.Machine

/-! ## The threshold table (R84) -/

/-- A threshold-table entry. -/
structure ThEntry where
  theta : Nat
  gmax : Nat
  value : Bool
  leakk : Nat
  refp : Nat
  vshift : Nat
  bias : Int
  ainc : Nat
  adeck : Nat
  vfloor : Int
  deriving DecidableEq, Repr

/-- Entry `i` of loom `l`'s table. -/
def thEntry (s : State) (l i : Nat) : ThEntry :=
  let b := bLoom l
  { theta := rdI s b F.LOOM_THDATA0_THETA i
    gmax := rdI s b F.LOOM_THDATA0_GMAX i
    value := rdI s b F.LOOM_THDATA0_EMODE i = 1
    leakk := rdI s b F.LOOM_THDATA1_LEAKK i
    refp := rdI s b F.LOOM_THDATA1_REFP i
    vshift := rdI s b F.LOOM_THDATA1_VSHIFT i
    bias := sext 16 (rdI s b F.LOOM_THDATA1_BIAS i)
    ainc := rdI s b F.LOOM_THDATA2_AINC i
    adeck := rdI s b F.LOOM_THDATA2_ADECK i
    vfloor := sext 24 (rdI s b F.LOOM_THDATA3_VFLOOR i) }

/-! ## The slot update (R93) -/

/-- MODEL codes (R81). -/
abbrev mGif : Nat := 0
abbrev mAdapt : Nat := 1
abbrev mRelay : Nat := 2
abbrev mOff : Nat := 3

/-- What one slot's update gives: the slot as written back, the payload of its pick, and what it counts. -/
structure SlotOut where
  slot : Nat
  payload : Option Nat
  offHit : Bool
  refDrop : Bool
  memSat : Bool
  sat : Bool
  deriving DecidableEq, Repr

/-- The leak of `V` by shift `k`, rounding half away from zero. -/
def leak (V : Int) (k : Nat) : Int :=
  if k = 0 then V else V - V.sign * ((V.natAbs + 2 ^ (k - 1)) / 2 ^ k : Nat)

/-- The threshold test and reset of a slot that is not refractory: `V`, the ADAPT value, REFRAC, the payload, SAT. -/
def fire (t : ThEntry) (model : Nat) (V : Int) (adapt refrac : Nat) : Int × Nat × Nat × Option Nat × Bool :=
  let th := min (t.theta + (if model = mAdapt then adapt else 0)) 0x7FFFFF
  let v := V.fdiv 256
  if v < th then (V, adapt, refrac, none, false)
  else
    let refrac := if model = mRelay then refrac else t.refp
    if t.value then
      let u := 1 + (v - th).fdiv (2 ^ t.vshift)
      let adapt := if model = mAdapt then min 0xFFFF (adapt + t.ainc) else adapt
      (0, adapt, refrac, some (min 255 u.toNat), decide (255 < u))
    else
      let g := min t.gmax (v.fdiv th).toNat
      let W := V - (g * th : Nat) * 256
      let clip := decide ((th : Int) ≤ W.fdiv 256)
      let adapt := if model = mAdapt then min 0xFFFF (adapt + g * t.ainc) else adapt
      (if clip then ((th : Int) - 1) * 256 else W, adapt, refrac, some g, clip)

/-- The update of one slot in SETTLE of beat `n` with accumulator `a` (R82, R83, R87, R93 to R97). -/
def slotUpdate (t : ThEntry) (n slot : Nat) (a : Int) : SlotOut :=
  let model := bits slot 39 38
  if model = mOff then ⟨slot, none, decide (a ≠ 0), false, false, false⟩
  else
    let V0 := if model = mRelay then 0 else sext 24 (bits slot 23 0) * 256 + bits slot 31 24
    let V1 := if model = mRelay then V0 else leak V0 t.leakk
    let ad0 := bits slot 111 96
    let ad1 := if model = mAdapt && t.adeck != 0 then ad0 - (ad0 + 2 ^ (t.adeck - 1)) / 2 ^ t.adeck else ad0
    let rf0 := bits slot 43 40
    let refr := model != mRelay && 0 < rf0
    let a1 := if refr then 0 else a
    let rf1 := if refr then rf0 - 1 else rf0
    let V2 := V1 + a1 * 256 + t.bias * 256
    let hi : Int := 0x7FFFFF * 256 + 0xFF
    let memSat := decide (hi < V2) || decide (V2 < -0x800000 * 256)
    let V3 := clampI (t.vfloor * 256) hi V2
    let f := if refr then (V3, ad1, rf1, none, false) else fire t model V3 ad1 rf1
    let V4 := if model = mRelay then 0 else f.1
    let rf2 := if model = mRelay then 0 else f.2.2.1
    let fired := f.2.2.2.1.isSome
    let x := setBits slot 23 0 (toBits 24 (V4.fdiv 256))
    let x := setBits x 31 24 (toBits 8 V4)
    let x := setBits x 43 40 rf2
    let x := setBits x 111 96 f.2.1
    let x := setBits x 113 113 fired.toNat
    let x := setBits x 114 114 f.2.2.2.2.toNat
    let x := if fired && bit slot 112 then setBits x 63 48 n else x
    let x := if x = slot then x else setBits x 115 115 1
    ⟨x, f.2.2.2.1, false, refr && decide (a ≠ 0), memSat, f.2.2.2.2⟩

/-! ## Picks (R99, R100) -/

/-- KIND codes of a pick. -/
abbrev kCount : Nat := 1
abbrev kValue : Nat := 2
abbrev kSensor : Nat := 3

/-- A pick word with SEQ `seq`. -/
def pickWord (kind payload pop member delay seq : Nat) : W64 :=
  BitVec.ofNat 64 (kind * 2 ^ 60 + payload % 256 * 2 ^ 52 + pop % 2 ^ 20 * 2 ^ 32 + member % 2 ^ 16 * 2 ^ 16
    + delay % 16 * 2 ^ 12 + seq % 4096)

/-- The SLOTS segment that holds slot `n` (R129). -/
def segOf (segs : List Seg) (n : Nat) : Option Seg :=
  segs.find? (fun g => g.skind = 1 && g.base ≤ n && n < g.base + g.len)

/-- The segment table's live entries that are not unused. -/
def liveSegs (s : State) (l : Nat) : List Seg :=
  let b := bLoom l
  ((List.range 64).map (fun i => ({
    idx := i, base := rdI s b F.LOOM_SEGDATA0_BASE i, len := rdI s b F.LOOM_SEGDATA0_LEN i
    pop := rdI s b F.LOOM_SEGDATA1_POP i, delay := rdI s b F.LOOM_SEGDATA1_DELAY i
    skind := rdI s b F.LOOM_SEGDATA1_SKIND i, m0 := rdI s b F.LOOM_SEGDATA2_M0 i
    route := rdI s b F.LOOM_SEGDATA3_ROUTE i } : Seg))).filter (fun g => g.skind != 0)

/-! ## The retention ring (R182, R183) -/

/-- Scratch offset of the retention ring. -/
def retBase (s : State) (l : Nat) : Nat := rd s (bLoom l) F.LOOM_RETBASE_BASE * 4096

/-- Adds one pick to the per-segment record of first entries and counts. -/
def retNote (first : List (Nat × Nat × Nat)) (seg pos : Nat) : List (Nat × Nat × Nat) :=
  if first.any (fun e => e.1 = seg) then first.map (fun e => if e.1 = seg then (seg, e.2.1, e.2.2 + 1) else e)
  else first ++ [(seg, pos, 1)]

/-- Emits one pick into the retention ring: `frame` for threshold emit, `value` for KIND VALUE. The 32,769th pick of a
beat latches RETAINFULL and is not emitted, nor is any later one. -/
def emitPick (s : State) (l index payload : Nat) (frame value : Bool) (seg : Nat) : State :=
  let m := loom s l
  if 32768 ≤ m.ret.count then
    if m.ret.full then s
    else latchFault (setLoom s l { m with ret := { m.ret with full := true } }) (bLoom l) 0x010B
  else
    let e := index % 65536 + payload % 256 * 2 ^ 16 + frame.toNat * 2 ^ 24 + seg * 2 ^ 25 + value.toNat * 2 ^ 31
    let s := scrPut s l (retBase s l + 4 * m.ret.count) 4 e
    modLoom s l (fun m => { m with ret := { m.ret with
      count := m.ret.count + 1, first := retNote m.ret.first seg m.ret.count } })

/-- The pick of a ring entry, with SEQ `seq` (R184). -/
def entryPick (m : Loom) (e seq : Nat) : W64 :=
  match m.ret.segs.find? (fun g => g.idx = bits e 30 25) with
  | none => 0
  | some g => pickWord (if bit e 31 then kValue else kCount) (bits e 23 16) g.pop
      (g.m0 + (bits e 15 0 - g.base)) g.delay seq

/-- The pick that ring entry `k` stands for, with SEQ `seq`. -/
def retPick (s : State) (l k seq : Nat) : W64 := entryPick (loom s l) (scrNat s l (retBase s l + 4 * k) 4) seq

/-- The network interface has read the first `n` ring entries (R328). -/
def retCheck (s : State) (l n : Nat) : State := (scratchCheck s l (retBase s l) (4 * n)).2

/-! ## Accumulators (R89 to R91) -/

/-- The accumulator of slot `n` as an integer. -/
def accGet (s : State) (l n : Nat) : Int × State :=
  let r := scrLoad s l ((loom s l).lat.accBase + 8 * n) 8
  (sext 64 r.1, r.2)

/-- Sets the accumulator of slot `n`. -/
def accPut (s : State) (l n : Nat) (x : Int) : State :=
  scrPut s l ((loom s l).lat.accBase + 8 * n) 8 (toBits 64 x)

/-- Takes one contribution's place in the beat's count (R90); none where it would reach 2³². -/
def contribRoom (s : State) (l : Nat) : Option State :=
  let m := loom s l
  if m.contrib + 1 < 2 ^ 32 then some (setLoom s l { m with contrib := m.contrib + 1 })
  else none

/-- Adds a contribution to the accumulator of slot `n` now (R89 to R91); LOOM_CONTRIB counts it unless it was counted
when it was queued (log entry 12). -/
def accAdd (s : State) (l n : Nat) (c : Int) (counted : Bool) : State :=
  if (loom s l).lat.nslots ≤ n then inc s (bLoom l) F.LOOM_TGTRANGE_COUNT
  else match contribRoom s l with
    | none => latchFault s (bLoom l) 0x0102
    | some s =>
      let a := accGet s l n
      let s := accPut a.2 l n (a.1 + c)
      if counted then inc s (bLoom l) F.LOOM_CONTRIB_COUNT else s

/-! ## Delay queues (R103 to R109) -/

/-- Entries of a chain that a retry round has not taken out. -/
def DqChain.live (c : DqChain) : Nat := (c.marks.filter (fun e => !e.dead)).length

/-- Entries held, area and spill. -/
def dqCount (m : Loom) : Nat := m.dq.foldl (fun n q => n + q.area.live + q.spill.live) 0

/-- LOOM_DQCOUNT follows the queues (R109). -/
def dqRecount (s : State) (l : Nat) : State := wr s (bLoom l) F.LOOM_DQCOUNT_COUNT (dqCount (loom s l))

/-- The chunks in use, by a chain of each queue slot: those of the released slot stay until SETTLE, since a retry round may restore it
(R195, log entry 106). -/
def dqUsed (m : Loom) (f : DqSlot → DqChain) : List Nat := (m.released :: m.dq).flatMap (fun q => (f q).chunks)

/-- A free chunk of an area of `n` chunks at `base`: the lowest (log entry 106). -/
def chunkFree (base n : Nat) (used : List Nat) : Option Nat :=
  ((List.range (min n (used.length + 1))).map (fun c => base + 256 * c)).find? (fun a => !used.contains a)

/-- Where entry `i` of a chain stands: 31 entries a chunk, in the order of their arrival. -/
def DqChain.place (c : DqChain) (i : Nat) : Nat := (c.chunks[i / 31]?).getD 0 + 8 * (i % 31)

/-- The last chunk of a chain has no room for another entry. -/
def DqChain.full (c : DqChain) : Bool := c.marks.length = 31 * c.chunks.length

/-- Where the link word of a chunk stands: last (log entry 106). -/
abbrev linkAt : Nat := 248

/-- Sends a write of 8 bytes to the spill region as a memory request on VC2 (R107). -/
def spillWrite (s : State) (l a x : Nat) : State := hbmAskAs s (bLoom l) true a 1 (leBytes 8 x) true

/-- A chain that takes the chunk at `a`, its link word written by `put`. -/
def DqChain.grow (c : DqChain) (a : Nat) (put : State → Nat → Nat → State) (s : State) : DqChain × State :=
  ({ c with chunks := c.chunks ++ [a] },
    match c.chunks.getLast? with
    | none => s
    | some p => put s (p + linkAt) (Config.dqLink a).toNat)

/-- The entry put at the end of a chain that has room. -/
def DqChain.append (c : DqChain) (w : W64) (e : DqMark) (put : State → Nat → Nat → State) (s : State) : DqChain × State :=
  ({ c with marks := c.marks ++ [e] }, put s (c.place c.marks.length) w.toNat)

/-- Changes queue slot `k` mod 16. -/
def modDq (s : State) (l k : Nat) (f : DqSlot → DqSlot) : State :=
  dqRecount (modLoom s l (fun m => { m with dq := m.dq.set (k % 16) (f ((m.dq[k % 16]?).getD DqSlot.reset)) })) l

/-- Puts an entry into queue slot `k` mod 16: into the area while it has room (R106), else into the spill region (R107); none where both
are full. -/
def dqPut (s : State) (l k : Nat) (w : W64) (e : DqMark) : Option State :=
  let b := bLoom l
  let m := loom s l
  let q := (m.dq[k % 16]?).getD DqSlot.reset
  let put := fun (s : State) (a x : Nat) => scrPut s l a 8 x
  let spill := fun (s : State) (a x : Nat) => spillWrite s l a x
  let toArea := fun (c : DqChain) (s : State) =>
    let r := c.append w e put s
    modDq r.2 l k (fun q => { q with area := r.1 })
  let toSpill := fun (c : DqChain) (s : State) =>
    let r := c.append w e spill s
    modDq r.2 l k (fun q => { q with spill := r.1 })
  if !q.area.full then some (toArea q.area s)
  else match chunkFree m.lat.dqBase m.lat.dqSize (dqUsed m (·.area)) with
    | some a =>
      let r := q.area.grow a put s
      some (toArea r.1 r.2)
    | none =>
      if !q.spill.full then some (toSpill q.spill s)
      else match chunkFree (rdPair s b F.LOOM_SPILLBASE_LO_ADDR F.LOOM_SPILLBASE_HI_ADDR) (16 * rd s b F.LOOM_SPILLSIZE_SIZE)
          (dqUsed m (·.spill)) with
        | some a =>
          let r := q.spill.grow a spill s
          some (toSpill r.1 r.2)
        | none => none

/-- A contribution record is counted as it is queued, once (R119). -/
def dqCounted (s : State) (l : Nat) (w : W64) (e : DqMark) : State :=
  if bits w.toNat 63 60 = 7 ∧ !e.counted then inc s (bLoom l) F.LOOM_CONTRIB_COUNT else s

/-- `dqPut`, with the entry counted. -/
def dqEnter (s : State) (l k : Nat) (w : W64) (e : DqMark) : Option State :=
  (dqPut s l k w { e with counted := true }).map (fun s => dqCounted s l w e)

/-- Appends an entry to queue slot `k` mod 16. Where there is no room it is not dropped: it waits, the interface withholds its credits, and
DQSPILLFULL is latched (R108). -/
def dqAppend (s : State) (l k : Nat) (w : W64) (e : Option Nat) : State :=
  let e : DqMark := ⟨e, true, false, false⟩
  match dqEnter s l k w e with
  | some s => s
  | none => latchFault (modLoom s l (fun m => { m with dqWaits := m.dqWaits ++ [⟨k % 16, w, e⟩] })) (bLoom l) 0x0103

/-- Entries that waited are queued while there is room. -/
def dqDrain (s : State) (l : Nat) : State :=
  forEach (loom s l).dqWaits (fun x s => match dqEnter s l x.slot x.word x.mark with
    | some s => s
    | none => modLoom s l (fun m => { m with dqWaits := m.dqWaits ++ [x] })) (modLoom s l (fun m => { m with dqWaits := [] }))

/-- A contribution record (R105). -/
def dqRecord (slot : Nat) (c : Int) : W64 := BitVec.ofNat 64 (7 * 2 ^ 60 + slot % 2 ^ 15 * 2 ^ 45 + toBits 32 c)

/-- Queues a contribution for `e` beats later (R104). -/
def dqContrib (s : State) (l slot : Nat) (c : Int) (e : Nat) : State := dqAppend s l ((loom s l).beat + e) (dqRecord slot c) none

/-- The words of a chain's entries that `keep` takes, read by `get`. -/
def DqChain.entries (c : DqChain) (keep : DqMark → Bool) (get : State → Nat → Nat × State) (s : State) : List W64 × State :=
  ((List.range c.marks.length).zip c.marks).foldl (fun (p : List W64 × State) e =>
    if e.2.dead || !keep e.2 then p
    else
      let r := get p.2 (c.place e.1)
      (p.1 ++ [BitVec.ofNat 64 r.1], r.2)) ([], s)

/-- A write of word `x` to the spill region at `a` ended with an error (R117): its entry waits like one that found no room (R108). -/
def spillRefused (s : State) (l a : Nat) (x : W64) : State :=
  let refuse := fun (k i : Nat) (s : State) =>
    let q := ((loom s l).dq[k]?).getD DqSlot.reset
    match q.spill.marks[i]? with
    | none => s
    | some e =>
      if q.spill.place i ≠ a ∨ e.dead then s
      else
        let s := modDq s l k (fun q => { q with spill := { q.spill with marks := q.spill.marks.set i { e with dead := true } } })
        modLoom s l (fun m => { m with dqWaits := m.dqWaits ++ [⟨k, x, e⟩] })
  forEach (List.range 16) (fun k s =>
    forEach (List.range (((loom s l).dq[k]?).getD DqSlot.reset).spill.marks.length) (refuse k) s) (latchFault s (bLoom l) 0x0103)

/-- A memory response for a request on the spill region: an entry that has been written counts in LOOM_DQSPILL (R119); a read that fails is asked
for again, since no entry is dropped (R107, log entry 106). -/
def spillAnswered (s : State) (l : Nat) (q : HbmReq) (st : Nat) : State :=
  if st = hOk then (if q.write ∧ q.addr % 256 ≠ linkAt then inc s (bLoom l) F.LOOM_DQSPILL_COUNT else s)
  else if st = hResend then s
  else if q.write then spillRefused s l q.addr (BitVec.ofNat 64 (leNat q.data))
  else hbmAskAs s (bLoom l) false q.addr q.size [] true

/-- Some request on the spill region is not answered yet. -/
def spillBusy (s : State) (l : Nat) : Bool :=
  (List.range 4).any (fun c => let x := hbmTx s (bLoom l) c
    x.unans.any (fun q => q.spill) || x.held.any (fun q => q.spill))

/-! ## Neuron-store words with errors (R80) -/

/-- Slot `n` as a number. -/
def slotNat (m : Loom) (n : Nat) : Nat := memNat m.nstore (16 * n) 16

/-- A word of slot `n` cannot be corrected. -/
def slotBroken (m : Loom) (n : Nat) : Bool := m.nErr2.any (fun w => w / 2 = n)

/-- The words that a read of neuron-store bytes [a, a + n) meets: single-bit errors are corrected and counted; a word that cannot be
corrected latches NSTORE_UE and fails the read (log entry 93). -/
def nstoreCheck (s : State) (l a n : Nat) : Bool × State :=
  let m := loom s l
  let hit := fun (w : Nat) => a / 8 ≤ w && w < (a + n + 7) / 8
  if m.nErr2.any hit then (false, latchFault s (bLoom l) 0x0101)
  else (true, incBy (setLoom s l { m with nErr1 := m.nErr1.filter (fun w => !hit w) }) (bLoom l) F.LOOM_NSCE_COUNT
    (m.nErr1.filter hit).length)

/-- Reads neuron-store bytes as a number; what a word that cannot be corrected gives is not stated: a free value. -/
def nstoreLoad (s : State) (l a n : Nat) : Nat × State :=
  let c := nstoreCheck s l a n
  if c.1 then (memNat (loom c.2 l).nstore a n, c.2)
  else
    let f := drawFree c.2
    (f.1 % 2 ^ (8 * n), f.2)

/-- Reads slot `j`. -/
def slotRead (s : State) (l j : Nat) : Nat × State := nstoreLoad s l (16 * j) 16

/-! ## SETTLE of the neuron engine (R80, R93, R98, R131) -/

/-- Updates slot `n` of loom `l` in SETTLE of beat `nb`. A slot with a double-bit error stays as it is and emits nothing; its accumulator
is left as it stands (log entry 93). -/
def settleSlot (l nb n : Nat) (s : State) : State :=
  let b := bLoom l
  let c := nstoreCheck s l (16 * n) 16
  if !c.1 then c.2
  else
    let slot := slotNat (loom c.2 l) n
    let t := thEntry c.2 l (bits slot 37 32)
    let a := accGet c.2 l n
    let o := slotUpdate t nb slot a.1
    let s := accPut a.2 l n 0
    let s := modLoom s l (fun m => { m with
      nstore := memPut m.nstore (16 * n) 16 o.slot, satNow := m.satNow + o.sat.toNat })
    let s := incBy s b F.LOOM_OFFHIT_COUNT o.offHit.toNat
    let s := incBy s b F.LOOM_REFDROP_COUNT o.refDrop.toNat
    let s := incBy s b F.LOOM_MEMSAT_COUNT o.memSat.toNat
    let s := incBy s b F.LOOM_SATCOUNT_COUNT o.sat.toNat
    match o.payload with
    | none => s
    | some p => match segOf (loom s l).lat.segs n with
      | none => inc s b F.LOOM_NOSEG_COUNT
      | some g => emitPick (if 32768 ≤ (loom s l).ret.count then s else inc s b F.LOOM_EMITTED_COUNT) l n p false t.value g.idx

/-- The neuron engine's whole SETTLE: slots 0 to NSLOTS − 1 in ascending order (R93), with the latched segment table. -/
def neuronSettle (s : State) (l nb : Nat) : State :=
  let s := modLoom s l (fun m => { m with satNow := 0 })
  forEach (List.range (loom s l).lat.nslots) (settleSlot l nb) s

/-! ## Writes of other masters (R83, R112, R147) -/

/-- A write to the neuron store takes effect: DIRTY of each slot whose other bits change is set, and no write clears it (R83). -/
def nstorePut (m : Loom) (a : Nat) (d : List Byte) : Loom :=
  let after := tabSetRun 0 m.nstore a d
  let slots := (List.range ((a % 16 + d.length + 15) / 16)).map (fun i => a / 16 + i)
  { m with
    nErr1 := errWritten id a d.length m.nErr1
    nErr2 := errWritten id a d.length m.nErr2
    nstore := slots.foldl (fun t n =>
      let old := slotNat m n
      let new := memNat t (16 * n) 16
      if bit old 115 || setBits old 115 115 0 != setBits new 115 115 0 then memPut t (16 * n) 16 (setBits new 115 115 1) else t) after }

/-- A write to the synapse store takes effect. -/
def sstorePut (m : Loom) (a : Nat) (d : List Byte) : Loom :=
  { m with sErr1 := errWritten id a d.length m.sErr1, sErr2 := errWritten id a d.length m.sErr2, sstore := tabSetRun 0 m.sstore a d }

/-- Writes to the neuron store are held until the last slot update of a SETTLE (R112). -/
def nstoreHeld (m : Loom) : Bool := m.phase = .settle && !m.slotsDone
/-- Writes to the synapse store are held from OPEN to the last slot update of SETTLE (R147). -/
def sstoreHeld (m : Loom) : Bool := m.phase != .idle && m.phase != .emit && !(m.phase = .settle && m.slotsDone)

/-- A write at local address `a` of the neuron or the synapse store is held. -/
def storeHeld (m : Loom) (a : Nat) : Bool := if a < 0x100000 then nstoreHeld m else sstoreHeld m

/-- A write at local address `a` of the neuron or the synapse store takes effect. -/
def storePut (m : Loom) (a : Nat) (d : List Byte) : Loom :=
  if a < 0x100000 then nstorePut m (a - 0x80000) d else sstorePut m (a - 0x100000) d

/-- Another master writes the neuron or the synapse store at local address `a`: at once, or behind the writes already held. `main` names
the sequencer's code, the main program or an activation. -/
def storeWrite (m : Loom) (main : Option Bool) (a : Nat) (d : List Byte) : Loom :=
  if storeHeld m a then { m with held := m.held ++ [⟨main, a, d⟩] } else storePut m a d

/-- The last slot update is done: the held writes take effect in arrival order. -/
def heldApply (m : Loom) : Loom :=
  { m.held.foldl (fun m (w : HeldWrite) => storePut m w.addr w.data) m with held := [], slotsDone := true }

end Sys2Proof.Machine
end

