-- ==== Sys2Proof/Machine/LoomRows.lean ====
section
/-!
DEFINITION. The nominal schedule, and the synapse fetch unit (chapter 04, with the stage map of chapter 07 and the beat
frames of chapter 06): afferent lookup, rows, contributions, the row cache.
-/

namespace Sys2Proof.Machine

/-! ## The nominal schedule (R166, R167) -/

/-- The anchor that governs beat `n`: the newest whose ANCHOR_N is not above it. -/
def anchorOf (as : List Anchor) (n : Nat) : Anchor :=
  match as.find? (fun a => a.n ≤ n) with
  | some a => a
  | none => as.getLast?.getD ⟨0, 0, 1000000⟩

/-- S(N). -/
def sched (s : State) (n : Nat) : Nat :=
  let a := anchorOf s.beat.anchors n
  a.t + (n - a.n) * a.len

/-- The hub that serves a logical loom: rows 3 × (h mod 8) on, of the west half for h below 8 (R18). -/
def loomHub (l : Nat) : Nat := l / 32 / 3 + (if 16 ≤ l % 32 then 8 else 0)

/-! ## What OPEN latches -/

/-- The tensioner's registers (R264). -/
def tensLatch (s : State) (l : Nat) : TLatch :=
  let b := bLoom l
  { learn := rdB s b F.LOOM_TCTL_LEARN
    base := rd s b F.LOOM_TPBASE_BASE * 8
    size := rd s b F.LOOM_TPSIZE_SIZE * 8
    stage := rd s b F.LOOM_TSTAGEBASE_BASE * 64
    period := (let p := rd s b F.LOOM_TSWEEP_PERIOD; if p = 0 then 4096 else p)
    phase := rd s b F.LOOM_TSWEEP_PHASE
    kern := (List.range 64).map (fun i => sext 16 (rdI s b F.LOOM_TKDATA_K i))
    rules := ((List.range 8).filter (fun i => rdI s b F.LOOM_TRDATA0_VALID i = 1)).map (fun i => {
      pop := rdI s b F.LOOM_TRDATA0_POP i
      moden := rdI s b F.LOOM_TRDATA0_MODEN i = 1
      modch := rdI s b F.LOOM_TRDATA0_MODCH i
      lrate := rdI s b F.LOOM_TRDATA0_LRATE i
      wmin := sext 8 (rdI s b F.LOOM_TRDATA1_WMIN i)
      wmax := sext 8 (rdI s b F.LOOM_TRDATA1_WMAX i)
      targetw := rdI s b F.LOOM_TRDATA1_TARGETW i })
    mods := (List.range 16).map (fun i =>
      (sext 12 (rdI s b F.LOOM_TMDATA_MODBASE i), rdI s b F.LOOM_TMDATA_MSHIFT i)) }

/-- The layout latched at OPEN (R110, R131, R264): NSLOTS is at most the 32,768 slots that there are (log entry 94). -/
def latchLayout (s : State) (l : Nat) : Latched :=
  let b := bLoom l
  { nslots := min 32768 (rd s b F.LOOM_NSLOTS_NSLOTS)
    accBase := rd s b F.LOOM_ACCBASE_BASE * 8
    dqBase := rd s b F.LOOM_DQBASE_BASE * 256
    dqSize := rd s b F.LOOM_DQSIZE_SIZE
    segs := liveSegs s l
    instBase := rd s b F.LOOM_INSTBASE_BASE * 16
    tens := tensLatch s l }

/-! ## The afferent table (R138 to R141) -/

/-- SECDED words of the synapse store that a read of [a, a + n) meets (R148): corrected and counted, or SSTORE_UE. -/
def sstoreCheck (s : State) (l a n : Nat) : Bool × State :=
  let m := loom s l
  let hit := fun (w : Nat) => a / 8 ≤ w && w < (a + n + 7) / 8
  if m.sErr2.any hit then (false, latchFault s (bLoom l) 0x0104)
  else (true, incBy (setLoom s l { m with sErr1 := m.sErr1.filter (fun w => !hit w) }) (bLoom l) F.LOOM_SSCE_COUNT
    (m.sErr1.filter hit).length)

/-- `n` bytes of the synapse store. -/
def sstoreNat (s : State) (l a n : Nat) : Nat := memNat (loom s l).sstore a n

/-- Reads synapse-store bytes as a number; what a word that cannot be corrected gives is not stated: a free value. -/
def sstoreLoad (s : State) (l a n : Nat) : Nat × State :=
  let c := sstoreCheck s l a n
  if c.1 then (sstoreNat c.2 l a n, c.2)
  else
    let f := drawFree c.2
    (f.1 % 2 ^ (8 * n), f.2)

/-- What a lookup gives; `lost` where a word that it reads cannot be corrected. -/
inductive Lookup where
  | miss | noRow | bad | lost
  | store (a : Nat)
  | hbm (a : Nat)
  | array (a : Nat)
  deriving DecidableEq, Repr

/-- A row-pointer word (R139). -/
def rowPtr (w : Nat) : Lookup :=
  if w = 0xFFFFFFFF then .noRow
  else if bit w 31 then .hbm (bits w 30 0 * 64)
  else if bits w 30 16 ≠ 0 then .bad else .store (bits w 15 0 * 8)

/-- The row pointer at index `i` of the pointer array at synapse-store address `r`. -/
def ptrRead (s : State) (l r i : Nat) : Lookup × State :=
  let p := r + 4 * i
  if 0x80000 < p + 4 then (.bad, s)
  else
    let c := sstoreCheck s l p 4
    if c.1 then (rowPtr (sstoreNat c.2 l p 4), c.2) else (.lost, c.2)

/-- Where the afferent entry `e` puts the row of `member` (R138, R140, R141); a pointer array in HBM is read through the row cache like a
row. An entry whose BASE is NONE covers no row even with STRIDE 0, which R140 and R141 pull apart (log entry 64). -/
def affRow (s : State) (l e member : Nat) : Lookup × State :=
  let mlo := bits e 47 32
  let stride := bits e 111 96
  let i := member - mlo
  if member < mlo ∨ mlo + bits e 63 48 < member then (.noRow, s)
  else match rowPtr (bits e 95 64) with
    | .noRow => (.noRow, s)
    | .store r =>
      if !bit e 21 then ptrRead s l r i
      else (if stride = 0 then .bad else .store (r + i * stride * 8), s)
    | .hbm r =>
      if !bit e 21 then (.array (r + 4 * i), s)
      else (if stride = 0 ∨ stride % 8 ≠ 0 then .bad else .hbm (r + i * stride * 8), s)
    | x => (x, s)

/-- Up to `fuel` probes from bucket `h` on, of a table of `n` entries at `base` (R140). -/
def affProbe (l base n pop member : Nat) : Nat → Nat → State → Lookup × State
  | 0, _, s => (.miss, s)
  | fuel + 1, h, s =>
    let a := base + 16 * (h % n)
    let c := sstoreCheck s l a 16
    let e := sstoreNat c.2 l a 16
    if !c.1 then (.lost, c.2)
    else if !bit e 20 then (.miss, c.2)
    else if bits e 19 0 = pop then affRow c.2 l e member
    else affProbe l base n pop member fuel (h + 1) c.2

/-- The pick's row on loom `l`. -/
def lookup (s : State) (l pop member : Nat) : Lookup × State :=
  let b := bLoom l
  let bitsN := rd s b F.LOOM_AFFCFG_AFFBITS
  let probes := (let p := rd s b F.LOOM_AFFCFG_AFFPROBE; if p = 0 then 8 else p)
  if bitsN = 0 then (.miss, s) else affProbe l (rd s b F.LOOM_AFFBASE_BASE * 16) (2 ^ bitsN) pop member probes pop s

/-! ## Rows (R143, R144) -/

/-- A row header. -/
structure RowHdr where
  frame : Nat
  wide : Bool
  plastic : Bool
  typ : Nat
  delay : Nat
  shift : Nat
  count : Nat
  base : Nat
  lastpre : Nat
  deriving DecidableEq, Repr

/-- The header in a 64-bit word. -/
def rowHdr (x : Nat) : RowHdr :=
  ⟨bits x 3 0, bit x 4, bit x 5, bits x 11 8, bits x 15 12, bits x 19 16, bits x 31 20, bits x 47 32, bits x 63 48⟩

/-- Bytes of a row before rounding. -/
def rowLen (h : RowHdr) : Nat := 8 + (if h.wide then 4 else 2) * h.count
/-- Bytes a row occupies in the synapse store. -/
def rowSize (h : RowHdr) : Nat := (rowLen h + 7) / 8 * 8

/-- An entry: target, stored weight, delay, type, and the offset of its weight byte in the row. -/
structure SynEntry where
  target : Nat
  weight : Int
  delay : Nat
  typ : Nat
  woff : Nat
  deriving DecidableEq, Repr

/-- Compact entries from index `i` on, the running target before it. -/
def compactEntries (h : RowHdr) (row : Nat) : Nat → Nat → Nat → List SynEntry
  | 0, _, _ => []
  | n + 1, i, t =>
    let e := bits row (8 * (8 + 2 * i) + 15) (8 * (8 + 2 * i))
    let t := t + bits e 7 0
    ⟨t, sext 8 (bits e 15 8), h.delay, h.typ, 8 + 2 * i + 1⟩ :: compactEntries h row n (i + 1) t

/-- The entries of a row given as a number. -/
def rowEntries (h : RowHdr) (row : Nat) : List SynEntry :=
  if h.wide then (List.range h.count).map (fun i =>
    let e := bits row (8 * (8 + 4 * i) + 31) (8 * (8 + 4 * i))
    ⟨bits e 15 0, sext 8 (bits e 23 16), bits e 27 24, bits e 31 28, 8 + 4 * i + 2⟩)
  else compactEntries h row h.count 0 h.base

/-! ## Plastic weights (R240, R241, R245, R250) -/

/-- The rule of the population of slot `j` (R240). -/
def ruleOf (m : Loom) (j : Nat) : Option TRule :=
  match segOf m.lat.segs j with
  | none => none
  | some g => m.lat.tens.rules.find? (fun r => r.pop = g.pop)

/-- The header address lies in the plastic region. -/
def inRegion (m : Loom) (a : Nat) : Bool := m.lat.tens.base ≤ a && a < m.lat.tens.base + m.lat.tens.size

/-- The pre-event of a pick at the row at `a` (R250): the stage byte grows by the factor. -/
def preEvent (s : State) (l a factor : Nat) : State :=
  let m := loom s l
  let k := m.lat.tens.stage + (a - m.lat.tens.base) / 8
  let r := scrLoad s l k 1
  let f := r.1 + factor
  let s := if 255 < f then inc r.2 (bLoom l) F.LOOM_TFSAT_COUNT else r.2
  scrPut s l k 1 (min 255 f)

/-- The read-time weight of a stored weight onto a slot with the NORMF of `slot` (R245). -/
def readWeight (s : State) (l slot : Nat) (w : Int) : Int × State :=
  let v := rshiftRne (w * (bits slot 95 80 : Nat)) 15
  let c := clampI (-128) 127 v
  (c, if c = v then s else inc s (bLoom l) F.LOOM_TWEFFCLAMP_COUNT)

/-- Slot `j` where its weights can be plastic and it can be read. -/
def plasticRead (s : State) (l j : Nat) : Option Nat × State :=
  if (loom s l).lat.nslots ≤ j then (none, s)
  else
    let c := nstoreCheck s l (16 * j) 16
    let x := slotNat (loom c.2 l) j
    (if c.1 && bit x 112 then some x else none, c.2)

/-- The weight in force of an entry of a plastic row onto slot `j` (R240, R245). LOOM_TNORULE counts at each fetch of the entry
(DESIGN CHOICE, log entry 132). -/
def plasticWeight (s : State) (l j : Nat) (w : Int) : Int × State :=
  let r := slotRead s l j
  if !bit r.1 112 then (w, r.2)
  else match ruleOf (loom s l) j with
    | some _ => readWeight r.2 l r.1 w
    | none => (w, inc r.2 (bLoom l) F.LOOM_TNORULE_COUNT)

/-! ## Contributions (R88, R90, R145, R227, R255) -/

/-- Adds `c` to element `t` of beat frame `f` (R226, R227). -/
def frameAdd (s : State) (l f t : Nat) (c : Int) : State :=
  let b := bLoom l
  let rows := rdI s b F.LOOM_FRDATA1_ROWSM1 f + 1
  let klen := rdI s b F.LOOM_FRDATA2_KLEN f
  if rdI s b F.LOOM_FRDATA1_VALID f = 0 ∨ rows * klen ≤ t then inc s b F.LOOM_TGTRANGE_COUNT
  else match contribRoom s l with
    | none => latchFault s b 0x0102
    | some s =>
      let a := rdI s b F.LOOM_FRDATA0_BASE f * 8 + 8 * t
      let r := scrLoad s l a 8
      let s := scrPut r.2 l a 8 (toBits 64 (sext 64 r.1 + c))
      let s := modLoom s l (fun m => { m with frHits := tabSet 0 m.frHits f (tabGet 0 m.frHits f + 1) })
      inc s b F.LOOM_FRAMEHIT_COUNT

/-- Adds `c` to the accumulator of modulator channel `t` mod 16 (R255), which counts as every contribution does (R90, R119). -/
def modAdd (s : State) (l t : Nat) (c : Int) : State :=
  match contribRoom s l with
  | none => latchFault s (bLoom l) 0x0102
  | some s =>
    inc (modLoom s l (fun m => { m with modAcc := tabSet 0 m.modAcc (t % 16) (tabGet 0 m.modAcc (t % 16) + c) })) (bLoom l) F.LOOM_CONTRIB_COUNT

/-- What one entry of a row does. `plastic` says that the row's weights may be plastic. -/
def entryApply (l : Nat) (h : RowHdr) (plastic : Bool) (payload : Nat) (e : SynEntry) (s : State) : State :=
  let b := bLoom l
  let contrib := fun (w : Int) => w * (payload : Nat) * 2 ^ h.shift
  if e.typ = 3 then s
  else if 4 ≤ e.typ then inc s b F.LOOM_BADSYN_COUNT
  else
    let s := if e.typ ≠ 0 ∧ e.delay ≠ 0 then inc s b F.LOOM_BADSYN_COUNT else s
    if 65536 ≤ e.target then inc s b F.LOOM_TGTRANGE_COUNT
    else if e.typ = 1 then frameAdd s l h.frame e.target (contrib e.weight)
    else if e.typ = 2 then modAdd s l e.target (contrib e.weight)
    else
      let m := loom s l
      if m.lat.nslots ≤ e.target then inc s b F.LOOM_TGTRANGE_COUNT
      else
        let ws := if plastic then plasticWeight s l e.target e.weight else (e.weight, s)
        if e.delay = 0 then accAdd ws.2 l e.target (contrib ws.1) true
        else dqContrib ws.2 l e.target (contrib ws.1) e.delay

/-- A row streams its entries: `a` is its synapse-store address, none for a row of HBM. -/
def rowApply (s : State) (l : Nat) (a : Option Nat) (row : Nat) (pick : W64) : State :=
  let b := bLoom l
  let h := rowHdr row
  let payload := bits pick.toNat 59 52
  let kind := bits pick.toNat 63 60
  let s := inc s b F.LOOM_ROWS_COUNT
  let region := match a with | some x => inRegion (loom s l) x | none => false
  let s := if !h.plastic then s
    else match a with
      | none => inc s b F.LOOM_HBMPLAST_COUNT
      | some x => if region then preEvent s l x (if kind = kValue then 1 else payload)
        else inc s b F.LOOM_TPOUTSIDE_COUNT
  forEach (rowEntries h row) (entryApply l h (h.plastic && region) payload) s

/-- A row in the synapse store: one with a word that cannot be corrected adds nothing (R148). -/
def rowStore (s : State) (l a : Nat) (pick : W64) : State :=
  let b := bLoom l
  if 0x80000 < a + 8 then latchFault s b 0x0105
  else
    let c := sstoreCheck s l a 8
    let h := rowHdr (sstoreNat c.2 l a 8)
    if !c.1 then c.2
    else if 0x80000 < a + rowSize h ∨ (h.wide ∧ h.base ≠ 0) then latchFault c.2 b 0x0105
    else
      let c := sstoreCheck c.2 l a (rowSize h)
      if c.1 then rowApply c.2 l (some a) (sstoreNat c.2 l a (rowLen h)) pick else c.2

/-! ## HBM rows and the row cache (R150, R151) -/

/-- Sets of the row cache: LOOM_RCSIZE × 4 KiB / 1 KiB. -/
def rcSets (s : State) (l : Nat) : Nat := rd s (bLoom l) F.LOOM_RCSIZE_SIZE * 4

/-- Where way `way` of set `set` lies in scratch. -/
def rcAt (s : State) (l set way : Nat) : Nat := rd s (bLoom l) F.LOOM_RCBASE_BASE * 4096 + (set * 4 + way) * 256

/-- The way that holds a line. -/
def rcFind (m : Loom) (sets line : Nat) : Option Nat :=
  ((tabGet [] m.rowCache (line % sets)).find? (fun e => e.1 = line)).map (·.2)

/-- Marks a line as the most recently used of its set. -/
def rcTouch (m : Loom) (sets line : Nat) : Loom :=
  let ways := tabGet [] m.rowCache (line % sets)
  let ways := ways.filter (fun e => e.1 != line) ++ ways.filter (fun e => e.1 = line)
  { m with rowCache := tabSet [] m.rowCache (line % sets) ways }

/-- Puts a line into its set of 4 ways, the least recently used one giving way. -/
def rcPut (s : State) (l sets line : Nat) (d : List Byte) : State :=
  let set := line % sets
  let ways := (tabGet [] (loom s l).rowCache set).filter (fun e => e.1 != line)
  let kept := ways.drop (ways.length - 3)
  let way := ((List.range 4).find? (fun w => !kept.any (fun e => e.2 = w))).getD 0
  scrPut (modLoom s l (fun m => { m with rowCache := tabSet [] m.rowCache set (kept ++ [(line, way)]) })) l (rcAt s l set way) 256
    (leNat d)

/-- The lines that the row of a wait needs, as far as its header is known: the header's line first. -/
def waitLines (w : RowWait) : List Nat :=
  let first := w.addr / 256
  match w.lines.find? (fun e => e.1 = first) with
  | none => [first]
  | some e =>
    if w.ptr then [first] else
    let h := rowHdr (leNat ((e.2.drop (w.addr % 256)).take 8))
    (List.range ((w.addr + rowLen h - 1) / 256 + 1 - first)).map (· + first)

/-- A wait's bytes once it has every line it needs. -/
def waitRow (w : RowWait) : Option Nat :=
  let ls := waitLines w
  if ls.length = 1 ∧ w.lines.isEmpty then none
  else if ls.all (fun k => w.lines.any (fun e => e.1 = k)) then
    some (leNat ((ls.flatMap (fun k => ((w.lines.find? (fun e => e.1 = k)).map (·.2)).getD [])).drop (w.addr % 256)))
  else none

/-- Line fills that may be outstanding. -/
abbrev fillLimit : Nat := 32

/-- A wait takes line `k` from the cache, or asks for it unless it is already on its way or 32 fills are outstanding. Without a cache every
row reads its own lines. A line found counts in LOOM_RCHIT, a fill in LOOM_RCMISS. -/
def waitLine (l k : Nat) (p : RowWait × State) : RowWait × State :=
  let w := p.1
  let s := p.2
  let b := bLoom l
  let sets := rcSets s l
  let m := loom s l
  if w.lines.any (fun e => e.1 = k) then p
  else match (if sets = 0 then none else rcFind m sets k) with
    | some way =>
      let d := scrBytes s l (rcAt s l (k % sets) way) 256
      ({ w with lines := w.lines ++ [(k, d.1)] }, inc (modLoom d.2 l (fun m => rcTouch m sets k)) b F.LOOM_RCHIT_COUNT)
    | none =>
      if w.asked.contains k ∨ (m.fills.contains k ∧ sets ≠ 0) ∨ fillLimit ≤ m.fills.length + m.deadFills.length then p
      else ({ w with asked := w.asked ++ [k] },
        inc (hbmAsk (setLoom s l { m with fills := m.fills ++ [k] }) b false (k * 256) 5 []) b F.LOOM_RCMISS_COUNT)

/-- Gives a wait its header's line, and then the lines that the header calls for. -/
def waitFeed (s : State) (l : Nat) (w : RowWait) : RowWait × State :=
  let p := waitLine l (w.addr / 256) (w, s)
  (waitLines p.1).foldl (fun p k => waitLine l k p) p

/-- Streams a row of HBM that waits if it is complete; else it waits. -/
def hbmRowGo (s : State) (l : Nat) (w : RowWait) : State :=
  let p := waitFeed s l w
  match waitRow p.1 with
  | some row =>
    if (rowHdr row).wide ∧ (rowHdr row).base ≠ 0 then latchFault p.2 (bLoom l) 0x0105
    else rowApply p.2 l none (row % 2 ^ (8 * rowLen (rowHdr row))) w.pick
  | none => modLoom p.2 l (fun m => { m with rowWaits := m.rowWaits ++ [p.1] })

/-- The word of a pointer array, once its line is there. -/
def waitPtr (w : RowWait) : Option Nat :=
  (w.lines.find? (fun e => e.1 = w.addr / 256)).map (fun e => leNat ((e.2.drop (w.addr % 256)).take 4))

/-- Takes the row that a pointer word of HBM names (R139, R141). -/
def ptrTake (s : State) (l : Nat) (pick : W64) (x : Nat) : State :=
  match rowPtr x with
  | .noRow => inc s (bLoom l) F.LOOM_NOROW_COUNT
  | .store a => rowStore s l a pick
  | .hbm a => hbmRowGo s l ⟨a, pick, false, [], []⟩
  | _ => latchFault s (bLoom l) 0x0105

/-- What waits goes on if its lines are there; else it waits. -/
def waitGo (s : State) (l : Nat) (w : RowWait) : State :=
  if w.ptr then
    let p := waitFeed s l w
    match waitPtr p.1 with
    | some x => ptrTake p.2 l w.pick x
    | none => modLoom p.2 l (fun m => { m with rowWaits := m.rowWaits ++ [p.1] })
  else hbmRowGo s l w

/-! ## Integration -/

/-- Integrates a pick due now (R140, R141). -/
def integratePick (s : State) (l : Nat) (w : W64) : State :=
  let b := bLoom l
  let r := lookup s l (bits w.toNat 51 32) (bits w.toNat 31 16)
  let s := r.2
  match r.1 with
  | .miss => inc s b F.LOOM_AFFMISS_COUNT
  | .noRow => inc s b F.LOOM_NOROW_COUNT
  | .bad => latchFault s b 0x0105
  | .lost => s
  | .store a => rowStore s l a w
  | .hbm a => waitGo s l ⟨a, w, false, [], []⟩
  | .array a => waitGo s l ⟨a, w, true, [], []⟩

/-- A released queue entry: a pick, or a contribution record (R104, R105). -/
def integrateEntry (l : Nat) (w : W64) (s : State) : State :=
  let x := w.toNat
  if bits x 63 60 = 7 then accAdd s l (bits x 59 45) (sext 32 (bits x 31 0)) false else integratePick s l w

/-- The loom integrates now: its beat is open and has not gone to SETTLE. -/
def integrating (m : Loom) : Bool := m.phase = .opening || m.phase = .integrate || m.phase = .close

/-- A pick accepted from the fabric, of epoch `ep` (R102, R103). -/
def deliver (s : State) (l ep : Nat) (w : W64) : State :=
  let b := bLoom l
  let s := inc s b F.LOOM_PICKSIN_COUNT
  let kind := bits w.toNat 63 60
  if kind = 0 ∨ 4 ≤ kind then inc s b F.LOOM_BADKIND_COUNT
  else
    let due := ep + 1 + bits w.toNat 15 12
    let s := logPick s l w (decide (ep = (loom s l).beat))
    let m := loom s l
    if due = m.beat ∧ integrating m then integratePick s l w
    else dqAppend s l due w (some ep)

/-- The released entries that are integrated: in a retry round without the picks of epoch `ep`, since they are injected again (log entry
17). -/
def keeps (ep : Option Nat) (e : DqMark) : Bool := e.epoch.isNone || e.epoch != ep

/-- Integrates the spilled entries of the released queue slot. -/
def integrateSpill (s : State) (l : Nat) (ep : Option Nat) : State :=
  let r := (loom s l).released.spill.entries (keeps ep) (fun s a => (leNat (tabGetRun 0 s.mem.hbm a 8), s)) s
  forEach r.1 (integrateEntry l) r.2

/-- Integrates the released queue slot: the entries of the area, those that found no room in it, and the spilled ones once they are read
back. -/
def integrateReleased (s : State) (l : Nat) (ep : Option Nat) : State :=
  let r := (loom s l).released.area.entries (keeps ep) (fun s a => scrLoad s l a 8) s
  let ws := ((loom r.2 l).dqLast.filter (fun x => keeps ep x.mark)).map (·.word)
  let s := forEach (r.1 ++ ws) (integrateEntry l) r.2
  if (loom s l).spillDue then s else integrateSpill s l ep

/-! ## Clearing a beat's work (R195 step 4, R229, R251) -/

/-- Clears the beat frames, the stage map and the modulator accumulators. -/
def clearBeatWork (s : State) (l : Nat) : State :=
  let b := bLoom l
  let s := forEach (List.range 16) (fun f s =>
    if rdI s b F.LOOM_FRDATA1_VALID f = 1 then
      let a := rdI s b F.LOOM_FRDATA0_BASE f * 8
      let n := (rdI s b F.LOOM_FRDATA1_ROWSM1 f + 1) * rdI s b F.LOOM_FRDATA2_KLEN f
      scrClear s l a (a + 8 * n)
    else s) s
  let t := (loom s l).lat.tens
  modLoom (scrClear s l t.stage (t.stage + t.size / 8)) l (fun m => { m with modAcc := [], frHits := [] })

/-! ## Areas of scratch whose bank is held (R316, R324, R326) -/

/-- An area that the neuron engine, the fetch unit or the tensioner works on is held: accumulators, delay queues, row cache, stage map, or a
beat frame. -/
def neuronHeld (s : State) (l : Nat) : Bool :=
  let b := bLoom l
  let t := (loom s l).lat
  holdsAny (loom s l) && (scrHeld s l t.accBase (8 * t.nslots) || scrHeld s l t.dqBase (256 * t.dqSize)
    || scrHeld s l (rcAt s l 0 0) (1024 * rcSets s l) || scrHeld s l t.tens.stage (t.tens.size / 8)
    || (List.range 16).any (fun f => rdI s b F.LOOM_FRDATA1_VALID f = 1 && scrHeld s l (rdI s b F.LOOM_FRDATA0_BASE f * 8)
      (8 * ((rdI s b F.LOOM_FRDATA1_ROWSM1 f + 1) * rdI s b F.LOOM_FRDATA2_KLEN f))))

/-- Bytes of the retention ring (R182). -/
abbrev retBytes : Nat := 131072

/-- The retention ring or the stream table of the network interface is held. -/
def netifHeld (s : State) (l : Nat) : Bool :=
  let m := loom s l
  holdsAny m && (scrHeld s l (retBase s l) retBytes || scrHeld s l m.lat.instBase (16 * m.latKeys.length))

end Sys2Proof.Machine
end

