-- ==== Sys2Proof/Machine/LoomNi.lean ====
section
/-!
DEFINITION. The loom's network interface for streams (chapter 05): stream words, sequence numbers, close markers, re-pick, the tally,
injection, and retry rounds.
-/

namespace Sys2Proof.Machine

/-! ## Words of a STREAM packet (R99, R176, R335) -/

/-- A word: a pick, a CLOSE word, a RESEND word with the pick that follows it, PAD, or a word of a kind that no STREAM packet carries. -/
inductive StreamWord where
  | pick (w : W64)
  | close (epoch count : Nat)
  | resend (epoch xseq : Nat) (w : W64)
  | pad
  | bad
  deriving DecidableEq, Repr

/-- A word that does not take the next one with it. A RESEND word without its pick is of no use (log entry 110). -/
def streamSingle (w : W64) : StreamWord :=
  let x := w.toNat
  let k := bits x 63 60
  if k < 8 then .pick w else if k = 8 then .close (bits x 59 44) (bits x 43 12) else if k = 0xB then .pad else .bad

/-- The words of a packet's payload. -/
def streamWords : List W64 → List StreamWord
  | [] => []
  | [w] => [streamSingle w]
  | w :: v :: rest =>
    if bits w.toNat 63 60 = 0xA then .resend (bits w.toNat 59 44) (bits w.toNat 43 12) v :: streamWords rest
    else streamSingle w :: streamWords (v :: rest)

/-- The CLOSE word of a stream. -/
def closeWord (ep count : Nat) : W64 :=
  BitVec.ofNat 64 (8 * 2 ^ 60 + ep % 65536 * 2 ^ 44 + count % 2 ^ 32 * 2 ^ 12 + count % 4096)
/-- A REPICK word. -/
def repickWord (ep first num : Nat) : W64 :=
  BitVec.ofNat 64 (9 * 2 ^ 60 + ep % 65536 * 2 ^ 44 + first % 2 ^ 32 * 2 ^ 12 + num % 4096)
/-- A RESEND word. -/
def resendWord (ep xseq : Nat) : W64 := BitVec.ofNat 64 (0xA * 2 ^ 60 + ep % 65536 * 2 ^ 44 + xseq % 2 ^ 32 * 2 ^ 12)

/-! ## One stream (R180) -/

/-- What a word does to a stream. -/
inductive StreamAct where
  /-- Accepted as XSEQ `x` with the new state; `gap` picks were found missing on the way. -/
  | accept (st : StreamSt) (gap : Nat)
  /-- A marker recorded; `gap` picks were found missing at it. -/
  | marker (st : StreamSt) (gap : Nat)
  /-- A duplicate or stale word. -/
  | dup
  /-- A fifth missing range: REPICKOVF. -/
  | overflow
  /-- A marker that fails to add up: STREAMALIAS. -/
  | unresolvable
  deriving DecidableEq, Repr

/-- Picks missing on a stream. -/
def missing (st : StreamSt) : Nat := st.miss.foldl (fun n m => n + (m.last - m.first + 1)) 0

/-- A stream whose marker is recorded with nothing missing holds its counts for the tally and starts the next epoch. -/
def streamAdvance (st : StreamSt) : StreamSt :=
  match st.marker with
  | some c => if st.miss.isEmpty then { StreamSt.fresh (st.ep + 1) with held := (c, st.r, st.rep) } else st
  | none => st

/-- An arriving pick word with SEQ `q`. -/
def streamPick (st : StreamSt) (q : Nat) : StreamAct :=
  let d := (q + 4096 - st.x % 4096) % 4096
  if d = 0 then .accept (streamAdvance { st with r := st.r + 1, x := st.x + 1 }) 0
  else if d ≤ 2047 then
    if 4 ≤ st.miss.length then .overflow
    else .accept { st with r := st.r + 1, x := st.x + d + 1, miss := st.miss ++ [⟨st.x, st.x + d - 1, 0, 0⟩] } d
  else .dup

/-- An arriving CLOSE word: its epoch mod 2¹⁶ and COUNT. A stand-in takes it whatever COUNT is (R197). -/
def streamClose (st : StreamSt) (ep16 count : Nat) : StreamAct :=
  if ep16 ≠ st.ep % 65536 then .dup
  else if st.marker.isSome then .dup
  else if st.any then
    .marker (streamAdvance { st with
      marker := some count
      x := max st.x count
      miss := if st.x < count then st.miss ++ [⟨st.x, count - 1, 0, 0⟩] else st.miss }) (count - st.x)
  else if count = st.r + missing st ∧ (count + 4096 - st.x % 4096) % 4096 = 0 then
    .marker (streamAdvance { st with marker := some count }) 0
  else if st.x < count ∧ (count - st.x) % 4096 ≠ 0 then
    if 4 ≤ st.miss.length then .overflow
    else .marker { st with marker := some count, x := count, miss := st.miss ++ [⟨st.x, count - 1, 0, 0⟩] } (count - st.x)
  else .unresolvable

/-- The missing ranges after XSEQ `x` of one of them has come. -/
def missFill (ms : List Miss) (x : Nat) : List Miss :=
  ms.flatMap (fun m =>
    if m.first ≤ x ∧ x ≤ m.last then
      (if m.first < x then [⟨m.first, x - 1, m.tries, m.asked⟩] else []) ++ (if x < m.last then [⟨x + 1, m.last, m.tries, m.asked⟩] else [])
    else [m])

/-- An arriving RESEND word: its epoch mod 2¹⁶ and XSEQ. -/
def streamResend (st : StreamSt) (ep16 x : Nat) : StreamAct :=
  if ep16 ≠ st.ep % 65536 then .dup
  else if st.miss.any (fun m => m.first ≤ x && x ≤ m.last) then
    let ms := missFill st.miss x
    if 4 < ms.length then .overflow
    else .accept (streamAdvance { st with r := st.r + 1, rep := st.rep + 1, miss := ms }) 0
  else .dup

/-! ## The loom's streams -/

/-- The key of a stream: word 0 of its table entry (R177). -/
def streamKey (pkg endpoint tag : Nat) : Nat := pkg + endpoint * 16 + tag * 2 ^ 15

/-- The state kept for a stream, a fresh one where there is none. -/
def streamGet (m : Loom) (key : Nat) : StreamSt :=
  match m.streams.find? (fun e => e.1 = key) with
  | some e => e.2
  | none => StreamSt.fresh (m.beat - 1)

/-- Keeps a stream's state. -/
def streamPut (m : Loom) (key : Nat) (st : StreamSt) : Loom :=
  if m.streams.any (fun e => e.1 = key) then
    { m with streams := m.streams.map (fun e => if e.1 = key then (key, st) else e) }
  else { m with streams := m.streams ++ [(key, st)] }

/-- The keys that a stream table of `n` entries at scratch offset `base` lists (R177). -/
def tableKeys (m : Loom) (base n : Nat) : List Nat :=
  (List.range n).map (fun i => memNat m.scratch (base + 16 * i) 4 % 2 ^ 26)

/-- The table staged in a transaction that a group holds for the next beat, its offset and its keys (R178). -/
def stagedTable (s : State) (l : Nat) : Nat × List Nat :=
  let b := bLoom l
  let slot := tabGet GroupSlot.reset s.beat.slots (rd s b F.TXN_GROUP)
  if rd s b F.TXN_TSTATE = 2 && slot.beat = (loom s l).beat + 1 &&
      ((ctl s b).staged.any (fun w => w.key / 65536 = F.LOOM_INSTBASE_BASE.off || w.key / 65536 = F.LOOM_INSTCOUNT_COUNT.off))
  then
    let look := fun (f : Fld) => fldGet f (match (ctl s b).staged.find? (fun w => w.key = f.off * 65536) with
      | some x => mergeBits x.mask (regGet s b f.off 0) x.val
      | none => regGet s b f.off 0)
    let base := look F.LOOM_INSTBASE_BASE * 16
    (base, tableKeys (loom s l) base (min 4096 (look F.LOOM_INSTCOUNT_COUNT)))
  else (0, [])

/-- The scratch offset of a stream's entry, in the latched table or else in the staged one. -/
def streamEntry (s : State) (l key : Nat) : Option Nat :=
  let m := loom s l
  match findIdx? (fun k => k = key) m.latKeys with
  | some i => some (m.lat.instBase + 16 * i)
  | none =>
    let t := stagedTable s l
    (findIdx? (fun k => k = key) t.2).map (fun i => t.1 + 16 * i)

/-- Keeps a stream's state. Words 1 to 3 of its entry change with it, in a form that the manual does not give: free values (R177, log
entry 107). -/
def streamKeep (s : State) (l key : Nat) (st : StreamSt) : State :=
  let s := modLoom s l (fun m => streamPut m key st)
  match streamEntry s l key with
  | none => s
  | some a =>
    let f := drawFree s
    netPut f.2 l (a + 4) 12 (f.1 % 2 ^ 96)

/-- Balanced for the current beat (R181): every latched stream has closed epoch N − 1. -/
def balanced (m : Loom) : Bool := m.latKeys.all (fun k => m.beat ≤ (streamGet m k).ep)

/-- Streams whose marker is not yet recorded (LOOM_NISTAT.UNCLOSED). -/
def unclosed (m : Loom) : Nat :=
  (m.latKeys.filter (fun k => (streamGet m k).ep < m.beat && (streamGet m k).marker.isNone)).length

/-- The tally's three counts (R187). -/
def tallyCounts (m : Loom) : Nat × Nat × Nat :=
  m.latKeys.foldl (fun a k => let h := (streamGet m k).held
    (a.1 + h.1, a.2.1 + h.2.1, a.2.2 + h.2.2)) (0, 0, 0)

/-- Sends the tally once the loom is balanced, nothing is outstanding in its integration, no entry waits for room in a
queue, its INTEGRATE hook has yielded and its log is written (R108, R110, R181, R187, R281, R614). -/
def tryTally (s : State) (l : Nat) : State :=
  let m := loom s l
  if m.phase = .integrate ∧ !m.tallySent ∧ balanced m ∧ !m.hookI ∧ m.rowWaits.isEmpty ∧ !m.spillDue ∧ m.dqWaits.isEmpty ∧
      m.logBuf.isEmpty then
    let c := tallyCounts m
    send (setLoom s l { m with tallySent := true, phase := .close }) .tally (bHub (loomHub l))
      [l, m.beat % 65536, m.round, c.1, c.2.1, c.2.2]
  else s

/-! ## Re-pick requests (R185) -/

/-- Sends one REPICK word to the source of a stream and counts it. -/
def sendRepick (s : State) (l key ep first num : Nat) : State :=
  let pkg := bits key 3 0
  inc (niSend s l pkg .repick (niFlits s l 0 1 (bits key 25 15) pkg (genPath s l pkg (bits key 14 4))
    (wordFlits [(repickWord ep first num).toNat] 0))) (bLoom l) F.LOOM_REPICKREQ_COUNT

/-- The requests for one missing range: one for each run of up to 4,095. -/
def repickRange (l key ep : Nat) (m : Miss) (s : State) : State :=
  forEach (List.range ((m.last - m.first + 4095) / 4095)) (fun i s =>
    sendRepick s l key ep (m.first + 4095 * i) (min 4095 (m.last + 1 - (m.first + 4095 * i)))) s

/-- Requests every missing range of a stream whose marker has just been recorded; each range has had one attempt. -/
def repickAll (s : State) (l key : Nat) : State :=
  let st := streamGet (loom s l) key
  if st.marker.isSome && !st.miss.isEmpty then
    let s := streamKeep s l key { st with miss := st.miss.map (fun r => { r with tries := 1, asked := ltNow s }) }
    forEach st.miss (repickRange l key st.ep) s
  else s

/-! ## Arrival (R178 to R180) -/

/-- What one word of a packet does. -/
def streamWord (l key : Nat) (w : StreamWord) (s : State) : State :=
  let b := bLoom l
  let st := streamGet (loom s l) key
  let dup := inc s b F.LOOM_DUPDROP_COUNT
  match w with
  | .pick p => match streamPick st (bits p.toNat 11 0) with
    | .accept st' gap => deliver (incBy (streamKeep s l key st') b F.LOOM_GAPPICKS_COUNT gap) l st.ep p
    | .overflow => latchFault s b 0x0109
    | _ => dup
  | .close ep count => match streamClose st ep count with
    | .marker st' gap => repickAll (incBy (streamKeep s l key st') b F.LOOM_GAPPICKS_COUNT gap) l key
    | .overflow => latchFault s b 0x0109
    | .unresolvable => latchFault s b 0x0108
    | _ => dup
  | .resend ep x p => match streamResend st ep x with
    | .accept st' _ => deliver (inc (streamKeep s l key st') b F.LOOM_REPICKRX_COUNT) l st.ep p
    | .overflow => latchFault s b 0x0109
    | _ => dup
  | .pad => s
  | .bad => inc s b F.LOOM_BADKIND_COUNT

/-- The word belongs to the epoch that the loom's beat closes, N − 1. -/
def ofEpoch (beat : Nat) (st : StreamSt) : StreamWord → Bool
  | .pick _ => st.ep < beat
  | .close ep _ => ep = (beat + 65535) % 65536
  | .resend ep _ _ => ep = (beat + 65535) % 65536
  | .pad => false
  | .bad => false

/-- The staged stream table is held. -/
def stagedHeld (s : State) (l : Nat) : Bool := holdsAny (loom s l) && scrHeld s l (stagedTable s l).1 (16 * (stagedTable s l).2.length)

/-- Streams wait at the interface: a full log, entries without room in the queues (R108), a bank that is held, or an OPEN whose areas are
still to be read. -/
def streamHeld (s : State) (l : Nat) : Bool :=
  logFull s l || !(loom s l).dqWaits.isEmpty || (loom s l).openDue.isSome || neuronHeld s l || netifHeld s l || stagedHeld s l

/-- A packet on VC0 or VC1 reaches the interface of loom `l`: nothing passes the closed port of an isolated site, and another partition's
packet is refused (R352, R355). -/
def niTake (s : State) (l part : Nat) (f : State → State) : State :=
  let b := bLoom l
  if isolated s l then isoDrop s l
  else
    let s := inc s b F.LOOM_NIPKTRX_COUNT
    if part ≠ rd s b F.OWNER_PART then latchFault (inc s b F.LOOM_PARTDROP_COUNT) b 0x0115 else f s

/-- A STREAM packet's words are taken one by one, or it is stray (R178 to R180). In a retry drain, or before its link's RESTART, words of
epoch N − 1 are discarded (R195). -/
def streamTake (l : Nat) (h : StreamHdr) (ws : List W64) (s : State) : State :=
  let b := bLoom l
  let m := loom s l
  let key := streamKey h.pkg.toNat h.endpoint.toNat h.tag.toNat
  if m.latKeys.contains key || (stagedTable s l).2.contains key then
    let s := if m.streams.any (fun e => e.1 = key) then s
      else streamKeep s l key (StreamSt.fresh (if m.latKeys.contains key then m.beat - 1 else m.beat))
    let cut := m.drain || (h.port.any (fun p => m.noRestart.contains p.val))
    let gone := fun (w : StreamWord) => cut && ofEpoch m.beat (streamGet (loom s l) key) w
    let ws := streamWords ws
    let s := incBy s b F.LOOM_ABORTDROP_COUNT (ws.filter gone).length
    tryTally (forEach (ws.filter (fun w => !gone w)) (streamWord l key) s) l
  else latchFault (inc s b F.LOOM_STRAYDROP_COUNT) b 0x0107

/-- A STREAM packet (R178 to R180, R195, R334, R352): one longer than its class may be is discarded; it waits while streams wait. -/
def streamPacket (s : State) (l : Nat) (h : StreamHdr) (ws : List W64) : State :=
  let b := bLoom l
  if 16 < ws.length then inc s b F.LOOM_NIBADPKT_COUNT
  else if streamHeld s l then send s .hold b []
  else niTake s l h.part (streamTake l h ws)

/-! ## Timers of R185 -/

/-- When the wait of a stream starts: the loom's, or for a reed source the moment its markers are due. -/
def waitFrom (s : State) (l key : Nat) : Nat :=
  let w := (loom s l).waitStart
  if bits key 14 4 < 0x400 || rdB s bBeat F.BEAT_CTL_MODE then w
  else
    let g := (List.range 8).foldl (fun g p =>
      if rdB s (bReed p) F.CONTROL_ENABLE then max g (rd s (bReed p) F.REED_GUARD_NS) else g) 0
    max w (sched s (loom s l).beat + g)

/-- BEAT_CLOSEWAIT elapsed with a stream's marker missing: a NUM 0 request. -/
def closewaitExpiry (s : State) (l key : Nat) : State :=
  let m := loom s l
  let st := streamGet m key
  if m.latKeys.contains key ∧ st.ep < m.beat ∧ st.marker.isNone ∧ st.tries0 = 0 ∧
      waitFrom s l key + rd s bBeat F.BEAT_CLOSEWAIT_NS ≤ ltNow s then
    sendRepick (streamKeep s l key { st with tries0 := 1, asked0 := ltNow s }) l key st.ep 0 0
  else s

/-- REPICKMAX: 1 to 7, 0 means 8. -/
def repickMax (s : State) : Nat :=
  let n := rd s bBeat F.BEAT_RETRY_REPICKMAX
  if n = 0 then 8 else n

/-- BEAT_REPICKWAIT has elapsed since a request made at `t`. -/
def repickDue (s : State) (t : Nat) : Bool := t + rd s bBeat F.BEAT_REPICKWAIT_NS ≤ ltNow s

/-- BEAT_REPICKWAIT elapsed on a request: the NUM 0 request, or that of the missing range that begins at `first`. It is
repeated, or REPICKFAIL is latched after REPICKMAX attempts; while HELD attempts are not counted (R197). -/
def repickwaitExpiry (s : State) (l key : Nat) (first : Option Nat) : State :=
  let st := streamGet (loom s l) key
  let held := beatState s = stHeld
  match first with
  | none =>
    if st.tries0 = 0 ∨ st.marker.isSome ∨ !repickDue s st.asked0 then s
    else if repickMax s ≤ st.tries0 ∧ !held then latchFault s (bLoom l) 0x010A
    else sendRepick (streamKeep s l key
      { st with tries0 := if held then st.tries0 else st.tries0 + 1, asked0 := ltNow s }) l key st.ep 0 0
  | some x => match st.miss.find? (fun r => r.first = x) with
    | none => s
    | some r =>
      if r.tries = 0 ∨ !repickDue s r.asked then s
      else if repickMax s ≤ r.tries ∧ !held then latchFault s (bLoom l) 0x010A
      else
        let st' := { st with miss := st.miss.map (fun q =>
          if q.first = x then { q with tries := if held then q.tries else q.tries + 1, asked := ltNow s } else q) }
        repickRange l key st.ep r (streamKeep s l key st')

/-! ## The source side (R176, R186) -/

/-- First ring entry and number of picks of segment `seg` in the retained epoch. -/
def segRun (m : Loom) (seg : Nat) : Nat × Nat :=
  match m.ret.first.find? (fun e => e.1 = seg) with
  | some e => (e.2.1, e.2.2)
  | none => (0, 0)

/-! ## Route records (R132, R136, R137) -/

/-- NHOPS of a record. -/
def recNhops (w : Nat) : Nat := bits w 198 192
/-- Its NEXT. -/
def recNext (w : Nat) : Nat := bits w 219 208
/-- Its REMOTE. -/
def recRemote (w : Nat) : Bool := bit w 199
/-- Its PKG. -/
def recPkg (w : Nat) : Nat := bits w 203 200

/-- The package that a record's path leads to. -/
def recDpkg (s : State) (w : Nat) : Nat := if recRemote w then recPkg w else selfPkg s
/-- HOPS and HEND of a record. -/
def recPath (w : Nat) : Nat × Nat × Nat := (bits w 191 0, recNhops w, 0)

/-- The chain of route records of a segment in a list of records, none while one of them is missing. -/
def chainOf (rs : List RouteRec) (pop : Nat) : Nat → Nat → Option (List RouteRec)
  | 0, _ => some []
  | fuel + 1, idx => match rs.find? (fun r => r.pop = pop && r.idx = idx) with
    | none => none
    | some r => if recNext r.word = 0xFFF then some [r] else (chainOf rs pop fuel (recNext r.word)).map (r :: ·)

/-- The segments of the epoch that inject (R135): those whose route is sound. -/
def injectable (m : Loom) : List Seg := m.ret.segs.filter (fun g => !m.badSegs.contains g.idx)

/-- The records that injection uses: those gathered since OPEN, or in a retry round those of the first injection (R184). -/
def injectRoutes (m : Loom) : List RouteRec := if m.ret.closed then m.retRoutes else m.openRoutes

/-- A segment's chain with the records' positions, which are the low bits of the streams' tags (R174). -/
def segChain (m : Loom) (g : Seg) : List (Nat × RouteRec) :=
  let c := (chainOf (injectRoutes m) g.pop 32 g.route).getD []
  (List.range c.length).zip c

/-- Every record that injection needs is at hand (R136). -/
def routesReady (m : Loom) : Bool := (injectable m).all (fun g => (chainOf (injectRoutes m) g.pop 32 g.route).isSome)

/-! ## Injection and re-pick service (R137, R175, R176, R184, R186) -/

/-- Sends words of a stream in packets of at most 16. -/
def sendWords (s : State) (l tag dpkg : Nat) (path : Nat × Nat × Nat) (ws : List W64) : State :=
  forEach (List.range ((ws.length + 15) / 16)) (fun i s =>
    niSend s l dpkg .stream (niFlits s l 0 0 tag dpkg path (wordFlits (((ws.drop (16 * i)).take 16).map (·.toNat)) padWord))) s

/-- Sends words on the streams of a segment, each record of the chain in order. -/
def sendChain (s : State) (l : Nat) (g : Seg) (chain : List (Nat × RouteRec)) (ws : List W64) : State :=
  forEach chain (fun r s => sendWords s l (g.idx * 32 + r.1) (recDpkg s r.2.word) (recPath r.2.word) ws) s

/-- The picks of a segment with XSEQ from `q` on, `n` of them. -/
def segPicks (s : State) (l : Nat) (g : Seg) (q n : Nat) : List W64 :=
  let run := segRun (loom s l) g.idx
  (List.range n).map (fun i => retPick s l (run.1 + q + i) (q + i))

/-- Injects the retained epoch: the picks in ring order, which is ascending slot order (R101, R137), a packet of a segment's streams leaving with
its sixteenth or the segment's last pick; then the close marker on every stream (R176). -/
def injectAll (s : State) (l : Nat) : State :=
  let s := retCheck s l (loom s l).ret.count
  let m := loom s l
  match m.ret.epoch with
  | none => s
  | some ep =>
    let s := forEach (List.range m.ret.count) (fun k s =>
      let seg := bits (scrNat s l (retBase s l + 4 * k) 4) 30 25
      let run := segRun m seg
      let q := k - run.1
      if q % 16 ≠ 15 ∧ q + 1 ≠ run.2 then s
      else match (injectable m).find? (fun g => g.idx = seg) with
        | some g => sendChain s l g (segChain m g) (segPicks s l g (q / 16 * 16) (q % 16 + 1))
        | none => s) s
    let s := forEach (injectable m) (fun g s =>
      sendChain s l g (segChain m g) [closeWord ep (segRun m g.idx).2]) s
    modLoom s l (fun m => { m with retRoutes := injectRoutes m, ret := { m.ret with closed := true } })

/-- The requests that a source holds at most (R350). -/
abbrev repickQueue : Nat := 64

/-- A source holds a NUM 0 request until it sends the CLOSE word; one more than 64 is discarded (R186, R350). -/
def holdRepick (s : State) (l : Nat) (q : HeldReq) : State :=
  if repickQueue ≤ (loom s l).heldReqs.length then inc s (bLoom l) F.LOOM_REPICKQFULL_COUNT
  else modLoom s l (fun m => { m with heldReqs := m.heldReqs ++ [q] })

/-- Serves a request for the retained epoch. -/
def repickServe (s : State) (l ep tag first num pkg dst : Nat) : State :=
  let b := bLoom l
  let run := segRun (loom s l) (tag / 32)
  let answer := fun (ws : List W64) (s : State) =>
    inc (sendWords s l tag pkg (genPath s l pkg dst) ws) b F.LOOM_REPICKSRV_COUNT
  if num = 0 then answer [closeWord ep run.2] s
  else if run.2 ≤ first then inc s b F.LOOM_REPICKBAD_COUNT
  else
    let n := min (first + num) run.2 - first
    let s := (scratchCheck s l (retBase s l + 4 * (run.1 + first)) (4 * n)).2
    answer ((List.range n).flatMap (fun i => [resendWord ep (first + i), retPick s l (run.1 + first + i) (first + i)])) s

/-- Serves a REPICK word at a loom source (R186): RESEND words, or the CLOSE word for NUM 0, which a request that is early waits for. In a
retry drain, or before the RESTART of the link it came by, a request for epoch N − 1 is discarded (R195). -/
def serveRepick (l tag pkg dst : Nat) (port : Option PortId) (w : W64) (s : State) : State :=
  let b := bLoom l
  let m := loom s l
  let ep16 := bits w.toNat 59 44
  let first := bits w.toNat 43 12
  let num := bits w.toNat 11 0
  let next := match m.ret.epoch with | some e => e + 1 | none => m.beat
  let served := m.ret.epoch.any (fun e => e % 65536 = ep16)
  let early := if served then !m.ret.closed else decide ((ep16 + 65536 - next % 65536) % 65536 < 32768)
  if (m.drain ∨ port.any (fun p => m.noRestart.contains p.val)) ∧ ep16 = (m.beat + 65535) % 65536 then inc s b F.LOOM_ABORTDROP_COUNT
  else if num = 0 ∧ early then holdRepick s l ⟨tag, ep16, pkg, dst⟩
  else match m.ret.epoch with
    | some e => if served then repickServe s l e tag first num pkg dst else inc s b F.LOOM_REPICKBAD_COUNT
    | none => inc s b F.LOOM_REPICKBAD_COUNT

/-- A REPICK packet at a loom. -/
def repickPacket (s : State) (l tag pkg dst part : Nat) (port : Option PortId) (w : W64) : State :=
  if netifHeld s l then send s .hold (bLoom l) [] else niTake s l part (serveRepick l tag pkg dst port w)

/-- Answers the NUM 0 requests held for the epoch's CLOSE words (R186). -/
def answerHeld (s : State) (l : Nat) : State :=
  let m := loom s l
  match m.ret.epoch with
  | none => s
  | some e =>
    let mine := fun (q : HeldReq) => decide (q.epoch = e % 65536)
    let s := setLoom s l { m with heldReqs := m.heldReqs.filter (fun q => !mine q) }
    forEach (m.heldReqs.filter mine) (fun q s => repickServe s l e q.tag 0 0 q.pkg q.dst) s

/-! ## Retry rounds (R195) -/

/-- Step 2: discards further VC0 arrivals of epoch N − 1. -/
def retryDrain (s : State) (l : Nat) : State := modLoom s l (fun m => { m with drain := true })

/-- A chain without the entries that `out` names; chunks at the end that hold nothing else are free. -/
def DqChain.without (out : DqMark → Bool) (c : DqChain) : DqChain :=
  let ms := ((c.marks.map (fun e => { e with dead := e.dead || out e })).reverse.dropWhile (·.dead)).reverse
  ⟨c.chunks.take ((ms.length + 30) / 31), ms⟩

/-- A delay-queue slot without the picks of epoch `ep`, which are injected again. -/
def dqForget (ep : Nat) (q : DqSlot) : DqSlot :=
  let out := fun (e : DqMark) => decide (e.epoch = some ep)
  ⟨q.area.without out, q.spill.without out⟩

/-- A delay-queue slot as it was at OPEN, without the picks of epoch N − 1 (R195). -/
def dqTruncate (ep : Nat) (q : DqSlot) : DqSlot :=
  let out := fun (e : DqMark) => e.late || decide (e.epoch = some ep)
  ⟨q.area.without out, q.spill.without out⟩

/-- Step 4 at one loom: clears accumulators, beat frames and the tensioner's work of the beat, restores and truncates the
delay queues, clears stream state, sets RETRY. `ports` are the job links whose RESTART must come. -/
def retryClear (s : State) (l : Nat) (round : Nat) (ports : List Nat) : State :=
  let m := loom s l
  let ep := m.beat - 1
  let s := scrClear (clearBeatWork s l) l m.lat.accBase (m.lat.accBase + 8 * m.lat.nslots)
  let s := modLoom s l (fun m => { m with
    dq := m.dq.map (dqTruncate ep)
    dqWaits := m.dqWaits.filter (fun x => !x.mark.late && x.mark.epoch != some ep)
    contrib := 0
    rowWaits := []
    drain := false
    noRestart := ports
    tallySent := false
    round := round
    phase := .integrate
    waitStart := ltNow s })
  let s := forEach m.latKeys (fun k s => streamKeep s l k (StreamSt.fresh ep)) s
  let s := logBeat (dqRecount s l) l m.beat round
  let s := wr s (bLoom l) F.LOOM_NISTAT_RETRY 1
  integrateReleased s l (some ep)

end Sys2Proof.Machine
end

