-- ==== Sys2Proof/Machine/ChanCore.lean ====
section
/-!
DEFINITION. Channel ends (chapter 11): rings, credits, and the dispatch of active messages to a loom's sequencer.
-/

namespace Sys2Proof.Machine

/-! ## Rings (R377 to R379), for ends of looms and of the application cluster alike -/

/-- Words of a message by its LEN field: 0 means 256. -/
def msgWords (len : Nat) : Nat := if len = 0 then 256 else len
/-- Ring slots of a message of `w` words. -/
def msgSlots (w : Nat) : Nat := (w + 7) / 8

/-- Slots of the ring in use, pads included. -/
def ringUsed (e : ChEnd) : Nat := (e.ring.map (·.slots)).sum

/-- The pad that a message of `s` slots needs at TAIL in a ring of `size` slots. -/
def padOf (size tail s : Nat) : Nat := if s ≤ size - tail then 0 else size - tail

/-- Whether a message of `s` slots fits (R379): an empty ring releases the pad at once. -/
def ringFits (size : Nat) (e : ChEnd) (s : Nat) : Bool :=
  if e.ring.isEmpty then s ≤ size else ringUsed e + padOf size e.tail s + s ≤ size

/-- A slot counter advanced: the slot, and the epoch, which rises when the last slot is passed. -/
def slotAdv (size slot ep n : Nat) : Nat × Nat :=
  if slot + n < size then (slot + n, ep) else (slot + n - size, (ep + 1) % 65536)

/-- The status word (R378). -/
def ringStatus (e : ChEnd) : Nat :=
  e.head % 2 ^ 13 + e.tail % 2 ^ 13 * 2 ^ 13 + e.closed.toNat * 2 ^ 26 + e.ovf.toNat * 2 ^ 27 + e.tep % 65536 * 2 ^ 32
    + e.hep % 65536 * 2 ^ 48

/-- A message header as the network interface completes it (R376). -/
def msgHeader (h chan seq gen : Nat) (wrap resent : Bool) : Nat :=
  bits h 15 0 + seq % 65536 * 2 ^ 16 + chan % 4096 * 2 ^ 32 + wrap.toNat * 2 ^ 44 + resent.toNat * 2 ^ 45
    + gen % 16 * 2 ^ 48

/-- Places a message that fits, the `ord`th completed: the end after, and the slots to write with their words. -/
def ringPlace (size : Nat) (e : ChEnd) (chan seq gen ord : Nat) (ws : List W64) : ChEnd × List (Nat × List W64) :=
  let s := msgSlots ws.length
  let pad := padOf size e.tail s
  let wrap : List (Nat × List W64) :=
    if pad = 0 then [] else [(e.tail, [BitVec.ofNat 64 (msgHeader 0 chan seq gen true false)])]
  let e1 : ChEnd := if pad = 0 then e
    else if e.ring.isEmpty then
      { e with head := 0, hep := (e.hep + 1) % 65536, rfreed := (e.rfreed + pad) % 65536, tail := 0
               tep := (e.tep + 1) % 65536 }
    else { e with ring := e.ring ++ [⟨e.tail, pad, 0, 0, true, false, 0⟩], tail := 0, tep := (e.tep + 1) % 65536 }
  let h := ((ws.head?).getD 0).toNat
  let t := slotAdv size e1.tail e1.tep s
  ({ e1 with ring := e1.ring ++ [⟨e1.tail, s, bits h 7 0, ws.length, false, false, ord⟩], tail := t.1, tep := t.2 },
    wrap ++ [(e1.tail, ws)])

/-- Releases WRAP markers that a release has brought to the head. -/
def ringPads (e : ChEnd) : ChEnd :=
  match e.ring with
  | m :: rest => if m.pad then
      { e with ring := rest, head := 0, hep := (e.hep + 1) % 65536, rfreed := (e.rfreed + m.slots) % 65536 }
    else e
  | [] => e

/-- Releases the head message (R386). -/
def ringRelease (size : Nat) (e : ChEnd) : ChEnd :=
  match e.ring with
  | [] => e
  | m :: rest =>
    let h := slotAdv size e.head e.hep m.slots
    ringPads { e with ring := rest, head := h.1, hep := h.2, rfreed := (e.rfreed + m.slots) % 65536 }

/-- What arrives at a receive end with sequence `seq` (R383). -/
inductive Arrival where
  | take | overflow | gap | dup
  deriving DecidableEq, Repr

/-- Judges an arriving message of `s` slots. -/
def arrival (size : Nat) (e : ChEnd) (seq s : Nat) : Arrival :=
  let d := (seq + 65536 - e.ack % 65536) % 65536
  if d = 0 then (if ringFits size e s then .take else .overflow) else if d ≤ 32767 then .gap else .dup

/-- Whether a message of `s` slots may be sent (R381), and the slots it takes, pad included. -/
def sendRoom (size : Nat) (e : ChEnd) (s : Nat) : Option Nat :=
  let used := (e.sent + 65536 - e.freed % 65536) % 65536
  let p := padOf size e.tailCopy s
  if used + p + s ≤ size ∨ (used = 0 ∧ s ≤ size) then some (p + s) else none

/-- The send end after it has taken a message into retention. -/
def sendTake (size : Nat) (e : ChEnd) (chan gen : Nat) (ws : List W64) (total : Nat) : ChEnd :=
  let s := msgSlots ws.length
  let h := msgHeader ((ws.head?).getD 0).toNat chan e.seq gen false false
  let base := if padOf size e.tailCopy s = 0 then e.tailCopy else 0
  { e with
    seq := (e.seq + 1) % 65536
    sent := (e.sent + total) % 65536
    tailCopy := (base + s) % size
    kept := e.kept ++ [⟨e.seq, BitVec.ofNat 64 h :: ws.drop 1⟩]
    msgs := e.msgs + 1 }

/-- The send end after a CREDIT of its GEN (R384): FREED, and retention freed below ACKSEQ. -/
def sendCredit (e : ChEnd) (ack freed : Nat) : ChEnd :=
  let acked := fun (k : SentMsg) => (ack + 65536 + 65535 - k.seq % 65536) % 65536 < 32768
  { e with freed := freed % 65536, kept := e.kept.filter (fun k => !acked k) }

/-! ## Ends of a loom (R373) -/

/-- Entry `i` of loom `l`. -/
def chEnd (s : State) (l i : Nat) : ChEnd := tabGet ChEnd.reset (loom s l).ch i
/-- Sets it. -/
def setCh (s : State) (l i : Nat) (e : ChEnd) : State :=
  modLoom s l (fun m => { m with ch := tabSet ChEnd.reset m.ch i e })

/-- The VALID entry for a channel and direction (0 send, 1 receive). -/
def chFind (s : State) (l chan dir : Nat) : Option Nat :=
  let b := bLoom l
  (List.range 64).find? (fun i => rdI s b F.LOOM_CHDATA0_VALID i = 1 && rdI s b F.LOOM_CHDATA0_CHAN i = chan
    && rdI s b F.LOOM_CHDATA0_DIR i = dir)

/-- Ring slots of an end. -/
def chSize (s : State) (l i : Nat) : Nat := 2 ^ rdI s (bLoom l) F.LOOM_CHDATA1_RSIZE i
/-- Scratch offset of a receive end's descriptor. -/
def chBase (s : State) (l i : Nat) : Nat := rdI s (bLoom l) F.LOOM_CHDATA1_RBASE i * 64

/-- The interface rewrites the status word (R378). -/
def chStatus (s : State) (l i : Nat) : State := netPut s l (chBase s l i) 8 (ringStatus (chEnd s l i))

/-- HOPS, HEND and XSEL of the path of an end (R373). -/
def chPath (s : State) (l i : Nat) : Nat × Nat × Nat :=
  let b := bLoom l
  ((List.range 6).foldl (fun n k => n + rdI s b (fAt F.LOOM_CHDATA2_HOPS0 k) i * 2 ^ (32 * k)) 0, rdI s b F.LOOM_CHDATA1_NHOPS i,
    rdI s b F.LOOM_CHDATA1_XSEL i)

/-- The flit of a CREDIT (R382). -/
def creditWord (chan ack freed gen : Nat) (closed nack probe : Bool) : Nat :=
  chan % 4096 + ack % 65536 * 2 ^ 12 + freed % 65536 * 2 ^ 28 + closed.toNat * 2 ^ 44 + nack.toNat * 2 ^ 45 + probe.toNat * 2 ^ 46
    + gen % 16 * 2 ^ 47

/-- Sends a CREDIT packet to package `dpkg`. -/
def creditSend (s : State) (l dpkg : Nat) (path : Nat × Nat × Nat) (w : Nat) : State :=
  niSend s l dpkg .credit (niFlits s l 1 1 0 dpkg path [w])

/-- Sends a CREDIT of an end on its path. -/
def endCredit (s : State) (l i w : Nat) : State := creditSend s l (rdI s (bLoom l) F.LOOM_CHDATA0_PKG i) (chPath s l i) w

/-- Sends the current CREDIT of a receive end (R382). -/
def chCredit (s : State) (l i : Nat) (nack : Bool) : State :=
  let b := bLoom l
  let e := chEnd s l i
  endCredit s l i (creditWord (rdI s b F.LOOM_CHDATA0_CHAN i) e.ack e.rfreed (rdI s b F.LOOM_CHDATA1_GEN i) e.closed nack false)

/-- The ring of a receive end lies in a bank that is held. -/
def ringHeld (s : State) (l i : Nat) : Bool := scrHeld s l (chBase s l i) (64 + 64 * chSize s l i)

/-- Writes words at ring slots. -/
def chWrite (s : State) (l i : Nat) (ws : List (Nat × List W64)) : State :=
  forEach ws (fun p s => (p.2.zip (List.range p.2.length)).foldl (fun s wi =>
    scrPut s l (chBase s l i + 64 + 64 * p.1 + 8 * wi.2) 8 wi.1.toNat) s) s

/-- Where word `h` of the handler table stands (R285). -/
def handlerWord (s : State) (l h : Nat) : Nat := rd s (bLoom l) F.LOOM_SEQHTBASE_BASE * 1024 + 4 * h

/-- The entry address of a valid handler. -/
def handlerEntry (s : State) (l h : Nat) : Option Nat :=
  let w := scrNat s l (handlerWord s l h) 4
  if bit w 0 then some (bits w 18 2 * 4) else none

/-- Releases the head message with its CREDIT and status word. -/
def chPop (s : State) (l i : Nat) : State :=
  chCredit (chStatus (setCh s l i (ringRelease (chSize s l i) (chEnd s l i))) l i) l i false

/-- Entries of the activation queue. -/
abbrev actLimit : Nat := 64

/-- Where an activation stands among those queued (R277): hooks come first, each in the order of its trigger, then handlers in the order in
which their messages were completed. -/
def actPush (q : List Act) (a : Act) : List Act :=
  if a.ctx = 4 then q.takeWhile (fun x => x.ctx != 4 || x.ord < a.ord) ++ [a] ++ q.dropWhile (fun x => x.ctx != 4 || x.ord < a.ord)
  else q.filter (fun x => x.ctx != 4) ++ [a] ++ q.filter (fun x => x.ctx = 4)

/-- Marks the head message of an end as queued for dispatch, or not. -/
def chQueued (s : State) (l i : Nat) (queued : Bool) : State :=
  let e := chEnd s l i
  match e.ring with
  | [] => s
  | x :: rest => setCh s l i { e with ring := { x with queued := queued } :: rest }

/-- Gives the head message of an end a new number: it stands behind every message completed so far (R302). -/
def chRenumber (s : State) (l i n : Nat) : State :=
  let e := chEnd s l i
  match e.ring with
  | [] => s
  | x :: rest => setCh s l i { e with ring := { x with ord := n } :: rest }

/-- Queues an activation. The last handler of a full queue gives way: its message waits in its ring again (R277). -/
def actQueue (s : State) (l : Nat) (a : Act) : State :=
  let q := actPush (loom s l).seq.queue a
  let s := modLoom s l (fun m => { m with seq := { m.seq with queue := q.take actLimit } })
  match q.drop actLimit with
  | x :: _ => chQueued s l x.ent false
  | [] => s

/-- Offers the head message of an end for dispatch (R277, R385): an active message is queued, whatever its word of the handler table holds,
which the dispatch reads (R286); a passive one holds the rest back. -/
def chOffer (l i : Nat) (s : State) : State :=
  let m := loom s l
  let e := chEnd s l i
  match e.ring with
  | [] => s
  | x :: rest =>
    if x.pad || x.handler = 0 || x.queued || !m.seq.running || m.seq.halted || actLimit ≤ m.seq.queue.length then s
    else
      let a : Act := ⟨4, chBase s l i + 64 + 64 * x.slot, x.words, rdI s (bLoom l) F.LOOM_CHDATA0_CHAN i, x.handler, i, x.ord, false, false⟩
      actQueue (setCh s l i { e with ring := { x with queued := true } :: rest }) l a

/-- An end put among others by the number of its head message. -/
def byOrd (x : Nat × Nat) : List (Nat × Nat) → List (Nat × Nat)
  | [] => [x]
  | y :: ys => if x.2 < y.2 then x :: y :: ys else y :: byOrd x ys

/-- Offers every end's head message, in the order in which they were completed. -/
def chOfferAll (s : State) (l : Nat) : State :=
  let heads := (List.range 64).filterMap (fun i => ((chEnd s l i).ring.head?).map (fun x => (i, x.ord)))
  forEach (heads.foldr byOrd []) (fun x s => chOffer l x.1 s) s

/-- Releases the head message and offers the next. -/
def chRelease (s : State) (l i : Nat) : State := chOffer l i (chPop s l i)

end Sys2Proof.Machine
end

