-- ==== Sys2Proof/Machine/SeqCore.lean ====
section
/-!
DEFINITION. The loom sequencer's contexts, traps, activations and control (R275 to R287, R298 to R303).
-/

namespace Sys2Proof.Machine

/-! ## Contexts and registers -/

/-- Changes the sequencer of loom `l`. -/
def modSeq (s : State) (l : Nat) (f : Seq → Seq) : State := modLoom s l (fun m => { m with seq := f m.seq })
/-- The sequencer of loom `l`. -/
def seqOf (s : State) (l : Nat) : Seq := (loom s l).seq

/-- The context whose code runs: none where nothing can issue. The main program gives way to pending activations (R277). -/
def seqCtx (q : Seq) : Option Nat :=
  if !q.running || q.halted then none
  else match q.trap with
    | some t => some t.ctx
    | none => match q.act with
      | some a => some a.ctx
      | none => if q.main && q.queue.isEmpty then some 0 else none

/-- SEQSTAT.STATE (R307). -/
def seqState (q : Seq) : Nat :=
  if !q.running then 0 else if q.halted then 5 else if q.trap.isSome then 4 else if q.act.isSome then 3
  else if q.main then 2 else 1

/-- SEQSTAT.ACT: the context code of the running code. -/
def seqAct (q : Seq) : Nat :=
  match q.trap with
  | some t => t.ctx
  | none => match q.act with
    | some a => a.ctx
    | none => 0

/-- The address of the instruction issuing or stalled. -/
def seqPc (q : Seq) : Nat :=
  match q.trap with
  | some t => t.pc
  | none => if q.act.isSome then q.apc else q.mpc

/-- Sets the PC of the running code. -/
def seqSetPc (q : Seq) (pc : Nat) : Seq :=
  match q.trap with
  | some t => { q with trap := some { t with pc := pc } }
  | none => if q.act.isSome then { q with apc := pc } else { q with mpc := pc }

/-- The running code uses the main register file: the main program, or its trap handler. -/
def usesMain (q : Seq) : Bool := seqAct q = 0

/-- Reads g`r`; g0 reads as 0 (R275). -/
def gRead (q : Seq) (r : Nat) : W64 := if r = 0 then 0 else tabGet 0 (if usesMain q then q.mfile else q.efile) r

/-- Writes g`r`; a write to g0 is discarded. -/
def gWrite (q : Seq) (r : Nat) (v : W64) : Seq :=
  if r = 0 then q
  else if usesMain q then { q with mfile := tabSet 0 q.mfile r v } else { q with efile := tabSet 0 q.efile r v }

/-! ## Hooks (R281, R283, R301) -/

/-- A hook has yielded. -/
def hookYielded (s : State) (l ctx : Nat) : State :=
  if ctx = 1 then tryTally (modLoom s l (fun m => { m with hookI := false })) l
  else if ctx = 2 then modLoom s l (fun m => { m with hookS := false })
  else s

/-- The register of a hook. -/
def hookEn (ctx : Nat) : Fld :=
  if ctx = 1 then F.LOOM_SEQHOOKI_EN else if ctx = 2 then F.LOOM_SEQHOOKS_EN else F.LOOM_SEQHOOKE_EN
/-- The entry field of a hook. -/
def hookAddr (ctx : Nat) : Fld :=
  if ctx = 1 then F.LOOM_SEQHOOKI_ADDR else if ctx = 2 then F.LOOM_SEQHOOKS_ADDR else F.LOOM_SEQHOOKE_ADDR

/-- Triggers a hook of beat `n`: a disabled one, and any while stopped, counts as yielded at once; a halted sequencer's is
counted in LOOM_SEQSKIP. -/
def hookTrigger (s : State) (l ctx n : Nat) : State :=
  let b := bLoom l
  let q := seqOf s l
  if !rdB s b (hookEn ctx) || !q.running then hookYielded s l ctx
  else if q.halted then hookYielded (inc s b F.LOOM_SEQSKIP_COUNT) l ctx
  else
    let s := modLoom s l (fun m => { m with
      hookI := m.hookI || decide (ctx = 1)
      hookS := m.hookS || decide (ctx = 2) })
    actQueue s l ⟨ctx, n, (loom s l).round, 0, 0, 0, 0, false, false⟩

/-! ## Activations (R277, R278) -/

/-- The main program is inside a remote load or store, which no activation interrupts: it stands at no instruction boundary
(R277, R290; DEDUCED, log entry 54). -/
def midRemote (q : Seq) : Bool :=
  match q.wait with
  | some (.rld _ _ _) | some (.rst _) => true
  | _ => false

/-- The activation's message, if it is a handler's and still at the head of its channel: it is known by its number (R386). -/
def handlerHolds (s : State) (l : Nat) (a : Act) : Bool :=
  match (chEnd s l a.ent).ring with
  | x :: _ => a.ctx = 4 && x.queued && x.ord = a.ord
  | [] => false

/-- The waiter's number of loom `l`'s running context. -/
def waiterOf (q : Seq) (l : Nat) : Nat := 2 * l + (if usesMain q then 0 else 1)

/-- The running code is no longer blocked on credits at any send end. -/
def sendUnblock (s : State) (l : Nat) : State :=
  let c := usesMain (seqOf s l)
  modLoom s l (fun m => { m with ch := m.ch.map (fun e => (e.1, { e.2 with blocked := e.2.blocked.filter (fun x => x != c) })) })

/-- Cancels the running context's blocking instruction (R282, R298, R402): a watch is withdrawn at its hub. -/
def waitCancel (s : State) (l : Nat) : State :=
  let q := seqOf s l
  let s := match q.wait with
    | some (.lamp x _ _) => send s .watchCancel (bHub (x / 1024)) [waiterOf q l, x % 1024]
    | _ => s
  modSeq (sendUnblock s l) l (fun q => { q with wait := none })

/-- Ends the running activation and returns to what the main program waited for. -/
def actClear (s : State) (l : Nat) : State :=
  modSeq (waitCancel s l) l (fun q => { q with act := none, trap := none, wait := q.mwait, mwait := none })

/-- The activation ends by YIELD (R287, R309). -/
def actYield (s : State) (l : Nat) : State :=
  match (seqOf s l).act with
  | none => s
  | some a =>
    let s := actClear s l
    let s := inc s (bLoom l) F.LOOM_SEQACT_COUNT
    if a.ctx = 4 then (if handlerHolds s l a then chRelease s l a.ent else s) else hookYielded s l a.ctx

/-- Drops the running activation without YIELD: a hook counts as yielded; a handler's message is queued for dispatch again
behind the activations already queued (R302), with a number that puts it behind every message completed so far. -/
def actDrop (s : State) (l : Nat) : State :=
  match (seqOf s l).act with
  | none => modSeq (waitCancel s l) l (fun q => { q with trap := none })
  | some a =>
    let s := actClear s l
    if a.ctx = 4 then
      (if handlerHolds s l a then
        let n := (loom s l).msgNo + 1
        actQueue (chRenumber (modLoom s l (fun m => { m with msgNo := n })) l a.ent n) l { a with ord := n, raised := false, due := false }
       else s)
    else hookYielded s l a.ctx

/-! ## Traps (R298 to R301) -/

/-- Trap causes. -/
abbrev tcIllegal : Nat := 1
abbrev tcMisalign : Nat := 2
abbrev tcLaccess : Nat := 3
abbrev tcRfault : Nat := 4
abbrev tcRtimeout : Nat := 5
abbrev tcDivzero : Nat := 6
abbrev tcBudget : Nat := 7
abbrev tcUser : Nat := 8
abbrev tcNotnow : Nat := 9
abbrev tcRange : Nat := 10
abbrev tcFetch : Nat := 11

/-- The event kind of a trap (R631). -/
abbrev evTrap : Nat := 0x0B

/-- The sequencer halts (R301, R303): its hooks count as yielded, queued ones are skipped; handlers' messages wait. -/
def seqHalt (s : State) (l code : Nat) : State :=
  let s := latchFault s (bLoom l) code
  let hooks := (seqOf s l).queue.filter (fun a => a.ctx != 4)
  let s := modSeq s l (fun q => { q with halted := true, queue := q.queue.filter (fun a => a.ctx = 4) })
  let s := actDrop s l
  forEach hooks (fun a s => hookYielded (inc s (bLoom l) F.LOOM_SEQSKIP_COUNT) l a.ctx) s

/-- Takes a trap at the running instruction. -/
def seqTrap (s : State) (l cause val : Nat) : State :=
  let b := bLoom l
  let q := seqOf s l
  let ctx := seqAct q
  let pc := seqPc q
  let s := wr s b F.LOOM_SEQTPC_ADDR (pc / 4)
  let s := wr (wr s b F.LOOM_SEQTCAUSE_CAUSE cause) b F.LOOM_SEQTCAUSE_ACT ctx
  let s := wrPair s b F.LOOM_SEQTVAL_LO_VAL F.LOOM_SEQTVAL_HI_VAL val
  let s := inc s b F.LOOM_SEQTRAPS_COUNT
  let s := waitCancel s l
  let s := logEvent s b evTrap 0 (cause + ctx * 256) val
  if q.trap.isSome || !rdB s b F.LOOM_SEQTVEC_VALID then seqHalt s l 0x0110
  else modSeq s l (fun q => { q with wait := none, trap := some ⟨ctx, pc, rd s b F.LOOM_SEQTVEC_ADDR * 4⟩ })

/-- Raises BUDGET where it is due after a trap handler's return (R300); the loom-cycles used are a free value. -/
def budgetDue (s : State) (l : Nat) : State :=
  match (seqOf s l).act with
  | none => s
  | some a =>
    if a.due && !a.raised then
      let f := drawFree s
      seqTrap (modSeq f.2 l (fun q => { q with act := some { a with due := false, raised := true } })) l tcBudget f.1
    else s

/-- Returns from a trap handler to `pc` + `skip` (TRET, TRETS). -/
def trapReturn (s : State) (l skip : Nat) : State :=
  match (seqOf s l).trap with
  | none => s
  | some t => budgetDue (modSeq s l (fun q => seqSetPc { q with trap := none, wait := none } (t.tpc + skip))) l

/-! ## Dispatch (R277, R278, R286) -/

/-- The activation starts at `entry`. -/
def actStart (s : State) (l : Nat) (a : Act) (entry : Nat) : State :=
  let load := fun (t : Tab W64) (r v : Nat) => tabSet 0 t r (BitVec.ofNat 64 v)
  modSeq s l (fun q => { q with
    act := some a
    apc := entry
    efile := load (load (load (load (load q.efile 1 a.ctx) 2 a.g2) 3 a.g3) 4 a.g4) 5 a.g5
    mwait := q.wait
    wait := none })

/-- The values of a handler's start that depend on timing: two active messages waiting, and a beat that integrates (R665). -/
def handlerDep (s : State) (l : Nat) : State :=
  let waiting := ((List.range 64).filter (fun i => (chEnd s l i).ring.any (fun x => !x.pad && x.handler != 0))).length
  let ph := (loom s l).phase
  timeDep s l ((decide (2 ≤ waiting)).toNat + (decide (ph = .integrate ∨ ph = .close)).toNat)

/-- Starts the next queued activation once none runs: a hook, or a handler whose word of the table is VALID; else the message is released
and counted, and the next one follows. `fuel` bounds the messages released. -/
def dispatchGo (l : Nat) : Nat → State → State
  | 0, s => s
  | fuel + 1, s =>
    let q := seqOf s l
    match q.queue with
    | [] => s
    | a :: rest =>
      let took := fun (s : State) => modSeq s l (fun q => { q with queue := rest })
      let w := handlerWord s l a.g5
      if !q.running || q.halted || q.act.isSome || q.trap.isSome || midRemote q then s
      else if a.ctx ≠ 4 then chOfferAll (actStart (took s) l a (rd s (bLoom l) (hookAddr a.ctx) * 4)) l
      else if scrHeld s l w 4 then s
      else if scrBroken s l w 4 then seqHalt s l 0x0111
      else
        let s := (scratchCheck s l w 4).2
        match handlerEntry s l a.g5 with
        | some e => chOfferAll (handlerDep (actStart (took s) l a e) l) l
        | none => dispatchGo l fuel (chRelease (inc (took s) (bLoom l) F.LOOM_SEQNOHDL_COUNT) l a.ent)

/-- Starts the next queued activation. -/
def dispatch (s : State) (l : Nat) : State := dispatchGo l 4096 s

/-! ## Run, stop, restart (R279, R302) -/

/-- Starts the main program. -/
def mainStart (s : State) (l : Nat) : State :=
  modSeq (waitCancel s l) l (fun q => { q with
    running := true, main := true, halted := false, mfile := [], efile := [], mpc := rd s (bLoom l) F.LOOM_SEQENTRY_ADDR * 4
    trap := none, wait := none, mwait := none, freerun := false, restart := false })

/-- RUN written. The start needs the entry and the handler table in banks of the sequencer (R307). -/
def seqRunWrite (s : State) (l : Nat) (run : Bool) : State :=
  let b := bLoom l
  let q := seqOf s l
  if run then
    if q.running then s
    else if !ownedBy s l ownSeq (rd s b F.LOOM_SEQENTRY_ADDR * 4) 4
        || !ownedBy s l ownSeq (rd s b F.LOOM_SEQHTBASE_BASE * 1024) 1024 then txnRefuse s b
    else chOfferAll (mainStart (wr s b F.LOOM_SEQCTL_RUN 1) l) l
  else
    let s := wr s b F.LOOM_SEQCTL_RUN 0
    if !q.running then s
    else
      let hooks := q.queue.filter (fun a => a.ctx != 4)
      let s := actDrop s l
      let s := modSeq s l (fun q => { q with
        running := false, main := false, halted := false, trap := none, wait := none, freerun := false, restart := false
        queue := q.queue.filter (fun a => a.ctx = 4) })
      forEach hooks (fun a s => hookYielded s l a.ctx) s

/-- RESTART takes effect: an activation that runs is abandoned and counted. -/
def restartNow (s : State) (l : Nat) : State :=
  let s := if (seqOf s l).act.isSome then inc (actDrop s l) (bLoom l) F.LOOM_SEQABANDON_COUNT else s
  mainStart s l

/-- RESTART written: now, or at the next OPEN acknowledgement while the beat engine is RUNNING, HELD or RETRYING. A stopped
sequencer has nothing to restart. -/
def seqRestart (s : State) (l : Nat) : State :=
  if !(seqOf s l).running then s
  else if beatState s = stRunning ∨ beatState s = stHeld ∨ beatState s = stRetrying then
    modSeq s l (fun q => { q with restart := true })
  else chOfferAll (restartNow s l) l

/-- A retry round abandons the INTEGRATE hook, running or queued (R282). -/
def hookAbandon (s : State) (l : Nat) : State :=
  let q := seqOf s l
  let s := modSeq s l (fun q => { q with queue := q.queue.filter (fun a => a.ctx != 1) })
  let s := match q.act with
    | some a => if a.ctx = 1 then inc (actClear s l) (bLoom l) F.LOOM_SEQABANDON_COUNT else s
    | none => s
  modLoom s l (fun m => { m with hookI := false })

/-- The sequencer allows the OPEN acknowledgement (R280, R281): no activation runs and no hook waits. -/
def seqOpenOk (q : Seq) : Bool :=
  q.act.isNone && (q.queue.all (fun a => a.ctx = 4) || !q.running || q.halted)
    && (match q.trap with | some t => t.ctx = 0 | none => true)

/-- What the acknowledgement does: FREERUN where the main program has not ended, and a deferred RESTART. -/
def seqOpenAck (s : State) (l : Nat) : State :=
  let q := seqOf s l
  let s := if q.running && q.main && !q.halted then
      detSet (inc (modSeq s l (fun q => { q with freerun := true })) (bLoom l) F.LOOM_SEQFREERUN_COUNT) F.BEAT_DETSTAT_FREERUN
    else s
  if q.restart then chOfferAll (mainStart s l) l else s

/-! ## Event rows -/

/-- SEQ_BUDGET_EXPIRY: the running activation has used `cycles`; raised at once, or due after its trap handler. -/
def budgetExpiry (s : State) (l cycles : Nat) : State :=
  let q := seqOf s l
  let lim := rd s (bLoom l) F.LOOM_SEQBUDGET_CYCLES
  match q.act with
  | none => s
  | some a =>
    if lim = 0 ∨ cycles < lim ∨ a.raised ∨ !q.running ∨ q.halted then s
    else if q.trap.isSome then modSeq s l (fun q => { q with act := some { a with due := true } })
    else seqTrap (modSeq s l (fun q => { q with act := some { a with raised := true } })) l tcBudget cycles

/-- TRAP_HANDLER_LIMIT. -/
def handlerLimit (s : State) (l : Nat) : State :=
  if (seqOf s l).trap.isSome && !(seqOf s l).halted && (seqOf s l).running then seqHalt s l 0x0110 else s

end Sys2Proof.Machine
end

