-- ==== Sys2Proof/Machine/Fabric.lean ====
section
/-!
DEFINITION. The warp fabric, row maps, ply queues and the selvedge network (chapter 10).
-/

namespace Sys2Proof.Machine

/-! ## Routers (R332, R333, R337 to R340, R346, R349, R355) -/

/-- A flit as it comes over a link: data and sideband. -/
abbrev LinkFlit := BitVec 256 × BitVec 26

/-- It is no idle flit. -/
def LinkFlit.valid (f : LinkFlit) : Bool := bit f.2.toNat 25
/-- Its CRC is right. -/
def LinkFlit.ok (f : LinkFlit) : Bool := bits f.2.toNat 20 5 = flitCrc f.1.toNat f.2.toNat
/-- Its virtual channel. -/
def LinkFlit.vc (f : LinkFlit) : Nat := f.2.toNat % 4
/-- Its ABORT bit. -/
def LinkFlit.abort (f : LinkFlit) : Bool := bit f.2.toNat 4

/-- A channel of an input of the router at a mesh column of a row. -/
def routerInput (row mcol port vc : Nat) : Nat := ((row * 34 + mcol) * 8 + port) * 4 + vc

/-- Hop code `i` of a header. -/
def hopCode (head i : Nat) : Nat := bits head (3 * i + 2) (3 * i)

/-- The BRANCH-POP that matches the BRANCH-PUSH before index `i` at depth `d`. -/
def popMatch (head : Nat) : Nat → Nat → Nat → Nat
  | 0, i, _ => i
  | fuel + 1, i, d =>
    let c := hopCode head i
    if c = 5 then popMatch head fuel (i + 1) (d + 1)
    else if c = 6 then (if d = 1 then i else popMatch head fuel (i + 1) (d - 1))
    else popMatch head fuel (i + 1) d

/-- A packet on its way: its channel, its header, its payload, and whether it ends with ABORT. -/
structure Transit where
  vc : Nat
  head : Nat
  payload : List Nat
  abort : Bool
  deriving DecidableEq, Repr

/-- Its flits. -/
def Transit.flits (k : Transit) : List Nat := packetFlits k.vc 0 k.head k.payload k.abort
/-- The same packet with HPTR `i` and HEND `e`. -/
def Transit.at (k : Transit) (i e : Nat) : Transit := { k with head := setBits (setBits k.head 198 192 i) 205 199 e }

/-- A copy leaves for the router at a mesh column of a row, on its way to logical column `col` there. -/
def fwd (s : State) (row mcol col : Nat) (k : Transit) : State := send s .forward (row * 34 + mcol) (1 :: col :: k.flits)

/-- One hop along a row from mesh column `a` towards `b`. -/
def hopTo (a b : Nat) : Nat := if a < b then a + 1 else a - 1

/-- The packet reaches the local port of logical position (row, col): closed at a column without a site and at an isolated one; else the
loom's interface takes it, discards one of a reserved class or excess length, and counts one that ends with ABORT. -/
def localPort (s : State) (row col : Nat) (k : Transit) : State :=
  let l := row * 32 + col
  if siteOf s row col = 0x1F then inc s (bHub (rowHalfOf row col).1) F.HUB_NOSITEDROP_COUNT
  else if isolated s l then isoDrop s l
  else if k.abort then inc s (bLoom l) F.LOOM_NIABORTRX_COUNT
  else match classMax k.vc (hdrClass k.head) with
    | none => inc s (bLoom l) F.LOOM_NIBADPKT_COUNT
    | some n => if n < hdrFlits k.head then inc s (bLoom l) F.LOOM_NIBADPKT_COUNT else send s .forward l (0 :: k.flits)

/-- The mesh column where the packets of a row leave by an edge port (R340): the ends of the row, the two sides of the seam, and on the north
and south edges the column where they are. -/
def edgeMesh (m : Move) (col mcol : Nat) : Nat :=
  match m with
  | .west => 0
  | .east => 33
  | .seam => if col < 16 then 16 else 17
  | _ => mcol

/-- A router between the site of a column and the edge port beyond it. -/
def pastSite (site edge mcol : Nat) : Bool := (site ≤ mcol && mcol ≤ edge) || (edge ≤ mcol && mcol ≤ site)

/-- An edge endpoint takes a packet: it discards one of a reserved class or excess length (R334); the drop counter of an edge endpoint is
named nowhere. A glimmer port sends one for another package on (R505, R519). -/
def edgeTake (s : State) (row mcol ep : Nat) (k : Transit) : State :=
  match classMax k.vc (hdrClass k.head) with
  | none => s
  | some n =>
    if n < hdrFlits k.head then s
    else if 0x428 ≤ ep ∧ ep ≤ 0x42F ∧ hdrDpkg k.head ≠ selfPkg s then glimForward s (ep - 0x428) k.vc ⟨k.head, k.payload, k.abort⟩
    else send s .forward (row * 34 + mcol) (2 :: ep :: k.flits)

/-- A packet leaves the mesh from logical column `col` of a row: along the row to the router with the edge port, and there to the port that
XSEL selects at the switch (R340). -/
def edgeGo (s : State) (row mcol col : Nat) (m : Move) (k next : Transit) : State :=
  let e := edgeMesh m col mcol
  if e ≠ mcol then fwd s row (hopTo mcol e) col k
  else match edgePort m row (hdrXsel k.head) with
    | some ep => edgeTake s row mcol ep next
    | none => inc s bSeam F.SEAM_SWDROP_COUNT

/-- The exit at an end of the row or at the seam that the code at HPTR takes from a logical position. -/
def rowExit (row col : Nat) (k : Transit) : Option Move :=
  let m := moveTo row col (hopCode k.head (hdrHptr k.head))
  if m = .west ∨ m = .east ∨ m = .seam then some m else none

/-- The router at mesh column `mcol` acts on the codes of a packet for logical column `col`: the one at the column's site, or any for a column
without a site (log entry 112). -/
def atSite (s : State) (row mcol col : Nat) : Bool := match meshOf s row col with | some m => m = mcol | none => true

/-- The router makes more than one copy of the packet, which it stores whole first (R346). `fuel` bounds the codes it may act on. -/
def replicates (s : State) (row mcol : Nat) : Nat → Nat → Transit → Bool
  | 0, _, _ => false
  | fuel + 1, col, k =>
    let i := hdrHptr k.head
    let e := hdrHend k.head
    let c := hopCode k.head i
    k.vc = 0 && i < e && hdrDpkg k.head = selfPkg s && atSite s row mcol col &&
      (c = 5 || (c = 4 && i + 1 < e) || (match moveTo row col c with
        | .pos r d => r = row && atSite s r mcol d && replicates s row mcol fuel d (k.at (i + 1) e)
        | _ => false))

/-- A packet for another package in the mesh of its source (R519): its HOPS and HPTR play no part. It moves along its own column to the edge of
its egress port, and leaves with the XSEL of its header. -/
def remoteAct (s : State) (row mcol col : Nat) (k : Transit) : State :=
  match (meshOf s row col).filter (fun m => m != mcol), pkgRoute s (hdrDpkg k.head) with
  | some m, _ => fwd s row (hopTo mcol m) col k
  | none, none => s
  | none, some p =>
    if p < 4 then (if row = 0 then edgeGo s row mcol col .north k k else fwd s (row - 1) mcol col k)
    else if row = 23 then edgeGo s row mcol col .south k k else fwd s (row + 1) mcol col k

/-- A packet for logical column `col` at the router of a row's mesh column acts on its codes. Away from the column's site it takes a
correction hop, unless it is on its way from there to an edge port of the row. A column without a site has no router of its own, so its codes are acted on where the packet is (log entry 112). Only VC0
replicates: on another channel a packet that would be replicated is delivered once at LOCAL, and goes no further at BRANCH-PUSH. -/
def routerAct (row mcol : Nat) : Nat → Nat → Transit → State → State
  | 0, _, _, s => s
  | fuel + 1, col, k, s =>
    let i := hdrHptr k.head
    let e := hdrHend k.head
    let next := k.at (i + 1) e
    if hdrDpkg k.head ≠ selfPkg s then remoteAct s row mcol col k
    else if e ≤ i then s
    else match (meshOf s row col).filter (fun m => m != mcol) with
      | some m => match (rowExit row col k).filter (fun x => pastSite m (edgeMesh x col mcol) mcol) with
        | some x => edgeGo s row mcol col x k next
        | none => fwd s row (hopTo mcol m) col k
      | none =>
        let code := hopCode k.head i
        if code = 4 then
          let s := localPort s row col k
          if i + 1 < e && k.vc = 0 then routerAct row mcol fuel col next s else s
        else if code = 5 then
          if k.vc ≠ 0 then s
          else
            let j := popMatch k.head 64 (i + 1) 1
            routerAct row mcol fuel col (k.at (j + 1) e) (routerAct row mcol fuel col (k.at (i + 1) j) s)
        else if code = 6 then s
        else match moveTo row col code with
          | .pos r c =>
            if r ≠ row then fwd s r mcol c next
            else match meshOf s r c with
              | some m => if m = mcol then routerAct row mcol fuel c next s else fwd s row (hopTo mcol m) c next
              | none => routerAct row mcol fuel c next s
          | .off => s
          | edge => edgeGo s row mcol col edge k next

/-- The input is the far end of the row's stitched hop. -/
def stitched (mcol port : Nat) : Bool := (mcol = 16 && port = 1) || (mcol = 17 && port = 3)

/-- `n` flits of a packet fail their CRC (R349): the hub of the row counts them, and the packet where they `cut` it, and notes where; on a
stitched hop SEAM counts the flits. -/
def crcFail (s : State) (row mcol port n : Nat) (cut : Bool) : State :=
  if n = 0 then s
  else if stitched mcol port then incBy s bSeam F.SEAM_CRCERR_COUNT n
  else
    let b := bHub (row / 3 + (if 17 ≤ mcol then 8 else 0))
    let s := incBy s b F.HUB_CRCERR_COUNT n
    let s := if cut then inc s b F.HUB_PKTABORT_COUNT else s
    let s := wr (wr s b F.HUB_LASTERR_SITE (mcol % 17)) b F.HUB_LASTERR_ROW row
    wr (wr s b F.HUB_LASTERR_HALF (mcol / 17)) b F.HUB_LASTERR_PORT port

/-- The packet made of sound flits of one channel. -/
def transitOf (fs : List LinkFlit) (abort : Bool) : Option Transit :=
  match fs with
  | [] => none
  | f :: rest => some ⟨f.vc, f.1.toNat, rest.map (fun g => g.1.toNat), abort⟩

/-- The router at a mesh column of a row has this port: N, E, S, W where the mesh goes on, the local one, and the edge one where the mesh ends or
the hub switch stands (R332, R340). -/
def hasPort (row mcol port : Nat) : Bool :=
  if port = 0 then 0 < row else if port = 1 then mcol < 33 else if port = 2 then row < 23 else if port = 3 then 0 < mcol
  else port = 4 || (port = 5 && (row = 0 || row = 23 || mcol = 0 || mcol = 33 || mcol = 16 || mcol = 17))

/-- The flits of one packet reach an input of a router. A flit that fails its CRC is discarded with its packet, and where the tail fails also
with the next one on that channel; if the HEAD has `left` already, what went on ends with ABORT. A packet that has to be replicated is
stored whole, so none of it has left; one that ends with ABORT is stopped there. -/
def routerIn (s : State) (row mcol port col : Nat) (fs : List LinkFlit) (left : Bool) : State :=
  let fs := fs.filter LinkFlit.valid
  if !hasPort row mcol port then s
  else match transitOf fs (fs.any LinkFlit.abort) with
  | none => s
  | some k =>
    let key := routerInput row mcol port k.vc
    let bad := (fs.filter (fun f => !LinkFlit.ok f)).length
    let tailBad := match fs.getLast? with | some f => !LinkFlit.ok f | none => false
    if s.cuts.contains key then
      let s := crcFail s row mcol port bad false
      if tailBad then s else { s with cuts := s.cuts.erase key }
    else match findIdx? (fun f => !LinkFlit.ok f) fs with
      | none => if k.abort && replicates s row mcol 64 col k then s else routerAct row mcol 64 col k s
      | some i =>
        let s := crcFail s row mcol port bad true
        let s := if tailBad then { s with cuts := s.cuts ++ [key] } else s
        match transitOf (fs.take i) true with
        | some k => if left && !replicates s row mcol 64 col k then routerAct row mcol 64 col { k with payload := k.payload ++ [0] } s else s
        | none => s

/-- The link-error judgement of a management tick (R351). -/
def linkTick (s : State) (h : Nat) : State :=
  let b := bHub h
  let n := rd s b F.HUB_CRCERR_COUNT
  let lim := rd s b F.HUB_LINKTHR_LIMIT
  let old := (hub s h).crcTick
  let s := modHub s h (fun x => { x with crcTick := n })
  if lim ≠ 0 ∧ lim ≤ (n + 2 ^ 32 - old) % 2 ^ 32 then latchFault s b 0x0302 else s

/-! ## Row maps and isolation (R353 to R355) -/

/-- The staged map of row-half `i`: 16 codes. -/
def stagedMap (s : State) (h i : Nat) : List Nat :=
  let b := bHub h
  let w := rdI s b F.HUB_ROWMAP0_MAP i + rdI s b F.HUB_ROWMAP1_MAP i * 2 ^ 30 + rdI s b F.HUB_ROWMAP2_MAP i * 2 ^ 60
  (List.range 16).map (fun c => bits w (5 * c + 4) (5 * c))

/-- A map that HUB_ROWGO applies: no reserved code, no fused bad site, no site twice. -/
def mapOk (s : State) (h i : Nat) (m : List Nat) : Bool :=
  let sites := m.filter (fun c => c != 0x1F)
  let pass := rdI s (bHub h) F.HUB_ROWPASS_PASS i
  sites.all (fun c => c ≤ 16 && !bit pass c) && sites.Nodup

/-- GO (R354). -/
def rowGo (s : State) (h i : Nat) : State :=
  let b := bHub h
  let m := stagedMap s h i
  if mapOk s h i m then
    let s := modHub s h (fun x => { x with
      map := x.map.take (16 * i) ++ m ++ x.map.drop (16 * i + 16)
      mapping := x.mapping.filter (· != i) ++ [i] })
    send (wrI s b F.HUB_ROWSTAT_BUSY i 1) .rowMap b (i :: m)
  else txnRefuse (wrI s b F.HUB_ROWSTAT_REFUSED i 1) b

/-- The last router has taken the map. -/
def rowApplied (s : State) (h i : Nat) : State :=
  if (hub s h).mapping.contains i then
    wrI (modHub s h (fun x => { x with mapping := x.mapping.filter (· != i) })) (bHub h) F.HUB_ROWSTAT_BUSY i 0
  else s

/-- The logical loom at site `site` of row-half `i` of hub `h`, if the map names one. -/
def loomAt (s : State) (h i site : Nat) : Option Nat :=
  (findIdx? (fun c => c = site) ((hub s h).map.drop (16 * i) |>.take 16)).map (fun c =>
    (3 * (h % 8) + i) * 32 + (if 8 ≤ h then 16 else 0) + c)

/-- HUB_ROWISO written: the looms at newly isolated sites latch ISOLATED. -/
def rowIso (s : State) (h i iso : Nat) : State :=
  let b := bHub h
  let old := rdI s b F.HUB_ROWISO_ISO i
  let s := wrI s b F.HUB_ROWISO_ISO i iso
  forEach (List.range 17) (fun site s =>
    if bit iso site && !bit old site then
      (match loomAt s h i site with
       | some l => latchFault s (bLoom l) 0x8005
       | none => s)
    else s) s

/-! ## Ply queues at the hub (R357 to R361) -/

/-- PLYCTL.STATE codes. -/
abbrev plyIdle : Nat := 0
abbrev plyArmed : Nat := 1
abbrev plyError : Nat := 2

/-- Queue `q` of hub `h`. -/
def plyQ (s : State) (h q : Nat) : PlyQ := tabGet PlyQ.reset (hub s h).ply q
/-- Sets it. -/
def setPlyQ (s : State) (h q : Nat) (x : PlyQ) : State := modHub s h (fun y => { y with ply := tabSet PlyQ.reset y.ply q x })

/-- Contributor slots in use on a hub. -/
def plySlots (s : State) (h : Nat) : Nat := ((List.range 16).map (fun q => (plyQ s h q).srcs.length)).sum

/-- EXPECT: 1 to 1,023, 0 means 1,024. -/
def plyExpect (s : State) (h q : Nat) : Nat :=
  let e := rdI s (bHub h) F.HUB_PLYCFG_EXPECT q
  if e = 0 then 1024 else e

/-- RESLEN: 1 to 255, 0 means 256. -/
def plyReslen (s : State) (h q : Nat) : Nat :=
  let e := rdI s (bHub h) F.HUB_PLYCFG_RESLEN q
  if e = 0 then 256 else e

/-- Sends a PLYCREDIT to a contributor: every sequence below `k` is credited; a NACK names the first missing one. -/
def plyCredit (s : State) (h q l k : Nat) (nack : Option Nat) : State :=
  send s .plyCredit (bLoom l) (edgeFields s (0x410 + h) (rdI s (bHub h) F.HUB_PLYPART_PART q) l 1 5 1
    [16 * h + q, k, nack.isSome.toNat, nack.getD 0])

/-- The credited sequence of a contributor whose next one is `next`: what lies in delivered rounds. -/
def plyCredited' (s : State) (h q next : Nat) : Nat := min next (rdI s (bHub h) F.HUB_PLYNEXT_ROUND q)

/-- Sends a result to the loom HUB_PLYDLOOM. -/
def plySend (s : State) (h q k : Nat) (v : Int) : State :=
  let b := bHub h
  let l := rdI s b F.HUB_PLYDLOOM_LOOM q
  send s .plyResult (bLoom l) (edgeFields s (0x410 + h) (rdI s b F.HUB_PLYPART_PART q) l 1 6 1
    [16 * h + q, k, toBits 64 v, rdI s b F.HUB_PLYDOFF_DOFF q * 8, plyReslen s h q, rdI s b F.HUB_PLYLAMP_LAMP q,
      rdI s b F.HUB_PLYLAMP_LAMPEN q])

/-- Delivers complete rounds in ascending order, and sends every contributor its credit (within 20 µs of a delivery). -/
def plyDeliver (h q : Nat) : Nat → State → State
  | 0, s => s
  | fuel + 1, s =>
    let b := bHub h
    let x := plyQ s h q
    let n := rdI s b F.HUB_PLYNEXT_ROUND q
    match x.rounds.find? (fun r => r.k = n) with
    | none => s
    | some r =>
      if r.count < plyExpect s h q then s
      else
        let v := clampI (-(2 ^ 63)) (2 ^ 63 - 1) r.sum
        let s := if v = r.sum then s else inc s b F.HUB_PLYSAT_COUNT
        let s := setPlyQ s h q { x with rounds := x.rounds.filter (fun y => y.k != n), unconf := x.unconf ++ [(n, v)] }
        let s := plySend (wrI s b F.HUB_PLYNEXT_ROUND q (n + 1)) h q n v
        let s := forEach x.srcs (fun c s => plyCredit s h q c.loom (plyCredited' s h q c.next) none) s
        plyDeliver h q fuel s

/-- A contribution discarded at the hub is credited as though it had been accepted (R359). -/
def plyDrop (s : State) (h q l k : Nat) : State := plyCredit (inc s (bHub h) F.HUB_PLYDROP_COUNT) h q l (k + 1) none

/-- A PLY packet at the hub (R352, R358 to R360). -/
def plyArrive (s : State) (h q part l k : Nat) (v : Int) : State :=
  let b := bHub h
  let x := plyQ s h q
  if part ≠ rdI s b F.HUB_PLYPART_PART q ∨ rdI s b F.HUB_PLYCTL_STATE q ≠ plyArmed then plyDrop s h q l k
  else
    let known := x.srcs.find? (fun c => c.loom = l)
    if known.isNone ∧ 1024 ≤ plySlots s h then
      plyDrop (latchFault (wrI s b F.HUB_PLYCTL_STATE q plyError) b 0x0301) h q l k
    else
      let x := if known.isNone then { x with srcs := x.srcs ++ [⟨l, 0⟩] } else x
      let e := ((x.srcs.find? (fun c => c.loom = l)).map (·.next)).getD 0
      if e < k then plyCredit (setPlyQ s h q x) h q l (plyCredited' s h q e) (some e)
      else if k < e then
        plyCredit (inc s b F.HUB_PLYDUP_COUNT) h q l (plyCredited' s h q e) none
      else
        let rounds := if x.rounds.any (fun r => r.k = k) then
            x.rounds.map (fun r => if r.k = k then ⟨k, r.count + 1, r.sum + v⟩ else r)
          else x.rounds ++ [⟨k, 1, v⟩]
        let srcs := x.srcs.map (fun c => if c.loom = l then ⟨l, k + 1⟩ else c)
        plyDeliver h q 65 (inc (setPlyQ s h q { x with srcs := srcs, rounds := rounds }) b F.HUB_PLYACC_COUNT)

/-- ARM (R358, R368): refused for a DLOOM of another partition, or one that is no loom. -/
def plyArm (s : State) (h q : Nat) : State :=
  let b := bHub h
  let d := rdI s b F.HUB_PLYDLOOM_LOOM q
  if 768 ≤ d ∨ rd s (bLoom d) F.OWNER_PART ≠ rdI s b F.HUB_PLYPART_PART q then txnRefuse s b
  else
    let s := wrI (wrI (setPlyQ s h q PlyQ.reset) b F.HUB_PLYCTL_STATE q plyArmed) b F.HUB_PLYNEXT_ROUND q 0
    send s .plyArm b [16 * h + q]

/-- DISARM (R361). -/
def plyDisarm (s : State) (h q : Nat) : State :=
  let b := bHub h
  let x := plyQ s h q
  if x.rounds.any (fun r => 0 < r.count) || !x.unconf.isEmpty then txnRefuse s b
  else wrI s b F.HUB_PLYCTL_STATE q plyIdle

/-- FORCE (R361): the contributions it discards are counted, and credited like every discard (R359). -/
def plyForce (s : State) (h q : Nat) : State :=
  let b := bHub h
  let x := plyQ s h q
  let n := (x.rounds.map (·.count)).sum
  let s := forEach x.srcs (fun c s => plyCredit s h q c.loom c.next none) s
  wrI (incBy (setPlyQ s h q PlyQ.reset) b F.HUB_PLYDROP_COUNT n) b F.HUB_PLYCTL_STATE q plyIdle

/-- A confirmation (R359). -/
def plyConfirmed (s : State) (h q k : Nat) : State :=
  let x := plyQ s h q
  if x.unconf.any (fun u => u.1 = k) then
    inc (setPlyQ s h q { x with unconf := x.unconf.filter (fun u => u.1 != k) }) (bHub h) F.HUB_PLYROUNDS_COUNT
  else s

/-- Results unconfirmed for 20 µs are sent again. -/
def plyResults (s : State) (h q : Nat) : State := forEach (plyQ s h q).unconf (fun u s => plySend s h q u.1 u.2) s

/-! ## Ply queues at a loom -/

/-- The window of queue `q`. -/
def plyWin (s : State) (l q : Nat) : PlyWin := tabGet PlyWin.reset (loom s l).ply q
/-- Sets it. -/
def setPlyWin (s : State) (l q : Nat) (w : PlyWin) : State :=
  modLoom s l (fun m => { m with ply := tabSet PlyWin.reset m.ply q w })

/-- Sends a PLY packet. -/
def plyPacket (s : State) (l q k : Nat) (v : Int) : State :=
  niSend s l (selfPkg s) .ply (niFields s l 1 4 (0x410 + q / 16) 1 [q % 16, l, k, toBits 64 v])

/-- The place of round `k` of queue `q` among the results that an interface has taken. -/
def plyKey (q k : Nat) : Nat := q * 2 ^ 32 + k

/-- ARM(q) at a network interface (R358). -/
def plyArmed' (s : State) (l q : Nat) : State :=
  modLoom s l (fun m => { m with
    ply := tabSet PlyWin.reset m.ply q PlyWin.reset
    plyGot := tabClear m.plyGot (plyKey q 0) (plyKey (q + 1) 0) })

/-- A PLYCREDIT (R359): frees the window below `credited`; a NACK resends from the first missing one on. -/
def plyCredited (l q credited : Nat) (nack : Option Nat) (s : State) : State :=
  let w := plyWin s l q
  let kept := w.kept.filter (fun c => credited ≤ c.1)
  let s := setPlyWin s l q { w with kept := kept }
  match nack with
  | some k => forEach (kept.filter (fun c => k ≤ c.1)) (fun c s => inc (plyPacket s l q c.1 c.2) (bLoom l) F.LOOM_PLYRESEND_COUNT) s
  | none => s

/-- A contribution not credited for 20 µs is sent again. -/
def plyResend (s : State) (l q k : Nat) : State :=
  match (plyWin s l q).kept.find? (fun c => c.1 = k) with
  | some c => inc (plyPacket s l q c.1 c.2) (bLoom l) F.LOOM_PLYRESEND_COUNT
  | none => s

/-- The scratch address of round `k` of a queue's results. -/
def plySlot (k doff reslen : Nat) : Nat := doff + 8 * (if reslen = 0 then 0 else k % reslen)

/-- A PLYRESULT that the receiving interface takes (R359). -/
def plyResult (l q k : Nat) (v : W64) (doff reslen : Nat) (lamp : Option Nat) (s : State) : State :=
  let b := bLoom l
  let confirm := fun (s : State) => send s .plyConfirm (bHub (q / 16)) [l, q % 16, k]
  let a := plySlot k doff reslen
  if tabGet 0 (loom s l).plyGot (plyKey q k) ≠ 0 then confirm s
  else
    let s := modLoom s l (fun m => { m with plyGot := tabSet 0 m.plyGot (plyKey q k) 1 })
    if ownedBy s l ownNetif a 8 then
      let s := logXfer (scrPut s l a 8 v.toNat) l a 8
      let s := match lamp with | some x => send s .lampAdd (bHub (x / 1024)) [b, x % 1024, rd s b F.OWNER_PART, 1] | none => s
      confirm s
    else confirm (latchFault (inc s b F.LOOM_PLYRESDROP_COUNT) b 0x0116)

/-- A PLYRESULT packet at a loom (R352, R359): it waits for room in the log, and at a bank that holds its write. -/
def plyResultIn (s : State) (l part q k : Nat) (v : W64) (doff reslen : Nat) (lamp : Option Nat) : State :=
  if logFull s l ∨ scrHeld s l (plySlot k doff reslen) 8 then send s .hold (bLoom l) []
  else niTake s l part (plyResult l q k v doff reslen lamp)

/-! ## The selvedge network (R363 to R365) -/

/-- Where a packet goes: its destination block, or with BCAST every loom, or the looms of the partition that its first data word names (log
entry 111). -/
def selvDests (s : State) (hdr : Nat) (ws : List Word) : List Nat :=
  let p := ((ws[0]?).getD 0x1F).toNat % 32
  if bit hdr 2 then ((List.range 768).filter (fun l => 16 ≤ p || rd s (bLoom l) F.OWNER_PART = p)).map bLoom
  else [bits hdr 14 3]

/-- A selvedge packet on the link of hub node `h`: delivered with its class, source and data, or kept in the replay buffer and retried; the
seventeenth failure in a row takes the link down. -/
def selvPacket (s : State) (h : Nat) (hdr : Word) (ws : List Word) (crc : Nat) : State :=
  let b := bHub h
  let x := hub s h
  let w := hdr.toNat
  if x.selvDown then s
  else if crc = selvCrc (hdr :: ws) then
    let s := modHub s h (fun y => { y with selvFail := 0, selvReplay := y.selvReplay.erase (hdr :: ws) })
    forEach (selvDests s w ws) (fun d s => send s .forward d ([w % 4, bits w 26 15] ++ ws.map (·.toNat))) s
  else if x.selvFail < 16 then
    inc (modHub s h (fun y => { y with
      selvFail := y.selvFail + 1
      selvReplay := if y.selvReplay.contains (hdr :: ws) then y.selvReplay else ((hdr :: ws) :: y.selvReplay).take 8 })) b
      F.HUB_SELVRETRY_COUNT
  else latchFault (modHub s h (fun y => { y with selvDown := true })) b 0x0303

end Sys2Proof.Machine
end

