-- ==== Sys2Proof/Machine/Lamps.lean ====
section
/-!
DEFINITION. Lamps and watches (chapter 11).
-/

namespace Sys2Proof.Machine

/-! ## Partitions (R579) -/

/-- PART_STATE codes. -/
abbrev psFree : Nat := 0
abbrev psSuspended : Nat := 1
abbrev psActive : Nat := 2
abbrev psClearing : Nat := 3

/-- The state of partition `p`. -/
def partState (s : State) (p : Nat) : Nat := bits (regGet s bPartition F.PART_STATE_STATE.off 0).toNat (2 * p + 1) (2 * p)

/-- Sets it. -/
def setPartState (s : State) (p v : Nat) : State :=
  let w := regGet s bPartition F.PART_STATE_STATE.off 0
  regSet s bPartition F.PART_STATE_STATE.off 0 (BitVec.ofNat 32 (setBits w.toNat (2 * p + 1) (2 * p) v))

/-! ## Permission (R393, R400) -/

/-- The partition tag that block `k` of a hub's lamps is assigned to. -/
def lampPart (s : State) (h k : Nat) : Nat :=
  bits (regGet s (bHub h) (F.HUB_LAMPPART_PART.off + 4 * (k / 6)) 0).toNat (5 * (k % 6) + 4) (5 * (k % 6))

/-- Whether a requester tag may operate on lamp index `i` of hub `h`: the device and custody on every lamp, a partition that
is not SUSPENDED on its own. -/
def lampOk (s : State) (h i tag : Nat) : Bool :=
  tag = 0x1F || tag = 0x1E || (tag < 16 && lampPart s h (i / 64) = tag && partState s tag != psSuspended
      && partState s tag != psClearing)

/-! ## Lamps (R395, R397, R401) -/

/-- A lamp's value. -/
def lampVal (s : State) (h i : Nat) : Nat := tabGet 0 (hub s h).lamps i
/-- Sets it. -/
def setLamp (s : State) (h i v : Nat) : State := modHub s h (fun x => { x with lamps := tabSet 0 x.lamps i v })

/-- Watch results as LWAIT returns them (R295). -/
abbrev wMet : Nat := 0
abbrev wRefused : Nat := 1
abbrev wTimeout : Nat := 4

/-- HUB_WATCHCTL.STATUS codes. -/
abbrev wsIdle : Nat := 0
abbrev wsWaiting : Nat := 1
abbrev wsMet : Nat := 2
abbrev wsTimeout : Nat := 3
abbrev wsRefused : Nat := 4

/-- Tells a watch's result: a message to the loom, or the window slot's STATUS and, with IRQEN, the hub's line. -/
def watchTell (s : State) (h : Nat) (w : Watch) (res : Nat) : State :=
  let b := bHub h
  if w.who < 1536 then send s .watchDone (bLoom (w.who / 2)) [w.who % 2, 1024 * h + w.lamp, res, w.tok]
  else
    let i := w.who - 1536
    let s := wrI s b F.HUB_WATCHCTL_STATUS i (if res = wMet then wsMet else if res = wTimeout then wsTimeout else wsRefused)
    if rdI s b F.HUB_WATCHCTL_IRQEN i = 1 then send s .apc b [1] else s

/-- Completes a watch with a result. -/
def watchEnd (s : State) (h : Nat) (w : Watch) (res : Nat) : State :=
  watchTell (modHub s h (fun x => { x with watches := x.watches.filter (fun y => y.who != w.who) })) h w res

/-- Compares every watch on lamp `i` with its value (step 2 of R397). -/
def lampCompare (s : State) (h i : Nat) : State :=
  forEach ((hub s h).watches.filter (fun w => w.lamp = i && w.target ≤ lampVal s h i)) (fun w s =>
    watchEnd (inc s (bHub h) F.HUB_WATCHMET_COUNT) h w wMet) s

/-- ADD (R395). -/
def lampAdd (s : State) (h i tag v : Nat) : State :=
  let b := bHub h
  if !lampOk s h i tag then inc s b F.HUB_LAMPREFUSE_COUNT
  else
    let x := lampVal s h i + v
    let s := inc s b F.HUB_LAMPADDS_COUNT
    let s := if 2 ^ 64 ≤ x then inc s b F.HUB_LAMPSAT_COUNT else s
    lampCompare (setLamp s h i (min x (2 ^ 64 - 1))) h i

/-- Force (R401): no lifecycle or requester check. -/
def lampForce (s : State) (h i v : Nat) : State :=
  lampCompare (inc (setLamp s h i (v % 2 ^ 64)) (bHub h) F.HUB_LAMPFORCE_COUNT) h i

/-- The deadline of a timeout, by the hub's copy of LT (R24, R396). -/
def deadline (s : State) (tmo : Nat) : Option Nat × State :=
  if tmo = 0 then (none, s) else let t := ltLagged s; (some (t.1 + min tmo (2 ^ 40)), t.2)

/-- Places a watch; it is compared in the same evaluation. A watch that its waiter already holds is replaced. -/
def watchPlace (s : State) (h : Nat) (w : Watch) : State :=
  let s := modHub s h (fun x => { x with watches := x.watches.filter (fun y => y.who != w.who) ++ [w] })
  if w.target ≤ lampVal s h w.lamp then watchEnd (inc s (bHub h) F.HUB_WATCHMET_COUNT) h w wMet else s

/-- Places a watch (R394, R396): refused outside its partition, which changes nothing that its waiter already holds (R393). -/
def loomWatch (s : State) (h who i tag target tmo tok : Nat) : State :=
  let d := deadline s tmo
  let s := d.2
  let w : Watch := ⟨who, i, target, d.1, tok⟩
  if lampOk s h i tag then watchPlace s h w else watchTell (inc s (bHub h) F.HUB_LAMPREFUSE_COUNT) h w wRefused

/-- A waiting watch reaches its deadline (step 3 of R397). -/
def watchDeadline (s : State) (h who : Nat) : State :=
  match (hub s h).watches.find? (fun w => w.who = who) with
  | some w =>
    let t := ltLagged s
    if w.deadline.any (fun d => d ≤ t.1) then watchEnd (inc t.2 (bHub h) F.HUB_WATCHTMO_COUNT) h w wTimeout else t.2
  | none => s

/-- A CANCEL (R402). -/
def watchCancel (s : State) (h who : Nat) : State :=
  modHub s h (fun x => { x with watches := x.watches.filter (fun w => w.who != who) })

/-- A partition switch (R400): every lamp of the partition's blocks to 0, every watch on them refused. -/
def lampZero (s : State) (h p : Nat) : State :=
  let ks := (List.range 16).filter (fun k => lampPart s h k = p)
  forEach ks (fun k s =>
    let s := modHub s h (fun x => { x with lamps := tabClear x.lamps (64 * k) (64 * k + 64) })
    let s := forEach ((hub s h).watches.filter (fun w => w.lamp / 64 = k)) (fun w s => watchEnd s h w wRefused) s
    inc s (bHub h) F.HUB_LAMPZERO_COUNT) s

/-! ## Completions at a loom (R402) -/

/-- The main program or the running activation waits for `lamp` in its LWAIT number `tok`: the completion of one that was cancelled has another
number, even where a later LWAIT of the same code names the same lamp (R402). -/
def watched (s : State) (l : Nat) (isMain : Bool) (lamp tok : Nat) : Bool :=
  let q := seqOf s l
  let is := fun (w : Option Wait) => match w with
    | some (.lamp x _ t) => x = lamp && t = tok
    | _ => false
  if isMain && !usesMain q then is q.mwait else isMain = usesMain q && is q.wait

/-- A watch completion: the LWAIT of the main program or of the running activation returns, once the pick log takes its value
(R613, R614); any other is discarded. -/
def watchDone (s : State) (l : Nat) (isMain : Bool) (lamp res tok : Nat) : State :=
  if !watched s l isMain lamp tok then s
  else if logFull s l then send s .hold (bLoom l) []
  else
  let s := logValue (if res = wTimeout then timeDep s l 1 else s) l 2 (BitVec.ofNat 64 res)
  let q := seqOf s l
  let ends := fun (w : Option Wait) => match w with
    | some (.lamp x d _) => if x = lamp then some d else none
    | _ => none
  if isMain && !usesMain q then
    match ends q.mwait with
    | some d => inc (modSeq s l (fun q => { q with
        mwait := none, mpc := q.mpc + 4
        mfile := if d = 0 then q.mfile else tabSet 0 q.mfile d (BitVec.ofNat 64 res) })) (bLoom l) F.LOOM_SEQINSTR_COUNT
    | none => s
  else if isMain = usesMain q then
    match ends q.wait with
    | some d => inc (modSeq s l (fun q => seqSetPc (gWrite { q with wait := none } d (BitVec.ofNat 64 res)) (seqPc q + 4)))
        (bLoom l) F.LOOM_SEQINSTR_COUNT
    | none => s
  else s

end Sys2Proof.Machine
end

