-- ==== Sys2Proof/Machine/ChanRows.lean ====
section
/-!
DEFINITION. Messages and credits at the ends of looms (chapter 11).
-/

namespace Sys2Proof.Machine

/-! ## Arrival of a message at a loom (R383, R387, R388) -/

/-- Fields of a message header as the interface completes them. -/
def hdrChan (h : Nat) : Nat := bits h 43 32
def hdrSeq (h : Nat) : Nat := bits h 31 16
def hdrGen (h : Nat) : Nat := bits h 51 48

/-- What loom `l` does with a MESSAGE packet of its partition. -/
def msgTake (l spkg sep : Nat) (ws : List W64) (s : State) : State :=
  let b := bLoom l
  let h := ((ws.head?).getD 0).toNat
  let n := msgSlots ws.length
  match chFind s l (hdrChan h) 1 with
    | none =>
      creditSend (inc s b F.LOOM_CHORPHAN_COUNT) l spkg (genPath s l spkg sep)
        (creditWord (hdrChan h) (hdrSeq h + 1) 0 (hdrGen h) true false false)
    | some i =>
      if rdI s b F.LOOM_CHDATA0_PKG i ≠ spkg ∨ rdI s b F.LOOM_CHDATA0_PEER i ≠ sep then inc s b F.LOOM_CHSTRAY_COUNT
      else if rdI s b F.LOOM_CHDATA1_GEN i ≠ hdrGen h then inc s b F.LOOM_CHSTALE_COUNT
      else
        let e := chEnd s l i
        if e.closed then
          chCredit (chStatus (setCh s l i { e with
            ack := (hdrSeq h + 1) % 65536, rfreed := (e.rfreed + n) % 65536, orph := e.orph + 1 }) l i) l i false
        else match arrival (chSize s l i) e (hdrSeq h) n with
          | .take =>
            let p := ringPlace (chSize s l i) { e with ack := (e.ack + 1) % 65536, msgs := e.msgs + 1 } (hdrChan h)
              (hdrSeq h) (hdrGen h) ((loom s l).msgNo + 1) ws
            let s := modLoom (logMessage s l (hdrChan h) ws) l (fun m => { m with msgNo := m.msgNo + 1 })
            chOffer l i (chCredit (chStatus (setCh (chWrite s l i p.2) l i p.1) l i) l i false)
          | .overflow =>
            let s := setCh s l i { e with ack := (e.ack + 1) % 65536, rfreed := (e.rfreed + n) % 65536, ovf := true }
            latchFault (inc (chCredit (chStatus s l i) l i false) b F.LOOM_CHOVFDROP_COUNT) b 0x0117
          | .gap => chCredit s l i true
          | .dup => chCredit (inc s b F.LOOM_CHDUP_COUNT) l i false

/-- A MESSAGE packet at loom `l` (R334, R352, R383): one longer than its class may be is discarded; it waits for room in the log, and at a
ring whose bank is held. -/
def msgArrive (s : State) (l spkg sep part : Nat) (ws : List W64) : State :=
  let b := bLoom l
  if 256 < ws.length then inc s b F.LOOM_NIBADPKT_COUNT
  else if logFull s l || (chFind s l (hdrChan ((ws.head?).getD 0).toNat) 1).any (ringHeld s l) then send s .hold b []
  else niTake s l part (msgTake l spkg sep ws)

/-- CLOSE of the receive end of entry `i` (R387); ignored for a send end and an end not in use. -/
def chClose (s : State) (l i : Nat) : State :=
  let b := bLoom l
  if rdI s b F.LOOM_CHDATA0_VALID i = 0 ∨ rdI s b F.LOOM_CHDATA0_DIR i = 0 ∨ (chEnd s l i).closed then s
  else
    let running := match (seqOf s l).act with
      | some a => a.ctx = 4 && a.ent = i && handlerHolds s l a
      | none => false
    let e := chEnd s l i
    let lost := (e.ring.filter (fun x => !x.pad)).length - running.toNat
    let freed := (e.ring.map (·.slots)).sum
    let s := setCh s l i { e with
      closed := true, ring := [], head := e.tail, hep := e.tep, rfreed := (e.rfreed + freed) % 65536, orph := e.orph + lost }
    let s := modSeq s l (fun q => { q with queue := q.queue.filter (fun a => !(a.ctx = 4 && a.ent = i)) })
    chCredit (chStatus s l i) l i false

/-! ## Credits at a loom (R384, R389) -/

/-- Frees the send retention of messages acknowledged, in the order of sending (R381). -/
def txFree (s : State) (l i : Nat) : State :=
  let e := chEnd s l i
  modLoom s l (fun m =>
    let o := m.txOrder.map (fun t => if t.ent = i && !e.kept.any (fun k => k.seq = t.seq) then { t with acked := true } else t)
    { m with txOrder := o.dropWhile (·.acked) })

/-- Slots of the send retention area. -/
def txArea (s : State) (l : Nat) : Nat := min 16 (rd s (bLoom l) F.LOOM_CHTXSIZE_SIZE) * 64

/-- Where word `k` of a message that starts at area slot `pos` stands: messages follow one another round the area (log entry 114). -/
def txAddr (s : State) (l pos k : Nat) : Nat := rd s (bLoom l) F.LOOM_CHTXBASE_BASE * 4096 + 64 * ((pos + k / 8) % txArea s l) + 8 * (k % 8)

/-- Sends a message of a send end on its path. -/
def messageSend (s : State) (l i : Nat) (ws : List W64) : State :=
  let pkg := rdI s (bLoom l) F.LOOM_CHDATA0_PKG i
  niSend s l pkg .message (niFlits s l 1 0 0 pkg (chPath s l i) (wordFlits (ws.map (·.toNat)) 0))

/-- Resends every retained message of a send end, in order (R384). -/
def chResend (s : State) (l i : Nat) : State :=
  let b := bLoom l
  forEach (chEnd s l i).kept (fun k s =>
    let ws := match k.words with
      | h :: t => (BitVec.ofNat 64 (setBits h.toNat 45 45 1) : W64) :: t
      | [] => []
    let s := match (loom s l).txOrder.find? (fun t => t.ent = i && t.seq = k.seq) with
      | some t => forEach (List.range t.slots) (fun j s => (scratchCheck s l (txAddr s l t.pos (8 * j)) 64).2) s
      | none => s
    inc (messageSend s l i ws) b F.LOOM_CHRESEND_COUNT) s

/-- What loom `l` does with a CREDIT of its partition: for a receive end a PROBE, answered; for a send end the credit itself. -/
def creditTake (l chan ack freed gen : Nat) (closed nack probe : Bool) (s : State) : State :=
  let b := bLoom l
  if probe then
    match chFind s l chan 1 with
    | some i => if rdI s b F.LOOM_CHDATA1_GEN i = gen then chCredit s l i false else s
    | none => s
  else match chFind s l chan 0 with
    | none => s
    | some i =>
      if rdI s b F.LOOM_CHDATA1_GEN i ≠ gen then s
      else
        let e := chEnd s l i
        if e.closed then s
        else if closed then
          txFree (incBy (setCh s l i { e with closed := true, kept := [], blocked := [] }) b F.LOOM_CHCLOSEDROP_COUNT
            e.kept.length) l i
        else
          let s := txFree (setCh s l i (sendCredit e ack freed)) l i
          if nack then chResend s l i else s

/-- A CREDIT packet at loom `l` (R352). -/
def creditArrive (s : State) (l part chan ack freed gen : Nat) (closed nack probe : Bool) : State :=
  niTake s l part (creditTake l chan ack freed gen closed nack probe)

/-- PROBE of a send end blocked on credits (R384). -/
def chProbe (s : State) (l i : Nat) : State :=
  let b := bLoom l
  let e := chEnd s l i
  if !e.blocked.isEmpty && !e.closed then
    endCredit s l i (creditWord (rdI s b F.LOOM_CHDATA0_CHAN i) 0 0 (rdI s b F.LOOM_CHDATA1_GEN i) false false true)
  else s

/-! ## Sending from a loom (R380, R381) -/

/-- What a send does: `full` says that credits are short; else the retention area is. -/
inductive SendRes where
  | refused | closed | held
  | full (credits : Bool)
  | ok (s : State)

/-- Sends the words of a message on channel `chan` of loom `l`. -/
def chSend (s : State) (l chan : Nat) (ws : List W64) : SendRes :=
  let b := bLoom l
  match chFind s l chan 0 with
  | none => .refused
  | some i =>
    let e := chEnd s l i
    let n := msgSlots ws.length
    let area := txArea s l
    if chSize s l i < n ∨ area = 0 then .refused
    else if e.closed then .closed
    else
      let used := ((loom s l).txOrder.map (·.slots)).sum
      match sendRoom (chSize s l i) e n with
      | none => .full true
      | some total =>
        if area < used + n then .full false
        else if scrHeld s l (txAddr s l 0 0) (64 * area) then .held
        else
          let e' := { sendTake (chSize s l i) e chan (rdI s b F.LOOM_CHDATA1_GEN i) ws total with
            blocked := e.blocked.filter (fun c => c != usesMain (seqOf s l)) }
          let sent := (e'.kept.getLast?.map (·.words)).getD []
          let pos := (loom s l).txNext
          let s := modLoom (setCh s l i e') l (fun m => { m with
            txOrder := m.txOrder ++ [⟨i, e.seq, n, pos, false⟩], txNext := (pos + n) % area })
          let s := (sent.zip (List.range sent.length)).foldl (fun s wk => scrPut s l (txAddr s l pos wk.2) 8 wk.1.toNat) s
          .ok (messageSend s l i sent)

/-- The running code waits at the send end of a channel: it is blocked there where credits are short, and no longer where it waits for the
retention area (R384). -/
def chBlock (s : State) (l chan : Nat) (credits : Bool) : State :=
  let c := usesMain (seqOf s l)
  match chFind s l chan 0 with
  | some i =>
    let e := chEnd s l i
    setCh s l i { e with blocked := e.blocked.filter (fun x => x != c) ++ (if credits then [c] else []) }
  | none => s

/-- CDONE of channel `chan` from the running code (R386): the entry to release, none where it is refused. -/
def doneEntry (s : State) (l chan : Nat) : Option Nat :=
  match chFind s l chan 1 with
  | none => none
  | some i =>
    match (chEnd s l i).ring with
    | [] => none
    | x :: _ =>
      if x.handler = 0 then some i
      else match (seqOf s l).act with
        | some a => if a.ctx = 4 && a.ent = i && handlerHolds s l a then some i else none
        | none => none

/-- Starts the ends that a commit has made VALID or rewritten afresh (R375): the words of a descriptor besides the status word read 0
(R377, log entry 130). -/
def chFresh (s : State) (l i : Nat) : State :=
  let s := setCh s l i ChEnd.reset
  let s := modLoom s l (fun m => { m with
    txOrder := (m.txOrder.map (fun t => if t.ent = i then { t with acked := true } else t)).dropWhile (·.acked)
    seq := { m.seq with queue := m.seq.queue.filter (fun a => !(a.ctx = 4 && a.ent = i)) } })
  if rdI s (bLoom l) F.LOOM_CHDATA0_VALID i = 1 ∧ rdI s (bLoom l) F.LOOM_CHDATA0_DIR i = 1 then
    chStatus (netPut s l (chBase s l i + 8) 56 0) l i
  else s

end Sys2Proof.Machine
end

