-- ==== Sys2Proof/Machine/Hart.lean ====
section
/-!
DEFINITION. The harts of the application cluster (R73): their control and status registers, their interrupt files as they see them (R76),
exceptions and interrupts. The manual gives these by reference to the RISC-V privileged architecture and the RISC-V Advanced Interrupt
Architecture 1.0, whose layouts stand here (PRESUMED, log entries 41 and 128).
-/

namespace Sys2Proof.Machine

/-- Changes the private space. -/
def modClu (s : State) (f : CluSt → CluSt) : State := { s with clu := f s.clu }

/-- A set with an element, or without it. -/
def setBit (xs : List Nat) (x : Nat) (on : Bool) : List Nat :=
  if on then (if xs.contains x then xs else xs ++ [x]) else xs.filter (fun y => y != x)

/-- Hart `h`. -/
def hart (s : State) (h : Nat) : Hart := tabGet Hart.reset s.clu.harts h
/-- Changes hart `h`. -/
def modHart (s : State) (h : Nat) (f : Hart → Hart) : State :=
  modClu s (fun c => { c with harts := tabSet Hart.reset c.harts h (f (hart s h)) })

/-- The timer interrupt of a hart is pending. -/
def mtip (s : State) (h : Nat) : Bool := tabGet 0 s.clu.timecmp h ≤ ltAt s bApc

/-! ## The L2 (R73) -/

/-- Bytes of HBM from `a` on, as a reader that is coherent with the L2 sees them. -/
def l2Over (s : State) (a : Nat) (bs : List Byte) : List Byte :=
  bs.mapIdx (fun i b => match tabGet 0 s.clu.l2 (a + i) with
    | 0 => b
    | v + 1 => BitVec.ofNat 8 v)

/-- A coherent write takes the place of what the L2 holds. -/
def l2Drop (s : State) (a n : Nat) : State := modClu s (fun c => { c with l2 := tabClear c.l2 a (a + n) })

/-- A store of a hart stays in the L2: it writes no line back by itself (DESIGN CHOICE, log entry 128). -/
def l2Put (s : State) (a : Nat) (bs : List Byte) : State :=
  modClu s (fun c => { c with l2 := tabSetRun 0 c.l2 a (bs.map (fun b => b.toNat + 1)) })

/-! ## Interrupt files (R76): file 0 of a hart is the machine file, 1 the supervisor file, 1 + g guest file g -/

/-- The pending and enabled identity of the highest priority, the lowest, in file `f` of hart `h`, if its delivery is on and the threshold
lets it through; 0 for none. -/
def fileTop (s : State) (h f : Nat) : Nat :=
  let file := h * 16 + f
  let t := tabGet 0 s.clu.ethr file
  if tabGet 0 s.clu.edel file = 1 then
    ((List.range 256).find? (fun i => 0 < i && (t = 0 || i < t) && s.clu.eip.contains (file * 256 + i)
      && s.clu.eie.contains (file * 256 + i))).getD 0
  else 0

/-- Software claims the top identity of a file, which is pending no more. -/
def fileClaim (s : State) (h f : Nat) : State :=
  let i := fileTop s h f
  if i = 0 then s else modClu s (fun c => { c with eip := setBit c.eip ((h * 16 + f) * 256 + i) false })

/-- 64 bits of a set of identities of a file. -/
def idWord (xs : List Nat) (file k : Nat) : Nat :=
  ((List.range 64).filter (fun j => xs.contains (file * 256 + 64 * k + j))).foldl (fun a j => a + 2 ^ j) 0

/-- A set of identities with 64 of a file replaced; identity 0 does not exist. -/
def idSet (xs : List Nat) (file k v : Nat) : List Nat :=
  (List.range 64).foldl (fun xs j => if k = 0 ∧ j = 0 then xs else setBit xs (file * 256 + 64 * k + j) (bit v j)) xs

/-- A register of a file by its number in the indirect access window: eidelivery, eithreshold, eip and eie, of which RV64 has the even ones;
none for one that does not exist. -/
def fileReg (s : State) (h f n : Nat) : Option Nat :=
  let file := h * 16 + f
  if n = 0x70 then some (tabGet 0 s.clu.edel file)
  else if n = 0x72 then some (tabGet 0 s.clu.ethr file)
  else if 0x80 ≤ n ∧ n < 0xC0 ∧ n % 2 = 0 then some (if n < 0x88 then idWord s.clu.eip file ((n - 0x80) / 2) else 0)
  else if 0xC0 ≤ n ∧ n < 0x100 ∧ n % 2 = 0 then some (if n < 0xC8 then idWord s.clu.eie file ((n - 0xC0) / 2) else 0)
  else none

/-- Writes it. -/
def setFileReg (s : State) (h f n v : Nat) : State :=
  let file := h * 16 + f
  if n = 0x70 then modClu s (fun c => { c with edel := tabSet 0 c.edel file (v % 2) })
  else if n = 0x72 then modClu s (fun c => { c with ethr := tabSet 0 c.ethr file (v % 256) })
  else if 0x80 ≤ n ∧ n < 0x88 ∧ n % 2 = 0 then modClu s (fun c => { c with eip := idSet c.eip file ((n - 0x80) / 2) v })
  else if 0xC0 ≤ n ∧ n < 0xC8 ∧ n % 2 = 0 then modClu s (fun c => { c with eie := idSet c.eie file ((n - 0xC0) / 2) v })
  else s

/-! ## Control and status registers -/

/-- The writable registers of RV64GC with H, of the interrupt architecture and of debug mode. -/
def csrRw : List Nat :=
  [0x001, 0x002, 0x003, 0x100, 0x104, 0x105, 0x106, 0x10A, 0x140, 0x141, 0x142, 0x143, 0x144, 0x150, 0x151, 0x15C, 0x180, 0x200, 0x204, 0x205, 0x240,
   0x241, 0x242, 0x243, 0x244, 0x250, 0x251, 0x25C, 0x280, 0x300, 0x301, 0x302, 0x303, 0x304, 0x305, 0x306, 0x30A, 0x320, 0x340, 0x341, 0x342, 0x343,
   0x344, 0x34A, 0x34B, 0x350, 0x351, 0x35C, 0x600, 0x602, 0x603, 0x604, 0x605, 0x606, 0x607, 0x60A, 0x643, 0x644, 0x645, 0x64A, 0x680, 0x7B0, 0x7B1,
   0xB00, 0xB02] ++ (List.range 16).map (0x3A0 + 2 * ·) ++ (List.range 64).map (0x3B0 + ·)

/-- What a register holds that no write has changed: misa, and the widths of S and U in mstatus, UXL and VSXL likewise. -/
def csrReset (n : Nat) : Nat :=
  if n = 0x301 then 2 ^ 63 + 0x1411AD
  else if n = 0x300 then 0xA00000000 else if n = 0x200 then 0x200000000 else if n = 0x600 then 0x200000000
  else if n = 0x7B0 then 0x40000003 else 0

/-- A register as it is held. -/
def csr (s : State) (h n : Nat) : Nat := tabGet (csrReset n) (hart s h).csr n
/-- Holds a value. -/
def setCsr (s : State) (h n v : Nat) : State :=
  modHart s h (fun x => { x with csr := tabSet (csrReset n) x.csr n (v % 2 ^ 64) })

/-- The bits of mstatus that sstatus shows. -/
abbrev sstatusBits : Nat := 0x80000003000DE762
/-- The bits of mip that software may write: SSIP, STIP, SEIP and the VS-level ones of hvip. -/
abbrev mipSoft : Nat := 0x666

/-- Guest files with a top identity, one bit each, as hgeip shows them. -/
def hgeip (s : State) (h : Nat) : Nat :=
  ((List.range 8).filter (fun g => 0 < g && fileTop s h (1 + g) != 0)).foldl (fun a g => a + 2 ^ g) 0

/-- The guest file that hstatus.VGEIN names. -/
def vgein (s : State) (h : Nat) : Nat := bits (csr s h 0x600) 17 12

/-- The bits under a mask of one number, and of another where the mask is 0. -/
def mixBits (mask a b : Nat) : Nat := (a &&& mask) ||| (b &&& (mask ^^^ (2 ^ 64 - 1)))

/-- mip: what software holds, with the timer and the interrupt files. -/
def mip (s : State) (h : Nat) : Nat :=
  let on := fun (k : Nat) (c : Bool) => if c then 2 ^ k else 0
  (csr s h 0x344 &&& mipSoft) ||| on 7 (mtip s h) ||| on 11 (fileTop s h 0 != 0) ||| on 9 (fileTop s h 1 != 0)
    ||| on 10 (bit (hgeip s h) (vgein s h)) ||| on 12 (hgeip s h &&& csr s h 0x607 != 0)

/-- What the top register of a file shows: identity and priority. -/
def topWord (i : Nat) : Nat := i * 65536 + i

/-- The file behind an indirect window or top register of the supervisor's and the guest's level. -/
def fileOf (s : State) (h n : Nat) : Nat := if n / 256 = 3 then 0 else if n / 256 = 2 then 1 + vgein s h else 1

/-- A read of register `n` of hart `h`; none where there is no such register. -/
def csrGet (s : State) (h n : Nat) : Option Nat :=
  if n = 0x100 then some (csr s h 0x300 &&& sstatusBits)
  else if n = 0x104 then some (csr s h 0x304 &&& csr s h 0x303)
  else if n = 0x144 then some (mip s h &&& csr s h 0x303)
  else if n = 0x344 then some (mip s h)
  else if n = 0x151 then fileReg s h 1 (csr s h 0x150)
  else if n = 0x251 then fileReg s h (1 + vgein s h) (csr s h 0x250)
  else if n = 0x351 then fileReg s h 0 (csr s h 0x350)
  else if n = 0x15C ∨ n = 0x25C ∨ n = 0x35C then some (topWord (fileTop s h (fileOf s h n)))
  else if n = 0x204 then some ((csr s h 0x304 &&& csr s h 0x603 &&& 0x444) / 2)
  else if n = 0x244 then some ((mip s h &&& csr s h 0x603 &&& 0x444) / 2)
  else if n = 0x604 then some (csr s h 0x304 &&& 0x1444)
  else if n = 0x644 then some (mip s h &&& 0x1444)
  else if n = 0x645 then some (csr s h 0x344 &&& 0x444)
  else if n = 0x7B1 then some (hart s h).pc
  else if n = 0xC01 then some (ltAt s bApc)
  else if n = 0xE12 then some (hgeip s h)
  else if n = 0xF14 then some h
  else if n = 0xF11 ∨ n = 0xF12 ∨ n = 0xF13 ∨ n = 0xF15 then some 0
  else if csrRw.contains n then some (csr s h n) else none

/-- A write of register `n`; false where there is none or it is read-only. -/
def csrPut (s : State) (h n v : Nat) : Bool × State :=
  let m := csr s h 0x303
  let g := csr s h 0x603
  if !csrRw.contains n then (false, s)
  else if n = 0x100 then (true, setCsr s h 0x300 (mixBits sstatusBits v (csr s h 0x300)))
  else if n = 0x104 then (true, setCsr s h 0x304 (mixBits m v (csr s h 0x304)))
  else if n = 0x144 then (true, setCsr s h 0x344 (mixBits (m &&& 2) v (csr s h 0x344)))
  else if n = 0x344 then (true, setCsr s h 0x344 (v &&& mipSoft))
  else if n = 0x204 then (true, setCsr s h 0x304 (mixBits (g &&& 0x444) (2 * v) (csr s h 0x304)))
  else if n = 0x244 then (true, setCsr s h 0x344 (mixBits (g &&& 4) (2 * v) (csr s h 0x344)))
  else if n = 0x604 then (true, setCsr s h 0x304 (mixBits 0x1444 v (csr s h 0x304)))
  else if n = 0x644 then (true, setCsr s h 0x344 (mixBits 4 v (csr s h 0x344)))
  else if n = 0x645 then (true, setCsr s h 0x344 (mixBits 0x444 v (csr s h 0x344)))
  else if n = 0x151 ∨ n = 0x251 ∨ n = 0x351 then
    ((fileReg s h (fileOf s h n) (csr s h (n - 1))).isSome, setFileReg s h (fileOf s h n) (csr s h (n - 1)) v)
  else if n = 0x15C ∨ n = 0x25C ∨ n = 0x35C then (true, fileClaim s h (fileOf s h n))
  else if n = 0x7B1 then (true, modHart s h (fun x => { x with pc := v / 2 * 2 }))
  else if n = 0x301 then (true, s)
  else (true, setCsr s h n v)

/-! ## Exceptions and interrupts -/

/-- The privilege of a mode: 3 for M, 1 for HS and VS, 0 for U and VU. -/
def modePriv : HartMode → Nat
  | .m => 3 | .hs | .vs => 1 | .u | .vu => 0

/-- The mode is virtual. -/
def modeVirt : HartMode → Bool
  | .vs | .vu => true
  | _ => false

/-- A trap of hart `h` into the mode `dst`, M, HS or VS: saved PC, cause and value, the stacked enable and mode, and the handler's
address. `intr` marks an interrupt, whose handler is vectored where the base register says so. -/
def trapInto (s : State) (h : Nat) (dst : HartMode) (intr : Bool) (cause tval : Nat) : State :=
  let x := hart s h
  let from' := x.mode
  let v := (modeVirt from').toNat
  let gva := if intr then 0 else v
  let code := cause + if intr then 2 ^ 63 else 0
  let go := fun (s : State) (tvec : Nat) =>
    let t := csr s h tvec
    modHart s h (fun x => { x with mode := dst, pc := t / 4 * 4 + if intr ∧ t % 4 = 1 then 4 * cause else 0 })
  let stack := fun (w ie pie lo hi p : Nat) => setBits (setBits (setBits w pie pie (bits w ie ie)) ie ie 0) hi lo p
  if dst = .m then
    let w := setBits (setBits (stack (csr s h 0x300) 3 7 11 12 (modePriv from')) 39 39 v) 38 38 gva
    go (setCsr (setCsr (setCsr (setCsr (setCsr s h 0x300 w) h 0x341 x.pc) h 0x342 code) h 0x343 tval) h 0x34B 0) 0x305
  else if dst = .vs then
    let w := stack (csr s h 0x200) 1 5 8 8 (modePriv from')
    go (setCsr (setCsr (setCsr (setCsr s h 0x200 w) h 0x241 x.pc) h 0x242 code) h 0x243 tval) 0x205
  else
    let w := stack (csr s h 0x300) 1 5 8 8 (modePriv from')
    let hs := setBits (setBits (csr s h 0x600) 7 7 v) 6 6 gva
    let hs := if v = 1 then setBits hs 8 8 (modePriv from') else hs
    go (setCsr (setCsr (setCsr (setCsr (setCsr (setCsr s h 0x300 w) h 0x600 hs) h 0x141 x.pc) h 0x142 code) h 0x143 tval) h 0x643 0) 0x105

/-- An exception of hart `h` in `mode` goes to M, or to the level that medeleg and hedeleg give. -/
def hartTrap (s : State) (h : Nat) (mode : HartMode) (cause tval : Nat) : State :=
  let s := modHart s h (fun x => { x with mode := mode })
  let dst : HartMode := if mode = .m ∨ !bit (csr s h 0x302) cause then .m
    else if modeVirt mode ∧ bit (csr s h 0x602) cause then .vs else .hs
  trapInto s h dst false cause tval

/-- The interrupt of the highest priority among the bits of a word. -/
def irqTop (w : Nat) : Option Nat := [11, 3, 7, 9, 1, 5, 12, 10, 2, 6].find? (bit w)

/-- Hart `h` takes a pending interrupt that is enabled for its mode: at M, at HS, or at VS under the guest's numbers. -/
def hartIrq (s : State) (h : Nat) : State :=
  let x := hart s h
  let w := mip s h &&& csr s h 0x304
  let md := csr s h 0x303
  let hd := csr s h 0x603
  let atM := w &&& (md ^^^ (2 ^ 64 - 1))
  let atS := w &&& md &&& (hd ^^^ (2 ^ 64 - 1))
  let atV := w &&& md &&& hd
  match irqTop atM, irqTop atS, irqTop atV with
  | some c, _, _ =>
    if x.mode ≠ .m ∨ bit (csr s h 0x300) 3 then trapInto s h .m true c 0 else s
  | none, some c, _ =>
    if x.mode = .u ∨ modeVirt x.mode ∨ (x.mode = .hs ∧ bit (csr s h 0x300) 1) then trapInto s h .hs true c 0 else s
  | none, none, some c =>
    if x.mode = .vu ∨ (x.mode = .vs ∧ bit (csr s h 0x200) 1) then trapInto s h .vs true (c - 1) 0 else s
  | none, none, none => s

/-- Harts whose interrupt enables a write has set, and which the debug module does not hold, take what is pending. -/
def hartIrqs (s : State) : State :=
  forEach (((s.clu.harts.filter (fun e => e.2.csr.any (fun c => c.1 == 0x304))).map (·.1)).filter (fun h => !s.clu.halted.contains h))
    (fun h s => hartIrq s h) s

end Sys2Proof.Machine
end

