-- ==== Sys2Proof/Machine/ApcCh.lean ====
section
/-!
DEFINITION. Channel ends of the application cluster's endpoint (R391): rings and messages in HBM.
-/

namespace Sys2Proof.Machine

/-- Entry `i`. -/
def apcEnd (s : State) (i : Nat) : ChEnd := tabGet ChEnd.reset s.apc i
/-- Sets it. -/
def setApc (s : State) (i : Nat) (e : ChEnd) : State := { s with apc := tabSet ChEnd.reset s.apc i e }
/-- A field of entry `i`. -/
def rdA (s : State) (f : Fld) (i : Nat) : Nat := rdI s bApc f i

/-- The VALID entry of a partition for a channel and direction. -/
def apcFind (s : State) (part chan dir : Nat) : Option Nat :=
  (List.range 1024).find? (fun i => rdA s F.APC_CHDATA0_VALID i = 1 && rdA s F.APC_CHDATA0_CHAN i = chan
    && rdA s F.APC_CHDATA0_DIR i = dir && rdA s F.APC_CHPART_PART i = part)

/-- Ring slots. -/
def apcSize (s : State) (i : Nat) : Nat := 2 ^ rdA s F.APC_CHDATA1_RSIZE i
/-- HBM address of the ring descriptor. -/
def apcBase (s : State) (i : Nat) : Nat :=
  rdA s F.APC_CHRBASE_LO_ADDR i * 64 + rdA s F.APC_CHRBASE_HI_ADDR i * 2 ^ 32

/-- Writes words into the ring area of an end, under its partition's tag. -/
def apcPut (s : State) (i a : Nat) (ws : List Nat) : State :=
  l2Drop (hbmWriteRun s bApc (rdA s F.APC_CHPART_PART i) a (leWords 8 ws)).2.2 a (8 * ws.length)

/-- The status word is rewritten. -/
def apcStatus (s : State) (i : Nat) : State := apcPut s i (apcBase s i) [ringStatus (apcEnd s i)]

/-- Package and endpoint of the peer. -/
def apcPeer (s : State) (i : Nat) : List Nat := [rdA s F.APC_CHDATA0_PKG i, rdA s F.APC_CHDATA0_PEER i]

/-- The endpoint of the application cluster (R341). -/
abbrev apcEp : Nat := 0x470

/-- HOPS, HEND and XSEL of the path of an end. -/
def apcPath (s : State) (i : Nat) : Nat × Nat × Nat :=
  ((List.range 6).foldl (fun n k => n + rdA s (fAt F.APC_CHDATA2_HOPS0 k) i * 2 ^ (32 * k)) 0, rdA s F.APC_CHDATA1_NHOPS i,
    rdA s F.APC_CHDATA1_XSEL i)

/-- Sends a packet of an end on its path, under its partition's tag. -/
def apcOut (s : State) (i cls : Nat) (k : MsgKind) (payload : List Nat) : State :=
  edgeSend s bApc apcEp (rdA s F.APC_CHPART_PART i) 1 cls 0 (rdA s F.APC_CHDATA0_PKG i) k
    (entryPos apcEp (rdA s F.APC_CHDATA0_PEER i)) (apcPath s i) payload

/-- Sends a message of an end. -/
def apcMessage (s : State) (i : Nat) (ws : List W64) : State := apcOut s i 0 .message (wordFlits (ws.map (·.toNat)) 0)

/-- The current CREDIT of a receive end. -/
def apcCredit (s : State) (i : Nat) (nack : Bool) : State :=
  let e := apcEnd s i
  apcOut s i 1 .credit [creditWord (rdA s F.APC_CHDATA0_CHAN i) e.ack e.rfreed (rdA s F.APC_CHDATA1_GEN i) e.closed nack false]

/-- A MESSAGE packet at the endpoint (R383, R388). -/
def apcMsg (s : State) (spkg sep part : Nat) (ws : List W64) : State :=
  let h := ((ws.head?).getD 0).toNat
  let n := msgSlots ws.length
  match apcFind s part (hdrChan h) 1 with
  | none => edgeSend s bApc apcEp part 1 1 0 spkg .credit (entryPos apcEp sep) (genPath s apcEp spkg sep)
      [creditWord (hdrChan h) (hdrSeq h + 1) 0 (hdrGen h) true false false]
  | some i =>
    if apcPeer s i ≠ [spkg, sep] ∨ rdA s F.APC_CHDATA1_GEN i ≠ hdrGen h then s
    else
      let e := apcEnd s i
      if e.closed then
        apcCredit (apcStatus (setApc s i { e with
          ack := (hdrSeq h + 1) % 65536, rfreed := (e.rfreed + n) % 65536, orph := e.orph + 1 }) i) i false
      else match arrival (apcSize s i) e (hdrSeq h) n with
        | .take =>
          let p := ringPlace (apcSize s i) { e with ack := (e.ack + 1) % 65536, msgs := e.msgs + 1 } (hdrChan h) (hdrSeq h)
            (hdrGen h) 0 ws
          let s := forEach p.2 (fun x s => apcPut s i (apcBase s i + 64 + 64 * x.1) (x.2.map (·.toNat))) s
          let s := apcCredit (apcStatus (setApc s i p.1) i) i false
          if rdA s F.APC_CHPART_IRQEN i = 1 then send s .apc bApc [1] else s
        | .overflow =>
          let s := setApc s i { e with ack := (e.ack + 1) % 65536, rfreed := (e.rfreed + n) % 65536, ovf := true }
          latchFault (apcCredit (apcStatus s i) i false) bApc 0x0117
        | .gap => apcCredit s i true
        | .dup => apcCredit s i false

/-- Resends every retained message of a send end. -/
def apcResend (s : State) (i : Nat) : State :=
  forEach (apcEnd s i).kept (fun k s =>
    let ws := match k.words with
      | h :: t => (BitVec.ofNat 64 (setBits h.toNat 45 45 1) : W64) :: t
      | [] => []
    apcMessage s i ws) s

/-- A CREDIT packet at the endpoint (R384, R389). -/
def apcCreditIn (s : State) (part chan ack freed gen : Nat) (closed nack probe : Bool) : State :=
  if probe then
    match apcFind s part chan 1 with
    | some i => if rdA s F.APC_CHDATA1_GEN i = gen then apcCredit s i false else s
    | none => s
  else match apcFind s part chan 0 with
    | none => s
    | some i =>
      let e := apcEnd s i
      if rdA s F.APC_CHDATA1_GEN i ≠ gen ∨ e.closed then s
      else if closed then setApc s i { e with closed := true, kept := [], blocked := [] }
      else
        let s := setApc s i (sendCredit e ack freed)
        if nack then apcResend s i else s

/-- PROBE of a send end blocked on credits. -/
def apcProbe (s : State) (i : Nat) : State :=
  let e := apcEnd s i
  if !e.blocked.isEmpty && !e.closed then
    apcOut s i 1 .credit [creditWord (rdA s F.APC_CHDATA0_CHAN i) 0 0 (rdA s F.APC_CHDATA1_GEN i) false false true]
  else s

/-- The selected end. -/
def apcSel (s : State) : Nat := rd s bApc F.APC_CHSEL_INDEX
/-- The per-end check that stands in place of R55's. -/
def apcMay (s : State) (tag i : Nat) : Bool := tag = 0x1F || tag = 0x1E || rdA s F.APC_CHPART_PART i = tag

/-- APC_CHSTAT of the selected end. -/
def apcStat (s : State) (i v : Nat) : State := wrI s bApc F.APC_CHSTAT_STATUS i v

/-- APC_CHSEND_HI written: the message at ADDR goes out on the selected end, or the status says why not (R380, R391). -/
def apcSend (s : State) (hi : Nat) : State :=
  let i := apcSel s
  let s := wr s bApc F.APC_CHSEND_HI_ADDR hi
  let a := rd s bApc F.APC_CHSEND_LO_ADDR * 8 + hi % 65536 * 2 ^ 32
  let part := rdA s F.APC_CHPART_PART i
  let e := apcEnd s i
  if rdA s F.APC_CHDATA0_VALID i = 0 ∨ rdA s F.APC_CHDATA0_DIR i = 1 then apcStat s i 1
  else
    let x := hbmReadRun s bApc part a 8
    if x.1 ≠ hOk then apcStat x.2.2.2 i 6
    else
      let w := msgWords (bits (leNat (l2Over s a x.2.2.1)) 15 8)
      let n := msgSlots w
      if apcSize s i < n then apcStat s i 1
      else if e.closed then apcStat s i 2
      else match sendRoom (apcSize s i) e n with
        | none => apcStat (setApc s i { e with blocked := [true] }) i 3
        | some total =>
          let y := hbmReadRun x.2.2.2 bApc part a (8 * w)
          if y.1 ≠ hOk then apcStat y.2.2.2 i 6
          else
            let m := l2Over s a y.2.2.1
            let ws := (List.range w).map (fun k => (BitVec.ofNat 64 (leNat ((m.drop (8 * k)).take 8)) : W64))
            let e' := sendTake (apcSize s i) e (rdA s F.APC_CHDATA0_CHAN i) (rdA s F.APC_CHDATA1_GEN i) ws total
            let out := (e'.kept.getLast?.map (·.words)).getD []
            apcStat (apcMessage (setApc y.2.2.2 i e') i out) i 0

/-- APC_CHDONE written: the head message of the selected end is released (R386). -/
def apcDone (s : State) : State :=
  let i := apcSel s
  if rdA s F.APC_CHDATA0_VALID i = 0 ∨ rdA s F.APC_CHDATA0_DIR i = 0 ∨ (apcEnd s i).ring.isEmpty then apcStat s i 1
  else apcStat (apcCredit (apcStatus (setApc s i (ringRelease (apcSize s i) (apcEnd s i))) i) i false) i 0

/-- Some end with IRQEN holds a message that has arrived and is not released: the APC line is asserted (R391, log entry 118). -/
def apcArrived (s : State) : Bool :=
  s.apc.any (fun e => rdA s F.APC_CHPART_IRQEN e.1 == 1 && !e.2.ring.isEmpty)

/-- APC_CHPOLL: the address of the head message, or 0. -/
def apcPoll (s : State) (i : Nat) : Nat :=
  match (apcEnd s i).ring with
  | [] => 0
  | x :: _ => apcBase s i + 64 + 64 * x.slot

/-- An end that a commit has made VALID or rewritten starts afresh (R375), with its descriptor's other words 0 (R377, log entry 130). -/
def apcFresh (s : State) (i : Nat) : State :=
  let s := setApc s i ChEnd.reset
  if rdA s F.APC_CHDATA0_VALID i = 1 ∧ rdA s F.APC_CHDATA0_DIR i = 1 then
    apcPut s i (apcBase s i) (ringStatus (apcEnd s i) :: List.replicate 7 0)
  else s

end Sys2Proof.Machine
end

