-- ==== Sys2Proof/Machine/Banks.lean ====
section
/-!
DEFINITION. Scratch banks (chapter 09): the pool of SHARED banks, handover, the background test, the move to the spare.
-/

namespace Sys2Proof.Machine

/-! ## Handover (R315, R316) -/

/-- A new value of LOOM_BANKOWN takes effect: the banks whose code changes drain, with the work accepted on them; the pool's
mapping follows, and the instruction buffer is invalidated. `battenOn` and `shuttlesOn` give the work in progress on a bank. -/
def ownApply (s : State) (l : Nat) (old new : Word) (battenOn : Nat → Bool) (shuttlesOn : Nat → List Nat) : State :=
  let ks := (List.range 8).filter (fun k => ownerIn old k != ownerIn new k)
  if ks.isEmpty then s
  else modLoom s l (fun m => { m with
    drains := m.drains.filter (fun e => !ks.contains e.1) ++ ks.map (fun k => (k, ⟨battenOn k, shuttlesOn k⟩))
    scratch := poolRemap (sharedBanks old) (sharedBanks new) m.scratch
    seq := { m.seq with ibuf := [] } })

/-- BANK_DRAIN_DONE: the last access accepted under the old code has ended. -/
def drainDone (s : State) (l k : Nat) : State :=
  let m := loom s l
  match m.drains.find? (fun e => e.1 = k) with
  | none => s
  | some e =>
    if e.2.batten || !e.2.shuttles.isEmpty then s
    else inc (setLoom s l { m with drains := m.drains.filter (fun d => d.1 != k) }) (bLoom l) F.LOOM_BHANDOVER_COUNT

/-! ## The move to the spare (R326, R327) -/

/-- BANK_MOVE_DONE: the copy has ended. -/
def moveDone (s : State) (l k : Nat) : State :=
  let b := bLoom l
  let m := loom s l
  if !m.moving.contains k then s
  else if m.xErr2.any (inBank k) then latchFault (setLoom s l { m with moving := [] }) b 0x0114
  else
    let fixed := (m.xErr1.filter (inBank k)).length
    let s := setLoom s l { m with
      moving := m.moving.filter (fun j => j != k)
      xErr1 := m.xErr1.filter (fun w => !inBank k w)
      bankCe := tabSet 0 m.bankCe k 0 }
    let s := incBy s b F.LOOM_BSCE_COUNT fixed
    let s := wr (wr s b F.LOOM_BANKSTAT_SPAREUSED 1) b F.LOOM_BANKSTAT_SPAREBANK k
    latchFault (wr s b F.STATE_DEGRADED 1) b 0x0113

/-! ## The background test (R323 to R325) -/

/-- A physical bank that the test visits: in service, or the unused spare that has not failed. -/
def testVisits (s : State) (l p : Nat) : Bool :=
  (servedBank s l p).isSome || (p = 8 && !rdB s (bLoom l) F.LOOM_BANKSTAT_SPAREBAD
    && !rdB s (bLoom l) F.LOOM_BANKSTAT_SPAREUSED)

/-- The first row of the next bank that is visited, or of a new pass. -/
def testNextBank (s : State) (l : Nat) : State :=
  let b := bLoom l
  let bank := rd s b F.LOOM_BTESTPOS_BANK
  let s := wr s b F.LOOM_BTESTPOS_ROW 0
  match ((List.range 9).filter (fun p => bank < p && testVisits s l p)).head? with
  | some p => wr s b F.LOOM_BTESTPOS_BANK p
  | none =>
    let s := wr s b F.LOOM_BTESTPOS_BANK (((List.range 9).find? (testVisits s l)).getD 0)
    modLoom (inc s b F.LOOM_BTESTPOS_PASSES) l (fun m => { m with passNew := true })

/-- The position after (bank, row): the next row, the next bank that is visited, or a new pass. -/
def testAdvance (s : State) (l : Nat) : State :=
  let row := rd s (bLoom l) F.LOOM_BTESTPOS_ROW
  if row < 255 then wr s (bLoom l) F.LOOM_BTESTPOS_ROW (row + 1) else testNextBank s l

/-- The position that the next region starts at: one in a bank that is not visited, or no longer, gives way to the next one. -/
def testSeek (s : State) (l : Nat) : State := if testVisits s l (rd s (bLoom l) F.LOOM_BTESTPOS_BANK) then s else testNextBank s l

/-- BTEST_REGION_START: the region's 32 words are saved, corrected as they are read; one that cannot be corrected is an uncorrectable
scratch error. They are the words at their places in the bank (R318). -/
def testStart (s : State) (l : Nat) : State :=
  let b := bLoom l
  if !rdB s b F.LOOM_BTESTCTL_EN || (loom s l).testing || !rdB s b F.STATE_READY then s
  else
    let s := modLoom (testSeek s l) l (fun m => { m with
      testing := true, passNew := false, bankCe := if m.passNew then [] else m.bankCe })
    match servedBank s l (rd s b F.LOOM_BTESTPOS_BANK) with
    | some k =>
      let ps := (List.range 32).map (fun i => k * 8192 + rd s b F.LOOM_BTESTPOS_ROW * 32 + i)
      scratchMend (if (loom s l).xErr2.any (fun w => ps.contains w) then latchFault s b 0x0112 else s) l ps
    | none => s

/-- A region fails: the bank in service moves to the spare; the unused spare is bad (R325). -/
def testFailed (s : State) (l p : Nat) : State :=
  let s := inc s (bLoom l) F.LOOM_BTESTFAIL_COUNT
  match servedBank s l p with
  | some k => moveStart s l k
  | none => if p = 8 then wr s (bLoom l) F.LOOM_BANKSTAT_SPAREBAD 1 else s

/-- BTEST_REGION_DONE: the saved words are restored, and the accesses that were held go on. -/
def testDone (s : State) (l : Nat) (pass : Bool) : State :=
  if !(loom s l).testing then s
  else
    let p := rd s (bLoom l) F.LOOM_BTESTPOS_BANK
    let s := modLoom s l (fun m => { m with testing := false })
    testAdvance (if pass then s else testFailed s l p) l

end Sys2Proof.Machine
end

