-- ==== Sys2Proof/Machine/LoomTime.lean ====
section
/-!
DEFINITION. Loom time (R158 to R165).
-/

namespace Sys2Proof.Machine

/-- The limit of RATE: 250 ppm in units of 2⁻⁴⁰. -/
abbrev rateLim : Int := 274877906

/-- One nanosecond of the timebase passes: LT advances at 1 + RATE × 2⁻⁴⁰. -/
def ltTick (s : State) : State :=
  let r := rdS s bLtime F.LTIME_RATE_RATE
  let x : Int := (s.ltime.frac : Int) + 2 ^ 40 + r
  modLt s (fun t => { t with lt := t.lt + (x / 2 ^ 40).toNat, frac := (x % 2 ^ 40).toNat })

/-- LTIME_SRC codes (R159). -/
abbrev srcCrystal : Nat := 0
abbrev srcSoftware : Nat := 1
abbrev srcSyncIn : Nat := 2
abbrev srcGlimmer : Nat := 3

/-- The source in force: a GLIMMER reference to the own package counts as CRYSTAL (R163), and so does any source once the
crystal is lost, since LT is no longer disciplined (R679). -/
def ltSource (s : State) : Nat :=
  let x := rd s bLtime F.LTIME_SRC_SRC
  if s.pw.rc ∨ (x = srcGlimmer ∧ rd s bLtime F.LTIME_REFPKG_PKG = selfPkg s) then srcCrystal else x

/-- LTIME_SRC was written: measurements start afresh; status bits are those of the new source. RATE stays as it was last written or chosen
(R159 does not say: DESIGN CHOICE, log entry 97). -/
def srcWritten (s : State) : State :=
  let s := modLt s (fun t => { t with good := 0, lastMeas := t.lt })
  let s := wr (wr s bLtime F.LTIME_STAT_LOCKED 0) bLtime F.LTIME_STAT_HOLDOVER s.pw.rc.toNat
  wr s bLtime F.LTIME_STAT_SRCLOST (if rd s bLtime F.LTIME_SRC_SRC = srcGlimmer ∧ ltSource s = srcCrystal then 1 else 0)

/-- A valid measurement: it ends HOLDOVER (R164). -/
def ltMeasured (s : State) : State :=
  wr (modLt s (fun t => { t with lastMeas := t.lt })) bLtime F.LTIME_STAT_HOLDOVER 0

/-- A hardware loop slews: the rate it chooses is not stated, but for the range of R160: a free value. -/
def ltSlew (s : State) : State :=
  let f := drawFree s
  wr f.2 bLtime F.LTIME_RATE_RATE (toBits 32 ((f.1 % (2 * 274877906 + 1) : Nat) - rateLim))

/-- LTIME_ERR saturates at 32 bits. -/
def ltErr (s : State) (e : Int) : State := wr s bLtime F.LTIME_ERR_NS (toBits 32 (clampI (-(2 ^ 31)) (2 ^ 31 - 1) e))

/-- LTIME_STEP_HI written (R161): the signed step of both halves. A step below 0 leaves 0 (log entry 31), and
one past 2⁶⁴ leaves a count above 64 bits (DESIGN CHOICE, log entry 98). The age of the last measurement stays. -/
def stepHi (s : State) (hi : Nat) : State :=
  let st := beatState s
  if st = stIdle ∨ st = stStopped then
    let d := sext 64 (rd s bLtime F.LTIME_STEP_LO_STEP + hi * 2 ^ 32)
    modLt s (fun t => { t with lt := ((t.lt : Int) + d).toNat, lastMeas := ((t.lastMeas : Int) + d).toNat })
  else inc s bLtime F.LTIME_STEPREFUSE_COUNT

/-- LTIME_RATE written by software (R160); under any other source the register is read-only. -/
def rateWrite (s : State) (v : Nat) : State :=
  if rd s bLtime F.LTIME_SRC_SRC ≠ srcSoftware then s
  else
    let r := sext 32 v
    let c := clampI (-rateLim) rateLim r
    let s := ltMeasured (wr s bLtime F.LTIME_RATE_RATE (toBits 32 c))
    if c = r then s else inc s bLtime F.LTIME_RATECLAMP_COUNT

/-- A rising edge of SYNC_IN (R162). -/
def syncIn (s : State) : State :=
  if ltSource s ≠ srcSyncIn then s
  else
    let lt := ltNow s
    let s := wrPair s bLtime F.LTIME_CAP_LO_LT F.LTIME_CAP_HI_LT lt
    let x : Int := ((lt : Int) - rd s bLtime F.LTIME_PPSOFF_NS) % 1000000000
    let e : Int := if 500000000 ≤ x then x - 1000000000 else x
    let s := ltSlew (ltMeasured (ltErr s e))
    let good := if e.natAbs ≤ 50 then s.ltime.good + 1 else 0
    let s := modLt s (fun t => { t with good := good })
    if 200 < e.natAbs then wr s bLtime F.LTIME_STAT_LOCKED 0
    else if 4 ≤ good then wr s bLtime F.LTIME_STAT_LOCKED 1 else s

/-- A measurement of a glimmer link, in sixteenths of a nanosecond (R163, R516). -/
def glimMeasured (s : State) (off : Int) : State :=
  if ltSource s ≠ srcGlimmer then s
  else
    let s := ltSlew (ltMeasured (ltErr s (off / 16)))
    let good := if off.natAbs ≤ 80 then s.ltime.good + 1 else 0
    let s := modLt s (fun t => { t with good := good })
    if 16 ≤ good then wr s bLtime F.LTIME_STAT_LOCKED 1 else s

/-- 1.5 s without a measurement (R164). -/
def ltTimeout (s : State) : State :=
  if ltSource s = srcCrystal ∨ ltNow s < s.ltime.lastMeas + 1500000000 then s
  else
    let s := wr (wr s bLtime F.LTIME_STAT_SRCLOST 1) bLtime F.LTIME_STAT_LOCKED 0
    let s := modLt s (fun t => { t with good := 0 })
    if rdB s bLtime F.LTIME_STAT_HOLDOVER then s
    else inc (wr s bLtime F.LTIME_STAT_HOLDOVER 1) bLtime F.LTIME_SRCLOST_COUNT

end Sys2Proof.Machine
end

