-- ==== Sys2Proof/Machine/Batten.lean ====
section
/-!
DEFINITION. The batten array (chapter 06): block-exponent tensors, dense operations, requantisation, beat-frame folds,
threshold emit and MXINT8 import.
-/

namespace Sys2Proof.Machine

/-! ## Dense operations (R221) -/

/-- A dense operation; addresses in bytes of scratch. -/
structure Dop where
  valid : Bool
  kind : Nat
  trigger : Bool
  frame : Nat
  asrc : Bool
  skipEmpty : Bool
  zskip : Bool
  biasen : Bool
  period : Nat
  phase : Nat
  M : Nat
  N : Nat
  K : Nat
  ga : Nat
  a4 : Bool
  w4 : Bool
  wscale : Bool
  relu : Bool
  lut : Bool
  out : Nat
  y4 : Bool
  gy : Nat
  fixed : Bool
  emit : Bool
  accexp : Int
  oexp : Int
  eshift : Nat
  thidx : Nat
  abase : Nat
  ascbase : Nat
  wbase : Nat
  wscbase : Nat
  ybase : Nat
  yscbase : Nat
  bbase : Nat
  outidx : Nat
  deriving DecidableEq, Repr

/-- A group-size code; 3 is reserved and gives 0. -/
def groupSize (c : Nat) : Nat := if c = 0 then 32 else if c = 1 then 64 else if c = 2 then 128 else 0

/-- Operation `i` as a field reader `g` gives it: the live or the staged table. -/
def dopOf (g : Fld → Nat) : Dop where
  valid := g F.LOOM_DOPDATA0_VALID = 1
  kind := g F.LOOM_DOPDATA0_KIND
  trigger := g F.LOOM_DOPDATA0_TRIGGER = 1
  frame := g F.LOOM_DOPDATA0_FRAME
  asrc := g F.LOOM_DOPDATA0_ASRC = 1
  skipEmpty := g F.LOOM_DOPDATA0_SKIPEMPTY = 1
  zskip := g F.LOOM_DOPDATA0_ZSKIP = 1
  biasen := g F.LOOM_DOPDATA0_BIASEN = 1
  period := (if g F.LOOM_DOPDATA0_PERIOD = 0 then 256 else g F.LOOM_DOPDATA0_PERIOD)
  phase := g F.LOOM_DOPDATA0_PHASE
  M := g F.LOOM_DOPDATA1_MM1 + 1
  N := g F.LOOM_DOPDATA1_NM1 + 1
  K := g F.LOOM_DOPDATA2_K
  ga := groupSize (g F.LOOM_DOPDATA2_GA)
  a4 := g F.LOOM_DOPDATA2_FMTA = 1
  w4 := g F.LOOM_DOPDATA2_FMTW = 1
  wscale := g F.LOOM_DOPDATA2_WSCALE = 1
  relu := g F.LOOM_DOPDATA2_RELU = 1
  lut := g F.LOOM_DOPDATA2_LUT = 1
  out := g F.LOOM_DOPDATA2_OUT
  y4 := g F.LOOM_DOPDATA2_FMTY = 1
  gy := (if g F.LOOM_DOPDATA2_GY = 0 then 32 else 64)
  fixed := g F.LOOM_DOPDATA2_OSHIFTMODE = 1
  emit := g F.LOOM_DOPDATA2_EMIT = 1
  accexp := sext 9 (g F.LOOM_DOPDATA3_ACCEXP)
  oexp := sext 8 (g F.LOOM_DOPDATA3_OEXP)
  eshift := g F.LOOM_DOPDATA3_ESHIFT
  thidx := g F.LOOM_DOPDATA3_THIDX
  abase := g F.LOOM_DOPDATA4_ABASE * 8
  ascbase := g F.LOOM_DOPDATA4_ASCBASE * 8
  wbase := g F.LOOM_DOPDATA5_WBASE * 8
  wscbase := g F.LOOM_DOPDATA5_WSCBASE * 8
  ybase := g F.LOOM_DOPDATA6_YBASE * 8
  yscbase := g F.LOOM_DOPDATA6_YSCBASE * 8
  bbase := g F.LOOM_DOPDATA7_BBASE * 8
  outidx := g F.LOOM_DOPDATA7_OUTIDX

/-- The live operation `i` of loom `l`. -/
def dop (s : State) (l i : Nat) : Dop := dopOf (fun f => rdI s (bLoom l) f i)

/-- A beat frame (R226); addresses in bytes. -/
structure Frame where
  base : Nat
  outbase : Nat
  outsc : Nat
  rows : Nat
  g : Nat
  f4 : Bool
  valid : Bool
  klen : Nat
  fexp : Int
  deriving DecidableEq, Repr

/-- A frame as a field reader gives it. -/
def frameOf (g : Fld → Nat) : Frame where
  base := g F.LOOM_FRDATA0_BASE * 8
  outbase := g F.LOOM_FRDATA0_OUTBASE * 8
  outsc := g F.LOOM_FRDATA1_OUTSCBASE * 8
  rows := g F.LOOM_FRDATA1_ROWSM1 + 1
  g := groupSize (g F.LOOM_FRDATA1_G)
  f4 := g F.LOOM_FRDATA1_FMT = 1
  valid := g F.LOOM_FRDATA1_VALID = 1
  klen := g F.LOOM_FRDATA2_KLEN
  fexp := sext 9 (g F.LOOM_FRDATA2_FEXP)

/-- The live frame `f` of loom `l`. -/
def frame (s : State) (l f : Nat) : Frame := frameOf (fun x => rdI s (bLoom l) x f)

/-! ## Tile forms (R210) -/

/-- Ceiling of a quotient. -/
def cdiv (a b : Nat) : Nat := (a + b - 1) / b

/-- Signed byte of scratch. -/
def sbyte (t : Tab Byte) (a : Nat) : Int := (tabGet 0 t a).toInt

/-- A signed element: the byte at `a`, or its nibble of index parity `k`. -/
def elem (t : Tab Byte) (four : Bool) (a k : Nat) : Int :=
  if four then sext 4 ((tabGet 0 t a).toNat / 16 ^ (k % 2)) else sbyte t a

/-- Address of an A-form element. -/
def aAddr (four : Bool) (base K m k : Nat) : Nat :=
  if four then base + m / 16 * (8 * K) + 16 * (k / 2) + m % 16 else base + m / 16 * (16 * K) + 16 * k + m % 16

/-- Address of an A-form shift. -/
def aScAddr (base K G m g : Nat) : Nat := base + m / 16 * (16 * (K / G)) + 16 * g + m % 16

/-- Address of a W-form element. -/
def wAddr (four : Bool) (base K n k : Nat) : Nat :=
  if four then base + n / 64 * (32 * K) + 64 * (k / 2) + n % 64 else base + n / 64 * (64 * K) + 64 * k + n % 64

/-- Address of a W-form shift, or of a ROWSCALE shift of row `k`. -/
def wScAddr (rowscale : Bool) (base K G n g k : Nat) : Nat :=
  if rowscale then base + n / 64 * K + k else base + n / 64 * (64 * (K / G)) + 64 * g + n % 64

/-- Bytes of an A-form tensor of R rows: padding rows occupy their addresses. -/
def aBytes (four : Bool) (R K : Nat) : Nat := cdiv R 16 * (if four then 8 * K else 16 * K)
/-- Bytes of its shifts. -/
def aScBytes (R K G : Nat) : Nat := if G = 0 then 0 else cdiv R 16 * (16 * (K / G))
/-- Bytes of a W-form tensor. -/
def wBytes (four : Bool) (C K : Nat) : Nat := cdiv C 64 * (if four then 32 * K else 64 * K)
/-- Bytes of its shifts. -/
def wScBytes (rowscale : Bool) (C K G : Nat) : Nat :=
  if rowscale then cdiv C 64 * K else if G = 0 then 0 else cdiv C 64 * (64 * (K / G))

/-- The ranges an operation reads by its own fields: offset and bytes. -/
def dopReads (d : Dop) : List (Nat × Nat) :=
  if d.kind = 1 then [(d.abase, d.M * d.K), (d.ascbase, d.M * d.K / 32)]
  else
    (if d.asrc then [] else [(d.abase, aBytes d.a4 d.M d.K), (d.ascbase, aScBytes d.M d.K d.ga)]) ++
    [(d.wbase, wBytes d.w4 d.N d.K), (d.wscbase, wScBytes d.wscale d.N d.K d.ga)] ++
    (if d.biasen then [(d.bbase, 4 * d.N)] else [])

/-- The ranges an operation of `M` rows writes. -/
def dopWrites (d : Dop) (M : Nat) : List (Nat × Nat) :=
  if d.kind = 1 then
    (if d.wscale then [(d.ybase, wBytes false M d.K), (d.yscbase, wScBytes false M d.K 32)]
     else [(d.ybase, aBytes false M d.K), (d.yscbase, aScBytes M d.K 32)])
  else if d.out = 2 then [(d.ybase, cdiv M 16 * d.N * 128)]
  else if d.out = 1 then [(d.ybase, aBytes d.y4 M d.N), (d.yscbase, aScBytes M d.N d.gy)] else []

/-- The ranges an operation uses (R222, R225). -/
def dopRanges (d : Dop) : List (Nat × Nat) := dopReads d ++ dopWrites d d.M

/-! ## Alignment and requantisation (R216, R217, R219) -/

/-- Aligns `p` of shift `e` to exponent `x`. -/
def align (p e x : Int) : Int :=
  let d := e - x
  if 0 ≤ d then p * 2 ^ d.toNat else rshiftRne p (-d).toNat

/-- Adds an aligned value to a 48-bit accumulator: the sum, and the clamps so far. -/
def acc48 (a : Int × Nat) (p : Int) : Int × Nat :=
  let v := a.1 + p
  let c := clampI (-(2 ^ 47)) (2 ^ 47 - 1) v
  (c, if c = v then a.2 else a.2 + 1)

/-- Bits of a magnitude. -/
def bitlen (x : Nat) : Nat := if x = 0 then 0 else x.log2 + 1

/-- Shift by `r` of either sign. -/
def shiftBy (r v : Int) : Int := if 0 ≤ r then rshiftRne v r.toNat else v * 2 ^ (-r).toNat

/-- The requant procedure: elements, shift, clamped elements. -/
def requant (fixed : Option Int) (x : Int) (b : Nat) (v : List Int) : List Int × Int × Nat :=
  let hi : Int := 2 ^ (b - 1) - 1
  let lo : Int := -(2 ^ (b - 1))
  let mag := v.foldl (fun m y => max m (if 0 ≤ y then y else -y - 1).toNat) 0
  let r0 : Int := match fixed with
    | some oexp => oexp - x
    | none =>
      let r : Int := max 0 ((bitlen mag : Int) - ((b : Int) - 1))
      let r := max r (-128 - x)
      if 127 < x + r then 127 - x else r
  let bad := fun (q : Int) => decide (hi < q) || decide (q < lo)
  let q0 := v.map (shiftBy r0)
  let bump := fixed.isNone && q0.any bad && decide (x + r0 + 1 ≤ 127)
  let r := if bump then r0 + 1 else r0
  let q := if bump then v.map (shiftBy r) else q0
  (q.map (clampI lo hi), x + r, (q.filter bad).length)

/-- Writes an element of a tensor: a byte, or one nibble of a byte. -/
def putElem (t : Tab Byte) (four : Bool) (a k : Nat) (q : Int) : Tab Byte :=
  if four then memPut t a 1 (setBits (tabGet 0 t a).toNat (if k % 2 = 0 then 3 else 7) (if k % 2 = 0 then 0 else 4) (toBits 4 q))
  else memPut t a 1 (toBits 8 q)

/-- Writes the requantised groups of row `m` of an A-form tensor of `K` columns in groups of `G`: the values of the row,
the scratch after, and the elements clamped. `lut` maps a written element. -/
def requantRow (fixed : Option Int) (x : Int) (four : Bool) (ybase yscbase K G m : Nat) (lut : Tab Byte → Int → Int)
    (vals : List Int) (p : Tab Byte × Nat) : Tab Byte × Nat :=
  (List.range (K / G)).foldl (fun p g =>
    let r := requant fixed x (if four then 4 else 8) ((vals.drop (g * G)).take G)
    let t := (r.1.zip (List.range G)).foldl (fun t qi =>
      putElem t four (aAddr four ybase K m (g * G + qi.2)) (g * G + qi.2) (lut t qi.1)) p.1
    (memPut t (aScAddr yscbase K G m g) 1 (toBits 8 r.2.1), p.2 + r.2.2)) p

/-! ## A matrix product (R212 to R220) -/

/-- Where the A operand lies: scratch, or the folded frame. -/
def dopA (s : State) (l : Nat) (d : Dop) : Nat × Nat :=
  if d.asrc then ((frame s l d.frame).outbase, (frame s l d.frame).outsc) else (d.abase, d.ascbase)

/-- Whether group `g` is zero in all 16 rows of the tile row `mt` (R214). -/
def groupZero (t : Tab Byte) (d : Dop) (abase mt g : Nat) : Bool :=
  (List.range 16).all (fun i => (List.range d.ga).all (fun j =>
    elem t d.a4 (aAddr d.a4 abase d.K (16 * mt + i) (g * d.ga + j)) (g * d.ga + j) == 0))

/-- The accumulator of output (m, n) after the last group, and its clamps. -/
def dopAcc (t : Tab Byte) (d : Dop) (abase ascbase m n : Nat) : Int × Nat :=
  let start : Int := if d.biasen then sext 32 (memNat t (d.bbase + 4 * n) 4) else 0
  (List.range (d.K / d.ga)).foldl (fun a g =>
    if d.zskip && groupZero t d abase (m / 16) g then a
    else
      let ea := sbyte t (aScAddr ascbase d.K d.ga m g)
      let prod := fun k => elem t d.a4 (aAddr d.a4 abase d.K m k) k * elem t d.w4 (wAddr d.w4 d.wbase d.K n k) k
      let ks := (List.range d.ga).map (· + g * d.ga)
      if d.wscale then ks.foldl (fun a k =>
        acc48 a (align (prod k) (ea + sbyte t (wScAddr true d.wscbase d.K d.ga n g k)) d.accexp)) a
      else acc48 a (align (ks.foldl (fun p k => p + prod k) 0)
        (ea + sbyte t (wScAddr false d.wscbase d.K d.ga n g 0)) d.accexp)) (start, 0)

/-- The element that the look-up table gives (R220). -/
def lutMap (base : Nat) (on : Bool) (t : Tab Byte) (q : Int) : Int := if on then sbyte t (base + toBits 8 q) else q

/-- Threshold emit of element `i` (R230, R231); `th` is THETA, GMAX, value mode, VSHIFT. -/
def emitElem (l : Nat) (th : Nat × Nat × Bool × Nat) (eshift i : Nat) (acc : Int) (s : State) : State :=
  let b := bLoom l
  let v := clampI (-0x800000) 0x7FFFFF (rshiftRne acc eshift)
  if v < (th.1 : Int) then s
  else
    let q := (v / (th.1 : Int)).toNat
    let u := (1 + (v - th.1).fdiv (2 ^ th.2.2.2)).toNat
    let payload := if th.2.2.1 then min 255 u else min th.2.1 q
    let s := if (if th.2.2.1 then decide (255 < u) else decide (th.2.1 < q)) then inc s b F.LOOM_TESAT_COUNT else s
    match (loom s l).lat.segs.find? (fun g => g.skind = 2 && g.base ≤ i && i < g.base + g.len) with
    | none => inc s b F.LOOM_NOSEG_COUNT
    | some g =>
      emitPick (if 32768 ≤ (loom s l).ret.count then s else inc s b F.LOOM_TEEMIT_COUNT) l i payload true th.2.2.1 g.idx

/-- The words of some ranges have been written whole. -/
def runsMend (l : Nat) (rs : List (Nat × Nat)) (s : State) : State := forEach rs (fun r s => modLoom s l (scrMend s l r.1 r.2)) s

/-- Runs a matrix product. Clamps of cells beyond row M or column N of a tile are not counted (DESIGN CHOICE, log entry 131). -/
def runMatmul (s : State) (l : Nat) (d : Dop) : State :=
  let b := bLoom l
  let t := (loom s l).scratch
  let ab := dopA s l d
  let vals := (List.range d.M).map (fun m => (List.range d.N).map (fun n => dopAcc t d ab.1 ab.2 m n))
  let relu := fun (x : Int) => if d.relu && decide (x < 0) then 0 else x
  let rows := vals.map (fun r => r.map (fun a => relu a.1))
  let sat := (vals.flatten.map (·.2)).sum
  let tiles := cdiv d.M 16 * cdiv d.N 64
  let skipped := if d.zskip then ((List.range (cdiv d.M 16)).map (fun mt =>
      ((List.range (d.K / d.ga)).filter (groupZero t d ab.1 mt)).length)).sum * cdiv d.N 64 else 0
  let s := incBy (incBy (incBy s b F.LOOM_ALIGNSAT_COUNT sat) b F.LOOM_BTILES_COUNT tiles) b F.LOOM_ZSKIP_COUNT skipped
  let lutBase := rd s b F.LOOM_BLUTBASE_BASE * 256
  let out : Tab Byte × Nat :=
    if d.out = 2 then
      ((rows.zip (List.range d.M)).foldl (fun t rm => (rm.1.zip (List.range d.N)).foldl (fun t vn =>
        memPut t (d.ybase + (rm.2 / 16 * d.N + vn.2) * 128 + 8 * (rm.2 % 16)) 8 (toBits 64 vn.1)) t) t, 0)
    else if d.out = 1 then
      (rows.zip (List.range d.M)).foldl (fun p rm =>
        requantRow (if d.fixed then some d.oexp else none) d.accexp d.y4 d.ybase d.yscbase d.N d.gy rm.2
          (lutMap lutBase d.lut) rm.1 p) (t, 0)
    else (t, 0)
  let s := incBy (modLoom s l (fun m => { m with scratch := out.1 })) b F.LOOM_REQSAT_COUNT out.2
  let s := runsMend l (dopWrites d (d.M / 16 * 16)) s
  if d.emit then
    let th := ((loom s l).thCopy[d.thidx]?).getD (0, 0, false, 0)
    forEach (rows.flatten.zip (List.range (d.M * d.N))) (fun vi s => emitElem l th d.eshift (d.outidx + vi.2) vi.1 s) s
  else s

/-! ## MXINT8 import (R234) -/

/-- Group `g` of row `m`. -/
def mxGroup (l : Nat) (d : Dop) (m g : Nat) (s : State) : State :=
  let b := bLoom l
  let t := (loom s l).scratch
  let x := memNat t (d.ascbase + m * d.K / 32 + g) 1
  let src := (List.range 32).map (fun j => sbyte t (d.abase + m * d.K + 32 * g + j))
  let dst := fun k => if d.wscale then wAddr false d.ybase d.K m k else aAddr false d.ybase d.K m k
  let sc := if d.wscale then wScAddr false d.yscbase d.K 32 m g 0 else aScAddr d.yscbase d.K 32 m g
  let q := if x = 0xFF then src.map (fun _ => (0 : Int))
    else if x ≤ 4 then src.map (fun v => rshiftRne v (5 - x)) else src
  let e : Int := if x = 0xFF ∨ x ≤ 4 then -128 else (x : Int) - 133
  let t := (q.zip (List.range 32)).foldl (fun t vj => memPut t (dst (32 * g + vj.2)) 1 (toBits 8 vj.1)) t
  let s := modLoom s l (fun m => { m with scratch := memPut t sc 1 (toBits 8 e) })
  if x = 0xFF then inc s b F.LOOM_MXNAN_COUNT
  else if x ≤ 4 ∧ q ≠ src then inc s b F.LOOM_MXLOSS_COUNT else s

/-- Runs an import, group after group in row order: where the destination overlaps the source, a later group reads what an earlier one has
written (DESIGN CHOICE, log entry 131). -/
def runMx (s : State) (l : Nat) (d : Dop) : State :=
  let full := if d.wscale then d.M / 64 * 64 else d.M / 16 * 16
  runsMend l (dopWrites d full) (forEach (List.range d.M) (fun m s => forEach (List.range (d.K / 32)) (fun g s => mxGroup l d m g s) s) s)

/-! ## Beat frames at SETTLE (R223, R226 to R228) -/

/-- Clears a frame's element area. -/
def frameClear (s : State) (l f : Nat) : State :=
  let x := frame s l f
  scrClear s l x.base (x.base + 8 * x.rows * x.klen)

/-- The ranges of a frame: its element area, and what its fold writes. -/
def frameRanges (x : Frame) : List (Nat × Nat) :=
  [(x.base, 8 * x.rows * x.klen), (x.outbase, aBytes x.f4 x.rows x.klen), (x.outsc, aScBytes x.rows x.klen x.g)]

/-- Folds a frame; a word that cannot be corrected latches SCRATCH_UE and gives a free value (R328). -/
def frameFold (s : State) (l f : Nat) : State :=
  let x := frame s l f
  let s := scrUnknown (scratchCheck s l x.base (8 * x.rows * x.klen)).2 l x.base (8 * x.rows * x.klen)
  let t := (loom s l).scratch
  let p := (List.range x.rows).foldl (fun p r =>
    requantRow none x.fexp x.f4 x.outbase x.outsc x.klen x.g r (fun _ q => q)
      ((List.range x.klen).map (fun k => sext 64 (memNat t (x.base + 8 * (r * x.klen + k)) 8))) p) (t, 0)
  let s := incBy (modLoom s l (fun m => { m with scratch := p.1 })) (bLoom l) F.LOOM_REQSAT_COUNT p.2
  let s := if x.rows = 16 then runsMend l ((frameRanges x).drop 1) s else s
  frameClear s l f

/-- The operations due in beat `n`, ascending. -/
def dueOps (s : State) (l n : Nat) : List Nat :=
  (List.range 32).filter (fun i => let d := dop s l i
    d.valid && !d.trigger && n % d.period = d.phase)

/-- Whether an operation is skipped as empty; an import has no frame (R234). -/
def skipsEmpty (s : State) (l : Nat) (d : Dop) : Bool :=
  d.kind = 0 && d.asrc && d.skipEmpty && rdI s (bLoom l) F.LOOM_FRDATA3_LASTHITS d.frame = 0

/-- Steps 1 and 2 of R223: folds the frames that due operations use, clears the others. An empty frame that one due operation skips and
another names without SKIPEMPTY is folded (R223 over R228; DESIGN CHOICE, log entry 131). -/
def foldStage (s : State) (l : Nat) (due : List Nat) : State :=
  let b := bLoom l
  let m := loom s l
  let s := forEach (List.range 16) (fun f s => wrI s b F.LOOM_FRDATA3_LASTHITS f (tabGet 0 m.frHits f)) s
  let named := fun f => due.any (fun i => let d := dop s l i
    d.kind = 0 && d.asrc && d.frame = f && !skipsEmpty s l d)
  let skipped := fun f => due.any (fun i => let d := dop s l i
    d.asrc && d.frame = f && skipsEmpty s l d)
  let valid := fun f => (frame s l f).valid
  let s := forEach ((List.range 16).filter (fun f => valid f && named f)) (fun f s => frameFold s l f) s
  let s := forEach ((List.range 16).filter (fun f => valid f && !named f)) (fun f s =>
    let s := frameClear s l f
    if 0 < tabGet 0 m.frHits f && !skipped f then inc s b F.LOOM_FRAMEDROP_COUNT else s) s
  modLoom s l (fun m => { m with frHits := [] })

/-! ## Starting and ending operations (R223 to R225) -/

/-- LOOM_BSTAT follows the array. -/
def bstatShow (s : State) (l : Nat) : State :=
  let b := bLoom l
  let m := loom s l
  let s := wr s b F.LOOM_BSTAT_BUSY m.bOp.isSome.toNat
  let s := match m.bOp with | some o => wr s b F.LOOM_BSTAT_OP o.1 | none => s
  wr s b F.LOOM_BSTAT_QUEUED m.bQueue.length

/-- The ranges that operation `d` reads where it runs: those of the operation, of the folded frame, of its look-up table (R220). -/
def runReads (s : State) (l : Nat) (d : Dop) : List (Nat × Nat) :=
  let p := dopA s l d
  dopReads d
    ++ (if d.kind ≠ 1 ∧ d.asrc then [(p.1, aBytes d.a4 d.M d.K), (p.2, aScBytes d.M d.K d.ga)] else [])
    ++ (if d.kind ≠ 1 ∧ d.lut then [(rd s (bLoom l) F.LOOM_BLUTBASE_BASE * 256, 256)] else [])

/-- The ranges that it uses (R225). -/
def runRanges (s : State) (l : Nat) (d : Dop) : List (Nat × Nat) := runReads s l d ++ dopWrites d d.M

/-- Some of the ranges are held (R316, R324, R326). -/
def rangesHeld (s : State) (l : Nat) (rs : List (Nat × Nat)) : Bool := holdsAny (loom s l) && rs.any (fun r => scrHeld s l r.1 r.2)

/-- Every bank that a range touches is open to the batten: its own, or SHARED (R313). -/
def battenMay (s : State) (l a n : Nat) : Bool := (banksOf a n).all (fun k => owner s l k = ownBatten || owner s l k = ownShared)

/-- How the start of an operation ends: it runs, it is not run, or its accesses are held. -/
inductive OpStart where
  | runs | skipped | held
  deriving DecidableEq, Repr

/-- Starts operation `i`, unless it is skipped as empty, a range lies in a bank that is neither the batten's nor SHARED (DOPOWNER, R313,
R314), or a bank holds its accesses. -/
def startOp (s : State) (l i : Nat) (settle : Bool) : OpStart × State :=
  let b := bLoom l
  let d := dop s l i
  if settle && skipsEmpty s l d then (.skipped, inc s b F.LOOM_FRAMESKIP_COUNT)
  else if !(runRanges s l d).all (fun r => battenMay s l r.1 r.2) then
    (.skipped, latchFault (inc s b F.LOOM_BOWNREFUSE_COUNT) b 0x010D)
  else if rangesHeld s l (runRanges s l d) then (.held, s)
  else (.runs, modLoom s l (fun m => { m with bOp := some (i, settle) }))

/-- Starts the first operation of a list that runs; what is left of the list comes back, with an operation whose accesses are held
still in it. -/
def startFirst (l : Nat) (settle : Bool) : List Nat → State → List Nat × State
  | [], s => ([], s)
  | i :: rest, s =>
    let r := startOp s l i settle
    match r.1 with
    | .held => (i :: rest, r.2)
    | .runs => (rest, r.2)
    | .skipped => startFirst l settle rest r.2

/-- An area of a frame is held. -/
def foldHeld (s : State) (l : Nat) : Bool :=
  holdsAny (loom s l) && (List.range 16).any (fun f => (frame s l f).valid && rangesHeld s l (frameRanges (frame s l f)))

/-- The array is free: the fold that waits, then the due operations in order, then the queued starts. -/
def battenNext (s : State) (l : Nat) : State :=
  let m := loom s l
  if m.bFold && foldHeld s l then s
  else
  let s := if m.bFold then foldStage (setLoom s l { m with bFold := false }) l m.bDue else s
  let s := if (loom s l).bSettle then
      let r := startFirst l true (loom s l).bDue s
      modLoom r.2 l (fun m => { m with bDue := r.1, bSettle := m.bOp.isSome || !r.1.isEmpty })
    else s
  let s := if (loom s l).bOp.isNone && !(loom s l).bSettle then
      let r := startFirst l false (loom s l).bQueue s
      modLoom r.2 l (fun m => { m with bQueue := r.1 })
    else s
  bstatShow s l

/-- Accesses of the batten that were held go on (R316, R326). -/
def battenGo (s : State) (l : Nat) : State := if (loom s l).bOp.isNone then battenNext s l else s

/-- SETTLE reaches the batten: the threshold table is copied, and the fold and due operations run, after an operation that
is still running. -/
def battenSettle (s : State) (l n : Nat) : State :=
  let b := bLoom l
  let th := (List.range 64).map (fun i => (rdI s b F.LOOM_THDATA0_THETA i, rdI s b F.LOOM_THDATA0_GMAX i,
    decide (rdI s b F.LOOM_THDATA0_EMODE i = 1), rdI s b F.LOOM_THDATA1_VSHIFT i))
  let due := dueOps s l n
  let s := modLoom s l (fun m => { m with thCopy := th, bDue := due, bFold := true, bSettle := true })
  if (loom s l).bOp.isNone then battenNext s l else bstatShow s l

/-- The operand reads of an operation: a word that cannot be corrected is an uncorrectable scratch error (R328), and stops it (R238). -/
def operandsRead (l : Nat) : List (Nat × Nat) → State → Bool × State
  | [], s => (true, s)
  | r :: rest, s =>
    let c := scratchCheck s l r.1 r.2
    if c.1 then operandsRead l rest c.2 else (false, latchFault c.2 (bLoom l) 0x010C)

/-- The running operation writes its last output: its whole effect, and the next start. Its table entry is read here, so that a commit while
it runs changes it (DESIGN CHOICE, log entry 131). One that stops at an operand, or at an uncorrectable error in an accumulator file (`ue`),
writes nothing and is not counted as run (R238, log entry 113). It waits while one of its banks is moved or has one of its words under
test. -/
def battenDone (s : State) (l : Nat) (ue : Bool) : State :=
  match (loom s l).bOp with
  | none => s
  | some (i, _) =>
    let d := dop s l i
    if (runRanges s l d).any (fun r => scrBusy s l r.1 r.2) then send s .hold (bLoom l) [] else
    let c := operandsRead l (runReads s l d) s
    let c := if c.1 && ue then (false, latchFault c.2 (bLoom l) 0x010C) else c
    let s := if c.1 then inc (if d.kind = 1 then runMx c.2 l d else runMatmul c.2 l d) (bLoom l) F.LOOM_DOPRUNS_COUNT else c.2
    let s := modLoom s l (fun m => { m with
      bOp := none
      drains := m.drains.map (fun e => (e.1, { e.2 with batten := false })) })
    battenNext (progress s (bLoom l)) l

/-- A start by LOOM_BRUN or BRUN (R224): whether it was taken. -/
def brunStart (s : State) (l i : Nat) : Bool × State :=
  let b := bLoom l
  let d := dop s l i
  let m := loom s l
  let refuse := (false, wr s b F.LOOM_BSTAT_REFUSED 1)
  if !d.valid || !d.trigger then refuse
  else if m.bOp.isNone && !m.bSettle && m.bQueue.isEmpty then
    (true, battenNext (setLoom s l { m with bQueue := [i] }) l)
  else if m.bQueue.length < 4 then (true, bstatShow (setLoom s l { m with bQueue := m.bQueue ++ [i] }) l)
  else refuse

end Sys2Proof.Machine
end

