-- ==== Sys2Proof/Machine/Routes.lean ====
section
/-!
DEFINITION. Route records and the route cache: the checks of a record, fills, the directory (chapter 04).
-/

namespace Sys2Proof.Machine

/-! ## The checks of R135 -/

/-- Hop code `i` of a record. -/
def recHop (w i : Nat) : Nat := bits w (3 * i + 2) (3 * i)
/-- Walks the codes from `i` on, with the positions of the open branches; false where pairs do not match or nest deeper than 8,
a branch does not end in LOCAL, or a move breaks R133. Moves are checked from position `p` on; the codes of a REMOTE record are
walked in another package, from an ingress position that this loom does not know, so none of its moves is (log entry 46). -/
def recWalk (w : Nat) : Nat → Nat → Option (Nat × Nat) → List (Option (Nat × Nat)) → Bool
  | 0, _, _, st => st.isEmpty
  | fuel + 1, i, p, st =>
    let c := recHop w i
    if c = 5 then st.length < 8 && recWalk w fuel (i + 1) p (p :: st)
    else if c = 6 then (match st with
      | [] => false
      | q :: rest => i != 0 && recHop w (i - 1) == 4 && recWalk w fuel (i + 1) q rest)
    else if c = 4 then recWalk w fuel (i + 1) p st
    else match p with
      | none => recWalk w fuel (i + 1) none st
      | some p => match moveTo p.1 p.2 c with
        | .pos r k => recWalk w fuel (i + 1) (some (r, k)) st
        | _ => false

/-- A record that R135 accepts for a source at a logical position, but for the length of its chain. -/
def recordOk (w rcount : Nat) (start : Nat × Nat) : Bool :=
  let n := recNhops w
  n != 0 && n ≤ 64 && recHop w (n - 1) == 4
    && ((List.range n).filter (fun i => recHop w i = 4)).length == bits w 231 224
    && (recNext w == 0xFFF || recNext w < rcount)
    && recWalk w n 0 (if recRemote w then none else some start) []

/-- A REMOTE record of another package has a valid entry of the package route table (R519). -/
def recRouted (s : State) (w : Nat) : Bool :=
  !recRemote w || recPkg w == selfPkg s || (pkgRoute s (recPkg w)).isSome

/-- The records of a chain as far as `rs` holds them, at most `fuel`, and the index of the first one that is missing. -/
def chainWalk (rs : List RouteRec) (pop : Nat) : Nat → Nat → List RouteRec × Option Nat
  | 0, _ => ([], none)
  | fuel + 1, idx => match rs.find? (fun r => r.pop = pop && r.idx = idx) with
    | none => ([], some idx)
    | some r =>
      if recNext r.word = 0xFFF then ([r], none)
      else
        let c := chainWalk rs pop fuel (recNext r.word)
        (r :: c.1, c.2)

/-! ## The directory (R123, R124) -/

/-- The hub and the index of a population's entry. -/
def dirHub (pop : Nat) : Nat := bHub (pop % 16)

/-- A field of a population's entry. -/
def dirF (s : State) (pop : Nat) (f : Fld) : Nat := rdI s (dirHub pop) f (pop / 16)

/-- The route-set address in words 1 and 2 of an entry. -/
def rsetOf (w1 w2 : Nat) : Nat := (w1 + bits w2 10 0 * 2 ^ 32) * 32
/-- RCOUNT in word 2. -/
def rcountOf (w2 : Nat) : Nat := bits w2 22 11

/-- A DIRREQ at the hub (R352): answered with the entry, or as not VALID where the entry is another partition's. -/
def dirRequest (s : State) (h l pop : Nat) : State :=
  let part := rd s (bLoom l) F.OWNER_PART
  let e := dirF s pop F.HUB_DIRDATA0_PART
  let ok := pop % 16 = h && dirF s pop F.HUB_DIRDATA0_VALID == 1 && (e == part || e == 0x1F)
  let w := fun (f : Fld) => (regGet s (dirHub pop) f.off (pop / 16)).toNat
  send (inc s (bHub h) F.HUB_DIRREQ_COUNT) .dirRsp (bLoom l) (edgeFields s (0x410 + h) part l 1 3 2
    [pop, ok.toNat, w F.HUB_DIRDATA1_RSETLO, w F.HUB_DIRDATA2_RSETHI])

/-! ## The route cache (R127, R136) -/

/-- Records the cache holds. -/
abbrev routeCap : Nat := 64

/-- The most records of a chain (R135). -/
abbrev chainMax : Nat := 32

/-- Asks the hub for a population's entry. -/
def dirAsk (s : State) (l pop : Nat) : State :=
  niSend s l (selfPkg s) .dirReq (niFields s l 1 2 (0x410 + pop % 16) 1 [l, pop])

/-- Fetches a record that is not under way yet: a miss, which reads the directory. -/
def routeFetch (s : State) (l pop idx : Nat) : State :=
  let m := loom s l
  if m.dirWait.any (fun w => w.pop = pop && w.idx = idx) then s
  else dirAsk (inc (setLoom s l { m with dirWait := m.dirWait ++ [⟨pop, idx, none, 0⟩] }) (bLoom l) F.LOOM_RTMISS_COUNT) l pop

/-- ROUTEBAD: none of the picks of the segments in `is` are injected in this beat. -/
def routeBad (s : State) (l : Nat) (is : List Nat) : State :=
  latchFault (modLoom s l (fun m => { m with badSegs := m.badSegs ++ is.filter (fun i => !m.badSegs.contains i) })) (bLoom l) 0x0106

/-- Every record at hand. -/
def routesHeld (m : Loom) : List RouteRec := m.openRoutes ++ m.routes

/-- Gathers the records of one latched segment's chain: one that is missing is fetched, and a chain of more than 32 is malformed. -/
def segGather (l : Nat) (g : Seg) (s : State) : State :=
  let m := loom s l
  if m.badSegs.contains g.idx then s
  else
    let c := chainWalk (routesHeld m) g.pop (chainMax + 1) g.route
    let fresh := c.1.filter (fun r => !m.openRoutes.contains r)
    let s := setLoom s l { m with openRoutes := m.openRoutes ++ fresh }
    if chainMax < c.1.length then routeBad s l [g.idx]
    else match c.2 with
      | some i => routeFetch s l g.pop i
      | none => s

/-- Gathers the records of the latched segments. -/
def routeFetchAll (s : State) (l : Nat) : State := forEach (loom s l).lat.segs (segGather l) s

/-- The latched segments whose chain leads to a record that is not there. -/
def segsAt (m : Loom) (pop idx : Nat) : List Nat :=
  (m.lat.segs.filter (fun g => g.pop = pop && (chainWalk (routesHeld m) pop (chainMax + 1) g.route).2 = some idx)).map (·.idx)

/-- The fetch of a record has ended. -/
def routeEnd (m : Loom) (pop idx : Nat) : Loom := { m with dirWait := m.dirWait.filter (fun w => !(w.pop = pop && w.idx = idx)) }

/-- The fetch of a record has failed. -/
def routeLost (s : State) (l pop idx : Nat) : State :=
  routeBad (modLoom s l (fun m => routeEnd m pop idx)) l (segsAt (loom s l) pop idx)

/-- A directory response answers the oldest miss that waits for it: the record is read from HBM, or the fill is handled as ROUTEBAD (R136,
R352). -/
def dirAnswer (l pop : Nat) (valid : Bool) (w1 w2 : Nat) (s : State) : State :=
  match (loom s l).dirWait.find? (fun w => w.pop = pop && w.addr.isNone) with
  | none => s
  | some w =>
    if !valid || rcountOf w2 ≤ w.idx then routeLost s l pop w.idx
    else
      let a := rsetOf w1 w2 + 32 * w.idx
      let s := modLoom s l (fun m => { m with dirWait := m.dirWait.map (fun x =>
        if x.pop = pop && x.idx = w.idx then { x with addr := some a, rcount := rcountOf w2 } else x) })
      hbmAsk s (bLoom l) false a 2 []

/-- A directory request unanswered for 20 µs is repeated (R350). -/
def dirRetry (s : State) (l pop : Nat) : State :=
  if (loom s l).dirWait.any (fun w => w.pop = pop && w.addr.isNone) then dirAsk s l pop else s

/-- Caches a record; a full cache gives up its oldest record (log entry 25). -/
def routePut (m : Loom) (r : RouteRec) : Loom :=
  let rs := m.routes ++ [r]
  { m with routes := rs.drop (rs.length - routeCap) }

/-- A route record arrives and is checked (R135). -/
def routeFill (s : State) (l pop idx : Nat) (ok : Bool) (rc : List Byte) : State :=
  match (loom s l).dirWait.find? (fun w => w.pop = pop && w.idx = idx && w.addr.isSome) with
  | none => s
  | some w =>
    let word := leNat (padTo 32 rc)
    if !ok || !recordOk word w.rcount (l / 32, l % 32) then routeLost s l pop idx
    else if !recRouted s word then routeLost (inc s (bLoom l) F.LOOM_NIBADPKT_COUNT) l pop idx
    else routeFetchAll (modLoom s l (fun m => routePut (routeEnd m pop idx) ⟨pop, idx, word⟩)) l

/-- A directory invalidation (R127): the records gathered or retained for an epoch are kept beside the cache (R184). -/
def routeInvalidate (s : State) (l pop : Nat) : State :=
  modLoom s l (fun m => { m with
    routes := m.routes.filter (fun r => r.pop != pop)
    dirWait := m.dirWait.filter (fun w => w.pop != pop) })

end Sys2Proof.Machine
end

