-- ==== Sys2Proof/Machine/Tensioner.lean ====
section
/-!
DEFINITION. The tensioner in SETTLE (chapter 07): modulators, the pair rule, normalisation, the sweep; and the weight
snapshot's capture and record.
-/

namespace Sys2Proof.Machine

/-! ## Writes of the tensioner (R262) -/

/-- A byte of the plastic region written, with its region in the change map. -/
def tenByte (m : Loom) (a v : Nat) : Loom :=
  { m with sstore := memPut m.sstore a 1 v, tmap := tabSet false m.tmap (a / 256) true }

/-- LASTPRE of the row at `a` written. -/
def tenLastpre (m : Loom) (a n : Nat) : Loom :=
  let m := tenByte m (a + 6) (n % 256)
  tenByte m (a + 7) (n / 256 % 256)

/-- A slot written: every write of the tensioner sets DIRTY. One that cannot be read is left as it is (R80). -/
def tenSlot (m : Loom) (j x : Nat) : Loom :=
  if slotBroken m j then m else { m with nstore := memPut m.nstore (16 * j) 16 (setBits x 115 115 1) }

/-! ## Modulators (R255) -/

/-- The modulator values of a SETTLE. -/
def modulators (s : State) (l : Nat) : State :=
  let b := bLoom l
  let s := forEach (List.range 16) (fun c s =>
    let m := loom s l
    let cfg := (m.lat.tens.mods[c]?).getD (256, 0)
    let v := cfg.1 + rshiftRne (tabGet 0 m.modAcc c) cfg.2
    let w := clampI (-1024) 1024 v
    let s := if w = v then s else inc s b F.LOOM_TMODSAT_COUNT
    wrI s b F.LOOM_TMVAL_VAL c (toBits 12 w)) s
  modLoom s l (fun m => { m with modAcc := [] })

/-! ## The pair rule (R253) -/

/-- An entry of a kernel. -/
def kernel (m : Loom) (i : Nat) : Int := (m.lat.tens.kern[i]?).getD 0

/-- One entry of a row with a pre-event of factor `fac` in beat `n`; `aP` is the age of LASTPRE. -/
def pairEntry (l n row aP fac : Nat) (e : SynEntry) (s : State) : State :=
  let b := bLoom l
  let p := if e.typ ≠ 0 then (none, s) else plasticRead s l e.target
  let s := p.2
  let m := loom s l
  match p.1, ruleOf m e.target with
    | none, _ => s
    | some _, none => s
    | some slot, some r =>
      let aQ := (n + 65536 - bits slot 63 48 % 65536) % 65536
      if 16384 ≤ aQ ∨ aP < aQ then s
      else
        let da := aP - aQ
        let ia := if aP < 16384 ∧ da ≤ 31 then 32 + da else 0
        let ib := if aQ ≤ 31 then 32 - aQ else 0
        let mv : Int := if r.moden then sext 12 (rdI s b F.LOOM_TMVAL_VAL r.modch) else 256
        let w := sext 8 (memNat m.sstore (row + e.woff) 1)
        let dw := rshiftRne ((fac : Int) * (kernel m ia + kernel m ib) * mv) (8 + r.lrate)
        let w1 := clampI r.wmin r.wmax (w + dw)
        let s := if w1 = w + dw then s else inc s b F.LOOM_TWSAT_COUNT
        let sum : Int := (bits slot 79 64 : Nat) + max w1 0 - max w 0
        let s := if sum < 0 ∨ 65535 < sum then inc s b F.LOOM_TSUMSAT_COUNT else s
        let s := modLoom s l (fun m => tenByte (tenSlot m e.target (setBits slot 79 64 (clampI 0 65535 sum).toNat))
          (row + e.woff) (toBits 8 w1))
        inc s b F.LOOM_TUPD_COUNT

/-- The row at `a` with stage byte `fac` (R253, R261); one that cannot be read is left as it is (R148, log entry 93). -/
def preRow (l n : Nat) (a fac : Nat) (s : State) : State :=
  let c := sstoreCheck s l a 8
  let h := rowHdr (sstoreNat c.2 l a 8)
  let c := if c.1 then sstoreCheck c.2 l a (rowSize h) else c
  let s := inc c.2 (bLoom l) F.LOOM_TPRE_COUNT
  if !c.1 then s
  else
    let s := if (loom s l).lat.tens.learn then
        forEach (rowEntries h (sstoreNat s l a (rowLen h))) (pairEntry l n a ((n + 65536 - h.lastpre) % 65536) fac) s
      else s
    modLoom s l (fun m => tenLastpre m a n)

/-- The pre-events of a SETTLE, in ascending header address; the stage map is read and cleared (R251). -/
def preEvents (s : State) (l n : Nat) : State :=
  let t := (loom s l).lat.tens
  let len := t.size / 8
  let s := if scrBroken s l t.stage len then s else (scratchCheck s l t.stage len).2
  let ks := ((loom s l).scratch.filter (fun p => t.stage ≤ p.1 && p.1 < t.stage + len)).map (·.1)
  let r := ks.foldl (fun (p : List (Nat × Nat) × State) k =>
    let x := scrLoad p.2 l k 1
    (p.1 ++ [(k, x.1)], x.2)) ([], s)
  forEach r.1 (fun p s => preRow l n (t.base + 8 * (p.1 - t.stage)) p.2 s) (scrClear r.2 l t.stage (t.stage + len))

/-! ## Normalisation (R257) -/

/-- NORMF of a SUMW. -/
def normf (targetw sumw : Nat) : Nat := if sumw = 0 then 0x8000 else min 65535 ((targetw * 2 ^ 15 + sumw / 2) / sumw)

/-- Recomputes NORMF of slot `j` where its rule has a target. -/
def renorm (m : Loom) (j : Nat) : Loom :=
  if m.lat.nslots ≤ j ∨ !bit (slotNat m j) 112 then m
  else match ruleOf m j with
    | none => m
    | some r =>
      let x := slotNat m j
      if r.targetw = 0 then m else tenSlot m j (setBits x 95 80 (normf r.targetw (bits x 79 64)))

/-- Recomputes NORMF of the slots whose SUMW differs from that in `old`. -/
def renormChanged (old m : Loom) : Loom :=
  ((List.range m.lat.nslots).filter (fun j => bits (slotNat old j) 79 64 != bits (slotNat m j) 79 64)).foldl renorm m

/-! ## The sweep (R248, R258, R259) -/

/-- A stamp aged in beat `n`: none where it is live. -/
def aged (n stamp : Nat) : Option Nat :=
  if 16384 ≤ (n + 65536 - stamp % 65536) % 65536 then some ((n + 65536 - 16384) % 65536) else none

/-- One entry of a walked row: the fold, and the weight it adds to its slot's sum. -/
def sweepEntry (l row : Nat) (e : SynEntry) (p : Tab Nat × State) : Tab Nat × State :=
  let q := if e.typ ≠ 0 then (none, p.2) else plasticRead p.2 l e.target
  let s := q.2
  let m := loom s l
  match q.1, ruleOf m e.target with
    | none, _ => (p.1, s)
    | some _, none => (p.1, s)
    | some slot, some r =>
      let w := sext 8 (memNat m.sstore (row + e.woff) 1)
      let v := rshiftRne (w * (bits slot 95 80 : Nat)) 15
      let w1 := clampI r.wmin r.wmax v
      let fold := m.lat.tens.learn && decide (0 < r.targetw)
      let s := if fold && w1 != v then inc s (bLoom l) F.LOOM_TWSAT_COUNT else s
      let s := if fold then modLoom s l (fun m => tenByte m (row + e.woff) (toBits 8 w1)) else s
      let w := if fold then w1 else w
      (tabSet 0 p.1 e.target (tabGet 0 p.1 e.target + (max w 0).toNat), s)

/-- One row of the walk. -/
def sweepRow (l n a : Nat) (h : RowHdr) (p : Tab Nat × State) : Tab Nat × State :=
  if !h.plastic then p
  else
    let row := memNat (loom p.2 l).sstore a (rowLen h)
    let s := match aged n h.lastpre with
      | some x => inc (modLoom p.2 l (fun m => tenLastpre m a x)) (bLoom l) F.LOOM_TAGED_COUNT
      | none => p.2
    (rowEntries h row).foldl (fun p e => sweepEntry l a e p) (p.1, s)

/-- How the walk of the region ends: at its end, at a row that would run past it, or at one that cannot be read. -/
inductive WalkEnd where
  | done | past | broken
  deriving DecidableEq, Repr

/-- The walk of the region from `a`. -/
def sweepWalk (l n stop : Nat) : Nat → Nat → Tab Nat × State → WalkEnd × Tab Nat × State
  | 0, _, p => (.done, p)
  | fuel + 1, a, p =>
    if stop ≤ a then (.done, p)
    else
      let c := sstoreCheck p.2 l a 8
      let h := rowHdr (sstoreNat c.2 l a 8)
      if !c.1 then (.broken, p.1, c.2)
      else if stop < a + rowSize h then (.past, p.1, c.2)
      else
        let c := sstoreCheck c.2 l a (rowSize h)
        if c.1 then sweepWalk l n stop fuel (a + rowSize h) (sweepRow l n a h (p.1, c.2)) else (.broken, p.1, c.2)

/-- Steps 2 and 3 for slot `j`; NORMF is recomputed where SUMW has changed (R257). -/
def sweepSlot (l n : Nat) (sums : Tab Nat) (j : Nat) (s : State) : State :=
  let b := bLoom l
  let p := plasticRead s l j
  let s := p.2
  match p.1 with
  | none => s
  | some x =>
    let sum := tabGet 0 sums j
    let ruled := (ruleOf (loom s l) j).isSome
    let s := if ruled && decide (65535 < sum) then inc s b F.LOOM_TSUMSAT_COUNT else s
    let x1 := if ruled then setBits x 79 64 (min 65535 sum) else x
    let s := if (aged n (bits x 63 48)).isSome then inc s b F.LOOM_TAGED_COUNT else s
    let x2 := match aged n (bits x 63 48) with | some t => setBits x1 63 48 t | none => x1
    if !ruled && (aged n (bits x 63 48)).isNone then s
    else modLoom s l (fun m => if bits x2 79 64 = bits x 79 64 then tenSlot m j x2 else renorm (tenSlot m j x2) j)

/-- The sweep. Where a row cannot be read it ends there (log entry 93). -/
def sweep (s : State) (l n : Nat) : State :=
  let b := bLoom l
  let t := (loom s l).lat.tens
  let w := sweepWalk l n (t.base + t.size) (t.size / 8) t.base ([], s)
  let slots := forEach (List.range (loom s l).lat.nslots) (sweepSlot l n w.2.1) w.2.2
  match w.1 with
  | .done => inc slots b F.LOOM_TSWEEPS_COUNT
  | .past => latchFault slots b 0x010F
  | .broken => w.2.2

/-- The tensioner's SETTLE of beat `n` (R260). -/
def tensionerSettle (s : State) (l n : Nat) : State :=
  let s := modulators s l
  let old := loom s l
  let s := preEvents s l n
  let s := modLoom s l (renormChanged old)
  let t := (loom s l).lat.tens
  if n % t.period = t.phase then sweep s l n else s

/-! ## Weight snapshots (R266, R267) -/

/-- Captures the state at the boundary before beat `n` where a snapshot is due. -/
def snapCapture (s : State) (l n : Nat) : State :=
  let b := bLoom l
  if rdB s b F.LOOM_TSNAPCTL_GO && !rdB s b F.LOOM_TSNAPCTL_BUSY then
    let m := loom s l
    let ns := rd s b F.LOOM_NSLOTS_NSLOTS
    let base := rd s b F.LOOM_TPBASE_BASE * 8
    let size := rd s b F.LOOM_TPSIZE_SIZE * 8
    let sn : TSnap := ⟨n, ns, base, size, m.nstore.filter (fun p => p.1 < 16 * ns),
      m.sstore.filter (fun p => base ≤ p.1 && p.1 < base + size), false⟩
    wr (setLoom s l { m with tsnap := some sn }) b F.LOOM_TSNAPCTL_BUSY 1
  else s

/-- The record of a snapshot with sequence `seq`. -/
def snapRecord (l seq : Nat) (x : TSnap) : List Byte :=
  let body := tabGetRun 0 x.slots 0 (16 * x.nslots) ++ tabGetRun 0 x.region x.base x.size
  leBytes 8 x.beat ++ leBytes 2 l ++ leBytes 2 0 ++ leBytes 4 x.nslots ++ leBytes 4 x.base ++ leBytes 4 x.size
    ++ leBytes 4 seq ++ leBytes 4 0 ++ sha256 body ++ body

end Sys2Proof.Machine
end

