-- ==== Sys2Proof/Machine/Snap.lean ====
section
/-!
DEFINITION. Darning snapshots and the log ring (R608 to R615). A snapshot is held as a typed image whose header and store
regions also go to HBM; the layout of its configuration part is not given (log entry 38).
-/

namespace Sys2Proof.Machine

/-- The row-half shuttle of a loom (R15, R410). -/
def loomShuttle (l : Nat) : Nat := l / 32 * 2 + (if l % 32 < 16 then 0 else 1)

/-- Changes Lamplighter. -/
def modLl (s : State) (f : LlSt → LlSt) : State := { s with ll := f s.ll }

/-- Image `x` of loom `l`. -/
def snapImg (s : State) (l x : Nat) : Option SnapImg := tabGet none s.ll.snaps (2 * l + x)
/-- Sets it. -/
def setSnap (s : State) (l x : Nat) (i : Option SnapImg) : State :=
  modLl s (fun y => { y with snaps := tabSet none y.snaps (2 * l + x) i })

/-- The latest complete snapshot: the image with COMMIT written and the higher sequence (R612). -/
def snapLatest (s : State) (l : Nat) : Option SnapImg :=
  let c := ((List.range 2).filterMap (snapImg s l)).filter (fun i => i.done)
  c.foldl (fun a i => match a with
    | none => some i
    | some j => if j.seq < i.seq then some i else a) none

/-- A snapshot is due at the boundary before beat `n` (R608). -/
def snapDue (s : State) (l n : Nat) : Bool :=
  let sb := rd s bLamplighter F.LL_SNAPBEATS_BEATS
  seqState (seqOf s l) != 0 && sb != 0 && n % sb == l % sb

/-- The 256-byte regions in which two stores differ. -/
def regionsChanged (a b : Tab Byte) : List Nat :=
  let d := fun (x y : Tab Byte) => x.filterMap (fun e => if tabGet 0 y e.1 = e.2 then none else some (e.1 / 256))
  (d a b ++ d b a).eraseDups

/-- Neuron-store regions that hold a slot with DIRTY set. -/
def dirtyRegions (m : Loom) : List Nat :=
  (m.nstore.filterMap (fun e => if e.1 % 16 = 14 ∧ bit e.2.toNat 3 then some (e.1 / 256) else none)).eraseDups

/-- Clears DIRTY in every slot. -/
def dirtyClear (m : Loom) : Loom :=
  { m with nstore := m.nstore.foldl (fun t e => tabSet 0 t e.1 (if e.1 % 16 = 14 then e.2 &&& 0xF7 else e.2)) [] }

/-- Scratch regions that a snapshot leaves out: those inside the accumulator area and beat-frame element areas (R611). -/
def snapSkips (s : State) (l r : Nat) : Bool :=
  let b := bLoom l
  let inside := fun (base n : Nat) => base ≤ 256 * r && 256 * r + 256 ≤ base + n
  inside (rd s b F.LOOM_ACCBASE_BASE * 8) (8 * rd s b F.LOOM_NSLOTS_NSLOTS)
    || (List.range 16).any (fun f =>
      let x := frame s l f
      x.valid && inside x.base (8 * x.rows * x.klen))

/-- The configuration registers of a loom, with the table entries behind its selection registers. -/
def loomRegs (s : State) (l : Nat) : Tab Word :=
  s.regs.filterMap (fun e =>
    let o := e.1 / 65536 % 4096
    if e.1 / 65536 / 4096 = bLoom l ∧ 0x40 ≤ o ∧ o < 0x800 then some (o * 65536 + e.1 % 65536, e.2) else none)

/-- Takes the snapshot of loom `l` at the boundary before beat `n`; `all` copies every region (R651). -/
def snapTake (s : State) (l n : Nat) (all : Bool) : State :=
  let m := loom s l
  let seq := tabGet 0 s.ll.snapSeq l + 1
  let x := seq % 2
  let prev := snapImg s l (1 - x)
  let old := (prev.map (·.loom)).getD Loom.reset
  let every := if all then List.range 2048 else []
  let nmap := (every ++ dirtyRegions m ++ (prev.map (·.nmap)).getD []).eraseDups
  let smap := (every ++ m.tmap.map (·.1) ++ regionsChanged m.sstore old.sstore ++ (prev.map (·.smap)).getD []).eraseDups
  let xmap := ((every ++ regionsChanged m.scratch old.scratch ++ (prev.map (·.xmap)).getD []).eraseDups).filter
    (fun r => !snapSkips s l r)
  let m := { dirtyClear m with tmap := [] }
  let img : SnapImg := ⟨n, seq, m.seq.freerun, loomRegs s l, m, nmap, smap, xmap, m.logPos + m.logBuf.length, false⟩
  modLl (setSnap (setLoom s l m) l x (some img)) (fun y => { y with snapSeq := tabSet 0 y.snapSeq l seq })

/-- The snapshot that a boundary calls for. -/
def snapAt (s : State) (l n : Nat) : State := if snapDue s l n then snapTake s l n false else s

/-- The image taken at the boundary of the open beat holds the sequencer as it is at the acknowledgement of OPEN (R280). -/
def snapSequencer (s : State) (l : Nat) : State :=
  let m := loom s l
  let x := tabGet 0 s.ll.snapSeq l % 2
  match snapImg s l x with
  | none => s
  | some i =>
    if i.done ∨ i.beat ≠ m.beat then s
    else setSnap s l x (some { i with freerun := m.seq.freerun, regs := loomRegs s l, loom := { i.loom with seq := m.seq } })

/-- A map of 2,048 bits as bytes. -/
def mapBytes (rs : List Nat) : List Byte := leBytes 256 ((rs.eraseDups).foldl (fun a r => a + 2 ^ r) 0)

/-- The header of an image without COMMIT (R610). -/
def snapHeader (l : Nat) (i : SnapImg) : List Byte :=
  padTo 4088 (leBytes 8 i.beat ++ leBytes 4 i.seq ++ leBytes 2 l ++ leBytes 1 (i.seq % 2) ++ leBytes 1 i.freerun.toNat
    ++ mapBytes i.nmap ++ mapBytes i.smap ++ mapBytes i.xmap ++ leBytes 8 i.logOff)

/-- Where an image lies in HBM (R609). -/
def snapAddr (s : State) (l x : Nat) : Nat :=
  rdPair s bLamplighter F.LL_SNAPBASE_LO_ADDR F.LL_SNAPBASE_HI_ADDR + l * 0x400000 + x * 0x200000

/-- Writes bytes of an image for block `req`; the first failure is kept. -/
def snapPut (req a : Nat) (d : List Byte) (p : Bool × State) : Bool × State :=
  if p.1 then
    let w := hbmWriteRun p.2 req 0x1E a d
    (decide (w.1 = hOk), w.2.2)
  else p

/-- Writes the copied regions of a store. -/
def snapRegions (req a : Nat) (t : Tab Byte) (rs : List Nat) (p : Bool × State) : Bool × State :=
  rs.foldl (fun p r => snapPut req (a + 256 * r) (tabGetRun 0 t (256 * r) 256) p) p

/-- SNAPSHOT_COMPLETE: every byte, then COMMIT, has been written, or a write has failed. -/
def snapComplete (s : State) (l : Nat) (ok : Bool) : State :=
  let x := tabGet 0 s.ll.snapSeq l % 2
  match snapImg s l x with
  | none => s
  | some i =>
    if i.done ∨ i.seq ≠ tabGet 0 s.ll.snapSeq l ∨ (loom s l).phase = .opening then s
    else
      let a := snapAddr s l x
      let req := bShuttle (loomShuttle l)
      let p := snapPut req a (snapHeader l i) (ok, s)
      let p := snapRegions req (a + 0x11000) i.loom.nstore i.nmap p
      let p := snapRegions req (a + 0x91000) i.loom.sstore i.smap p
      let p := snapRegions req (a + 0x111000) i.loom.scratch i.xmap p
      let p := snapPut req (a + 4088) (leBytes 4 i.seq ++ leBytes 4 0x534E4150) p
      if p.1 then inc (setSnap p.2 l x (some { i with done := true })) bLamplighter F.LL_SNAPS_COUNT
      else inc (latchFault (setSnap p.2 l x none) bLamplighter 0x0D03) bLamplighter F.LL_SNAPFAIL_COUNT

/-! ## The log ring (R613 to R615) -/

/-- Words of a loom's log ring. -/
def logWords (s : State) : Nat := rd s bLamplighter F.LL_LOGSIZE_SIZE * 8192

/-- Where word `k` of loom `l`'s log lies. -/
def logAddr (s : State) (l k : Nat) : Nat :=
  rdPair s bLamplighter F.LL_LOGBASE_LO_ADDR F.LL_LOGBASE_HI_ADDR + l * 8 * logWords s + 8 * (k % logWords s)

/-- Words from the record that the latest complete snapshot names up to the end of what HBM holds; without a snapshot nothing
in the ring is protected. -/
def logKept (s : State) (l : Nat) : Nat :=
  match snapLatest s l with
  | some i => (loom s l).logPos - i.logOff
  | none => 0

/-- LOG_DRAIN_DONE: up to 512 bytes of the staging buffer reach HBM, unless the ring has no room; inputs and the tally that
waited may go on. A beat that ends later for want of room is counted once. -/
def logDrain (s : State) (l : Nat) : State :=
  let m := loom s l
  let n := min 64 m.logBuf.length
  if n = 0 then s
  else if !logOn s then tryTally (setLoom s l { m with logBuf := [] }) l
  else if logWords s < logKept s l + n then
    if m.logStall then s else inc (setLoom s l { m with logStall := true }) bLamplighter F.LL_LOGSTALL_COUNT
  else
    let s := forEach (List.range n) (fun k s =>
      (hbmWriteRun s (bShuttle (loomShuttle l)) 0x1E (logAddr s l (m.logPos + k)) (leBytes 8 ((m.logBuf[k]?).getD 0).toNat)).2.2) s
    tryTally (modLoom s l (fun m => { m with logBuf := m.logBuf.drop n, logPos := m.logPos + n })) l

end Sys2Proof.Machine
end

