-- ==== Sys2Proof/Machine/LoomBeat.lean ====
section
/-!
DEFINITION. The course of a beat at one loom: OPEN, SETTLE, EMIT, spill read-back and row fills (chapters 03 to 05). What
the beat engine does with the loom's reports is in BeatEng.lean.
-/

namespace Sys2Proof.Machine

/-! ## OPEN (R110, R136, R151, R178) -/

/-- A mark of an entry that stands in its queue when a beat opens. -/
def DqMark.early (e : DqMark) : DqMark := { e with late := false }
/-- A chain at OPEN. -/
def DqChain.noted (c : DqChain) : DqChain := { c with marks := c.marks.map DqMark.early }
/-- A queue slot at OPEN. -/
def DqSlot.noted (q : DqSlot) : DqSlot := ⟨q.area.noted, q.spill.noted⟩

/-- The delay queues at OPEN of beat `n`: slot n mod 16 is released with what found no room in it, every entry is noted as there at OPEN. -/
def dqOpen (m : Loom) (n : Nat) : Loom :=
  let ws := m.dqWaits.map (fun x => { x with mark := x.mark.early })
  let out := ((m.dq[n % 16]?).getD DqSlot.reset).noted
  { m with
    released := out
    spillDue := !out.spill.chunks.isEmpty
    dqLast := ws.filter (fun x => x.slot = n % 16)
    dqWaits := ws.filter (fun x => x.slot != n % 16)
    dq := (m.dq.set (n % 16) DqSlot.reset).map DqSlot.noted }

/-- Asks for the spilled chunks of the released slot, 256 bytes each (R107). -/
def spillRead (s : State) (l : Nat) : State :=
  forEach (loom s l).released.spill.chunks (fun a s => hbmAskAs s (bLoom l) false a 5 [] true) s

/-- Row-cache invalidation asked for by LOOM_RCINV. -/
def rcInvalidate (m : Loom) : Loom :=
  if m.rcinvPending then
    { m with rowCache := [], deadFills := m.deadFills ++ m.fills, fills := [], rcinvPending := false }
  else m

/-- The stream table of an OPEN is read, `n` entries: its words are corrected and counted, and one that cannot be corrected latches
SCRATCH_UE and gives free keys (R328). Its streams go on where they stood. -/
def tableLatch (s : State) (l n : Nat) : State :=
  let a := (loom s l).lat.instBase
  let s := scrUnknown (scratchCheck s l a (16 * n)).2 l a (16 * n)
  let m := loom s l
  let keys := tableKeys m a n
  let fresh := StreamSt.fresh (m.beat - 1)
  setLoom s l { m with
    openDue := none
    latKeys := keys
    streams := keys.map (fun k => (k, ((m.streams.find? (fun e => e.1 = k)).map (·.2)).getD fresh)) }

/-- The areas that an OPEN has latched are read and worked on once no bank drains and none of them is held (R317). -/
def openGo (s : State) (l : Nat) : State :=
  let m := loom s l
  match m.openDue with
  | none => s
  | some n =>
    if !m.drains.isEmpty || neuronHeld s l || scrHeld s l m.lat.instBase (16 * n) then s else dqDrain (tableLatch s l n) l

/-- OPEN(n) reaches loom `l`. -/
def loomOpen (s : State) (l n : Nat) : State :=
  let b := bLoom l
  if !rdB s b F.CONTROL_ENABLE ∨ (loom s l).phase ≠ .idle then s
  else
    let s := snapCapture (snapAt s l n) l n
    let lat := latchLayout s l
    let m := dqOpen (rcInvalidate (loom s l)) n
    let m := { m with
      phase := .opening
      beat := n
      lat := lat
      openDue := some (min 4096 (rd s b F.LOOM_INSTCOUNT_COUNT))
      round := 0
      slotsDone := false
      openRoutes := []
      contrib := 0
      tallySent := false
      noRestart := []
      drain := false
      badSegs := []
      logStall := false
      waitStart := ltNow s }
    let s := logBeat (dqRecount (setLoom s l m) l) l n 0
    let s := wr s b F.LOOM_NISTAT_RETRY 0
    let s := forEach (loom s l).dqLast (fun x s => dqCounted s l x.word x.mark) s
    openGo (routeFetchAll (spillRead s l) l) l

/-- Held accesses of loom `l` go on in the order of R320: the network interface's, those of an OPEN, the batten's (R316, R324, R326). -/
def bankGo (s : State) (l : Nat) : State := battenGo (openGo (netGo s l) l) l

/-- The loom may acknowledge OPEN (R280, R317): no activation runs, no bank drains, its areas have been read, and no area of the neuron engine
is held. -/
def openAckOk (s : State) (l : Nat) : Bool :=
  let m := loom s l
  m.phase = .opening && m.openDue.isNone && seqOpenOk m.seq && m.drains.isEmpty && !neuronHeld s l

/-- It acknowledges: a deferred RESTART is applied, a darning snapshot takes the sequencer as it is now, and INTEGRATE starts with the
released entries and its hook. -/
def loomAck (s : State) (l : Nat) : State :=
  let s := snapSequencer (seqOpenAck s l) l
  let s := modLoom s l (fun m => { m with phase := .integrate })
  tryTally (hookTrigger (integrateReleased s l none) l 1 (loom s l).beat) l

/-- The epoch whose picks a retry round takes out of the released slot. -/
def roundEpoch (m : Loom) : Option Nat := if m.round = 0 then none else some (m.beat - 1)

/-- The spilled part of the released slot is back (R107): every request for it has been answered. -/
def spillBack (s : State) (l : Nat) : State :=
  let m := loom s l
  if !m.spillDue || spillBusy s l then s
  else if m.phase = .opening then setLoom s l { m with spillDue := false }
  else if neuronHeld s l then send s .hold (bLoom l) []
  else tryTally (integrateSpill (setLoom s l { m with spillDue := false }) l (roundEpoch m)) l

/-! ## Row fills (R150, R151) -/

/-- Marks the waits that line `k` goes to: every one that needs it, or without a cache the first that asked for it. -/
def feedMarks (cached : Bool) (k : Nat) (d : List Byte) : List RowWait → List RowWait
  | [] => []
  | w :: rest =>
    let need := if cached then (waitLines w).contains k else w.asked.contains k
    if need && !w.lines.any (fun e => e.1 = k) then
      { w with lines := w.lines ++ [(k, d)], asked := w.asked.erase k } :: (if cached then feedMarks cached k d rest else rest)
    else w :: feedMarks cached k d rest

/-- Gives line `k` to the rows that wait for it; every waiting row goes on, since a fill may be asked for again. -/
def rowsFeed (s : State) (l k : Nat) (d : List Byte) : State :=
  let ws := feedMarks (rcSets s l != 0) k d (loom s l).rowWaits
  forEach ws (fun w s => waitGo s l w) (modLoom s l (fun m => { m with rowWaits := [] }))

/-- A line arrives: cached and given to the rows that wait for it. A failed read latches SROW_ERR and its rows give nothing. It waits while
an area of the neuron engine is held. -/
def rowFill (s : State) (l k : Nat) (ok : Bool) (d : List Byte) : State :=
  let m := loom s l
  if neuronHeld s l then send s .hold (bLoom l) []
  else if m.deadFills.contains k then setLoom s l { m with deadFills := m.deadFills.erase k }
  else if m.fills.contains k then
    let s := setLoom s l { m with fills := m.fills.erase k }
    if ok then
      let sets := rcSets s l
      let d := padTo 256 d
      let s := if sets = 0 then s else rcPut s l sets k d
      tryTally (rowsFeed s l k d) l
    else
      let lost := fun (w : RowWait) => if rcSets s l = 0 then w.asked.contains k else (waitLines w).contains k
      tryTally (latchFault (modLoom s l (fun m => { m with rowWaits := m.rowWaits.filter (fun w => !lost w) })) (bLoom l) 0x0105) l
  else s

/-! ## SETTLE (R93, R110, R112, R147, R183) -/

/-- SETTLE waits for the copy of a snapshot (R266): the loom-cycles that it has waited are a free value. -/
def settleStall (s : State) (l : Nat) : State :=
  let f := drawFree s
  send (incBy f.2 (bLoom l) F.LOOM_TSNAPSTALL_COUNT (f.1 % 2 ^ 32)) .hold (bLoom l) []

/-- SETTLE(n) reaches loom `l`: it waits while a snapshot is copied, and while an area it works on is held. The released queue slot is free
again. -/
def loomSettle (s : State) (l n : Nat) : State :=
  let m := loom s l
  if m.phase ≠ .close ∨ m.beat ≠ n then s
  else if rdB s (bLoom l) F.LOOM_TSNAPCTL_BUSY then settleStall s l
  else if neuronHeld s l || netifHeld s l then send s .hold (bLoom l) []
  else
    let s := setLoom s l { m with
      phase := .settle
      ret := ⟨some n, 0, [], m.lat.segs, false, false⟩
      released := DqSlot.reset
      dqLast := []
      retRoutes := [] }
    let s := dqDrain s l
    let s := tensionerSettle s l n
    let s := neuronSettle s l n
    let s := battenSettle s l n
    hookTrigger s l 2 n

/-- Neuron engine, batten, tensioner and SETTLE hook have finished. -/
def settleDoneOk (s : State) (l : Nat) : Bool :=
  let m := loom s l
  m.phase = .settle && m.slotsDone && !m.bSettle && !m.hookS

/-- SETTLE ends at the loom. -/
def loomSettled (s : State) (l : Nat) : State :=
  let b := bLoom l
  let s := modLoom s l (fun m => { m with phase := .emit })
  let n := (loom s l).satNow
  let s := wr s b F.LOOM_SATLAST_COUNT n
  let lim := rd s b F.LOOM_SATBURST_LIMIT
  let s := if lim ≠ 0 ∧ lim ≤ n then logEvent (send s .saturation b [n]) b 7 0 0 n else s
  progress s b

/-- The digest of the picks that the loom emitted (R201). -/
def loomDigest (s : State) (l n : Nat) : List Byte :=
  sha256 (leBytes 8 n ++ (List.range (loom s l).ret.count).flatMap (fun k => leBytes 8 (retPick s l k 0).toNat))

/-- The last close marker can be injected: SETTLE has ended and every route record is there. -/
def emitDoneOk (s : State) (l : Nat) : Bool :=
  let m := loom s l
  m.phase = .emit && routesReady m && !netifHeld s l

/-- The loom injects its picks and markers, and EMIT ends with its hook. -/
def loomEmitted (s : State) (l : Nat) : State :=
  let n := (loom s l).beat
  let s := answerHeld (injectAll s l) l
  let s := if (loom s l).ret.count = 0 then s else
    let d := loomDigest s l n
    modBeat (modLoom s l (fun m => { m with digest := (n, d) })) (fun x => { x with digs := tabSet [] x.digs (n * 1024 + l) d })
  hookTrigger (modLoom s l (fun m => { m with phase := .idle })) l 3 n

end Sys2Proof.Machine
end

