-- ==== Sys2Proof/Machine/Reed.lean ====
section
/-!
DEFINITION. The reed ports (chapter 14): decoder, stamps, merge banks, flush, retention, recording, replay, mirroring and
sensor control.
-/

namespace Sys2Proof.Machine

/-- Port `p`. -/
def reed (s : State) (p : Nat) : Reed := tabGet Reed.reset s.reeds p
/-- Changes port `p`. -/
def modReed (s : State) (p : Nat) (f : Reed → Reed) : State :=
  { s with reeds := tabSet Reed.reset s.reeds p (f (reed s p)) }

/-! ## Epochs and configuration (R168, R470, R472) -/

/-- The input epoch of a stamp: by the newest anchor at or before it; none below T0. -/
def epochOf (s : State) (t : Int) : Option Nat :=
  if t < s.beat.t0 then none
  else (s.beat.anchors.find? (fun a => (a.t : Int) ≤ t)).map (fun a => a.n + (t.toNat - a.t) / a.len)

/-- The beat engine is in a run: RUNNING, HELD or RETRYING. -/
def inRun (s : State) : Bool := beatState s = stRunning || beatState s = stHeld || beatState s = stRetrying

/-- The beat engine has epochs: it is not IDLE (R474 names no other state). -/
def hasEpochs (s : State) : Bool := beatState s != stIdle

/-- A configuration field of port `p` as it governs epoch `e`, for entry `i` of its table. -/
def reedCfg (s : State) (p e : Nat) (f : Fld) (i : Nat) : Nat :=
  match (reed s p).old.find? (fun x => e < x.1) with
  | some x => fldGet f (tabGet (resetWord (bReed p) f.off) x.2 (f.off * 65536 + i))
  | none => rdI s (bReed p) f i

/-- Keeps the configuration in force for epochs below `m`: called before a change that governs epochs from `m` on. A second change before
the same boundary keeps what the first one kept. -/
def reedKeep (s : State) (p m : Nat) : State :=
  let lo := regKey (bReed p) 0 0
  let hi := regKey (bReed p + 1) 0 0
  modReed s p (fun r => if r.old.any (fun x => m ≤ x.1) then r else { r with
    old := r.old.filter (fun x => r.epoch < x.1)
      ++ [(m, (s.regs.filter (fun e => lo ≤ e.1 && e.1 < hi)).map (fun e => (e.1 - lo, e.2)))] })

/-- An event of epoch `m` or later is in a merge bank (R472). -/
def reedEntered (s : State) (p m : Nat) : Bool := (reed s p).bank.any (fun e => m * 2 ^ 21 ≤ e.1)

/-! ## Merge banks (R471, R473) -/

/-- X, Y and POL of an event word. -/
def evX (w : Nat) : Nat := bits w 28 18
/-- Row. -/
def evY (w : Nat) : Nat := bits w 17 7
/-- Polarity. -/
def evPol (w : Nat) : Nat := bits w 29 29

/-- The tile entry of an event in epoch `e`, if it lies in a VALID tile. -/
def reedTile (s : State) (p e w : Nat) : Option Nat :=
  let tx := reedCfg s p e F.REED_GEOM_TILESX 0
  let i := evY w / 16 * tx + evX w / 16
  if evX w / 16 < tx ∧ i < 16384 ∧ reedCfg s p e F.REED_TMDATA0_VALID i = 1 then some i else none

/-- Adds an event of epoch `e` in tile `i` to its bank: the counter saturates at 15, and the first event beyond counts. -/
def reedAdd (s : State) (p e i w : Nat) : State :=
  let u := evPol w * 256 + evY w % 16 * 16 + evX w % 16
  let k := e * 2 ^ 21 + reedCfg s p e F.REED_TMDATA1_MSLOT i * 512 + u
  let c := tabGet 0 (reed s p).bank k
  let s := modReed s p (fun r => { r with bank := tabSet 0 r.bank k (min 16 (c + 1)) })
  if c = 15 then inc s (bReed p) F.REED_GRADESAT_COUNT else s

/-- The tag under which a port uses HBM. -/
def reedTag (s : State) (p : Nat) : Nat := rd s (bReed p) F.OWNER_PART

/-- A record of R478. -/
def reedRecord (e : ReedEv) : List Byte := leBytes 8 (toBits 64 e.t) ++ leBytes 4 e.word ++ leBytes 4 0

/-- Records that the spill ring holds. -/
def spillCap (s : State) (p : Nat) : Nat := rd s (bReed p) F.REED_SPILLSIZE_PAGES * 256

/-- Place `k` of the spill ring. -/
def spillAddr (s : State) (p k : Nat) : Nat :=
  rdPair s (bReed p) F.REED_SPILLBASE_LO_ADDR F.REED_SPILLBASE_HI_ADDR + 16 * (k % max 1 (spillCap s p))

/-- A record of R478 by its bytes. -/
def recordEv (d : List Byte) : ReedEv := ⟨sext 64 (leNat (d.take 8)), leNat ((d.drop 8).take 4)⟩

/-- An event of a later epoch `ep` goes to the spill ring, or is discarded with SPILLFULL (log entry 27). The ring is full while its oldest
record is `spillCap` places back. -/
def reedSpill (s : State) (p ep : Nat) (e : ReedEv) : State :=
  let b := bReed p
  let r := reed s p
  let head := ((r.spill.head?).map (·.1)).getD r.spillPos
  if spillCap s p ≤ r.spillPos - head then
    let s := detSet (inc s b F.REED_SPILLDROP_COUNT) F.BEAT_DETSTAT_INPUTDROP
    if r.full then s else latchFault (modReed s p (fun r => { r with full := true })) b 0x0701
  else
    let s := (hbmWriteRun s (bReed p) (reedTag s p) (spillAddr s p r.spillPos) (reedRecord e)).2.2
    inc (modReed s p (fun r => { r with spill := r.spill ++ [(r.spillPos, ep)], spillPos := r.spillPos + 1, full := false })) b
      F.REED_SPILLED_COUNT

/-- An event enters the aggregator (R470, R473). -/
def reedEvent (p : Nat) (ev : ReedEv) (s : State) : State :=
  let b := bReed p
  match (if inRun s then epochOf s ev.t else none) with
  | none => inc s b F.REED_IDLEDROP_COUNT
  | some e =>
    let r := reed s p
    if e < r.epoch then detSet (inc s b F.REED_LATEDROP_COUNT) F.BEAT_DETSTAT_INPUTDROP
    else match reedTile s p e ev.word with
      | none => inc s b F.REED_NOTILE_COUNT
      | some i => if e ≤ r.epoch + 1 then reedAdd s p e i ev.word else reedSpill s p e ev

/-- Spilled events of epochs that have a bank now re-enter in arrival order, as the ring holds them; one that cannot be read is lost, and
counted as discarded (log entry 27). -/
def reedUnspill (s : State) (p : Nat) : State :=
  let back := fun (x : Nat × Nat) => x.2 ≤ (reed s p).epoch + 1
  let s0 := s
  let s := modReed s p (fun r => { r with spill := r.spill.filter (fun x => !back x) })
  forEach ((reed s0 p).spill.filter back) (fun x s =>
    let r := hbmReadRun s (bReed p) (reedTag s p) (spillAddr s p x.1) 16
    let s := r.2.2.2
    if r.1 ≠ hOk then detSet (inc s (bReed p) F.REED_SPILLDROP_COUNT) F.BEAT_DETSTAT_INPUTDROP
    else
      let w := (recordEv r.2.2.1).word
      match reedTile s p x.2 w with
      | some i => reedAdd s p x.2 i w
      | none => s) s

/-! ## Recording and mirroring (R478, R479, R517) -/

/-- Records that the recording ring holds. -/
def recCap (s : State) (p : Nat) : Nat := rd s (bReed p) F.REED_RECSIZE_PAGES * 256
/-- REED_RECCNT. -/
def recCnt (s : State) (p : Nat) : Nat := rdPair s (bReed p) F.REED_RECCNT_LO_COUNT F.REED_RECCNT_HI_COUNT
/-- The address of record `i`. -/
def recAddr (s : State) (p i : Nat) : Nat :=
  rdPair s (bReed p) F.REED_RECBASE_LO_ADDR F.REED_RECBASE_HI_ADDR + 16 * (i % max 1 (recCap s p))

/-- Sends a mirrored record on glimmer port `g`: its stamp, its event word, and MSEQ (R517). -/
def mirrorSend (s : State) (g p mseq : Nat) (e : ReedEv) : State :=
  if glimLive s g then
    glimDrain (modGlim s g (fun x => { x with
      recs := x.recs ++ [(p, toBits 64 e.t + e.word % 2 ^ 32 * 2 ^ 64 + mseq % 2 ^ 32 * 2 ^ 96)] })) g
  else s

/-- Captures an event word that leaves the decoder, and mirrors the record. -/
def reedCapture (s : State) (p : Nat) (e : ReedEv) : State :=
  let b := bReed p
  let n := recCnt s p
  if !rdB s b F.REED_RECCTL_CAPEN then s
  else if recCap s p = 0 ∨ (recCap s p ≤ n ∧ !rdB s b F.REED_RECCTL_CAPWRAP) then
    detSet (inc s b F.REED_CAPDROP_COUNT) F.BEAT_DETSTAT_INPUTDROP
  else
    let s := (hbmWriteRun s (bReed p) (reedTag s p) (recAddr s p n) (reedRecord e)).2.2
    let s := wrPair s b F.REED_RECCNT_LO_COUNT F.REED_RECCNT_HI_COUNT (n + 1)
    if rdB s b F.REED_MIRROR_EN then mirrorSend s (rd s b F.REED_MIRROR_PORT) p n e else s

/-! ## Decoder (R465 to R469) -/

/-- SRC codes. -/
abbrev srcLanes : Nat := 0
abbrev srcReplay : Nat := 1
abbrev srcMirror : Nat := 2

/-- A configuration field as it governs a packet whose header arrived at `lt`: that of its epoch, or without epochs the present one. -/
def pktCfg (s : State) (p lt : Nat) (f : Fld) (i : Nat) : Nat :=
  match epochOf s lt with
  | some e => reedCfg s p e f i
  | none => rdI s (bReed p) f i

/-- A reed word of a packet whose header arrived at `lt`. -/
def reedWord (p lt : Nat) (w : Nat) (s : State) : State :=
  let b := bReed p
  let ty := bits w 31 30
  if ty = 0 then
    let s := progress (inc s b F.REED_EVENTS_COUNT) b
    let t : Int :=
      if pktCfg s p lt F.REED_CFG_TSMODE 0 = 0 then lt
      else (((reed s p).time * 128 + bits w 6 0) * 1000 : Nat) + sext 64 (rdPair s b F.REED_TSOFF_LO_OFF F.REED_TSOFF_HI_OFF)
    reedEvent p ⟨t, w⟩ (reedCapture s p ⟨t, w⟩)
  else if ty = 1 then
    let v := w % 2 ^ 30
    modReed s p (fun r =>
      let u := r.time / 2 ^ 30 + (match r.lastV with | some x => if v + 2 ^ 29 < x then 1 else 0 | none => 0)
      { r with time := u * 2 ^ 30 + v, lastV := some v })
  else if ty = 2 then inc (wr s b F.REED_SENSTAT_STATUS (w % 2 ^ 30)) b F.REED_STATUSW_COUNT
  else s

/-- How the microcode leaves an input word. -/
inductive UcEnd where
  | done
  | next (pc o n : Nat)
  | over
  deriving DecidableEq, Repr

/-- Runs the microcode of up to 64 entries on an input word: what it emits, and how it leaves. `n` entries of the word have
been executed. -/
def ucRun (prog : Nat → Nat) (inp : Nat) : Nat → Nat → Nat → List Nat → List Nat × UcEnd
  | 0, pc, _, acc => (acc, if 64 ≤ pc then .done else .over)
  | fuel + 1, pc, o, acc =>
    let x := prog pc
    let op := bits x 2 0
    let wid := bits x 14 9
    let fld := inp / 2 ^ bits x 8 3 % 2 ^ wid
    let val := x / 2 ^ 32 % 2 ^ wid
    let put := fun (v : Nat) => (o - bits o (bits x 19 15 + wid - 1) (bits x 19 15) * 2 ^ bits x 19 15
      + v * 2 ^ bits x 19 15) % 2 ^ 32
    if 64 ≤ pc then (acc, .done)
    else if op = 1 then ucRun prog inp fuel (if fld = val then pc + 1 else bits x 25 20) o acc
    else if op = 2 then ucRun prog inp fuel (pc + 1) (put fld) acc
    else if op = 3 then ucRun prog inp fuel (pc + 1) (put val) acc
    else if op = 4 then ucRun prog inp fuel (pc + 1) 0 (acc ++ [o])
    else if op = 5 then (acc, .next (pc + 1) o (32 - fuel))
    else if op = 6 then ucRun prog inp fuel (bits x 25 20) o acc
    else (acc, .done)

/-- One input word through the microcode; an unfinished word goes on with the next. -/
def ucWord (p lt : Nat) (inp : Nat) (s : State) : State :=
  let prog := fun (i : Nat) =>
    let w := fun (f : Fld) => pktCfg s p lt f i
    w ⟨F.REED_UCDATA_LO_OP.off, 31, 0⟩ + w ⟨F.REED_UCDATA_HI_VAL.off, 31, 0⟩ * 2 ^ 32
  let st := (reed s p).uc.getD (0, 0, 0)
  let r := ucRun prog inp (32 - st.2.2) st.1 st.2.1 []
  let s := modReed s p (fun x => { x with uc := match r.2 with | .next pc o n => some (pc, o, n) | _ => none })
  let s := forEach r.1 (reedWord p lt) s
  if r.2 = .over then inc s (bReed p) F.REED_DECOVF_COUNT else s

/-- Words of `n` bytes of a payload, little-endian. -/
def payWords (n : Nat) (d : List Byte) : List Nat :=
  (List.range (d.length / n)).map (fun i => leNat ((d.drop (n * i)).take n))

/-- A CSI-2 packet (R464): `ecc` and `crc` say whether the header and the payload pass, `lost` how many of its last words
the ingress FIFO lost (R485). -/
def reedPacket (s : State) (p : Nat) (ecc short crc : Bool) (vc dt : Nat) (d : List Byte) (lost : Nat) : State :=
  let b := bReed p
  if !rdB s b F.CONTROL_ENABLE ∨ rd s b F.REED_CFG_SRC ≠ srcLanes then s
  else if !ecc then inc s b F.REED_CRCDROP_COUNT
  else if short ∨ vc ≠ rd s b F.REED_CSI_VC ∨ dt ≠ rd s b F.REED_CSI_DT then inc s b F.REED_OTHERPKT_COUNT
  else if !crc then inc s b F.REED_CRCDROP_COUNT
  else
    let f := drawFree s
    let lt := ltNow s - f.1 % 7
    let s := f.2
    let micro := rd s b ⟨F.REED_CFG_DECMODE.off, 7, 7⟩ = 1
    let iw := rd s b F.REED_CFG_INWIDTH
    let ws := payWords (if !micro then 4 else if iw = 0 then 2 else if iw = 1 then 4 else 8) d
    let gone := min lost ws.length
    let s := if gone = 0 then s else detSet (incBy s b F.REED_INQDROP_COUNT gone) F.BEAT_DETSTAT_INPUTDROP
    forEach (ws.take (ws.length - gone)) (if micro then ucWord p lt else reedWord p lt) s

/-! ## Replay (R478) -/

/-- REED_REPLAY_RECORD: the next recorded event, once a merge bank is free for it; until then its stamp is known. A record that cannot be
read ends the recording. -/
def reedReplay (s : State) (p : Nat) : State :=
  let b := bReed p
  let r := reed s p
  if !rdB s b F.CONTROL_ENABLE ∨ rd s b F.REED_CFG_SRC ≠ srcReplay ∨ recCnt s p ≤ r.rdPos ∨ !inRun s then s
  else
    let x := hbmReadRun s (bReed p) (reedTag s p) (recAddr s p r.rdPos) 16
    let s := x.2.2.2
    if x.1 ≠ hOk then modReed s p (fun r => { r with rdPos := recCnt s p })
    else
      let ev := recordEv x.2.2.1
      let last := max r.rdLast ev.t
      match epochOf s ev.t with
      | some e =>
        if r.epoch + 1 < e then modReed s p (fun r => { r with rdLast := last })
        else reedEvent p ev (modReed s p (fun r => { r with rdPos := r.rdPos + 1, rdLast := last }))
      | none => reedEvent p ev (modReed s p (fun r => { r with rdPos := r.rdPos + 1, rdLast := last }))

/-- The recording has passed stamp `t` or ended; a port whose input is not the recording has none. -/
def replayPassed (s : State) (p t : Nat) : Bool :=
  rd s (bReed p) F.REED_CFG_SRC != srcReplay || recCnt s p ≤ (reed s p).rdPos || (t : Int) ≤ (reed s p).rdLast

/-! ## Mirror reception (R517, R518) -/

/-- Delivers held records that are next in MSEQ order. -/
def mirrorDrain (p : Nat) : Nat → State → State
  | 0, s => s
  | n + 1, s =>
    let r := reed s p
    match r.mNext with
    | none => s
    | some k => match r.mHeld.find? (fun x => x.1 = k) with
      | none => s
      | some x =>
        let s := modReed s p (fun r => { r with
          mNext := some ((k + 1) % 2 ^ 32), mHeld := r.mHeld.filter (fun y => y.1 != k) })
        mirrorDrain p n (reedEvent p x.2 s)

/-- How far the first held record lies ahead of the next one wanted. -/
def mirrorAhead (r : Reed) (k : Nat) : Nat :=
  r.mHeld.foldl (fun m x => min m ((x.1 + 2 ^ 32 - k) % 2 ^ 32)) (2 ^ 32)

/-- MSEQ `k` comes before `e`. -/
def mseqBefore (k e : Nat) : Bool := k != e && (e + 2 ^ 32 - k) % 2 ^ 32 < 2 ^ 31

/-- Opens, keeps or closes the gap of a port after an arrival: it stays open, at the time it opened, until its last record has come, and a new
gap asks for its missing records. -/
def mirrorGap (s : State) (p : Nat) : State :=
  let r := reed s p
  match r.mNext with
  | none => s
  | some k =>
    if r.mHeld.isEmpty then modReed s p (fun r => { r with mGap := none })
    else if r.mGap.any (fun g => mseqBefore k g.2) then s
    else
      let n := min 65535 (mirrorAhead r k)
      queueMark (modReed s p (fun r => { r with mGap := some (ltNow s, (k + mirrorAhead r k) % 2 ^ 32) })) r.mPort
        (mkMark mkMirreq (selfPkg s) false (p + k * 2 ^ 3 + n * 2 ^ 35))

/-- A mirrored record of reed port `p` arrives on glimmer port `g`. The first record fixes where MSEQ starts (log entry 28). -/
def mirrorArrive (s : State) (g p mseq : Nat) (ev : ReedEv) : State :=
  let b := bReed p
  if rd s b F.REED_CFG_SRC ≠ srcMirror ∨ !rdB s b F.CONTROL_ENABLE then inc s (bGlimmer g) F.GLIM_MIRDROP_COUNT
  else
    let s := modReed s p (fun r => { r with mPort := g, mNext := some (r.mNext.getD mseq) })
    let k := (reed s p).mNext.getD mseq
    let d := (mseq + 2 ^ 32 - k) % 2 ^ 32
    if 2 ^ 31 ≤ d ∨ (reed s p).mHeld.any (fun x => x.1 = mseq) then s
    else
      let s := modReed s p (fun r => { r with mHeld := r.mHeld ++ [(mseq, ev)] })
      let had := (reed s p).mHeld.length
      let s := mirrorDrain p had s
      mirrorGap s p

/-- Gives up the missing records of the gap that ends before `e`, and delivers the held ones among them and after them. -/
def mirrorSkip (p e : Nat) : Nat → State → State
  | 0, s => s
  | n + 1, s =>
    let r := reed s p
    match r.mNext with
    | none => s
    | some k =>
      if r.mHeld.isEmpty || !mseqBefore k e then s
      else
        let a := mirrorAhead r k
        let s := incBy s (bGlimmer r.mPort) F.GLIM_MIRLOST_COUNT a
        mirrorSkip p e n (mirrorDrain p r.mHeld.length (modReed s p (fun r => { r with mNext := some ((k + a) % 2 ^ 32) })))

/-- MIRROR_WAIT_EXPIRY: the missing records are given up. -/
def mirrorExpire (s : State) (p : Nat) : State :=
  let r := reed s p
  match r.mGap with
  | some (t, e) =>
    let b := bGlimmer r.mPort
    if ltNow s < t + rd s b F.GLIM_MIRWAIT_NS then s
    else
      let s := detSet (latchFault s b 0x0905) F.BEAT_DETSTAT_INPUTDROP
      mirrorGap (modReed (mirrorSkip p e r.mHeld.length s) p (fun r => { r with mGap := none })) p
  | none => s

/-- A MIRREQ at the sender: `n` records of port `p` from MSEQ `first` on, as far as the ring still holds them. -/
def mirrorResend (s : State) (g p first n : Nat) : State :=
  let cnt := recCnt s p
  let back := (cnt + 2 ^ 32 - first) % 2 ^ 32
  if cnt < back then s
  else forEach (List.range (min n back)) (fun i s =>
    let k := cnt - back + i
    if cnt ≤ k + recCap s p then
      let x := hbmReadRun s (bReed p) (reedTag s p) (recAddr s p k) 16
      if x.1 = hOk then
        mirrorSend x.2.2.2 g p k (recordEv x.2.2.1)
      else x.2.2.2
    else s) s

/-! ## Flush (R474, R475) -/

/-- BIN, POLMERGE and MINCOUNT of a level. -/
def reedLevel (s : State) (p e level : Nat) : Nat × Nat × Nat :=
  if level = 0 then (0, 0, 1)
  else
    let f := fun (x : Fld) => reedCfg s p e (fAt x (level - 1)) 0
    (f F.REED_CLEVEL1_BIN, f F.REED_CLEVEL1_POLMERGE, f F.REED_CLEVEL1_MINCOUNT)

/-- The VALID tiles of epoch `e` as (MSLOT, entry), in ascending MSLOT. -/
def reedTiles (s : State) (p e : Nat) : List (Nat × Nat) :=
  (((List.range 16384).filter (fun i => reedCfg s p e F.REED_TMDATA0_VALID i = 1)).map (fun i =>
    (reedCfg s p e F.REED_TMDATA1_MSLOT i, i))).mergeSort (fun a b => a.1 ≤ b.1)

/-- Top-left positions of a tile's blocks of size 2^`bin`, ascending; polarity 1 only where it is kept apart. -/
def blockPos (bin merge : Nat) : List Nat :=
  let n := 16 / 2 ^ bin
  (List.range (if merge = 1 then 1 else 2)).flatMap (fun pol =>
    (List.range n).flatMap (fun y => (List.range n).map (fun x => pol * 256 + y * 2 ^ bin * 16 + x * 2 ^ bin)))

/-- The count of the block at position `u` of merge slot `ms`. -/
def blockCount (bank : Tab Nat) (e ms bin merge u : Nat) : Nat :=
  let n := 2 ^ bin
  let one := fun (u : Nat) => ((List.range n).map (fun y => ((List.range n).map (fun x =>
    min 15 (tabGet 0 bank (e * 2 ^ 21 + ms * 512 + u + 16 * y + x)))).sum)).sum
  one u + (if merge = 1 then one (u + 256) else 0)

/-- The picks of epoch `e` with SEQ 0 and their groups, in order, and the number of blocks below MINCOUNT. -/
def reedPicks (s : State) (p e : Nat) : List (Nat × W64) × Nat :=
  let level := (((reed s p).levels.find? (fun x => x.1 = e)).map (·.2)).getD 0
  let c := reedLevel s p e level
  let bank := (reed s p).bank
  (reedTiles s p e).foldl (fun acc ti =>
    let g := reedCfg s p e F.REED_TMDATA0_GROUP ti.2
    let mb := reedCfg s p e F.REED_TMDATA0_MBASE ti.2
    let po := reedCfg s p e F.REED_GRPDATA1_POLOFF g
    (blockPos c.1 c.2.1).foldl (fun acc u =>
      let n := blockCount bank e ti.1 c.1 c.2.1 u
      if c.2.2 ≤ n then
        (acc.1 ++ [(g, pickWord kSensor (min 15 n) (reedCfg s p e F.REED_GRPDATA0_POP g)
          ((mb + u / 256 * po + u % 256) % 65536) (reedCfg s p e F.REED_GRPDATA0_DELAY g) 0)], acc.2)
      else (acc.1, acc.2 + 1)) acc) ([], 0)

/-- Where the routes of port `p` start: the ingress columns of R519 (log entry 29). -/
def reedPos (p : Nat) : Nat × Nat := (if p < 4 then 0 else 23, portCol p)

/-- The records of the chain from record `idx` on, checked as R135; none for a malformed one. -/
def reedWalk (p tag rset rcount : Nat) : Nat → Nat → List Nat × State → List Nat × State
  | 0, _, r => ([], r.2)
  | fuel + 1, idx, r =>
    if rcount ≤ idx then ([], r.2)
    else
      let x := hbmReadRun r.2 (bReed p) tag (rset + 32 * idx) 32
      let w := leNat x.2.2.1
      if x.1 ≠ hOk ∨ !recordOk w rcount (reedPos p) ∨ !recRouted x.2.2.2 w then ([], x.2.2.2)
      else if recNext w = 0xFFF then (r.1 ++ [w], x.2.2.2)
      else reedWalk p tag rset rcount fuel (recNext w) (r.1 ++ [w], x.2.2.2)

/-- The chain of a population for port `p` (R152). -/
def reedChain (s : State) (p pop : Nat) : List Nat × State :=
  let tag := reedTag s p
  let part := dirF s pop F.HUB_DIRDATA0_PART
  if dirF s pop F.HUB_DIRDATA0_VALID = 0 ∨ (part ≠ tag ∧ part ≠ 0x1F) then ([], s)
  else reedWalk p tag (rsetOf (dirF s pop F.HUB_DIRDATA1_RSETLO) (dirF s pop F.HUB_DIRDATA2_RSETHI))
    (dirF s pop F.HUB_DIRDATA2_RCOUNT) 32 p ([], s)

/-- The VALID groups of epoch `e` with their chains; a malformed chain latches REEDROUTE. -/
def reedChains (s : State) (p e : Nat) : List (Nat × List Nat) × State :=
  ((List.range 64).filter (fun g => reedCfg s p e F.REED_GRPDATA0_VALID g = 1)).foldl (fun (acc : List (Nat × List Nat) × State) g =>
    let r := reedChain acc.2 p (reedCfg acc.2 p e F.REED_GRPDATA0_POP g)
    if r.1.isEmpty then (acc.1, latchFault r.2 (bReed p) 0x0703) else (acc.1 ++ [(g, r.1)], r.2)) ([], s)

/-- The chain of a group in a retention. -/
def ReedRet.chain (r : ReedRet) (g : Nat) : List Nat := ((r.chains.find? (fun c => c.1 = g)).map (·.2)).getD []
/-- The places of a group's picks in the retention, in order. -/
def ReedRet.ofGroup (r : ReedRet) (g : Nat) : List Nat := (List.range r.groups.length).filter (fun i => r.groups[i]? = some g)

/-- Reads picks of the retention by their places (R476); none where a read fails, which latches RETERR. -/
def retRead (s : State) (p : Nat) (r : ReedRet) (is : List Nat) : Option (List W64) × State :=
  is.foldl (fun (acc : Option (List W64) × State) i =>
    match acc.1 with
    | none => acc
    | some ws =>
      let x := hbmReadRun acc.2 (bReed p) (reedTag s p) (r.base + 8 * i) 8
      if x.1 = hOk then (some (ws ++ [BitVec.ofNat 64 (leNat x.2.2.1)]), x.2.2.2)
      else (none, latchFault x.2.2.2 (bReed p) 0x0702)) (some [], s)

/-- A pick word with its SEQ. -/
def withSeq (w : W64) (k : Nat) : W64 := BitVec.ofNat 64 (w.toNat / 4096 * 4096 + k % 4096)

/-- The endpoint of a port (R341). -/
abbrev reedEp (p : Nat) : Nat := 0x400 + p

/-- Sends words of a stream in packets of at most 16. -/
def reedWords (s : State) (p tag dpkg : Nat) (path : Nat × Nat × Nat) (ws : List W64) : State :=
  forEach (List.range ((ws.length + 15) / 16)) (fun i s =>
    edgeSend s (bReed p) (reedEp p) (reedTag s p) 0 0 tag dpkg .stream (reedPos p) path
      (wordFlits (((ws.drop (16 * i)).take 16).map (·.toNat)) padWord)) s

/-- Sends words on the streams of group `g`, each record of the chain in order. -/
def reedSend (s : State) (p g : Nat) (chain : List Nat) (ws : List W64) : State :=
  forEach ((List.range chain.length).zip chain) (fun r s => reedWords s p (g * 32 + r.1) (recDpkg s r.2) (recPath r.2) ws) s

/-- Picks `q` to `q + n` − 1 of the picks of a group, with their SEQ. -/
def pickRun (ws : List W64) (q n : Nat) : List W64 := (List.range n).map (fun i => withSeq ((ws[q + i]?).getD 0) (q + i))

/-- The picks of a group among those of an epoch. -/
def picksOf (ps : List (Nat × W64)) (g : Nat) : List W64 := (ps.filter (fun x => x.1 = g)).map (·.2)

/-- Injects an epoch's picks on the chains of their groups (R175, R475): the picks in flush order, a packet of a group's streams leaving with
its sixteenth pick, and then on every stream what is left with the close marker. -/
def reedInject (s : State) (p epoch : Nat) (ps : List (Nat × W64)) (chains : List (Nat × List Nat)) : State :=
  let chain := fun (g : Nat) => ((chains.find? (fun c => c.1 = g)).map (·.2)).getD []
  let x := ps.foldl (fun (acc : Tab Nat × State) y =>
    let k := tabGet 0 acc.1 y.1
    (tabSet 0 acc.1 y.1 (k + 1),
      if k % 16 = 15 then reedSend acc.2 p y.1 (chain y.1) (pickRun (picksOf ps y.1) (k - 15) 16) else acc.2)) ([], s)
  forEach chains (fun c s =>
    let ws := picksOf ps c.1
    reedSend s p c.1 c.2 (pickRun ws (ws.length / 16 * 16) (ws.length % 16) ++ [closeWord epoch ws.length])) x.2

/-- Injects the retained epoch again, as its area holds it (R195, R476). -/
def reedAgain (s : State) (p : Nat) : State :=
  match (reed s p).ret with
  | none => s
  | some r => match retRead s p r (List.range r.groups.length) with
    | (some ws, s) => reedInject s p r.epoch (r.groups.zip ws) r.chains
    | (none, s) => s

/-- Serves a REPICK at port `p` (R476, as R186). In a retry drain it is discarded and counted: the port has stopped (R195, R200). -/
def reedRepick (s : State) (p tag ep16 first num pkg dst : Nat) : State :=
  let b := bReed p
  let answer := fun (ws : List W64) (s : State) =>
    inc (reedWords s p tag pkg (genPath s (reedEp p) pkg dst) ws) b F.REED_REPICKSRV_COUNT
  let bad := inc s b F.REED_REPICKBAD_COUNT
  if beatState s = stRetrying ∧ ep16 = (s.beat.n + 65535) % 65536 then bad
  else
  match (reed s p).ret with
  | some r =>
    if r.epoch % 65536 = ep16 then
      let is := r.ofGroup (tag / 32)
      if (r.chain (tag / 32)).length ≤ tag % 32 then bad
      else if num = 0 then answer [closeWord r.epoch is.length] s
      else if is.length ≤ first then bad
      else
        let n := min (first + num) is.length - first
        match retRead s p r ((is.drop first).take n) with
        | (some ws, s) => answer (((List.range n).zip ws).flatMap (fun w =>
            [resendWord r.epoch (first + w.1), withSeq w.2 (first + w.1)])) s
        | (none, s) => inc s b F.REED_REPICKBAD_COUNT
    else if num = 0 ∧ (reed s p).epoch % 65536 = ep16 then
      modReed s p (fun r => { r with held := r.held ++ [(tag, ep16, pkg, dst)] })
    else bad
  | none =>
    if num = 0 ∧ (reed s p).epoch % 65536 = ep16 then
      modReed s p (fun r => { r with held := r.held ++ [(tag, ep16, pkg, dst)] })
    else bad

/-- The beat engine has entered SETTLE of beat `e` or of a later one. -/
def settledTo (s : State) (e : Nat) : Bool :=
  e < s.beat.n || (e = s.beat.n && s.beat.isOpen && 4 ≤ rd s bBeat F.BEAT_STATUS_PHASE)

/-- The flush of the oldest unflushed epoch may start (R474, R518). -/
def flushOk (s : State) (p : Nat) : Bool :=
  let r := reed s p
  rdB s (bReed p) F.CONTROL_ENABLE && hasEpochs s && beatState s != stRetrying && settledTo s r.epoch && r.mGap.isNone
    && (if rdB s bBeat F.BEAT_CTL_MODE then replayPassed s p (sched s (r.epoch + 1))
        else sched s (r.epoch + 1) + rd s (bReed p) F.REED_GUARD_NS ≤ ltAt s (bReed p))

/-- REED_FLUSH_START: the whole flush of an epoch. -/
def reedFlush (s : State) (p : Nat) : State :=
  if !flushOk s p then s
  else
    let b := bReed p
    let e := (reed s p).epoch
    let x := reedPicks s p e
    let c := reedChains s p e
    let s := c.2
    let bytes := x.1.flatMap (fun y => leBytes 8 y.2.toNat)
    let a := rdPair s b F.REED_RETBASE_LO_ADDR F.REED_RETBASE_HI_ADDR
    let w := hbmWriteRun s (bReed p) (reedTag s p) a bytes
    let s := if w.1 = hOk then w.2.2 else latchFault w.2.2 b 0x0702
    let s := incBy (incBy s b F.REED_PICKS_COUNT x.1.length) b F.REED_SUBTHRESH_COUNT x.2
    let s := if x.1.isEmpty then s else
      modBeat s (fun y => { y with digs := tabSet [] y.digs (e * 1024 + 768 + p) (sha256 (leBytes 8 e ++ bytes)) })
    let s := modReed s p (fun r => { r with
      ret := some ⟨e, a, x.1.map (·.1), c.1⟩
      epoch := e + 1
      bank := tabClear r.bank (e * 2 ^ 21) ((e + 1) * 2 ^ 21) })
    let s := reedUnspill (reedInject s p e x.1 c.1) p
    let q := (reed s p).held
    let s := modReed s p (fun r => { r with held := [] })
    forEach q (fun h s => reedRepick s p h.1 h.2.1 0 0 h.2.2.1 h.2.2.2) s

/-- SETTLE of beat `n` releases the retention of epoch `n` − 1 (R476). -/
def reedRelease (s : State) (n : Nat) : State :=
  forEach (List.range 8) (fun p s => match (reed s p).ret with
    | some r => if r.epoch < n then modReed s p (fun r => { r with ret := none }) else s
    | none => s) s

/-- A run from beat 0 starts with empty banks, ring and retention, and a replay from its first record (log entry 30). -/
def reedStart (s : State) : State :=
  forEach (List.range 8) (fun p s => if (reed s p) = Reed.reset then s else modReed s p (fun r => { r with
    epoch := 0, bank := [], spill := [], full := false, ret := none, held := [], rdPos := 0, rdLast := 0, mNext := none
    mHeld := [], mGap := none, old := [], levels := [] })) s

/-! ## Sensor control (R480, R482) -/

/-- REED_I3CCMD written: starts a transfer unless one runs; a write takes its bytes from the FIFO. -/
def i3cStart (s : State) (p : Nat) (v : Nat) : State :=
  let b := bReed p
  if rdB s b F.REED_I3CSTAT_BUSY then s
  else
    let n := if bits v 15 8 = 0 then 256 else bits v 15 8
    let d := if bit v 7 then [] else (reed s p).fifo.take n
    let s := modReed s p (fun r => { r with i3c := some v, fifo := if bit v 7 then r.fifo else r.fifo.drop n })
    send (wr s b F.REED_I3CSTAT_BUSY 1) .i3c b (v :: d.map (·.toNat))

/-- The transfer ends; a read leaves its bytes in the FIFO. -/
def i3cDone (s : State) (p : Nat) (nack : Bool) (d : List Byte) : State :=
  let b := bReed p
  match (reed s p).i3c with
  | none => s
  | some v =>
    let n := if bits v 15 8 = 0 then 256 else bits v 15 8
    let s := modReed s p (fun r => { r with
      i3c := none, fifo := if bit v 7 && !nack then (r.fifo ++ d.take n).take 256 else r.fifo })
    let s := wr s b F.REED_I3CSTAT_BUSY 0
    if nack then wr s b F.REED_I3CSTAT_NACK 1 else s

/-- An in-band interrupt. -/
def i3cIbi (s : State) (p addr : Nat) : State :=
  wr (wr s (bReed p) F.REED_I3CSTAT_IBI 1) (bReed p) F.REED_I3CSTAT_IBIADDR addr

/-- REED_I3CDATA written or read: four bytes of the FIFO. -/
def i3cPush (s : State) (p v : Nat) : State := modReed s p (fun r => { r with fifo := (r.fifo ++ leBytes 4 v).take 256 })
/-- What a read returns. -/
def i3cPeek (s : State) (p : Nat) : Nat := leNat ((reed s p).fifo.take 4)
/-- What a read takes. -/
def i3cPop (s : State) (p : Nat) : State := modReed s p (fun r => { r with fifo := r.fifo.drop 4 })

end Sys2Proof.Machine
end

