-- ==== Sys2Proof/Machine/Txn.lean ====
section
/-!
DEFINITION. Access checks, views and staging (R39 to R64): what chapter 02 says of a single access to one block,
without the effects that a register's own chapter gives a write.
-/

namespace Sys2Proof.Machine

/-! ## Requesters (R55, R56) -/

/-- TXN.TSTATE codes (R58). -/
abbrev tsIdle : Nat := 0
abbrev tsOpen : Nat := 1
abbrev tsPending : Nat := 2

/-- TXN.RESULT codes (R59). -/
abbrev resOk : Nat := 0
abbrev resAlreadyOpen : Nat := 1
abbrev resNotOpen : Nat := 2
abbrev resInGroup : Nat := 3
abbrev resInvalid : Nat := 4
abbrev resAbortedReset : Nat := 5
abbrev resGroupRollback : Nat := 6
abbrev resNotOpener : Nat := 7

/-- A custody page, read-only to the device apart from the registers of R56. -/
def custodyPage (b : Nat) : Bool :=
  b = bCustody || b = bLamplighter || b = bFuse || b = bPower || b = bPartition

/-- The registers of the custody pages that the device may write (R56): CUSTODY_CMD, ARG0 to ARG3, BUF, CSTAT.DONE,
FUSE_SEL and LL_EVSEL. -/
def deviceMayWrite (b off : Nat) : Bool :=
  (b = bCustody && 0x44 ≤ off && off ≤ 0x60) || (b = bFuse && off = 0x40) || (b = bLamplighter && off = 0xDC)

/-- The group registers of the BEAT page (R65), which guard themselves by slot ownership. -/
def groupReg (b off : Nat) : Bool := b = bBeat && 0x300 ≤ off && off ≤ 0x31F

/-- The partition check of R55 for a read. -/
def mayRead (s : State) (r : Requester) (b off : Nat) : Bool :=
  match r with
  | .custody _ => true
  | .device | .hart .. => true
  | .part p => rd s b F.OWNER_PART = p.val || groupReg b off

/-- The partition check of R55 and R56 for a write. -/
def mayWrite (s : State) (r : Requester) (b off : Nat) : Bool :=
  match r with
  | .custody _ => true
  | .device | .hart .. => !custodyPage b || deviceMayWrite b off
  | .part p => rd s b F.OWNER_PART = p.val || groupReg b off

/-- Whether a requester may write a member's page (R67, NOT_OWNED). -/
def tagMayWrite (s : State) (tag b : Nat) : Bool :=
  tag = 0x1E || (tag = 0x1F && !custodyPage b) || rd s b F.OWNER_PART = tag

/-- Who an access comes from when it leaves the application cluster (R75): a hart in M-mode or HS-mode carries the device tag, one in
VS-mode or VU-mode the tag of its APC_VMPART, and is refused while VALID is 0. The manual names no tag for U-mode, which is not
virtualised; it carries the device tag as HS-mode does (log entry 100). Every other requester is itself. -/
def who (s : State) : Requester → Option Requester
  | .hart h mode =>
    if mode = .vs ∨ mode = .vu then
      let w := regGet s bApc (F.APC_VMPART_PART.off + 8 * h.val) 0
      if fldGet F.APC_VMPART_VALID w = 1 then some (.part (BitVec.ofNat 4 (fldGet F.APC_VMPART_PART w)).toFin) else none
    else some .device
  | r => some r

/-- The requester that a block sees. -/
def asReq (s : State) (r : Requester) : Requester := (who s r).getD .device

/-- Any requester of custody. -/
def isCustody : Requester → Bool
  | .custody _ => true
  | _ => false




/-! ## Masks -/

/-- The bits of a register whose field satisfies `p`. -/
def maskWhere (k : Kind) (off : Nat) (p : FldRow → Bool) : Word :=
  (rowsAt k off).foldl (fun m r => if p r then m ||| fldMask r.fld else m) 0

/-- Whether a field's guard lets this write through as far as the requester and mode decide it. `expert` is the control
level that counts for the write (R30, R64). -/
def guardOk (s : State) (r : Requester) (expert : Bool) : Guard → Bool
  | .any => true
  | .custody | .custodyRef => isCustody r
  | .lantern => r = .custody .lantern
  | .custDev => isCustody r || r = .device
  | .policy => expert
  | .software => rd s bLtime F.LTIME_SRC_SRC = 1

/-- Whether a field's guard makes the whole access a refusal (R57, R552). -/
def guardRefuses (r : Requester) : Guard → Bool
  | .custodyRef => !isCustody r
  | .lantern => isCustody r && r != .custody .lantern
  | _ => false

/-- The bits of a write that fields of access code `a` take. -/
def accMask (s : State) (k : Kind) (r : Requester) (expert : Bool) (off : Nat) (a : Acc) : Word :=
  maskWhere k off (fun row => row.acc == a && guardOk s r expert row.guard)

/-- The bits of a register that are expert-register bits (R30). -/
def policyMask (k : Kind) (off : Nat) : Word := maskWhere k off (fun row => row.guard == .policy)

/-! ## Windows -/

/-- The table index that a register of block `b` acts on, by its selection register; 0 for a plain register. Selection
registers that the spec keeps per requester tag (R56, R490) are themselves indexed by tag. -/
def selIndex (s : State) (r : Requester) (b off : Nat) : Nat :=
  match kindOf b with
  | none => 0
  | some .fuse => if off = 0x40 then tagOf r else 0
  | some .lamplighter => if off = 0xDC then tagOf r else 0
  | some .hostport =>
    if off = 0x40 then tagOf r else match selFld .hostport off with
      | some f => rdI s b f (tagOf r)
      | none => 0
  | some k => match selFld k off with
    | some f => rd s b f
    | none => 0

/-! ## Staging (R61, R64, R115) -/

/-- The key of a staged word within its block. -/
def stKey (off idx : Nat) : Nat := off * 65536 + idx

/-- A staged word, if any. -/
def stFind (st : Staged) (key : Nat) : Option StagedWord := st.find? (fun w => w.key = key)

/-- A word with the staged bits laid over it. -/
def stOver (st : Staged) (key : Nat) (w : Word) : Word :=
  match stFind st key with
  | some x => mergeBits x.mask w x.val
  | none => w

/-- Adds bits to the staged word of a key. -/
def stPut (st : Staged) (key : Nat) (mask val : Word) : Staged :=
  match stFind st key with
  | some x => st.map (fun y => if y.key = key then ⟨key, x.mask ||| mask, mergeBits mask x.val val⟩ else y)
  | none => st ++ [⟨key, mask, val &&& mask⟩]

/-- The value the shadow view shows: the transaction's, over the latched, over the live (R41, R64). -/
def shadowWord (s : State) (b off idx : Nat) : Word :=
  let c := ctl s b
  let w := stOver c.latchVals (stKey off idx) (regGet s b off idx)
  let w := if off = F.CONTROL_EXPERT.off then
      let w := match c.latchExpert with | some e => fldSet F.CONTROL_EXPERT w e.toNat | none => w
      match c.latchFreeze with | some e => fldSet F.CONTROL_FREEZE w e.toNat | none => w
    else w
  stOver c.staged (stKey off idx) w

/-- The value a staged state would have for a field: what a check of staged values reads (R62). -/
def stg (s : State) (b : Nat) (f : Fld) : Nat := fldGet f (stOver (ctl s b).staged (stKey f.off 0) (regGet s b f.off 0))

/-- The same for entry `i` of a table. -/
def stgI (s : State) (b : Nat) (f : Fld) (i : Nat) : Nat :=
  fldGet f (stOver (ctl s b).staged (stKey f.off i) (regGet s b f.off i))

/-- Whether the open transaction stages any bit of a field. -/
def isStaged (s : State) (b : Nat) (f : Fld) (i : Nat) : Bool :=
  match stFind (ctl s b).staged (stKey f.off i) with
  | some x => x.mask &&& fldMask f != 0
  | none => false

/-- The control level that counts for a staged write to an expert register: the staged EXPERT, else the latched, else
the live one (R64). -/
def stagedExpert (s : State) (b : Nat) : Bool := fldGet F.CONTROL_EXPERT (shadowWord s b F.CONTROL_EXPERT.off 0) = 1

/-- The control level in force. -/
def liveExpert (s : State) (b : Nat) : Bool := rdB s b F.CONTROL_EXPERT

/-- Stages bits of a register for the opener. -/
def stage (s : State) (b off idx : Nat) (mask val : Word) : State :=
  let c := ctl s b
  if mask = 0 then s else setCtl s b { c with staged := stPut c.staged (stKey off idx) mask val }

/-! ## The transaction's outcome -/

/-- Sets TXN fields: TSTATE and RESULT. -/
def setTxn (s : State) (b ts res : Nat) : State :=
  wr (wr s b F.TXN_TSTATE ts) b F.TXN_RESULT res

/-- A TXN operation refused with a code: RESULT shows it and TXNREFUSE counts it (R54, R59). -/
def txnRefused (s : State) (b res : Nat) : State := txnRefuse (wr s b F.TXN_RESULT res) b

/-- Discards every staged value and returns the block to IDLE, counting the rollback (R63). -/
def discardTxn (s : State) (b res : Nat) : State :=
  let s := setCtl s b { ctl s b with staged := [] }
  inc (wr (setTxn s b tsIdle res) b F.TXN_GROUP 0) b F.TXNROLLBACK_COUNT

/-- BEGIN (R60). -/
def txnBegin (s : State) (r : Requester) (b : Nat) : State :=
  if rd s b F.TXN_TSTATE = tsIdle then
    setCtl (wr (setTxn s b tsOpen resOk) b F.TXN_OPENER (tagOf r)) b { ctl s b with staged := [] }
  else txnRefused s b resAlreadyOpen

/-- The refusal code of COMMIT or ROLLBACK from a requester, none where it may go on (R59). -/
def txnGate (s : State) (r : Requester) (b : Nat) : Option Nat :=
  let ts := rd s b F.TXN_TSTATE
  if ts = tsIdle then some resNotOpen
  else if ts = tsPending then some resInGroup
  else if rd s b F.TXN_OPENER = tagOf r then none else some resNotOpener

/-- ROLLBACK (R63). -/
def txnRollback (s : State) (r : Requester) (b : Nat) : State :=
  match txnGate s r b with
  | some c => txnRefused s b c
  | none => discardTxn s b resOk

/-! ## The mode latch (R31, R64) -/

/-- Puts the latched mode bits and expert values in force and clears the latch. -/
def applyLatch (s : State) (b : Nat) : State :=
  let c := ctl s b
  let s := match c.latchExpert with | some e => wr s b F.CONTROL_EXPERT e.toNat | none => s
  let s := match c.latchFreeze with | some e => wr s b F.CONTROL_FREEZE e.toNat | none => s
  let s := c.latchVals.foldl (fun s w =>
    regSet s b (w.key / 65536) (w.key % 65536) (mergeBits w.mask (regGet s b (w.key / 65536) (w.key % 65536)) w.val)) s
  setCtl s b { ctl s b with latchExpert := none, latchFreeze := none, latchVals := [] }

/-- MODEPEND: a change waits for its boundary (R46). -/
def modePend (s : State) (b : Nat) : Bool :=
  (ctl s b).latchExpert.isSome || (ctl s b).latchFreeze.isSome || !(ctl s b).latchVals.isEmpty

/-- Latches mode bits, and lets them take effect at once where there is no boundary to wait for. -/
def latchMode (s : State) (b : Nat) (e f : Option Bool) (vals : Staged) : State :=
  let c := ctl s b
  let c := { c with
    latchExpert := if e.isSome then e else c.latchExpert
    latchFreeze := if f.isSome then f else c.latchFreeze
    latchVals := vals.foldl (fun st w => stPut st w.key w.mask w.val) c.latchVals }
  let s := setCtl s b c
  if noBoundary s then applyLatch s b else s

/-- A direct write of EXPERT and FREEZE outside a transaction that names the bits of `names` with the values of `v`
(R31, R64): with a change pending it replaces the latched value of each bit named; otherwise it enters the latch where it
changes a bit. -/
def modeWrite (s : State) (b : Nat) (names v : Word) : State :=
  let pick := fun (f : Fld) => if fldGet f names = 1 then some (decide (fldGet f v = 1)) else none
  let e := pick F.CONTROL_EXPERT
  let f := pick F.CONTROL_FREEZE
  if modePend s b then latchMode s b e f []
  else
    let e := if e = some (rdB s b F.CONTROL_EXPERT) then none else e
    let f := if f = some (rdB s b F.CONTROL_FREEZE) then none else f
    if e.isNone && f.isNone then s else latchMode s b e f []

end Sys2Proof.Machine
end

