-- ==== Sys2Proof/Machine/BeatEng.lean ====
section
/-!
DEFINITION. The beat engine (chapter 05), policy decisions (R26), the boundary at which groups prepare (R69, R72).
-/

namespace Sys2Proof.Machine

/-! ## Small parts -/

/-- Sets the state code. -/
def setBeatState (s : State) (st : Nat) : State := wr s bBeat F.BEAT_STATUS_STATE st
/-- BEAT_STATUS.PHASE. -/
def beatPhase (s : State) : Nat := rd s bBeat F.BEAT_STATUS_PHASE
/-- Sets it. -/
def setPhase (s : State) (p : Nat) : State := wr s bBeat F.BEAT_STATUS_PHASE p
/-- The retry round of the current beat. -/
def beatRound (s : State) : Nat := rd s bBeat F.BEAT_STATUS_ROUND
/-- REPLAY. -/
def replayMode (s : State) : Bool := rdB s bBeat F.BEAT_CTL_MODE
/-- PACE. -/
def pace (s : State) : Nat := rd s bBeat F.BEAT_REPLAY_PACE
/-- The package has peers in its job. -/
def inJob (s : State) : Bool := !(jobPeers s).isEmpty

/-- LT as the beat engine reads it (R24). -/
def beatLt (s : State) : Nat := ltAt s bBeat

/-- The paced schedule (R193): S(n) counted from T0, stretched by 16 / PACE, from T_ARM on; a fraction of a nanosecond is dropped (log
entry 32). -/
def pacedSched (s : State) (n : Nat) : Nat := s.beat.tArm + (sched s n - s.beat.t0) * 16 / pace s

/-- The schedule that BEAT_LAG is measured against; none in an unpaced replay. -/
def lagSched (s : State) (n : Nat) : Option Nat :=
  if replayMode s then (if pace s = 0 then none else some (pacedSched s n)) else some (sched s n)

/-- BEAT_LAG (R190): 0 while no beat is open (log entry 33). -/
def beatLag (s : State) : Nat :=
  match s.beat.isOpen, lagSched s s.beat.n, lagSched s (s.beat.n + 1) with
  | true, some a, some b => min 0xFFFFFFFF (max (s.beat.openLt - a) (beatLt s - b))
  | _, _, _ => 0

/-- BEAT_LAGPEAK as a read shows it. -/
def lagPeak (s : State) : Nat := max (rd s bBeat F.BEAT_LAGPEAK_COUNT) (beatLag s)

/-- Shows the newest anchor in its registers. -/
def showAnchor (s : State) : State :=
  let a := (s.beat.anchors.head?).getD ⟨0, 0, 0⟩
  wrPair (wrPair s bBeat F.BEAT_ANCHORT_LO_T F.BEAT_ANCHORT_HI_T a.t) bBeat F.BEAT_ANCHORN_LO_N F.BEAT_ANCHORN_HI_N a.n

/-! ## Handover (R635) -/

/-- FAULT_N is asserted: LL_HANDBEAT records the next beat. -/
def handAssert (s : State) : State :=
  let s := { s with ll := { s.ll with faultN := true, handPend := false, lost := true } }
  send (wrPair s bLamplighter F.LL_HANDBEAT_LO_N F.LL_HANDBEAT_HI_N s.beat.n) .pin 0 [1]

/-- A handover that waits is taken at the boundary. -/
def handTake (s : State) : State := if s.ll.handPend then handAssert s else s

/-- A handover is called for: at the boundary after the open beat, at once where none is open (log entry 37). -/
def handover (s : State) : State :=
  if s.ll.lost then s
  else if s.beat.isOpen ∧ (beatState s = stRunning ∨ beatState s = stRetrying) then { s with ll := { s.ll with handPend := true } }
  else handAssert s

/-! ## Policy decisions (R26, R31, R33) -/

/-- Event kind and flags of a decision (R631). -/
abbrev evDecision : Nat := 2
abbrev efApplied : Nat := 1
abbrev efSuperseded : Nat := 2
abbrev efRefused : Nat := 4

/-- A decision takes effect, or is superseded where its block is in expert control by now. -/
def decisionApply (d : Decision) (s : State) : State :=
  if liveExpert s d.block then flagEntry s d.ev efSuperseded
  else
    let s := flagEntry (wrI s d.block d.fld d.idx d.value) d.ev efApplied
    if d.block = bBeat ∧ d.fld = F.BEAT_COARSEN_LEVEL ∧ !replayMode s then detSet s F.BEAT_DETSTAT_POLICY else s

/-- Every decision taken takes effect. -/
def decisionsApply (s : State) : State :=
  forEach s.decisions decisionApply { s with decisions := [] }

/-- A policy takes a decision on a mechanism of its block: counted, logged, replacing an earlier one not yet applied. One taken while
a change to expert control waits for its boundary is logged as superseded and not applied (R31). -/
def decide' (s : State) (b : Nat) (f : Fld) (idx v : Nat) : State :=
  let s := inc s b F.DECISIONS_COUNT
  if (ctl s b).latchExpert = some true then logEvent s b evDecision efSuperseded f.off v else
  let old := s.decisions.filter (fun d => d.block = b && d.fld = f && d.idx = idx)
  let s := forEach old (fun d s => flagEntry s d.ev efSuperseded) s
  let e := logEntry s b evDecision 0 f.off v
  let s := e.2
  let s := { s with decisions := s.decisions.filter (fun d => !(d.block = b && d.fld = f && d.idx = idx)) ++ [⟨b, f, idx, v, e.1⟩] }
  if noBoundary s then decisionsApply s else s

/-- The value a mechanism has been decided to take: pending, else live. -/
def decided (s : State) (b : Nat) (f : Fld) (idx : Nat) : Nat :=
  match s.decisions.find? (fun d => d.block = b && d.fld = f && d.idx = idx) with
  | some d => d.value
  | none => rdI s b f idx

/-- The pending decisions of a block are dropped and logged as superseded (R48). -/
def decisionsDrop (s : State) (b : Nat) : State :=
  let s := forEach (s.decisions.filter (fun d => d.block = b)) (fun d s => flagEntry s d.ev efSuperseded) s
  { s with decisions := s.decisions.filter (fun d => d.block != b) }

/-- Decisions, then latched modes of every block: at a boundary, and on entering a state without boundaries (R26, R64). A decision was
taken before a change of its block's mode that is still latched, and comes first (R31, R32); a group has set its EXPERT already (R71). -/
def boundaryApply (s : State) : State :=
  let s := decisionsApply s
  forEach (s.blk.map (·.1)) (fun b s => when' (modePend s b) (fun s => applyLatch s b) s) s

/-! ## Groups at the boundary (R69, R72) -/

/-- Slot `i`. -/
def slot (s : State) (i : Nat) : GroupSlot := tabGet GroupSlot.reset s.beat.slots i
/-- Changes slot `i`. -/
def modSlot (s : State) (i : Nat) (f : GroupSlot → GroupSlot) : State :=
  modBeat s (fun x => { x with slots := tabSet GroupSlot.reset x.slots i (f (slot s i)) })
/-- The blocks of a slot's members, by index. -/
def GroupSlot.blocks (g : GroupSlot) : List Nat := (List.range g.count).map (fun i => tabGet 0 g.members i)

/-- The members of a slot discard their transactions with GROUP_ROLLBACK; `keep` shows another RESULT of its own. -/
def slotDiscard (s : State) (i : Nat) (keep : Option Nat) : State :=
  forEach (slot s i).blocks (fun b s =>
    if rd s b F.TXN_TSTATE = tsPending ∧ rd s b F.TXN_GROUP = i then
      discardTxn s b (if keep = some b then resInvalid else resGroupRollback)
    else s) s

/-- A slot goes to ROLLED_BACK with a code and the block that caused it. -/
def slotRollback (s : State) (i code blk : Nat) (keep : Option Nat) : State :=
  modSlot (slotDiscard s i keep) i (fun g => { g with state := .rolledBack, code := code, block := blk, accepted := [] })

/-- The slots of the group headed by `h` that are in a state. -/
def groupOf (s : State) (h : Nat) (st : SlotState) : List Nat :=
  (List.range 32).filter (fun i => (slot s i).state = st && (i = h || ((slot s i).linked && (slot s i).head = h)))

/-- The head of the group a slot belongs to. -/
def slotHead (s : State) (i : Nat) : Nat := if (slot s i).linked then (slot s i).head else i

/-- The boundary before the next beat: its groups prepare, or fail LINKSHORT. A linked ARMED slot whose head is not ARMED for the beat is rolled
back with LINKSHORT too (R72 does not speak of it: log entry 11). -/
def boundaryStart (s : State) : State :=
  let n := s.beat.n
  let due := (List.range 32).filter (fun i => (slot s i).state = .armed && (slot s i).beat = n)
  let orphan := due.filter (fun i => (slot s i).linked && !due.contains (slot s i).head)
  let s := forEach orphan (fun i s => slotRollback s i 0x23 0 none) s
  forEach (due.filter (fun i => !(slot s i).linked)) (fun h s =>
    let g := groupOf s h .armed
    if g.length < (slot s h).nlink + 1 then forEach g (fun i s => slotRollback s i 0x23 0 none) s
    else forEach g (fun i s =>
      let s := modSlot s i (fun x => { x with state := .preparing, accepted := [] })
      forEach (slot s i).blocks (fun b s => send s .prepare b [i]) s) s) s

/-- Some group waits for its members' answers. -/
def preparing (s : State) : Bool := s.beat.slots.any (fun e => e.2.state = .preparing && !e.2.window)

/-- The apply window closes: the slots of its group are COMMITTED. -/
def windowClose (s : State) : State :=
  forEach ((s.beat.slots.filter (fun e => e.2.window)).map (·.1)) (fun i s =>
    modSlot s i (fun g => { g with state := .committed, window := false })) s

/-! ## Digests (R202, R203, R512) -/

/-- Component `k` of beat `n`: loom `k`, or 768 + reed port. -/
def compDigest (s : State) (n k : Nat) : List Byte :=
  match tabGet [] s.beat.digs (n * 1024 + k) with
  | [] => sha256 (leBytes 8 n)
  | d => d

/-- Writes records of 64 bytes into the digest ring. -/
def digestRing (s : State) (d : List Byte) : State :=
  let size := rd s bBeat F.BEAT_DIGSIZE_PAGES * 64
  let base := rdPair s bBeat F.BEAT_DIGBASE_LO_ADDR F.BEAT_DIGBASE_HI_ADDR
  if size = 0 then s
  else forEach (List.range (d.length / 64)) (fun i s =>
    let s := (hbmWriteRun s bBeat 0x1F (base + 64 * (s.beat.digPos % size)) ((d.drop (64 * i)).take 64)).2.2
    modBeat s (fun x => { x with digPos := x.digPos + 1 })) s

/-- The digest of beat `n` differs from the partner's. -/
def digMismatch (s : State) (n : Nat) : State :=
  let s := inc s bBeat F.BEAT_DIGMISMATCH_COUNT
  let s := wrPair s bBeat F.BEAT_DIGMMBEAT_LO_N F.BEAT_DIGMMBEAT_HI_N n
  logEvent (detSet s F.BEAT_DETSTAT_DIGMISMATCH) bBeat 8 0 F.BEAT_DIGMISMATCH_COUNT.off n

/-- A partner's complete digest: compared at once, or kept until the own one is published; a sixty-fifth gives up the oldest. -/
def partnerDigest (s : State) (n16 : Nat) (d : List Byte) : State :=
  match s.beat.own.find? (fun x => x.1 % 65536 = n16) with
  | some x => if x.2 = d then s else digMismatch s x.1
  | none =>
    let p := s.beat.partner ++ [(n16, d)]
    if 64 < p.length then inc (modBeat s (fun x => { x with partner := p.drop 1 })) bBeat F.BEAT_DIGSTALE_COUNT
    else modBeat s (fun x => { x with partner := p })

/-- PARTNER_DIGEST_STALE: a pending digest older than 64 beats. -/
def digestStale (s : State) (n16 : Nat) : State :=
  let age := (s.beat.n + 65536 - n16) % 65536
  if s.beat.partner.any (fun x => x.1 = n16) ∧ 64 < age ∧ age < 32768 then
    inc (modBeat s (fun x => { x with partner := x.partner.filter (fun y => y.1 != n16) })) bBeat F.BEAT_DIGSTALE_COUNT
  else s

/-- The DIGEST marks of the own digest of beat `n` towards PARTNER. -/
def digestSend (s : State) (n : Nat) (d : List Byte) : State :=
  let dest := rd s bBeat F.BEAT_DIGCFG_PARTNER
  match pkgRoute s dest with
  | none => s
  | some p => forEach (List.range 4) (fun k s => queueMark s p (mkMark mkDigest (selfPkg s) false
      (n % 65536 + k * 2 ^ 16 + leNat ((d.drop (8 * k)).take 8) * 2 ^ 18 + dest * 2 ^ 82))) s

/-- Publishes the package digest of beat `n`. -/
def digestPublish (s : State) (n : Nat) : State :=
  let comps := (List.range 776).flatMap (compDigest s n)
  let d := sha256 (leBytes 8 n ++ comps)
  let s := forEach (List.range 8) (fun i s => wr s bBeat (fAt F.BEAT_DIGEST_DIGEST i) (leNat ((d.drop (4 * i)).take 4))) s
  let s := wrPair s bBeat F.BEAT_DIGBEAT_LO_N F.BEAT_DIGBEAT_HI_N n
  let mode := rd s bBeat F.BEAT_DIGCFG_MODE
  let s := if mode = 1 ∨ mode = 2 then digestRing s (padTo 64 (leBytes 8 n ++ d)) else s
  let s := if mode = 2 then digestRing s comps else s
  let s := send s .digest bBeat (n :: d.map (·.toNat))
  let s := if rdB s bBeat F.BEAT_DIGCFG_SEND then digestSend s n d else s
  let mine := s.beat.partner.filter (fun x => x.1 = n % 65536)
  let s := modBeat s (fun x => { x with
    own := ((n, d) :: x.own).take 64
    digs := tabClear x.digs (n * 1024) (n * 1024 + 1024)
    partner := x.partner.filter (fun y => y.1 != n % 65536) })
  forEach mine (fun x s => if x.2 = d then s else digMismatch s n) s

/-! ## Faults and retry rounds (R193 to R197) -/

/-- Sends ABORT on every live link of a job, but for a beat that CLOSED has been sent for (R188). -/
def abortSend (s : State) (fatal : Bool) : State :=
  if inJob s && !(s.beat.isOpen && s.beat.closedSent) then jobMark s mkAbort (nrFields s.beat.n (beatRound s) fatal) else s

/-- BEAT_LAGPEAK takes the lag of a beat that ends (R190). -/
def lagNote (s : State) : State := wr s bBeat F.BEAT_LAGPEAK_COUNT (lagPeak s)

/-- FAULTED; in a job every peer is told. -/
def beatFaulted (s : State) : State :=
  let s := abortSend (lagNote s) true
  let s := handTake (send s .abortB 0 [s.beat.n, beatRound s, 1])
  boundaryApply (setPhase (setBeatState (modBeat s (fun x => { x with isOpen := false, stopReq := false, heldRetry := false }))
    stFaulted) 0)

/-- The own tallies of the beat are cleared. -/
def sumsClear (s : State) : State :=
  let s := modBeat s (fun x => { x with hubs := [], expSum := 0, delSum := 0, repSum := 0, localClosed := false })
  forEach (List.range 16) (fun h s => if hub s h = Hub.reset then s else
    modHub s h (fun x => { x with tallied := [], exp := 0, del := 0, rep := 0 })) s

/-- Starts the next retry round (steps 1 and 2 of R195), or RETRYEXHAUST. -/
def startRound (s : State) : State :=
  let r := beatRound s
  let n := s.beat.n
  if rd s bBeat F.BEAT_RETRY_RETRYMAX ≤ r then beatFaulted (latchFault s bBeat 0x0203)
  else
    let s := abortSend s false
    let s := send s .abortB 0 [n, r, 0]
    let s := inc (wr (setBeatState s stRetrying) bBeat F.BEAT_STATUS_ROUND (r + 1)) bBeat F.BEAT_RETRIES_COUNT
    let s := forEach s.beat.on (fun l s => retryDrain s l) s
    sumsClear (setPhase (modBeat s (fun x => { x with heldRetry := false })) 2)

/-- The beat can start a round now: it integrates or waits to close, and nothing holds it. -/
def roundOk (s : State) : Bool :=
  beatState s = stRunning && s.beat.isOpen && 2 ≤ beatPhase s && beatPhase s ≤ 3

/-- Acts on kept ABORTs of the current beat and round, but not during a hold (R197); those of earlier beats go. -/
def abortCheck (s : State) : State :=
  let n := s.beat.n
  let s := modBeat s (fun x => { x with keptAborts := x.keptAborts.filter (fun a => n ≤ a.n) })
  if !s.beat.isOpen ∨ beatState s = stHeld then s
  else match s.beat.keptAborts.find? (fun a => a.n = n && (a.fatal || (a.round = beatRound s && roundOk s))) with
    | none => s
    | some a =>
      let s := modBeat s (fun x => { x with keptAborts := x.keptAborts.filter (fun y => y != a) })
      if a.fatal then beatFaulted s else startRound s

/-- An ABORT mark (R196): one for a beat that has settled latches ABORTLATE; one that comes during a hold is kept (R197). -/
def abortRecv (s : State) (n r : Nat) (fatal : Bool) : State :=
  let b := s.beat
  let keep := modBeat s (fun x => { x with keptAborts := x.keptAborts ++ [⟨n, r, fatal⟩] })
  if beatState s = stHeld then keep
  else if n < b.n ∨ (n = b.n ∧ b.isOpen ∧ 4 ≤ beatPhase s) then
    let s := latchFault s bBeat 0x0205
    if inRun s then beatFaulted s else s
  else if !inRun s ∧ beatState s ≠ stArmed then s
  else if n = b.n ∧ b.isOpen then
    if fatal then beatFaulted s
    else if r < beatRound s then
      (if beatState s = stRetrying ∧ r + 1 = beatRound s then s else inc s bBeat F.BEAT_ABORTSTALE_COUNT)
    else if r = beatRound s ∧ roundOk s then startRound s
    else keep
  else keep

/-- The hold is released: the ABORTs that came during it are judged now (R197). -/
def abortsHeld (s : State) : State :=
  forEach s.beat.keptAborts (fun a s => abortRecv s a.n a.round a.fatal) (modBeat s (fun x => { x with keptAborts := [] }))

/-- A beat fault of the engine or of a block has arisen (R194): `retryable` as the table of R194 has it. -/
def beatFault (s : State) (retryable : Bool) : State :=
  if !inRun s then s
  else if !retryable then beatFaulted s
  else if beatState s = stRetrying then s
  else if roundOk s ∧ !s.beat.localClosed then startRound s
  else modBeat s (fun x => { x with heldRetry := true })

/-- Whether a report is a beat fault, and retryable; `hbm` tells an SROW_ERR of an uncorrectable read from one of a malformed
row. -/
def faultClass (b code : Nat) (hbm : Bool) : Option Bool :=
  if 0x100 ≤ b ∧ b ≤ 0x3FF then
    if code = 0x0107 ∨ code = 0x0108 ∨ code = 0x0109 ∨ code = 0x010A then some true
    else if code = 0x0105 then some hbm
    else if code = 0x0102 ∨ code = 0x0103 ∨ code = 0x0106 ∨ code = 0x010B then some false else none
  else if 0x070 ≤ b ∧ b ≤ 0x077 then (if code = 0x0702 ∨ code = 0x0703 then some false else none)
  else none

/-- BEAT_FAULT_REPORT. -/
def faultReport (s : State) (b code : Nat) (hbm : Bool) : State :=
  match faultClass b code hbm with
  | some r => beatFault s r
  | none => s

/-! ## Close, SETTLE, EMIT (R172, R187, R188) -/

/-- EMIT of the beat has ended at every loom. In REPLAY the nominal end that BEAT_STRETCHED counts against is that of the paced schedule, and an
unpaced replay has none (log entry 33). -/
def endEmit (s : State) : State :=
  let n := s.beat.n
  let s := lagNote s
  let late := match lagSched s (n + 1) with | some t => decide (t < beatLt s) | none => false
  let s := when' late (fun s => inc s bBeat F.BEAT_STRETCHED_COUNT) s
  let s := handTake (progress (setPhase (modBeat s (fun x => { x with isOpen := false, n := n + 1 })) 0) bBeat)
  if s.beat.stopReq then boundaryApply (setBeatState (modBeat s (fun x => { x with stopReq := false })) stStopped)
  else boundaryStart s

/-- Every loom has reported SETTLE and EMIT done. -/
def emitCheck (s : State) : State :=
  let b := s.beat
  if b.isOpen && 4 ≤ beatPhase s && b.on.all (fun l => b.settled.contains l && b.emitted.contains l) then endEmit s else s

/-- SETTLE of the beat starts. -/
def settleStart (s : State) : State :=
  emitCheck (reedRelease (send (setPhase s 4) .settleB 0 [s.beat.n]) s.beat.n)

/-- The hubs that a beat waits for: those with a loom in it. -/
def hubsDue (s : State) : List Nat := (List.range 16).filter (fun h => s.beat.on.any (fun l => loomHub l = h))

/-- Closes the beat locally once every hub has reported and the sums agree, and enters SETTLE once every peer has closed. -/
def closeCheck (s : State) : State :=
  if !roundOk s then s
  else
    let b := s.beat
    let closed := fun (s : State) => if (jobPeers s).all (fun p => s.beat.closedPeers.contains (s.beat.n, p)) then settleStart s else s
    if b.localClosed then closed s
    else if !(hubsDue s).all (fun h => b.hubs.contains h) then s
    else if b.expSum ≠ b.delSum then beatFault (latchFault s bBeat 0x0201) true
    else
      let s := wrPair s bBeat F.BEAT_TEXP_LO_SUM F.BEAT_TEXP_HI_SUM b.expSum
      let s := wrPair s bBeat F.BEAT_TDEL_LO_SUM F.BEAT_TDEL_HI_SUM b.delSum
      let s := wrPair s bBeat F.BEAT_TREP_LO_SUM F.BEAT_TREP_HI_SUM b.repSum
      let s := setPhase (modBeat s (fun x => { x with localClosed := true, closedSent := true, closeLt := ltNow s })) 3
      let s := send s .closedB 0 [b.n]
      closed (if inJob s then jobMark s mkClosed (nFields b.n) else s)

/-- INTEGRATE starts, or goes on after a hold: what has waited is acted on. -/
def integrateGo (s : State) : State :=
  let s := abortCheck s
  if s.beat.heldRetry && roundOk s && !s.beat.localClosed then startRound s else closeCheck s

/-- HUB_TALLY: a loom's tally reaches its hub. -/
def hubTally (s : State) (l n round e d r : Nat) : State :=
  let h := loomHub l
  let x := hub s h
  if !s.beat.isOpen ∨ n % 65536 ≠ s.beat.n % 65536 ∨ round ≠ beatRound s ∨ x.tallied.contains l
      ∨ !s.beat.on.contains l then s
  else
    let x := { x with tallied := x.tallied ++ [l], exp := x.exp + e, del := x.del + d, rep := x.rep + r }
    let s := modHub s h (fun _ => x)
    if (s.beat.on.filter (fun l => loomHub l = h)).all (fun l => x.tallied.contains l) then
      send s .hubSums bBeat [h, n % 65536, round, x.exp, x.del, x.rep]
    else s

/-- BEAT_HUB_SUMS: a hub's sums reach the beat engine. -/
def hubSums (s : State) (h n round e d r : Nat) : State :=
  let b := s.beat
  if !b.isOpen ∨ n % 65536 ≠ b.n % 65536 ∨ round ≠ beatRound s ∨ b.hubs.contains h ∨ b.localClosed then s
  else
    let s := modBeat s (fun x => { x with
      hubs := x.hubs ++ [h], expSum := x.expSum + e, delSum := x.delSum + d, repSum := x.repSum + r })
    closeCheck (if beatPhase s = 2 then setPhase s 3 else s)

/-- A loom acknowledges OPEN. When every loom has, INTEGRATE starts, or CLOSE where a hub's sums have come already (R172). -/
def beatAck (s : State) (l : Nat) : State :=
  let b := s.beat
  if !b.isOpen ∨ beatPhase s ≠ 1 ∨ !b.on.contains l ∨ b.acked.contains l then s
  else
    let s := modBeat s (fun x => { x with acked := x.acked ++ [l] })
    if b.on.all (fun k => k = l || b.acked.contains k) then integrateGo (setPhase s (if b.hubs.isEmpty then 2 else 3)) else s

/-- A loom reports SETTLE done. -/
def beatSettled (s : State) (l : Nat) : State :=
  let b := s.beat
  if !b.isOpen ∨ !b.on.contains l ∨ b.settled.contains l then s
  else emitCheck (setPhase (modBeat s (fun x => { x with settled := x.settled ++ [l] })) 5)

/-- BEAT_EMIT_DONE_REPORT. -/
def beatEmitted (s : State) (l : Nat) : State :=
  let b := s.beat
  if !b.isOpen ∨ !b.on.contains l ∨ b.emitted.contains l ∨ !b.settled.contains l then s
  else emitCheck (modBeat s (fun x => { x with emitted := x.emitted ++ [l] }))

/-! ## Checkpoints (R268) -/

/-- The measurement of the program image in use: HDRHASH of the last KIND 4 entry of the measurement log (R562). -/
def imageMeas (s : State) : List Byte :=
  match s.cust.meas.reverse.find? (fun e => e[2]? == some 4) with
  | some e => e.drop 8
  | none => []

/-- The looms that are checkpointed. -/
def ckptLooms (s : State) : List Nat := (List.range 768).filter (fun l => rdB s (bLoom l) F.LOOM_TCTL_CKPTEN)

/-- The plastic region of a loom: base and size. -/
def plasticRegion (s : State) (l : Nat) : Nat × Nat :=
  (rd s (bLoom l) F.LOOM_TPBASE_BASE * 8, rd s (bLoom l) F.LOOM_TPSIZE_SIZE * 8)

/-- The checkpoint record of a loom at the boundary before beat `n`, rounded up to 4 KiB; its sequence is that of the snapshot it is made
from. -/
def ckptRec (s : State) (n l : Nat) : CkptRec :=
  let m := loom s l
  let b := bLoom l
  let ns := rd s b F.LOOM_NSLOTS_NSLOTS
  let r := plasticRegion s l
  let body := (List.range ns).flatMap (fun i => tabGetRun 0 m.nstore (16 * i + 8) 4) ++ tabGetRun 0 m.sstore r.1 r.2
  let head := leBytes 8 n ++ leBytes 2 l ++ leBytes 2 0 ++ leBytes 4 ns ++ leBytes 4 r.1 ++ leBytes 4 r.2
    ++ leBytes 4 (rd s b F.LOOM_TSNAPSEQ_SEQ + 1) ++ leBytes 4 0 ++ sha256 body
  let d := head ++ body
  ⟨l, padTo ((d.length + 4095) / 4096 * 4096) d⟩

/-- The snapshot of a loom for a checkpoint begins (R266, R268). -/
def ckptSnap (n l : Nat) (s : State) : State :=
  wr (modLoom s l (fun m => { m with tsnap := some ⟨n, 0, 0, 0, [], [], true⟩ })) (bLoom l) F.LOOM_TSNAPCTL_BUSY 1

/-- The checkpoint ends with an error. -/
def ckptFail (s : State) : State := wr { s with ll := { s.ll with ckpt := none } } bLamplighter F.LL_CKPTCTL_ERR 1

/-- The number of the next copy that is written. -/
def ckptNext (s : State) : Nat :=
  s.nv.ckpt.foldl (fun n e => match e.2 with | some c => max n (c.seq + 1) | none => n) 0

/-- A checkpoint that has begun captures its looms at the boundary, by a snapshot transaction on all of them; it fails where a snapshot of
one is being copied (R265). -/
def ckptCapture (s : State) : State :=
  match s.ll.ckpt with
  | some r => match r.cap with
    | none =>
      let ls := ckptLooms s
      if ls.any (fun l => rdB s (bLoom l) F.LOOM_TSNAPCTL_BUSY) then ckptFail s
      else
        let c : CkptCopy := ⟨s.beat.n, imageMeas s, ls.map (ckptRec s s.beat.n), false, ckptNext s⟩
        forEach ls (ckptSnap s.beat.n) { s with ll := { s.ll with ckpt := some { r with cap := some c } } }
    | some _ => s
  | none => s

/-! ## OPEN -/

/-- The looms with ENABLE. -/
def enabledLooms (s : State) : List Nat := (List.range 768).filter (fun l => rdB s (bLoom l) F.CONTROL_ENABLE)

/-- The coarsening level at OPEN, port by port: a port in expert control keeps the level it had (R33). -/
def levelsNote (s : State) : State :=
  let n := s.beat.n
  let v := rd s bBeat F.BEAT_COARSEN_LEVEL
  forEach (List.range 8) (fun p s =>
    let b := bReed p
    let old := (((reed s p).levels.head?).map (·.2)).getD 0
    let v := if rdB s b F.CONTROL_EXPERT && !liveExpert s bBeat then old else v
    if rdB s b F.CONTROL_ENABLE then modReed s p (fun r => { r with levels := ((n, v) :: r.levels).take 16 }) else s) s

/-- OPEN of the next beat. -/
def openBeat (s : State) : State :=
  let n := s.beat.n
  let s := ckptCapture (boundaryApply (windowClose s))
  let on := enabledLooms s
  let s := modBeat s (fun x => { x with
    isOpen := true, closedSent := false, openLt := beatLt s, on := on, acked := [], settled := [], emitted := [], holdLt := []
    closedPeers := x.closedPeers.filter (fun c => n ≤ c.1), restarts := x.restarts.filter (fun c => n ≤ c.1) })
  let s := wr (setPhase (sumsClear s) 1) bBeat F.BEAT_STATUS_ROUND 0
  let s := when' (!replayMode s && !liveExpert s bPower) (fun s => detSet s F.BEAT_DETSTAT_LEVEL) s
  let s := levelsNote (when' (replayMode s && !liveExpert s bBeat) (fun s => wr s bBeat F.BEAT_COARSEN_LEVEL 0) s)
  let s := if beatLag s < rd s bBeat F.BEAT_LAGMAX_NS then modBeat s (fun x => { x with lagAbove := false }) else s
  let s := send s .openB 0 [n]
  let s := if 2 ≤ n then digestPublish s (n - 2) else s
  if on.isEmpty then integrateGo (setPhase s 2) else s

/-- The moment of OPEN has come (R189, R193). -/
def openTime (s : State) : Bool :=
  let n := s.beat.n
  if replayMode s then pace s == 0 || decide (pacedSched s n ≤ beatLt s) else decide (sched s n ≤ beatLt s)

/-- The levels that the registers, or a throttle, ask for (R644, R649). -/
def levelWanted (s : State) : Nat × Nat :=
  if rdB s bPower F.POWER_STAT_THROTTLE then (7, 1) else (rd s bPower F.POWER_PLEVEL_P, rd s bPower F.POWER_PLEVEL_W)

/-- A change of level is under way: it begins at the boundary, and OPEN is held until it is complete (R644). -/
def levelDue (s : State) : Bool := levelWanted s != s.pw.level && (!s.beat.isOpen || noBoundary s)

/-- BEAT_OPEN; beats do not run in a sleep state (R648). -/
def beatOpen (s : State) : State :=
  if (beatState s = stRunning ∨ beatState s = stHeld) ∧ !s.beat.isOpen ∧ !preparing s ∧ openTime s ∧ !levelDue s
      ∧ rd s bPower F.POWER_STAT_STATE = 0 then
    openBeat s
  else s

/-! ## Launch, stop, hold (R169, R197) -/

/-- Delay queues and stream tables are cleared at a launch from IDLE. -/
def queuesClear (s : State) : State :=
  forEach (s.looms.map (·.1)) (fun l s => dqRecount (modLoom s l (fun m => heldApply { m with
    dq := List.replicate 16 DqSlot.reset, released := DqSlot.reset, spillDue := false, dqWaits := [], dqLast := [], streams := []
    latKeys := [], rowWaits := [], ret := Loom.reset.ret, openRoutes := [], retRoutes := [], heldReqs := [], phase := .idle })) l) s

/-- A refused ARM. -/
def armRefuse (s : State) (code : Nat) : State := inc (wr s bBeat F.BEAT_STATUS_CODE code) bBeat F.BEAT_ARMREFUSE_COUNT

/-- ARM (R169, R670); a beat engine with ENABLE 0 performs no function (R47, R595, log entry 43). In a state from which the table has no ARM
it is counted as refused and sets no CODE (DESIGN CHOICE, log entry 99). -/
def beatArm (s : State) : State :=
  let st := beatState s
  let len := rd s bBeat F.BEAT_LEN_NS
  let t0 := rdPair s bBeat F.BEAT_LAUNCH_LO_T0 F.BEAT_LAUNCH_HI_T0
  if !rdB s bBeat F.CONTROL_ENABLE then s
  else if st ≠ stIdle ∧ st ≠ stStopped then inc s bBeat F.BEAT_ARMREFUSE_COUNT
  else if len < 20000 ∨ 100000000 < len then armRefuse s 2
  else if (!replayMode s ∨ st = stStopped) ∧ t0 < beatLt s + 100000 then armRefuse s 1
  else
    let first := st = stIdle
    let s := when' first (fun s => modGpkg (reedStart (queuesClear s)) (fun g => { g with seen := [], latest := [] })) s
    let s := modBeat s (fun x => if first then
        { x with n := 0, anchors := [⟨t0, 0, len⟩], digs := [], own := [], partner := [], closedPeers := [], restarts := [], keptAborts := [] }
      else { x with anchors := ⟨t0, x.n, len⟩ :: x.anchors })
    let s := modBeat s (fun x => { x with tArm := beatLt s, t0 := t0, stopReq := false, heldRetry := false })
    let s := regSet s bBeat F.BEAT_DETSTAT_FREERUN.off 0 0
    let s := wrPair s bBeat F.BEAT_DETBEAT_LO_N F.BEAT_DETBEAT_HI_N 0
    let s := when' (replayMode s && !liveExpert s bBeat) (fun s => wr s bBeat F.BEAT_COARSEN_LEVEL 0) s
    setBeatState (showAnchor s) stArmed

/-- STOP. -/
def beatStop (s : State) : State :=
  let st := beatState s
  if st = stArmed then boundaryApply (setBeatState s stIdle)
  else if inRun s then
    (if s.beat.isOpen then modBeat s (fun x => { x with stopReq := true }) else boundaryApply (setBeatState s stStopped))
  else s

/-- A write of BEAT_CTL: MODE is taken only in IDLE and STOPPED, then OP acts (R193). -/
def beatCtl (s : State) (v : Nat) : State :=
  let st := beatState s
  let mode := bits v 4 4
  let s := if st = stIdle ∨ st = stStopped then wr s bBeat F.BEAT_CTL_MODE mode
    else if mode = rd s bBeat F.BEAT_CTL_MODE then s else txnRefuse s bBeat
  if v % 4 = 1 then beatArm s else if v % 4 = 2 then beatStop s else s

/-- BEAT_LAUNCH: the run starts with the boundary before its first beat. -/
def beatLaunch (s : State) : State :=
  if beatState s = stArmed ∧ (replayMode s ∨ s.beat.t0 ≤ beatLt s) then
    let held := rdB s bBeat F.BEAT_HOLD_HOLD
    let s := when' held (fun s => inc s bBeat F.BEAT_HOLDS_COUNT) s
    beatOpen (boundaryStart (setBeatState s (if held then stHeld else stRunning)))
  else s

/-- BEAT_HOLD written (R197). -/
def holdWrite (s : State) (h : Bool) : State :=
  let s := wr s bBeat F.BEAT_HOLD_HOLD h.toNat
  if h ∧ beatState s = stRunning then inc (setBeatState s stHeld) bBeat F.BEAT_HOLDS_COUNT
  else if !h ∧ beatState s = stHeld then integrateGo (abortsHeld (setBeatState s stRunning))
  else s

/-- Recovery of a FAULTED engine (R169). -/
def beatRecover (s : State) : State := if beatState s = stFaulted then boundaryApply (setBeatState s stIdle) else s

/-! ## Retry drain (R195) -/

/-- RETRY_DRAIN_DONE: steps 4 to 7. -/
def drainEnd (s : State) : State :=
  if beatState s ≠ stRetrying then s
  else
    let n := s.beat.n
    let r := beatRound s
    let ports := (jobPorts s).filter (fun p => !s.beat.restarts.contains (n, r, p))
    let s := forEach s.beat.on (fun l s => retryClear (hookAbandon s l) l r ports) s
    let s := if inJob s then jobMark s mkRestart (nrFields n r false) else s
    let s := send s .restartB 0 [n, r]
    let s := forEach s.beat.on (fun l s => if (loom s l).ret.closed ∧ (loom s l).ret.epoch = some (n - 1) then injectAll s l else s) s
    let s := forEach (List.range 8) (fun p s => match (reed s p).ret with
      | some x => if x.epoch + 1 = n then reedAgain s p else s
      | none => s) s
    let s := setBeatState s (if rdB s bBeat F.BEAT_HOLD_HOLD then stHeld else stRunning)
    let s := when' (rdB s bBeat F.BEAT_HOLD_HOLD) (fun s => inc s bBeat F.BEAT_HOLDS_COUNT) s
    let s := forEach s.beat.on (fun l s => tryTally (hookTrigger s l 1 n) l) s
    integrateGo s

/-- RETRY_DRAIN_TIMEOUT. -/
def drainTimeout (s : State) : State :=
  if beatState s = stRetrying then beatFaulted (latchFault s bBeat 0x0204) else s

/-! ## The job (R188, R195, R514) -/

/-- CLOSED(n) of a peer. -/
def closedRecv (s : State) (n peer : Nat) : State :=
  if s.beat.closedPeers.contains (n, peer) ∨ n < s.beat.n then s
  else closeCheck (modBeat s (fun x => { x with closedPeers := x.closedPeers ++ [(n, peer)] }))

/-- HOLDING(n) of a peer restarts its JOBWAIT count. -/
def holdingRecv (s : State) (n peer : Nat) : State :=
  if n = s.beat.n then modBeat s (fun x => { x with holdLt := tabSet 0 x.holdLt peer (ltNow s) }) else s

/-- RESTART(n, r) from the package at the other end of port `p`. -/
def restartRecv (s : State) (n r p : Nat) : State :=
  if n < s.beat.n then s
  else
    let s := modBeat s (fun x => { x with restarts := x.restarts.filter (fun y => y != (n, r, p)) ++ [(n, r, p)] })
    if n = s.beat.n ∧ s.beat.isOpen ∧ r = beatRound s ∧ beatState s ≠ stRetrying then
      forEach s.beat.on (fun l s => modLoom s l (fun m => { m with noRestart := m.noRestart.filter (fun q => q != p) })) s
    else s

/-- JOB_WAIT_TIMEOUT. -/
def jobTimeout (s : State) (peer : Nat) : State :=
  let b := s.beat
  if b.isOpen ∧ b.localClosed ∧ beatPhase s = 3 ∧ (jobPeers s).contains peer ∧ !b.closedPeers.contains (b.n, peer)
      ∧ max b.closeLt (tabGet 0 b.holdLt peer) + rd s bBeat F.BEAT_JOBWAIT_NS ≤ ltNow s then
    beatFaulted (latchFault s bBeat 0x0204)
  else s

/-- HOLDING_TIMER. -/
def holdingTimer (s : State) : State :=
  if beatState s = stHeld ∧ inJob s then send (jobMark s mkHolding (nFields s.beat.n)) .holdingB 0 [s.beat.n] else s

/-- A peer is lost (R514). -/
def peerLost (s : State) (peer : Nat) : State :=
  if (jobPeers s).contains peer ∧ inRun s then beatFaulted (latchFault s bBeat 0x0204) else s

/-! ## Lag (R191, R192) -/

/-- LAGEXCEED: reported only. -/
def lagExceed (s : State) : State :=
  let m := rd s bBeat F.BEAT_LAGMAX_NS
  if m ≠ 0 ∧ m < beatLag s ∧ !s.beat.lagAbove then latchFault (modBeat s (fun x => { x with lagAbove := true })) bBeat 0x0202 else s

/-- The level for a reed port in expert control is logged as refused (R33). -/
def coarsenRefused (s : State) (v : Nat) : State :=
  forEach (List.range 8) (fun p s => if rdB s (bReed p) F.CONTROL_ENABLE && liveExpert s (bReed p) then
    logEvent s (bReed p) evDecision efRefused F.BEAT_COARSEN_LEVEL.off v else s) s

/-- A decision on the level. -/
def coarsenDecide (s : State) (v : Nat) : State := coarsenRefused (decide' s bBeat F.BEAT_COARSEN_LEVEL 0 v) v

/-- The beat engine's policy on a management tick. A tick on which it does not act breaks the run of 8 ticks. -/
def coarsenTick (s : State) : State :=
  let m := rd s bBeat F.BEAT_LAGMAX_NS
  let lag := beatLag s
  let s := if lag < m then modBeat s (fun x => { x with lagAbove := false }) else s
  let rest := modBeat s (fun x => { x with lowTicks := 0 })
  if liveExpert s bBeat ∨ rdB s bBeat F.CONTROL_FREEZE ∨ replayMode s then rest
  else if m = 0 then (if decided s bBeat F.BEAT_COARSEN_LEVEL 0 = 0 then rest else coarsenDecide rest 0)
  else if m < lag then
    let s := modBeat s (fun x => { x with lowTicks := 0 })
    let v := decided s bBeat F.BEAT_COARSEN_LEVEL 0
    if v < 3 then coarsenDecide s (v + 1) else s
  else if 2 * lag < m then
    if s.beat.lowTicks + 1 < 8 then modBeat s (fun x => { x with lowTicks := x.lowTicks + 1 })
    else
      let s := modBeat s (fun x => { x with lowTicks := 0 })
      let v := rd s bBeat F.BEAT_COARSEN_LEVEL
      if v = 0 then s else coarsenDecide s (v - 1)
  else modBeat s (fun x => { x with lowTicks := 0 })

end Sys2Proof.Machine
end

