-- ==== Sys2Proof/Machine/Glimmer.lean ====
section
/-!
DEFINITION. Glimmer links (R501 to R522): frames, credits, packets between packages, states and lane sparing, marks, the
time exchange, elections.
-/

namespace Sys2Proof.Machine

/-- A compute-partition reset is under way (R592). -/
def cpResetting (s : State) : Bool := rd s bFuse F.FUSE_BOOTSTAT_PATH = 2 && !rdB s bFuse F.FUSE_BOOTSTAT_DONE

/-! ## Packets (R334, R336, R341, R342) -/

/-- A packet whose HOPS are walked here: a STREAM packet that follows a REMOTE record (a RESEND packet is generated traffic, R336, R342), or a
MESSAGE or CREDIT of a channel end, which follows the end's path (R372, R373); one on a generated route has HEND 0 (log entry 108). -/
def walksRecord (vc : Nat) (k : GlimPkt) : Bool :=
  vc = 1 && hdrClass k.head ≤ 1 && hdrHend k.head != 0 || vc = 0 && hdrClass k.head = 0 && bits ((k.flits[0]?).getD 0) 63 60 != 0xA

/-- The DECODE answer to a refused remote request (R438, R522), back to its source package. -/
def remoteRefuse (s : State) (p : Nat) (k : GlimPkt) : State :=
  let h := k.head
  let h' := hdrSep h + setBits (bits h 191 128) 51 49 hDecode * 2 ^ 128 + selfPkg s * 2 ^ 206 + (0x428 + p) * 2 ^ 210
    + hdrPart h * 2 ^ 232 + hdrSpkg h * 2 ^ 237 + 2 ^ 241 + hdrClass h * 2 ^ 249
  match pkgRoute s (hdrSpkg h) with
  | some q => glimForward s q 3 ⟨h', [], false⟩
  | none => s

/-- A packet enters this package's mesh at the router of the ingress position of port `p`; where the column has no site, at the one of its own
number (log entry 112). -/
def meshEnter (s : State) (p vc head : Nat) (flits : List Nat) (abort : Bool) : State :=
  let pos := reedPos p
  let m := (meshOf s pos.1 pos.2).getD (meshCol pos.2 (pos.2 % 16))
  send s .forward (pos.1 * 34 + m) (1 :: pos.2 :: packetFlits vc 0 head flits abort)

/-- A packet that port `p` received is routed, to its end or to where it was cut (R504, R519, R522). A packet for a package without a route entry goes no
further. -/
def glimRoute (s : State) (p vc : Nat) (k : GlimPkt) : State :=
  let b := bGlimmer p
  let h := k.head
  if hdrDpkg h ≠ selfPkg s then
    match pkgRoute s (hdrDpkg h) with
    | some q => glimForward (inc s b F.GLIM_TRANSIT_COUNT) q vc k
    | none => s
  else if cpResetting s then inc s b F.GLIM_RSTDROP_COUNT
  else if vc = 2 ∧ rd s (bGlimmer 0) F.GLIM_JOB_ROLE ≠ 3 then
    (if k.abort then id else fun s => remoteRefuse s p k) (inc s b F.GLIM_ROLEDROP_COUNT)
  else
    let pos := reedPos p
    if walksRecord vc k then meshEnter s p vc (setBits h 198 192 0) k.flits k.abort
    else match genRoute pos.1 pos.2 (h % 2 ^ 11) with
      | none => s
      | some r =>
        meshEnter s p vc (setBits (setBits (setBits (setBits h 127 0 (hopsNat r.1)) 198 192 0) 205 199 r.1.length) 255 252 r.2) k.flits k.abort

/-! ## Reception (R503 to R506) -/

/-- Slots of channel `v` are freed. -/
def freeSlots (s : State) (p v n : Nat) : State :=
  modGlim s p (fun g => { g with done := tabSet 0 g.done v ((tabGet 0 g.done v + n) % 4096) })

/-- Sets the packet in progress of a channel. -/
def setPkt (s : State) (p v : Nat) (k : Option GlimPkt) : State :=
  modGlim s p (fun g => { g with pkt := tabSet none g.pkt v k })

/-- Frames were lost: on every channel the packet in progress is cut, and flits drop up to the next TAIL or ONLY. Its HEAD left as it arrived,
so the packet ends downstream with an ABORT tail (log entry 83). -/
def glimCut (s : State) (p : Nat) : State :=
  forEach (List.range 4) (fun v s =>
    let s := match tabGet none (glim s p).pkt v with
      | some k =>
        let s := freeSlots (inc (setPkt s p v none) (bGlimmer p) F.GLIM_PKTCUT_COUNT) p v (1 + k.flits.length)
        glimRoute s p v { k with flits := k.flits ++ [0], abort := true }
      | none => s
    modGlim s p (fun g => { g with cut := g.cut.filter (· != v) ++ [v] })) s

/-- One flit slot of a FLIT frame: 256 data bits and 4 control bits; `ab` is the ABORT bit of its tail. What a packet does downstream is told
when its tail has arrived, or where it is cut. -/
def flitIn (p : Nat) (data ctlBits : Nat) (ab : Bool) (s : State) : State :=
  let v := ctlBits % 4
  let ty := ctlBits / 4 % 4
  let g := glim s p
  if g.cut.contains v then
    let s := freeSlots s p v 1
    if 2 ≤ ty then modGlim s p (fun g => { g with cut := g.cut.filter (· != v) }) else s
  else if ty = 3 then freeSlots (glimRoute s p v ⟨data, [], ab⟩) p v 1
  else if ty = 0 then setPkt s p v (some ⟨data, [], false⟩)
  else match tabGet none g.pkt v with
    | none => freeSlots s p v 1
    | some k =>
      let k : GlimPkt := ⟨k.head, k.flits ++ [data], ab⟩
      if ty = 1 then setPkt s p v (some k)
      else
        glimRoute (freeSlots (setPkt s p v none) p v (1 + k.flits.length)) p v k

/-- One slot of a MIRROR frame: two records of 128 bits (R517). -/
def mirrorSlot (p : Nat) (data ctlBits : Nat) (s : State) : State :=
  let one := fun (x : Nat) (s : State) => mirrorArrive s p (ctlBits % 8) (bits x 127 96) ⟨sext 64 (bits x 63 0), bits x 95 64⟩
  let s := one (data % 2 ^ 128) s
  if bit ctlBits 3 then one (data / 2 ^ 128) s else s

/-! ## Marks (R188, R511, R512, R515, R521) -/

/-- A job mark arrives on port `p`: the first copy is kept as its origin's latest and forwarded on every other link of the
job. Whether it acts comes back: the first copy, and a HOLDING that is sent afresh rather than repeated. -/
def jobMarkIn (s : State) (p m : Nat) : Bool × State :=
  if markOrigin m = selfPkg s then (false, s)
  else if s.gpkg.seen.contains (markId m) then (markKind m = mkHolding && !bit m 8, s)
  else
    let s := modGpkg s (fun g => { g with
      seen := g.seen ++ [markId m], latest := tabSet 0 g.latest (markOrigin m) (m + 1) })
    (true, forEach ((jobPorts s).filter (· != p)) (fun q s => queueMark s q m) s)

/-- A job mark and what it does where its origin is a peer of the job. -/
def jobMarkDo (s : State) (p m : Nat) (act : State → State) : State :=
  let r := jobMarkIn s p m
  if r.1 && (jobPeers s).contains (markOrigin m) then act r.2 else r.2

/-- CLOSED. -/
def closedMark (s : State) (p m : Nat) : State := jobMarkDo s p m (fun s => closedRecv s (markN m) (markOrigin m))
/-- HOLDING. -/
def holdingMark (s : State) (p m : Nat) : State := jobMarkDo s p m (fun s => holdingRecv s (markN m) (markOrigin m))
/-- ABORT. -/
def abortMark (s : State) (p m : Nat) : State := jobMarkDo s p m (fun s => abortRecv s (markN m) (markR m) (bit m 76))
/-- RESTART: it counts for the link it came by where its origin stands at the other end (log entry 34). -/
def restartMark (s : State) (p m : Nat) : State :=
  let s := jobMarkDo s p m id
  if glimPeer s p = markOrigin m then restartRecv s (markN m) (markR m) p else s

/-- A 36-bit time extended against the LT of arrival. -/
def timeExt (t x : Nat) : Int := (t : Int) + sext 36 ((x + 2 ^ 36 - t % 2 ^ 36) % 2 ^ 36)

/-- The lowest-numbered live port whose peer is the reference package (R516). -/
def refPort (s : State) : Option Nat :=
  (List.range 8).find? (fun p => glimLive s p && glimPeer s p = rd s bLtime F.LTIME_REFPKG_PKG)

/-- TSYNC. -/
def tsyncMark (s : State) (p m : Nat) : State :=
  let b := bGlimmer p
  let now := ltLagged s
  let t4 := now.1
  let s := now.2
  let t3 := timeExt t4 (bits m 44 9)
  let t1 := timeExt t4 (bits m 80 45)
  let t2 := timeExt t4 (bits m 116 81)
  let asym := rdS s b F.GLIM_ASYM_ASYM
  let delay := ((t2 - t1) + ((t4 : Int) - t3)) * 8 - asym
  let off := ((t1 - t2) + ((t4 : Int) - t3)) * 8 + asym
  let s := wr s b F.GLIM_DELAY_DELAY (toBits 24 delay)
  let s := wr s b F.GLIM_OFFSET_OFFSET (toBits 32 (clampI (-(2 ^ 31)) (2 ^ 31 - 1) off))
  let s := modGlim s p (fun g => { g with tsync := some (bits m 44 9, t4) })
  if refPort s = some p then glimMeasured s off else s

/-- DIGEST: forwarded towards DEST, or kept until the four parts are there. -/
def digestMark (s : State) (_p m : Nat) : State :=
  let dest := bits m 94 91
  if dest ≠ selfPkg s then
    match pkgRoute s dest with
    | some q => queueMark s q m
    | none => s
  else
    let o := markOrigin m
    let n := bits m 24 9
    let part := bits m 26 25
    let rest := s.gpkg.quarters.filter (fun q => !(q.1 = o && q.2.1 = n && q.2.2.1 = part))
    let qs := rest ++ [(o, n, part, leBytes 8 (bits m 90 27))]
    let parts := (List.range 4).map (fun k => qs.find? (fun q => q.1 = o && q.2.1 = n && q.2.2.1 = k))
    if parts.all (·.isSome) then
      let d := parts.flatMap (fun x => match x with | some q => q.2.2.2 | none => [])
      partnerDigest (modGpkg s (fun g => { g with quarters := qs.filter (fun q => !(q.1 = o && q.2.1 = n)) })) n d
    else modGpkg s (fun g => { g with quarters := qs })

/-- PARTNER_DIGEST_STALE: pending digests, whole or in parts, older than 64 beats. -/
def partnerStale (s : State) (n16 : Nat) : State :=
  let s := digestStale s n16
  if s.gpkg.quarters.any (fun q => q.2.1 = n16) ∧ 64 < (s.beat.n + 65536 - n16) % 65536 ∧ (s.beat.n + 65536 - n16) % 65536 < 32768 then
    inc (modGpkg s (fun g => { g with quarters := g.quarters.filter (fun q => q.2.1 != n16) })) bBeat F.BEAT_DIGSTALE_COUNT
  else s

/-- MIRREQ. -/
def mirreqMark (s : State) (p m : Nat) : State := mirrorResend s p (bits m 11 9) (bits m 43 12) (bits m 59 44)

/-! ## Elections (R521) -/

/-- What is known of a package. -/
def electView (s : State) (k : Nat) : Option ElectView := tabGet none s.gpkg.elect k

/-- A view is recorded; one that differs in candidacy or priority starts the settling time afresh. -/
def electNote (s : State) (k : Nat) (v : ElectView) : State :=
  let old := electView s k
  let same := match old with | some o => o.prio = v.prio && o.cand = v.cand | none => false
  modGpkg s (fun g => { g with
    elect := tabSet none g.elect k (some v)
    change := if same then g.change else ltNow s
    elected := same && g.elected })

/-- ELECT_SEND_TIMER. -/
def electSend (s : State) : State :=
  let g := bGlimmer 0
  let prio := rd s g F.GLIM_ELECT_PRIO
  let cand := rdB s g F.GLIM_ELECT_CAND
  let fm := rd s g F.GLIM_FMSTAT_FM
  let fmv := rdB s g F.GLIM_FMSTAT_VALID
  let s := electNote s (selfPkg s) ⟨prio, cand, fm, fmv, ltNow s⟩
  let m := mkMark mkElect (selfPkg s) false (prio + cand.toNat * 2 ^ 4 + fm * 2 ^ 5 + fmv.toNat * 2 ^ 9)
  forEach (jobPorts s) (fun q s => queueMark s q m) s

/-- ELECT: the view changes, and copies that come in by the port of an origin's first copy are forwarded (log entry 35). -/
def electMark (s : State) (p m : Nat) : State :=
  let o := markOrigin m
  if o = selfPkg s ∨ !(jobPeers s).contains o then s
  else
    let s := electNote s o ⟨bits m 12 9, bit m 13, bits m 17 14, bit m 18, ltNow s⟩
    let old := tabGet 0 s.gpkg.electPort o
    let s := if old = 0 ∨ !glimLive s (old - 1) then modGpkg s (fun g => { g with electPort := tabSet 0 g.electPort o (p + 1) }) else s
    if tabGet 0 s.gpkg.electPort o = p + 1 then forEach ((jobPorts s).filter (· != p)) (fun q s => queueMark s q m) s else s

/-- The candidate with the highest priority, the lowest id breaking ties. -/
def electWinner (s : State) : Option Nat :=
  ((List.range 16).filter (fun k => k = selfPkg s || (jobPeers s).contains k)).foldl (fun best k =>
    match electView s k with
    | some v =>
      if !v.cand then best
      else match best with
        | none => some k
        | some j => match electView s j with
          | some w => if w.prio < v.prio then some k else some j
          | none => some k
    | none => best) none

/-- ELECT_SETTLE_TIMEOUT. -/
def electSettle (s : State) : State :=
  if s.gpkg.elected ∨ ltNow s < s.gpkg.change + 1000000 then s
  else match electWinner s with
    | none => s
    | some k =>
      let b := bGlimmer 0
      let s := modGpkg s (fun g => { g with elected := true })
      pulseLine (wr (wr s b F.GLIM_FMSTAT_FM k) b F.GLIM_FMSTAT_VALID 1) b

/-- The fabric manager is gone: it is no candidate any more, and an election runs. -/
def fmGone (s : State) (k : Nat) : State :=
  let s := modGpkg s (fun g => { g with elect := tabSet none g.elect k none, change := ltNow s, elected := false })
  wr s (bGlimmer 0) F.GLIM_FMSTAT_VALID 0

/-- FM_ELECT_LOST. -/
def fmLost (s : State) : State :=
  let b := bGlimmer 0
  let k := rd s b F.GLIM_FMSTAT_FM
  if !rdB s b F.GLIM_FMSTAT_VALID ∨ k = selfPkg s then s
  else match electView s k with
    | some v => if v.lt + 1000000 ≤ ltNow s then fmGone s k else s
    | none => fmGone s k

/-! ## Repeats and timers -/

/-- TSYNC_SEND_TIMER. -/
def tsyncSend (s : State) (p : Nat) : State := queueMark s p (mkMark mkTsync (selfPkg s) false 0)

/-- JOB_MARK_REPEAT_TIMER: the latest job mark of each origin again, with REPEAT. -/
def markRepeat (s : State) (p : Nat) : State :=
  if !(jobPorts s).contains p then s
  else forEach s.gpkg.latest (fun x s => queueMark s p (setBits (x.2 - 1) 8 8 1)) s

/-! ## States, lanes (R507, R508, R526) -/

/-- The lanes in service. -/
def glimLanes (s : State) (p : Nat) : Nat := rd s (bGlimmer p) F.GLIM_STAT_LANES

/-- A port stops carrying frames: no lane in service, nothing waits or is in progress. -/
def glimStop (s : State) (p st : Nat) : State :=
  let s := wr (setGlimState s p st) (bGlimmer p) F.GLIM_STAT_LANES 0
  modGlim s p (fun _ => Glim.reset)

/-- The LASER block supplies light (R507, R523, R527). -/
def laserLit (s : State) : Bool :=
  rdB s bLaser F.LASER_CTL_LIGHT && (rd s bLaser F.LASER_MOD_STATE0 = 3 || rd s bLaser F.LASER_MOD_STATE1 = 3)

/-- A light action of a port. -/
def glimLight (s : State) (p act : Nat) : State := send s .light (bGlimmer p) [act]

/-- Light actions: 0 dark, 1 probe pulse, 2 full, 3 package-lost code, 4 wake code, 5 frames. -/
abbrev laDark : Nat := 0
abbrev laProbe : Nat := 1
abbrev laFull : Nat := 2
abbrev laLost : Nat := 3
abbrev laWake : Nat := 4
abbrev laFrames : Nat := 5

/-- A dark port that is enabled and lit probes. -/
def portProbe (s : State) (p : Nat) : State :=
  if glimState s p = gsOff && rdB s (bGlimmer p) F.GLIM_CFG_EN && laserLit s then
    glimLight (setGlimState s p gsProbe) p laProbe
  else s

/-- Light has come or gone: enabled dark ports probe, or every port goes dark. -/
def lightFollow (s : State) : State :=
  forEach (List.range 8) (fun p s =>
    if laserLit s then portProbe s p
    else if glimState s p = gsOff then s else glimLight (glimStop s p gsOff) p laDark) s

/-- GLIM_CFG.EN written; `off` tells a port that is fused off, where EN stays 0. LOSTCODE needs no enable (R513). -/
def glimEn (s : State) (p : Nat) (en off : Bool) : State :=
  if off then wr s (bGlimmer p) F.GLIM_CFG_EN 0
  else
    let s := wr s (bGlimmer p) F.GLIM_CFG_EN en.toNat
    if en then portProbe s p
    else if glimState s p = gsOff ∨ glimState s p = gsLost then s
    else glimLight (glimStop s p gsOff) p laDark

/-- GLIMMER_PEER_LIGHT. -/
def peerLight (s : State) (p lanes : Nat) : State :=
  if glimState s p = gsProbe ∧ 4 ≤ popcount 8 lanes then glimLight (setGlimState s p gsTrain) p laFull else s

/-- Training fails. -/
def trainFail (s : State) (p : Nat) : State :=
  if glimState s p = gsTrain then latchFault (glimStop s p gsFailed) (bGlimmer p) 0x0901 else s

/-- The lanes of a port that are fused bad; a fuse word that cannot be corrected marks none. -/
def badLanes (s : State) (p : Nat) : Nat := fuseByte s 0x50 p

/-- GLIMMER_TRAIN_DONE: the lanes trained, of which those fused bad do not serve, and what the exchange told of the peer. -/
def trainDone (s : State) (p lanes pkg port : Nat) : State :=
  let b := bGlimmer p
  let lanes := lanes &&& (0xFF ^^^ badLanes s p)
  let n := popcount 8 lanes
  if glimState s p ≠ gsTrain then s
  else if n < 7 then trainFail s p
  else
    let s := glimStop s p (if n = 8 then gsUp else gsDegraded)
    let s := wr (wr (wr s b F.GLIM_STAT_LANES lanes) b F.GLIM_STAT_PEERPKG pkg) b F.GLIM_STAT_PEERPORT port
    wr s b F.STATE_DEGRADED (if n = 8 then 0 else 1)

/-- A live link is lost. -/
def linkDown (s : State) (p st : Nat) : State := latchFault (glimStop s p st) (bGlimmer p) 0x0902

/-- UP becomes DEGRADED, and both directions will switch to `mask` at frame `fseq` (R508). A port that is DEGRADED already
keeps to the switch. -/
def spare (s : State) (p mask fseq : Nat) : State :=
  let b := bGlimmer p
  let s := modGlim s p (fun g => { g with switch := some (mask, fseq) })
  if glimState s p = gsUp then
    let s := wr (inc (setGlimState s p gsDegraded) b F.GLIM_LANESPARE_COUNT) b F.STATE_DEGRADED 1
    logEvent s b 8 0 F.GLIM_LANESPARE_COUNT.off mask
  else s

/-- GLIMMER_LANE_FAIL: lane `i` loses light, or shows `errs` symbol errors within a tick. -/
def laneFail (s : State) (p i : Nat) (dark : Bool) (errs : Nat) : State :=
  let b := bGlimmer p
  let lim := rd s b F.GLIM_SERTHR_LIMIT
  let lanes := match (glim s p).switch with | some x => x.1 | none => glimLanes s p
  if !bit lanes i ∨ !(dark || (lim != 0 && decide (lim < errs))) then s
  else if glimState s p = gsUp then
    let mask := lanes - 2 ^ i
    let at' := ((glim s p).fseq + 32) % 256
    queueMark (spare s p mask at') p (mkMark mkLanemap (selfPkg s) false (mask + at' * 2 ^ 8))
  else if glimState s p = gsDegraded then linkDown s p gsFailed
  else s

/-- LANEMAP from the peer. -/
def lanemapMark (s : State) (p m : Nat) : State :=
  if glimLive s p then spare s p (bits m 16 9) (bits m 24 17) else s

/-- LANEMAP_SWITCH. -/
def lanemapSwitch (s : State) (p : Nat) : State :=
  match (glim s p).switch with
  | some x => wr (modGlim s p (fun g => { g with switch := none })) (bGlimmer p) F.GLIM_STAT_LANES x.1
  | none => s

/-- GLIMMER_OPEN_FIBRE: the light is shut; in PROBE, pulses follow by their timer (R526). -/
def openFibre (s : State) (p : Nat) : State :=
  if glimLive s p then glimLight (inc (linkDown s p gsProbe) (bGlimmer p) F.GLIM_OFSHUT_COUNT) p laDark else s

/-- PROBE_PULSE_TIMER. -/
def probePulse (s : State) (p : Nat) : State := if glimState s p = gsProbe then glimLight s p laProbe else s

/-! ## Light codes (R513, R514) -/

/-- The dead-man timer has expired: every lit port sends the package-lost code. -/
def lostCode (s : State) : State :=
  if !laserLit s then s
  else forEach (List.range 8) (fun p s => if glimState s p = gsLost then s else glimLight (glimStop s p gsLost) p laLost) s

/-- PACKAGE_LOST_CODE_SEEN. -/
def lostSeen (s : State) (p : Nat) : State :=
  let b := bGlimmer p
  let k := glimPeer s p
  let s := send (latchFault (wr s b F.GLIM_STAT_LOSTSEEN 1) b 0x0904) .apc b [1]
  let s := peerLost s k
  if rdB s (bGlimmer 0) F.GLIM_FMSTAT_VALID && rd s (bGlimmer 0) F.GLIM_FMSTAT_FM = k && k != selfPkg s then fmGone s k else s

/-- GLIM_CFG.SENDWAKE written. -/
def sendWake (s : State) (p : Nat) (on : Bool) : State :=
  let s := wr s (bGlimmer p) F.GLIM_CFG_SENDWAKE on.toNat
  if glimState s p = gsOff then s else if on then glimLight s p laWake else if glimLive s p then glimDrain (glimLight s p laFrames) p else s

/-! ## Frames -/

/-- A mark of an accepted frame (R509). -/
def markIn (s : State) (p m : Nat) : State :=
  let k := markKind m
  if k = 0 then s else if k = mkClosed then closedMark s p m else if k = mkHolding then holdingMark s p m
  else if k = mkAbort then abortMark s p m else if k = mkRestart then restartMark s p m
  else if k = mkTsync then tsyncMark s p m else if k = mkDigest then digestMark s p m
  else if k = mkMirreq then mirreqMark s p m else if k = mkElect then electMark s p m
  else if k = mkLanemap then lanemapMark s p m else inc s (bGlimmer p) F.GLIM_BADMARK_COUNT

/-- An accepted frame (R504 to R506, log entry 36). -/
def frameIn (s : State) (p : Nat) (f : GFrame) : State :=
  let b := bGlimmer p
  let v := frameVc f.fseq
  let gap := match (glim s p).last with | some x => decide (f.fseq ≠ (x + 1) % 256) | none => false
  let s := when' gap (fun s => glimCut s p) s
  let flits := if f.mirror then [] else f.slots
  let slot := fun (x : Nat) => (x % 2 ^ 256, x / 2 ^ 256 % 16)
  let count := fun (c : Nat) => (flits.filter (fun x => (slot x).2 % 4 = c)).length
  let s := modGlim (inc s b F.GLIM_FRAMESRX_COUNT) p (fun g => { g with
    last := some f.fseq
    freed := tabSet 0 g.freed v f.freed
    rcvd := (List.range 4).foldl (fun t c => tabSet 0 t c ((tabGet 0 t c + count c) % 4096)) g.rcvd })
  let lost := (f.sent + 4096 - tabGet 0 (glim s p).rcvd v) % 4096
  let s := if f.mirror then forEach f.slots (fun x s => mirrorSlot p (slot x).1 (slot x).2 s) s
    else forEach f.slots.zipIdx (fun x s => flitIn p (slot x.1).1 (slot x.1).2 (f.ab == x.2 + 1) s) s
  let s := freeSlots (modGlim s p (fun g => { g with
    rcvd := tabSet 0 g.rcvd v ((tabGet 0 g.rcvd v + lost) % 4096) })) p v lost
  glimDrain (markIn s p f.mark) p

/-- GLIMMER_FRAME_RECEIVE: `fec` 0 clean, 1 corrected, 2 uncorrectable, and the payload bits that the decoder gives. -/
def frameReceive (s : State) (p fec w : Nat) : State :=
  let b := bGlimmer p
  if !glimLive s p then s
  else if 2 ≤ fec then inc s b F.GLIM_FECUE_COUNT
  else
    let s := if fec = 1 then inc s b F.GLIM_FECCE_COUNT else s
    if frameCrcOk w then frameIn s p (glimFrameOf w) else inc s b F.GLIM_CRCFAIL_COUNT

end Sys2Proof.Machine
end

