-- ==== Sys2Proof/Machine/Laser.lean ====
section
/-!
DEFINITION. Laser source modules (R523 to R527).
-/

namespace Sys2Proof.Machine

/-- LASER_MOD.STATE codes. -/
abbrev lmAbsent : Nat := 0
abbrev lmVerifying : Nat := 1
abbrev lmRefused : Nat := 2
abbrev lmLit : Nat := 3
abbrev lmReleased : Nat := 4
abbrev lmFailed : Nat := 5

/-- The fields of module `m`. -/
def modField (m : Nat) (a b : Fld) : Fld := if m = 0 then a else b
/-- STATE of module `m`. -/
def lasState (s : State) (m : Nat) : Nat := rd s bLaser (modField m F.LASER_MOD_STATE0 F.LASER_MOD_STATE1)
/-- Sets it. -/
def setLas (s : State) (m v : Nat) : State := wr s bLaser (modField m F.LASER_MOD_STATE0 F.LASER_MOD_STATE1) v
/-- Sets READYOUT of module `m`. -/
def setReadyout (s : State) (m v : Nat) : State := wr s bLaser (modField m F.LASER_MOD_READYOUT0 F.LASER_MOD_READYOUT1) v
/-- Sets LIFEWARN of module `m`. -/
def setLifewarn (s : State) (m v : Nat) : State := wr s bLaser (modField m F.LASER_MOD_LIFEWARN0 F.LASER_MOD_LIFEWARN1) v
/-- Module `m`. -/
def las (s : State) (m : Nat) : Laser := tabGet Laser.reset s.lasers m
/-- Changes it. -/
def modLas (s : State) (m : Nat) (f : Laser → Laser) : State :=
  { s with lasers := tabSet Laser.reset s.lasers m (f (las s m)) }

/-- Each lit module gives full output where it is the only one, half where both are lit (R523); the ports follow. -/
def lasShare (s : State) : State :=
  let both := lasState s 0 = lmLit && lasState s 1 = lmLit
  lightFollow (forEach [0, 1] (fun m s => modLas s m (fun x => { x with full := lasState s m = lmLit && !both })) s)

/-- LIFEWARN, and WEAR once per module, which its serial tells (R525). -/
def lasWear (s : State) (m : Nat) : State :=
  let used := rdI s bLaser F.LASER_POWERED_HOURS m + rdI s bLaser F.LASER_HOT_HOURS m
  let drift := sext 16 (rdI s bLaser F.LASER_DRIFT_PERMILLE m)
  let serial := (las s m).serial
  if 40000 ≤ used ∨ 100 ≤ drift then
    let s := setLifewarn s m 1
    if s.nv.worn.contains serial then s else latchFault { s with nv := { s.nv with worn := serial :: s.nv.worn } } bLaser 0x0A03
  else s

/-- LASER_MODULE_INSERT: the identity record, its signatures and the module's own counters are read. -/
def lasInsert (s : State) (m serial : Nat) (record sigEd sigMl : List Byte) (powered hot drift : Nat) : State :=
  if lasState s m ≠ lmAbsent then s
  else
    let old := tabGet (0, 0) s.nv.life serial
    let s := modLas s m (fun _ => ⟨serial, record, sigEd, sigMl, false⟩)
    let s := wrI s bLaser F.LASER_POWERED_HOURS m (max powered old.1)
    let s := wrI (wrI s bLaser F.LASER_HOT_HOURS m (max hot old.2)) bLaser F.LASER_DRIFT_PERMILLE m drift
    tenantEvent (setLas s m lmVerifying) teLaserSwap

/-- LASER_MODULE_VERIFIED: both signatures over the record's SHA-512 must verify (R524). -/
def lasVerified (s : State) (m : Nat) : State :=
  if lasState s m ≠ lmVerifying then s
  else
    let x := las s m
    let d := sha512 x.record
    let key := ascii "laser-module root"
    if Config.verifies algEd25519 key d x.sigEd && Config.verifies algMlDsa key d x.sigMl then
      lasWear (lasShare (setLas s m lmLit)) m
    else latchFault (setLas s m lmRefused) bLaser 0x0A02

/-- LASER_MODULE_FAIL. -/
def lasFail (s : State) (m : Nat) : State :=
  if lasState s m = lmLit then lasShare (latchFault (setLas s m lmFailed) bLaser 0x0A01) else s

/-- LASER_MODULE_REMOVE. -/
def lasRemove (s : State) (m : Nat) : State :=
  if lasState s m = lmAbsent then s
  else
    let rel := rd s bLaser F.LASER_CTL_RELEASE
    let s := setLifewarn (setReadyout (setLas s m lmAbsent) m 0) m 0
    let s := wr s bLaser F.LASER_CTL_RELEASE (if bit rel m then rel - 2 ^ m else rel)
    let s := forEach [F.LASER_POWERED_HOURS, F.LASER_HOT_HOURS, F.LASER_DRIFT_PERMILLE, F.LASER_CASET_DEGC]
      (fun f s => wrI s bLaser f m 0) s
    tenantEvent (lasShare (modLas s m (fun _ => Laser.reset))) teLaserSwap

/-- LASER_CTL.RELEASE set for module `m`. -/
def lasRelease (s : State) (m : Nat) : State :=
  if lasState s m = lmAbsent ∨ lasState s m = lmReleased then s
  else lasShare (setReadyout (setLas s m lmReleased) m 1)

/-- LASER_LIFE_HOUR: a lit hour of module `m` has passed; POWERED and HOT go to the module's memory and to MRAM. -/
def lasHour (s : State) (m drift caset : Nat) : State :=
  if lasState s m ≠ lmLit then s
  else
    let s := wrI (wrI s bLaser F.LASER_DRIFT_PERMILLE m drift) bLaser F.LASER_CASET_DEGC m caset
    let p := rdI s bLaser F.LASER_POWERED_HOURS m + 1
    let h := rdI s bLaser F.LASER_HOT_HOURS m + (if 70 < sext 8 caset then 1 else 0)
    let s := wrI (wrI s bLaser F.LASER_POWERED_HOURS m p) bLaser F.LASER_HOT_HOURS m h
    let s := { s with nv := { s.nv with life := tabSet (0, 0) s.nv.life (las s m).serial (p, h) } }
    lasWear (send s .light bLaser [6, m, p, h]) m

/-- LASER_CTL.LIGHT written by custody, or LASEROFF of the warden port. -/
def lasLight (s : State) (on : Bool) : State := lightFollow (wr s bLaser F.LASER_CTL_LIGHT on.toNat)

end Sys2Proof.Machine
end

