-- ==== Sys2Proof/Machine/Cluster.lean ====
section
/-!
DEFINITION. The private space of the application cluster (R74, R76, R77): machine timer, APLIC in MSI delivery mode, IMSIC files, IOMMU. Layouts
that the manual gives by reference are those of the RISC-V Advanced Interrupt Architecture 1.0 and the RISC-V IOMMU Architecture
Specification 1.0 (PRESUMED, log entries 41 and 44).
-/

namespace Sys2Proof.Machine

/-! ## Machine timer -/

/-- Where mtime stands in its frame; the manual gives mtimecmp's place only (log entry 41). -/
abbrev mtimeOff : Nat := 0x7FF8

/-- A word of the machine timer. -/
def mtRead (s : State) (o : Nat) : Word :=
  let half := fun (v : Nat) => BitVec.ofNat 32 (v / 2 ^ (8 * (o % 8)))
  if o / 8 * 8 = mtimeOff then half (ltAt s bApc) else if o < 128 then half (tabGet 0 s.clu.timecmp (o / 8)) else 0

/-- A write of a word; writes of mtime are ignored. -/
def mtWrite (s : State) (o : Nat) (w : Word) : State :=
  if o < 128 then
    let v := tabGet 0 s.clu.timecmp (o / 8)
    let v := if o % 8 = 0 then v / 2 ^ 32 * 2 ^ 32 + w.toNat else v % 2 ^ 32 + w.toNat * 2 ^ 32
    modClu s (fun c => { c with timecmp := tabSet 0 c.timecmp (o / 8) v })
  else s

/-! ## IMSIC -/

/-- The interrupt file of an address: hart × 16 + file. -/
def fileAt (p : Nat) : Option Nat :=
  if 0x004101000000 ≤ p ∧ p < 0x004101010000 then some ((p - 0x004101000000) / 0x1000 * 16)
  else if 0x004102000000 ≤ p ∧ p < 0x004102080000 then
    some ((p - 0x004102000000) / 0x8000 * 16 + 1 + (p - 0x004102000000) / 0x1000 % 8)
  else none

/-- An identity becomes pending in a file; a file has 255. -/
def setEip (s : State) (file id : Nat) : State :=
  if 1 ≤ id ∧ id ≤ 255 then modClu s (fun c => { c with eip := setBit c.eip (file * 256 + id) true }) else s

/-- The bytes of a word the other way round. -/
def swap32 (w : Word) : Word := BitVec.ofNat 32 (leNat (leBytes 4 w.toNat).reverse)

/-- A write of a word in the page of a file: SETEIPNUM_LE and SETEIPNUM_BE. -/
def fileWrite (s : State) (file o : Nat) (w : Word) : State :=
  if o = 0 then setEip s file w.toNat else if o = 4 then setEip s file (swap32 w).toNat else s

/-! ## APLIC -/

/-- An APLIC register of a domain. -/
def apReg (s : State) (d o : Nat) : Word := tabGet 0 s.clu.aplic (d * 0x8000 + o)
/-- Sets it. -/
def setApReg (s : State) (d o : Nat) (w : Word) : State := modClu s (fun c => { c with aplic := tabSet 0 c.aplic (d * 0x8000 + o) w })

/-- SOURCECFG of a source. -/
def sourceCfg (s : State) (d i : Nat) : Nat := (apReg s d (4 * i)).toNat
/-- The machine-level domain has delegated a source to the supervisor-level one. -/
def delegated (s : State) (i : Nat) : Bool := bit (sourceCfg s 0 i) 10
/-- The source mode of an active source of a domain; 0 for an inactive one. -/
def sourceMode (s : State) (d i : Nat) : Nat := if delegated s i = (d = 1) then sourceCfg s d i % 8 else 0

/-- The interrupt files of an MSI address take the write; another address takes none. -/
def msiWrite (s : State) (p id : Nat) : State :=
  match fileAt p with
  | some f => fileWrite s f (p % 0x1000) (BitVec.ofNat 32 id)
  | none => s

/-- The address of an MSI of domain `d` to hart `h` and guest `g`, by MMSIADDRCFG and SMSIADDRCFG. -/
def msiAddr (s : State) (d h g : Nat) : Nat :=
  let mh := (apReg s 0 0x1BC4).toNat
  let lhxw := bits mh 15 12
  let group := h / 2 ^ lhxw % 2 ^ bits mh 18 16
  let low := h % 2 ^ lhxw
  let hi := group * 2 ^ (bits mh 28 24 + 12)
  if d = 0 then (((apReg s 0 0x1BC0).toNat + bits mh 11 0 * 2 ^ 32) ||| hi ||| low * 2 ^ bits mh 22 20) * 4096
  else
    let sh := (apReg s 0 0x1BCC).toNat
    (((apReg s 0 0x1BC8).toNat + bits sh 11 0 * 2 ^ 32) ||| hi ||| low * 2 ^ bits sh 22 20 ||| g) * 4096

/-- A pending and enabled source of a domain whose IE is set is forwarded as an MSI, and is pending no more. -/
def aplicForward (s : State) (d i : Nat) : State :=
  if bit (apReg s d 0).toNat 8 ∧ s.clu.pend.contains (d * 1024 + i) ∧ s.clu.enab.contains (d * 1024 + i) then
    let t := (apReg s d (0x3000 + 4 * i)).toNat
    msiWrite (modClu s (fun c => { c with pend := setBit c.pend (d * 1024 + i) false }))
      (msiAddr s d (bits t 31 18) (if d = 1 then bits t 17 12 else 0)) (bits t 10 0)
  else s

/-- Every source of a domain that waits to be forwarded. -/
def aplicFlush (s : State) (d : Nat) : State :=
  forEach (s.clu.pend.filter (fun x => x / 1024 = d)) (fun x s => aplicForward s d (x % 1024)) s

/-- Software sets or clears a pending bit: of a level source only while its rectified input is high. -/
def pendWrite (s : State) (d i : Nat) (on : Bool) : State :=
  let m := sourceMode s d i
  if i = 0 ∨ 1023 < i ∨ m = 0 ∨ (on ∧ 6 ≤ m ∧ !s.clu.high.contains (d * 1024 + i)) then s
  else aplicForward (modClu s (fun c => { c with pend := setBit c.pend (d * 1024 + i) on })) d i

/-- Software sets or clears an enable bit. -/
def enabWrite (s : State) (d i : Nat) (on : Bool) : State :=
  if i = 0 ∨ 1023 < i ∨ sourceMode s d i = 0 then s
  else aplicForward (modClu s (fun c => { c with enab := setBit c.enab (d * 1024 + i) on })) d i

/-- 32 bits of a set of sources of a domain. -/
def srcWord (xs : List Nat) (d k : Nat) : Word :=
  BitVec.ofNat 32 (((List.range 32).filter (fun j => xs.contains (d * 1024 + 32 * k + j))).foldl (fun a j => a + 2 ^ j) 0)

/-- A read of an APLIC word. -/
def aplicRead (s : State) (d o : Nat) : Word :=
  if o = 0 then (apReg s d 0 &&& 0x100) ||| 0x80000004
  else if 0x1C00 ≤ o ∧ o < 0x1C80 then srcWord s.clu.pend d ((o - 0x1C00) / 4)
  else if 0x1D00 ≤ o ∧ o < 0x1D80 then srcWord s.clu.high d ((o - 0x1D00) / 4)
  else if 0x1E00 ≤ o ∧ o < 0x1E80 then srcWord s.clu.enab d ((o - 0x1E00) / 4)
  else apReg s d o

/-- A source that a write makes inactive is neither pending nor enabled, and has no target. -/
def sourceWrite (s : State) (d i : Nat) (w : Word) : State :=
  let v := if d = 0 ∧ bit w.toNat 10 then 0x400 else w.toNat % 8
  let v := if v = 2 ∨ v = 3 then 0 else v
  if d = 1 ∧ !delegated s i then s
  else
    let s := setApReg s d (4 * i) (BitVec.ofNat 32 v)
    let s := if d = 0 ∧ v ≠ 0x400 then setApReg s 1 (4 * i) 0 else s
    modClu s (fun c =>
      let keep := fun (x : Nat) => !(x % 1024 = i && sourceMode s (x / 1024) i = 0)
      let target := fun (x : Nat) => x % 0x8000 = 0x3000 + 4 * i && sourceMode s (x / 0x8000) i = 0
      { c with aplic := c.aplic.filter (fun e => !target e.1), pend := c.pend.filter keep, enab := c.enab.filter keep, high := c.high.filter keep })

/-- Acts on the sources whose bits a word has. -/
def eachBit (k : Nat) (w : Word) (f : Nat → State → State) (s : State) : State :=
  forEach ((List.range 32).filter (fun j => bit w.toNat j)) (fun j s => f (32 * k + j) s) s

/-- A write of an APLIC word. -/
def aplicWrite (s : State) (d o : Nat) (w : Word) : State :=
  let locked := bit (apReg s 0 0x1BC4).toNat 31
  if o = 0 then aplicFlush (setApReg s d 0 (w &&& 0x100)) d
  else if o < 0x1000 then sourceWrite s d (o / 4) w
  else if 0x1BC0 ≤ o ∧ o ≤ 0x1BCC then
    (if d = 1 ∨ locked then s
     else setApReg s 0 o (if o = 0x1BC4 then w &&& 0x9F77FFFF else if o = 0x1BCC then w &&& 0x00700FFF else w))
  else if 0x1C00 ≤ o ∧ o < 0x1C80 then eachBit ((o - 0x1C00) / 4) w (fun i s => pendWrite s d i true) s
  else if o = 0x1CDC ∨ o = 0x2000 then pendWrite s d w.toNat true
  else if 0x1D00 ≤ o ∧ o < 0x1D80 then eachBit ((o - 0x1D00) / 4) w (fun i s => pendWrite s d i false) s
  else if o = 0x1DDC then pendWrite s d w.toNat false
  else if 0x1E00 ≤ o ∧ o < 0x1E80 then eachBit ((o - 0x1E00) / 4) w (fun i s => enabWrite s d i true) s
  else if o = 0x1EDC then enabWrite s d w.toNat true
  else if 0x1F00 ≤ o ∧ o < 0x1F80 then eachBit ((o - 0x1F00) / 4) w (fun i s => enabWrite s d i false) s
  else if o = 0x1FDC then enabWrite s d w.toNat false
  else if o = 0x2004 then pendWrite s d (swap32 w).toNat true
  else if o = 0x3000 then msiWrite s (msiAddr s d (bits w.toNat 31 18) 0) (bits w.toNat 10 0)
  else if 0x3004 ≤ o ∧ o < 0x4000 ∧ sourceMode s d ((o - 0x3000) / 4) ≠ 0 then
    setApReg s d o (if d = 0 then w &&& 0xFFFC07FF else w &&& 0xFFFFF7FF)
  else s

/-- The APLIC looks at the line of block `i` (R76): its rectified input rises and makes the source pending, or a low one takes the pending
bit of a level source away. -/
def aplicLook (s : State) (i : Nat) (level : Bool) : State :=
  let d := (delegated s i).toNat
  let m := sourceMode s d i
  let key := d * 1024 + i
  if m < 4 then s
  else
    let up := level != bit m 0
    let rise := up && !s.clu.high.contains key
    let s := modClu s (fun c => { c with
      high := setBit c.high key up
      pend := if rise then setBit c.pend key true else if !up && 6 ≤ m then setBit c.pend key false else c.pend })
    aplicForward s d i

/-- The sources that are configured. -/
def aplicSources (s : State) : List Nat :=
  ((s.clu.aplic.map (·.1)).filter (fun k => 0 < k % 0x8000 && k % 0x8000 < 0x1000)).map (fun k => k % 0x8000 / 4)

/-! ## IOMMU: registers -/

abbrev ioFctl : Nat := 0x08
abbrev ioDdtp : Nat := 0x10
abbrev ioCqb : Nat := 0x18
abbrev ioCqh : Nat := 0x20
abbrev ioCqt : Nat := 0x24
abbrev ioFqb : Nat := 0x28
abbrev ioFqh : Nat := 0x30
abbrev ioFqt : Nat := 0x34
abbrev ioCqcsr : Nat := 0x48
abbrev ioFqcsr : Nat := 0x4C
abbrev ioIpsr : Nat := 0x54

/-- CAPABILITIES: version 1.0, Sv39, Sv48, Sv39x4, Sv48x4, interrupts by wire, 48 physical address bits. -/
abbrev ioCaps : Nat := 0x10 + 2 ^ 9 + 2 ^ 10 + 2 ^ 17 + 2 ^ 18 + 2 ^ 28 + 48 * 2 ^ 32

/-- An IOMMU word. -/
def ioReg (s : State) (o : Nat) : Word := tabGet 0 s.clu.iommu o
/-- Sets it. -/
def setIo (s : State) (o : Nat) (w : Word) : State := modClu s (fun c => { c with iommu := tabSet 0 c.iommu o w })
/-- A 64-bit register. -/
def ioPair (s : State) (o : Nat) : Nat := (ioReg s o).toNat + (ioReg s (o + 4)).toNat * 2 ^ 32
/-- The physical page that a 64-bit register names in bits [53:10]. -/
def ioBase (s : State) (o : Nat) : Nat := bits (ioPair s o) 53 10 * 4096

/-- Eight bytes of memory that the IOMMU itself reads, under the device tag; none where the access fails. -/
def ioLoad (s : State) (a : Nat) : Option Nat :=
  if hbmCheck s 0x1F a 8 = hOk ∧ !s.mem.poison.contains (a / 128) ∧ !staleKey s a then some (leNat (tabGetRun 0 s.mem.hbm a 8)) else none

/-- Memory that the IOMMU writes. -/
def ioStore (s : State) (a : Nat) (d : List Byte) : State := (hbmWriteRun s bApc 0x1F a d).2.2

/-! ## IOMMU: translation -/

/-- What a translation gives: an address, or the cause of a fault with what its record holds in iotval2: of a guest-page fault the guest
physical address, and in bit 0 whether the first stage's own tables were behind it. -/
inductive Walk where
  | ok (a : Nat)
  | fault (cause tval2 : Nat)
  deriving DecidableEq, Repr

/-- A guest-page fault of the first stage's own accesses. -/
def implicitWalk : Walk → Walk
  | .fault c t => .fault c (if c = 21 ∨ c = 23 then t + 1 else t)
  | w => w

/-- A walk of a table of `lv` more levels at `base`. A page-table address is translated by `gst`; `top` more bits index the first level;
`pf` is the page-fault cause. Bits A and D are set by software. -/
def ptWalk (s : State) (gst : Nat → Walk) (write : Bool) (pf va : Nat) : Nat → Nat → Nat → Walk
  | 0, _, _ => .fault pf 0
  | i + 1, top, base =>
    let idx := bits va (12 + 9 * i + 8 + top) (12 + 9 * i)
    match gst (base + 8 * idx) with
    | .fault c t => .fault c t
    | .ok a => match ioLoad s a with
      | none => .fault (if write then 7 else 5) 0
      | some e =>
        let ppn := bits e 53 10
        if !bit e 0 ∨ (!bit e 1 ∧ bit e 2) ∨ bits e 63 54 ≠ 0 then .fault pf 0
        else if !bit e 1 ∧ !bit e 3 then
          (if bit e 4 ∨ bit e 6 ∨ bit e 7 then .fault pf 0 else ptWalk s gst write pf va i 0 (ppn * 4096))
        else if (write ∧ !bit e 2) ∨ (!write ∧ !bit e 1) ∨ !bit e 4 ∨ !bit e 6 ∨ (write ∧ !bit e 7) ∨ ppn % 2 ^ (9 * i) ≠ 0 then .fault pf 0
        else .ok (ppn * 4096 + va % 2 ^ (12 + 9 * i))

/-- A fault of the second stage names the guest physical address. -/
def guestFault (gpa : Nat) : Walk → Walk
  | .fault c _ => .fault c (if c = 21 ∨ c = 23 then gpa / 4 * 4 else 0)
  | w => w

/-- The second stage: Bare, Sv39x4, Sv48x4. -/
def gStage (s : State) (iohgatp : Nat) (write : Bool) (gpa : Nat) : Walk :=
  let mode := iohgatp / 2 ^ 60
  let pf := if write then 23 else 21
  let root := iohgatp % 2 ^ 44 * 4096
  if mode = 0 then .ok gpa
  else if mode = 8 then guestFault gpa (if 2 ^ 41 ≤ gpa then .fault pf 0 else ptWalk s .ok write pf gpa 3 2 root)
  else if mode = 9 then guestFault gpa (if 2 ^ 50 ≤ gpa then .fault pf 0 else ptWalk s .ok write pf gpa 4 2 root)
  else .fault 259 0

/-- The first stage: Bare, Sv39, Sv48; its tables lie behind the second, which reads them and faults as the access that they serve. -/
def vStage (s : State) (iohgatp fsc : Nat) (write : Bool) (va : Nat) : Walk :=
  let mode := fsc / 2 ^ 60
  let pf := if write then 15 else 13
  let root := fsc % 2 ^ 44 * 4096
  let tables := fun (a : Nat) => implicitWalk (match gStage s iohgatp false a with
    | .fault c t => .fault (if write ∧ c = 21 then 23 else if write ∧ c = 5 then 7 else c) t
    | w => w)
  let signed := fun (n : Nat) => bits va 63 (n - 1) = 0 || bits va 63 (n - 1) = 2 ^ (65 - n) - 1
  if mode = 0 then .ok va
  else if mode = 8 then (if signed 39 then ptWalk s tables write pf va 3 0 root else .fault pf 0)
  else if mode = 9 then (if signed 48 then ptWalk s tables write pf va 4 0 root else .fault pf 0)
  else .fault 259 0

/-- The device directory down to the context of `did`: non-leaf levels that remain. -/
def ddtWalk (s : State) (did : Nat) : Nat → Nat → Walk
  | 0, base => .ok (base + 32 * (did % 128))
  | i + 1, base =>
    match ioLoad s (base + 8 * (if i = 0 then bits did 15 7 else bits did 23 16)) with
    | none => .fault 257 0
    | some e => if !bit e 0 then .fault 258 0 else if bits e 63 54 ≠ 0 ∨ bits e 9 1 ≠ 0 then .fault 259 0 else ddtWalk s did i (bits e 53 10 * 4096)

/-- The fields of a device context that the IOMMU of this part has: V and DTF; every other bit of TC is 0. -/
def tcOk (tc : Nat) : Bool := tc / 32 * 32 + tc % 16 / 2 * 2 + bits tc 4 4 * 16 = bits tc 4 4 * 16

/-- The translation of device `did`'s address `va` (R77). -/
def ioWalk (s : State) (did va : Nat) (write : Bool) : Bool × Walk :=
  let mode := ioPair s ioDdtp % 16
  if mode = 0 then (true, .fault 256 0)
  else if mode = 1 then (true, .ok va)
  else match ddtWalk s did (mode - 2) (ioBase s ioDdtp) with
    | .fault c t => (true, .fault c t)
    | .ok a => match ioLoad s a, ioLoad s (a + 8), ioLoad s (a + 24) with
      | some tc, some hg, some fsc =>
        if !bit tc 0 then (true, .fault 258 0)
        else if !tcOk tc then (true, .fault 259 0)
        else
          let r := match vStage s hg fsc write va with
            | .fault c t => .fault c t
            | .ok gpa => gStage s hg write gpa
          (!bit tc 4, r)
      | _, _, _ => (true, .fault 257 0)

/-- A fault record goes into the fault queue, if it is on and has room. -/
def faultRecord (s : State) (cause tval2 did va : Nat) (write : Bool) : State :=
  let n := 2 ^ (ioPair s ioFqb % 32 + 1)
  let t := (ioReg s ioFqt).toNat
  let note := fun (s : State) => if bit (ioReg s ioFqcsr).toNat 1 then setIo s ioIpsr (ioReg s ioIpsr ||| 2) else s
  if !bit (ioReg s ioFqcsr).toNat 16 ∨ bits (ioReg s ioFqcsr).toNat 9 8 ≠ 0 then s
  else if (t + 1) % n = (ioReg s ioFqh).toNat then note (setIo s ioFqcsr (ioReg s ioFqcsr ||| 0x200))
  else if hbmCheck s 0x1F (ioBase s ioFqb + 32 * t) 32 ≠ hOk then note (setIo s ioFqcsr (ioReg s ioFqcsr ||| 0x100))
  else
    let s := ioStore s (ioBase s ioFqb + 32 * t)
      (leBytes 8 (cause + (if write then 3 else 2) * 2 ^ 34 + did * 2 ^ 40) ++ leBytes 8 0 ++ leBytes 8 va ++ leBytes 8 tval2)
    note (setIo s ioFqt (BitVec.ofNat 32 ((t + 1) % n)))

/-- The physical address of an access by device `did`; none after a fault, which is recorded. -/
def translate (s : State) (did va : Nat) (write : Bool) : Option Nat × State :=
  match ioWalk s did va write with
  | (_, .ok a) => (some a, s)
  | (report, .fault c t) => (none, if report || (256 ≤ c && c ≤ 259) then faultRecord s c t did va write else s)

/-! ## IOMMU: register accesses -/

/-- A command that this IOMMU has: IOTINVAL.VMA and .GVMA, IOFENCE.C, IODIR.INVAL_DDT. -/
def ioLegal (c : Nat) : Bool :=
  let op := bits c 6 0
  let fn := bits c 9 7
  (op == 1 && fn ≤ 1) || (op == 2 && fn == 0) || (op == 3 && fn == 0)

/-- An error of the command queue stops it until software clears the bit, and is pending as an interrupt where that is enabled. -/
def ioStop (s : State) (b : Word) : State :=
  let s := setIo s ioCqcsr (ioReg s ioCqcsr ||| b)
  if bit (ioReg s ioCqcsr).toNat 1 then setIo s ioIpsr (ioReg s ioIpsr ||| 1) else s

/-- Commands from the head of the command queue to its tail. Nothing is cached, so an invalidation finds nothing; IOFENCE.C writes its
word; an illegal command stops the queue, as an unreadable one does. -/
def ioCommands : Nat → State → State
  | 0, s => s
  | n + 1, s =>
    let h := (ioReg s ioCqh).toNat
    let size := 2 ^ (ioPair s ioCqb % 32 + 1)
    if h = (ioReg s ioCqt).toNat % size ∨ !bit (ioReg s ioCqcsr).toNat 16 ∨ bits (ioReg s ioCqcsr).toNat 10 8 ≠ 0 then s
    else
      let a := ioBase s ioCqb + 16 * h
      match ioLoad s a, ioLoad s (a + 8) with
      | some c, some x =>
        if !ioLegal c then ioStop s 0x400 else
        let s := if bits c 9 0 = 2 ∧ bit c 10 then ioStore s (x % 2 ^ 62 * 4) (leBytes 4 (c / 2 ^ 32)) else s
        let s := if bits c 9 0 = 2 ∧ bit c 11 then setIo (setIo s ioCqcsr (ioReg s ioCqcsr ||| 0x800)) ioIpsr (ioReg s ioIpsr ||| (if bit (ioReg s ioCqcsr).toNat 1 then 1 else 0)) else s
        ioCommands n (setIo s ioCqh (BitVec.ofNat 32 ((h + 1) % size)))
      | _, _ => ioStop s 0x100

/-- A read of an IOMMU word. FCTL holds that interrupts go by wire and nothing that can be written. -/
def ioRead (s : State) (o : Nat) : Word :=
  if o = ioFctl then 2 else if o = 0 then BitVec.ofNat 32 ioCaps else if o = 4 then BitVec.ofNat 32 (ioCaps / 2 ^ 32) else ioReg s o

/-- A queue's control and status: enable and interrupt enable as written, ON follows the enable, error bits clear where written 1. -/
def ioCsr (s : State) (o : Nat) (w : Word) (errs : Word) : State :=
  let old := ioReg s o
  setIo s o ((w &&& 3) ||| (old &&& errs &&& ~~~w) ||| (if bit w.toNat 0 then 0x10000 else 0))

/-- A write of an IOMMU word. -/
def ioWrite (s : State) (o : Nat) (w : Word) : State :=
  if o = ioDdtp then (if w.toNat % 16 ≤ 4 then setIo s o (w &&& 0xFFFFFC0F) else setIo s o ((w &&& 0xFFFFFC00) ||| (ioReg s o &&& 15)))
  else if o = ioDdtp + 4 ∨ o = ioCqb + 4 ∨ o = ioFqb + 4 then setIo s o (w &&& 0x003FFFFF)
  else if o = ioCqb ∨ o = ioFqb then setIo s o (w &&& 0xFFFFFC1F)
  else if o = ioCqt then ioCommands 65536 (setIo s o w)
  else if o = ioFqh then setIo s o w
  else if o = ioCqcsr then
    let s := ioCsr s o w 0xF00
    if bit w.toNat 0 then ioCommands 65536 s else setIo (setIo s ioCqh 0) ioCqt 0
  else if o = ioFqcsr then
    let s := ioCsr s o w 0x300
    if bit w.toNat 0 then s else setIo (setIo s ioFqh 0) ioFqt 0
  else if o = ioIpsr then setIo s o (ioReg s o &&& ~~~w)
  else s

/-! ## The debug module (R74): registers of the RISC-V Debug Specification 1.0, register `n` at 4 × n of its frame -/

abbrev dmData : Nat := 0x04
abbrev dmControl : Nat := 0x10
abbrev dmStatus : Nat := 0x11
abbrev dmAbstract : Nat := 0x16
abbrev dmCommand : Nat := 0x17

/-- A register as it is held. -/
def dmReg (s : State) (n : Nat) : Word := tabGet 0 s.clu.dm n
/-- Holds a value. -/
def setDm (s : State) (n : Nat) (w : Word) : State := modClu s (fun c => { c with dm := tabSet 0 c.dm n w })
/-- The hart that DMCONTROL selects. -/
def dmHart (s : State) : Nat := bits (dmReg s dmControl).toNat 25 16 + bits (dmReg s dmControl).toNat 15 6 * 1024
/-- The debug module is active. -/
def dmActive (s : State) : Bool := bit (dmReg s dmControl).toNat 0

/-- A hart halts or runs on; the timer's channels under DBGFRZ freeze while any is halted (R544). -/
def dmHalt (s : State) (h : Nat) (on : Bool) : State :=
  let s := modClu s (fun c => { c with halted := setBit c.halted h on })
  wr s bTimer F.TIMER_FROZEN_HALT (!s.clu.halted.isEmpty).toNat

/-- DMSTATUS of the selected hart: version 1.0, authenticated, and whether it is halted, runs or does not exist. -/
def dmStat (s : State) : Nat :=
  let h := dmHart s
  let two := fun (k : Nat) (c : Bool) => if c then 3 * 2 ^ k else 0
  0x83 + (if 16 ≤ h then two 14 true
    else two 8 (s.clu.halted.contains h) + two 10 (!s.clu.halted.contains h) + two 16 (dmReg s 0x100 == BitVec.ofNat 32 (h + 1)))

/-- A read of a register. Register 0x40 shows the halted harts; four data registers and no program buffer. -/
def dmRead (s : State) (n : Nat) : Word :=
  if !dmActive s then 0
  else if dmData ≤ n ∧ n < dmData + 4 then dmReg s n
  else if n = dmControl then dmReg s n &&& 0x03FFFFC1
  else if n = dmStatus then BitVec.ofNat 32 (dmStat s)
  else if n = dmAbstract then (dmReg s n &&& 0x700) ||| 4
  else if n = 0x40 then BitVec.ofNat 32 (s.clu.halted.foldl (fun a h => a + 2 ^ h) 0)
  else 0

/-- The command error, where none stands. -/
def dmErr (s : State) (e : Nat) : State := setDm s dmAbstract (BitVec.ofNat 32 (e * 256))

/-- A 64-bit data argument. -/
def dmArg (s : State) (k : Nat) : Nat := (dmReg s (dmData + 2 * k)).toNat + (dmReg s (dmData + 2 * k + 1)).toNat * 2 ^ 32
/-- Sets it to the width of 2 ^ size bytes. -/
def setDmArg (s : State) (k size v : Nat) : State :=
  let s := setDm s (dmData + 2 * k) (BitVec.ofNat 32 v)
  if size = 3 then setDm s (dmData + 2 * k + 1) (BitVec.ofNat 32 (v / 2 ^ 32)) else s

/-- A register of a halted hart by its abstract number; none where there is no such register. -/
def hartReg (s : State) (h n : Nat) : Option Nat :=
  if n < 0x1000 then csrGet s h n
  else if n < 0x1020 then some (if n = 0x1000 then 0 else (tabGet 0 (hart s h).x (n - 0x1000)).toNat)
  else if n < 0x1040 then some (tabGet 0 (hart s h).f (n - 0x1020)).toNat
  else none

/-- Writes it; x0 stays 0. -/
def setHartReg (s : State) (h n v : Nat) : Bool × State :=
  if n < 0x1000 then csrPut s h n v
  else if n < 0x1020 then
    (true, if n = 0x1000 then s else modHart s h (fun x => { x with x := tabSet 0 x.x (n - 0x1000) (BitVec.ofNat 64 v) }))
  else if n < 0x1040 then (true, modHart s h (fun x => { x with f := tabSet 0 x.f (n - 0x1020) (BitVec.ofNat 64 v) }))
  else (false, s)

/-- An abstract command on the selected hart: Access Register, or Access Memory of HBM by physical address through the L2. One that this
part does not have gives error 2, a failed one 3 or 5, and one while the hart runs 4. -/
def dmCommand' (s : State) (w : Nat) : State :=
  let h := dmHart s
  let size := bits w 22 20
  let write := bit w 16
  if bits (dmReg s dmAbstract).toNat 10 8 ≠ 0 then s
  else if 16 ≤ h ∨ !s.clu.halted.contains h then dmErr s 4
  else if bits w 31 24 = 0 then
    if !bit w 17 then s
    else if size ≠ 2 ∧ size ≠ 3 ∨ bit w 18 then dmErr s 2
    else
      let v := dmArg s 0 % 2 ^ (8 * 2 ^ size)
      if write then (let r := setHartReg s h (bits w 15 0) v; if r.1 then r.2 else dmErr s 3)
      else match hartReg s h (bits w 15 0) with
        | some v => setDmArg s 0 size v
        | none => dmErr s 3
  else if bits w 31 24 = 2 then
    let n := 2 ^ size
    let a := dmArg s 1
    if 3 < size ∨ bit w 23 ∨ a % n ≠ 0 then dmErr s 2
    else if hbmSize ≤ a ∨ hbmCheck s 0x1F a n ≠ hOk then dmErr s 5
    else
      let s := if write then l2Put s a (leBytes n (dmArg s 0))
        else
          let r := hbmReadRun s bApc 0x1F a n
          if r.1 = hOk then setDmArg r.2.2.2 0 size (leNat (l2Over s a r.2.2.1)) else dmErr r.2.2.2 5
      if bit w 19 then setDmArg s 1 3 (a + n) else s
  else dmErr s 2

/-- A write of a register. While DMACTIVE is 0 the module is reset and takes that bit alone; HALTREQ halts the selected hart, RESUMEREQ lets it
run on, NDMRESET and HARTRESET put harts back to their reset state. -/
def dmWrite (s : State) (n : Nat) (w : Word) : State :=
  let v := w.toNat
  if n = dmControl then
    if !bit v 0 then modClu s (fun c => { c with dm := [] })
    else
      let s := setDm s dmControl (w &&& 0x03FFFFC1)
      let h := dmHart s
      if 16 ≤ h then s
      else
        let s := if bit v 29 then modHart s h (fun _ => Hart.reset) else s
        if bit v 31 then dmHalt s h true
        else if bit v 30 ∧ s.clu.halted.contains h then setDm (dmHalt s h false) 0x100 (BitVec.ofNat 32 (h + 1))
        else s
  else if !dmActive s then s
  else if dmData ≤ n ∧ n < dmData + 4 then setDm s n w
  else if n = dmAbstract then setDm s n (dmReg s n &&& ~~~(w &&& 0x700))
  else if n = dmCommand then dmCommand' s v
  else s

/-! ## Accesses of the private space -/

/-- The parts of the private space that are not reserved (R74). -/
inductive Priv where
  | debug (o : Nat)
  | aplic (d o : Nat)
  | timer (o : Nat)
  | file (f o : Nat)
  | iommu (o : Nat)
  deriving DecidableEq, Repr

/-- Decodes an address of the private space. -/
def privAt (p : Nat) : Option Priv :=
  if 0x004100000000 ≤ p ∧ p < 0x004100010000 then some (.debug (p - 0x004100000000))
  else if 0x004100010000 ≤ p ∧ p < 0x004100020000 then some (.aplic ((p - 0x004100010000) / 0x8000) (p % 0x8000))
  else if 0x004100030000 ≤ p ∧ p < 0x004100040000 then some (.timer (p - 0x004100030000))
  else if 0x004104000000 ≤ p ∧ p < 0x004104010000 then some (.iommu (p - 0x004104000000))
  else (fileAt p).map (fun f => .file f (p % 0x1000))

/-- The lifecycles in which the debug module answers (R74, R570). -/
def debugLife (s : State) : Bool :=
  let lc := lifecycle s
  lc = lcBlank || lc = lcTest || lc = lcFieldDebug || lc = lcReturn

/-- A read of an aligned word; none for an error response. -/
def privWord (s : State) (p : Nat) : Option Word :=
  match privAt p with
  | none => none
  | some (.debug o) => if debugLife s then some (dmRead s (o / 4)) else none
  | some (.aplic d o) => some (aplicRead s d o)
  | some (.timer o) => some (mtRead s o)
  | some (.file _ _) => some 0
  | some (.iommu o) => some (ioRead s o)

/-- A write of an aligned word; false for an error response. -/
def privSet (s : State) (p : Nat) (w : Word) : Bool × State :=
  match privAt p with
  | none => (false, s)
  | some (.debug o) => if debugLife s then (true, dmWrite s (o / 4) w) else (false, s)
  | some (.aplic d o) => (true, aplicWrite s d o w)
  | some (.timer o) => (true, mtWrite s o w)
  | some (.file f o) => (true, fileWrite s f o w)
  | some (.iommu o) => (true, ioWrite s o w)

/-- A read of whole aligned words of the private space; another width or alignment is answered with an error (log entry 23). -/
def privRead (s : State) (p n : Nat) : Option (List Byte) :=
  if p % 4 ≠ 0 ∨ n % 4 ≠ 0 then none
  else (List.range (n / 4)).foldl (fun r i => match r, privWord s (p + 4 * i) with
    | some bs, some w => some (bs ++ leBytes 4 w.toNat)
    | _, _ => none) (some [])

/-- A write of whole aligned words. -/
def privWrite (s : State) (p : Nat) (d : List Byte) : Bool × State :=
  if p % 4 ≠ 0 ∨ d.length % 4 ≠ 0 then (false, s)
  else (List.range (d.length / 4)).foldl (fun (r : Bool × State) i =>
    if r.1 then privSet r.2 (p + 4 * i) (BitVec.ofNat 32 (leNat ((d.drop (4 * i)).take 4))) else r) (true, s)

/-! ## Runs of bytes by a translated device -/

/-- The pieces of [a, a + n) by page. -/
def pages (a n : Nat) : List (Nat × Nat) :=
  if n = 0 then []
  else (List.range ((a + n - 1) / 4096 + 1 - a / 4096)).map (fun k =>
    let lo := max a ((a / 4096 + k) * 4096)
    (lo, min (a + n) ((a / 4096 + k) * 4096 + 4096) - lo))

/-- A device that is coherent with the L2: shuttles 48 to 55 (R73). -/
def coherent (did : Nat) : Bool := bShuttle 48 ≤ did && did ≤ bShuttle 55

/-- Reads bytes at a device address for a tag; none where an access fails. -/
def dmaRead (s : State) (did tag a n : Nat) : Option (List Byte) × State :=
  (pages a n).foldl (fun (p : Option (List Byte) × State) x =>
    match p.1 with
    | none => p
    | some bs =>
      let t := translate p.2 did x.1 false
      match t.1 with
      | none => (none, t.2)
      | some pa =>
        let r := hbmReadRun t.2 did tag pa x.2
        let data := if coherent did then l2Over r.2.2.2 pa r.2.2.1 else r.2.2.1
        (if r.1 = hOk then some (bs ++ data) else none, r.2.2.2)) (some [], s)

/-- Writes bytes at a device address for a tag. -/
def dmaWrite (s : State) (did tag a : Nat) (d : List Byte) : Bool × State :=
  (pages a d.length).foldl (fun (p : Bool × State) x =>
    if !p.1 then p
    else
      let t := translate p.2 did x.1 true
      match t.1 with
      | none => (false, t.2)
      | some pa =>
        if hbmSize ≤ pa then privWrite t.2 pa ((d.drop (x.1 - a)).take x.2)
        else
          let r := hbmWriteRun t.2 did tag pa ((d.drop (x.1 - a)).take x.2)
          (r.1 = hOk, if coherent did then l2Drop r.2.2 pa x.2 else r.2.2)) (true, s)

end Sys2Proof.Machine
end

