-- ==== Sys2Proof/Machine/Shuttle.lean ====
section
/-!
DEFINITION. Shuttles (chapter 12): descriptors, checks, element access, transfers, lanes, completion, takeover, sealed
transfers.
-/

namespace Sys2Proof.Machine

/-! ## State -/

/-- Shuttle `k`. -/
def sh (s : State) (k : Nat) : Shuttle := tabGet Shuttle.reset s.shs k
/-- Changes shuttle `k`. -/
def modSh (s : State) (k : Nat) (f : Shuttle → Shuttle) : State :=
  { s with shs := tabSet Shuttle.reset s.shs k (f (sh s k)) }
/-- The sibling (R410). -/
def sibling (k : Nat) : Nat := k ^^^ 1
/-- The session-key slot of partition `p`. -/
def sessKey (s : State) (p : Nat) : SessKey := tabGet SessKey.reset s.sess p
/-- Sets it. -/
def setSessKey (s : State) (p : Nat) (x : SessKey) : State := { s with sess := tabSet SessKey.reset s.sess p x }

/-! ## Descriptors (R420, R421) -/

/-- Completion codes (R426). -/
abbrev scOk : Nat := 0x00
abbrev scDecode : Nat := 0x10
abbrev scOwner : Nat := 0x11
abbrev scPartition : Nat := 0x12
abbrev scAlign : Nat := 0x13
abbrev scBaddesc : Nat := 0x14
abbrev scOverlap : Nat := 0x15
abbrev scMemerr : Nat := 0x16
abbrev scNokey : Nat := 0x17
abbrev scAuthfail : Nat := 0x18
abbrev scReplay : Nat := 0x19
abbrev scReclen : Nat := 0x1A
abbrev scWindow : Nat := 0x1B
abbrev scAborted : Nat := 0x1C

/-- The shuttle code of a memory status (R438). -/
def scOf (st : Nat) : Nat :=
  if st = hOk then scOk else if st = hDecode then scDecode else if st = hPartition ∨ st = hWiping then scPartition
  else scMemerr

/-- A descriptor from its 64 bytes. -/
def shDescOf (d : List Byte) : ShDesc :=
  let n := fun (a k : Nat) => leNat ((d.drop a).take k)
  ⟨n 0 8, n 8 8, n 16 4, n 20 2, n 22 2, n 24 2, n 26 2, n 32 8, n 40 8⟩

/-- The shadow set of shuttle `k`. -/
def shShadow (s : State) (k : Nat) : ShDesc :=
  let b := bShuttle k
  { src := rdPair s b F.SH_SRC_LO_ADDR F.SH_SRC_HI_ADDR
    dst := rdPair s b F.SH_DST_LO_ADDR F.SH_DST_HI_ADDR
    len := rd s b F.SH_LEN_LEN
    cfg := rd s b F.SH_CFG_CFG
    lamp := rd s b F.SH_CFG_LAMP
    sstr := rd s b F.SH_STRIDE_SSTRIDE
    dstr := rd s b F.SH_STRIDE_DSTRIDE
    pat := rdPair s b F.SH_PAT_LO_PATTERN F.SH_PAT_HI_PATTERN
    next := rdPair s b F.SH_NEXT_LO_ADDR F.SH_NEXT_HI_ADDR }

/-- CFG fields. -/
def ShDesc.op (d : ShDesc) : Nat := bits d.cfg 1 0
def ShDesc.swc (d : ShDesc) : Nat := bits d.cfg 4 2
def ShDesc.dwc (d : ShDesc) : Nat := bits d.cfg 7 5
def ShDesc.wmode (d : ShDesc) : Nat := bits d.cfg 9 8
def ShDesc.crypt (d : ShDesc) : Nat := bits d.cfg 11 10
def ShDesc.chain (d : ShDesc) : Bool := bit d.cfg 12
def ShDesc.irq (d : ShDesc) : Bool := bit d.cfg 13
def ShDesc.lampen (d : ShDesc) : Bool := bit d.cfg 14
def ShDesc.wb (d : ShDesc) : Bool := bit d.cfg 15
/-- Element widths and the strides they are read and written at. -/
def ShDesc.sw (d : ShDesc) : Nat := 2 ^ d.swc
def ShDesc.dw (d : ShDesc) : Nat := 2 ^ d.dwc
def ShDesc.ss (d : ShDesc) : Nat := if d.sstr = 0 then d.sw else d.sstr
def ShDesc.ds (d : ShDesc) : Nat := if d.dstr = 0 then d.dw else d.dstr

/-- The LOCAL form. -/
def isLocal (a : Nat) : Bool := bit a 63
/-- Its loom and local address. -/
def locLoom (a : Nat) : Nat := bits a 33 24
def locAddr (a : Nat) : Nat := bits a 23 0
/-- A LOCAL address word. -/
def mkLocal (l a : Nat) : Nat := 2 ^ 63 + l * 2 ^ 24 + a

/-- An address word that shuttle `k` accepts (R416). -/
def shAddrOk (k a : Nat) : Bool :=
  if isLocal a then k < 48 && bits a 62 34 = 0 && locLoom a / 32 = k / 2 && locAddr a < 0x180000
  else bits a 62 48 = 0

/-- The extent of a side (R411). -/
def extent (len w t : Nat) : Nat := if len = 0 then 0 else (len / w - 1) * t + w

/-- Two sides share bytes of one address space. -/
def shOverlap (d : ShDesc) : Bool :=
  let es := extent d.len d.sw d.ss
  let ed := extent d.len d.dw d.ds
  let meets := fun (a b : Nat) => a < b + ed && b < a + es
  if isLocal d.src != isLocal d.dst then false
  else if isLocal d.src then locLoom d.src = locLoom d.dst && meets (locAddr d.src) (locAddr d.dst)
  else meets d.src d.dst

/-- The checks before the first access (R414, R416, R428); the code of the first that fails. -/
def shCheck (k : Nat) (d : ShDesc) : Nat :=
  let fill := d.op = 1
  let scratchDst := isLocal d.dst && locAddr d.dst + extent d.len d.dw d.ds ≤ 0x80000
  if d.len = 0 then scOk
  else if d.op = 3 ∨ 6 ≤ d.swc ∨ 6 ≤ d.dwc ∨ d.sstr % d.sw ≠ 0 ∨ d.dstr % d.dw ≠ 0 ∨ d.wmode = 3
      ∨ (d.wmode ≠ 0 ∧ (!scratchDst ∨ d.op = 2)) ∨ (d.crypt ≠ 0 ∧ k < 56) ∨ d.crypt = 3
      ∨ (!fill ∧ !shAddrOk k d.src) ∨ !shAddrOk k d.dst
      ∨ (d.crypt ≠ 0 ∧ (d.swc ≠ 5 ∨ d.dwc ≠ 5 ∨ d.ss ≠ 32 ∨ d.ds ≠ 32 ∨ d.wmode ≠ 0 ∨ d.op ≠ 0)) then scBaddesc
  else if (!fill ∧ d.len % d.sw ≠ 0) ∨ d.len % d.dw ≠ 0 ∨ (!fill ∧ d.src % d.sw ≠ 0) ∨ d.dst % d.dw ≠ 0 then scAlign
  else if d.op = 0 ∧ shOverlap d then scOverlap
  else scOk

/-- The failing address of a descriptor that fails a check (R426): the side that is at fault, else the first side that it uses. -/
def shBadAddr (k : Nat) (d : ShDesc) : Nat :=
  let fill := d.op = 1
  let bad := fun (a w : Nat) => !shAddrOk k a || a % w != 0
  if fill ∨ (!bad d.src d.sw ∧ bad d.dst d.dw) then d.dst else d.src

/-! ## Element access (R410, R416, R417) -/

/-- What an access is made for: the shuttle that runs it, the lane's kind, the tag. -/
structure ShCtx where
  k : Nat
  lane : ShLane
  tag : Nat
  deriving DecidableEq, Repr

/-- The load window of R313. -/
def loadWindow (s : State) (l : Nat) : Bool := !(seqOf s l).running && (beatState s = stIdle || beatState s = stStopped)

/-- The owner code of bank `b` of loom `l` lets a lane's transfer in (R313). -/
def shCode (s : State) (lane : ShLane) (l b : Nat) : Bool :=
  let o := owner s l b
  o = ownShuttle || o = ownShared || (lane = .queue && o = ownSeq) || (lane = .page && loadWindow s l)

/-- A transfer may touch bank `b` of loom `l`: accepted under the old code of a drain, or by the present code (R313, R316). -/
def shBank (s : State) (x : ShCtx) (l b : Nat) : Bool :=
  (loom s l).drains.any (fun e => e.1 = b && e.2.shuttles.contains x.k) || shCode s x.lane l b

/-- A LOCAL access of `n` bytes is allowed; the state with the refusal counted where it is not: a tag that the loom's shuttle port refuses
(R352), and an isolated site, which nothing reaches (R355; OWNER for that is the model's choice, log entry 139). -/
def localOk (s : State) (x : ShCtx) (l a n : Nat) : Bool × State :=
  let b := bLoom l
  let m := loom s l
  if isolated s l then (false, isoDrop s l)
  else if x.tag < 16 ∧ rd s b F.OWNER_PART ≠ x.tag then (false, latchFault (inc s b F.LOOM_PARTDROP_COUNT) b 0x0115)
  else if a + n ≤ 0x80000 then
    if (banksOf a n).all (shBank s x l) then (true, s) else (false, inc s b F.LOOM_BOWNREFUSE_COUNT)
  else if 0x80000 ≤ a ∧ a + n ≤ 0x100000 then (true, s)
  else if 0x100000 ≤ a ∧ a + n ≤ 0x180000 then
    let t := m.lat.tens
    if t.learn ∧ a - 0x100000 < t.base + t.size ∧ t.base < a - 0x100000 + n then
      (false, inc s b F.LOOM_TPREFUSE_COUNT)
    else (true, s)
  else (false, s)

/-- Reads a LOCAL piece: code and bytes. -/
def localRead (s : State) (x : ShCtx) (l a n : Nat) : Nat × List Byte × State :=
  let r := localOk s x l a n
  if !r.1 then (scOwner, [], r.2)
  else if a < 0x80000 then
    let c := scratchCheck r.2 l a n
    if c.1 then (scOk, tabGetRun 0 (loom c.2 l).scratch a n, c.2) else (scMemerr, [], c.2)
  else if a < 0x100000 then
    let c := nstoreCheck r.2 l (a - 0x80000) n
    if c.1 then (scOk, tabGetRun 0 (loom c.2 l).nstore (a - 0x80000) n, c.2) else (scMemerr, [], c.2)
  else
    let c := sstoreCheck r.2 l (a - 0x100000) n
    if c.1 then (scOk, tabGetRun 0 (loom c.2 l).sstore (a - 0x100000) n, c.2) else (scMemerr, [], c.2)

/-- Writes a LOCAL piece, plain or through the bit-set or bit-clear alias (R322, R415); one that modifies a word reads it, and a write to
the neuron or the synapse store may be held there (R112, R147). -/
def localWrite (s : State) (x : ShCtx) (l a wmode : Nat) (d : List Byte) : Nat × State :=
  let r := localOk s x l a d.length
  if !r.1 then (scOwner, r.2)
  else
    if a < 0x80000 then
      let c := if wmode = 0 then (true, r.2) else scratchCheck r.2 l a d.length
      let m := loom c.2 l
      let old := tabGetRun 0 m.scratch a d.length
      let v := if wmode = 1 then List.zipWith (· ||| ·) old d
        else if wmode = 2 then List.zipWith (fun o x => o &&& ~~~x) old d else d
      if c.1 then (scOk, setLoom c.2 l (scrMend c.2 l a d.length { m with scratch := tabSetRun 0 m.scratch a v }))
      else (scMemerr, c.2)
    else (scOk, modLoom r.2 l (fun m => storeWrite m none a d))

/-- Where a PHYS piece goes. -/
inductive PhysTarget where
  | hbm (a : Nat)
  | priv (a : Nat)
  | window
  | none
  deriving DecidableEq, Repr

/-- A shuttle of the application cluster's group, which the IOMMU serves (R77). -/
def apcGroup (k : Nat) : Bool := 48 ≤ k && k < 56

/-- Decodes a physical address for shuttle `k` (R37, R410, R417). -/
def physAt (k p : Nat) : PhysTarget :=
  if p < hbmSize then .hbm p
  else if 0x004200000000 ≤ p ∧ p < 0x004300000000 then .window
  else if apcGroup k && (privAt p).isSome then .priv p else .none

/-- Decodes a PHYS address word for a shuttle, after the translation of the application cluster's group by device id (R37, R77, R410,
R417). -/
def physTarget (s : State) (k a : Nat) (write : Bool) : PhysTarget × State :=
  if apcGroup k then
    let t := translate s (bShuttle k) a write
    (match t.1 with | some p => physAt k p | Option.none => .none, t.2)
  else (physAt k a, s)

/-- Reads one piece of a side. -/
def shRead (s : State) (x : ShCtx) (a n : Nat) : Nat × List Byte × State :=
  if isLocal a then localRead s x (locLoom a) (locAddr a) n
  else
    let t := physTarget s x.k a false
    match t.1 with
    | .hbm p => let r := hbmRead (hbmTurn t.2 (bShuttle x.k) p) x.tag p n
      (scOf r.1, if apcGroup x.k then l2Over r.2.2 p r.2.1 else r.2.1, r.2.2)
    | .priv p => match privRead t.2 p n with
      | some bs => (scOk, bs, t.2)
      | none => (scDecode, [], t.2)
    | .window => (scWindow, [], t.2)
    | .none => (scDecode, [], t.2)

/-- Writes one piece of a side. -/
def shWrite (s : State) (x : ShCtx) (a wmode : Nat) (d : List Byte) : Nat × State :=
  if isLocal a then localWrite s x (locLoom a) (locAddr a) wmode d
  else
    let t := physTarget s x.k a true
    match t.1 with
    | .hbm p => let r := hbmWrite (hbmTurn t.2 (bShuttle x.k) p) x.tag p d
      (scOf r.1, if apcGroup x.k && r.1 = hOk then l2Drop r.2 p d.length else r.2)
    | .priv p => let r := privWrite t.2 p d
      (if r.1 then scOk else scDecode, r.2)
    | .window => (scWindow, t.2)
    | .none => (scDecode, t.2)

/-- The pieces of a side: granules of a contiguous HBM side, else elements. -/
def shPieces (a w t len : Nat) : List (Nat × Nat) :=
  if t = w ∧ !isLocal a then granules a len else (List.range (len / w)).map (fun i => (a + i * t, w))

/-- Reads a side in stream order up to the first failure: code, failing address, bytes. -/
def shReadSide (s : State) (x : ShCtx) (a w t len : Nat) : Nat × Nat × List Byte × State :=
  (shPieces a w t len).foldl (fun (p : Nat × Nat × List Byte × State) e =>
    if p.1 ≠ scOk then p
    else
      let r := shRead p.2.2.2 x e.1 e.2
      if r.1 = scOk then (scOk, 0, p.2.2.1 ++ r.2.1, r.2.2) else (r.1, e.1, p.2.2.1, r.2.2)) (scOk, 0, [], s)

/-- Writes a side in stream order up to the first failure. -/
def shWriteSide (s : State) (x : ShCtx) (a w t wmode : Nat) (d : List Byte) : Nat × Nat × Nat × State :=
  (shPieces a w t (d.length / w * w)).foldl (fun (p : Nat × Nat × Nat × State) e =>
    if p.1 ≠ scOk then p
    else
      let r := shWrite p.2.2.2 x e.1 wmode ((d.drop p.2.2.1).take e.2)
      if r.1 = scOk then (scOk, 0, p.2.2.1 + e.2, r.2) else (r.1, e.1, p.2.2.1, r.2)) (scOk, 0, 0, s)

/-! ## Sealed transfers (R428, R429) -/

/-- The enabled window slot of tag `p` that holds device addresses [a, a + n) whole (R417, R428, R489). -/
def windowOf (s : State) (p a n : Nat) : Option Nat :=
  (List.range 64).find? (fun i =>
    let base := 0x004200000000 + rdI s bHostport F.HOSTPORT_WINDBASE_DBASE i * 4096
    rdI s bHostport F.HOSTPORT_WINCTL_EN i = 1 && rdI s bHostport F.HOSTPORT_WINCTL_PART i = p && base ≤ a
      && a + n ≤ base + rdI s bHostport F.HOSTPORT_WINSIZE_SIZE i * 4096)

/-- The host address of a device address in slot `i`. -/
def windowHost (s : State) (i a : Nat) : Nat :=
  rdI s bHostport F.HOSTPORT_WINHADDR_LO_HADDR i + rdI s bHostport F.HOSTPORT_WINHADDR_HI_HADDR i * 2 ^ 32
    + (a - (0x004200000000 + rdI s bHostport F.HOSTPORT_WINDBASE_DBASE i * 4096))

/-- The first 16 bytes of a record. -/
def recHeader (dir p gen ctr len : Nat) : List Byte :=
  [BitVec.ofNat 8 dir, BitVec.ofNat 8 p] ++ leBytes 2 gen ++ leBytes 8 ctr ++ leBytes 4 len

/-- SEAL: into a window of the tag's partition, under that partition's slot. -/
def shSeal (s : State) (x : ShCtx) (d : ShDesc) : ShRes × State :=
  match windowOf s x.tag d.dst (d.len + 32) with
  | none => (⟨scWindow, d.dst, 0, none⟩, s)
  | some i =>
    let p := x.tag
    let key := sessKey s p
    if !key.loaded ∨ key.sealCtr = 2 ^ 64 - 1 then (⟨scNokey, d.dst, 0, none⟩, s)
    else
      let r := shReadSide s x d.src 32 32 d.len
      if r.1 ≠ scOk then (⟨r.1, r.2.1, r.2.2.1.length, none⟩, r.2.2.2)
      else
        let hdr := recHeader 1 p key.gen key.sealCtr d.len
        let ct := padTo (d.len + 16) (Config.crypto algGcmSeal (leBytes 32 key.key) (hdr ++ r.2.2.1))
        let s := setSessKey r.2.2.2 p { key with sealCtr := key.sealCtr + 1 }
        (⟨scOk, 0, d.len, none⟩, send s .pcie (p + 1) (windowHost s i d.dst :: (hdr ++ ct).map (·.toNat)))

/-- OPEN: `host` is the record as the host's memory gives it. -/
def shOpen (s : State) (x : ShCtx) (d : ShDesc) (host : List Byte) : ShRes × State :=
  match windowOf s x.tag d.src (d.len + 32) with
  | none => (⟨scWindow, d.src, 0, none⟩, s)
  | some _ =>
    let p := x.tag
    let key := sessKey s p
    let rec' := padTo (d.len + 32) host
    let n := fun (a k : Nat) => leNat ((rec'.drop a).take k)
    if !key.loaded ∨ n 0 1 ≠ 2 ∨ n 1 1 ≠ p ∨ n 2 2 ≠ key.gen then (⟨scNokey, d.src, 0, none⟩, s)
    else if n 12 4 ≠ d.len then (⟨scReclen, d.src, 0, none⟩, s)
    else if n 4 8 ≤ key.openCtr then (⟨scReplay, d.src, 0, none⟩, s)
    else
      let k := leBytes 32 key.key
      let body := rec'.take (16 + d.len)
      let w := shWriteSide s x d.dst 32 32 0 (padTo d.len (Config.crypto algGcmOpen k body))
      if w.1 ≠ scOk then (⟨w.1, w.2.1, w.2.2.1, none⟩, w.2.2.2)
      else if Config.verifies algGcmOpen k body (rec'.drop (16 + d.len)) then
        (⟨scOk, 0, d.len, none⟩, setSessKey w.2.2.2 p { key with openCtr := n 4 8 })
      else (⟨scAuthfail, d.src, 0, none⟩, (shWriteSide w.2.2.2 x d.dst 32 32 0 (List.replicate d.len 0)).2.2.2)

/-! ## Transfers (R411 to R413) -/

/-- The first differing offset and the number of differing bytes. -/
def shCompare (a b : List Byte) : Nat × Nat :=
  let diff := (List.range (min a.length b.length)).filter (fun i => a[i]? != b[i]?)
  (diff.headD 0xFFFFFFFF, diff.length)

/-- Performs a checked transfer. -/
def shTransfer (s : State) (x : ShCtx) (d : ShDesc) (host : List Byte) : ShRes × State :=
  if d.len = 0 then (⟨scOk, 0, 0, if d.op = 2 then some (0xFFFFFFFF, 0) else none⟩, s)
  else if d.crypt = 1 then shSeal s x d
  else if d.crypt = 2 then shOpen s x d host
  else
    let src := if d.op = 1 then (scOk, 0, (List.range d.len).map (fun i => BitVec.ofNat 8 (d.pat / 256 ^ (i % 8))), s)
      else shReadSide s x d.src d.sw d.ss d.len
    if d.op = 2 then
      if src.1 ≠ scOk then (⟨src.1, src.2.1, src.2.2.1.length, none⟩, src.2.2.2)
      else
        let dst := shReadSide src.2.2.2 x d.dst d.dw d.ds d.len
        if dst.1 ≠ scOk then (⟨dst.1, dst.2.1, dst.2.2.1.length, none⟩, dst.2.2.2)
        else (⟨scOk, 0, d.len, some (shCompare src.2.2.1 dst.2.2.1)⟩, dst.2.2.2)
    else
      let w := shWriteSide src.2.2.2 x d.dst d.dw d.ds d.wmode src.2.2.1
      if w.1 ≠ scOk then (⟨w.1, w.2.1, w.2.2.1, none⟩, w.2.2.2)
      else (⟨src.1, src.2.1, w.2.2.1, none⟩, w.2.2.2)

/-- The LOCAL ranges of a descriptor: loom, address, bytes, written. -/
def shLocals (d : ShDesc) : List (Nat × Nat × Nat × Bool) :=
  let es := extent d.len d.sw d.ss
  let ed := extent d.len d.dw d.ds
  (if d.op != 1 && isLocal d.src && d.len != 0 then [(locLoom d.src, locAddr d.src, es, false)] else [])
    ++ (if isLocal d.dst && d.len != 0 then [(locLoom d.dst, locAddr d.dst, ed, d.op != 2)] else [])

/-- The banks of loom `l` that a descriptor touches. -/
def shBanks (d : ShDesc) (l : Nat) : List Nat :=
  (shLocals d).flatMap (fun r => if r.1 = l ∧ r.2.1 < 0x80000 then banksOf r.2.1 (min r.2.2.1 (0x80000 - r.2.1)) else [])

/-- The source lies outside the loom that the transfer writes (R613). -/
def shOutside (d : ShDesc) : Bool := isLocal d.dst && (d.op = 1 || !isLocal d.src || locLoom d.src != locLoom d.dst)

/-- The XFER records of a transfer into a loom from outside: one for a contiguous side, else one per element. -/
def shLog (s : State) (d : ShDesc) : State :=
  if !shOutside d ∨ d.op = 2 then s
  else if d.ds = d.dw then logXfer s (locLoom d.dst) (locAddr d.dst) d.len
  else forEach (List.range (d.len / d.dw)) (fun i s => logXfer s (locLoom d.dst) (locAddr d.dst + i * d.ds) d.dw) s

/-- An access of shuttle `k` to a LOCAL piece in scratch is held at a bank: one that was accepted under the old code of a drain completes
(R316), but at a move or a region under test every access is held (R324, R326). -/
def shPieceHeld (s : State) (k l a n : Nat) : Bool :=
  let m := loom s l
  a < 0x80000 && holdsAny m && (banksOf a n).any (fun b =>
    if m.drains.any (fun e => e.1 = b && e.2.shuttles.contains k) then
      m.moving.contains b || testMeets s l b (max a (b * 65536)) (min (a + n) (b * 65536 + 65536))
    else partHeld s l a n b)

/-- Where a side of the transfer first stops in stream order, and whether it is held there or else refused; the present code judges (R316). -/
def shSideStop (s : State) (x : ShCtx) (a w t len : Nat) : Option (Nat × Bool) :=
  let l := locLoom a
  let allowed := fun (e : Nat × Nat) => (localOk s x l (locAddr e.1) e.2).1
  if !isLocal a then none
  else (findIdx? (fun e => shPieceHeld s x.k l (locAddr e.1) e.2 || !allowed e) (shPieces a w t len)).map
    (fun i => (i * w, allowed (a + i * t, w)))

/-- The transfer meets a bank that holds its access, before one that refuses it. What comes before it is performed in the same step as the
rest. -/
def shBankHeld (s : State) (x : ShCtx) (d : ShDesc) : Bool :=
  (shLocals d).any (fun r => holdsAny (loom s r.1)) &&
    match (if d.op = 1 then none else shSideStop s x d.src d.sw d.ss d.len), shSideStop s x d.dst d.dw d.ds d.len with
    | none, none => false
    | some p, none => p.2
    | none, some q => q.2
    | some p, some q => if p.1 ≤ q.1 then p.2 else q.2

/-- A side's memory answers: always a LOCAL one; for the application cluster's group, which translates its addresses, all of HBM. -/
def shSideUp (s : State) (k a n : Nat) : Bool :=
  isLocal a || (if apcGroup k then memUp s 0 hbmSize else memUp s a n)

/-- The memory that a transfer reads or writes answers (R456). -/
def shMemUp (s : State) (k : Nat) (d : ShDesc) : Bool :=
  (d.op = 1 || d.crypt = 2 || shSideUp s k d.src (extent d.len d.sw d.ss)) && (d.crypt = 1 || shSideUp s k d.dst (extent d.len d.dw d.ds))

/-- Some access of the transfer is held: at a bank (R316, R324, R326), at a full pick log (R613), or at a controller in reset (R456). -/
def shHeld (s : State) (x : ShCtx) (d : ShDesc) : Bool :=
  !shMemUp s x.k d || shBankHeld s x d || (shLocals d).any (fun r => r.2.2.2 && shOutside d && logFull s r.1)

/-- A write of the transfer is held at a loom's store (R112, R147). -/
def shStoresHeld (s : State) (d : ShDesc) : Bool :=
  (shLocals d).any (fun r => r.2.2.2 && 0x80000 < r.2.1 + r.2.2.1
    && ((r.2.1 < 0x100000 && nstoreHeld (loom s r.1)) || (0x100000 < r.2.1 + r.2.2.1 && sstoreHeld (loom s r.1))))

/-! ## Completion (R422, R423) -/

/-- The tag of shuttle `k`'s page lane. -/
def shPageTag (s : State) (k : Nat) : Nat := rd s (bShuttle k) F.OWNER_PART

/-- Ends the page lane's chain: an armed shadow set starts. -/
def shPageEnd (s : State) (h : Nat) : State :=
  let b := bShuttle h
  if (sh s h).armed then
    wr (modSh s h (fun x => { x with armed := false, page := some (.desc (shShadow s h) none) })) b F.SH_STAT_ARMED 0
  else wr (modSh s h (fun x => { x with page := none })) b F.SH_STAT_ACTIVE 0

/-- SH_EVENT of the page lane: DONE on IRQ, ERR on an error code; an enabled event asserts the line and, on the host
port's shuttles, MSI-X vector 0 of the tag's function (R431, R487). -/
def shEvent (s : State) (h tag : Nat) (irq err : Bool) : State :=
  let b := bShuttle h
  let s := if irq then wr s b F.SH_EVENT_DONE 1 else s
  let s := if err then wr s b F.SH_EVENT_ERR 1 else s
  let w := rd s b F.SH_EVENT_DONE + 2 * rd s b F.SH_EVENT_ERR
  let s := if (irq || err) && (w &&& rd s b F.SH_EVENTEN_EN) != 0 then send s .apc b [1] else s
  if (irq || err) && 56 ≤ h then send s .msix (if tag < 16 then tag + 1 else 0) [0] else s

/-- What the next descriptor of a chain is. -/
def shChain (d : ShDesc) (code : Nat) : Option ShNext := if code = scOk ∧ d.chain then some (.fetch d.next) else none

/-- Moves a lane on after a descriptor ended with `code`: `nx` is what its chain runs next. -/
def shLaneNext (s : State) (h : Nat) (lane : ShLane) (ticket : Option Nat) (nx : Option ShNext) (code : Nat) : State :=
  match lane with
  | .page => match nx with
    | some n => modSh s h (fun x => { x with page := some n })
    | none => shPageEnd s h
  | .queue => match ticket with
    | none => s
    | some t =>
      let upd := fun (e : ShEntry) => if e.ticket = t then
          match nx with
          | some n => { e with next := n }
          | none => { e with code := some code }
        else e
      modSh s h (fun x => { x with queue := (x.queue.map upd).filter (fun e => !(e.lost && e.code.isSome)) })

/-- A lane's descriptor ends without having been fetched: the chain ends with the fetch's code, which counts as an error (R422, R433). -/
def shFetchFail (s : State) (h : Nat) (lane : ShLane) (ticket : Option Nat) (addr code : Nat) : State :=
  let b := bShuttle h
  let s := inc s b F.SH_ERRORS_COUNT
  let s := wrPair s b F.SH_ERRADDR_LO_ADDR F.SH_ERRADDR_HI_ADDR addr
  let s := wrPair s b F.SH_ERRDESC_LO_ADDR F.SH_ERRDESC_HI_ADDR addr
  let s := if lane = .page then shEvent (wr s b F.SH_STAT_CODE code) h (shPageTag s h) false true else s
  shLaneNext s h lane ticket none code

/-- The address of the STATUS word that a descriptor writes back, if any (R421, R423). -/
def shStatusAt (r : ShRun) : Option Nat := if r.desc.wb then r.addr.map (· + 56) else none

/-- Writes the STATUS word. -/
def shStatus (s : State) (x : ShCtx) (r : ShRun) (res : ShRes) : State :=
  match shStatusAt r with
  | some a =>
    let cnt := match res.cmp with | some c => c.2 | none => 0
    (shWrite s { x with tag := r.tag } a 0 (leBytes 4 res.code ++ leBytes 4 cnt)).2
  | none => s

/-- The bytes that shuttle `k` has moved for a lane of shuttle `h`: SH_BYTES of the lane's frame, and PROGRESS of the shuttle that moved them
(R431, R433). -/
def shMoved (s : State) (k h n : Nat) : State :=
  let total := (sh s h).rest + n
  incBy (incBy (modSh s h (fun x => { x with rest := total % 64 })) (bShuttle h) F.SH_BYTES_COUNT (total / 64))
    (bShuttle k) F.PROGRESS_COUNT (total / 64)

/-- A descriptor that shuttle `k` ran ends, its STATUS word written: the lamp, the event, the ticket, in this order. -/
def shDone (s : State) (k : Nat) (r : ShRun) (res : ShRes) : State :=
  let h := r.home
  let b := bShuttle h
  let d := r.desc
  let page := r.lane = .page
  let err := res.code != scOk
  let s := if d.lampen then send s .lampAdd (bHub (d.lamp % 16384 / 1024)) [b, d.lamp % 1024, r.tag, 1] else s
  let s := inc s b F.SH_DESCS_COUNT
  let s := if err then
      let s := inc s b F.SH_ERRORS_COUNT
      let s := if res.code != scAborted then wrPair s b F.SH_ERRADDR_LO_ADDR F.SH_ERRADDR_HI_ADDR res.err else s
      wrPair s b F.SH_ERRDESC_LO_ADDR F.SH_ERRDESC_HI_ADDR (r.addr.getD 0)
    else s
  let s := if res.code = scAuthfail ∨ res.code = scReplay then
      securityEvent (inc s b F.SH_AUTHFAIL_COUNT) b res.code
    else s
  let s := match res.cmp with
    | some c => if page then wr (wr s b F.SH_CMPOFF_OFFSET c.1) b F.SH_CMPCNT_COUNT c.2 else s
    | none => s
  let s := if page then wr (wr s b F.SH_STAT_CODE res.code) b F.SH_DONE_BYTES res.bytes else s
  let s := shMoved s k h res.bytes
  let s := if page then shEvent s h r.tag d.irq err else s
  shLaneNext s h r.lane r.ticket (shChain d res.code) res.code

/-- Shuttle `k` runs no descriptor any more. -/
def shFreed (s : State) (k : Nat) : State := modSh s k (fun y => { y with run := none, wait := none, job := none })

/-- What a STATUS word waits for before it is written: a bank, in a loom, or a controller. -/
def shStatusBank (s : State) (x : ShCtx) (r : ShRun) : Bool :=
  match shStatusAt r with
  | some a => !shSideUp s x.k a 8 || isLocal a && shPieceHeld s x.k (locLoom a) (locAddr a) 8 && (localOk s { x with tag := r.tag } (locLoom a) (locAddr a) 8).1
  | none => false

/-- What it waits for once it has been written: a store's last slot update. -/
def shStatusStore (s : State) (r : ShRun) : Bool :=
  match shStatusAt r with
  | some a => isLocal a && 0x80000 ≤ locAddr a && storeHeld (loom s (locLoom a)) (locAddr a)
  | none => false

/-- The running transfer of shuttle `k` gave `res`: it completes, or waits for a write of its own or of its STATUS word that is held, since
the steps of a completion keep their order (R423). -/
def shEnd (s : State) (k : Nat) (x : ShCtx) (r : ShRun) (res : ShRes) : State :=
  if (res.bytes ≠ 0 ∧ shStoresHeld s r.desc) ∨ shStatusBank s x r then modSh s k (fun y => { y with wait := some (res, false) })
  else
    let held := shStatusStore s r
    let s := shStatus s x r res
    if held then modSh s k (fun y => { y with wait := some (res, true) }) else shDone (shFreed s k) k r res

/-- A completion that waits goes on when nothing holds it any more. -/
def shResume (s : State) (k : Nat) : State :=
  match (sh s k).run, (sh s k).wait with
  | some r, some (res, written) =>
    if (sh s k).failed then s
    else if written then (if shStatusStore s r then s else shDone (shFreed s k) k r res)
    else shEnd s k ⟨k, r.lane, r.tag⟩ r res
  | _, _ => s

/-! ## Lanes (R418, R419, R427) -/

/-- The shuttles whose lanes shuttle `k` serves: its own, and its sibling's once that has failed (R427). -/
def shHomes (s : State) (k : Nat) : List Nat := if (sh s (sibling k)).failed then [k, sibling k] else [k]

/-- The snapshot of loom `l` is captured and not yet written (R612). -/
def snapPending (s : State) (l : Nat) : Bool :=
  match snapImg s l (tabGet 0 s.ll.snapSeq l % 2) with
  | some i => !i.done && i.seq = tabGet 0 s.ll.snapSeq l && (loom s l).phase != .opening
  | none => false

/-- The log of loom `l` has records to write and room for them (R614, R615). -/
def logPending (s : State) (l : Nat) : Bool :=
  let n := min 64 (loom s l).logBuf.length
  n != 0 && logOn s && logKept s l + n ≤ logWords s

/-- The custody-lane work of shuttle `h`, one descriptor each, for the looms of its row-half: the snapshots, then the pick logs, in loom
order (R418; that order is the model's choice, log entry 140). -/
def shJobs (s : State) (h : Nat) : List ShJob :=
  let looms := if h < 48 then (List.range 16).map (fun i => 16 * h + i) else []
  (looms.filter (snapPending s)).map ShJob.snap ++ (looms.filter (logPending s)).map ShJob.log

/-- A lane of shuttle `h` is served by the other shuttle just now. -/
def shElsewhere (s : State) (k h : Nat) (lane : ShLane) : Bool :=
  match (sh s (sibling k)).run with
  | some r => !(sh s (sibling k)).failed && r.home = h && r.lane = lane
  | none => false

/-- The page and queue lanes with work that shuttle `k` serves, its own and those taken over, in the order of service after `last`. -/
def shLanes (s : State) (k : Nat) : List (Nat × ShLane) :=
  let homes := shHomes s k
  let work := fun (h : Nat) (lane : ShLane) => !shElsewhere s k h lane &&
    (if lane = .page then (sh s h).page.isSome else (sh s h).queue.any (fun e => e.code.isNone))
  let all := homes.flatMap (fun h => [(h, ShLane.page), (h, ShLane.queue)])
  let code := fun (p : Nat × ShLane) => p.1 * 2 + (if p.2 = .queue then 1 else 0)
  let after := match (sh s k).last with
    | some c => all.dropWhile (fun p => code p != c)
    | none => []
  let order := after.drop 1 ++ all
  order.filter (fun p => work p.1 p.2)

/-- What a lane runs next, its tag and its ticket. -/
def shLaneHead (s : State) (h : Nat) (lane : ShLane) : Option (ShNext × Nat × Option Nat) :=
  match lane with
  | .page => (sh s h).page.map (fun n => (n, shPageTag s h, none))
  | .queue => ((sh s h).queue.find? (fun e => e.code.isNone)).map (fun e => (e.next, e.tag, some e.ticket))

/-- Starts a descriptor: the checks, or at once the end of one that fails them or is empty. -/
def shBegin (s : State) (k : Nat) (r : ShRun) : State :=
  let x : ShCtx := ⟨k, r.lane, r.tag⟩
  let c := shCheck k r.desc
  let s := if r.lane = .page then wr s (bShuttle r.home) F.SH_DONE_BYTES 0 else s
  if c ≠ scOk then
    shEnd (modSh s k (fun y => { y with run := some r })) k x r ⟨c, shBadAddr k r.desc, 0, none⟩
  else
    let s := modSh s k (fun y => { y with run := some r })
    if r.desc.len = 0 then
      let t := shTransfer s x r.desc []
      shEnd t.2 k x r t.1
    else s

/-- The looms whose banks drain a transfer by its number: shuttle `j` runs what shuttle `k` was running (R316, R427). -/
def shRedrain (s : State) (k j : Nat) (d : ShDesc) : State :=
  forEach ((shLocals d).map (·.1)) (fun l s => modLoom s l (fun m => { m with
    drains := m.drains.map (fun e => (e.1, { e.2 with shuttles := e.2.shuttles.map (fun i => if i = k then j else i) })) })) s

/-- SHUTTLE_DESCRIPTOR_START: a descriptor that its sibling's failure broke off, else the custody lane's work, else the lane whose turn it
is. -/
def shStart (s : State) (k : Nat) : State :=
  if (sh s k).run.isSome ∨ (sh s k).job.isSome ∨ (sh s k).failed then s
  else
    let sib := sibling k
    match (if (sh s sib).failed then (sh s sib).redo else none) with
    | some r =>
      let s := inc (modSh s sib (fun x => { x with redo := none })) (bShuttle k) F.SH_RESTART_COUNT
      shRedrain (modSh s k (fun y => { y with run := some r })) sib k r.desc
    | none =>
      match ((shHomes s k).flatMap (shJobs s)).find? (fun j => (sh s sib).job != some j), (shLanes s k).head? with
      | some j, _ => modSh s k (fun y => { y with job := some j })
      | none, none => s
      | none, some (h, lane) =>
        match shLaneHead s h lane with
        | none => s
        | some (nx, tag, ticket) =>
          let s0 := s
          let s := modSh s k (fun y => { y with last := some (h * 2 + (if lane = .queue then 1 else 0)) })
          match nx with
          | .desc d a => shBegin s k ⟨h, lane, d, a, tag, ticket⟩
          | .fetch a =>
            if !shAddrOk k a then shFetchFail s h lane ticket a scBaddesc
            else if a % 64 ≠ 0 then shFetchFail s h lane ticket a scAlign
            else if !shSideUp s k a 64 then s0
            else if isLocal a && (localOk s ⟨k, lane, tag⟩ (locLoom a) (locAddr a) 64).1 && shPieceHeld s k (locLoom a) (locAddr a) 64 then s0
            else
              let r := shRead s ⟨k, lane, tag⟩ a 64
              if r.1 = scOk then shBegin r.2.2 k ⟨h, lane, shDescOf r.2.1, some a, tag, ticket⟩
              else shFetchFail r.2.2 h lane ticket a r.1

/-- A transfer that was accepted under an old owner code has ended: its banks drain on. -/
def shUndrain (s : State) (k : Nat) (d : ShDesc) : State :=
  forEach ((shLocals d).map (·.1)) (fun l s => modLoom s l (fun m => { m with
    drains := m.drains.map (fun e => (e.1, { e.2 with shuttles := e.2.shuttles.filter (fun j => j != k) })) })) s

/-- SHUTTLE_TRANSFER_DONE: nothing while an access of the transfer is held; a completion that waits goes on. -/
def shFinish (s : State) (k : Nat) (host : List Byte) : State :=
  match (sh s k).run with
  | none => s
  | some r =>
    let x : ShCtx := ⟨k, r.lane, r.tag⟩
    if (sh s k).wait.isSome then shResume s k
    else if (sh s k).failed ∨ shHeld s x r.desc then s
    else
      let t := shTransfer s x r.desc host
      shEnd (shUndrain (shLog t.2 r.desc) k r.desc) k x r t.1

/-! ## The custody lane (R418, R427) -/

/-- The shuttle that runs custody-lane work of loom `l`. -/
def shJobAt (s : State) (l : Nat) (j : ShJob) : Option Nat := [loomShuttle l, sibling (loomShuttle l)].find? (fun k => (sh s k).job = some j)

/-- Shuttle `k` has ended work of loom `l` that wrote `n` bytes, well or not. -/
def shJobEnd (s : State) (l k n : Nat) (ok : Bool) : State :=
  let h := loomShuttle l
  let s := inc (shMoved (shFreed s k) k h n) (bShuttle h) F.SH_DESCS_COUNT
  if ok then s else inc s (bShuttle h) F.SH_ERRORS_COUNT

/-- The bytes of an image: its header, and the regions that it copies. -/
def snapBytes (i : SnapImg) : Nat := 4096 + 256 * (i.nmap.length + i.smap.length + i.xmap.length)

/-- SNAPSHOT_COMPLETE: the shuttle has written the snapshot of loom `l`, or a write has failed; nothing while no shuttle writes it, a
controller is in reset, or the loom has not acknowledged OPEN. -/
def snapshotDone (s : State) (l : Nat) (ok : Bool) : State :=
  let x := tabGet 0 s.ll.snapSeq l % 2
  match shJobAt s l (.snap l), snapImg s l x with
  | some k, some i =>
    if !memUp s (snapAddr s l x) 0x200000 ∨ (loom s l).phase = .opening then s
    else
      let t := snapComplete s l ok
      shJobEnd t l k (snapBytes i) (snapImg t l x).isSome
  | some k, none => shFreed s k
  | none, _ => s

/-- LOG_DRAIN_DONE: the shuttle has written the oldest records of loom `l`'s log; nothing while there are some, and room for them, and no
shuttle writes them, or a controller is in reset. -/
def logDrained (s : State) (l : Nat) : State :=
  let n := min 64 (loom s l).logBuf.length
  match shJobAt s l (.log l) with
  | some k =>
    if !(List.range n).all (fun i => memUp s (logAddr s l ((loom s l).logPos + i)) 8) then s
    else shJobEnd (logDrain s l) l k (if logPending s l then 8 * n else 0) true
  | none => if logPending s l then s else logDrain s l

/-- SH_CTL.GO (R419). -/
def shGo (s : State) (h : Nat) : State :=
  let b := bShuttle h
  let x := sh s h
  if x.armed then inc (wr s b F.SH_STAT_REFUSED 1) b F.SH_REFUSE_COUNT
  else if x.page.isSome then wr (modSh s h (fun x => { x with armed := true })) b F.SH_STAT_ARMED 1
  else wr (modSh s h (fun x => { x with page := some (.desc (shShadow s h) none) })) b F.SH_STAT_ACTIVE 1

/-- Ends the descriptor that shuttle `k` runs with ABORTED, after what it waits for: a write that is held (R423). One whose STATUS is
written has ended; its chain does not go on. -/
def shAbortRun (s : State) (k : Nat) : State :=
  match (sh s k).run with
  | none => s
  | some r =>
    let stop : ShRun := { r with desc := { r.desc with cfg := if r.desc.chain then r.desc.cfg - 2 ^ 12 else r.desc.cfg } }
    match (sh s k).wait with
    | some (_, true) => modSh s k (fun y => { y with run := some stop })
    | some (res, false) => modSh s k (fun y => { y with wait := some ({ res with code := scAborted, cmp := none }, false) })
    | none => shEnd (shUndrain s k r.desc) k ⟨k, r.lane, r.tag⟩ r ⟨scAborted, 0, 0, none⟩

/-- Ends a descriptor with ABORTED at once, with its STATUS word where nothing holds that. -/
def shAbortNow (s : State) (k : Nat) (r : ShRun) : State :=
  let x : ShCtx := ⟨k, r.lane, r.tag⟩
  let res : ShRes := ⟨scAborted, 0, 0, none⟩
  let s := shUndrain s k r.desc
  shDone (if shStatusBank s x r then s else shStatus s x r res) k r res

/-- The page lane of shuttle `h`, with no descriptor running, ends with ABORTED. -/
def shAbortLane (s : State) (h : Nat) : State :=
  let b := bShuttle h
  shPageEnd (shEvent (inc (wr s b F.SH_STAT_CODE scAborted) b F.SH_ERRORS_COUNT) h (shPageTag s h) false true) h

/-- The shuttle that serves the lanes of shuttle `h`. -/
def shServer (s : State) (h : Nat) : Nat := if (sh s h).failed then sibling h else h

/-- SH_CTL.ABORT (R431): the page lane's active transfer and chain end with ABORTED, the shadow set is disarmed. -/
def shAbort (s : State) (h : Nat) : State :=
  let b := bShuttle h
  let s := wr (modSh s h (fun x => { x with armed := false })) b F.SH_STAT_ARMED 0
  if (sh s h).page.isNone then s
  else
    let mine := fun (r : ShRun) => r.home = h && r.lane = .page
    match [h, sibling h].find? (fun k => !(sh s k).failed && (sh s k).run.any mine), [h, sibling h].find? (fun k => (sh s k).redo.any mine) with
    | some k, _ => shAbortRun s k
    | none, some k => match (sh s k).redo with
      | some r => shAbortNow (modSh s k (fun x => { x with redo := none })) k r
      | none => s
    | none, none => shAbortLane s h

/-- Takeover (R427): shuttle `k` has failed and its sibling serves its lanes. -/
def shTakeover (s : State) (k : Nat) : State :=
  if (sh s k).failed then s
  else
    let j := sibling k
    let s := modSh s k (fun x => { x with failed := true, redo := x.run, run := none, wait := none, job := none })
    wr (wr (wr s (bShuttle k) F.STATE_DEGRADED 1) (bShuttle j) F.STATE_DEGRADED 1) (bShuttle j) F.SH_STAT_TAKEOVER 1

/-- A shuttle reset: the running transfer and every queued one end with ABORTED. -/
def shReset (s : State) (k : Nat) : State :=
  let s := match (sh s k).run with
    | some r => shAbortNow (shFreed s k) k r
    | none => s
  modSh s k (fun x => { Shuttle.reset with
    queue := (x.queue.map (fun e => { e with code := some (e.code.getD scAborted) })).filter (fun e => !e.lost)
    failed := x.failed })

/-! ## Tickets (R297, R425) -/

/-- The entry of a loom's ticket. -/
def shTicket (s : State) (l t : Nat) : Option ShEntry :=
  (sh s (loomShuttle l)).queue.find? (fun e => e.ticket = t && e.loom = l && !e.lost)

/-- The outstanding tickets of a loom. -/
def shOutstanding (s : State) (l : Nat) : List ShEntry :=
  (sh s (loomShuttle l)).queue.filter (fun e => e.loom = l && !e.lost)

/-- Appends a descriptor to the queue lane of loom `l`'s shuttle; which free number the ticket is, is a free value. -/
def shSubmit (s : State) (l a : Nat) (d : ShDesc) : Nat × State :=
  let k := loomShuttle l
  let used := (sh s k).queue.map (·.ticket)
  let free := (List.range 256).filter (fun t => !used.contains t)
  let f := drawFree s
  let t := (free[f.1 % free.length]?).getD 0
  (t, modSh f.2 k (fun x => { x with
    queue := x.queue ++ [⟨t, l, rd s (bLoom l) F.OWNER_PART, .desc d (some (mkLocal l a)), none, false⟩] }))

/-- Frees a ticket. -/
def shFree (s : State) (l t : Nat) : State :=
  modSh s (loomShuttle l) (fun x => { x with queue := x.queue.filter (fun e => !(e.ticket = t && e.loom = l)) })

/-- A loom reset discards its tickets: entries not started go, a running one ends unobserved. -/
def shLoomReset (s : State) (l : Nat) : State :=
  let h := loomShuttle l
  let running := match (sh s (shServer s h)).run with
    | some r => if r.home = h ∧ r.lane = .queue then r.ticket else none
    | none => none
  let keep := fun (e : ShEntry) => e.loom != l || running = some e.ticket
  modSh s h (fun x => { x with
    queue := (x.queue.filter keep).map (fun e => if e.loom = l then { e with lost := true } else e) })

end Sys2Proof.Machine
end

