-- ==== Sys2Proof/Machine/Timer.lean ====
section
/-!
DEFINITION. The timer block (R533 to R549).
-/

namespace Sys2Proof.Machine

/-- Changes the timer block. -/
def modTim (s : State) (f : TimerSt → TimerSt) : State := { s with tim := f s.tim }
/-- A field of channel `c`. -/
def tf (f : Fld) (c : Nat) : Fld := fStep f 32 c
/-- Reads it. -/
def rdT (s : State) (c : Nat) (f : Fld) : Nat := rd s bTimer (tf f c)
/-- Writes it. -/
def wrT (s : State) (c : Nat) (f : Fld) (v : Nat) : State := wr s bTimer (tf f c) v

/-- Sets or clears bit `c` of a mask register. -/
def setMask (s : State) (f : Fld) (c : Nat) (on : Bool) : State :=
  let w := rd s bTimer f
  wr s bTimer f (if on then w ||| 2 ^ c else if bit w c then w - 2 ^ c else w)

/-- Bit `c` of a mask register. -/
def maskBit (s : State) (f : Fld) (c : Nat) : Bool := bit (rd s bTimer f) c

/-- The RELOAD in force. -/
def reloadNow (s : State) (c : Nat) : Nat := tabGet 0xFFFFFFFF s.tim.reload c

/-- The level of SYNC_OUT of reed port `p`: OUT of the channel that REED_SYNC names, low without EN (R481, R545). -/
def syncOut (s : State) (p : Nat) : Bool := rdB s (bReed p) F.REED_SYNC_EN && bit s.tim.out (rd s (bReed p) F.REED_SYNC_CHAN)

/-- SYNC_OUT pins take their levels in `s` where they differ from those in `old`. -/
def syncFollow (old s : State) : State :=
  forEach (List.range 8) (fun p t => if syncOut old p = syncOut s p then t else send t .pin (bReed p) [(syncOut s p).toNat]) s

/-- Pin TMR `c` becomes an input: the pin action 2 (R547). -/
def tmrRelease (s : State) (c : Nat) : State := send s .pin bTimer [c, 2]

/-- Every TMR pin that its channel drives becomes an input. -/
def tmrsRelease (s : State) : State :=
  forEach (List.range 24) (fun c t => if rdT s c F.TIMER_CTL_OUTEN = 1 then tmrRelease t c else t) s

/-- Every SYNC_OUT that is high falls (R547). -/
def syncsLow (s : State) : State := forEach (List.range 8) (fun p t => if syncOut s p then send t .pin (bReed p) [0] else t) s

/-- Sets OUT of channel `c`; its pin and the SYNC_OUT pins that follow it change with it (R533, R545). -/
def setOut (s : State) (c : Nat) (v : Bool) : State :=
  if bit s.tim.out c = v then s
  else
    let t := modTim s (fun t => { t with out := if v then t.out ||| 2 ^ c else t.out - 2 ^ c })
    syncFollow s (if rdT s c F.TIMER_CTL_OUTEN = 1 then send t .pin bTimer [c, v.toNat] else t)

/-- WRAPACT and MATCHACT codes acting on OUT (R537). -/
def outAct (s : State) (c code : Nat) : State :=
  if code = 1 then setOut s c true else if code = 2 then setOut s c false
  else if code = 3 then setOut s c (!bit s.tim.out c) else s

/-- An event of channel `c`: its bit, and the block line where IRQEN has bit `k` (R546). -/
def timEvent (s : State) (c k : Nat) (f : Fld) : State :=
  let s := setMask s f c true
  if bit (rdT s c F.TIMER_CTL_IRQEN) k then send s .apc bTimer [1] else s

/-- A pending reload takes effect. -/
def reloadApply (s : State) (c : Nat) : State :=
  if maskBit s F.TIMER_RLDPEND_PEND c then
    setMask (modTim s (fun t => { t with
      reload := tabSet 0xFFFFFFFF t.reload c (rdT s c F.TIMER_RELOAD_RELOAD), imm := t.imm.filter (· != c) }))
      F.TIMER_RLDPEND_PEND c false
  else s

/-- A channel starts (R535). -/
def timStart (s : State) (c : Nat) : State :=
  let s := wrT (reloadApply s c) c F.TIMER_COUNT_COUNT 0
  let s := modTim s (fun t => { t with presc := tabSet 0 t.presc c 0, last := tabSet 0 t.last c (ltAt s bTimer : Int) })
  setOut (setMask s F.TIMER_WAITING_WAIT c false) c (rdT s c F.TIMER_CTL_INIT = 1)

/-- Level of pin TMR `k`: OUT where the channel drives it, else what stands on the pin. -/
def tmrLevel (s : State) (pins k : Nat) : Bool :=
  if rdT s k F.TIMER_CTL_OUTEN = 1 then bit s.tim.out k else bit pins k

/-- The gate lets a tick of channel `c` count (R536). -/
def gateOpen (s : State) (pins c : Nat) : Bool :=
  let g := rdT s c F.TIMER_CTL_GATE
  let lvl := tmrLevel s pins (rdT s c F.TIMER_CTL_GATEPIN)
  if g = 1 then lvl else if g = 2 then !lvl else true

/-- Channel `c` is held by the debug halt (R544). -/
def timFrozen (s : State) (c : Nat) : Bool := rdB s bTimer F.TIMER_FROZEN_HALT && rdT s c F.TIMER_CTL_DBGFRZ == 1

/-- A counting channel: enabled, not waiting for TIMER_START, not frozen. -/
def timCounts (s : State) (c : Nat) : Bool :=
  rdT s c F.TIMER_CTL_EN == 1 && !maskBit s F.TIMER_WAITING_WAIT c && !timFrozen s c

/-- One tick of a channel by R535, R537 and R540; whether it wrapped comes back. -/
def timTick1 (s : State) (pins c : Nat) : Bool × State :=
  if !timCounts s c || !gateOpen s pins c then (false, s)
  else
    let n := rdT s c F.TIMER_COUNT_COUNT
    let now := s.tim.imm.contains c && maskBit s F.TIMER_RLDPEND_PEND c
    let s := if now then reloadApply s c else s
    let short := now && decide (reloadNow s c < n)
    let wrap := short || n == reloadNow s c
    let n' := if wrap then 0 else (n + 1) % 2 ^ 32
    let s := wrT s c F.TIMER_COUNT_COUNT n'
    let s := if wrap then
        let s := outAct (reloadApply s c) c (rdT s c F.TIMER_CTL_WRAPACT)
        timEvent (if short then setMask s F.TIMER_SHORTLAP_SHORT c true else s) c 0 F.TIMER_EVWRAP_EV
      else s
    let s := if n' = rdT s c F.TIMER_CMP_CMP then
        timEvent (outAct s c (rdT s c F.TIMER_CTL_MATCHACT)) c 1 F.TIMER_EVMATCH_EV
      else s
    (wrap, s)

/-- A tick and the ticks that its wrap gives the channels chained behind it (R534). -/
def timTickChain (pins : Nat) : Nat → Nat → State → State
  | 0, _, s => s
  | fuel + 1, c, s =>
    let r := timTick1 s pins c
    let s := r.2
    let d := (c + 1) % 24
    if r.1 && rdT s d F.TIMER_CTL_CLKSRC == 3 && rdT s d F.TIMER_CTL_EN == 1 then
      let k := tabGet 0 s.tim.presc d + 1
      if k ≤ rdT s d F.TIMER_PRESCALE_DIV then modTim s (fun t => { t with presc := tabSet 0 t.presc d k })
      else timTickChain pins fuel d (modTim s (fun t => { t with presc := tabSet 0 t.presc d 0 }))
    else s

/-- A cycle or an edge of the source of channel `c`, of which every PRESCALE + 1 give a tick (R534). -/
def timDivide (s : State) (pins c : Nat) : State :=
  let k := tabGet 0 s.tim.presc c + 1
  if rdT s c F.TIMER_CTL_EN = 0 ∨ maskBit s F.TIMER_WAITING_WAIT c then s
  else if k ≤ rdT s c F.TIMER_PRESCALE_DIV then modTim s (fun t => { t with presc := tabSet 0 t.presc c k })
  else timTickChain pins 24 c (modTim s (fun t => { t with presc := tabSet 0 t.presc c 0 }))

/-- TIMER_TICK: the source of channel `c` gives it a cycle of AON or a rising edge of its pin, or LT has moved on; `pins` are the levels of
the TMR pins. An LT channel's tick is due once the timer's copy of LT has advanced far enough; a PIN channel that drives its own pin has
none; CHAIN channels tick with the wraps. -/
def timTick (s : State) (c pins : Nat) : State :=
  let src := rdT s c F.TIMER_CTL_CLKSRC
  if src = 0 then
    let due := tabGet 0 s.tim.last c + (rdT s c F.TIMER_PRESCALE_DIV : Int) + 1
    if rdT s c F.TIMER_CTL_EN = 1 ∧ !maskBit s F.TIMER_WAITING_WAIT c ∧ due ≤ (ltAt s bTimer : Int) then
      timTickChain pins 24 c (modTim s (fun t => { t with last := tabSet 0 t.last c due }))
    else s
  else if src = 1 then timDivide s pins c
  else if src = 2 then (if rdT s c F.TIMER_CTL_OUTEN = 1 then s else timDivide s pins c)
  else s

/-- An LT step moves the tick schedules with it (R534). -/
def timStep (s : State) (old : Nat) : State :=
  forEach (List.range 24) (fun c s =>
    if rdT s c F.TIMER_CTL_EN = 1 then
      modTim s (fun t => { t with last := tabSet 0 t.last c (tabGet 0 t.last c + (s.ltime.lt : Int) - old) })
    else s) s

/-- A TIMER_CTL value that R548 ignores. -/
def timCtlBad (v : Word) : Bool :=
  fldGet F.TIMER_CTL_GATE v = 3 || 24 ≤ fldGet F.TIMER_CTL_GATEPIN v || 24 ≤ fldGet F.TIMER_CTL_CAPPIN v

/-- TIMER_CTL of channel `c` has changed: EN rising starts the channel, EN falling stops it and its wait; the pins follow. -/
def timCtlWritten (s : State) (c : Nat) (old : Word) : State :=
  let was := fldGet F.TIMER_CTL_EN old = 1
  let is := rdT s c F.TIMER_CTL_EN = 1
  let s := if is ∧ !was then timStart s c else if was ∧ !is then setMask s F.TIMER_WAITING_WAIT c false else s
  if fldGet F.TIMER_CTL_OUTEN old = 0 ∧ rdT s c F.TIMER_CTL_OUTEN = 1 then send s .pin bTimer [c, (bit s.tim.out c).toNat]
  else if fldGet F.TIMER_CTL_OUTEN old = 1 ∧ rdT s c F.TIMER_CTL_OUTEN = 0 then tmrRelease s c else s

/-- TIMER_RELOAD has been written (R539, R540). -/
def timReloadWritten (s : State) (c : Nat) : State :=
  let imm := rdB s bTimer F.CONTROL_EXPERT && maskBit s F.TIMER_IMMED_IMMED c
  setMask (modTim s (fun t => { t with imm := if imm then t.imm.filter (· != c) ++ [c] else t.imm.filter (· != c) }))
    F.TIMER_RLDPEND_PEND c true

/-- CAPEDGE selects an edge. -/
def capSelects (code : Nat) (rising : Bool) : Bool := code = 3 || (code = 1 && rising) || (code = 2 && !rising)

/-- Channel `c` captures at the LT copy `lt` (R541). -/
def timCapture (s : State) (c lt : Nat) : State :=
  let s := if maskBit s F.TIMER_CAPFRESH_FRESH c then inc s bTimer (fAt F.TIMER_CAPLOST_COUNT c) else s
  let s := wrT s c F.TIMER_CAP_CAP (rdT s c F.TIMER_COUNT_COUNT)
  let s := wrPair s bTimer (tf F.TIMER_CAPLT_LO_LT c) (tf F.TIMER_CAPLT_HI_LT c) lt
  timEvent (setMask s F.TIMER_CAPFRESH_FRESH c true) c 2 F.TIMER_EVCAP_EV

/-- Channel `c` captures an edge of pin TMR `k`: its CAPPIN names the pin and its CAPEDGE selects the edge (R541). -/
def timCaptures (s : State) (k c : Nat) (rising : Bool) : Bool :=
  rdT s c F.TIMER_CTL_CAPPIN == k && capSelects (rdT s c F.TIMER_CTL_CAPEDGE) rising

/-- TIMER_CAPTURE_EDGE (R541): an edge of pin TMR `k`, in every channel that captures it. How far CAPLT lies behind LT, 0 ns to 8 ns, is a free
value. -/
def timEdge (s : State) (k : Nat) (rising : Bool) : State :=
  let cs := (List.range 24).filter (fun c => timCaptures s k c rising)
  if cs.isEmpty then s
  else
    let f := drawFree s
    forEach cs (fun c t => timCapture t c (ltNow s - f.1 % 9)) f.2

/-- A read of TIMER_CAP (R542): the value, and the state after it. -/
def timCapRead (s : State) (tag c : Nat) : Word × State :=
  let v := BitVec.ofNat 32 (rdT s c F.TIMER_CAP_CAP)
  let lt := rdPair s bTimer (tf F.TIMER_CAPLT_LO_LT c) (tf F.TIMER_CAPLT_HI_LT c)
  let s := modTim s (fun t => { t with capLatch := tabSet 0 t.capLatch (c * 32 + tag) (lt + 1) })
  (v, setMask s F.TIMER_CAPFRESH_FRESH c false)

/-- CAPLT as a requester reads it: as latched with its last read of CAP. -/
def timCapLt (s : State) (tag c : Nat) : Nat :=
  match tabGet 0 s.tim.capLatch (c * 32 + tag) with
  | 0 => rdPair s bTimer (tf F.TIMER_CAPLT_LO_LT c) (tf F.TIMER_CAPLT_HI_LT c)
  | n + 1 => n

/-- TIMER_START. -/
def timStartAt (s : State) : Nat := rdPair s bTimer F.TIMER_START_LO_LT F.TIMER_START_HI_LT

/-- TIMER_STARTGO (R543). -/
def timStartGo (s : State) (mask : Nat) : State :=
  let late := timStartAt s < ltAt s bTimer
  forEach (List.range 24) (fun c s =>
    if !bit mask c || rdT s c F.TIMER_CTL_EN == 0 then s
    else if late then setMask (timStart s c) F.TIMER_STARTLATE_LATE c true
    else setOut (wrT (setMask s F.TIMER_WAITING_WAIT c true) c F.TIMER_COUNT_COUNT 0) c (rdT s c F.TIMER_CTL_INIT = 1)) s

/-- TIMER_START_TIME. -/
def timStartTime (s : State) : State :=
  if ltAt s bTimer < timStartAt s then s
  else forEach (List.range 24) (fun c s => if maskBit s F.TIMER_WAITING_WAIT c then timStart s c else s) s

/-- TIMER_DEBUG_HALT. -/
def timHalt (s : State) (halted : Bool) : State := wr s bTimer F.TIMER_FROZEN_HALT halted.toNat

end Sys2Proof.Machine
end

