-- ==== Sys2Proof/Machine/Reset.lean ====
section
/-!
DEFINITION. Resets of blocks (R48, R63, R70, R456, R547, R693): what a block reset clears, what it keeps, and the failure of
a group of which a member is reset.
-/

namespace Sys2Proof.Machine

/-! ## Groups that fail (R69, R70, R72) -/

/-- The preparing group of slot `i` fails: the slot records `code` and `blk`, every other one LINKED. `keep` names a member that
shows a RESULT of its own. -/
def groupFail (s : State) (i code blk : Nat) (keep : Option Nat) : State :=
  forEach (groupOf s (slotHead s i) .preparing) (fun j s =>
    if j = i then slotRollback s j code blk keep else slotRollback s j 0x24 0 keep) s

/-- A member is reset while the apply window is open: every slot of its own linked group goes to PARTIAL, with CODE and BLOCK in the
slot that holds the member (R70, R72). -/
def windowHit (s : State) (b : Nat) : State :=
  let open' := (s.beat.slots.filter (fun e => e.2.window)).map (·.1)
  match open'.find? (fun i => (slot s i).blocks.contains b) with
  | none => s
  | some i =>
    let mates := open'.filter (fun j => slotHead s j = slotHead s i)
    let s := forEach mates (fun j s => modSlot s j (fun g =>
      if j = i then { g with state := .partly, window := false, code := 0x22, block := b }
      else { g with state := .partly, window := false })) s
    latchFault s bBeat 0x8004

/-- A member of a preparing group is reset: it refuses (R70). -/
def prepareHit (s : State) (b : Nat) : State :=
  match (List.range 32).find? (fun i => (slot s i).state = .preparing && !(slot s i).window && (slot s i).blocks.contains b) with
  | some i => groupFail s i 0x20 b none
  | none => s

/-! ## Registers -/

/-- Registers that a block reset keeps: OWNER, what stands in always-on logic or in MRAM (R48, R493), and what shows which links carry
traffic: they are trained by bring-up alone (R369, DEDUCED, log entry 116). -/
def keepReg (b off : Nat) : Bool :=
  off = F.OWNER_PART.off ||
  (b = bFuse && (off = F.FUSE_BOOTCFG_FAST.off || (0x810 ≤ off && off ≤ 0x824))) ||
  (b = bLamplighter && 0x810 ≤ off && off ≤ 0x850) ||
  (b = bPower && 0x810 ≤ off && off ≤ 0x82C) ||
  (kindOf b = some .hbmc && off = F.HBMC_PCSTAT_UP.off) ||
  (b = bHostport && off = F.HOSTPORT_LINK_UP.off) ||
  (b = bSeam && off = F.SEAM_LINKUP_UP.off)

/-- Block and offset of a register key. -/
def keyBlock (k : Nat) : Nat := k / 65536 / 4096
/-- Its offset. -/
def keyOff (k : Nat) : Nat := k / 65536 % 4096

/-- Returns every register that satisfies `p` (block, offset) to its reset value. -/
def regsDrop (s : State) (p : Nat → Nat → Bool) : State :=
  { s with
    regs := s.regs.filter (fun e => !p (keyBlock e.1) (keyOff e.1))
    hiLatch := s.hiLatch.filter (fun e => !p (keyBlock (e.1 / 32)) (keyOff (e.1 / 32))) }

/-! ## Row maps from the fuses (R16, R353, R596) -/

/-- The index of a row-half (R15): row-half `i` of hub `h`. -/
def halfIndex (h i : Nat) : Nat := 2 * (3 * (h % 8) + i) + h / 8

/-- The fused bad site of row-half `k`. -/
def fusedBad (s : State) (k : Nat) : Option Nat :=
  let b := fuseByte s 0x40 k
  if bit b 7 then some (b % 32) else none

/-- The map of a row-half by its fused bad site and the soft-bad sites of the training record: a column whose site is soft-bad
moves to the lowest unused site, or to NONE. -/
def fusedMap (s : State) (k : Nat) : List Nat :=
  let bad := fusedBad s k
  let soft := fun (x : Nat) => s.ll.soft.contains (k * 32 + x)
  let base := (List.range 16).map (fun c => match bad with
    | some b => if b ≤ c then c + 1 else c
    | none => c)
  let free := (List.range 17).filter (fun x => bad != some x && !soft x && !base.contains x)
  (base.foldl (fun (p : List Nat × List Nat) c =>
    if soft c then (match p.2 with
      | x :: r => (p.1 ++ [x], r)
      | [] => (p.1 ++ [0x1F], [])) else (p.1 ++ [c], p.2)) ([], free)).1

/-- Shows a row map in its registers. -/
def showMap (s : State) (h i : Nat) (m : List Nat) : State :=
  let w := (List.range 16).foldl (fun a c => a + (m.getD c 0x1F) % 32 * 2 ^ (5 * c)) 0
  let b := bHub h
  wrI (wrI (wrI s b F.HUB_ROWMAP0_MAP i w) b F.HUB_ROWMAP1_MAP i (w / 2 ^ 30)) b F.HUB_ROWMAP2_MAP i (w / 2 ^ 60)

/-- The row maps of a hub as the fuses and the training record give them, with the pass-through sites. -/
def hubMaps (s : State) (h : Nat) : State :=
  forEach (List.range 3) (fun i s =>
    let k := halfIndex h i
    let m := fusedMap s k
    let s := modHub s h (fun x => { x with map := x.map.take (16 * i) ++ m ++ x.map.drop (16 * i + 16) })
    let s := wrI s (bHub h) F.HUB_ROWPASS_PASS i (match fusedBad s k with | some b => 2 ^ b | none => 0)
    showMap s h i m) s

/-- The site of loom `l`; 0x1F for NONE. -/
def loomSite (s : State) (l : Nat) : Nat := siteOf s (l / 32) (l % 32)

/-! ## Fused banks (R311) -/

/-- The BANKROW records up to the first without VALID; an uncorrectable word names nothing. -/
def bankRows (s : State) : List Nat :=
  ((List.range 512).map (fun i => (tabGet 0 s.nv.fuseErr (0x100 + i), (fuse s (0x100 + i)).toNat))).takeWhile
    (fun e => e.1 == 2 || bit e.2 31) |>.filterMap (fun e => if e.1 == 2 then none else some e.2)

/-- The physical banks of the site of loom `l` that are out of service: BANKOUT, or five or more bad rows (R311). -/
def banksOut (s : State) (l : Nat) : List Nat :=
  let site := l % 32 / 16 * 408 + l / 32 * 17 + loomSite s l
  let mine := (bankRows s).filter (fun r => r % 1024 = site)
  (List.range 9).filter (fun k =>
    let rs := mine.filter (fun r => bits r 13 10 = k)
    rs.any (fun r => bit r 30) || 5 ≤ rs.length)

/-- Bring-up assigns the banks of a loom (R311). -/
def bankAssign (s : State) (l : Nat) : State :=
  match banksOut s l with
  | [k] =>
    let b := bLoom l
    if k = 8 then wr s b F.LOOM_BANKSTAT_SPAREBAD 1
    else wr (wr (wr s b F.LOOM_BANKSTAT_SPAREYIELD 1) b F.LOOM_BANKSTAT_SPAREUSED 1) b F.LOOM_BANKSTAT_SPAREBANK k
  | _ => s

/-! ## What each kind of block loses besides its registers -/

/-- The state of a block other than its registers, transaction and latch. LTIME keeps LT, which a run must not see jump (R158), whatever the
beat engine does (log entry 127). A hub keeps its lamps (R392), and with them the watches of looms
(log entry 59). A beat engine that loses its open beat takes a handover that waited for it: no EMIT of that beat ends, so the boundary
before it is the last (R635, log entry 37). -/
def subReset (s : State) (b : Nat) : State :=
  match kindOf b with
  | some .loom =>
    let l := b - 0x100
    shLoomReset (setLoom (waitCancel s l) l { Loom.reset with seq := { Seq.reset with wtok := (seqOf s l).wtok } }) l
  | some .hub =>
    let h := b - 0x80
    let x := hub s h
    hubMaps { s with hubs := tabSet Hub.reset s.hubs h { Hub.reset with
      lamps := x.lamps, watches := x.watches.filter (fun w => w.who < 1536) } } h
  | some .shuttle => shReset s (b - 0x20)
  | some .glimmer => if glimState s (b - 0x60) = gsLost then s else glimLight (glimStop s (b - 0x60) gsOff) (b - 0x60) laDark
  | some .laser => lightFollow (setLas (setLas { s with lasers := [] } 0 lmAbsent) 1 lmAbsent)
  | some .reed =>
    let t : State := { s with reeds := tabSet Reed.reset s.reeds (b - 0x70) Reed.reset }
    if syncOut s (b - 0x70) then send t .pin b [0] else t
  | some .memcrypt =>
    modMem s (fun m => { m with regions := [], rstate := [], pool := [], keygen := [] })
  | some .ltime => modLt s (fun t => { LtimeSt.reset with lt := t.lt, frac := t.frac })
  | some .timer => syncFollow s { tmrsRelease s with tim := TimerSt.reset }
  | some .apc => { s with apc := [], clu := CluSt.reset }
  | some .hostport => { s with host := HostSt.reset }
  | some .custody => { s with cust := { s.cust with run := none, nonce := none } }
  | some .lamplighter =>
    { s with ll := { s.ll with watch := [], rungs := [], rung1 := [], rung2 := [], darn := none, dump := none, ckpt := none,
                               linkTicks := [], tickFaults := [], heldLooms := [] } }
  | some .beat =>
    let s := handTake s
    let s := forEach s.beat.slots (fun e s =>
      if e.2.state = .armed ∨ e.2.state = .preparing then
        forEach e.2.blocks (fun m s =>
          if rd s m F.TXN_TSTATE = tsPending ∧ rd s m F.TXN_GROUP = e.1 then wr (wr s m F.TXN_TSTATE tsOpen) m F.TXN_GROUP 0
          else s) s
      else s) s
    boundaryApply { s with beat := BeatSt.reset }
  | _ => s

/-- A block may set READY again (R594). -/
def readyOk (s : State) (b : Nat) : Bool :=
  match kindOf b with
  | some .loom => loomSite s (b - 0x100) ≤ 16
  | some .shuttle =>
    let k := b - 0x20
    if k < 48 then rdB s (bHub (k / 6 + 8 * (k % 2))) F.STATE_READY else rdB s bApc F.STATE_READY
  | some .netio => rdB s bApc F.STATE_READY
  | some .beat => rdB s bSeam F.STATE_READY && (List.range 16).all (fun h => rdB s (bHub h) F.STATE_READY)
  | some _ => true
  | none => false

/-- A block sets READY, for the first time or again; MEMCRYPT has slot 0 loaded (R594). -/
def setReady (s : State) (b : Nat) : State :=
  let s := wr (wr s b F.STATE_RESETTING 0) b F.STATE_READY 1
  let s := { s with boot := { s.boot with seen := if s.boot.seen.contains b then s.boot.seen else s.boot.seen ++ [b] } }
  match kindOf b with
  | some .memcrypt => if slotLoaded s 0 then s else slotLoad s 0
  | _ => s

/-! ## The block reset -/

/-- The registers of a shuttle that stay while its sibling serves its frame: STATE, and those of the page and queue lanes, which are the
sibling's meanwhile (R427, log entry 47). -/
def laneReg (off : Nat) : Bool := off = F.STATE_READY.off || (0x040 ≤ off && off < 0x800)

/-- A block reset begins (R48): nothing while one runs, or before the block has first been READY (R593). The lanes and the frame of
a shuttle that its sibling stands in for are the sibling's meanwhile, and stay (R427, log entry 47); its other registers return to their
reset values. -/
def blockReset (s : State) (b : Nat) : State :=
  if rdB s b F.STATE_RESETTING ∨ kindOf b = none ∨ !s.boot.seen.contains b then s
  else
    let txn := rd s b F.TXN_TSTATE != tsIdle
    let s := prepareHit (windowHit (decisionsDrop s b) b) b
    let lanes := kindOf b = some .shuttle && (sh s (b - 0x20)).failed
    let s := if lanes then s else subReset s b
    let lost := kindOf b = some .glimmer && glimState s (b - 0x60) = gsLost
    let s := regsDrop s (fun x off => x = b && !keepReg b off && !(lanes && laneReg off))
    let s := if lost then setGlimState s (b - 0x60) gsLost else s
    let s := setCtl (wr s b F.STATE_READY 0) b BlockCtl.reset
    let s := match kindOf b with
      | some .hub => hubMaps s (b - 0x80)
      | some .loom => bankAssign s (b - 0x100)
      | _ => s
    let s := if txn then wr (setTxn s b tsIdle resAbortedReset) b F.TXNROLLBACK_COUNT 1 else s
    wr s b F.STATE_RESETTING 1

/-- BLOCK_RESET_DONE: the block is usable again. -/
def blockReady (s : State) (b : Nat) : State :=
  if rdB s b F.STATE_RESETTING ∧ readyOk s b then setReady s b else s

end Sys2Proof.Machine
end

