-- ==== Sys2Proof/Machine/Gate.lean ====
section
/-!
DEFINITION. Whether an access reaches its block (R38, R40, R55 to R57, R490, R391, R393, R398, R553, R571, R593): the checks that
stand before every register read and write.
-/

namespace Sys2Proof.Machine

/-- Power domains (R11). -/
inductive Domain where
  | aon | io | compute
  deriving DecidableEq, Repr

/-- The domain of a kind of block. -/
def domainOf : Kind → Domain
  | .custody | .lamplighter | .fuse | .power | .partition | .laser => .aon
  | .glimmer | .reed | .ltime | .timer | .hostport => .io
  | _ => .compute

/-- The domain of a block is powered. -/
def powered (s : State) (b : Nat) : Bool :=
  match kindOf b with
  | none => false
  | some k => match domainOf k with
    | .aon => true
    | .io => s.pw.enIo
    | .compute => s.pw.enCmp

/-- An address that is no register's, a frame that holds no block, a block without power, or one that has not been READY yet
completes with an error response; IDENT, VERSION and STATE answer reads in the last case (R39, R40, R593). -/
def gateError (s : State) (b off : Nat) (isWrite : Bool) : Bool :=
  off % 4 != 0 || kindOf b = none || !powered s b || (!s.boot.seen.contains b && (isWrite || 8 < off))

/-- The HUB lamp window (R394, R405). -/
def lampWindow (b off : Nat) : Bool := kindOf b = some .hub && 0x0C0 ≤ off && off ≤ 0x0EF

/-- The part of the HOSTPORT page that partition requesters reach (R490). -/
def hostWindow (b off : Nat) : Bool := b = bHostport && 0x040 ≤ off && off ≤ 0x05F

/-- The channel registers of the APC page (R391). -/
def apcWindow (b off : Nat) : Bool := b = bApc && 0x100 ≤ off && off ≤ 0x147

/-- Pages or registers that carry a check of their own in place of the OWNER check. -/
def ownCheck (b off : Nat) : Bool := groupReg b off || lampWindow b off || hostWindow b off || apcWindow b off

/-- The watch slot that the window names is nobody's, or the requester's own (R405). -/
def watchSlotOk (s : State) (tag b : Nat) : Bool :=
  let w := tabGet 0 (hub s (b - 0x80)).winOwner (rd s b F.HUB_WATCHSEL_SLOT)
  w = 0 || w = tag + 1

/-- The window slot that a requester's WINSEL names. -/
def winSlot (s : State) (tag : Nat) : Nat := rdI s bHostport F.HOSTPORT_WINSEL_SLOT tag

/-- The own check of a register (R65, R391, R398, R405, R489, R490); `v` is the value written. -/
def ownCheckOk (s : State) (r : Requester) (b off : Nat) (isWrite : Bool) (v : Word) : Bool :=
  let tag := tagOf r
  let part := match r with | .part _ => true | _ => false
  if lampWindow b off then !(0x0E0 ≤ off && off ≤ 0x0EC) || watchSlotOk s tag b
  else if hostWindow b off then
    !(isWrite && 0x044 ≤ off && off ≤ 0x058) || rdI s bHostport F.HOSTPORT_WINCTL_PART (winSlot s tag) = tag
  else if apcWindow b off then
    !part || (if off = 0x100 then !isWrite || apcMay s tag (v.toNat % 1024)
      else apcMay s tag (apcSel s))
  else true

/-- Warden writes by lifecycle (R553). -/
def wardenMay (s : State) (b off : Nat) : Bool :=
  let lc := lifecycle s
  if lc = lcBlank ∨ lc = lcTest ∨ lc = lcFieldDebug then true
  else if lc = lcProvisioned ∨ lc = lcField then
    b = bLamplighter || (b = bCustody && 0x044 ≤ off && off ≤ 0x060)
  else false

/-- A write reserved to Lantern, from another custody requester: the whole PARTITION page, and the registers that R552 names. -/
def lanternOnly (r : Requester) (b off : Nat) : Bool :=
  match kindOf b with
  | some .partition => guardRefuses r .lantern
  | some k => (rowsAt k off).any (fun row => guardRefuses r row.guard)
  | none => false

/-- The lamp force works only for custody and device requesters, in lifecycles with debug (R401). -/
def forceOk (s : State) (r : Requester) : Bool :=
  let lc := lifecycle s
  (match r with | .part _ => false | _ => true) && (lc = lcBlank || lc = lcTest || lc = lcFieldDebug || lc = lcReturn)

/-- An access is refused under R57. -/
def gateRefuse (s : State) (r : Requester) (b off : Nat) (isWrite : Bool) (v : Word) : Bool :=
  let inactive := match r with | .part p => partState s p.val != psActive | _ => false
  let owner := if isWrite then mayWrite s r b off else mayRead s r b off
  let owner := owner || (match r with | .part _ => ownCheck b off | _ => false)
  inactive || !owner || !ownCheckOk s r b off isWrite v || (isWrite && lanternOnly r b off)
    || (isWrite && kindOf b = some .hub && (off = 0x0D4 || off = 0x0D8) && !forceOk s r)

/-- Performs an access where it reaches its block: the response's success and data, and the state after it. The apply window
holds accesses until it closes (R69). A warden write that its lifecycle bars is answered with an error and does not count in ACCVIOL:
R553 gives it a status of its own and names no counter (DESIGN CHOICE, log entry 91). -/
def access (s : State) (r : Requester) (b off : Nat) (isWrite : Bool) (v : Word) (f : State → Word × State) :
    Bool × Word × State :=
  let s := windowClose s
  if gateError s b off isWrite then (false, 0, s)
  else if isWrite && r = .custody .warden && !wardenMay s b off then (false, 0, s)
  else if gateRefuse s r b off isWrite v then (false, 0, inc s b F.ACCVIOL_COUNT)
  else let p := f s; (true, p.1, p.2)

/-- A hart in VS-mode or VU-mode whose APC_VMPART is not VALID is refused (R75, R57). -/
def vmRefuse (s : State) (b off : Nat) (isWrite : Bool) : Bool × Word × State :=
  let s := windowClose s
  if gateError s b off isWrite then (false, 0, s) else (false, 0, inc s b F.ACCVIOL_COUNT)

/-- An error response that reaches a hart: it takes a load or a store access fault, and APC_DECODEERR counts (R38). The causes are those of
the RISC-V privileged architecture, 5 and 7; the address that software used is no operand of the access, and its trap value is free (log
entry 128). -/
def hartFault (s : State) (h : Nat) (mode : HartMode) (isWrite : Bool) : State :=
  let cause := if isWrite then 7 else 5
  let f := drawFree (send (inc s bApc F.APC_DECODEERR_COUNT) .apc bApc [3, h, cause])
  hartTrap f.2 h mode cause f.1

/-- What an error response does at its requester besides. -/
def hartSees (r : Requester) (isWrite ok : Bool) (s : State) : State :=
  match r with
  | .hart h mode => if ok then s else hartFault s h.val mode isWrite
  | _ => s

/-- The response of an access on the bus. -/
def accessSend (r : Requester) (p : Bool × Word × State) : State := send p.2.2 .resp (tagOf r) [p.1.toNat, p.2.1.toNat]

end Sys2Proof.Machine
end

