-- ==== Sys2Proof/Machine/Bringup.lean ====
section
/-!
DEFINITION. Package reset, compute-partition reset, and the steps of a bring-up (R11, R12, R16, R63, R311, R565, R582 to R603).
-/

namespace Sys2Proof.Machine

/-! ## What a wider reset leaves (R48, R63) -/

/-- Blocks that hold a transaction, open or pending. -/
def txnBlocks (s : State) : List Nat :=
  ((s.regs.map (fun e => keyBlock e.1)).eraseDups).filter (fun b => rd s b F.TXN_TSTATE != tsIdle)

/-- The record of a transaction that a reset has discarded. -/
def txnAborted (s : State) (b : Nat) : State := wr (wr s b F.TXN_RESULT resAbortedReset) b F.TXNROLLBACK_COUNT 1

/-- Registers that a package reset keeps: the counters in always-on logic, and FUSE_BOOTCFG in MRAM, which survives even the
loss of the always-on rail. -/
def packageKeeps (powerOn : Bool) (b off : Nat) : Bool :=
  if b = bFuse ∧ off = F.FUSE_BOOTCFG_FAST.off then true
  else !powerOn && keepReg b off && (b = bFuse || b = bLamplighter || b = bPower) && 0x800 ≤ off

/-- A package reset, or with `powerOn` an always-on power-on reset (R588, R597): LT 0, step 1 of the bring-up runs. The
FIELD_DEBUG bit outlives the one reset that completes the move into it (R565). `self` is what the PKGID straps give. -/
def packageReset (s : State) (powerOn : Bool) (self : Nat) : State :=
  let txns := txnBlocks s
  let fd := s.cust.fieldDebug && s.cust.entry && !powerOn
  let ll : LlSt := if powerOn then LlSt.reset
    else { LlSt.reset with log := s.ll.log, window := s.ll.window, evNext := s.ll.evNext, dumpRam := s.ll.dumpRam,
                           dumpSeq := s.ll.dumpSeq }
  let t : State := { State.reset with
    pending := s.pending, out := (syncsLow (tmrsRelease s)).out, free := s.free
    regs := s.regs.filter (fun e => packageKeeps powerOn (keyBlock e.1) (keyOff e.1))
    ll := ll
    nv := s.nv
    tap := s.tap
    gpkg := { GlimPkg.reset with self := self }
    cust := { CustSt.reset with fieldDebug := fd }
    boot := { BootSt.reset with active := true } }
  let t := forEach txns (fun b t => txnAborted t b) t
  let t := wr t bFuse F.FUSE_BOOTSTAT_STEP 1
  send (send t .pin 0 [1]) .act 0 [4]

/-- The straps and the sensed fuse errors that a package reset finds. -/
def pinsTake (s : State) (ce ue : List Nat) : State :=
  let t := ce.foldl (fun t i => tabSet 0 t i 1) ([] : Tab Nat)
  { s with nv := { s.nv with fuseErr := ue.foldl (fun t i => tabSet 0 t i 2) t } }

/-! ## Fused repair and training records -/

/-- Fuse words that are uncorrectable, in a range. -/
def fuseUeIn (s : State) (lo hi : Nat) : Bool := s.nv.fuseErr.any (fun e => e.2 == 2 && lo ≤ e.1 && e.1 < hi)

/-- The valid copy of the training record that is newer, with its index. -/
def trecBest (s : State) : Option (Nat × TrecCopy) :=
  match tabGet none s.nv.trec 0, tabGet none s.nv.trec 1 with
  | none, none => none
  | some a, none => some (0, a)
  | none, some b => some (1, b)
  | some a, some b => if a.seq < b.seq then some (1, b) else some (0, a)

/-- Die number from the fuses. -/
def dieNumber (s : State) : Nat := (fuse s 2).toNat + (fuse s 3).toNat * 2 ^ 32

/-- Writes the training record into the copy that is not the newer one, with WARMCOUNT 0 (R599). -/
def trecWrite (s : State) : State :=
  let p := trecBest s
  let i := match p with | some (j, _) => 1 - j | none => 0
  let seq := match p with | some (_, c) => c.seq + 1 | none => 0
  let c : TrecCopy := ⟨seq, dieNumber s, bits (fuse s 0).toNat 27 20, fusedDclass s, s.boot.tj, s.ll.soft, 0⟩
  { s with nv := { s.nv with trec := tabSet none s.nv.trec i (some c) } }

/-- A warm bring-up counts in place. -/
def trecWarm (s : State) : State :=
  match trecBest s with
  | some (i, c) => { s with nv := { s.nv with trec := tabSet none s.nv.trec i (some { c with warm := (c.warm + 1) % 256 }) } }
  | none => s

/-- FUSE_TRECINV (R599). -/
def trecInvalidate (s : State) : State := { s with nv := { s.nv with trec := [] } }

/-- The warm path holds at step 5, where the hottest sensor reads `tj` (R590). -/
def warmOk (s : State) (tj : Int) : Bool :=
  rdB s bFuse F.FUSE_BOOTCFG_FAST && !s.boot.wipe && !s.nv.fuseErr.any (fun e => e.2 == 2) && (match trecBest s with
    | some (_, c) => c.die == dieNumber s && c.step == bits (fuse s 0).toNat 27 20 && c.dclass == fusedDclass s
        && c.tj - 25 ≤ tj && tj ≤ c.tj + 25 && decide (c.warm < 64)
    | none => false)

/-- FUSE_BOOTSTAT.PATH codes. -/
abbrev pathCold : Nat := 0
abbrev pathWarm : Nat := 1
abbrev pathCp : Nat := 2

/-! ## The measurement log (R562) -/

/-- Appends an accepted image, given by its header, to the measurement log. -/
def measure (s : State) (hdr : List Byte) : State :=
  let at' := fun (i : Nat) => (hdr[i]?).getD 0
  let n := s.cust.meas.length
  let e := leBytes 2 n ++ [at' 4, at' 5, at' 6, at' 7, at' 18, BitVec.ofNat 8 (lifecycle s)] ++ padTo 64 (hdr.drop 192)
  let kind := (at' 4).toNat
  let svn := (at' 6).toNat + 256 * (at' 7).toNat
  inc { s with cust := { s.cust with
      meas := s.cust.meas ++ [e]
      digest := sha512 (s.cust.digest ++ e)
      accepted := tabSet 0 s.cust.accepted kind (svn + 1) } } bCustody F.CUSTODY_VERIFIED_COUNT

/-! ## READY at the end of a step (R589, R593 to R595) -/

/-- Blocks that bring-up enables (R595). -/
def bootEnables (b : Nat) : Bool :=
  match kindOf b with
  | some .custody | some .lamplighter | some .fuse | some .power | some .partition | some .laser | some .ltime | some .hbmc
  | some .memcrypt | some .hub | some .seam | some .hostport | some .apc => true
  | _ => false

/-- A block announces itself for the first time in this bring-up; one that runs already goes on as it is. -/
def bootReady (s : State) (b : Nat) : State :=
  if rdB s b F.STATE_READY then s
  else setReady (if bootEnables b then wr s b F.CONTROL_ENABLE 1 else s) b

/-- Looms whose column maps to a site become READY; the others latch BOOTTEST where bring-up found their site bad (R596). -/
def loomsReady (s : State) (test : Bool) : State :=
  forEach (List.range 768) (fun l s =>
    if loomSite s l ≤ 16 then bootReady (bankAssign s l) (bLoom l)
    else if test then latchFault s (bLoom l) 0x0118 else s) s

/-- The array and the fabric are READY. -/
def arrayReady (s : State) (test : Bool) : State :=
  let s := forEach (List.range 16) (fun h s => bootReady s (bHub h)) s
  let s := bootReady s bSeam
  let s := loomsReady s test
  let s := forEach (List.range 48) (fun k s => bootReady s (bShuttle k)) s
  bootReady s bBeat

/-- A row-half's site is found bad: it becomes soft-bad (R596). -/
def softBad (s : State) (k site : Nat) : State :=
  if s.ll.soft.contains (k * 32 + site) then s
  else inc { s with ll := { s.ll with soft := s.ll.soft ++ [k * 32 + site] } } bFuse F.FUSE_SOFTBAD_COUNT

/-- A bank of loom `l` fails the test of step 7: it moves to the spare (R326), or the loom's site becomes soft-bad (R327). -/
def bankFails (s : State) (l k : Nat) : State :=
  let b := bLoom l
  if k = 8 then wr s b F.LOOM_BANKSTAT_SPAREBAD 1
  else if rdB s b F.LOOM_BANKSTAT_SPAREUSED ∨ rdB s b F.LOOM_BANKSTAT_SPAREBAD ∨ !(banksOut s l).isEmpty then
    softBad s (loomShuttle l) (loomSite s l)
  else
    let s := wr (wr s b F.LOOM_BANKSTAT_SPAREUSED 1) b F.LOOM_BANKSTAT_SPAREBANK k
    latchFault (wr s b F.STATE_DEGRADED 1) b 0x0113

/-- The maps of every hub from the fuses and the training record. -/
def allMaps (s : State) : State := forEach (List.range 16) (fun h s => hubMaps s h) s

/-! ## Steps of a package bring-up (R589) -/

/-- The step that a step waits for. -/
def stepAfter (step : Nat) : Nat :=
  if step ≤ 1 then 0 else if step ≤ 5 then step - 1 else if step ≤ 8 then 5 else step - 1

/-- Bring-up is done, once every step has ended (R601). -/
def bootDone (s : State) (last : Nat) : State :=
  if s.boot.active ∧ (List.range last).all (fun i => s.boot.ended.contains (i + 1)) then
    let s := wr s bFuse F.FUSE_BOOTSTAT_DONE 1
    let s := wr s bFuse F.FUSE_BOOTTIME_MS ((ltNow s - s.boot.start) / 1000000)
    { s with boot := { s.boot with active := false, cpr := false } }
  else s

/-- A step fails (R597). -/
def stepFails (s : State) (step : Nat) : State :=
  let s := wr (latchFault s bFuse 0x0C02) bFuse F.FUSE_BOOTSTAT_FAILSTEP step
  send { s with ll := { s.ll with faultN := true } } .pin 0 [1]

/-- Training of the stacks has ended: each controller shows the pseudo-channels in service, and one with a pseudo-channel that failed latches
HBM_TRAIN (R434, R454, R459). -/
def stacksTrained (s : State) (up : BitVec 64) : State :=
  forEach (List.range 4) (fun c s =>
    let u := bits up.toNat (16 * c + 15) (16 * c)
    let s := wr s (bHbmc c) F.HBMC_PCSTAT_UP u
    if u = 0xFFFF then s else latchFault s (bHbmc c) 0x0603) s

/-- Items that had to be trained in full on the warm path (R591). -/
def fallbackNote (s : State) (n : Nat) : State :=
  if n = 0 ∨ rd s bFuse F.FUSE_BOOTSTAT_PATH ≠ pathWarm then s
  else wr (incBy s bFuse F.FUSE_FALLBACK_COUNT n) bFuse F.FUSE_BOOTSTAT_FALLBACK 1

/-- Step 5 ends: rails up, the path chosen. -/
def pathChoose (s : State) (tj : Int) : State :=
  let s := { s with pw := { s.pw with enIo := true, enHbm := true, enCmp := true }, boot := { s.boot with tj := tj } }
  let s := bootReady (send s .pin bPower [7]) bPower
  if warmOk s tj then trecWarm (inc (wr s bFuse F.FUSE_BOOTSTAT_PATH pathWarm) bFuse F.FUSE_WARMBOOTS_COUNT)
  else inc (wr s bFuse F.FUSE_BOOTSTAT_PATH pathCold) bFuse F.FUSE_COLDBOOTS_COUNT

/-- What a step of a package bring-up does as it ends well. -/
def stepWork (s : State) (step : Nat) (e : StepEnd) : State :=
  let cold := rd s bFuse F.FUSE_BOOTSTAT_PATH = pathCold
  match step with
  | 1 =>
    let s := incBy s bFuse F.FUSE_CE_COUNT (s.nv.fuseErr.filter (fun x => x.2 == 1)).length
    let s := bootReady s bFuse
    if s.nv.fuseErr.any (fun x => x.2 == 2) then
      let s := latchFault { s with boot := { s.boot with fuseUe := true } } bFuse 0x0C01
      if fuseUeIn s 0 0x36 then { s with boot := { s.boot with active := false } } else s
    else s
  | 2 => { s with boot := { s.boot with wipe := s.nv.wipepend }
                  nv := if s.nv.wipepend then { s.nv with ckpt := [] } else s.nv }
  | 3 => bootReady (bootReady (measure s e.image) bCustody) bPartition
  | 4 =>
    let s := bootReady (bootReady (measure s e.image) bLamplighter) bLaser
    if rd s bFuse F.FUSE_BOOTSTAT_FAILSTEP = 0 then
      send { s with ll := { s.ll with faultN := false, soft := (match trecBest s with | some (_, c) => c.soft | none => []) } }
        .pin 0 [0]
    else s
  | 5 => pathChoose s e.tj
  | 6 =>
    let s := fallbackNote s (if cold then 0 else e.fallbacks)
    let s := forEach ([bLtime, bTimer] ++ (List.range 8).map bReed ++ (List.range 8).map bGlimmer ++ [bHostport])
      (fun b s => bootReady s b) s
    let s := wr (wr (wr s bHostport F.HOSTPORT_LINK_UP 1) bHostport F.HOSTPORT_LINK_WIDTH (e.link.toNat % 16)) bHostport
      F.HOSTPORT_LINK_SPEED (e.link.toNat / 16)
    let s := if s.boot.sleep = 3 then wr s bLtime F.LTIME_STAT_HOLDOVER 1 else s
    forEach ((List.range 8).filter (fun p => bit (rd s bFuse F.FUSE_BOOTCFG_GLIMEN) p)) (fun p s =>
      glimEn (wr s (bGlimmer p) F.CONTROL_ENABLE 1) p true (bit (fuseByte s 0x52 0) p)) s
  | 7 =>
    let test := cold || fuseUeIn s 0x40 0x4C || fuseUeIn s 0x100 0x300
    let s := allMaps s
    let s := if cold then e.badBanks.foldl (fun (s : State) x => bankFails s x.1.val x.2.val) s else s
    let s := if test then e.badSites.foldl (fun (s : State) x => softBad s x.1.val x.2.val) s else s
    arrayReady (wr (allMaps s) bSeam F.SEAM_LINKUP_UP e.seams.toNat) true
  | 8 => fallbackNote (stacksTrained s e.trained) (if cold then 0 else e.fallbacks)
  | 9 =>
    let s := { s with mem := MemSt.reset, ll := { s.ll with snaps := [], snapSeq := [] } }
    let s := forEach ((List.range 4).map bHbmc ++ [bMemcrypt]) (fun b s => bootReady s b) s
    let s := if cold || rdB s bFuse F.FUSE_BOOTSTAT_FALLBACK then trecWrite s else s
    { s with nv := { s.nv with wipepend := s.nv.wipepend && !s.boot.wipe || lifecycle s = lcFieldDebug } }
  | 10 =>
    let s := bootReady (measure s e.image) bApc
    let s := forEach ((List.range 12).map (fun i => bShuttle (48 + i)) ++ [bNetio]) (fun b s => bootReady s b) s
    s
  | _ => s

/-- A step of a package bring-up ends: nothing for a step that does not run. -/
def bootStep (s : State) (step : Nat) (e : StepEnd) : State :=
  let r := s.boot
  if !r.active ∨ r.cpr ∨ step = 0 ∨ 10 < step ∨ r.ended.contains step ∨ (step ≠ 1 ∧ !r.ended.contains (stepAfter step)) then s
  else
    let s := wr s bFuse F.FUSE_BOOTSTAT_STEP step
    if !e.ok then stepFails (if step = 8 then stacksTrained s e.trained else s) step
    else
      let s := { s with boot := { s.boot with ended := s.boot.ended ++ [step] } }
      bootDone (stepWork s step e) 10

/-! ## The compute-partition reset (R12, R592, R598) -/

/-- A block of the compute partition. -/
def inCompute (b : Nat) : Bool :=
  match kindOf b with
  | some k => domainOf k = .compute
  | none => false

/-- Registers of the compute partition that a compute-partition reset keeps: OWNER and what else reflects the partition table,
pass-through sites, MEMCRYPT's keys and the staged region entries; its selections and MC_REGSTAT.REFUSED
take their reset values. -/
def computeKeeps (b off : Nat) : Bool :=
  off = F.OWNER_PART.off
    || (b = bMemcrypt && (off = F.MC_REGDATA0_BASE.off || off = F.MC_REGDATA1_PART.off || off = F.MC_KEYLOADED_SLOTS.off)) ||
  (match kindOf b with
    | some .hub => off = F.HUB_PLYPART_PART.off || (0x0F0 ≤ off && off ≤ 0x0F8)
        || off = F.HUB_ROWPASS_PASS.off
    | some .loom => 0x264 ≤ off && off ≤ 0x280
    | some .apc => off < 0x0C0 && off % 8 = 0 && 0x040 ≤ off
    | _ => false)

/-- The compute partition is held in reset: registers and state of its blocks go, their transactions are discarded, members of
armed groups in other domains return to OPEN, decisions are superseded. A darning ends with the looms and the HBM that it needs (R20). HBM,
its regions and keys stay. -/
def computeDown (s : State) : State :=
  let txns := (txnBlocks s).filter inCompute
  let s := forEach (s.decisions.map (·.block) |>.filter inCompute) (fun b s => decisionsDrop s b) s
  let s := subReset s bBeat
  let maps := (List.range 16).map (fun h => (hub s h).map)
  let io := fun (req : Nat) => 0x400 ≤ req && req ≤ 0x407
  let s : State := { s with
    looms := [], shs := [], apc := [], clu := CluSt.reset, ll := { s.ll with darn := none, heldLooms := [] }
    hubs := (List.range 16).foldl (fun t h => tabSet Hub.reset t h { Hub.reset with map := maps.getD h Hub.reset.map }) []
    blk := s.blk.filter (fun e => !inCompute e.1)
    mem := { s.mem with tags := [], expect := s.mem.expect.filter (fun e => io (e.1 % 4096)), resent := [],
                        tx := s.mem.tx.filter (fun e => io (e.1 / 4)) }
    boot := { s.boot with seen := s.boot.seen.filter (fun b => !inCompute b) } }
  let s := regsDrop s (fun b off => inCompute b && !computeKeeps b off)
  forEach txns (fun b s => txnAborted s b) s

/-- Shows the maps in force of every hub. -/
def showMaps (s : State) : State :=
  forEach (List.range 16) (fun h s => forEach (List.range 3) (fun i s =>
    showMap s h i (((hub s h).map.drop (16 * i)).take 16)) s) s

/-- The looms that can be rebuilt from a snapshot and a log, with their configuration registers. -/
def keepLooms (s : State) : List (Nat × Loom × Tab Word) :=
  ((List.range 768).filter (fun l => (snapLatest s l).isSome && logOn s)).map (fun l => (l, loom s l, loomRegs s l))

/-- COMPUTE_PARTITION_RESET: before step 9 of a bring-up has ended, its steps 7 to 10 start again; else the path of R592 starts,
or starts again. -/
def computeReset (s : State) : State :=
  let r := s.boot
  if r.active ∧ !r.cpr ∧ !r.ended.contains 9 then
    let s := computeDown s
    { s with boot := { s.boot with ended := s.boot.ended.filter (· < 7) } }
  else
    let kept := if r.cpr then r.kept else keepLooms s
    let s := computeDown s
    let s := { s with boot := { s.boot with active := true, cpr := true, ended := [], start := ltNow s, kept := kept, sleep := 0 } }
    let s := wr (wr (wr s bFuse F.FUSE_BOOTSTAT_PATH pathCp) bFuse F.FUSE_BOOTSTAT_STEP 1) bFuse F.FUSE_BOOTSTAT_DONE 0
    send s .act 0 [3]

/-- A loom as its snapshot and its log rebuild it outside a beat: what it was, without the work of an open beat, without what
waits on others, without errors. -/
def loomRebuilt (m : Loom) : Loom :=
  heldApply { m with
           phase := .idle, released := DqSlot.reset, spillDue := false, dqLast := [], nErr1 := [], nErr2 := [], sErr1 := [], sErr2 := [], xErr1 := [], xErr2 := [], dirWait := [],
           rowWaits := [], fills := [], deadFills := [], drain := false, noRestart := [], moving := [], testing := false,
           netHeld := [], openDue := none, drains := [], hookI := false, hookS := false, bOp := none, bDue := [], bQueue := [], bFold := false, bSettle := false,
           tsnap := none,
           seq := { m.seq with act := none, trap := none, queue := [], wait := none, mwait := none, ibuf := [] } }

/-- Puts configuration registers of loom `l` back. -/
def loomRegsPut (s : State) (l : Nat) (rs : Tab Word) : State :=
  rs.foldl (fun (s : State) e => regSet s (bLoom l) (e.1 / 65536) (e.1 % 65536) e.2) s

/-- A loom is rebuilt (R592, R652): its state, its configuration registers, and the status of engines that hold no work any more. -/
def loomBack (s : State) (l : Nat) (m : Loom) (rs : Tab Word) : State :=
  wr (bstatShow (loomRegsPut (setLoom s l (loomRebuilt m)) l rs) l) (bLoom l) F.LOOM_TSNAPCTL_BUSY 0

/-- What a step of a compute-partition reset does as it ends well (R592). -/
def cpWork (s : State) (step : Nat) (e : StepEnd) : State :=
  match step with
  | 2 => arrayReady (wr (showMaps s) bSeam F.SEAM_LINKUP_UP e.seams.toNat) false
  | 3 => trecWrite (forEach ((List.range 4).map bHbmc ++ [bMemcrypt]) (fun b s => bootReady s b) (stacksTrained s e.trained))
  | 5 =>
    let s := s.boot.kept.foldl (fun (s : State) x =>
      if rdB s (bLoom x.1) F.STATE_READY then loomBack s x.1 x.2.1 x.2.2 else s) s
    { s with boot := { s.boot with kept := [] } }
  | 6 =>
    let s := forEach ([bApc] ++ (List.range 12).map (fun i => bShuttle (48 + i)) ++ [bNetio]) (fun b s => bootReady s b) s
    inc s bFuse F.FUSE_CPRESETS_COUNT
  | _ => s

/-- A step of a compute-partition reset ends; `none` where a failure of step 3 or 4 calls for a package reset. -/
def cpStep (s : State) (step : Nat) (e : StepEnd) : Option State :=
  let r := s.boot
  if !r.active ∨ !r.cpr ∨ step = 0 ∨ 6 < step ∨ r.ended.contains step ∨ (step ≠ 1 ∧ !r.ended.contains (step - 1)) then some s
  else
    let s := wr s bFuse F.FUSE_BOOTSTAT_STEP step
    if !e.ok then (if step = 3 ∨ step = 4 then none else some (stepFails s step))
    else
      let s := { s with boot := { s.boot with ended := s.boot.ended ++ [step] } }
      some (bootDone (cpWork s step e) 6)

/-- The path of a bring-up out of S3 (R652): the steps of R589 with LT and the always-on island going on. -/
def wakeBringup (s : State) : State :=
  let s := { s with boot := { s.boot with active := true, cpr := false, ended := [], start := ltNow s, sleep := 3, kept := [] } }
  wr (wr s bFuse F.FUSE_BOOTSTAT_STEP 1) bFuse F.FUSE_BOOTSTAT_DONE 0

end Sys2Proof.Machine
end

