-- ==== Sys2Proof/Machine/Custody.lean ====
section
/-!
DEFINITION. Lantern's mailbox (chapter 17): images, measurement, attestation, lifecycle, partitions and their resources.
-/

namespace Sys2Proof.Machine

/-! ## Results (R576) and the mailbox (R574) -/

abbrev crOk : Nat := 0x00
abbrev crBusy : Nat := 0x01
abbrev crBadcmd : Nat := 0x02
abbrev crBadimage : Nat := 0x03
abbrev crSiged : Nat := 0x04
abbrev crSigmldsa : Nat := 0x05
abbrev crRollback : Nat := 0x06
abbrev crWrongpart : Nat := 0x07
abbrev crBadhash : Nat := 0x08
abbrev crLogfull : Nat := 0x09
abbrev crWrongdie : Nat := 0x0A
abbrev crStale : Nat := 0x0B
abbrev crBadmove : Nat := 0x0C
abbrev crNotsuspended : Nat := 0x0D
abbrev crBusyres : Nat := 0x0E
abbrev crNoentropy : Nat := 0x0F
abbrev crAlready : Nat := 0x10
abbrev crAborted : Nat := 0x11
abbrev crModelkey : Nat := 0x12
abbrev crRefused : Nat := 0x13

/-- Changes Lantern. -/
def modCust (s : State) (f : CustSt → CustSt) : State := { s with cust := f s.cust }
/-- Argument `i`. -/
def custArg (s : State) (i : Nat) : Nat := rd s bCustody (fAt F.CUSTODY_ARG_ARG i)
/-- The buffer's address. -/
def custBuf (s : State) : Nat := rdPair s bCustody F.CUSTODY_BUF_LO_ADDR F.CUSTODY_BUF_HI_ADDR

/-- A command ends: RESULT, BUSY 0, DONE 1 and the CUSTODY line. -/
def custPublish (s : State) (res : Nat) : State :=
  let s := wr (wr (wr s bCustody F.CUSTODY_CSTAT_RESULT res) bCustody F.CUSTODY_CSTAT_BUSY 0) bCustody F.CUSTODY_CSTAT_DONE 1
  let s := inc (progress s bCustody) bCustody F.CUSTODY_CMDS_COUNT
  send (modCust s (fun c => { c with run := none })) .apc bCustody [1]

/-- Reads bytes of HBM as custody; none where the read fails. -/
def custRead (s : State) (a n : Nat) : Option (List Byte) × State :=
  let r := hbmReadRun s bCustody 0x1E a n
  (if r.1 = hOk then some r.2.2.1 else none, r.2.2.2)

/-- Writes bytes of HBM as custody: whether all were written. -/
def custWrite (s : State) (a : Nat) (d : List Byte) : Bool × State :=
  let r := hbmWriteRun s bCustody 0x1E a d
  (r.1 = hOk, r.2.2)

/-! ## Keys (R550, R554, R558) -/

/-- The UDS. -/
def uds (s : State) : List Byte := (List.range 8).flatMap (fun i => leBytes 4 (fuse s (4 + i)).toNat)
/-- A seed derived from the UDS. -/
def udsSeed (s : State) (label : String) (n : Nat) : List Byte := hkdf512 (uds s) [] (ascii label) n
/-- A signer's key of an algorithm: the root key that Lantern's ROM holds, or the owner key whose digest is fused; none where no
owner key is fused. -/
def signerKey (s : State) (signer alg : Nat) : Option (List Byte) :=
  if signer = 0 then some (ascii "PARHAL ROOT")
  else if bit (fuse s 0x15).toNat 0 then
    some ((List.range 64).map (fun k => BitVec.ofNat 8 (fuseByte s (if alg = algEd25519 then 0x16 else 0x26) k)))
  else none

/-- A signature of a signer verifies. -/
def sigOk (s : State) (signer alg : Nat) (msg sig : List Byte) : Bool :=
  match signerKey s signer alg with
  | some k => Config.verifies alg k msg sig
  | none => false

/-- Lantern's own signature under an identity key. -/
def selfSign (s : State) (alg : Nat) (msg : List Byte) : List Byte :=
  if alg = algEd25519 then padTo 64 (Config.crypto alg (udsSeed s "GELNAL ID ED" 32) msg)
  else padTo 3309 (Config.crypto alg (udsSeed s "GELNAL ID MLDSA" 32) msg)

/-! ## Images (R557 to R561) -/

/-- A little-endian field of a byte run. -/
def fieldAt (d : List Byte) (i n : Nat) : Nat := leNat ((d.drop i).take n)
/-- Every byte of a range is 0. -/
def zeroAt (d : List Byte) (i n : Nat) : Bool := ((d.drop i).take n).all (· == 0)

/-- The first check of R558. -/
def imageForm (s : State) (h : List Byte) : Bool :=
  let kind := fieldAt h 4 1
  let signer := fieldAt h 5 1
  let lc := lifecycle s
  fieldAt h 0 4 = 0x4B585045 && zeroAt h 19 5 && zeroAt h 104 88 && 1 ≤ kind && kind ≤ 4 && signer ≤ 1 &&
    (if kind ≤ 3 then signer = 0
      else if lc = lcBlank ∨ lc = lcTest then signer = 0
      else if lc = lcReturn ∨ lc = lcScrapped then true else signer = 1)

/-- The fused SVN of a KIND (R560). -/
def fusedSvn (s : State) (kind : Nat) : Nat :=
  popcount 32 (fuse s (0xD + 2 * (kind - 1))).toNat + popcount 32 (fuse s (0xE + 2 * (kind - 1))).toNat

/-- DCLASSMASK and PART of R558. -/
def imageFits (s : State) (h : List Byte) : Bool :=
  let mask := fieldAt h 16 2
  let part := fieldAt h 18 1
  (mask = 0 || bit mask (fusedDclass s)) && (fieldAt h 4 1 != 4 || (part < 16 && partState s part != psFree))

/-- The checks of R558 in their order, with the header: the first one that fails. -/
def imageCheck (s : State) (a : Nat) : Nat × List Byte × State :=
  let r := custRead s a 256
  let s := r.2
  let h := r.1.getD []
  let kind := fieldAt h 4 1
  let signer := fieldAt h 5 1
  let hash := (h.drop 192).take 64
  if r.1 = none ∨ !imageForm s h then (crBadimage, h, s)
  else if kind = 4 ∧ (lifecycle s = lcReturn ∨ lifecycle s = lcScrapped) then (crRefused, h, s)
  else if sha512 (h.take 192) ≠ hash then (crBadimage, h, s)
  else
    let q := custRead s (a + fieldAt h 88 8) (64 + 3309)
    let s := q.2
    let sig := q.1.getD []
    if q.1 = none ∨ !sigOk s signer algEd25519 hash (sig.take 64) then (crSiged, h, s)
    else if !sigOk s signer algMlDsa hash (sig.drop 64) then (crSigmldsa, h, s)
    else if fieldAt h 6 2 < fusedSvn s kind then (crRollback, h, s)
    else if !imageFits s h then (crWrongpart, h, s)
    else
      let b := custRead s (a + 256) (fieldAt h 8 8)
      let s := b.2
      if b.1 = none ∨ sha512 (b.1.getD []) ≠ (h.drop 24).take 64 then (crBadhash, h, s)
      else if 64 ≤ s.cust.meas.length then (crLogfull, h, s)
      else (crOk, h, s)

/-- The model key of R561; none where the unwrapping fails. -/
def modelKey (s : State) (h block : List Byte) : Option (List Byte) :=
  let hash := (h.drop 192).take 64
  let ss := Config.crypto algMlKem (udsSeed s "GELNAL KEM" 64) (block.take 1088)
  let kek := hkdf512 ss hash (ascii "GELNAL MODEL") 32
  let body := List.replicate 12 0 ++ hash ++ (block.drop 1088).take 32
  if Config.verifies algGcmOpen kek body (block.drop 1120) then some (padTo 32 (Config.crypto algGcmOpen kek body)) else none

/-- Decrypts section `i`: offset of its text in the image, length and destination. A section whose tag fails zeroes its
destination. -/
def modelSection (s : State) (a : Nat) (h key : List Byte) (i : Nat) (x : Nat × Nat × Nat) : Bool × State :=
  let part := fieldAt h 18 1
  let r := custRead s (a + x.1) (x.2.1 + 16)
  let d := r.1.getD []
  let body := leBytes 12 i ++ (h.drop 192).take 64 ++ d.take x.2.1
  if r.1 ≠ none ∧ Config.verifies algGcmOpen key body (d.drop x.2.1) then
    let w := hbmWriteRun r.2 bCustody part x.2.2 (padTo x.2.1 (Config.crypto algGcmOpen key body))
    (w.1 = hOk, w.2.2)
  else (false, (hbmWriteRun r.2 bCustody part x.2.2 (List.replicate x.2.1 0)).2.2)

/-- The encrypted sections of an image, in order, up to the first that fails. -/
def modelSections (s : State) (a : Nat) (h : List Byte) (secs : List (Nat × Nat × Nat)) : Bool × State :=
  if fieldAt h 4 1 ≠ 4 ∨ fieldAt h 96 8 = 0 then (true, s)
  else
    let r := custRead s (a + fieldAt h 96 8) 1136
    match r.1.bind (modelKey r.2 h) with
    | none => (false, r.2)
    | some key =>
      (secs.zipIdx).foldl (fun (p : Bool × State) x => if p.1 then modelSection p.2 a h key x.2 x.1 else p) (true, r.2)

/-- VERIFY. -/
def custVerify (s : State) (secs : List (Nat × Nat × Nat)) : Nat × State :=
  let a := custBuf s
  let r := imageCheck s a
  let m := if r.1 = crOk then modelSections r.2.2 a r.2.1 secs else (true, r.2.2)
  let res := if r.1 ≠ crOk then r.1 else if m.1 then crOk else crModelkey
  if res = crOk then (crOk, measure m.2 r.2.1) else (res, inc m.2 bCustody F.CUSTODY_VREFUSE_COUNT)

/-- SVNCOMMIT: bits below the SVN of the last accepted image are blown. -/
def custSvncommit (s : State) : Nat × State :=
  let kind := custArg s 0
  if kind < 1 ∨ 4 < kind then (crBadcmd, s)
  else
    match tabGet 0 s.cust.accepted kind with
    | 0 => (crOk, s)
    | v + 1 =>
      let s := fuseBlow s (0xD + 2 * (kind - 1)) (BitVec.ofNat 32 (2 ^ min v 32 - 1))
      (crOk, fuseBlow s (0xE + 2 * (kind - 1)) (BitVec.ofNat 32 (2 ^ (min v 64 - 32) - 1)))

/-! ## Attestation (R564) -/

/-- The fused identity. -/
def identity (s : State) : List Byte := (List.range 4).flatMap (fun i => leBytes 4 (fuse s i).toNat)

/-- The report over a nonce, without its signatures. -/
def attestBody (s : State) (nonce : List Byte) : List Byte :=
  padTo 32 nonce ++ identity s ++ [BitVec.ofNat 8 (lifecycle s)] ++ s.cust.meas.flatten ++ s.cust.digest

/-- ATTEST. -/
def custAttest (s : State) : Nat × State :=
  let a := custBuf s
  let r := custRead s a 32
  match r.1 with
  | none => (crBadcmd, r.2)
  | some nonce =>
    let body := attestBody r.2 nonce
    let w := custWrite r.2 a (body ++ selfSign r.2 algEd25519 body ++ selfSign r.2 algMlDsa body)
    (if w.1 then crOk else crBadcmd, w.2)

/-! ## Lifecycle (R565 to R570) -/

/-- NONCE. -/
def custNonce (s : State) : Nat × State :=
  if s.cust.noEntropy then (crNoentropy, s)
  else
    let r := freeBytes s 32
    let s := modCust r.2 (fun c => { c with nonce := some (r.1, ltNow s) })
    let w := custWrite s (custBuf s) r.1
    (if w.1 then crOk else crBadcmd, w.2)

/-- The nonce in force. -/
def nonceNow (s : State) : Option (List Byte) :=
  match s.cust.nonce with
  | some (n, t) => if ltNow s < t + 600000000000 then some n else none
  | none => none

/-- NONCE_EXPIRY. -/
def nonceExpire (s : State) : State := if nonceNow s = none then modCust s (fun c => { c with nonce := none }) else s

/-- The token check (R568) for a target and a signer. -/
def tokenCheck (s : State) (target signer : Nat) (may : Bool) : Nat × State :=
  let r := custRead s (custBuf s) 3421
  let s := r.2
  let t := r.1.getD []
  let d := sha512 (t.take 48)
  let res :=
    if !may ∨ r.1 = none ∨ fieldAt t 0 4 ≠ 0x4B544C47 ∨ !zeroAt t 6 2 ∨ fieldAt t 4 1 ≠ target ∨ fieldAt t 5 1 ≠ signer then crBadmove
    else if fieldAt t 8 8 ≠ dieNumber s then crWrongdie
    else if nonceNow s ≠ some ((t.drop 16).take 32) then crStale
    else if !sigOk s signer algEd25519 d ((t.drop 48).take 64) then crSiged
    else if !sigOk s signer algMlDsa d (t.drop 112) then crSigmldsa
    else crOk
  if res = crOk then (crOk, modCust s (fun c => { c with nonce := none })) else (res, inc s bCustody F.CUSTODY_LCREFUSE_COUNT)

/-- An accepted move: WIPEPEND, the fuse bit or the volatile FIELD_DEBUG bit with ENTRY, and the package reset (R569). -/
def lcMove (s : State) (target : Nat) : State :=
  let s := { s with nv := { s.nv with wipepend := true } }
  let s :=
    if target = lcFieldDebug then modCust s (fun c => { c with fieldDebug := true, entry := true })
    else
      let s := modCust s (fun c => { c with fieldDebug := false, entry := false })
      if target = lcTest then fuseBlow s 0xC 1 else if target = lcProvisioned then fuseBlow s 0xC 2
      else if target = lcField then fuseBlow s 0xC 4 else fuseBlow s 0xC 8
  packageReset (tenantEvent s teLifecycle) false s.gpkg.self

/-- The moves that an owner token makes (R566). -/
def moveMay (now target : Nat) : Bool :=
  (now = lcProvisioned && target = lcField) || (now = lcField && target = lcFieldDebug) ||
  ((now = lcProvisioned || now = lcField || now = lcFieldDebug) && target = lcReturn)

/-- A command that ends in a package reset, or in a result. -/
inductive CustEnd where
  | result (res : Nat) (s : State)
  | moved (s : State)

/-- LCMOVE. -/
def custLcmove (s : State) : CustEnd :=
  let target := custArg s 0
  let r := tokenCheck s target 1 (moveMay (lifecycle s) target)
  if r.1 = crOk then .moved (lcMove r.2 target) else .result r.1 r.2

/-- OWNERKEY: the two public keys, 32 and 1,952 bytes, stand at BUF. -/
def custOwnerkey (s : State) : Nat × State :=
  if lifecycle s ≠ lcProvisioned then (crRefused, s)
  else if bit (fuse s 0x15).toNat 0 then (crAlready, s)
  else
    let r := custRead s (custBuf s) 1984
    match r.1 with
    | none => (crBadcmd, r.2)
    | some d =>
      let put := fun (base : Nat) (dig : List Byte) (s : State) =>
        forEach (List.range 16) (fun i s => fuseBlow s (base + i) (BitVec.ofNat 32 (fieldAt dig (4 * i) 4))) s
      (crOk, fuseBlow (put 0x26 (sha512 (d.drop 32)) (put 0x16 (sha512 (d.take 32)) r.2)) 0x15 1)

/-- RELOCK. -/
def custRelock (s : State) : CustEnd :=
  if lifecycle s = lcFieldDebug then .moved (lcMove s lcField) else .result crRefused s

/-- PROVISION: `certs` are the identity certificate chains by slot. -/
def custProvision (s : State) (certs : List (List Byte)) : CustEnd :=
  if lifecycle s ≠ lcTest then .result crRefused s
  else
    let r := tokenCheck s lcProvisioned 0 true
    if r.1 = crOk then .moved (lcMove { r.2 with nv := { r.2.nv with certs := certs } } lcProvisioned) else .result r.1 r.2

/-- LCINIT, from the warden port only. -/
def custLcinit (s : State) (r : Requester) : CustEnd :=
  if lifecycle s = lcBlank ∧ r = .custody .warden then .moved (lcMove s lcTest) else .result crRefused s

/-! ## Partitions and resources (R571 to R573) -/

/-- Sets the partition of a lamp block. -/
def setLampPart (s : State) (h k p : Nat) : State :=
  let off := F.HUB_LAMPPART_PART.off + 4 * (k / 6)
  regSet s (bHub h) off 0 (fldSet ⟨off, 5 * (k % 6) + 4, 5 * (k % 6)⟩ (regGet s (bHub h) off 0) p)

/-- LOOM_PLYMASK of every loom of partition `p` follows HUB_PLYPART (R357). -/
def plyMasks (s : State) (p : Nat) : State :=
  let mine := fun (q : Nat) => rdI s (bHub (q / 16)) F.HUB_PLYPART_PART (q % 16) = p
  let word := fun (j : Nat) => (List.range 32).foldl (fun a i => if mine (32 * j + i) then a + 2 ^ i else a) 0
  forEach ((List.range 768).filter (fun l => rd s (bLoom l) F.OWNER_PART = p)) (fun l s =>
    forEach (List.range 8) (fun j s => wr s (bLoom l) (fAt F.LOOM_PLYMASK_MASK j) (word j)) s) s

/-- The block that a LOOM, REED or SHUTTLE resource names. -/
def resBlock (kind a2 : Nat) : Option Nat :=
  if kind = 0 ∧ a2 < 768 then some (bLoom a2) else if kind = 1 ∧ a2 < 8 then some (bReed a2)
  else if kind = 2 ∧ 48 ≤ a2 ∧ a2 ≤ 55 then some (bShuttle a2) else none

/-- A shuttle has no work. -/
def shIdle (s : State) (k : Nat) : Bool :=
  let x := sh s k
  x.page.isNone && x.queue.isEmpty && x.job.isNone && x.run.isNone

/-- PASSIGN of a region entry: `a2` names entry and slot, `a3` BASE and SIZE. -/
def assignRegion (s : State) (p a2 a3 : Nat) : Nat × State :=
  let i := bits a2 5 0
  let k := bits a2 12 8
  let pool := 17 ≤ k
  if (region s i).valid ∨ !(k = 1 + p || (pool && tabGet 0 s.mem.pool k = 0)) then (crBusyres, s)
  else if pool ∧ s.cust.noEntropy then (crNoentropy, s)
  else
    let t := if pool then poolAssign s k p else s
    let r : Region := ⟨bits a3 14 0, bits a3 30 16, p, k, 0, true, false⟩
    if !regionOk t i r then (crBusyres, s)
    else
      let t := wrI (wrI t bMemcrypt F.MC_REGDATA0_BASE i r.base) bMemcrypt F.MC_REGDATA0_SIZE i r.size
      let t := wrI (wrI (wrI t bMemcrypt F.MC_REGDATA1_PART i p) bMemcrypt F.MC_REGDATA1_SLOT i k) bMemcrypt F.MC_REGDATA1_KIND i 0
      let t := wrI (wrI t bMemcrypt F.MC_REGDATA1_VALID i 1) bMemcrypt F.MC_REGDATA1_DEVACC i 0
      (crOk, mcApply t i)

/-- PASSIGN of a resource to partition `p`, which is SUSPENDED. -/
def assignRes (s : State) (p kind a2 a3 : Nat) : Nat × State :=
  let free := 0x1F
  let still := beatState s = stIdle || beatState s = stStopped
  match resBlock kind a2 with
  | some b =>
    if rd s b F.OWNER_PART ≠ free ∨ !(if kind = 2 then shIdle s a2 else still) then (crBusyres, s)
    else
      let s := wr s b F.OWNER_PART p
      (crOk, if kind = 0 then plyMasks s p else s)
  | none =>
    if kind = 3 ∧ a2 < 16 ∧ a3 < 16 then
      if lampPart s a2 a3 = free then (crOk, setLampPart s a2 a3 p) else (crBusyres, s)
    else if kind = 4 ∧ a2 < 256 then
      let b := bHub (a2 / 16)
      if rdI s b F.HUB_PLYPART_PART (a2 % 16) = free ∧ rdI s b F.HUB_PLYCTL_STATE (a2 % 16) = plyIdle then
        (crOk, plyMasks (wrI s b F.HUB_PLYPART_PART (a2 % 16) p) p)
      else (crBusyres, s)
    else if kind = 5 then assignRegion s p a2 a3
    else if kind = 6 ∧ a2 < 64 then
      if rdI s bHostport F.HOSTPORT_WINCTL_PART a2 = free ∧ rdI s bHostport F.HOSTPORT_WINCTL_EN a2 = 0 then
        (crOk, wrI s bHostport F.HOSTPORT_WINCTL_PART a2 p)
      else (crBusyres, s)
    else if kind = 7 ∧ a2 < 16 then
      let f := fStep F.APC_PARTALLOW_ALLOW 8 a2
      (crOk, wr s bApc f (rd s bApc f ||| 2 ^ p))
    else (crBadcmd, s)

/-- The resource belongs to partition `p`; none where the arguments name no resource. -/
def resOf (s : State) (p kind a2 a3 : Nat) : Option Bool :=
  match resBlock kind a2 with
  | some b => some (rd s b F.OWNER_PART = p)
  | none =>
    if kind = 3 ∧ a2 < 16 ∧ a3 < 16 then some (lampPart s a2 a3 = p)
    else if kind = 4 ∧ a2 < 256 then some (rdI s (bHub (a2 / 16)) F.HUB_PLYPART_PART (a2 % 16) = p)
    else if kind = 5 then some ((region s (bits a2 5 0)).valid && (region s (bits a2 5 0)).part = p)
    else if kind = 6 ∧ a2 < 64 then some (rdI s bHostport F.HOSTPORT_WINCTL_PART a2 = p)
    else if kind = 7 ∧ a2 < 16 then some (bit (rd s bApc (fStep F.APC_PARTALLOW_ALLOW 8 a2)) p)
    else none

/-- A block comes back to the device. -/
def blockHome (s : State) (b : Nat) : State := wr s b F.OWNER_PART 0x1F

/-- Wipes a resource of partition `p` on its way back to the device; blocks and regions are back when their wipe is complete. -/
def releaseRes (s : State) (p kind a2 a3 : Nat) : State :=
  let wait := fun (x : Nat) (s : State) => modCust s (fun c => { c with releasing := c.releasing.filter (· != x) ++ [x] })
  match resBlock kind a2 with
  | some b =>
    let s := blockReset s b
    if rdB s b F.STATE_RESETTING then wait b s else blockHome s b
  | none =>
    if kind = 3 then
      let s := modHub s a2 (fun x => { x with lamps := tabClear x.lamps (64 * a3) (64 * a3 + 64) })
      setLampPart s a2 a3 0x1F
    else if kind = 4 then
      plyMasks (wrI (plyForce s (a2 / 16) (a2 % 16)) (bHub (a2 / 16)) F.HUB_PLYPART_PART (a2 % 16) 0x1F) p
    else if kind = 5 then
      let i := bits a2 5 0
      wait (65536 + i) (if tabGet 0 s.mem.rstate i = 1 then s else mcWipe s i)
    else if kind = 6 then
      wrI (wrI s bHostport F.HOSTPORT_WINCTL_EN a2 0) bHostport F.HOSTPORT_WINCTL_PART a2 0x1F
    else
      let f := fStep F.APC_PARTALLOW_ALLOW 8 a2
      wr s bApc f (if bit (rd s bApc f) p then rd s bApc f - 2 ^ p else rd s bApc f)

/-- A CLEARING partition whose last wipe is complete is FREE, its slots unloaded. -/
def partsFreed (s : State) : State :=
  if s.cust.releasing.isEmpty then
    forEach ((List.range 16).filter (fun p => partState s p = psClearing)) (fun p s =>
      let s := slotUnload s (1 + p)
      let s := forEach ((List.range 32).filter (fun k => 17 ≤ k && tabGet 0 s.mem.pool k = p + 1)) (fun k s => slotUnload s k) s
      setPartState s p psFree) s
  else s

/-- The wipe of a resource is complete: a block id, or 65,536 + a region entry. -/
def releaseDone (s : State) (x : Nat) : State :=
  if !s.cust.releasing.contains x then s
  else
    let s := modCust s (fun c => { c with releasing := c.releasing.filter (· != x) })
    let s := if x < 65536 then blockHome s x
      else
        let i := x - 65536
        let s := wrI (wrI s bMemcrypt F.MC_REGDATA1_VALID i 0) bMemcrypt F.MC_REGDATA1_PART i 0x1F
        modMem s (fun m => { m with regions := tabSet Region.reset m.regions i Region.reset, rstate := tabSet 0 m.rstate i 0 })
    partsFreed s

/-- Every resource of a partition: kind and arguments. -/
def resAll (s : State) (p : Nat) : List (Nat × Nat × Nat) :=
  let one : Nat → Nat → List (Nat × Nat × Nat) := fun kind n => (List.range n).map (fun i => (kind, i, 0))
  let all : List (Nat × Nat × Nat) := one 0 768 ++ one 1 8 ++ (List.range 8).map (fun i => (2, 48 + i, 0))
    ++ (List.range 256).map (fun i => (3, i / 16, i % 16)) ++ one 4 256 ++ one 5 64 ++ one 6 64 ++ one 7 16
  all.filter (fun x => resOf s p x.1 x.2.1 x.2.2 == some true)

/-- PCREATE. -/
def custPcreate (s : State) : Nat × State :=
  let p := custArg s 0
  if 16 ≤ p then (crBadcmd, s) else if partState s p ≠ psFree then (crAlready, s)
  else if s.cust.noEntropy then (crNoentropy, s) else (crOk, setPartState (slotLoad s (1 + p)) p psSuspended)

/-- A partition switch between SUSPENDED and ACTIVE (R400). -/
def partSwitch (s : State) (p v : Nat) : State := setPartState (forEach (List.range 16) (fun h s => lampZero s h p) s) p v

/-- PACTIVATE. -/
def custPactivate (s : State) : Nat × State :=
  let p := custArg s 0
  if 16 ≤ p then (crBadcmd, s) else if partState s p ≠ psSuspended then (crNotsuspended, s) else (crOk, partSwitch s p psActive)

/-- PSUSPEND. -/
def custPsuspend (s : State) : Nat × State :=
  let p := custArg s 0
  if 16 ≤ p then (crBadcmd, s) else if partState s p ≠ psActive then (crNotsuspended, s)
  else (crOk, tenantEvent (partSwitch s p psSuspended) tePartitionDown)

/-- PASSIGN. -/
def custPassign (s : State) : Nat × State :=
  let p := custArg s 0
  if 16 ≤ p then (crBadcmd, s) else if partState s p ≠ psSuspended then (crNotsuspended, s)
  else assignRes s p (custArg s 1) (custArg s 2) (custArg s 3)

/-- PRELEASE. -/
def custPrelease (s : State) : Nat × State :=
  let p := custArg s 0
  if 16 ≤ p then (crBadcmd, s) else if partState s p ≠ psSuspended then (crNotsuspended, s)
  else match resOf s p (custArg s 1) (custArg s 2) (custArg s 3) with
    | none => (crBadcmd, s)
    | some false => (crBusyres, s)
    | some true =>
      if custArg s 1 = 5 ∧ s.cust.noEntropy then (crNoentropy, s)
      else (crOk, releaseRes s p (custArg s 1) (custArg s 2) (custArg s 3))

/-- PDESTROY. -/
def custPdestroy (s : State) : Nat × State :=
  let p := custArg s 0
  if 16 ≤ p then (crBadcmd, s) else if partState s p ≠ psSuspended then (crNotsuspended, s)
  else
    let rs := resAll s p
    if s.cust.noEntropy ∧ rs.any (fun x => x.1 == 5) then (crNoentropy, s)
    else
      let s := setPartState s p psClearing
      let s := forEach rs (fun x s => releaseRes s p x.1 x.2.1 x.2.2) s
      let s := setSessKey s p { sessKey s p with loaded := false }
      (crOk, partsFreed s)

/-! ## SCRAP (R574) -/

/-- SCRAP as the always-on logic performs it; a running command ends with ABORTED. -/
def scrapDo (s : State) : State :=
  let s := if rdB s bCustody F.CUSTODY_CSTAT_BUSY then custPublish s crAborted else s
  let s := fuseBlow (fuseBlow s 0xC 0x10) 0xC 0x20
  let s := forEach (List.range 32) (fun k s => slotUnload s k) s
  let s := forEach (List.range 16) (fun p s => setSessKey s p { sessKey s p with loaded := false }) s
  let s := { s with nv := { s.nv with life := [], trec := [], certs := [], ckpt := [], wipepend := false } }
  lasLight (regsDrop (tenantEvent s teLifecycle) (fun b off => b = bFuse && off = F.FUSE_BOOTCFG_FAST.off)) false

/-- A SCRAP frame of the warden port (R499): the second of two identical frames within 10 ms performs it. -/
def scrapFrame (s : State) : State :=
  match s.cust.scrapFrame with
  | some t =>
    if ltNow s ≤ t + 10000000 then scrapDo (modCust s (fun c => { c with scrapFrame := none }))
    else modCust s (fun c => { c with scrapFrame := some (ltNow s) })
  | none => modCust s (fun c => { c with scrapFrame := some (ltNow s) })

/-! ## Commands (R574, R575) -/

/-- What a command does, by its code. -/
def custRun (s : State) (r : Requester) (code : Nat) (certs : List (List Byte)) (secs : List (Nat × Nat × Nat)) : CustEnd :=
  let plain := fun (p : Nat × State) => CustEnd.result p.1 p.2
  if lifecycle s = lcScrapped then .result crRefused s
  else match code with
    | 0x01 => plain (custVerify s secs)
    | 0x02 => plain (custSvncommit s)
    | 0x03 => plain (custAttest s)
    | 0x10 => plain (custPcreate s)
    | 0x11 => plain (custPactivate s)
    | 0x12 => plain (custPsuspend s)
    | 0x13 => plain (custPdestroy s)
    | 0x14 => plain (custPassign s)
    | 0x15 => plain (custPrelease s)
    | 0x20 => plain (custNonce s)
    | 0x21 => custLcmove s
    | 0x22 => plain (custOwnerkey s)
    | 0x23 => custRelock s
    | 0x24 => custProvision s certs
    | 0x25 => custLcinit s r
    | 0x2F => if custArg s 0 = 0x53435250 then .result crOk (scrapDo s) else .result crBadcmd s
    | _ => .result crBadcmd s

/-- CUSTODY_CMD written: the command's effect, with its result published by CUSTODY_COMMAND_DONE. SCRAP pre-empts a running
command; a move resets the package. -/
def custodyCommand (s : State) (r : Requester) (code : Nat) (certs : List (List Byte)) (secs : List (Nat × Nat × Nat)) : State :=
  let scrap := code = 0x2F ∧ custArg s 0 = 0x53435250
  if ¬scrap ∧ rdB s bCustody F.CUSTODY_CSTAT_BUSY then wr s bCustody F.CUSTODY_CSTAT_RESULT crBusy
  else if ¬scrap ∧ s.ll.lanternGone then wr s bCustody F.CUSTODY_CSTAT_BUSY 1
  else match custRun s r code certs secs with
    | .moved t => t
    | .result res t => modCust (wr t bCustody F.CUSTODY_CSTAT_BUSY 1) (fun c => { c with run := some (code, res) })

/-- CUSTODY_COMMAND_DONE: PRELEASE and PDESTROY end once what they release is wiped. -/
def custodyDone (s : State) : State :=
  match s.cust.run with
  | some (code, res) => if (code = 0x13 ∨ code = 0x15) ∧ !s.cust.releasing.isEmpty then s else custPublish s res
  | none => s

/-! ## Entropy (R551) -/

/-- TRNG_HEALTH_FAIL. -/
def trngFail (s : State) : State := modCust (latchFault s bCustody 0x0B01) (fun c => { c with noEntropy := true })
/-- DRBG_RESEED: 1,024 samples in a row have passed. -/
def drbgReseed (s : State) : State := modCust s (fun c => { c with noEntropy := false })

end Sys2Proof.Machine
end

