-- ==== Sys2Proof/Machine/Power.lean ====
section
/-!
DEFINITION. POWER (chapter 20) and the supplies and references it watches (chapter 22): levels, budget policy, sleep states, wakes,
thermal protection, rail faults, the crystal.
-/

namespace Sys2Proof.Machine

/-- Changes POWER. -/
def modPw (s : State) (f : PowerSt → PowerSt) : State := { s with pw := f s.pw }

/-! ## Levels and the budget policy (R643 to R646) -/

/-- LEVEL_CHANGE_DONE: the voltage and frequency moves have ended. -/
def levelDone (s : State) : State :=
  if levelDue s then
    when' (!replayMode s) (fun s => detSet s F.BEAT_DETSTAT_LEVEL) (modPw s (fun p => { p with level := levelWanted s }))
  else s

/-- The mechanism of the policy: loom level in [2:0], warp level in [4]. -/
abbrev fldLevels : Fld := ⟨0x400, 4, 0⟩

/-- TJMAX in °C by grade (R649). -/
def tjmax (s : State) : Int := if bits (fuse s 0).toNat 19 16 = 2 then 105 else 115
/-- Th of the last sample. -/
def thNow (s : State) : Int := rdS s bPower F.POWER_TJ_DEGC

/-- The loom level that the policy decides (R645), from the last one decided; none where no rule fits. -/
def levelRule (s : State) (watts p : Nat) : Option Nat :=
  let budget := rd s bPower F.POWER_BUDGET_W
  let lower := min 7 (p + 1)
  if tjmax s - 5 ≤ thNow s then some lower
  else if budget ≠ 0 ∧ budget < watts then some lower
  else if 0 < beatLag s ∧ (budget = 0 ∨ 10 * watts ≤ 9 * budget) then some (p - 1)
  else if 16 ≤ s.pw.lagZero then some lower
  else none

/-- The count of 16 restarts where its rule decides. -/
def lagRule (s : State) (watts : Nat) : Bool :=
  let budget := rd s bPower F.POWER_BUDGET_W
  16 ≤ s.pw.lagZero && !(tjmax s - 5 ≤ thNow s) && !(budget != 0 && decide (budget < watts))

/-- A management tick: the power measured over it, the end of a throttle (R649), the policy's decision. -/
def powerTick (s : State) (watts : Nat) : State :=
  let s := wr s bPower F.POWER_MEAS_W (min watts 65535)
  let s := modPw s (fun p => { p with
    lagZero := if beatLag s = 0 then p.lagZero + 1 else 0
    cool := if thNow s < tjmax s - 5 then p.cool + 1 else 0 })
  let s := if 10 ≤ s.pw.cool then wr s bPower F.POWER_STAT_THROTTLE 0 else s
  if liveExpert s bPower ∨ rdB s bPower F.CONTROL_FREEZE then s
  else
    let old := decided s bPower fldLevels 0
    match levelRule s watts (old % 8) with
    | none => s
    | some p =>
      let s := if lagRule s watts then modPw s (fun q => { q with lagZero := 0 }) else s
      let v := p + (if 4 ≤ p then 16 else 0)
      if v = old then s else decide' s bPower fldLevels 0 v

/-! ## Cutting rails (R653, R675) -/

/-- The enable outputs. -/
def railPins (s : State) : State :=
  send s .pin bPower [s.pw.enIo.toNat + 2 * s.pw.enHbm.toNat + 4 * s.pw.enCmp.toNat]

/-- The compute rails are cut: what the compute partition holds is lost, but for what Lantern and the fuses restore. -/
def cutCompute (s : State) : State :=
  if s.pw.enCmp then modPw (computeDown s) (fun p => { p with enCmp := false }) else s

/-- The HBM rails are cut: HBM and its protection lose their state. -/
def cutHbm (s : State) : State :=
  if s.pw.enHbm then
    let s := regsDrop s (fun b off => b = bMemcrypt && off != F.OWNER_PART.off)
    { s with mem := MemSt.reset, ll := { s.ll with snaps := [] }, pw := { s.pw with enHbm := false } }
  else s

/-- A block of the I/O domain. -/
def inIo (b : Nat) : Bool :=
  match kindOf b with
  | some k => domainOf k = .io
  | none => false

/-- The pins that an S3 entry clamps (R653): the reed ports' clock and data lanes go low (3), their I3C buses, PCIe, USXGMII and CAN to high
impedance (2). TMR and SYNC_OUT go with the timer and the ports. -/
def pinsClamp (s : State) : State :=
  let s := forEach (List.range 8) (fun p s => send (send s .pin (bReed p) [3]) .pin (bReed p) [2]) s
  send (send s .pin bHostport [2]) .pin bNetio [2]

/-- The I/O rails are cut: the blocks of the I/O domain lose their state, ports are OFF, light is out, LT counts on in the
always-on island (R655). -/
def cutIo (s : State) : State :=
  if s.pw.enIo then
    let s := pinsClamp (forEach (allBlocks.filter inIo) (fun b s => subReset s b) s)
    let s := regsDrop s (fun b off => inIo b && off != F.OWNER_PART.off)
    { s with blk := s.blk.filter (fun e => !inIo e.1), sess := s.sess.map (fun e => (e.1, { e.2 with loaded := false }))
             boot := { s.boot with seen := s.boot.seen.filter (fun b => !inIo b) }, pw := { s.pw with enIo := false } }
  else s

/-- The whole cut of S3. -/
def cutAll (s : State) : State := railPins (cutIo (cutHbm (cutCompute s)))

/-! ## Sleep entry (R650, R651) -/

/-- POWER_STAT.PHASE codes. -/
abbrev phSteady : Nat := 0
abbrev phEnter : Nat := 1
abbrev phExit : Nat := 2

/-- STATE and PHASE. -/
def sleepState (s : State) : Nat := rd s bPower F.POWER_STAT_STATE
/-- PHASE. -/
def sleepPhase (s : State) : Nat := rd s bPower F.POWER_STAT_PHASE
/-- Sets both. -/
def setSleep (s : State) (st ph : Nat) : State := wr (wr s bPower F.POWER_STAT_STATE st) bPower F.POWER_STAT_PHASE ph

/-- A loom that refuses sleep: its sequencer or its batten array has work. -/
def loomAwake (s : State) (l : Nat) : Bool :=
  let q := seqState (seqOf s l)
  q = 2 || q = 3 || q = 4 || rdB s (bLoom l) F.LOOM_BSTAT_BUSY

/-- The blocks that refuse a target, in ascending block id; `wfi` says that every hart but the requester's is in WFI without a
pending interrupt. -/
def sleepRefusers (s : State) (target : Nat) (wfi : Bool) : List Nat :=
  let deep := 2 ≤ target
  let one := fun (c : Bool) (b : Nat) => if c then [b] else []
  one (deep && rdB s bCustody F.CUSTODY_CSTAT_BUSY) bCustody
    ++ one (s.ll.darn.isSome || !s.ll.rungs.isEmpty || (deep && s.ll.ckpt.isSome)) bLamplighter
    ++ one (beatState s != stIdle && beatState s != stStopped) bBeat
    ++ one (deep && (List.range 64).any (fun i => tabGet 0 s.mem.rstate i == 1)) bMemcrypt
    ++ ((List.range 60).filter (fun k => (decide (k < 48) || deep) && !shIdle s k)).map bShuttle
    ++ one (deep && !wfi) bApc
    ++ ((List.range 768).filter (loomAwake s)).map bLoom

/-- A request for sleep is refused. -/
def sleepRefused (s : State) (target b : Nat) : State :=
  let s := wr (wr s bPower F.POWER_LASTREFUSER_BLOCK b) bPower F.POWER_LASTREFUSER_TARGET target
  inc s bPower (fAt F.POWER_REFUSE1_COUNT (target - 1))

/-- POWER_SLEEP or APC_PWRREQ.SLEEP written with S1, S2 or S3: the entry begins, or is refused. -/
def sleepRequest (s : State) (target : Nat) (wfi : Bool) : State :=
  if sleepState s ≠ 0 ∨ sleepPhase s ≠ phSteady ∨ s.pw.railFault then sleepRefused s target bPower
  else match sleepRefusers s target wfi with
    | b :: _ => sleepRefused s target b
    | [] =>
      let s := setSleep (modPw s (fun p => { p with target := target })) 0 phEnter
      if 2 ≤ target then
        forEach ((List.range 768).filter (fun l => rdB s (bLoom l) F.STATE_READY)) (fun l s => snapTake s l s.beat.n true) s
      else s

/-- Images whose last byte has not been written. -/
def snapsOpen (s : State) : Bool := s.ll.snaps.any (fun e => match e.2 with | some i => !i.done | none => false)

/-- SLEEP_ENTRY_DONE: the commit point and what follows it, once every snapshot has been written. -/
def sleepEntered (s : State) : State :=
  if sleepPhase s ≠ phEnter ∨ (2 ≤ s.pw.target ∧ snapsOpen s) then s
  else
    let t := s.pw.target
    let s := modPw s (fun p => { p with wasStopped := beatState s = stStopped, beatN := s.beat.n })
    let s := setSleep s t phSteady
    if t = 2 then railPins (cutCompute s) else if t = 3 then cutAll s else s

/-- An entry is aborted before its commit point. -/
def sleepAborted (s : State) : State :=
  inc (wr (setSleep s 0 phSteady) bPower F.POWER_STAT_ABORTED 1) bPower (fAt F.POWER_ABORT1_COUNT (s.pw.target - 1))

/-! ## Wakes and exits (R652 to R655) -/

/-- The exit begins. -/
def exitStart (s : State) : State :=
  if sleepState s = 3 ∧ s.pw.tripped then modPw s (fun p => { p with wake := true })
  else
    let s := setSleep (modPw s (fun p => { p with wake := false, target := sleepState s })) (sleepState s) phExit
    if sleepState s = 3 then wakeBringup s else s

/-- The sleep states that a wake source occurs in. -/
def wakeStates (src : Nat) : List Nat := if src = 3 ∨ src = 6 then [1, 2] else if src = 5 then [1] else [1, 2, 3]

/-- A wake source is seen: an enabled one aborts an entry or starts the exit, and is recorded up to the exit's end. -/
def wakeSource (s : State) (src : Nat) : State :=
  let st := if sleepPhase s = phEnter then s.pw.target else sleepState s
  if !bit (rd s bPower F.POWER_WAKEEN_EN) src ∨ st = 0 ∨ !(wakeStates src).contains st ∨ s.pw.railFault then s
  else
    let s := wr s bPower F.POWER_WAKECAUSE_CAUSE (rd s bPower F.POWER_WAKECAUSE_CAUSE ||| 2 ^ src)
    if sleepPhase s = phEnter then sleepAborted s
    else if sleepPhase s = phSteady ∧ !s.pw.wake then exitStart (inc s bPower F.POWER_WAKES_COUNT)
    else s

/-- POWER_SLEEP written 00: leaves S1, or abandons its entry. -/
def sleepLeave (s : State) : State :=
  if sleepPhase s = phEnter ∧ s.pw.target = 1 then sleepAborted s
  else if sleepState s = 1 ∧ sleepPhase s = phSteady then exitStart s
  else s

/-- A loom takes up the latest complete snapshot it has. -/
def loomFromSnap (s : State) (l : Nat) : State :=
  match snapLatest s l with
  | some i => if rdB s (bLoom l) F.STATE_READY then loomBack s l i.loom i.regs else s
  | none => s

/-- The harts are released at POWER_RESUME. -/
def hartsGo (s : State) : State :=
  send s .apc bApc [2, rdPair s bPower F.POWER_RESUME_LO_ADDR F.POWER_RESUME_HI_ADDR]

/-- The exit from S2: the compute partition comes up with its maps, HBM as it was, and the looms from their images. -/
def exitS2 (s : State) : State :=
  let s := railPins (modPw s (fun p => { p with enCmp := true }))
  let s := arrayReady (wr (showMaps s) bSeam F.SEAM_LINKUP_UP 0xFFFFFF) false
  let s := forEach ((List.range 4).map bHbmc ++ [bMemcrypt]) (fun b s => bootReady s b) s
  let s := forEach (List.range 768) (fun l s => loomFromSnap s l) s
  let s := forEach ([bApc] ++ (List.range 12).map (fun i => bShuttle (48 + i)) ++ [bNetio]) (fun b s => bootReady s b) s
  let s := modBeat s (fun x => { x with n := s.pw.beatN })
  if s.pw.wasStopped then setBeatState s stStopped else s

/-- SLEEP_EXIT_DONE. -/
def sleepExited (s : State) : State :=
  if sleepPhase s ≠ phExit then s
  else
    let st := sleepState s
    if st = 3 ∧ s.boot.active then s
    else
      let s := setSleep s 0 phSteady
      if st = 2 then hartsGo (exitS2 s) else if st = 3 then hartsGo s else s

/-- A stack fails the quick check of an exit from S2 and is trained in full: HBM is wiped (R455, R652). -/
def exitStackFails (s : State) : State :=
  if sleepState s = 2 ∧ sleepPhase s = phExit then { hbmWipeAll s with ll := { s.ll with snaps := [] } } else s

/-- WAKE_SENSE_DEBOUNCE: the pin has been above its threshold for DEB ms. -/
def wakeSense (s : State) : State := wakeSource (wr s bPower F.POWER_STAT_WSABOVE 1) 0

/-- WAKEAT_REACHED. -/
def wakeAt (s : State) : State :=
  let t := rdPair s bPower F.POWER_WAKEAT_LO_LT F.POWER_WAKEAT_HI_LT
  if t ≠ 0 ∧ t ≤ ltAt s bPower then wakeSource s 4 else s

/-- APC_PWRREQ or APC_PWRBUDGET written: the copies into POWER (R647). SLEEP 00 is a wake source (R654). -/
def pwrReq (s : State) (budget : Bool) (v : Word) (wfi : Bool) : State :=
  if budget then
    let w := fldGet F.APC_PWRBUDGET_W v
    wr (wr s bApc F.APC_PWRBUDGET_W w) bPower F.POWER_BUDGET_W w
  else
    let z := fldGet F.APC_PWRREQ_FREEZE v
    let s := modeWrite (wr s bApc F.APC_PWRREQ_FREEZE z) bPower (BitVec.ofNat 32 8) (BitVec.ofNat 32 (8 * z))
    let t := fldGet F.APC_PWRREQ_SLEEP v
    if t = 0 then wakeSource s 5 else sleepRequest s t wfi

/-! ## Protection (R649, R677, R679) -/

/-- A thermal trip: the rails are cut as at the commit point of S3, and Lamplighter hands over. -/
def thermTrip (s : State) : State :=
  if s.pw.tripped then s
  else
    let s := latchFault s bPower 0x0E01
    let s := handover s
    let s := modPw s (fun p => { p with tripped := true, wake := false, beatN := s.beat.n })
    cutAll (setSleep s 3 phSteady)

/-- Throttling begins. -/
def thermHot (s : State) : State :=
  if rdB s bPower F.POWER_STAT_THROTTLE then s
  else
    let s := inc (latchFault (wr s bPower F.POWER_STAT_THROTTLE 1) bPower 0x0E02) bPower F.POWER_THROTTLES_COUNT
    let s := when' (!replayMode s) (fun s => detSet s F.BEAT_DETSTAT_THROTTLE) s
    modPw s (fun p => { p with level := (7, 1), cool := 0 })

/-- THERMAL_SAMPLE: the junction sensors 0 to 51 and the stacks' reports 52 and 53. -/
def thermalSample (s : State) (temps : List Int) : State :=
  match temps with
  | [] => s
  | t0 :: rest =>
    let best := (rest.zipIdx 1).foldl (fun (a : Int × Nat) x => if a.1 < x.1 then x else a) (t0, 0)
    let th := best.1
    let s := wr (wr s bPower F.POWER_TJ_DEGC (toBits 8 (clampI (-128) 127 th))) bPower F.POWER_TJ_SENSOR best.2
    let s := forEach (List.range 4) (fun c s => match temps[52 + c / 2]? with
      | some t => if s.pw.enCmp then wr s (bHbmc c) F.HBMC_TEMP_MAXC (toBits 8 (clampI (-128) 127 t)) else s
      | none => s) s
    let s := if tjmax s + 10 ≤ th then thermTrip s else s
    let s := if tjmax s ≤ th then thermHot s else s
    if s.pw.tripped ∧ th < tjmax s - 20 then
      let s := modPw s (fun p => { p with tripped := false })
      if s.pw.wake then exitStart s else s
    else s

/-- RAIL_FAULT: a rail by its row of R673, or a loom regulator's alert. -/
def railFaulted (s : State) (rail : Nat) : State :=
  let on := if rail < 2 then false else if rail < 5 then s.pw.enIo else if rail < 8 then s.pw.enHbm else s.pw.enCmp
  if !on then s
  else
    let s := wr (latchFault s bPower 0x0E03) bPower F.POWER_LASTREFUSER_BLOCK (0xF00 + rail)
    let s := modPw (handover s) (fun p => { p with railFault := true })
    let s := { s with boot := { s.boot with active := false } }
    let s := cutHbm (cutCompute s)
    railPins (if rail < 5 then cutIo s else s)

/-- XTAL_LOST: LTIME enters holdover, and the entry is counted (R208, R679). -/
def xtalLost (s : State) : State :=
  if s.pw.rc then s
  else
    let s := latchFault (modPw s (fun p => { p with rc := true })) bPower 0x0E04
    let s := when' (!rdB s bLtime F.LTIME_STAT_HOLDOVER) (fun s => inc s bLtime F.LTIME_SRCLOST_COUNT) s
    let s := wr (wr s bLtime F.LTIME_STAT_HOLDOVER 1) bLtime F.LTIME_STAT_LOCKED 0
    handover (send { s with ll := { s.ll with faultN := true } } .pin 0 [1])

/-- POWER_GOOD_TIMEOUT: step 5 of the bring-up fails. -/
def powerGoodTimeout (s : State) (e : StepEnd) : State := bootStep s 5 { e with ok := false }

end Sys2Proof.Machine
end

