-- ==== Sys2Proof/Machine/HostPort.lean ====
section
/-!
DEFINITION. HOSTPORT (R486 to R493): bounce windows, doorbells, the SPDM sessions that Lantern serves, function resets, the link.
-/

namespace Sys2Proof.Machine

/-! ## Windows and doorbells (R487, R489, R490) -/

/-- The device ranges of two slots meet. -/
def windowsMeet (s : State) (i j : Nat) : Bool :=
  let base := fun (k : Nat) => rdI s bHostport F.HOSTPORT_WINDBASE_DBASE k
  let size := fun (k : Nat) => rdI s bHostport F.HOSTPORT_WINSIZE_SIZE k
  base i < base j + size j && base j < base i + size i

/-- EN of slot `i` may be set. -/
def windowOk (s : State) (i : Nat) : Bool :=
  rdI s bHostport F.HOSTPORT_WINDBASE_DBASE i + rdI s bHostport F.HOSTPORT_WINSIZE_SIZE i ≤ 2 ^ 20
    && rdI s bHostport F.HOSTPORT_WINHADDR_LO_HADDR i % 4096 = 0
    && !(List.range 64).any (fun j => j != i && rdI s bHostport F.HOSTPORT_WINCTL_EN j = 1 && windowsMeet s i j)

/-- HOSTPORT_WINCTL.EN written for the slot that the requester's WINSEL names. -/
def windowEnable (s : State) (r : Requester) (en : Bool) : State :=
  let i := winSlot s (tagOf r)
  if !en then wrI s bHostport F.HOSTPORT_WINCTL_EN i 0
  else if windowOk s i then wrI s bHostport F.HOSTPORT_WINCTL_EN i 1
  else txnRefuse (wrI s bHostport F.HOSTPORT_WINSTAT_REFUSED i 1) bHostport

/-- HOSTPORT_DOORBELL written: the vector is raised on the writer's function; a doorbell is also a wake source (R654). -/
def doorbell (s : State) (r : Requester) (v : Nat) : State :=
  let s := match r with
    | .part p => if 1 ≤ v ∧ v ≤ 7 then send s .msix (p.val + 1) [v] else s
    | .device => if 1 ≤ v ∧ v ≤ 31 then send s .msix 0 [v] else s
    | .custody _ | .hart .. => s
  wakeSource s 6

/-! ## SPDM (R491, R492) -/

/-- The session of a function. -/
def spdmSess (s : State) (f : Nat) : SpdmSess := tabGet SpdmSess.reset s.host.sess f
/-- Sets it. -/
def setSpdm (s : State) (f : Nat) (x : SpdmSess) : State :=
  { s with host := { s.host with sess := tabSet SpdmSess.reset s.host.sess f x } }

/-- Lantern answers requests over the DOE mailbox. -/
def spdmUp (s : State) : Bool :=
  rdB s bHostport F.HOSTPORT_LINK_UP && rdB s bCustody F.STATE_READY && !s.ll.lanternGone && lifecycle s != lcScrapped

/-- An answer: the request's place in the list of R491, then its contents. -/
def spdmAnswer (s : State) (f req : Nat) (d : List Byte) : State := send s .spdm f (req :: d.map (·.toNat))
/-- An ERROR answer. -/
def spdmError (s : State) (f : Nat) : State := send s .spdm f [0x7F]

/-- The certificate chain of a slot. -/
def certOf (s : State) (slot : Nat) : List Byte :=
  if s.nv.certs.isEmpty then Config.certChain slot else (s.nv.certs[slot]?).getD []

/-- Both signatures over a message. -/
def bothSign (s : State) (msg : List Byte) : List Byte := selfSign s algEd25519 msg ++ selfSign s algMlDsa msg

/-- Unloads the session-key slot of a function. -/
def sessUnload (s : State) (f : Nat) : State :=
  if f = 0 then s else setSessKey s (f - 1) { sessKey s (f - 1) with loaded := false }

/-- A function's session ends. -/
def spdmEnd (s : State) (f : Nat) : State := sessUnload (setSpdm s f SpdmSess.reset) f

/-- GET_VERSION, GET_CAPABILITIES and NEGOTIATE_ALGORITHMS: SPDM 1.2; what the algorithms are. -/
def spdmVersion (s : State) (f : Nat) : State := if spdmUp s then spdmAnswer s f 0 [0x12] else s
/-- GET_CAPABILITIES. -/
def spdmCaps (s : State) (f : Nat) : State := if spdmUp s then spdmAnswer s f 1 [] else s
/-- NEGOTIATE_ALGORITHMS: SHA-512, secp384r1, AES-256-GCM. -/
def spdmAlgs (s : State) (f : Nat) : State :=
  if spdmUp s then spdmAnswer s f 2 (ascii "SHA-512 secp384r1 AES-256-GCM") else s
/-- GET_DIGESTS: SHA-512 of both chains. -/
def spdmDigests (s : State) (f : Nat) : State :=
  if spdmUp s then spdmAnswer s f 3 (sha512 (certOf s 0) ++ sha512 (certOf s 1)) else s
/-- GET_CERTIFICATE. -/
def spdmCert (s : State) (f slot off len : Nat) : State :=
  if !spdmUp s then s else if 2 ≤ slot then spdmError s f else spdmAnswer s f 4 (((certOf s slot).drop off).take len)
/-- CHALLENGE. -/
def spdmChallenge (s : State) (f slot : Nat) (nonce : List Byte) : State :=
  if !spdmUp s then s else if 2 ≤ slot then spdmError s f
  else spdmAnswer s f 5 (bothSign s (ascii "CHALLENGE" ++ padTo 32 nonce ++ s.cust.digest))
/-- GET_MEASUREMENTS: the report of R564. -/
def spdmMeasure (s : State) (f : Nat) (nonce : List Byte) : State :=
  if !spdmUp s then s
  else
    let body := attestBody s nonce
    spdmAnswer s f 6 (body ++ bothSign s body)

/-- KEY_EXCHANGE: ends the previous session; the new secret comes from a fresh key and the requester's point. -/
def spdmKeyExchange (s : State) (f : Nat) (point : List Byte) : State :=
  if !spdmUp s then s
  else if s.cust.noEntropy then spdmError s f
  else
    let s := spdmEnd s f
    let r := freeBytes s 48
    let own := Config.crypto algEcdh r.1 []
    let s := setSpdm r.2 f ⟨true, false, Config.crypto algEcdh r.1 point, point ++ own, 0⟩
    spdmAnswer s f 7 (own ++ bothSign s (own ++ point))

/-- The info of an expansion in SPDM 1.2's key schedule: length, version, label, context (PRESUMED, log entry 141). -/
def spdmInfo (label : String) (context : List Byte) : List Byte := leBytes 2 64 ++ ascii "spdm1.2 " ++ ascii label ++ context

/-- SPDM 1.2's export master secret, from the shared secret and the transcript up to FINISH (R491; PRESUMED, log entry 141). -/
def exportSecret (secret transcript : List Byte) : List Byte :=
  let zeros := List.replicate 64 0
  let handshake := hmac512 zeros secret
  let master := hmac512 (hkdfExpand handshake (spdmInfo "derived" []) 64) zeros
  hkdfExpand master (spdmInfo "exp master" (sha512 transcript)) 64

/-- The key that a FINISH on a VF loads. -/
def bounceKey (exported : List Byte) (p : Nat) : List Byte := hkdfExpand exported (ascii "GELNAL BOUNCE" ++ [BitVec.ofNat 8 p]) 32

/-- Loads session-key slot `p` (R428). -/
def sessLoad (s : State) (p : Nat) (key : List Byte) : State :=
  setSessKey s p ⟨true, leNat key, ((sessKey s p).gen + 1) % 65536, 1, 0⟩

/-- The number of the FINISH code among the algorithms of Config.verifies. -/
abbrev algFinish : Nat := 7

/-- FINISH: a code that verifies completes the session, and on VF p + 1 loads slot p. -/
def spdmFinish (s : State) (f : Nat) (mac : List Byte) : State :=
  let x := spdmSess s f
  if !spdmUp s then s
  else if !x.pending ∨ !Config.verifies algFinish x.secret [] mac then spdmError s f
  else
    let s := setSpdm s f { x with pending := false, active := true }
    let s := if f = 0 then s else sessLoad s (f - 1) (bounceKey (exportSecret x.secret (x.hist ++ mac)) (f - 1))
    spdmAnswer s f 8 []

/-- A request that needs a session. -/
def spdmInSession (s : State) (f : Nat) (g : State → State) : State :=
  if !spdmUp s then s else if (spdmSess s f).active then g s else spdmError s f

/-- KEY_UPDATE. -/
def spdmUpdate (s : State) (f : Nat) : State :=
  spdmInSession s f (fun s => spdmAnswer (setSpdm s f { spdmSess s f with updates := (spdmSess s f).updates + 1 }) f 9 [])
/-- HEARTBEAT. -/
def spdmHeartbeat (s : State) (f : Nat) : State := spdmInSession s f (fun s => spdmAnswer s f 10 [])
/-- END_SESSION. -/
def spdmEndSession (s : State) (f : Nat) : State := spdmInSession s f (fun s => spdmAnswer (spdmEnd s f) f 11 [])

/-! ## FLR and the link (R492, R493) -/

/-- An FLR of VF p + 1: its session and slot go, the partition's running host-port transfers end, its windows are disabled. -/
def flr (s : State) (p : Nat) : State :=
  let s := spdmEnd s (p + 1)
  let s := forEach [56, 57, 58, 59] (fun k s => match (sh s k).run with
    | some r => if r.tag = p then shAbortRun s k else s
    | none => s) s
  forEach (List.range 64) (fun i s =>
    if rdI s bHostport F.HOSTPORT_WINCTL_PART i = p then wrI s bHostport F.HOSTPORT_WINCTL_EN i 0 else s) s

/-- The link leaves L0 other than by a package reset. -/
def pcieDown (s : State) : State :=
  if !rdB s bHostport F.HOSTPORT_LINK_UP then s
  else
    let s := wr (wr (wr s bHostport F.HOSTPORT_LINK_UP 0) bHostport F.HOSTPORT_LINK_WIDTH 0) bHostport F.HOSTPORT_LINK_SPEED 0
    latchFault (forEach (List.range 17) (fun f s => spdmEnd s f) s) bHostport 0x0801

/-- The link trains to L0. -/
def pcieUp (s : State) (width speed : Nat) : State :=
  if !rdB s bHostport F.STATE_READY then s
  else wr (wr (wr s bHostport F.HOSTPORT_LINK_UP 1) bHostport F.HOSTPORT_LINK_WIDTH width) bHostport F.HOSTPORT_LINK_SPEED speed

end Sys2Proof.Machine
end

