-- ==== Sys2Proof/Machine/NetIo.lean ====
section
/-!
DEFINITION. NETIO (R494 to R497): Ethernet and CAN rings, GPIO. Its DMA goes through the IOMMU (R77).
-/

namespace Sys2Proof.Machine

/-- The index of a ring: RING, DIR (1 receive), CTRL, CAN. -/
def ringIdx (ring ctrl : Nat) (recv can : Bool) : Nat := ring + 8 * recv.toNat + 16 * ctrl + 64 * can.toNat

/-- HEAD of a ring. -/
def ringHead (s : State) (i : Nat) : Nat := rdI s bNetio F.NETIO_RHEAD_HEAD i
/-- The ring holds an entry that software has handed over. -/
def ringHas (s : State) (i : Nat) : Bool :=
  rdB s bNetio F.STATE_READY && rdI s bNetio F.NETIO_RSIZE_ENTRIES i != 0
    && ringHead s i != rdI s bNetio F.NETIO_RTAIL_TAIL i
/-- The address of the entry at HEAD, with entries of `n` bytes. -/
def ringAt (s : State) (i n : Nat) : Nat :=
  rdI s bNetio F.NETIO_RBASE_LO_IOVA i + rdI s bNetio F.NETIO_RBASE_HI_IOVA i * 2 ^ 32 + n * ringHead s i
/-- HEAD moves on. -/
def ringNext (s : State) (i : Nat) : State :=
  let n := rdI s bNetio F.NETIO_RSIZE_ENTRIES i
  wrI (progress s bNetio) bNetio F.NETIO_RHEAD_HEAD i (if n ≤ ringHead s i + 1 then 0 else ringHead s i + 1)

/-- The tag of NETIO's memory accesses. -/
def netTag (s : State) : Nat := rd s bNetio F.OWNER_PART
/-- Reads memory for NETIO; none where the access fails. -/
def netRead (s : State) (a n : Nat) : Option (List Byte) × State := dmaRead s bNetio (netTag s) a n
/-- Writes memory for NETIO. -/
def netWrite (s : State) (a : Nat) (d : List Byte) : Bool × State := dmaWrite s bNetio (netTag s) a d

/-- Ethertype 0x88F7, behind at most one 802.1Q tag: a PTP event frame. -/
def isPtp (d : List Byte) : Bool :=
  let ty := fun (i : Nat) => fieldAt d i 1 * 256 + fieldAt d (i + 1) 1
  ty 12 = 0x88F7 || (ty 12 = 0x8100 && ty 16 = 0x88F7)

/-- The stamp of a frame of MAC `m`: NETIO's copy of LT (R24), with the signed correction of NETIO_ETSASYM, whose direction no rule states
(log entry 82). -/
def ethStamp (s : State) (m : Nat) (transmit : Bool) : Nat × State :=
  let t := ltLagged s
  let c := sext 32 (rdI s bNetio F.NETIO_ETSASYM_NS m)
  (if c = 0 then t.1 else toBits 64 (if Config.asymAdds transmit then (t.1 : Int) + c else (t.1 : Int) - c), t.2)

/-- Flags of a descriptor (R495). -/
abbrev dSop : Nat := 2
abbrev dEop : Nat := 4
abbrev dTsvalid : Nat := 16
abbrev dErr : Nat := 32

/-- Hands a descriptor back: length, flags, stamp. -/
def descBack (s : State) (a len flags : Nat) (stamp : Option Nat) : State :=
  let f := flags + (match stamp with | some _ => dTsvalid | none => 0)
  (netWrite s (a + 8) (leBytes 2 len ++ leBytes 2 f ++ leBytes 4 0 ++ leBytes 8 (stamp.getD 0) ++ leBytes 8 0)).2

/-- Puts a received frame into descriptors from HEAD on; what finds no descriptor is dropped. -/
def ethPut (i : Nat) (err : Bool) (stamp : Option Nat) : Nat → List Byte → Bool → State → State
  | 0, _, _, s => s
  | n + 1, d, first, s =>
    if !ringHas s i then s
    else
      let a := ringAt s i 32
      let r := netRead s a 32
      match r.1 with
      | none => r.2
      | some x =>
        let size := fieldAt x 8 2
        if !bit (fieldAt x 10 2) 0 ∨ size = 0 then r.2
        else
          let part := d.take size
          let rest := d.drop size
          let w := netWrite r.2 (fieldAt x 0 8) part
          let flags := (if first then dSop else 0) + (if rest.isEmpty then dEop else 0)
            + (if (err && rest.isEmpty) || !w.1 then dErr else 0)
          let s := ringNext (descBack w.2 a part.length flags (if first then stamp else none)) i
          if rest.isEmpty then s else ethPut i err stamp n rest false s

/-- ETH_FRAME_RECEIVE: a frame of a length outside R494 counts as an error. -/
def ethReceive (s : State) (m ring : Nat) (d : List Byte) (err : Bool) : State :=
  let i := ringIdx ring m true false
  let bad := err || decide (d.length < 64) || decide (9216 < d.length)
  if d.isEmpty ∨ !ringHas s i then s
  else if isPtp d then
    let t := ethStamp s m false
    ethPut i bad (some t.1) 9217 d true t.2
  else ethPut i bad none 9217 d true s

/-- The descriptors of the frame at HEAD of a transmit ring, each with its address, length, flags and whether its buffer could be read, and the
frame: reads buffers up to EOP. -/
def ethTake (i : Nat) : Nat → State → List (Nat × Nat × Nat × Bool) × List Byte × State
  | 0, s => ([], [], s)
  | n + 1, s =>
    if !ringHas s i then ([], [], s)
    else
      let a := ringAt s i 32
      let r := netRead s a 32
      match r.1 with
      | none => ([], [], r.2)
      | some x =>
        let flags := fieldAt x 10 2
        if !bit flags 0 then ([], [], r.2)
        else
          let b := netRead r.2 (fieldAt x 0 8) (fieldAt x 8 2)
          let s := ringNext b.2 i
          let here := (a, fieldAt x 8 2, flags, b.1.isSome)
          if bit flags 2 then ([here], b.1.getD [], s)
          else
            let q := ethTake i n s
            (here :: q.1, b.1.getD [] ++ q.2.1, q.2.2)

/-- ETH_FRAME_TRANSMITTED: the frame at HEAD has left, and its descriptors are handed back. A frame with a buffer that could not be read does
not leave, and that buffer's descriptor goes back with ERR (log entry 82). -/
def ethSent (s : State) (m ring : Nat) (err : Bool) : State :=
  let i := ringIdx ring m false false
  let q := ethTake i (rdI s bNetio F.NETIO_RSIZE_ENTRIES i) s
  let s := q.2.2
  if q.1.isEmpty then s
  else
    let whole := q.1.all (fun x => x.2.2.2)
    let want := whole && (isPtp q.2.1 || q.1.any (fun x => bit x.2.2.1 3))
    let t := if want then ethStamp s m true else (0, s)
    let s := if whole then send t.2 .eth m (q.2.1.map (·.toNat)) else t.2
    forEach q.1.zipIdx (fun x s =>
      let flags := x.1.2.2.1 % 16 / 2 * 2 + (if (err && whole) || !x.1.2.2.2 then dErr else 0)
      descBack s x.1.1 x.1.2.1 flags (if want ∧ x.2 = 0 then some t.1 else none)) s

/-- CAN_FRAME_RECEIVE. -/
def canReceive (s : State) (m ring idFlags dlc : Nat) (d : List Byte) : State :=
  let i := ringIdx ring m true true
  if !ringHas s i then s
  else
    let t := ltLagged s
    let w := netWrite t.2 (ringAt s i 80) (leBytes 4 idFlags ++ leBytes 4 dlc ++ leBytes 8 t.1 ++ padTo 64 d)
    if w.1 then ringNext w.2 i else w.2

/-- CAN_FRAME_TRANSMITTED. -/
def canSent (s : State) (m ring : Nat) : State :=
  let i := ringIdx ring m false true
  if !ringHas s i then s
  else
    let a := ringAt s i 80
    let r := netRead s a 80
    match r.1 with
    | none => r.2
    | some x =>
      let t := ltLagged (send r.2 .can m ((x.take 8 ++ x.drop 16).map (·.toNat)))
      ringNext (netWrite t.2 (a + 8) (leBytes 8 t.1)).2 i

/-- GPIO_EDGE: the level follows; an edge of the chosen direction sets its event, which asserts the line while it is enabled. -/
def gpioEdge (s : State) (pin : Nat) (rising : Bool) : State :=
  if !powered s bNetio then s
  else
    let f : Fld := ⟨F.NETIO_GPIN_IN.off, pin, pin⟩
    let s := wr s bNetio f rising.toNat
    if bit (rd s bNetio F.NETIO_GPEDGE_RISE) pin = rising then
      let s := wr s bNetio ⟨F.NETIO_GPEVENT_EVENT.off, pin, pin⟩ 1
      if bit (rd s bNetio F.NETIO_GPIRQEN_EN) pin then send s .apc bNetio [1] else s
    else s

end Sys2Proof.Machine
end

