-- ==== Sys2Proof/Machine/View.lean ====
section
/-!
DEFINITION. What a register read shows: the stored bits, with the fields that follow from the rest of the state laid over them, and
what a read does besides (R7, R41, R46, R165, R478, R542).
-/

namespace Sys2Proof.Machine

/-! ## BUSY (R46, R606) -/

/-- The running code of a sequencer waits for another block: LWAIT, RLD, RST, an SHWAIT whose ticket runs, a CSEND without credits. -/
def seqWaits (s : State) (l : Nat) : Bool :=
  let q := seqOf s l
  let w := scrNat s l (seqPc q) 4
  let a := gRead q (bits w 15 11)
  q.wait.isSome
    || (bits w 5 0 == 0x32 && bits w 31 21 == 1 && (match shTicket s l a.toNat with
      | some e => e.code.isNone
      | none => false))
    || (bits w 5 0 == 0x33 && bits w 31 21 == 0 && (match chFind s l a.toNat 0 with
      | some i => !(chEnd s l i).blocked.isEmpty
      | none => false))

/-- A loom has work that it can advance itself (R606). -/
def loomBusy (s : State) (l : Nat) : Bool :=
  let m := loom s l
  let st := seqState m.seq
  m.bOp.isSome || m.tsnap.isSome || !m.bQueue.isEmpty
    || (m.phase == .settle && !(m.hookS && seqWaits s l))
    || (m.phase == .emit && routesReady m)
    || ((st == 2 || st == 3 || st == 4) && !seqWaits s l)

/-- STATE.BUSY. -/
def blockBusy (s : State) (b : Nat) : Bool :=
  match kindOf b with
  | some .loom => loomBusy s (b - 0x100)
  | some .shuttle => (sh s (b - bShuttle 0)).run.isSome || (sh s (b - bShuttle 0)).job.isSome
  | some .custody => rdB s b F.CUSTODY_CSTAT_BUSY
  | some .lamplighter => s.ll.darn.isSome || !s.ll.rungs.isEmpty || s.ll.dump.isSome || s.ll.ckpt.isSome
  | some .fuse => s.boot.active
  | some .power => sleepPhase s != phSteady
  | some .beat => s.beat.isOpen && beatState s != stHeld
  | some .memcrypt => s.mem.rstate.any (fun e => e.2 == 1)
  | some .reed => (s.reeds.any (fun e => e.1 == b - bReed 0 && e.2.i3c.isSome))
  | some .glimmer => (s.glims.any (fun e => e.1 == b - bGlimmer 0 && !e.2.q.isEmpty))
  | some .hub => !(hub s (b - bHub 0)).mapping.isEmpty
  | some .laser => lasState s 0 == lmVerifying || lasState s 1 == lmVerifying
  | _ => false

/-! ## Fields that follow from the state -/

/-- The bits of the low and the high half of a 64-bit value. -/
def halves (lo hi : Fld) (v : Nat) : List (Fld × Nat) := [(lo, v % 2 ^ 32), (hi, v / 2 ^ 32 % 2 ^ 32)]

/-- STATE (R46) and the fields of the header that every block has. -/
def viewHeader (s : State) (b : Nat) : List (Fld × Nat) :=
  [(F.STATE_BUSY, (blockBusy s b).toNat),
   (F.STATE_FAULT, rd s b F.FAULTCAUSE_VALID),
   (F.STATE_MODE, if liveExpert s b then 1 else if rdB s b F.CONTROL_FREEZE then 2 else 0),
   (F.STATE_TXOPEN, (decide (rd s b F.TXN_TSTATE ≠ tsIdle)).toNat),
   (F.STATE_MODEPEND, (modePend s b).toNat)]

/-- CUSTODY. -/
def viewCustody (s : State) : List (Fld × Nat) :=
  [(F.CUSTODY_LC_LC, lifecycle s), (F.CUSTODY_LC_WIPEPEND, s.nv.wipepend.toNat),
   (F.CUSTODY_MEAS_COUNT, s.cust.meas.length), (F.CUSTODY_OWNERSET_SET, (fuse s 0x015).toNat % 2),
   (F.CUSTODY_SVN_SVN0, fusedSvn s 1), (F.CUSTODY_SVN_SVN1, fusedSvn s 2),
   (F.CUSTODY_SVN_SVN2, fusedSvn s 3), (F.CUSTODY_SVN_SVN3, fusedSvn s 4)]

/-- The words of an event entry (R631). -/
def evWords (e : EvEntry) : List Nat :=
  [e.lt % 2 ^ 32, e.lt / 2 ^ 32, e.beat % 2 ^ 32, e.beat / 2 ^ 32,
   e.block % 65536 + e.kind % 256 * 65536 + e.flags % 256 * 2 ^ 24, e.cause % 2 ^ 32, e.value % 2 ^ 32, e.value / 2 ^ 32 % 2 ^ 32]

/-- LAMPLIGHTER; the event window shows to each requester the entry that it selected. -/
def viewLl (s : State) (tag : Nat) : List (Fld × Nat) :=
  let st := if s.ll.absent then 4 else if s.ll.lost then 5 else if s.ll.darn.isSome then 2 else if !s.ll.rungs.isEmpty then 3
    else rd s bLamplighter F.STATE_READY
  let ev := match (s.ll.window ++ s.ll.log)[rdI s bLamplighter F.LL_EVSEL_INDEX tag]? with
    | some e => evWords e
    | none => []
  let valid := fun (i : Nat) => match tabGet none s.nv.ckpt i with | some c => c.valid | none => false
  [(F.LL_STAT_STATE, st), (F.LL_STAT_FAULTN, s.ll.faultN.toNat), (F.LL_CKPTCTL_BUSY, s.ll.ckpt.isSome.toNat),
   (F.LL_CKPTCTL_VALID, (valid 0).toNat + 2 * (valid 1).toNat), (F.LL_DUMPSTAT_BUSY, s.ll.dump.isSome.toNat)]
    ++ (List.range 8).map (fun i => (fAt F.LL_EVDATA_ENTRY i, (ev[i]?).getD 0))

/-- FUSE: the shadows by the requester's selection, without the UDS (R583). -/
def viewFuse (s : State) (tag : Nat) : List (Fld × Nat) :=
  let i := rdI s bFuse F.FUSE_SEL_INDEX tag
  let e := tabGet 0 s.nv.fuseErr i
  [(F.FUSE_DATA_DATA, if 4 ≤ i ∧ i ≤ 0xB then 0 else (fuse s i).toNat),
   (F.FUSE_WSTAT_CE, (decide (e = 1)).toNat), (F.FUSE_WSTAT_UE, (decide (e = 2)).toNat)]
    ++ (match trecBest s with
      | some (k, c) => [(F.FUSE_TREC_COPY, k), (F.FUSE_TREC_VALID, 1), (F.FUSE_TREC_WARMCOUNT, c.warm)]
      | none => [])

/-- A slot's state code (R65). -/
def slotCode : SlotState → Nat
  | .free => 0 | .building => 1 | .armed => 2 | .preparing => 3 | .committed => 4 | .rolledBack => 5 | .partly => 6

/-- BEAT, with the group registers of the selected slot and member. -/
def viewBeat (s : State) : List (Fld × Nat) :=
  let g := slot s (rd s bBeat F.BEAT_TGSEL_SLOT)
  [(F.BEAT_TGCTL_COUNT, g.count), (F.BEAT_TGBEATLO_BEAT, g.beat % 2 ^ 32), (F.BEAT_TGBEATHI_BEAT, g.beat / 2 ^ 32),
   (F.BEAT_TGMID_BLOCK, tabGet 0 g.members (rd s bBeat F.BEAT_TGMIDX_INDEX)),
   (F.BEAT_TGSTAT_STATE, slotCode g.state), (F.BEAT_TGSTAT_CODE, g.code), (F.BEAT_TGSTAT_BLOCK, g.block),
   (F.BEAT_TGLINK_HEAD, g.head), (F.BEAT_TGLINK_LINKED, g.linked.toNat), (F.BEAT_TGLINK_NLINK, g.nlink),
   (F.BEAT_LAG_NS, beatLag s), (F.BEAT_LAGPEAK_COUNT, lagPeak s), (F.BEAT_JOB_SELF, selfPkg s),
   (F.BEAT_DETSTAT_DCLASS, fusedDclass s)]
    ++ halves F.BEAT_NUM_LO_N F.BEAT_NUM_HI_N s.beat.n

/-- NESTAT.PHASE codes (R114). -/
def phaseNo : LPhase → Nat
  | .idle => 0 | .opening => 1 | .integrate => 2 | .close => 3 | .settle => 4 | .emit => 5

/-- LOOM. BALANCED reads its reset value until the first OPEN has latched streams to account for (R206). -/
def viewLoom (s : State) (l : Nat) : List (Fld × Nat) :=
  let m := loom s l
  let q := m.seq
  let i := rd s (bLoom l) F.LOOM_CHSEL_INDEX
  let e := chEnd s l i
  let used := rdI s (bLoom l) F.LOOM_CHDATA0_VALID i = 1
  let drain := m.drains.foldl (fun a d => a + 2 ^ d.1) 0
  [(F.LOOM_NESTAT_PHASE, phaseNo m.phase), (F.LOOM_NESTAT_BEAT, m.beat % 65536),
   (F.LOOM_NISTAT_BALANCED, ((m.phase != .idle || m.ret.epoch.isSome) && balanced m).toNat), (F.LOOM_NISTAT_UNCLOSED, unclosed m),
   (F.LOOM_SEQSTAT_STATE, seqState q), (F.LOOM_SEQSTAT_ACT, seqAct q),
   (F.LOOM_SEQSTAT_HANDLER, match q.act with | some a => (if a.ctx = 4 then a.g5 else 0) | none => 0),
   (F.LOOM_SEQSTAT_FREERUN, q.freerun.toNat), (F.LOOM_SEQSTAT_PENDING, q.queue.length),
   (F.LOOM_SEQPC_PC, seqPc q / 4), (F.LOOM_BANKSTAT_DRAINING, drain),
   (F.LOOM_NIPOS_SITE, loomSite s l), (F.LOOM_NIPOS_ROW, l / 32), (F.LOOM_NIPOS_HALF, l % 32 / 16),
   (F.LOOM_CHSTAT_STATE, if !used then 0 else if e.closed then 2 else 1), (F.LOOM_CHSTAT_UNACKED, e.kept.length),
   (F.LOOM_CHMSGS_COUNT, e.msgs), (F.LOOM_CHSTALL_COUNT, e.stall), (F.LOOM_CHORPH_COUNT, e.orph)]

/-- The fields of a block's page that follow from the rest of the state, as requester tag `tag` sees them. -/
def viewFields (s : State) (tag b : Nat) : List (Fld × Nat) :=
  viewHeader s b ++ match kindOf b with
  | some .custody => viewCustody s
  | some .lamplighter => viewLl s tag
  | some .fuse => viewFuse s tag
  | some .beat => viewBeat s
  | some .ltime => halves F.LTIME_NOW_LO_LT F.LTIME_NOW_HI_LT (ltLagged s).1
  | some .timer => (F.TIMER_IMMED_IMMED, if liveExpert s b then rd s b F.TIMER_IMMED_IMMED else 0)
    :: (List.range 24).flatMap (fun c => halves (tf F.TIMER_CAPLT_LO_LT c) (tf F.TIMER_CAPLT_HI_LT c) (timCapLt s tag c))
  | some .memcrypt => [(F.MC_REGSTAT_STATE, tabGet 0 s.mem.rstate (rd s b F.MC_REGSEL_INDEX)),
      (F.MC_KEYGEN_GEN, tabGet 0 s.mem.keygen (rd s b F.MC_KEYSEL_INDEX))]
  | some .shuttle => [(F.SH_STAT_QDEPTH, (sh s (b - bShuttle 0)).queue.length)]
  | some .glimmer => if b = bGlimmer 0 then [(F.GLIM_JOB_SELF, selfPkg s)] else []
  | some .hostport => [(F.HOSTPORT_SESSION_ACTIVE,
      (List.range 17).foldl (fun a f => a + (spdmSess s f).active.toNat * 2 ^ f) 0)]
  | some .apc => halves F.APC_CHPOLL_LO_ADDR F.APC_CHPOLL_HI_ADDR (apcPoll s (apcSel s))
  | some .hub =>
    let h := b - bHub 0
    halves F.HUB_LAMPVAL_LO_VALUE F.HUB_LAMPVAL_HI_VALUE (lampVal s h (rd s b F.HUB_LAMPSEL_INDEX))
  | some .partition => (List.range 16).map (fun p => (fAt F.PART_LOOMS_COUNT p,
      ((List.range 768).filter (fun l => rd s (bLoom l) F.OWNER_PART = p)).length))
  | some .loom => viewLoom s (b - 0x100)
  | _ => []

/-- The write-only bits of a register, which read 0 (R7). -/
def writeOnly (b off : Nat) : Word :=
  match kindOf b with
  | some k => maskWhere k off (fun row => row.acc == .wo)
  | none => 0

/-- The value that a read through the main page or an alias shows. -/
def viewWord (s : State) (r : Requester) (b off : Nat) : Word :=
  ((viewFields s (tagOf r) b).filter (fun x => x.1.off = off)).foldl (fun w x => fldSet x.1 w x.2)
    (regGet s b off (selIndex s r b off) &&& ~~~writeOnly b off)

/-- The value of a read through the shadow view: what is staged, or latched, over what the main page shows. -/
def viewShadow (s : State) (r : Requester) (b off : Nat) : Word :=
  let idx := selIndex s r b off
  let w := shadowWord s b off idx &&& ~~~writeOnly b off
  ((viewFields s (tagOf r) b).filter (fun x => x.1.off = off && !(x.1 == F.TIMER_IMMED_IMMED && stagedExpert s b))).foldl
    (fun w x => fldSet x.1 w x.2) w

/-! ## What a read does (R7, R165, R478, R542) -/

/-- The LO halves whose read latches HI: HI's offset. -/
def latchHi (b off : Nat) : Option Nat :=
  match kindOf b, off with
  | some .ltime, 0x040 => some 0x044
  | some .beat, 0x054 => some 0x058
  | some .beat, 0x0EC => some 0x0F0
  | some .lamplighter, 0x0D4 => some 0x0D8
  | some .hbmc, 0x04C => some 0x050
  | some .hub, 0x0C4 => some 0x0C8
  | some .loom, 0x1C0 => some 0x1C4
  | some .loom, 0x230 => some 0x234
  | _, _ => none

/-- The key of a latched HI half. -/
def hiKey (b off tag : Nat) : Nat := regKey b off 0 * 32 + tag

/-- Counters of clock cycles, which this model does not count (R304, R320, R324, R348, R404, R440, R612, R614), and of events that no
command brings (R434): they grow by a free amount up to each read (log entry 72). -/
def freeCount (b off : Nat) : Bool :=
  match kindOf b with
  | some .loom => [0x2D8, 0x91C, 0x930, 0x934, 0x938, 0x93C, 0x940, 0x944, 0x958, 0x974, 0x9B0, 0x9B4].contains off
  | some .hbmc => [0x828, 0x82C, 0x840].contains off
  | _ => false

/-- A counter of `freeCount` as it stands at a read: what it held at the last one, grown by a free amount. -/
def freeGrow (s : State) (b off : Nat) (w : Word) : Word × State :=
  let f := drawFree s
  let w := w + BitVec.ofNat 32 f.1
  let i := rd s b F.LOOM_CHSEL_INDEX
  if kindOf b = some .loom ∧ off = F.LOOM_CHSTALL_COUNT.off then
    (w, setCh f.2 (b - bLoom 0) i { chEnd s (b - bLoom 0) i with stall := w.toNat })
  else (w, regSet f.2 b off 0 w)

/-- A read of LT has drawn its lag (R24). -/
def lagDraw (b : Nat) (s : State) : State := if b = bLtime then (ltLagged s).2 else s

/-- Effects of a read through any view, with the value that it returns in place of `w`: a LO half latches its HI half for the
requester, whose next read of HI returns it; a read of the I3C FIFO takes its oldest byte; TIMER_CAP latches CAPLT and clears
CAPFRESH. -/
def readEffect (s : State) (r : Requester) (b off : Nat) (w : Word) : Word × State :=
  let tag := tagOf r
  match latchHi b off with
  | some h => (w, lagDraw b { s with hiLatch := tabSet 0 s.hiLatch (hiKey b h tag) ((viewWord s r b h).toNat + 1) })
  | none => match tabGet 0 s.hiLatch (hiKey b off tag) with
    | v + 1 => (BitVec.ofNat 32 v, { s with hiLatch := tabSet 0 s.hiLatch (hiKey b off tag) 0 })
    | 0 =>
      if freeCount b off then freeGrow s b off w
      else match kindOf b with
      | some .ltime => (w, if off = F.LTIME_NOW_HI_LT.off then lagDraw b s else s)
      | some .timer =>
        let c := (off - 0x40) / 32
        if c < 24 ∧ off = (tf F.TIMER_CAP_CAP c).off then timCapRead s tag c else (w, s)
      | some .reed => if off = F.REED_I3CDATA_DATA.off then (BitVec.ofNat 32 (i3cPeek s (b - bReed 0)), i3cPop s (b - bReed 0)) else (w, s)
      | _ => (w, s)

/-- A read through the main page: RC fields clear (R7). -/
def readMain (s : State) (r : Requester) (b off : Nat) : Word × State :=
  let p := readEffect s r b off (viewWord s r b off)
  match kindOf b with
  | none => (0, s)
  | some k =>
    let m := maskWhere k off (fun row => row.acc == .rc)
    if m = 0 then p
    else (p.1, regSet p.2 b off 0 (regGet p.2 b off 0 &&& ~~~m))

/-- A read through an alias (R41). -/
def readAlias (s : State) (r : Requester) (b off : Nat) : Word × State := readEffect s r b off (viewWord s r b off)

/-- A read through the shadow view (R41). -/
def readShadow (s : State) (r : Requester) (b off : Nat) : Word × State := readEffect s r b off (viewShadow s r b off)

end Sys2Proof.Machine
end

