-- ==== Sys2Proof/Machine/Darn.lean ====
section
/-!
DEFINITION. Dumps and darning (R607, R616 to R623, R629, R630).
-/

namespace Sys2Proof.Machine

/-! ## Dumps (R629, R630) -/

/-- Event kinds (R631). -/
abbrev evFault : Nat := 1
abbrev evDarn : Nat := 3
abbrev evRung : Nat := 4
abbrev evDump : Nat := 5
abbrev evWarning : Nat := 8
abbrev evHeartbeat : Nat := 9
abbrev evCkpt : Nat := 10

/-- Where the dump's data starts in the SRAM, and the bytes that it holds. -/
abbrev dumpData : Nat := 0x2410
abbrev dumpRoom : Nat := 56304

/-- The hub of a block: of its row-half, or of its own number; blocks elsewhere have none. -/
def hubOf (b : Nat) : Option Nat :=
  match kindOf b with
  | some .loom => some (bHub (loomHub (b - 0x100)))
  | some .shuttle =>
    let k := b - bShuttle 0
    if k < 48 then some (bHub (k / 6 + 8 * (k % 2))) else none
  | some .hub => some b
  | _ => none

/-- Writes a byte of the dump SRAM. -/
def dumpPut (s : State) (a : Nat) (v : Byte) : State :=
  modLl s (fun x => { x with dumpRam := tabSet 0 x.dumpRam a v })

/-- The bytes of HBM that a dump may use: LL_DUMPSIZE pages at LL_DUMPBASE. -/
def dumpHbm (s : State) (off : Nat) (d : List Byte) : State :=
  if off + d.length ≤ rd s bLamplighter F.LL_DUMPSIZE_PAGES * 4096 then
    (hbmWriteRun s bLamplighter 0x1E (rdPair s bLamplighter F.LL_DUMPBASE_LO_ADDR F.LL_DUMPBASE_HI_ADDR + off) d).2.2
  else s

/-- Writes the header or the manifest of a dump at an SRAM offset; a dump that goes to HBM only has them at the same distance from
its base (log entry 48). -/
def dumpHead (s : State) (d : DumpSt) (off : Nat) (bs : List Byte) : State :=
  if d.hbmOnly then dumpHbm s (off - 0x2000) bs
  else (bs.foldl (fun (p : Nat × State) v => (p.1 + 1, dumpPut p.2 p.1 v)) (off, s)).2

/-- Bytes of data that a dump can still take. -/
def dumpLeft (s : State) (d : DumpSt) : Nat :=
  let more := rd s bLamplighter F.LL_DUMPSIZE_PAGES * 4096
  if d.hbmOnly then more - 0x410 - d.pos else dumpRoom + more - d.pos

/-- Writes data of a dump: into the SRAM while it has room, then into HBM. -/
def dumpPutData (s : State) (d : DumpSt) (bs : List Byte) : State :=
  if d.hbmOnly then dumpHbm s (0x410 + d.pos) bs
  else
    let n := dumpRoom - d.pos
    let s := (List.range (min n bs.length)).foldl (fun (s : State) i => dumpPut s (dumpData + d.pos + i) ((bs[i]?).getD 0)) s
    if n < bs.length then dumpHbm s (d.pos + n - dumpRoom) (bs.drop n) else s

/-- The event window: the newest 256 entries. -/
def evWindow (s : State) : List Byte :=
  padTo 8192 (((s.ll.window ++ s.ll.log).take 256).flatMap (fun e => leWords 4 (evWords e)))

/-- A byte of the dump SRAM as the warden port reads it. -/
def dumpByte (s : State) (a : Nat) : Byte := if a < 0x2000 then ((evWindow s)[a]?).getD 0 else tabGet 0 s.ll.dumpRam a

/-- A dump starts for the block of a fault; nothing while one is being collected or the core is absent. -/
def dumpStart (s : State) (b cause : Nat) (stores : Option Nat) : State :=
  if s.ll.dump.isSome ∨ s.ll.absent ∨ !rdB s bLamplighter F.STATE_READY then s
  else
    let lock := rdB s bLamplighter F.LL_DUMPSTAT_LOCK
    let pages := (b :: (hubOf b).toList ++ [bBeat, bLamplighter] ++ s.ll.tickFaults).eraseDups
    let d : DumpSt := ⟨pages, 0, lock, 0, 0, 0, stores⟩
    let s := if lock then inc s bLamplighter F.LL_DUMPSKIP_COUNT
      else modLl s (fun x => { x with dumpRam := tabClear x.dumpRam 0x2000 0x10000 })
    let s := wr s bLamplighter F.LL_DUMPSTAT_ENTRIES 0
    let s := dumpHead s d 0x2000 (leBytes 4 s.ll.dumpSeq ++ leBytes 4 cause ++ leBytes 8 (ltAt s bLamplighter))
    modLl s (fun x => { x with dump := some d, dumpSeq := x.dumpSeq + 1 })

/-- The dump ends: the stores of a darned loom follow in HBM, then the dump is counted and logged. -/
def dumpEnd (s : State) (d : DumpSt) : State :=
  let s := match d.stores with
    | some l =>
      let m := loom s l
      let d := { d with pos := max d.pos (if d.hbmOnly then 0 else dumpRoom) }
      let bs := (tabGetRun 0 m.nstore 0 0x80000 ++ tabGetRun 0 m.sstore 0 0x80000 ++ tabGetRun 0 m.scratch 0 0x80000).take
        (dumpLeft s d)
      if bs.isEmpty then s else dumpPutData s d bs
    | none => s
  let s := modLl s (fun x => { x with dump := none })
  logEvent (inc s bLamplighter F.LL_DUMPS_COUNT) bLamplighter evDump 0 0 d.entries

/-- The page being read ends with a status: its manifest entry is written, the next page follows. -/
def dumpPage (s : State) (d : DumpSt) (status a : Nat) : State :=
  match d.pages with
  | [] => dumpEnd s d
  | b :: rest =>
    let e := leBytes 2 b ++ leBytes 2 0 ++ leBytes 1 status ++ leBytes 3 (d.pos - d.start) ++ leBytes 8 a
    let s := if d.entries < 64 then
        wr (dumpHead s d (0x2010 + 16 * d.entries) e) bLamplighter F.LL_DUMPSTAT_ENTRIES (d.entries + 1)
      else s
    let d := { d with pages := rest, off := 0, start := d.pos, entries := min 64 (d.entries + 1) }
    if rest.isEmpty then dumpEnd s d else modLl s (fun x => { x with dump := some d })

/-- The physical address of a register. -/
def frameAddr (b off : Nat) : Nat := 0x4000000000 + b * 0x10000 + off

/-- DUMP_READ_RESPONSE: the next word of the page being read. -/
def dumpRead (s : State) : State :=
  match s.ll.dump with
  | none => s
  | some d =>
    match d.pages with
    | [] => dumpEnd s d
    | b :: _ =>
      let p := if gateError s b d.off false then (0, s) else readMain s (.custody .lamplighter) b d.off
      let bs := (leBytes 4 p.1.toNat).take (dumpLeft p.2 d)
      let s := dumpPutData p.2 d bs
      let d := { d with pos := d.pos + bs.length, off := d.off + 4 }
      if bs.length < 4 then dumpPage s d 2 (frameAddr b 0)
      else if d.off = 4096 then dumpPage s d 0 (frameAddr b 0)
      else modLl s (fun x => { x with dump := some d })

/-- DUMP_READ_TIMEOUT: the page is UNREACHABLE. -/
def dumpTimeout (s : State) : State :=
  match s.ll.dump with
  | none => s
  | some d => match d.pages with
    | [] => s
    | b :: _ => dumpPage (inc s bLamplighter F.LL_UNREACH_COUNT) d 1 (frameAddr b d.off)

/-! ## The darning bound (R621, R622) -/

/-- Log words of loom state `m` in one beat, at most, over its last `k` beats. -/
def logMost (m : Loom) (k : Nat) : Nat :=
  let beats := (m.logBeats.map (·.2)).take k
  ((beats.zip ((m.logPos + m.logBuf.length) :: beats)).map (fun p => p.2 - p.1)).foldl max 0

/-- The loom clock of a level in MHz (R643). -/
def loomMhz (p : Nat) : Nat := ([800, 720, 640, 560, 480, 400, 300, 200][p]?).getD 800

/-- D of a loom in tenths of a nanosecond, for a SNAP_BEATS of `sb`; U is the neuron update time (log entry 49). -/
def darnBoundOf (s : State) (l : Nat) (m : Loom) (sb : Nat) : Nat :=
  let u := (rd s (bLoom l) F.LOOM_NSLOTS_NSLOTS + 3) / 4 + 12
  let tenths := 1500000 + sb * (logMost m (2 * sb) * 8 + u * 25 / 2)
  tenths * 80 / loomMhz s.pw.level.1

/-- D of loom `l`. -/
def darnBound (s : State) (l sb : Nat) : Nat := darnBoundOf s l (loom s l) sb

/-- The worst loom and its D. -/
def darnWorst (s : State) (sb : Nat) : Nat × Nat :=
  (List.range 768).foldl (fun a l => let d := darnBound s l sb; if a.2 < d then (l, d) else a) (0, 0)

/-! ## The stand-in (R619) -/

/-- Hub, row-half index within the hub and row-half number of a loom. -/
def loomRow (l : Nat) : Nat × Nat × Nat :=
  let h := loomHub l
  let i := l / 32 % 3
  (h, i, halfIndex h i)

/-- A site of a row-half that could stand in: not fused bad, not soft-bad, not isolated. -/
def siteSound (s : State) (h i k site : Nat) : Bool :=
  fusedBad s k != some site && !s.ll.soft.contains (k * 32 + site) && !bit (rdI s (bHub h) F.HUB_ROWISO_ISO i) site

/-- The loom marked in LL_RESERVE. -/
def reserveMarked (s : State) (l : Nat) : Bool := bit (rd s bLamplighter (fAt F.LL_RESERVE_MASK (l / 32))) (l % 32)

/-- A reserve loom that R619 allows for loom `l`. -/
def reserveFits (s : State) (l x : Nat) : Bool :=
  let b := bLoom x
  x != l && loomRow x == loomRow l && reserveMarked s x && rdB s b F.STATE_READY && !rdB s b F.CONTROL_ENABLE
    && seqState (loom s x).seq == 0 && rd s b F.OWNER_PART == rd s (bLoom l) F.OWNER_PART

/-- The map of a loom's row-half. -/
def rowMapOf (s : State) (h i : Nat) : List Nat := ((hub s h).map.drop (16 * i)).take 16

/-- The stand-in site, with the reserve loom it displaces. -/
def standIn (s : State) (l : Nat) : Option (Nat × Option Nat) :=
  let r := loomRow l
  let map := rowMapOf s r.1 r.2.1
  let at' := fun (site : Nat) => (site, (loomAt s r.1 r.2.1 site))
  if liveExpert s bLamplighter then
    let site := bits (rd s bLamplighter (fAt F.LL_STANDIN_SITE (r.2.2 / 6))) (5 * (r.2.2 % 6) + 4) (5 * (r.2.2 % 6))
    if site ≤ 16 ∧ siteSound s r.1 r.2.1 r.2.2 site ∧ map.getD (l % 16) 0x1F ≠ site then some (at' site) else none
  else
    let cls := rd s bLamplighter F.LL_POLICY_DARNCLASS
    let spare := (List.range 17).find? (fun x => !map.contains x && siteSound s r.1 r.2.1 r.2.2 x)
    let resv := ((List.range 768).find? (fun x => reserveFits s l x)).map (fun x => (loomSite s x, some x))
    if cls = 1 then spare.map (fun x => (x, none))
    else if cls = 2 then (match spare with
      | some x => some (x, none)
      | none => resv)
    else none

/-- The choice of a stand-in as a policy decision: applied at once, shown in LL_STANDIN, counted and logged (R26, R619). -/
def standInNote (s : State) (l site : Nat) : State :=
  if liveExpert s bLamplighter ∨ rdB s bLamplighter F.CONTROL_FREEZE then s
  else
    let k := (loomRow l).2.2
    let f := fAt F.LL_STANDIN_SITE (k / 6)
    let s := wr s bLamplighter f (setBits (rd s bLamplighter f) (5 * (k % 6) + 4) (5 * (k % 6)) site)
    logEvent (inc s bLamplighter F.DECISIONS_COUNT) bLamplighter evDecision efApplied f.off site

/-! ## Darning (R616, R617, R620) -/

/-- Isolates the site of a loom. -/
def isolate (s : State) (l : Nat) : State :=
  let r := loomRow l
  let site := loomSite s l
  let old := rdI s (bHub r.1) F.HUB_ROWISO_ISO r.2.1
  if site ≤ 16 ∧ !bit old site then rowIso s r.1 r.2.1 (setBits old site site 1) else s

/-- Drops the watches of a loom at every hub (R398). -/
def watchesDrop (s : State) (l : Nat) : State :=
  { s with hubs := s.hubs.foldl (fun t e => tabSet Hub.reset t e.1
      { e.2 with watches := e.2.watches.filter (fun w => w.who / 2 != l || 1536 ≤ w.who) }) [] }

/-- What LL_LASTDARN shows of an ended darning. -/
def lastDarn (s : State) (l site reserve result ns : Nat) : State :=
  let s := wr (wr s bLamplighter F.LL_LASTDARN_LOOM l) bLamplighter F.LL_LASTDARN_SITE site
  let s := wr (wr s bLamplighter F.LL_LASTDARN_RESERVE reserve) bLamplighter F.LL_LASTDARN_RESULT result
  wr s bLamplighter F.LL_LASTDARNNS_NS ns

/-- Darning of a loom fails: the hold stays, and Lamplighter hands over. -/
def darnFail (s : State) (l site reserve cause start : Nat) : State :=
  let s := modLl (latchFault s bLamplighter 0x0D01) (fun x => { x with darn := none })
  let s := lastDarn (inc s bLamplighter F.LL_DARNFAIL_COUNT) l site reserve 1 (ltNow s - start)
  handover (logEvent s (bLoom l) evDarn 0 cause (ltNow s - start))

/-- The reserve loom whose site is taken leaves the row map. -/
def displace (s : State) (x : Nat) : State :=
  wr { s with looms := tabSet Loom.reset s.looms x Loom.reset } (bLoom x) F.STATE_READY 0

/-- Steps 1 to 4 of the darning of loom `l`, from its judgement. -/
def darnStart (s : State) (l cause : Nat) : State :=
  let kept := loom s l
  let bad := loomSite s l
  let s := holdWrite (watchesDrop (isolate s l) l) true
  match snapLatest s l, standIn s l with
  | some img, some (site, resv) =>
    if !logOn s then darnFail s l site resv.isSome.toNat cause (ltNow s)
    else
      let r := loomRow l
      let map := listSet (rowMapOf s r.1 r.2.1) (l % 16) site
      let map := match resv with | some x => listSet map (x % 16) 0x1F | none => map
      let s := match resv with | some x => displace s x | none => s
      let s := rowGo (showMap (standInNote s l site) r.1 r.2.1 map) r.1 r.2.1
      if !(hub s r.1).mapping.contains r.2.1 then darnFail s l site resv.isSome.toNat cause (ltNow s)
      else modLl (setLoom s l Loom.reset) (fun x => { x with darn := some ⟨l, bad, site, resv, ltNow s, cause, img, kept, false⟩ })
  | _, x => darnFail s l (match x with | some p => p.1 | none => 0x1F) 0 cause (ltNow s)

/-- The next loom that waits to be darned. -/
def darnNext (s : State) : State :=
  if s.ll.darn.isSome ∨ s.ll.absent then s
  else match s.ll.heldLooms with
    | [] => s
    | (l, c) :: rest => darnStart (modLl s (fun x => { x with heldLooms := rest })) l c

/-- A loom of class LOOMFAIL (R616, R632): darned, or held while another is being darned (log entry 50) or the core is absent. A
stand-in that fails is isolated, and its darning fails. -/
def loomFails (s : State) (l cause : Nat) : State :=
  let wait := fun (s : State) =>
    if s.ll.heldLooms.any (fun y => y.1 = l) then s else modLl s (fun x => { x with heldLooms := x.heldLooms ++ [(l, cause)] })
  if s.ll.absent then wait (handover (holdWrite s true))
  else match s.ll.darn with
    | none => darnStart s l cause
    | some d => if d.loom = l then
        darnNext (darnFail (isolate s l) l d.site d.reserve.isSome.toNat d.cause d.start)
      else wait s

/-- DARN_LOAD_DONE: the image is in the stand-in, or a read of it has failed; not before the last router has taken the map. -/
def darnLoaded (s : State) (l : Nat) (ok : Bool) : State :=
  match s.ll.darn with
  | none => s
  | some d =>
    let r := loomRow l
    if d.loom ≠ l ∨ d.loaded ∨ (hub s r.1).mapping.contains r.2.1 then s
    else if !ok then darnNext (darnFail s l d.site d.reserve.isSome.toNat d.cause d.start)
    else setLoom (modLl s (fun x => { x with darn := some { d with loaded := true } })) l d.image.loom

/-- A loom as replay leaves it: what it was (R618), without errors; a blocked lamp wait is issued again. -/
def loomReplayed (m : Loom) : Loom :=
  let again := fun (w : Option Wait) => match w with
    | some (.lamp _ _ _) => none
    | w => w
  { m with nErr1 := [], nErr2 := [], sErr1 := [], sErr2 := [], xErr1 := [], xErr2 := [], bankCe := [], moving := [], testing := false, netHeld := []
           scratch := m.netHeld.foldl (fun t w => memPut t w.1 w.2.1 w.2.2) m.scratch
           seq := { m.seq with wait := again m.seq.wait, mwait := again m.seq.mwait, ibuf := [] } }

/-- Every stream of `keys` is taken afresh in epoch `ep`: its COUNT is asked for, which is the first attempt (R185), and taken whatever it is (R197). -/
def streamsAnew (l ep : Nat) (keys : List Nat) (s : State) : State :=
  forEach keys (fun k s => sendRepick (streamKeep s l k { StreamSt.fresh ep with any := true, tries0 := 1, asked0 := ltNow s }) l k ep 0 0) s

/-- Step 7 as a destination (R197, R616): the picks of the epoch that has not closed at the loom are taken afresh, before CLOSE those of the
beat in progress with all work of the beat, after it those that have come early for the next one. -/
def darnCatchUp (s : State) (l : Nat) : State :=
  let m := loom s l
  if m.phase = .opening ∨ m.phase = .integrate ∨ m.phase = .close then
    let s := retryClear (hookAbandon s l) l m.round []
    let s := wr s (bLoom l) F.LOOM_NISTAT_RETRY (decide (m.round ≠ 0)).toNat
    let s := if m.phase = .opening then modLoom s l (fun m => { m with phase := .opening }) else hookTrigger s l 1 m.beat
    streamsAnew l (m.beat - 1) m.latKeys s
  else
    let s := modLoom s l (fun m => { m with
      dq := m.dq.map (dqForget m.beat), dqWaits := m.dqWaits.filter (fun x => x.mark.epoch != some m.beat) })
    streamsAnew l m.beat ((m.streams.filter (fun e => e.2.ep ≤ m.beat)).map (·.1)) (dqRecount s l)

/-- The banks of the stand-in's site as its fuses assign them (R311, R329). -/
def banksAnew (s : State) (l : Nat) : State :=
  let b := bLoom l
  let s := wr (wr s b F.LOOM_BANKSTAT_SPAREUSED 0) b F.LOOM_BANKSTAT_SPAREBANK 0
  bankAssign (wr (wr s b F.LOOM_BANKSTAT_SPAREYIELD 0) b F.LOOM_BANKSTAT_SPAREBAD 0) l

/-- DARN_REPLAY_DONE: steps 6 to 8, or a failure of the log's reads. -/
def darnReplayed (s : State) (l : Nat) (ok : Bool) : State :=
  match s.ll.darn with
  | none => s
  | some d =>
    if d.loom ≠ l ∨ !d.loaded then s
    else if !ok then darnNext (darnFail s l d.site d.reserve.isSome.toNat d.cause d.start)
    else
      let s := darnCatchUp (banksAnew (setLoom s l (loomReplayed d.kept)) l) l
      let s := modLl s (fun x => { x with darn := none })
      let s := if s.ll.heldLooms.isEmpty then holdWrite s false else s
      let s := wr s (bLoom l) F.STATE_DEGRADED 1
      let s := if d.bad ≤ 16 then trecWrite (softBad s (loomRow l).2.2 d.bad) else s
      let free := d.image.freerun || d.kept.seq.freerun
      let t := ltNow s - d.start
      let s := when' free (fun s => detSet (inc s bLamplighter F.LL_NONIDENT_COUNT) F.BEAT_DETSTAT_NONIDENT) s
      let s := lastDarn (inc s bLamplighter F.LL_DARNS_COUNT) l d.site d.reserve.isSome.toNat (if free then 2 else 0) t
      let s := logEvent s (bLoom l) evDarn (if free then 8 else 0) d.cause t
      darnNext (dumpStart s (bLoom l) d.cause (some l))

/-- DARN_TIMEOUT: 1 ms past the bound. -/
def darnTimeout (s : State) (l : Nat) : State :=
  match s.ll.darn with
  | none => s
  | some d =>
    if d.loom = l ∧ 10 * d.start + darnBoundOf s l d.kept (rd s bLamplighter F.LL_SNAPBEATS_BEATS) + 10000000 ≤ 10 * ltNow s then
      darnNext (darnFail s l d.site d.reserve.isSome.toNat d.cause d.start)
    else s

end Sys2Proof.Machine
end

