-- ==== Sys2Proof/Machine/Lamplighter.lean ====
section
/-!
DEFINITION. Lamplighter (chapter 19): the classes of faults, the reset ladder, the management tick, heartbeats and the dead-man timer,
the release of FAULT_N, checkpoints.
-/

namespace Sys2Proof.Machine

/-! ## The reset ladder (R624 to R628) -/

/-- The domain of rung 2 (R625). -/
def rungDomain (b : Nat) : List Nat :=
  match kindOf b with
  | some .hbmc => [b]
  | some .memcrypt => (List.range 4).map bHbmc ++ [bMemcrypt]
  | some .apc | some .netio => [bApc, bNetio] ++ (List.range 8).map (fun i => bShuttle (48 + i))
  | some .shuttle =>
    let k := b - bShuttle 0
    if 56 ≤ k then (List.range 4).map (fun i => bShuttle (56 + i))
    else if 48 ≤ k then (List.range 8).map (fun i => bShuttle (48 + i)) else []
  | _ => []

/-- A block of the I/O domain, whose rung after the first is 4. -/
def rungIo (b : Nat) : Bool :=
  match kindOf b with
  | some .reed | some .glimmer | some .ltime | some .timer | some .hostport => true
  | _ => false

/-- Timeouts of the rungs in nanoseconds; rung 0 is the background reset of a shuttle (R626). -/
def rungLimit (rung : Nat) : Nat := if rung ≤ 1 then 100000 else if rung = 2 then 2000000 else 3000000000

/-- What a rung that ends writes: LL_LADDER0, LL_LADDER1 and a RUNG entry. -/
def rungNote (s : State) (b rung cause out : Nat) : State :=
  let s := wr (wr s bLamplighter F.LL_LADDER0_BLOCK b) bLamplighter F.LL_LADDER0_RUNG rung
  let s := wr (wr s bLamplighter F.LL_LADDER0_OUTCOME out) bLamplighter F.LL_LADDER1_CAUSE cause
  logEvent s b evRung 0 cause (rung + out * 2 ^ 8)

/-- A rung is entered: its counter and LASTRUNG. -/
def rungCount (s : State) (rung : Nat) : State :=
  inc (wr s bLamplighter F.LL_STAT_LASTRUNG rung) bLamplighter (fAt F.LL_RUNG1_COUNT (rung - 1))

/-- A rung in progress is noted. -/
def rungAdd (s : State) (r : RungSt) : State :=
  modLl s (fun x => { x with rungs := x.rungs.filter (fun y => y.block != r.block) ++ [r] })

/-- Outcome codes (R628). -/
abbrev roOk : Nat := 0
abbrev roTimeout : Nat := 1
abbrev roLantern : Nat := 2

/-- Rung 4: handover, then the package reset, with the straps as they were latched. -/
def rung4 (s : State) (b cause : Nat) : State :=
  packageReset (rungNote (rungCount (handover s) 4) b 4 cause (if s.ll.absent then roLantern else roOk)) false (selfPkg s)

/-- Rung 3: handover, a dump, then the compute-partition reset. -/
def rung3 (s : State) (b cause : Nat) : State :=
  let s := computeReset (dumpStart (rungCount (tenantEvent (handover s) teRecovering) 3) b cause none)
  rungAdd (rungNote s b 3 cause (if s.ll.absent then roLantern else roOk)) ⟨3, b, [], cause, ltNow s⟩

/-- Entries of a block within the last `ns` nanoseconds. -/
def rungRecent (s : State) (es : List (Nat × Nat)) (b ns : Nat) : Nat :=
  (es.filter (fun e => e.1 == b && decide (ltNow s < e.2 + ns))).length

/-- A shuttle's lanes return from its sibling (R626). -/
def shReturn (s : State) (k : Nat) : State :=
  if !(sh s k).failed then s
  else
    let j := sibling k
    let s := modSh s k (fun x => { x with failed := false, run := none, redo := none })
    wr (wr (wr s (bShuttle k) F.STATE_DEGRADED 0) (bShuttle j) F.STATE_DEGRADED 0) (bShuttle j) F.SH_STAT_TAKEOVER 0

/-- Rung 2 for the domain of a block; the fourth entry within 10 s goes to rung 3. -/
def rung2 (s : State) (b cause : Nat) : State :=
  let dom := rungDomain b
  if dom.isEmpty then (if rungIo b then rung4 s b cause else rung3 s b cause)
  else if 3 ≤ rungRecent s s.ll.rung2 (dom.headD b) 10000000000 then rung3 s b cause
  else
    let s := modLl s (fun x => { x with rung2 := ((dom.headD b, ltNow s) :: x.rung2).take 64 })
    let s := dumpStart (rungCount s 2) b cause none
    let s := forEach dom (fun x s => blockReset (if kindOf x = some .shuttle then shReturn s (x - bShuttle 0) else s) x) s
    rungAdd s ⟨2, b, dom, cause, ltNow s⟩

/-- Rung 1: the block reset; the fourth entry within 1 s goes to rung 2. While Lamplighter's core is absent, Lantern starts rungs 2
and 3 alone. -/
def rung1 (s : State) (b cause : Nat) : State :=
  if s.ll.rungs.any (fun r => r.block == b || r.waits.contains b) then s
  else if s.ll.absent ∨ 3 ≤ rungRecent s s.ll.rung1 b 1000000000 then rung2 s b cause
  else
    let s := modLl s (fun x => { x with rung1 := ((b, ltNow s) :: x.rung1).take 256 })
    rungAdd (blockReset (rungCount s 1) b) ⟨1, b, [b], cause, ltNow s⟩

/-- A shuttle fails (R427, R607): its sibling takes over and it is reset in the background. A failure of both is outside single-package
cover. -/
def shuttleFails (s : State) (k cause : Nat) : State :=
  if (sh s (sibling k)).failed then rung3 (shTakeover s k) (bShuttle k) cause
  else if (sh s k).failed then s
  else if s.ll.absent then rung2 s (bShuttle k) cause
  else
    let s := shTakeover s k
    if 48 ≤ k then rung1 s (bShuttle k) cause
    else rungAdd (blockReset s (bShuttle k)) ⟨0, bShuttle k, [bShuttle k], cause, ltNow s⟩

/-- Rungs whose blocks are READY again end well. -/
def rungsCheck (s : State) : State :=
  let done := fun (r : RungSt) => if r.rung = 3 then !s.boot.active else r.waits.all (fun b => rdB s b F.STATE_READY)
  let ends := s.ll.rungs.filter done
  let s := modLl s (fun x => { x with rungs := x.rungs.filter (fun r => !done r) })
  forEach ends (fun r s =>
    let s := if r.rung ≤ 1 ∧ kindOf r.block = some .shuttle then shReturn s (r.block - bShuttle 0) else s
    if r.rung = 3 then tenantEvent s teReturned
    else if r.rung = 1 ∨ r.rung = 2 then rungNote s r.block r.rung r.cause (if s.ll.absent then roLantern else roOk) else s) s

/-- RUNG_TIMEOUT: the rung entered for block `b` has not brought its blocks back in time, or a RESET_REQ of the block's own does not
complete: Lamplighter climbs. A loom-side shuttle stays isolated; looms take no rung. -/
def rungTimeout (s : State) (b : Nat) : State :=
  match s.ll.rungs.find? (fun r => r.block = b) with
  | some r =>
    let late := decide (r.start + rungLimit r.rung ≤ ltNow s)
    if !late then s
    else
      let s := modLl s (fun x => { x with rungs := x.rungs.filter (fun y => y.block != b) })
      if r.rung = 0 then s
      else
        let s := rungNote s b r.rung r.cause roTimeout
        if r.rung = 1 then rung2 s b r.cause else if r.rung = 2 then rung3 s b r.cause else rung4 s b r.cause
  | none =>
    if rdB s b F.STATE_RESETTING then
      match kindOf b with
      | some .loom => s
      | some .hub | some .seam | some .beat => rung3 s b 0
      | some .hbmc | some .memcrypt | some .apc | some .netio => rung2 s b 0
      | some .shuttle => if b - bShuttle 0 < 48 then s else rung2 s b 0
      | _ => if rungIo b then rung2 s b 0 else s
    else s

/-! ## Faults (R607) -/

/-- The beat engine has gone to FAULTED: dump, back to IDLE, handover with BEATFATAL. -/
def beatDown (s : State) (cause : Nat) : State :=
  if beatState s ≠ stFaulted then s
  else
    let s := beatRecover (dumpStart s bBeat cause none)
    if rdB s bLamplighter F.LL_POLICY_BEATFATAL then handover s else s

/-- A loom's fault is a loom failure. -/
def loomCause (code : Nat) : Bool :=
  code == 0x0101 || code == 0x0104 || code == 0x010C || code == 0x0111 || code == 0x0112 || code == 0x0114
    || (0x8001 ≤ code && code ≤ 0x8003)

/-- Common codes that mean a failed block. -/
def commonCause (code : Nat) : Bool := 0x8001 ≤ code && code ≤ 0x8003

/-- The loom whose local port the last link error of a hub names. -/
def linkLoom (s : State) (b : Nat) : Option Nat :=
  if rd s b F.HUB_LASTERR_PORT = 4 then
    let row := rd s b F.HUB_LASTERR_ROW
    loomAt s (row / 3 + 8 * rd s b F.HUB_LASTERR_HALF) (row % 3) (rd s b F.HUB_LASTERR_SITE)
  else none

/-- Class OUTSIDE: handover, then rung 3. -/
def outside (s : State) (b cause : Nat) : State := rung3 s b cause

/-- Lantern is lost (R633): 0x0D02 and a handover. -/
def lanternLost (s : State) : State :=
  if s.ll.lanternGone then s
  else handover (latchFault (modLl s (fun x => { x with lanternGone := true })) bLamplighter 0x0D02)

/-- What Lamplighter does about a fault of block `b`, by its class. -/
def faultAct (s : State) (b code : Nat) : State :=
  match kindOf b with
  | some .loom => if loomCause code then loomFails s (b - 0x100) code else beatDown s code
  | some .shuttle =>
    let k := b - bShuttle 0
    if code = 0x0501 ∨ code = 0x8001 then shuttleFails s k code
    else if commonCause code then (if k < 48 then shuttleFails s k code else rung1 s b code) else s
  | some .hub =>
    if code = 0x0302 then
      match linkLoom s b with
      | some l => loomFails s l code
      | none => if 8 ≤ tabGet 0 s.ll.linkTicks (b - bHub 0) then outside s b code else s
    else if code = 0x0301 ∨ code = 0x0303 ∨ commonCause code then outside s b code else s
  | some .seam => if code = 0x0401 ∨ commonCause code then outside s b code else s
  | some .beat => if commonCause code then outside s b code else beatDown s code
  | some .hbmc => if code = 0x0603 then outside s b code else if commonCause code then rung1 s b code else s
  | some .memcrypt | some .apc | some .netio => if commonCause code then rung1 s b code else s
  | some .reed => if commonCause code then rung1 s b code else beatDown s code
  | some .glimmer | some .ltime | some .timer | some .hostport => if commonCause code then rung1 s b code else s
  | some .laser => if code = 0x0A01 ∧ lasState s 0 ≠ lmLit ∧ lasState s 1 ≠ lmLit then outside s b code else s
  | some .custody => if code = 0x0B02 then lanternLost s else s
  | some .lamplighter => if code = 0x0D01 ∨ code = 0x0D02 then handover s else s
  | some .power => if code = 0x0E01 ∨ code = 0x0E03 ∨ code = 0x0E04 then handover s else s
  | _ => s

/-- A fault that no other command finds: REGPARITY of any block, an uncorrectable error inside a shuttle, a stack that does not train, an
uncorrectable error inside Lantern (R51, R427, R432). -/
def reportedOnly (b code : Nat) : Bool :=
  code == 0x8003 || (kindOf b == some .shuttle && code == 0x0501) || (kindOf b == some .hbmc && code == 0x0603)
    || (kindOf b == some .custody && code == 0x0B02)

/-- FAULT_REPORT: logged, then acted on once Lamplighter runs. The report of a fault that no other command finds stands for the fault
itself, which its block latches (R51). -/
def faultIn (s : State) (b code : Nat) : State :=
  let s := if reportedOnly b code then latchCause s b code else s
  let s := logEvent s b evFault 0 code 0
  let s := modLl s (fun x => { x with tickFaults := if x.tickFaults.contains b then x.tickFaults else x.tickFaults ++ [b] })
  if rdB s bLamplighter F.STATE_READY then faultAct s b code else s

/-! ## The management tick (R605, R622, R623, R632, R634) -/

/-- Judges a block's PROGRESS (R605). -/
def progressWatch (b : Nat) (s : State) : State :=
  if !rdB s b F.STATE_READY || !rdB s b F.CONTROL_ENABLE || !blockBusy s b then
    modLl s (fun x => { x with watch := tabSet (0, 0) x.watch b (0, 0) })
  else
    let p := rd s b F.PROGRESS_COUNT
    let w := tabGet (0, 0) s.ll.watch b
    let n := if w.1 = p + 1 then w.2 + 1 else 0
    let win := rd s b F.PROGWIN_TICKS
    let s := modLl s (fun x => { x with watch := tabSet (0, 0) x.watch b (p + 1, n) })
    if (if win = 0 then 256 else win) ≤ n then inc (latchFault s b 0x8001) bLamplighter F.LL_STALLS_COUNT else s

/-- SNAP_BEATS as the policy chooses it (R623). -/
def snapBeatsRule (s : State) : Nat :=
  let slack := rd s bLamplighter F.LL_OUTSLACK_NS
  if slack = 0 then 32
  else (([64, 32, 16, 8].find? (fun sb => (darnWorst s sb).2 ≤ 10 * slack))).getD 4

/-- The darning bound shown, its warning, and the policy on SNAP_BEATS. `darnWorst` counts in tenths of a nanosecond. -/
def boundTick (s : State) : State :=
  let w := darnWorst s (rd s bLamplighter F.LL_SNAPBEATS_BEATS)
  let ns := min 0xFFFFFFFF ((w.2 + 9) / 10)
  let slack := rd s bLamplighter F.LL_OUTSLACK_NS
  let slow := decide (slack ≠ 0 ∧ slack < ns)
  let was := rdB s bLamplighter F.LL_STAT_DARNSLOW
  let s := wr (wr s bLamplighter F.LL_DARNBOUND_NS ns) bLamplighter F.LL_DARNWORST_LOOM w.1
  let s := wr s bLamplighter F.LL_STAT_DARNSLOW slow.toNat
  let s := if slow && !was then logEvent s bLamplighter evWarning 0 F.LL_DARNBOUND_NS.off ns else s
  if liveExpert s bLamplighter ∨ rdB s bLamplighter F.CONTROL_FREEZE then s
  else
    let v := snapBeatsRule s
    if decided s bLamplighter F.LL_SNAPBEATS_BEATS 0 = v then s else decide' s bLamplighter F.LL_SNAPBEATS_BEATS 0 v

/-- Link errors of a hub, with the count of ticks in a row. -/
def linkWatch (h : Nat) (s : State) : State :=
  let b := bHub h
  let lim := rd s b F.HUB_LINKTHR_LIMIT
  let hit := decide (lim ≠ 0 ∧ lim ≤ (rd s b F.HUB_CRCERR_COUNT + 2 ^ 32 - (hub s h).crcTick) % 2 ^ 32)
  let s := linkTick s h
  modLl s (fun x => { x with linkTicks := tabSet 0 x.linkTicks h (if hit then tabGet 0 x.linkTicks h + 1 else 0) })

/-- MANAGEMENT_TICK: `watts` is the power measured over the tick, `work` the units of work that blocks have done besides those that
the commands count (log entry 51). -/
def managementTick (s : State) (watts : Nat) (work : List (Nat × Nat)) : State :=
  let s := forEach work (fun p s => incBy s p.1 F.PROGRESS_COUNT p.2) s
  let s := powerTick (coarsenTick s) watts
  let s := forEach (List.range 16) linkWatch s
  let s := forEach allBlocks progressWatch s
  let s := if llRuns s then
      let s := boundTick (beatDown (inc s bLamplighter F.LL_HEART_LL) 0)
      if s.ll.faultN && s.ll.lost && rdB s bLamplighter F.LL_STAT_DMEXPIRED then s
      else send (modLl s (fun x => { x with alive := !x.alive })) .pin 1 [(!s.ll.alive).toNat]
    else s
  let s := if rdB s bCustody F.STATE_READY ∧ !s.ll.lanternGone then inc s bLamplighter F.LL_HEART_LANTERN else s
  modLl s (fun x => { x with tickFaults := [] })

/-! ## Heartbeats and the dead-man timer (R632 to R634) -/

/-- LAMPLIGHTER_HEARTBEAT_LOST: Lantern finds the core absent. -/
def heartLost (s : State) : State :=
  if s.ll.absent ∨ s.ll.lanternGone ∨ !rdB s bLamplighter F.STATE_READY then s
  else
    let s := modLl (wr s bLamplighter F.STATE_DEGRADED 1) (fun x => { x with absent := true })
    logEvent (inc s bLamplighter F.LL_HBMISS_COUNT) bLamplighter evHeartbeat 0 0 0

/-- LAMPLIGHTER_RETURN: the core is back, takes the window's entries into the log, and darns what was held for it. -/
def heartBack (s : State) : State :=
  if !s.ll.absent then s
  else
    let s := modLl (wr s bLamplighter F.STATE_DEGRADED 0) (fun x => { x with
      absent := false, log := (x.window ++ x.log).take 4096, window := [] })
    darnNext s

/-- LANTERN_HEARTBEAT_LOST. -/
def lanternSilent (s : State) : State :=
  if s.ll.lanternGone ∨ !llRuns s then s else lanternLost (inc s bLamplighter F.LL_HBMISS_COUNT)

/-- DEADMAN_EXPIRY: FAULT_N, ALIVE low, the package-lost code on every lit port, DMEXPIRED. -/
def deadman (s : State) : State :=
  if rdB s bLamplighter F.LL_STAT_DMEXPIRED then s
  else
    let s := wr (modLl s (fun x => { x with faultN := true, alive := false })) bLamplighter F.LL_STAT_DMEXPIRED 1
    lostCode (send (send s .pin 0 [1]) .pin 1 [0])

/-! ## FAULT_N (R635) -/

/-- A cause of FAULT_N remains: the dead-man timer has expired, bring-up has failed or found a fuse of R587, the crystal or a rail is
lost, a thermal trip holds, Lantern or the core is gone, a handover is due, or Lamplighter is not READY. -/
def faultRemains (s : State) : Bool :=
  rdB s bLamplighter F.LL_STAT_DMEXPIRED || rd s bFuse F.FUSE_BOOTSTAT_FAILSTEP != 0 || fuseUeIn s 0 0x36
    || s.pw.rc || s.pw.railFault || s.pw.tripped || s.ll.lanternGone || s.ll.absent || s.ll.handPend
    || !rdB s bLamplighter F.STATE_READY

/-- LL_CTL.FAULTCLR: ignored and counted while a cause remains. -/
def faultClear (s : State) : State :=
  if faultRemains s then txnRefuse s bLamplighter
  else send (modLl s (fun x => { x with faultN := false, lost := false })) .pin 0 [0]

/-! ## Checkpoints (R268 to R270, R639) -/

/-- Bytes of the record of a loom by its registers. -/
def ckptSize (s : State) (l : Nat) : Nat :=
  (64 + 4 * rd s (bLoom l) F.LOOM_NSLOTS_NSLOTS + (plasticRegion s l).2 + 4095) / 4096 * 4096

/-- Starts a checkpoint; whether it was refused comes back. One in the other mode than the area was last written in takes the whole area
afresh: the copies of either mode overlap those of the other (R268). -/
def ckptStart (s : State) : Bool × State :=
  let mode := rd s bLamplighter F.LL_CKPTCTL_MODE
  let size := ((ckptLooms s).map (ckptSize s)).sum
  if s.ll.ckpt.isSome || (s.ll.ckptLt != 0 && decide (ltNow s + 1 < s.ll.ckptLt + 100000000))
      || decide ((if mode = 1 then 12 else 24) * 1048576 < size) then
    (true, inc (wr s bLamplighter F.LL_CKPTCTL_ERR 1) bLamplighter F.LL_CKPTREFUSE_COUNT)
  else
    let s := if mode = s.nv.ckptMode then s else { s with nv := { s.nv with ckpt := [] } }
    let newer : Nat → Nat := fun i => match tabGet none s.nv.ckpt i with | some c => if c.valid then c.seq + 1 else 0 | none => 0
    let copy := if mode = 0 ∨ newer 0 ≤ newer 1 then 0 else 1
    let s : State := { s with nv := { s.nv with ckpt := tabSet none s.nv.ckpt copy none, ckptMode := mode } }
    let s := modLl s (fun x => { x with ckpt := some ⟨copy, none⟩, ckptLt := ltNow s + 1 })
    (false, if noBoundary s then ckptCapture s else s)

/-- LL_CKPTCTL.GO. -/
def ckptGo (s : State) : State := (ckptStart s).2

/-- CKPT_AUTO_TIMER: a refused start is logged. -/
def ckptAuto (s : State) : State :=
  if rd s bLamplighter F.LL_CKPTAUTO_S = 0 ∨ !llRuns s then s
  else
    let p := ckptStart s
    if p.1 then logEvent p.2 bLamplighter evCkpt efRefused 0 0 else p.2

/-- The snapshots of a checkpoint are still being copied. -/
def ckptCopying (s : State) : Bool := (ckptLooms s).any (fun l => (loom s l).tsnap.any (·.ckpt))

/-- CHECKPOINT_COMMIT: the copy is in MRAM with its commit record, or has failed; not before the snapshots are in the staging area. -/
def ckptCommit (s : State) (ok : Bool) : State :=
  match s.ll.ckpt with
  | some ⟨copy, some c⟩ =>
    if ok && ckptCopying s then s
    else
    let s := modLl s (fun x => { x with ckpt := none })
    if ok then
      let s : State := { s with nv := { s.nv with ckpt := tabSet none s.nv.ckpt copy (some { c with valid := true }) } }
      let s := wrPair s bLamplighter F.LL_CKPTBEAT_LO_N F.LL_CKPTBEAT_HI_N c.beat
      logEvent (inc s bLamplighter F.LL_CKPTS_COUNT) bLamplighter evCkpt 0 copy c.beat
    else wr s bLamplighter F.LL_CKPTCTL_ERR 1
  | _ => s

/-- A stale stamp for first beat `n` (R249). -/
def staleStamp (n : Nat) : Nat := (n + 65536 - 32768) % 65536

/-- Stamps of every plastic row of a region made stale. -/
def staleRows (n stop : Nat) : Nat → Nat → Loom → Loom
  | 0, _, m => m
  | fuel + 1, a, m =>
    let h := rowHdr (memNat m.sstore a 8)
    if stop ≤ a ∨ stop < a + rowSize h ∨ rowSize h = 0 then m
    else staleRows n stop fuel (a + rowSize h) (if h.plastic then tenLastpre m a (staleStamp n) else m)

/-- The SHA-256 of a record holds. -/
def CkptRec.sound (r : CkptRec) : Bool :=
  let field := fun (a k : Nat) => leNat ((r.bytes.drop a).take k)
  (r.bytes.drop 32).take 32 == sha256 ((r.bytes.drop 64).take (4 * field 12 4 + field 20 4))

/-- Writes the record of a loom back, with every stamp stale (R270). -/
def ckptPut (n : Nat) (r : CkptRec) (s : State) : State :=
  let d := r.bytes
  let field := fun (a k : Nat) => leNat ((d.drop a).take k)
  let ns := field 12 4
  let base := field 16 4
  let size := field 20 4
  if !rdB s (bLoom r.loom) F.STATE_READY then s
  else modLoom s r.loom (fun m =>
    let m := (List.range ns).foldl (fun m j =>
      tenSlot m j (setBits (setBits (slotNat m j) 95 64 (field (64 + 4 * j) 4)) 63 48 (staleStamp n))) m
    let m := (List.range size).foldl (fun m i => tenByte m (base + i) (field (64 + 4 * ns + i) 1)) m
    staleRows n (base + size) (size / 8) base m)

/-- The checkpoint that bring-up restores: the newer valid copy of the loaded image, with every record's SHA-256 right (log entry 52). -/
def ckptRestore (s : State) : State :=
  if s.ll.restored ∨ !llRuns s then s
  else
    let s := modLl s (fun x => { x with restored := true })
    let fits := (List.range 2).filterMap (fun i => match tabGet none s.nv.ckpt i with
      | some c => if c.valid && c.meas == imageMeas s && !c.meas.isEmpty && c.recs.all CkptRec.sound then some c else none
      | none => none)
    match fits.foldl (fun (a : Option CkptCopy) c => match a with
      | none => some c
      | some x => if x.seq < c.seq then some c else a) none with
    | some c => forEach c.recs (ckptPut s.beat.n) s
    | none => s

end Sys2Proof.Machine
end

