-- ==== Sys2Proof/Machine/Commit.lean ====
section
/-!
DEFINITION. What each block checks in a staged state at COMMIT and at group prepare (R85, R109, R116, R126, R130, R155, R167, R206,
R222, R226, R237, R244, R265, R307, R315, R374, R375, R468, R472, R640).
-/

namespace Sys2Proof.Machine

/-! ## Readers of a staged state -/

/-- A reader of a block's fields by table index: the staged or the live state. -/
abbrev Getter : Type := Fld → Nat → Nat

/-- The staged state of block `b`. -/
def stgG (s : State) (b : Nat) : Getter := fun f i => stgI s b f i

/-- The live state of block `b` with one register replaced by `w`: what a direct write would make of it. -/
def liveWith (s : State) (b off idx : Nat) (w : Word) : Getter := fun f i =>
  if f.off = off ∧ i = idx then fldGet f w else rdI s b f i

/-- Blocks `b` and `h` are members of one transaction group, of linked slots or of one (R72). -/
def sameGroup (s : State) (b h : Nat) : Bool :=
  rd s b F.TXN_TSTATE = tsPending && rd s h F.TXN_TSTATE = tsPending
    && slotHead s (rd s b F.TXN_GROUP) = slotHead s (rd s h F.TXN_GROUP)

/-- A directory field as the check of block `b` reads it: the staged entry where the hub is a member of the same group, so that
looms and directory entries can be committed together (R306); else the live one (DEDUCED, log entry 96). -/
def dirS (s : State) (b pop : Nat) (f : Fld) : Nat :=
  if sameGroup s b (dirHub pop) then stgI s (dirHub pop) f (pop / 16) else dirF s pop f

/-- Two ranges of bytes overlap. -/
def rangesMeet (x y : Nat × Nat) : Bool := x.1 < y.1 + y.2 && y.1 < x.1 + x.2 && x.2 != 0 && y.2 != 0

/-- No two ranges of a list overlap. -/
def disjoint : List (Nat × Nat) → Bool
  | [] => true
  | x :: xs => xs.all (fun y => !rangesMeet x y) && disjoint xs

/-- The staged words of a block at offsets [lo, hi]: the table indices. -/
def stagedIdx (s : State) (b lo hi : Nat) : List Nat :=
  (((ctl s b).staged.filter (fun w => lo ≤ w.key / 65536 && w.key / 65536 ≤ hi)).map (fun w => w.key % 65536)).eraseDups

/-! ## Loom areas (R116, R155, R206, R222, R226, R237, R265, R307, R374) -/

/-- A scratch area that a loom's registers name: offset, bytes, the owner its banks must have. -/
structure Area where
  start : Nat
  len : Nat
  own : Nat
  deriving DecidableEq, Repr

/-- The segment table as a reader gives it, without unused entries: index, B, LEN, P, SKIND, M₀, ROUTE. -/
def segsOf (g : Getter) : List (Nat × Nat × Nat × Nat × Nat × Nat × Nat) :=
  ((List.range 64).map (fun i => (i, g F.LOOM_SEGDATA0_BASE i, g F.LOOM_SEGDATA0_LEN i, g F.LOOM_SEGDATA1_POP i,
    g F.LOOM_SEGDATA1_SKIND i, g F.LOOM_SEGDATA2_M0 i, g F.LOOM_SEGDATA3_ROUTE i))).filter (fun e => e.2.2.2.2.1 != 0)

/-- The VALID operations and frames. -/
def opsOf (g : Getter) : List (Nat × Dop) :=
  ((List.range 32).map (fun i => (i, dopOf (fun f => g f i)))).filter (fun e => e.2.valid)
/-- The VALID frames. -/
def framesOf (g : Getter) : List Frame := ((List.range 16).map (fun i => frameOf (fun f => g f i))).filter (fun r => r.valid)

/-- The areas of a VALID frame: its elements, the folded elements and shifts. -/
def frameAreas (r : Frame) : List Area :=
  [⟨r.base, r.rows * r.klen * 8, ownNeuron⟩, ⟨r.outbase, aBytes r.f4 r.rows r.klen, ownBatten⟩,
    ⟨r.outsc, aScBytes r.rows r.klen r.g, ownBatten⟩]

/-- The areas of the neuron engine, the fetch unit, the network interface, the batten's frames and table, and the tensioner. A look-up table
is an area while some VALID matrix product has LUT set (R237; DESIGN CHOICE, log entry 131). -/
def mainAreas (g : Getter) : List Area :=
  [⟨g F.LOOM_ACCBASE_BASE 0 * 8, 8 * g F.LOOM_NSLOTS_NSLOTS 0, ownNeuron⟩,
    ⟨g F.LOOM_DQBASE_BASE 0 * 256, g F.LOOM_DQSIZE_SIZE 0 * 256, ownNeuron⟩,
    ⟨g F.LOOM_RCBASE_BASE 0 * 4096, g F.LOOM_RCSIZE_SIZE 0 * 4096, ownNeuron⟩,
    ⟨g F.LOOM_RETBASE_BASE 0 * 4096, 131072, ownNetif⟩,
    ⟨g F.LOOM_INSTBASE_BASE 0 * 16, 16 * g F.LOOM_INSTCOUNT_COUNT 0, ownNetif⟩]
  ++ (framesOf g).flatMap frameAreas
  ++ (if (opsOf g).any (fun e => e.2.kind = 0 && e.2.lut) then [⟨g F.LOOM_BLUTBASE_BASE 0 * 256, 256, ownBatten⟩] else [])
  ++ [⟨g F.LOOM_TSTAGEBASE_BASE 0 * 64, g F.LOOM_TPSIZE_SIZE 0, ownTens⟩]
  ++ (if g F.LOOM_SEQCTL_RUN 0 = 1 then [⟨g F.LOOM_SEQHTBASE_BASE 0 * 1024, 1024, ownSeq⟩] else [])

/-- The sequencer's entry addresses that are checked now (R307). -/
def entryAreas (g : Getter) : List Area :=
  (if g F.LOOM_SEQCTL_RUN 0 = 1 then [⟨g F.LOOM_SEQENTRY_ADDR 0 * 4, 4, ownSeq⟩] else [])
  ++ (if g F.LOOM_SEQTVEC_VALID 0 = 1 then [⟨g F.LOOM_SEQTVEC_ADDR 0 * 4, 4, ownSeq⟩] else [])
  ++ (if g F.LOOM_SEQHOOKI_EN 0 = 1 then [⟨g F.LOOM_SEQHOOKI_ADDR 0 * 4, 4, ownSeq⟩] else [])
  ++ (if g F.LOOM_SEQHOOKS_EN 0 = 1 then [⟨g F.LOOM_SEQHOOKS_ADDR 0 * 4, 4, ownSeq⟩] else [])
  ++ (if g F.LOOM_SEQHOOKE_EN 0 = 1 then [⟨g F.LOOM_SEQHOOKE_ADDR 0 * 4, 4, ownSeq⟩] else [])

/-- The VALID channel entries. -/
def chansOf (g : Getter) : List Nat := (List.range 64).filter (fun i => g F.LOOM_CHDATA0_VALID i = 1)

/-- The channel areas: descriptor and ring of each receive end, and the send retention. -/
def chanAreas (g : Getter) : List Area :=
  (((chansOf g).filter (fun i => g F.LOOM_CHDATA0_DIR i = 1)).map (fun i =>
    (⟨g F.LOOM_CHDATA1_RBASE i * 64, 64 + 64 * 2 ^ g F.LOOM_CHDATA1_RSIZE i, ownShared⟩ : Area)))
  ++ [⟨g F.LOOM_CHTXBASE_BASE 0 * 4096, g F.LOOM_CHTXSIZE_SIZE 0 * 4096, ownNetif⟩]

/-- The owner codes of a reader. -/
def ownWord (g : Getter) : Word := BitVec.ofNat 32
  (g F.LOOM_BANKOWN_OWNER0 0 + g F.LOOM_BANKOWN_OWNER1 0 * 2 ^ 4 + g F.LOOM_BANKOWN_OWNER2 0 * 2 ^ 8
    + g F.LOOM_BANKOWN_OWNER3 0 * 2 ^ 12 + g F.LOOM_BANKOWN_OWNER4 0 * 2 ^ 16 + g F.LOOM_BANKOWN_OWNER5 0 * 2 ^ 20
    + g F.LOOM_BANKOWN_OWNER6 0 * 2 ^ 24 + g F.LOOM_BANKOWN_OWNER7 0 * 2 ^ 28)

/-- An area that lies in scratch, in banks of its owner; one of no bytes touches none. -/
def areaOk (own : Word) (a : Area) : Bool :=
  a.len = 0 || (a.start + a.len ≤ 0x80000 && (banksOf a.start a.len).all (fun k => ownerIn own k = a.own))

/-- The owner codes themselves (R315): none reserved, no draining bank changed, an allowed number of SHARED banks. -/
def ownCodesOk (s : State) (l : Nat) (own : Word) : Bool :=
  let old := regGet s (bLoom l) F.LOOM_BANKOWN_OWNER0.off 0
  (List.range 8).all (fun k => ownerIn own k < 8 && (ownerIn own k = ownerIn old k || !(loom s l).drains.any (fun e => e.1 = k)))
    && [0, 1, 2, 4, 8].contains (sharedBanks own).length

/-! ## Loom checks -/

/-- The threshold table (R85). -/
def thOk (g : Getter) : Bool := (List.range 64).all (fun i => g F.LOOM_THDATA0_THETA i != 0 && g F.LOOM_THDATA0_GMAX i != 0)

/-- The delay-queue area stays while it holds entries (R109). -/
def dqOk (s : State) (l : Nat) (g : Getter) : Bool :=
  rd s (bLoom l) F.LOOM_DQCOUNT_COUNT = 0
    || (g F.LOOM_DQBASE_BASE 0 = rd s (bLoom l) F.LOOM_DQBASE_BASE && g F.LOOM_DQSIZE_SIZE 0 = rd s (bLoom l) F.LOOM_DQSIZE_SIZE)

/-- One segment (R130), checked for block `lb`. -/
def segOk (s : State) (lb own : Nat) (e : Nat × Nat × Nat × Nat × Nat × Nat × Nat) : Bool :=
  let (_, b, len, p, sk, m0, route) := e
  let kind := dirS s lb p F.HUB_DIRDATA0_KIND
  len != 0 && sk != 3 && (if sk = 1 then b + len ≤ 32768 else b + len ≤ 65536)
    && m0 + len - 1 ≤ dirS s lb p F.HUB_DIRDATA0_SIZEM1
    && dirS s lb p F.HUB_DIRDATA0_VALID = 1 && dirS s lb p F.HUB_DIRDATA0_PART = own
    && (kind = 2 || (if sk = 1 then kind = 0 else kind = 1))
    && route < dirS s lb p F.HUB_DIRDATA2_RCOUNT

/-- The segment table (R130), with the frame segments against each other and the emitting operations (R222). -/
def segsOk (s : State) (lb own : Nat) (g : Getter) : Bool :=
  let segs := segsOf g
  let rng := fun (e : Nat × Nat × Nat × Nat × Nat × Nat × Nat) => (e.2.1, e.2.2.1)
  let fr := segs.filter (fun e => e.2.2.2.2.1 = 2)
  let emits := ((opsOf g).filter (fun e => e.2.emit && e.2.kind = 0)).map (fun e => (e.2.outidx, e.2.M * e.2.N))
  segs.all (segOk s lb own)
    && disjoint ((segs.filter (fun e => e.2.2.2.2.1 = 1)).map rng)
    && disjoint (fr.map rng)
    && fr.all (fun e => emits.any (fun o => o.1 ≤ e.2.1 && e.2.1 + e.2.2.1 ≤ o.1 + o.2))

/-- Afferent table and row cache (R155). -/
def affOk (g : Getter) : Bool :=
  let ab := g F.LOOM_AFFCFG_AFFBITS 0
  (ab = 0 || (4 ≤ ab && ab ≤ 12 && g F.LOOM_AFFBASE_BASE 0 * 16 + 16 * 2 ^ ab ≤ 0x80000))
    && [0, 4, 8, 16, 32, 64].contains (g F.LOOM_RCSIZE_SIZE 0)

/-- One operation, for what does not depend on banks (R222, R234). -/
def dopOk (g : Getter) (d : Dop) : Bool :=
  if d.kind = 1 then d.K % 32 = 0 && 32 ≤ d.K && d.K ≤ 65408 && !d.emit && d.out = 1
  else
    let r := frameOf (fun f => g f d.frame)
    d.kind = 0 && d.out != 3 && d.ga != 0 && d.K % d.ga = 0 && 32 ≤ d.K && d.K ≤ 65408
      && (d.out != 1 || d.N % d.gy = 0)
      && (!d.lut || (!d.y4 && d.fixed && d.out = 1))
      && (!d.trigger || (!d.asrc && !d.emit))
      && (!d.asrc || (r.valid && r.rows = d.M && r.klen = d.K && r.g = d.ga && r.f4 = d.a4))
      && (!d.emit || d.outidx + d.M * d.N ≤ 65536)

/-- One frame (R226). -/
def frameOk (r : Frame) : Bool := r.g != 0 && r.klen % r.g = 0

/-- The rule table (R244). -/
def rulesOk (s : State) (lb own : Nat) (g : Getter) : Bool :=
  let v := (List.range 8).filter (fun i => g F.LOOM_TRDATA0_VALID i = 1)
  v.all (fun i =>
    let p := g F.LOOM_TRDATA0_POP i
    let kind := dirS s lb p F.HUB_DIRDATA0_KIND
    decide (sext 8 (g F.LOOM_TRDATA1_WMIN i) ≤ sext 8 (g F.LOOM_TRDATA1_WMAX i))
      && v.all (fun j => j = i || g F.LOOM_TRDATA0_POP j != p)
      && dirS s lb p F.HUB_DIRDATA0_VALID = 1 && dirS s lb p F.HUB_DIRDATA0_PLASTIC = 1 && (kind = 0 || kind = 2)
      && dirS s lb p F.HUB_DIRDATA0_PART = own)

/-- The tensioner's registers (R265). -/
def tensOk (s : State) (l : Nat) (g : Getter) : Bool :=
  let b := bLoom l
  let region := (g F.LOOM_TPBASE_BASE 0 * 8, g F.LOOM_TPSIZE_SIZE 0 * 8)
  let ab := g F.LOOM_AFFCFG_AFFBITS 0
  let period := g F.LOOM_TSWEEP_PERIOD 0
  region.1 + region.2 ≤ 0x80000
    && (ab = 0 || !rangesMeet region (g F.LOOM_AFFBASE_BASE 0 * 16, 16 * 2 ^ ab))
    && g F.LOOM_TSWEEP_PHASE 0 < (if period = 0 then 4096 else period)
    && !(isStaged s b F.LOOM_TSNAPCTL_GO 0 && g F.LOOM_TSNAPCTL_GO 0 = 1 && rdB s b F.LOOM_TSNAPCTL_BUSY)

/-- The path of a channel end (R374): every move but the last on the grid, and an end in LOCAL, or W off column 0 towards the
application cluster. A path of another package is walked there (R519), so its moves are not checked. -/
def pathWalk (code : Nat → Nat) (xsel peer n : Nat) : Nat → Nat → Option (Nat × Nat) → Bool
  | 0, _, _ => false
  | fuel + 1, i, p =>
    let c := code i
    let last := i + 1 = n
    if c = 5 ∨ c = 6 then false
    else if last then c = 4 || (c = 3 && xsel = 2 && peer = 0x470 && (match p with | some q => q.2 = 0 | none => true))
    else if c = 4 then false
    else match p with
      | none => pathWalk code xsel peer n fuel (i + 1) none
      | some q => match moveTo q.1 q.2 c with
        | .pos r k => pathWalk code xsel peer n fuel (i + 1) (some (r, k))
        | _ => false

/-- Hop code `i` of a channel entry. -/
def chHop (g : Getter) (e i : Nat) : Nat :=
  let h := g F.LOOM_CHDATA2_HOPS0 e + g F.LOOM_CHDATA3_HOPS1 e * 2 ^ 32 + g F.LOOM_CHDATA4_HOPS2 e * 2 ^ 64
    + g F.LOOM_CHDATA5_HOPS3 e * 2 ^ 96 + g F.LOOM_CHDATA6_HOPS4 e * 2 ^ 128 + g F.LOOM_CHDATA7_HOPS5 e * 2 ^ 160
  bits h (3 * i + 2) (3 * i)

/-- The channel table (R374), but for its areas. -/
def chansOk (s : State) (l : Nat) (g : Getter) : Bool :=
  let v := chansOf g
  v.all (fun i =>
    let n := g F.LOOM_CHDATA1_NHOPS i
    let own := g F.LOOM_CHDATA0_PKG i = selfPkg s
    v.all (fun j => j = i || g F.LOOM_CHDATA0_CHAN j != g F.LOOM_CHDATA0_CHAN i || g F.LOOM_CHDATA0_DIR j != g F.LOOM_CHDATA0_DIR i)
      && 1 ≤ g F.LOOM_CHDATA1_RSIZE i && g F.LOOM_CHDATA1_RSIZE i ≤ 12
      && 1 ≤ n && n ≤ 64
      && pathWalk (chHop g i) (g F.LOOM_CHDATA1_XSEL i) (g F.LOOM_CHDATA0_PEER i) n 64 0
        (if own then some (l / 32, l % 32) else none))

/-- Receive ends that are VALID now. -/
def rxValid (s : State) (l : Nat) : Bool :=
  (List.range 64).any (fun i => rdI s (bLoom l) F.LOOM_CHDATA0_VALID i = 1 && rdI s (bLoom l) F.LOOM_CHDATA0_DIR i = 1)

/-- A staged change of entry `i` of block `b`'s channel table, whose words stand at the offsets from `lo` to `hi`. -/
def chChanged (s : State) (b lo hi i : Nat) : Bool :=
  (List.range ((hi - lo) / 4 + 1)).any (fun k => let off := lo + 4 * k
    stOver (ctl s b).staged (stKey off i) (regGet s b off i) != regGet s b off i)

/-- Everything the loom rejects at COMMIT or prepare; `grp` for a group. Operations staged here must lie in the batten's banks; the
others are exempt from the ownership part (R315). -/
def loomCheck (s : State) (l : Nat) (grp : Bool) : Bool :=
  let b := bLoom l
  let g := stgG s b
  let own := ownWord g
  let part := rd s b F.OWNER_PART
  let ops := opsOf g
  let staged := stagedIdx s b F.LOOM_DOPDATA0_VALID.off F.LOOM_DOPDATA7_BBASE.off
  let areas := mainAreas g ++ chanAreas g
  let old := regGet s b F.LOOM_BANKOWN_OWNER0.off 0
  let sp := fun (a : Area) => (a.start, a.len)
  g F.LOOM_NSLOTS_NSLOTS 0 ≤ 32768 && thOk g && dqOk s l g && affOk g && segsOk s b part g
    && g F.LOOM_INSTCOUNT_COUNT 0 ≤ 4096
    && ops.all (fun e => dopOk g e.2) && (framesOf g).all frameOk
    && disjoint ((ops.filter (fun e => e.2.emit && e.2.kind = 0)).map (fun e => (e.2.outidx, e.2.M * e.2.N)))
    && rulesOk s b part g && tensOk s l g && chansOk s l g
    && ownCodesOk s l own && (areas ++ entryAreas g).all (areaOk own)
    && disjoint (areas.map sp)
    && ops.all (fun e => (dopRanges e.2).all (fun r =>
      r.1 + r.2 ≤ 0x80000
        && (!staged.contains e.1 || (banksOf r.1 r.2).all (fun k => ownerIn own k = ownBatten))
        && areas.all (fun a => !rangesMeet r (sp a))))
    && (!rxValid s l || sharedBanks own = sharedBanks old)
    && (grp || (List.range 64).all (fun i => rdI s b F.LOOM_CHDATA0_VALID i = 0
      || !chChanged s b F.LOOM_CHDATA0_CHAN.off F.LOOM_CHDATA7_HOPS5.off i))

/-- A direct write of LOOM_BANKOWN that R315 takes: the codes, and the areas in force against them. -/
def ownWriteOk (s : State) (l : Nat) (w : Word) : Bool :=
  let g := liveWith s (bLoom l) F.LOOM_BANKOWN_OWNER0.off 0 w
  ownCodesOk s l w && (mainAreas g ++ entryAreas g).all (areaOk w)

/-! ## Hub (R126) -/

/-- The directory entry of a hub that the words of a getter give, against the live one: KIND, PART, SIZEM1, RSET and RCOUNT. -/
def dirFixed (g : Getter) (i : Nat) : List Nat :=
  [F.HUB_DIRDATA0_KIND, F.HUB_DIRDATA0_PART, F.HUB_DIRDATA0_SIZEM1, F.HUB_DIRDATA1_RSETLO, F.HUB_DIRDATA2_RSETHI,
    F.HUB_DIRDATA2_RCOUNT].map (fun f => g f i)

/-- Usable HBM ends here (R37). -/
abbrev hbmEnd : Nat := 0xB40000000

/-- What a change outside a group may make of directory entry `i` (R126): a VALID entry keeps KIND, PART, SIZEM1, RSET and RCOUNT, also
where it loses VALID, and one that stays VALID keeps PLASTIC and TAG too (DEDUCED, log entry 95). -/
def dirKept (s : State) (b : Nat) (g : Getter) (i : Nat) : Bool :=
  let live : Getter := fun f i => rdI s b f i
  live F.HUB_DIRDATA0_VALID i = 0
    || (dirFixed g i == dirFixed live i
      && (g F.HUB_DIRDATA0_VALID i = 0
        || (g F.HUB_DIRDATA0_PLASTIC i = live F.HUB_DIRDATA0_PLASTIC i && g F.HUB_DIRDATA3_TAG i = live F.HUB_DIRDATA3_TAG i)))

/-- One directory entry: a VALID entry has a KIND and a route set within HBM; a VALID one changes only by a group. -/
def dirOk (s : State) (b : Nat) (g : Getter) (grp : Bool) (i : Nat) : Bool :=
  (g F.HUB_DIRDATA0_VALID i = 0
    || (g F.HUB_DIRDATA0_KIND i < 4
      && (g F.HUB_DIRDATA1_RSETLO i + g F.HUB_DIRDATA2_RSETHI i * 2 ^ 32) * 32 + 32 * g F.HUB_DIRDATA2_RCOUNT i ≤ hbmEnd))
    && (grp || dirKept s b g i)

/-- The hub's check. -/
def hubCheck (s : State) (b : Nat) (grp : Bool) : Bool :=
  (stagedIdx s b F.HUB_DIRDATA0_VALID.off F.HUB_DIRDATA3_TAG.off).all (dirOk s b (stgG s b) grp)

/-! ## Reed (R468, R472) -/

/-- The epoch from which a configuration change governs: the beat of the next boundary (R472). -/
def reedFrom (s : State) : Nat := if s.beat.isOpen then s.beat.n + 1 else s.beat.n

/-- The offsets and bits whose change governs epochs (R472). -/
def reedCfgBits (off : Nat) : Word :=
  if off = F.REED_CFG_TSMODE.off then fldMask F.REED_CFG_TSMODE
  else if off = F.REED_GEOM_TILESX.off ∨ off = F.REED_TMDATA0_MBASE.off ∨ off = F.REED_TMDATA1_MSLOT.off
      ∨ off = F.REED_GRPDATA0_POP.off ∨ off = F.REED_GRPDATA1_POLOFF.off ∨ off = F.REED_UCDATA_LO_OP.off
      ∨ off = F.REED_UCDATA_HI_VAL.off ∨ off = F.REED_CLEVEL1_BIN.off ∨ off = F.REED_CLEVEL2_BIN.off
      ∨ off = F.REED_CLEVEL3_BIN.off then BitVec.allOnes 32
  else 0

/-- Some staged word changes what governs epochs. -/
def reedChanges (s : State) (b : Nat) : Bool :=
  (ctl s b).staged.any (fun w =>
    let old := regGet s b (w.key / 65536) (w.key % 65536)
    (mergeBits w.mask old w.val ^^^ old) &&& reedCfgBits (w.key / 65536) != 0)

/-- One microcode entry (R468): the fields that its OP uses. -/
def ucOk (g : Getter) (width i : Nat) : Bool :=
  let op := g F.REED_UCDATA_LO_OP i
  let src := g F.REED_UCDATA_LO_SRC i
  let wid := g F.REED_UCDATA_LO_WID i
  let dst := g F.REED_UCDATA_LO_DST i
  op != 7 && (!(op = 1 || op = 2 || op = 3) || (wid != 0 && wid ≤ 32))
    && (!(op = 1 || op = 2) || src + wid ≤ width) && (!(op = 2 || op = 3) || dst + wid ≤ 32)

/-- One group: a SENSOR population of the port's owner with at least 8 routes. -/
def grpOk (s : State) (rb own : Nat) (g : Getter) (i : Nat) : Bool :=
  let p := g F.REED_GRPDATA0_POP i
  g F.REED_GRPDATA0_VALID i = 0
    || (dirS s rb p F.HUB_DIRDATA0_VALID = 1 && dirS s rb p F.HUB_DIRDATA0_KIND = 3 && dirS s rb p F.HUB_DIRDATA0_PART = own
      && 8 ≤ dirS s rb p F.HUB_DIRDATA2_RCOUNT)

/-- One VALID tile: its group, and its members within the population. -/
def tileOk (s : State) (rb : Nat) (g : Getter) (i : Nat) : Bool :=
  let k := g F.REED_TMDATA0_GROUP i
  g F.REED_GRPDATA0_VALID k = 1
    && g F.REED_TMDATA0_MBASE i + g F.REED_GRPDATA1_POLOFF k + 255 ≤ dirS s rb (g F.REED_GRPDATA0_POP k) F.HUB_DIRDATA0_SIZEM1

/-- Bits of an input word (R467); 11 acts as 64. -/
def inWidth (c : Nat) : Nat := if c = 0 then 16 else if c = 1 then 32 else 64

/-- The port's check. -/
def reedCheck (s : State) (p : Nat) : Bool :=
  let b := bReed p
  let g := stgG s b
  let tiles := (List.range 16384).filter (fun i => g F.REED_TMDATA0_VALID i = 1)
  let slots := tiles.map (g F.REED_TMDATA1_MSLOT)
  (List.range 64).all (ucOk g (inWidth (g F.REED_CFG_INWIDTH 0)))
    && tiles.length ≤ 4096 && slots.eraseDups.length = slots.length
    && (List.range 64).all (grpOk s b (rd s b F.OWNER_PART) g) && tiles.all (tileOk s b g)
    && !(hasEpochs s && reedChanges s b && reedEntered s p (reedFrom s))

/-! ## The beat engine and Lamplighter (R167, R640) -/

/-- BEAT_LEN within its range. -/
def lenOk (v : Nat) : Bool := 20000 ≤ v && v ≤ 100000000

/-- The beat engine is IDLE or STOPPED. -/
def beatRests (s : State) : Bool := beatState s = stIdle || beatState s = stStopped

/-- The beat engine's check. -/
def beatCheck (s : State) (grp : Bool) : Bool :=
  let v := stg s bBeat F.BEAT_LEN_NS
  (!isStaged s bBeat F.BEAT_LEN_NS 0 || lenOk v) && (grp || beatRests s || v = rd s bBeat F.BEAT_LEN_NS)

/-- A run of bytes lies in regions of a KIND. -/
def inKind (s : State) (kind a n : Nat) : Bool :=
  (List.range ((a + n + 0x1FFFFF) / 0x200000 - a / 0x200000)).all (fun k =>
    match regionAt s ((a / 0x200000 + k) * 0x200000) with
    | some i => (region s i).kind = kind
    | none => false)

/-- KIND codes of the darning stores (R457). -/
abbrev kindSnapshot : Nat := 1
abbrev kindPicklog : Nat := 2

/-- Lamplighter's check. The places are checked where the transaction stages them, a loom in service being READY. -/
def llCheck (s : State) : Bool :=
  let b := bLamplighter
  let st := fun (f : Fld) => isStaged s b f 0
  let two := fun (lo hi : Fld) => stg s b lo * 2 ^ lo.lo + stg s b hi * 2 ^ 32
  let sb := stg s b F.LL_SNAPBEATS_BEATS
  let size := stg s b F.LL_LOGSIZE_SIZE * 65536
  let most := ((s.looms.map (fun e => logMost e.2 64)).foldl max 0) * 8
  sb ≤ 64
    && (!(st F.LL_SNAPBASE_LO_ADDR || st F.LL_SNAPBASE_HI_ADDR)
      || inKind s kindSnapshot (two F.LL_SNAPBASE_LO_ADDR F.LL_SNAPBASE_HI_ADDR) (768 * 0x400000))
    && (size = 0 || !(st F.LL_LOGBASE_LO_ADDR || st F.LL_LOGBASE_HI_ADDR || st F.LL_LOGSIZE_SIZE)
      || inKind s kindPicklog (two F.LL_LOGBASE_LO_ADDR F.LL_LOGBASE_HI_ADDR) (768 * size))
    && (size = 0 || !(st F.LL_LOGSIZE_SIZE || st F.LL_SNAPBEATS_BEATS) || 2 * sb * most ≤ size)
    && (List.range 24).all (fun i =>
      !isStaged s b (fAt F.LL_RESERVE_MASK i) 0
        || (List.range 32).all (fun j => !bit (stg s b (fAt F.LL_RESERVE_MASK i)) j || rdB s (bLoom (32 * i + j)) F.STATE_READY))

/-- A run of bytes lies in HBM regions of a partition. -/
def inPart (s : State) (part a n : Nat) : Bool :=
  (List.range ((a + n + 0x1FFFFF) / 0x200000 - a / 0x200000)).all (fun k =>
    match regionAt s ((a / 0x200000 + k) * 0x200000) with
    | some i => (region s i).part = part
    | none => false)

/-- Hop code `i` of an entry of the application cluster's table. -/
def apcHop (g : Getter) (e i : Nat) : Nat :=
  let h := (List.range 6).foldl (fun n k => n + g (fAt F.APC_CHDATA2_HOPS0 k) e * 2 ^ (32 * k)) 0
  bits h (3 * i + 2) (3 * i)

/-- Entry `i` of the application cluster's table as it would stand: R374 for its RSIZE and its path, which starts where the cluster's traffic
enters the mesh (R340), and the ring of a receive end in its partition's regions (R391). -/
def apcEntryOk (s : State) (g : Getter) (i : Nat) : Bool :=
  let n := g F.APC_CHDATA1_NHOPS i
  let size := g F.APC_CHDATA1_RSIZE i
  let peer := g F.APC_CHDATA0_PEER i
  1 ≤ size && size ≤ 12 && 1 ≤ n && n ≤ 64
    && pathWalk (apcHop g i) (g F.APC_CHDATA1_XSEL i) peer n 64 0
      (if g F.APC_CHDATA0_PKG i = selfPkg s then some (entryPos 0x470 peer) else none)
    && (g F.APC_CHDATA0_DIR i = 0 || inPart s (g F.APC_CHPART_PART i)
      (g F.APC_CHRBASE_LO_ADDR i * 64 + g F.APC_CHRBASE_HI_ADDR i * 2 ^ 32) (64 + 64 * 2 ^ size))

/-- The table as it would stand: no two VALID entries of a partition have the same CHAN and DIR (R374). -/
def apcTableOk (s : State) : Bool :=
  let g := stgG s bApc
  let v := (List.range 1024).filter (fun i => g F.APC_CHDATA0_VALID i = 1)
  v.all (fun i => apcEntryOk s g i && v.all (fun j => j = i || g F.APC_CHDATA0_CHAN j != g F.APC_CHDATA0_CHAN i
    || g F.APC_CHDATA0_DIR j != g F.APC_CHDATA0_DIR i || g F.APC_CHPART_PART j != g F.APC_CHPART_PART i))

/-- The application cluster's check of staged channel words: the table as it would stand, and without a group no change of an entry that is
VALID (R375, R391). -/
def apcCheck (s : State) (grp : Bool) : Bool :=
  let st := stagedIdx s bApc F.APC_CHDATA0_CHAN.off F.APC_CHRBASE_HI_ADDR.off
  (st.isEmpty || apcTableOk s) && (grp || st.all (fun i =>
    rdA s F.APC_CHDATA0_VALID i = 0 || !chChanged s bApc F.APC_CHDATA0_CHAN.off F.APC_CHRBASE_HI_ADDR.off i))

/-- The check of a block's staged state. -/
def commitCheck (s : State) (b : Nat) (grp : Bool) : Bool :=
  match kindOf b with
  | some .loom => loomCheck s (b - 0x100) grp
  | some .hub => hubCheck s b grp
  | some .reed => reedCheck s (b - 0x70)
  | some .beat => beatCheck s grp
  | some .lamplighter => llCheck s
  | some .apc => apcCheck s grp
  | _ => true

end Sys2Proof.Machine
end

