-- ==== Sys2Proof/Machine/Groups.lean ====
section
/-!
DEFINITION. What applying staged values does, COMMIT, and transaction groups (R62, R64 to R72, R127, R167, R315, R375).
-/

namespace Sys2Proof.Machine

/-! ## Applying values -/

/-- The bits of a bank that a running dense operation of loom `l` uses (R316). -/
def battenUses (s : State) (l k : Nat) : Bool :=
  match (loom s l).bOp with
  | none => false
  | some (i, _) =>
    let d := dop s l i
    let fr := if d.asrc then ((frameAreas (frame s l d.frame)).map (fun a => (a.start, a.len))) else []
    (dopRanges d ++ fr).any (fun r => (banksOf r.1 r.2).contains k)

/-- The shuttles whose running transfer touches bank `k` of loom `l` and is let in there by the code as it stands (R313, R316). -/
def shuttlesUse (s : State) (l k : Nat) : List Nat :=
  (List.range 60).filter (fun j => match (sh s j).run with
    | some r => (shBanks r.desc l).contains k && shBank s ⟨j, r.lane, r.tag⟩ l k
    | none => false)

/-- The table indices of staged words at offsets [lo, hi]. -/
def idxIn (st : Staged) (lo hi : Nat) : List Nat :=
  ((st.filter (fun w => lo ≤ w.key / 65536 && w.key / 65536 ≤ hi)).map (fun w => w.key % 65536)).eraseDups

/-- Sets the words of `st` in the live registers of block `b`. -/
def setWords (s : State) (b : Nat) (st : Staged) : State :=
  forEach st (fun w s => regSet s b (w.key / 65536) (w.key % 65536)
    (mergeBits w.mask (regGet s b (w.key / 65536) (w.key % 65536)) w.val)) s

/-- Loom: bank owners hand over, channel ends start afresh (R315, R375), and a row cache that moves or changes its size starts empty, since it
never changes results (R151); `old` is the state before. -/
def loomApplied (old s : State) (l : Nat) (st : Staged) (grp : Bool) : State :=
  let b := bLoom l
  let own := F.LOOM_BANKOWN_OWNER0.off
  let moved := fun (f : Fld) => rd old b f != rd s b f
  let s := if moved F.LOOM_RCBASE_BASE || moved F.LOOM_RCSIZE_SIZE then modLoom s l (fun m => { m with rowCache := [] }) else s
  let s := ownApply s l (regGet old b own 0) (regGet s b own 0) (battenUses old l) (shuttlesUse old l)
  let ch := idxIn st F.LOOM_CHDATA0_CHAN.off F.LOOM_CHDATA7_HOPS5.off
  forEach ch (fun i s =>
    if grp || (rdI old b F.LOOM_CHDATA0_VALID i = 0 && rdI s b F.LOOM_CHDATA0_VALID i = 1) then chFresh s l i else s) s

/-- Application cluster: channel ends start afresh. -/
def apcApplied (old s : State) (st : Staged) (grp : Bool) : State :=
  forEach (idxIn st F.APC_CHDATA0_CHAN.off F.APC_CHRBASE_HI_ADDR.off) (fun i s =>
    if grp || (rdA old F.APC_CHDATA0_VALID i = 0 && rdA s F.APC_CHDATA0_VALID i = 1) then apcFresh s i else s) s

/-- Hub: a group's change of a directory entry is announced to every route cache (R127). -/
def hubApplied (s : State) (h : Nat) (st : Staged) (grp : Bool) : State :=
  if !grp then s
  else forEach (idxIn st F.HUB_DIRDATA0_VALID.off F.HUB_DIRDATA3_TAG.off) (fun i s =>
    let pop := i * 16 + h
    send (forEach (s.looms.map (·.1)) (fun l s => routeInvalidate s l pop) s) .dirInv h [pop]) s

/-- Beat engine: a beat length that a group changes in a run bends the schedule at the boundary (R167). -/
def beatApplied (old s : State) (grp : Bool) : State :=
  let len := rd s bBeat F.BEAT_LEN_NS
  if grp && !beatRests s && len != rd old bBeat F.BEAT_LEN_NS then
    showAnchor (modBeat s (fun x => { x with anchors := ⟨sched old old.beat.n, old.beat.n, len⟩ :: x.anchors }))
  else s

/-- Timer: CTL and RELOAD act as direct writes of them do (R539, R548). -/
def timApplied (old s : State) (st : Staged) : State :=
  forEach st (fun w s =>
    let off := w.key / 65536
    let c := (off - 0x40) / 32
    if off < 0x40 ∨ 24 ≤ c then s
    else if off = (tf F.TIMER_CTL_EN c).off then timCtlWritten s c (regGet old bTimer off 0)
    else if off = (tf F.TIMER_RELOAD_RELOAD c).off then timReloadWritten s c
    else s) s

/-- What the values just set in block `b` do besides standing in its registers. -/
def applied (old s : State) (b : Nat) (st : Staged) (grp : Bool) : State :=
  match kindOf b with
  | some .loom => loomApplied old s (b - bLoom 0) st grp
  | some .apc => apcApplied old s st grp
  | some .hub => hubApplied s (b - bHub 0) st grp
  | some .beat => beatApplied old s grp
  | some .timer => timApplied old s st
  | _ => s

/-- Some word of `st` changes what governs the epochs of a reed port. -/
def reedTouches (s : State) (b : Nat) (st : Staged) : Bool :=
  st.any (fun w =>
    let old := regGet s b (w.key / 65536) (w.key % 65536)
    (mergeBits w.mask old w.val ^^^ old) &&& reedCfgBits (w.key / 65536) != 0)

/-- Applies words to the live registers of block `b` in one step. -/
def applyWords (s : State) (b : Nat) (st : Staged) (grp : Bool) : State :=
  let s := if kindOf b = some .reed && hasEpochs s && reedTouches s b st then reedKeep s (b - bReed 0) (reedFrom s) else s
  applied s (setWords s b st) b st grp

/-- RWS values of a LOOM, REED or HUB page that do not come with a group leave the promise (R670). -/
def ungrouped (s : State) (b : Nat) : State :=
  match kindOf b with
  | some .loom | some .reed | some .hub => detSet s F.BEAT_DETSTAT_UNGROUPED
  | _ => s

/-! ## COMMIT (R62, R64) -/

/-- The staged value of a mode bit, if it is staged. -/
def stagedMode (s : State) (b : Nat) (f : Fld) : Option Bool := if isStaged s b f 0 then some (stg s b f = 1) else none

/-- The staged words cut down to the bits of `m`. -/
def cutWords (st : Staged) (m : Nat → Word) : Staged :=
  (st.map (fun w => (⟨w.key, w.mask &&& m (w.key / 65536), w.val⟩ : StagedWord))).filter (fun w => w.mask != 0)

/-- The mode bits of a register. -/
def modeBits (off : Nat) : Word :=
  if off = F.CONTROL_EXPERT.off then fldMask F.CONTROL_EXPERT ||| fldMask F.CONTROL_FREEZE else 0

/-- The bits of a register that wait with a mode change: its expert-register bits. -/
def waitBits (b off : Nat) : Word :=
  match kindOf b with
  | some k => policyMask k off
  | none => 0

/-- Applies the staged values of a block COMMIT. -/
def commitApply (s : State) (b : Nat) : State :=
  let st := (ctl s b).staged
  let e := stagedMode s b F.CONTROL_EXPERT
  let f := stagedMode s b F.CONTROL_FREEZE
  let pol := cutWords st (waitBits b)
  let rest := cutWords st (fun off => ~~~(waitBits b off ||| modeBits off))
  let changes := (e.isSome && e != some (liveExpert s b)) || (f.isSome && f != some (rdB s b F.CONTROL_FREEZE))
  let late := if modePend s b then e.isSome || f.isSome || !pol.isEmpty else changes
  let s := when' (!st.isEmpty) (fun s => ungrouped s b) s
  let s := setCtl s b { ctl s b with staged := [] }
  if late then latchMode (applyWords s b rest false) b e f pol else applyWords s b (rest ++ pol) false

/-- Applies the staged values of a group member: the mode bits take effect with them. -/
def memberApply (s : State) (b : Nat) : State :=
  let s := when' (modePend s b) (fun s => applyLatch s b) s
  let st := (ctl s b).staged
  let s := setCtl s b { ctl s b with staged := [] }
  wr (setTxn (applyWords s b st true) b tsIdle resOk) b F.TXN_GROUP 0

/-- COMMIT. -/
def txnCommit (s : State) (r : Requester) (b : Nat) : State :=
  match txnGate s r b with
  | some c => txnRefused s b c
  | none =>
    if commitCheck s b false then setTxn (commitApply s b) b tsIdle resOk
    else wr s b F.TXN_RESULT resInvalid

/-- A write of TXN. -/
def txnOp (s : State) (r : Requester) (b op : Nat) : State :=
  if op = 1 then txnBegin s r b else if op = 2 then txnCommit s r b else if op = 3 then txnRollback s r b else s

/-! ## Group slots (R65 to R67) -/

/-- The selected slot. -/
def slotSel (s : State) : Nat := rd s bBeat F.BEAT_TGSEL_SLOT

/-- Whether a requester may write the registers of the selected slot. -/
def slotMay (s : State) (tag : Nat) : Bool :=
  match (slot s (slotSel s)).owner with
  | none => true
  | some o => o = tag

/-- A write of the slot's make-up: the first writer owns the slot; `build` moves a FREE slot to BUILDING. From ARM on a slot
keeps its make-up. -/
def slotWrite (s : State) (tag : Nat) (build : Bool) (f : GroupSlot → GroupSlot) : State :=
  modSlot s (slotSel s) (fun g =>
    let g := if g.owner.isNone then { g with owner := some tag } else g
    match g.state with
    | .free => f (if build then { g with state := .building } else g)
    | .building => f g
    | _ => g)

/-- The armed slots of the linked group of slot `i`, besides itself. -/
def armedMates (s : State) (i : Nat) : List Nat := (groupOf s (slotHead s i) .armed).filter (fun j => j != i)

/-- A block id appears again: at another index of the list, or in a mate. -/
def dupMember (bs mates : List Nat) (i : Nat) : Bool :=
  let b := (bs[i]?).getD 0
  (List.range bs.length).any (fun j => j != i && (bs[j]?).getD 0 == b) || mates.contains b

/-- The checks of ARM: the code and block of the first that fails. -/
def armFail (s : State) (i : Nat) : Option (Nat × Nat) :=
  let g := slot s i
  let bs := g.blocks
  let own := g.owner.getD 0
  let mates := (armedMates s i).flatMap (fun j => (slot s j).blocks)
  let first := fun (p : Nat → Bool) => ((List.range bs.length).find? p).map (fun k => (bs[k]?).getD 0)
  let h := slot s g.head
  if g.beat < s.beat.n + 2 then some (0x10, 0)
  else if g.count = 0 then some (0x11, 0)
  else match first (dupMember bs mates) with
    | some b => some (0x12, b)
    | none => match bs.find? (fun b => rd s b F.TXN_TSTATE != tsOpen) with
      | some b => some (0x13, b)
      | none => match bs.find? (fun b => rd s b F.TXN_OPENER != own) with
        | some b => some (0x14, b)
        | none => match bs.find? (fun b => !tagMayWrite s own b) with
          | some b => some (0x15, b)
          | none =>
            if g.linked && (g.head == i || h.linked || h.owner != g.owner || h.beat != g.beat) then some (0x16, 0) else none

/-- ARM. -/
def slotArm (s : State) (i : Nat) : State :=
  if (slot s i).state ≠ .building then s
  else match armFail s i with
    | some (c, b) => modSlot s i (fun g => { g with code := c, block := b })
    | none =>
      let s := forEach (slot s i).blocks (fun b s => wr (wr s b F.TXN_TSTATE tsPending) b F.TXN_GROUP i) s
      modSlot s i (fun g => { g with state := .armed, code := 0, block := 0 })

/-- CANCEL. -/
def slotCancel (s : State) (i : Nat) : State :=
  match (slot s i).state with
  | .armed =>
    let s := forEach (slot s i).blocks (fun b s =>
      if rd s b F.TXN_TSTATE = tsPending ∧ rd s b F.TXN_GROUP = i then wr (wr s b F.TXN_TSTATE tsOpen) b F.TXN_GROUP 0 else s) s
    modSlot s i (fun g => { g with state := .building, code := 0, block := 0 })
  | .preparing => modSlot s i (fun g => { g with code := 0x30 })
  | _ => s

/-- RELEASE. -/
def slotRelease (s : State) (i : Nat) : State :=
  match (slot s i).state with
  | .committed | .rolledBack | .partly => modSlot s i (fun _ => GroupSlot.reset)
  | _ => s

/-- OP of TGCTL on the selected slot. -/
def slotOp (s : State) (op : Nat) : State :=
  let i := slotSel s
  if op = 1 then slotArm s i else if op = 2 then slotCancel s i else if op = 3 then slotRelease s i else s

/-! ## Prepare (R69, R70, R72) -/

/-- Every member of the preparing group of slot `i` has accepted. -/
def allAccepted (s : State) (i : Nat) : Bool :=
  (groupOf s (slotHead s i) .preparing).all (fun j => (slot s j).blocks.all (fun b => (slot s j).accepted.contains b))

/-- The apply window opens: every member applies its staged values. -/
def groupApply (s : State) (i : Nat) : State :=
  let g := groupOf s (slotHead s i) .preparing
  let s := forEach (g.flatMap (fun j => (slot s j).blocks)) (fun b s => memberApply s b) s
  forEach g (fun j s => modSlot s j (fun x => { x with window := true })) s

/-- GROUP_PREPARE_ANSWER: member `b` of slot `i` has checked its staged values. -/
def prepareAnswer (s : State) (i b : Nat) : State :=
  let g := slot s i
  if g.state ≠ .preparing ∨ g.window ∨ !g.blocks.contains b ∨ g.accepted.contains b then s
  else if rd s b F.TXN_TSTATE = tsPending ∧ rd s b F.TXN_GROUP = i ∧ commitCheck s b true then
    let s := modSlot s i (fun x => { x with accepted := x.accepted ++ [b] })
    if allAccepted s i then groupApply s i else s
  else groupFail s i 0x20 b (some b)

/-- GROUP_PREPARE_TIMEOUT. -/
def prepareTimeout (s : State) (i b : Nat) : State :=
  let g := slot s i
  if g.state = .preparing ∧ !g.window ∧ g.blocks.contains b ∧ !g.accepted.contains b then groupFail s i 0x21 b none else s

end Sys2Proof.Machine
end

