-- ==== Sys2Proof/Machine/Access.lean ====
section
/-!
DEFINITION. Register accesses through the views of a page (R41 to R43, R61): what a read answers, what a write changes, and the effects
that the chapters give to particular registers.
-/

namespace Sys2Proof.Machine

/-! ## Requesters -/

/-- The requester that carries a tag other than custody's. -/
def reqOf (tag : Nat) : Requester := if h : tag < 16 then .part ⟨tag, h⟩ else .device

/-! ## Values that a direct write may not leave (R85, R109, R126, R155, R167, R315, R329, R367, R368, R375, R654) -/

/-- A loom register would take the value `w`. -/
def loomMayBe (s : State) (l off idx : Nat) (w : Word) : Bool :=
  let b := bLoom l
  if off = F.LOOM_THDATA0_THETA.off then fldGet F.LOOM_THDATA0_THETA w != 0 && fldGet F.LOOM_THDATA0_GMAX w != 0
  else if off = F.LOOM_DQBASE_BASE.off ∨ off = F.LOOM_DQSIZE_SIZE.off then rd s b F.LOOM_DQCOUNT_COUNT = 0
  else if off = F.LOOM_AFFCFG_AFFBITS.off then
    let ab := fldGet F.LOOM_AFFCFG_AFFBITS w
    ab = 0 || (4 ≤ ab && ab ≤ 12)
  else if off = F.LOOM_RCSIZE_SIZE.off then [0, 4, 8, 16, 32, 64].contains (fldGet F.LOOM_RCSIZE_SIZE w)
  else if off = F.LOOM_BANKOWN_OWNER0.off then ownWriteOk s l w
  else if F.LOOM_CHDATA0_CHAN.off ≤ off ∧ off ≤ F.LOOM_CHDATA7_HOPS5.off then rdI s b F.LOOM_CHDATA0_VALID idx = 0
  else if off = F.LOOM_BTESTINT_CYCLES.off then 256 ≤ fldGet F.LOOM_BTESTINT_CYCLES w
  else if off = F.LOOM_NITHROT_THRON.off then
    let on := fldGet F.LOOM_NITHROT_THRON w
    on = 0 || fldGet F.LOOM_NITHROT_THROFF w < on
  else true

/-- A hub register would take the value `w`: a VALID directory entry changes only by a group, the configuration of an armed ply queue
stays. -/
def hubMayBe (s : State) (b off idx : Nat) (w : Word) : Bool :=
  if F.HUB_DIRDATA0_VALID.off ≤ off ∧ off ≤ F.HUB_DIRDATA3_TAG.off then
    dirKept s b (liveWith s b off idx w) idx
  else if F.HUB_PLYCFG_EXPECT.off ≤ off ∧ off ≤ F.HUB_PLYLAMP_LAMP.off then
    rdI s b F.HUB_PLYCTL_STATE idx != plyArmed
  else true

/-- A direct write outside a transaction may leave the value `w`; where not, it is ignored and counted in TXNREFUSE. -/
def mayBe (s : State) (b off idx : Nat) (w : Word) : Bool :=
  match kindOf b with
  | some .loom => loomMayBe s (b - bLoom 0) off idx w
  | some .hub => hubMayBe s b off idx w
  | some .beat => off != F.BEAT_LEN_NS.off || (lenOk w.toNat && beatRests s)
  | some .timer => !(0x40 ≤ off && off < 0x340 && off % 0x20 = 0) || !timCtlBad w
  | some .apc => !(F.APC_CHDATA0_CHAN.off ≤ off && off ≤ F.APC_CHRBASE_HI_ADDR.off) || rdA s F.APC_CHDATA0_VALID idx = 0
      || (off = F.APC_CHPART_PART.off && fldGet F.APC_CHPART_PART w = rdA s F.APC_CHPART_PART idx)
  | some .power => off != F.POWER_WSTHR_THR.off || fldGet F.POWER_WSTHR_THR w ≤ 224
  | _ => true

/-! ## RWS bits -/

/-- A write of the RWS bits `m` of a register to `v`, by the transaction's state (R61, R64, R68). -/
def rwsWrite (s : State) (r : Requester) (b off idx : Nat) (m v : Word) : State :=
  let ts := rd s b F.TXN_TSTATE
  if m = 0 then s
  else if ts = tsIdle then
    let live := regGet s b off idx
    if !mayBe s b off idx (mergeBits m live v) then txnRefuse s b
    else
      let md := m &&& modeBits off
      let rest := m &&& ~~~modeBits off
      let s := if rest = 0 then s else applyWords (ungrouped s b) b [⟨stKey off idx, rest, v⟩] false
      if md = 0 then s else modeWrite s b md v
  else if ts = tsOpen ∧ rd s b F.TXN_OPENER = tagOf r then
    if kindOf b = some .timer ∧ !mayBe s b off idx (mergeBits m (shadowWord s b off idx) v) then txnRefuse s b
    else stage s b off idx m v
  else txnRefuse s b

/-- The RWS bits that a requester's write takes: expert registers by the control level that counts (R30, R64). -/
def rwsMask (s : State) (k : Kind) (r : Requester) (b off : Nat) : Word :=
  accMask s k r (if rd s b F.TXN_TSTATE = tsIdle then liveExpert s b else stagedExpert s b) off .rws

/-- The bits of expert registers coded RW that a write stages: inside the opener's transaction that stages EXPERT = 1, or that opened on a
latched one (R64). -/
def expertRw (s : State) (k : Kind) (r : Requester) (b off : Nat) : Word :=
  if rd s b F.TXN_TSTATE = tsOpen ∧ rd s b F.TXN_OPENER = tagOf r ∧ stagedExpert s b
      ∧ (isStaged s b F.CONTROL_EXPERT 0 ∨ (ctl s b).latchExpert = some true) then
    accMask s k r true off .rw &&& policyMask k off
  else 0

/-! ## RW bits -/

/-- BEAT: the group registers, BEAT_CTL.MODE and BEAT_HOLD. BEAT_TGSEL and BEAT_TGMIDX select; there is one of each for all slots and
requesters, and slot ownership does not guard them (R65 does not say: DESIGN CHOICE, log entry 90). -/
def beatRw (s : State) (tag off : Nat) (w : Word) : Option State :=
  let v := w.toNat
  if off = F.BEAT_TGCTL_COUNT.off then
    some (if fldGet F.BEAT_TGCTL_COUNT w ≤ 64 then slotWrite s tag true (fun g => { g with count := fldGet F.BEAT_TGCTL_COUNT w }) else s)
  else if off = F.BEAT_TGBEATLO_BEAT.off then some (slotWrite s tag true (fun g => { g with beat := g.beat / 2 ^ 32 * 2 ^ 32 + v }))
  else if off = F.BEAT_TGBEATHI_BEAT.off then some (slotWrite s tag true (fun g => { g with beat := g.beat % 2 ^ 32 + v * 2 ^ 32 }))
  else if off = F.BEAT_TGMID_BLOCK.off then
    some (slotWrite s tag true (fun g => { g with
      members := tabSet 0 g.members (rd s bBeat F.BEAT_TGMIDX_INDEX) (fldGet F.BEAT_TGMID_BLOCK w) }))
  else if off = F.BEAT_TGLINK_HEAD.off then
    some (slotWrite s tag false (fun g => { g with
      head := fldGet F.BEAT_TGLINK_HEAD w, linked := fldGet F.BEAT_TGLINK_LINKED w = 1, nlink := fldGet F.BEAT_TGLINK_NLINK w }))
  else if off = F.BEAT_CTL_MODE.off then some (beatCtl s (v / 16 * 16))
  else if off = F.BEAT_HOLD_HOLD.off then some (holdWrite s (v % 2 = 1))
  else none

/-- LTIME: a change of source, and the rate. -/
def ltimeRw (s : State) (off : Nat) (w : Word) : Option State :=
  if off = F.LTIME_SRC_SRC.off then
    let old := regGet s bLtime off 0
    let s := regSet s bLtime off 0 w
    some (if old = w then s else srcWritten s)
  else if off = F.LTIME_RATE_RATE.off then some (rateWrite s w.toNat)
  else none

/-- SHUTTLE: the shadow set refuses writes while it is armed (R419). -/
def shuttleRw (s : State) (b off : Nat) : Option State :=
  if (sh s (b - bShuttle 0)).armed ∧ F.SH_SRC_LO_ADDR.off ≤ off ∧ off ≤ F.SH_NEXT_HI_ADDR.off then some (inc s b F.SH_REFUSE_COUNT) else none

/-- Port `p` is fused off (R586). -/
def portFusedOff (s : State) (p : Nat) : Bool := bit (fuseByte s 0x52 0) p

/-- GLIMMER: the configuration of a port. -/
def glimmerRw (s : State) (b off : Nat) (w : Word) : Option State :=
  let p := b - bGlimmer 0
  if off = F.GLIM_CFG_EN.off then
    let en := fldGet F.GLIM_CFG_EN w = 1
    let wake := fldGet F.GLIM_CFG_SENDWAKE w = 1
    let s1 := if en != rdB s b F.GLIM_CFG_EN then
        (if portFusedOff s p then txnRefuse s b else glimEn s p en false)
      else s
    some (if wake != rdB s b F.GLIM_CFG_SENDWAKE then sendWake s1 p wake else s1)
  else none

/-- APC: VMPART (R75), the power requests (R647); `m` are the bits that the write names. A write that names bits of PART and would leave
a PART not in ALLOW is ignored whole, its VALID bit too; one that names VALID alone acts (R75 speaks of a write of PART: DESIGN CHOICE,
log entry 92). -/
def apcRw (s : State) (off : Nat) (m w : Word) : Option State :=
  if 0x040 ≤ off ∧ off < 0x0C0 ∧ off % 8 = 4 then
    let part := fldGet F.APC_VMPART_PART w
    some (if m &&& fldMask F.APC_VMPART_PART = 0 ∨ bit (regGet s bApc (off - 4) 0).toNat part then regSet s bApc off 0 w
      else inc s bApc F.ACCVIOL_COUNT)
  else if off = F.APC_PWRREQ_FREEZE.off then
    let z := fldGet F.APC_PWRREQ_FREEZE w
    some (modeWrite (wr s bApc F.APC_PWRREQ_FREEZE z) bPower (fldMask F.CONTROL_FREEZE) (BitVec.ofNat 32 (8 * z)))
  else if off = F.APC_PWRBUDGET_W.off then some (pwrReq s true w false)
  else none

/-- The pins that are outputs take the levels of NETIO_GPOUT. -/
def gpioPins (s : State) : State :=
  send s .gpio bNetio [rd s bNetio F.NETIO_GPDIR_DIR, rd s bNetio F.NETIO_GPOUT_OUT]

/-- NETIO: outputs, and entries handed over. -/
def netioRw (s : State) (off idx : Nat) (w : Word) : Option State :=
  if off = F.NETIO_GPDIR_DIR.off ∨ off = F.NETIO_GPOUT_OUT.off then some (gpioPins (regSet s bNetio off 0 w))
  else if off = F.NETIO_RTAIL_TAIL.off then some (regSet s bNetio off idx w)
  else none

/-- HUB: row isolation, the row select, a ply queue's partition. -/
def hubRw (s : State) (b off idx : Nat) (w : Word) : Option State :=
  let h := b - bHub 0
  if off = F.HUB_ROWSEL_ROW.off then some (if fldGet F.HUB_ROWSEL_ROW w = 3 then s else regSet s b off 0 w)
  else if off = F.HUB_ROWISO_ISO.off then some (rowIso s h idx (fldGet F.HUB_ROWISO_ISO w))
  else if off = F.HUB_PLYPART_PART.off then
    let old := rdI s b F.HUB_PLYPART_PART idx
    let s := wrI s b F.HUB_PLYPART_PART idx (fldGet F.HUB_PLYPART_PART w)
    some (plyMasks (plyMasks s old) (fldGet F.HUB_PLYPART_PART w))
  else none

/-- A write of the RW bits `m` of a register to `v`, by requester `r`. -/
def rwWrite (s : State) (r : Requester) (b off idx : Nat) (m v : Word) : State :=
  if m = 0 then s
  else
    let w := mergeBits m (viewWord s r b off) v
    let special := match kindOf b with
      | some .beat => beatRw s (tagOf r) off w
      | some .ltime => ltimeRw s off w
      | some .shuttle => shuttleRw s b off
      | some .glimmer => glimmerRw s b off w
      | some .laser => if off = F.LASER_CTL_LIGHT.off then some (lasLight s (fldGet F.LASER_CTL_LIGHT w = 1)) else none
      | some .reed =>
        if off = F.REED_I3CDATA_DATA.off then some (i3cPush s (b - bReed 0) w.toNat)
        else if off = F.REED_SYNC_CHAN.off then some (syncFollow s (regSet s b off 0 (mergeBits m (regGet s b off 0) v)))
        else none
      | some .hostport => if off = F.HOSTPORT_WINCTL_EN.off then some (windowEnable s r (fldGet F.HOSTPORT_WINCTL_EN w = 1)) else none
      | some .apc => apcRw s off m w
      | some .netio => netioRw s off idx w
      | some .hub => if mayBe s b off idx w then hubRw s b off idx w else none
      | some .loom => if off = F.LOOM_SEQCTL_RUN.off then some (seqRunWrite s (b - bLoom 0) (fldGet F.LOOM_SEQCTL_RUN w = 1)) else none
      | _ => none
    match special with
    | some s' => s'
    | none =>
      if !mayBe s b off idx w then txnRefuse s b
      else regSet s b off idx (mergeBits m (regGet s b off idx) v)

/-! ## W1C and W1S bits -/

/-- The fault condition of a block that lasts, if any (R50): what POWER, LAMPLIGHTER, FUSE, BEAT and an isolated loom hold as a state.
Every other fault is an event that is over once it is latched (log entry 102). -/
def faultLasts (s : State) (b : Nat) : Option Nat :=
  match kindOf b with
  | some .power =>
    if s.pw.tripped then some 0x0E01 else if s.pw.railFault then some 0x0E03 else if s.pw.rc then some 0x0E04
    else if rdB s bPower F.POWER_STAT_THROTTLE then some 0x0E02 else none
  | some .lamplighter => if s.ll.lanternGone then some 0x0D02 else none
  | some .fuse =>
    if rd s bFuse F.FUSE_BOOTSTAT_FAILSTEP ≠ 0 then some 0x0C02
    else if s.nv.fuseErr.any (fun e => e.2 == 2) then some 0x0C01 else none
  | some .beat => if s.beat.lagAbove ∧ rd s bBeat F.BEAT_LAGMAX_NS < beatLag s then some 0x0202 else none
  | some .hub => if (hub s (b - bHub 0)).selvDown then some 0x0303 else none
  | some .loom =>
    let l := b - bLoom 0
    let site := loomSite s l
    if site ≤ 16 ∧ bit (rdI s (bHub (loomRow l).1) F.HUB_ROWISO_ISO (loomRow l).2.1) site then some 0x8005 else none
  | _ => none

/-- A write of W1C bits: each 1 clears its bit; clearing FAULTCAUSE.VALID clears the cause, and a condition that lasts sets it again with
its own cause (R50). -/
def w1cWrite (s : State) (b off idx : Nat) (m v : Word) : State :=
  let s' := regSet s b off idx (regGet s b off idx &&& ~~~(m &&& v))
  if m &&& v = 0 then s
  else if off = F.FAULTCAUSE_VALID.off then
    let s' := regSet s' b off idx 0
    match faultLasts s b with
    | some c => latchFault s' b c
    | none => s'
  else s'

/-- A write of W1S bits: each 1 sets its bit. The one such field releases laser modules (R527); its bit stays set until the module goes
(log entry 61). -/
def w1sWrite (s : State) (b off : Nat) (m v : Word) : State :=
  if b = bLaser ∧ off = F.LASER_CTL_RELEASE.off ∧ m &&& v ≠ 0 then
    forEach [0, 1] (fun k s => if bit (m &&& v).toNat (k + 1) then lasRelease s k else s)
      (regSet s b off 0 (regGet s b off 0 ||| (m &&& v)))
  else s

/-! ## Write-only bits: what a write of them does -/

/-- What the harts other than the writer do is not stated of an access that does not come with it: a free value (R650). -/
def sleepWrite (s : State) (target : Nat) : State :=
  let f := drawFree s
  if target = 0 then sleepLeave s else sleepRequest f.2 target (f.1 % 2 = 1)

/-- LAMPLIGHTER. -/
def llDo (s : State) (off v : Nat) : State :=
  if off = F.LL_CTL_FAULTCLR.off then
    let s := if bit v 0 then faultClear s else s
    let s := if bit v 1 then handover s else s
    if bit v 2 then dumpStart s bLamplighter 0 none else s
  else if off = F.LL_CKPTCTL_GO.off ∧ bit v 0 then ckptGo s
  else s

/-- SHUTTLE. -/
def shuttleDo (s : State) (k off v : Nat) : State :=
  if off = F.SH_CTL_GO.off then
    let s := if bit v 0 then shGo s k else s
    if bit v 1 then shAbort s k else s
  else s

/-- The lamp that the window of a hub names. -/
def lampSel (s : State) (b : Nat) : Nat := rd s b F.HUB_LAMPSEL_INDEX

/-- HUB_WATCHCTL: ARM places a watch of the writer on the window slot, CANCEL withdraws it and frees the slot; with all 64
slots in use an ARM is refused, and what its slot waits for stays (R398, R405, log entry 60). -/
def watchDo (s : State) (tag b op : Nat) : State :=
  let h := b - bHub 0
  let i := rd s b F.HUB_WATCHSEL_SLOT
  let who := 1536 + i
  if op = 1 ∧ (List.range 64).all (fun j => (hub s h).watches.any (fun w => w.who = 1536 + j)) then
    inc (wrI s b F.HUB_WATCHCTL_STATUS i wsRefused) b F.HUB_WATCHFULL_COUNT
  else if op = 1 then
    let s := if lampOk s h (lampSel s b) tag then
        modHub (wrI s b F.HUB_WATCHCTL_STATUS i wsWaiting) h (fun x => { x with winOwner := tabSet 0 x.winOwner i (tag + 1) })
      else s
    loomWatch s h who (lampSel s b) tag (rdI s b F.HUB_WATCHTGT_LO_TARGET i + rdI s b F.HUB_WATCHTGT_HI_TARGET i * 2 ^ 32)
      (rdI s b F.HUB_WATCHTMO_NS i) 0
  else if op = 2 then
    modHub (wrI (watchCancel s h who) b F.HUB_WATCHCTL_STATUS i wsIdle) h (fun x => { x with winOwner := tabSet 0 x.winOwner i 0 })
  else s

/-- HUB. -/
def hubDo (s : State) (r : Requester) (b off v : Nat) : State :=
  let h := b - bHub 0
  let tag := tagOf r
  let q := rd s b F.HUB_PLYSEL_INDEX
  if off = F.HUB_PLYCTL_OP.off then
    (if v % 4 = 1 then plyArm s h q else if v % 4 = 2 then plyDisarm s h q
     else if v % 4 = 3 ∧ isCustody r then plyForce s h q else s)
  else if off = F.HUB_ROWGO_GO.off then (if bit v 0 ∧ isCustody r then rowGo s h (rd s b F.HUB_ROWSEL_ROW) else s)
  else if off = F.HUB_LAMPADD_LO_ADD.off then modHub s h (fun x => { x with addLo := tabSet 0 x.addLo tag v })
  else if off = F.HUB_LAMPADD_HI_ADD.off then lampAdd s h (lampSel s b) tag (tabGet 0 (hub s h).addLo tag + v * 2 ^ 32)
  else if off = F.HUB_LAMPFORCE_LO_VALUE.off then modHub s h (fun x => { x with forceLo := tabSet 0 x.forceLo tag v })
  else if off = F.HUB_LAMPFORCE_HI_VALUE.off then lampForce s h (lampSel s b) (tabGet 0 (hub s h).forceLo tag + v * 2 ^ 32)
  else if off = F.HUB_WATCHCTL_OP.off then watchDo s tag b (v % 4)
  else s

/-- LOOM. -/
def loomDo (s : State) (l off v : Nat) : State :=
  let b := bLoom l
  if off = F.LOOM_RCINV_INV.off then (if bit v 0 then modLoom s l (fun m => { m with rcinvPending := true }) else s)
  else if off = F.LOOM_BRUN_INDEX.off then
    (if bit v 31 then
      let p := brunStart s l (v % 32)
      if p.1 then p.2 else wr p.2 b F.LOOM_BSTAT_REFUSED 1
     else s)
  else if off = F.LOOM_SEQCTL_RESTART.off then (if bit v 1 then seqRestart s l else s)
  else if off = F.LOOM_BREMAP_BANK.off then (if bit v 31 then moveStart s l (v % 8) else s)
  else if off = F.LOOM_CHCTL_CLOSE.off then (if bit v 0 then chClose s l (rd s b F.LOOM_CHSEL_INDEX) else s)
  else s

/-- ARM: a run that starts from IDLE takes up the checkpoint that fits it (R268, log entry 52). -/
def armRun (s : State) : State :=
  let t := beatArm s
  if beatState s = stIdle ∧ beatState t = stArmed then ckptRestore t else t

/-- What a main-page write does besides setting bits. -/
def writeDo (s : State) (r : Requester) (b off v : Nat) : State :=
  if off = F.TXN_OP.off then txnOp s r b (v % 4)
  else match kindOf b with
  | some .custody => if off = F.CUSTODY_CMD_CODE.off then custodyCommand s r (v % 256) [] [] else s
  | some .lamplighter => llDo s off v
  | some .fuse => if off = F.FUSE_TRECINV_GO.off ∧ bit v 0 ∧ isCustody r then trecInvalidate s else s
  | some .power => if off = F.POWER_SLEEP_TARGET.off then sleepWrite s (v % 4) else s
  | some .beat =>
    if off = F.BEAT_TGCTL_OP.off then slotOp s (v % 4)
    else if off = F.BEAT_CTL_OP.off then (if v % 4 = 1 then armRun s else if v % 4 = 2 then beatStop s else s)
    else s
  | some .ltime =>
    if off = F.LTIME_STEP_LO_STEP.off then wr s b F.LTIME_STEP_LO_STEP v
    else if off = F.LTIME_STEP_HI_STEP.off then timStep (stepHi s v) (ltNow s) else s
  | some .timer => if off = F.TIMER_STARTGO_MASK.off then timStartGo s (v % 2 ^ 24) else s
  | some .hbmc => if off = F.HBMC_POISONCLR_GO.off ∧ bit v 0 ∧ isCustody r then poisonClear s (b - bHbmc 0) else s
  | some .memcrypt =>
    if off = F.MC_REGCTL_OP.off ∧ r = .custody .lantern then
      (if v % 4 = 1 then mcApply s (rd s b F.MC_REGSEL_INDEX) else if v % 4 = 2 then mcWipe s (rd s b F.MC_REGSEL_INDEX) else s)
    else s
  | some .shuttle => shuttleDo s (b - bShuttle 0) off v
  | some .reed => if off = F.REED_I3CCMD_ADDR.off then i3cStart s (b - bReed 0) v else s
  | some .hostport => if off = F.HOSTPORT_DOORBELL_VECTOR.off then doorbell s r (v % 32) else s
  | some .apc =>
    if off = F.APC_PWRREQ_SLEEP.off then (if v % 4 = 0 then wakeSource s 5 else sleepWrite s (v % 4))
    else if off = F.APC_CHSEND_LO_ADDR.off then wr s b F.APC_CHSEND_LO_ADDR (v / 8)
    else if off = F.APC_CHSEND_HI_ADDR.off then apcSend s v
    else if off = F.APC_CHDONE_DONE.off ∧ bit v 0 then apcDone s
    else s
  | some .hub => hubDo s r b off v
  | some .loom => loomDo s (b - bLoom 0) off v
  | _ => s

/-! ## Whole writes -/

/-- A block-specific event that its own registers enable is pending (R76). -/
def eventLine (s : State) (b : Nat) : Bool :=
  match kindOf b with
  | some .shuttle => (regGet s b F.SH_EVENT_DONE.off 0 &&& regGet s b F.SH_EVENTEN_EN.off 0) != 0
  | some .netio => (regGet s b F.NETIO_GPEVENT_EVENT.off 0 &&& regGet s b F.NETIO_GPIRQEN_EN.off 0) != 0
  | some .hub => (List.range 64).any (fun i => rdI s b F.HUB_WATCHCTL_IRQEN i = 1 && 2 ≤ rdI s b F.HUB_WATCHCTL_STATUS i)
  | some .timer => (List.range 24).any (fun c =>
      let e := rdT s c F.TIMER_CTL_IRQEN
      (bit e 0 && maskBit s F.TIMER_EVWRAP_EV c) || (bit e 1 && maskBit s F.TIMER_EVMATCH_EV c) || (bit e 2 && maskBit s F.TIMER_EVCAP_EV c))
  | some .custody => rdB s b F.CUSTODY_CSTAT_DONE
  | some .glimmer => rdB s b F.GLIM_STAT_LOSTSEEN
  | some .apc => apcArrived s || ioReg s ioIpsr != 0
  | _ => false

/-- A write that enables what is pending asserts the block's line: an event, or a valid fault that FAULTMASK no longer masks. -/
def lineFollow (old s : State) (b : Nat) : State :=
  let s := if eventLine s b && !eventLine old b && regGet s b F.SH_EVENT_DONE.off 0 == regGet old b F.SH_EVENT_DONE.off 0
      then send s .apc b [1] else s
  let m := rd s b F.FAULTMASK_MASK
  if rdB s b F.FAULTCAUSE_VALID ∧ rdB old b F.FAULTCAUSE_VALID ∧ m ≠ rd old b F.FAULTMASK_MASK then faultLine s b m (rd s b F.FAULTCAUSE_CAUSE) else s

/-- The job registers of the GLIMMER page exist on port 0 only, and read as reserved on the others (R528, R8). -/
def reservedAt (b off : Nat) : Bool := bGlimmer 0 < b && b ≤ bGlimmer 7 && 0x080 ≤ off && off < 0x800

/-- A block that takes rungs of the reset ladder (R624, R625). -/
def onLadder (b : Nat) : Bool :=
  match kindOf b with
  | some .hbmc | some .memcrypt | some .apc | some .netio | some .hub | some .seam | some .beat | some .reed | some .glimmer
  | some .ltime | some .timer | some .hostport => true
  | some .shuttle => 48 ≤ b - bShuttle 0
  | _ => false

/-- RESET_REQ: the block reset, which is the first rung of the ladder and counts as an entry to it (R48, R624, R627; log entry 103). -/
def resetAsked (s : State) (b : Nat) : State :=
  let t := blockReset s b
  if rdB s b F.STATE_RESETTING ∨ !rdB t b F.STATE_RESETTING ∨ !onLadder b ∨ !llRuns t ∨ t.ll.rungs.any (fun r => r.block == b || r.waits.contains b)
  then t
  else
    let t := modLl t (fun x => { x with rung1 := ((b, ltNow t) :: x.rung1).take 256 })
    rungAdd (rungCount t 1) ⟨1, b, [b], 0, ltNow t⟩

/-- A write through the main page. -/
def putMain (s : State) (r : Requester) (b off : Nat) (v : Word) : State :=
  match kindOf b with
  | none => s
  | some k =>
    if reservedAt b off then s
    else if off = F.CONTROL_RESETREQ.off ∧ fldGet F.CONTROL_RESETREQ v = 1 then resetAsked s b
    else
      let idx := selIndex s r b off
      let m := fun (a : Acc) => accMask s k r (liveExpert s b) off a
      let x := expertRw s k r b off
      let s1 := rwsWrite s r b off idx (rwsMask s k r b off ||| x) v
      let s1 := rwWrite s1 r b off idx (m .rw &&& ~~~x) v
      let s1 := w1cWrite s1 b off idx (m .w1c) v
      let s1 := w1sWrite s1 b off (m .w1s) v
      lineFollow s (writeDo s1 r b off v.toNat) b

/-- A write through an alias: the RW and RWS bits written as 1 are set or cleared (R42, R43). -/
def putAlias (s : State) (r : Requester) (b off : Nat) (set : Bool) (v : Word) : State :=
  match kindOf b with
  | none => s
  | some k =>
    if reservedAt b off then s else
    let idx := selIndex s r b off
    let w : Word := if set then BitVec.allOnes 32 else 0
    let x := expertRw s k r b off
    let s1 := rwsWrite s r b off idx ((rwsMask s k r b off ||| x) &&& v) w
    lineFollow s (rwWrite s1 r b off idx (accMask s k r (liveExpert s b) off .rw &&& ~~~x &&& v) w) b

/-- A write through the shadow view: RWS bits are staged; refused while no transaction is open (R61). -/
def putShadow (s : State) (r : Requester) (b off : Nat) (v : Word) : State :=
  match kindOf b with
  | none => s
  | some k =>
    if rd s b F.TXN_TSTATE = tsIdle then txnRefuse s b
    else if reservedAt b off then s
    else rwsWrite s r b off (selIndex s r b off) (rwsMask s k r b off ||| expertRw s k r b off) v

/-- The four views of a frame (R41). -/
inductive View where
  | main | bitSet | bitClear | shadow
  deriving DecidableEq, Repr

/-- A write through a view. -/
def put (s : State) (r : Requester) (w : View) (b off : Nat) (v : Word) : State :=
  match w with
  | .main => putMain s r b off v
  | .bitSet => putAlias s r b off true v
  | .bitClear => putAlias s r b off false v
  | .shadow => putShadow s r b off v

/-- A read through a view. -/
def get (s : State) (r : Requester) (w : View) (b off : Nat) : Word × State :=
  match w with
  | .main => readMain s r b off
  | .shadow => readShadow s r b off
  | _ => readAlias s r b off

/-! ## Accesses -/

/-- A write of a group slot's registers from a requester other than its owner is refused (R65). -/
def slotRefuses (s : State) (r : Requester) (b off : Nat) : Bool :=
  b = bBeat && (off = F.BEAT_TGCTL_OP.off || off = F.BEAT_TGBEATLO_BEAT.off || off = F.BEAT_TGBEATHI_BEAT.off
    || off = F.BEAT_TGMID_BLOCK.off || off = F.BEAT_TGLINK_HEAD.off) && !slotMay s (tagOf r)

/-- A lamp operation through the window on a lamp outside the requester's partition is refused (R393, R394). -/
def lampRefuses (s : State) (r : Requester) (b off : Nat) (isWrite : Bool) : Bool :=
  kindOf b = some .hub
    && (if isWrite then off = F.HUB_LAMPADD_HI_ADD.off else off = F.HUB_LAMPVAL_LO_VALUE.off || off = F.HUB_LAMPVAL_HI_VALUE.off)
    && !lampOk s (b - bHub 0) (lampSel s b) (tagOf r)

/-- An access that reached its block, with the refusals that the block itself makes: success, data, state. -/
def blockAccess (s : State) (r : Requester) (b off : Nat) (isWrite : Bool) (v : Word) (f : State → Word × State) :
    Bool × Word × State :=
  if isWrite && slotRefuses s r b off then
    (match access s r b off isWrite v (fun s => (0, s)) with
     | (true, _, s') => (false, 0, inc s' b F.ACCVIOL_COUNT)
     | p => p)
  else if lampRefuses s r b off isWrite then
    (match access s r b off isWrite v (fun s => (0, s)) with
     | (true, _, s') => (false, 0, inc s' b F.HUB_LAMPREFUSE_COUNT)
     | p => p)
  else access s r b off isWrite v f

/-- An access by any requester: `f` acts for the requester that the block sees. -/
def anyAccess (s : State) (r : Requester) (b off : Nat) (isWrite : Bool) (v : Word) (f : Requester → State → Word × State) :
    Bool × Word × State :=
  match who s r with
  | some q => blockAccess s q b off isWrite v (f q)
  | none => vmRefuse s b off isWrite

/-- A register write. -/
def regWrite (s : State) (r : Requester) (w : View) (b off : Nat) (v : Word) : Bool × Word × State :=
  anyAccess s r b off true v (fun q s => (0, put s q w b off v))

/-- A register read. -/
def regRead (s : State) (r : Requester) (w : View) (b off : Nat) : Bool × Word × State :=
  anyAccess s r b off false 0 (fun q s => get s q w b off)

/-- The selvedge link of the hub that serves a block is down: register accesses across it reach nothing (R365). -/
def selvCut (s : State) (b : Nat) : Bool :=
  match hubOf b with
  | some h => (hub s (h - bHub 0)).selvDown
  | none => false

/-- The block whose selvedge request an access of requester `r` is: the application cluster's for a hart or the device, LAMPLIGHTER's and
CUSTODY's own, HOSTPORT's for a partition's function (log entry 104). -/
def requestBlock : Requester → Nat
  | .hart .. | .device => bApc
  | .custody .lamplighter => bLamplighter
  | .custody _ => bCustody
  | .part _ => bHostport

/-- An access across a down link: no answer comes within 20 µs. It ends in an error response, changes nothing at its target, and the block
that asked latches SELVTIMEOUT (R51, R365). -/
def cutAnswer (s : State) (r : Requester) : Bool × Word × State := (false, 0, latchFault s (requestBlock r) 0x8002)

/-- The response of an access on the bus, with what an error does at a hart. -/
def busAnswer (s : State) (r : Requester) (b : Nat) (isWrite : Bool) (p : Bool × Word × State) : State :=
  let p := if selvCut s b then cutAnswer s r else p
  hartSees r isWrite p.1 (accessSend (asReq s r) p)

/-- A write to a register of a block with an effect of its own row, with the gate's checks. -/
def regDo (s : State) (r : Requester) (b off : Nat) (v : Word) (f : State → State) : State :=
  busAnswer s r b true (anyAccess s r b off true v (fun _ s => (0, f s)))

/-- A register write whose response goes out on the bus. -/
def busWrite (s : State) (r : Requester) (w : View) (b off : Nat) (v : Word) : State := busAnswer s r b true (regWrite s r w b off v)

/-- A register read whose response goes out on the bus. -/
def busRead (s : State) (r : Requester) (w : View) (b off : Nat) : State := busAnswer s r b false (regRead s r w b off)

/-- The response to an access of a register pair: success of both halves, and their data, lower first. -/
def pairAnswer (s : State) (r : Requester) (b : Nat) (isWrite : Bool) (lo hi : Bool × Word × State) : State :=
  let ok := lo.1 && hi.1 && !selvCut s b
  let t := if selvCut s b then (cutAnswer s r).2.2 else hi.2.2
  hartSees r isWrite ok (send t .resp (tagOf (asReq s r)) (if ok then [1, lo.2.1.toNat, hi.2.1.toNat] else [0, 0]))

/-- An access that is neither an aligned 32-bit one nor an aligned pair completes with an error response (R39). -/
def widthError (s : State) (r : Requester) (isWrite : Bool) : State := hartSees r isWrite false (accessSend (asReq s r) (false, 0, s))

/-- An access of a hart at address `p` of the cluster's private space (R37, R74), of one word or an aligned pair. -/
def privBus (s : State) (r : Requester) (p : Nat) (isWrite : Bool) (v : Word) (wd : Width) : State :=
  let data := match wd with
    | .word => [v]
    | .pair hi => [v, hi]
    | .other => []
  if data.isEmpty ∨ p % (4 * data.length) ≠ 0 then widthError s r isWrite
  else if isWrite then
    let x := privWrite s p (data.flatMap (fun w => leBytes 4 w.toNat))
    hartSees r true x.1 (send x.2 .resp 0x1F [x.1.toNat, 0])
  else match privRead s p (4 * data.length) with
    | some bs => send s .resp 0x1F (1 :: (List.range data.length).map (fun i => leNat ((bs.drop (4 * i)).take 4)))
    | none => hartSees r false false (send s .resp 0x1F [0, 0])

/-- A hart's access at frame `b` and offset `off` reaches the private space: frames from 0x10000 on, by their place behind the control
region's base (R37, log entry 129). Other requesters have no way there. -/
def privFrame (r : Requester) (b : Nat) : Bool :=
  match r with
  | .hart .. => 0x10000 ≤ b && b < 0x20000
  | _ => false

/-- The address of frame `b` and offset `off` (R37, R40). -/
def privAddr (b off : Nat) : Nat := 0x4000000000 + 0x10000 * b + off

/-- A register write of a width: an aligned pair is two 32-bit accesses, lower address first (R39). -/
def busWriteB (s : State) (r : Requester) (w : View) (b off : Nat) (v : Word) : Width → State
  | .word => busWrite s r w b off v
  | .pair hi =>
    if off % 8 ≠ 0 then widthError s r true
    else
      let p := regWrite s r w b off v
      pairAnswer s r b true p (regWrite p.2.2 r w b (off + 4) hi)
  | .other => widthError s r true

/-- A register read of a width. -/
def busReadB (s : State) (r : Requester) (w : View) (b off : Nat) : Width → State
  | .word => busRead s r w b off
  | .pair _ =>
    if off % 8 ≠ 0 then widthError s r false
    else
      let p := regRead s r w b off
      pairAnswer s r b false p (regRead p.2.2 r w b (off + 4))
  | .other => widthError s r false

/-- A write of a width, of a register or by a hart in the private space. -/
def busWriteW (s : State) (r : Requester) (w : View) (b off : Nat) (v : Word) (wd : Width) : State :=
  if privFrame r b then privBus s r (privAddr b off) true v wd else busWriteB s r w b off v wd

/-- A read of a width likewise. -/
def busReadW (s : State) (r : Requester) (w : View) (b off : Nat) (wd : Width) : State :=
  if privFrame r b then privBus s r (privAddr b off) false 0 wd else busReadB s r w b off wd

/-- An access at an offset of the control region (R37, R38, R41): frame, view and page offset; a reserved part of a frame reads 0 and
ignores writes, and the frame still decides whether anything answers. -/
def viewOf (a : Nat) : Option View :=
  let o := a % 0x10000
  if o < 0x1000 then some .main
  else if 0x4000 ≤ o ∧ o < 0x5000 then some .bitSet
  else if 0x8000 ≤ o ∧ o < 0x9000 then some .bitClear
  else if 0xC000 ≤ o ∧ o < 0xD000 then some .shadow
  else none

/-- A 32-bit access at control-region offset `a`. -/
def ctlAccess (s : State) (r : Requester) (a : Nat) (isWrite : Bool) (v : Word) : Bool × Word × State :=
  let b := a / 0x10000
  match viewOf a with
  | some w => if isWrite then regWrite s r w b (a % 0x1000) v else regRead s r w b (a % 0x1000)
  | none => anyAccess s r b (0x7FC + a % 4) isWrite v (fun _ s => (0, s))

end Sys2Proof.Machine
end

