-- ==== Sys2Proof/Machine/SeqAlu.lean ====
section
/-!
DEFINITION. Instruction words, fetch and issue, and the instructions that touch only the sequencer: functions of registers
and constants, branches, SYS and TRAP (R289, R291 to R294).
-/

namespace Sys2Proof.Machine

/-! ## Instruction words (R291) -/

/-- Shape T. -/
def tWord (fam d a b sel : Nat) : Nat := fam + d * 2 ^ 6 + a * 2 ^ 11 + b * 2 ^ 16 + sel * 2 ^ 21
/-- Shape K. -/
def kWord (fam d a k : Nat) : Nat := fam + d * 2 ^ 6 + a * 2 ^ 11 + k * 2 ^ 16
/-- Shape P: C stands where D does. -/
def pWord (fam c a k : Nat) : Nat := kWord fam c a k
/-- Shape L. -/
def lWord (fam d k : Nat) : Nat := fam + d * 2 ^ 6 + k * 2 ^ 11

/-- Which fields of a T word a function uses: D, A, B. -/
def tUses (fam sel : Nat) : Option (Bool × Bool × Bool) :=
  if fam = 0x01 then
    if sel = 0x011 ∨ sel = 0x012 then some (true, true, false) else if sel ≤ 0x018 then some (true, true, true) else none
  else if fam = 0x1C then (if sel ≤ 2 then some (true, true, true) else none)
  else if fam = 0x1D then (if sel ≤ 1 then some (true, true, false) else none)
  else if fam = 0x1E then (if sel ≤ 1 then some (false, true, true) else none)
  else if fam = 0x28 then
    if sel ≤ 4 then some (false, false, false) else if 8 ≤ sel ∧ sel ≤ 12 then some (true, false, false) else none
  else if fam = 0x30 then (if sel ≤ 15 then some (false, true, true) else none)
  else if fam = 0x31 then
    if sel = 0 then some (true, true, false) else if sel = 1 then some (false, false, false)
    else if sel = 2 then some (true, false, false) else none
  else if fam = 0x32 then (if sel ≤ 2 then some (true, true, false) else none)
  else if fam = 0x33 then (if sel ≤ 1 then some (true, true, true) else if sel ≤ 3 then some (true, true, false) else none)
  else if fam = 0x34 then (if sel ≤ 2 then some (true, true, true) else none)
  else if fam = 0x35 then (if sel = 0 then some (true, true, true) else none)
  else none

/-- The families of shape T. -/
def famT (fam : Nat) : Bool := fam = 0x01 || (0x1C ≤ fam && fam ≤ 0x1E) || fam = 0x28 || (0x30 ≤ fam && fam ≤ 0x35)

/-- A word with a defined encoding and no non-zero unused field (R291). -/
def legalWord (w : Nat) : Bool :=
  let fam := bits w 5 0
  if famT fam then
    match tUses fam (bits w 31 21) with
    | none => false
    | some (d, a, b) => (d || bits w 10 6 = 0) && (a || bits w 15 11 = 0) && (b || bits w 20 16 = 0)
  else if fam = 0x08 then bits w 31 24 = 0
  else if fam = 0x29 then bits w 10 6 = 0
  else (0x02 ≤ fam && fam ≤ 0x0B) || (0x10 ≤ fam && fam ≤ 0x16) || (0x18 ≤ fam && fam ≤ 0x1B)
    || (0x20 ≤ fam && fam ≤ 0x27)

/-! ## Fetch (R289) -/

/-- What a fetch gives. -/
inductive Fetch where
  /-- The bank drains, moves or is under test: the fetch is held. -/
  | held
  /-- An unowned bank. -/
  | refused
  /-- The PC is past 0x7_FFFC. -/
  | past
  /-- An uncorrectable word in the line that is read. -/
  | broken
  | word (w : Nat) (s : State)

/-- Lines of the instruction buffer: 8 KiB of 64 bytes. -/
abbrev ibufLines : Nat := 128

/-- A line is read into the instruction buffer: single-bit errors are corrected and counted (R326, R328). -/
def fetchMend (s : State) (l line : Nat) : State :=
  if (loom s l).xErr1.isEmpty then s else scratchMend s l (placesOf s l (64 * line) 64)

/-- Fetches the word at the PC through the instruction buffer. Which line gives way is a free value (log entry 3). While the
package sleeps in S1 the loom clocks are gated and nothing is fetched (R648). -/
def fetch (s : State) (l : Nat) : Fetch :=
  let q := seqOf s l
  let pc := seqPc q
  if rd s bPower F.POWER_STAT_STATE ≠ 0 then .held
  else if 0x7FFFC < pc then .past
  else
    let line := pc / 64
    let pickOf := fun (d : Nat) => bits d (8 * (pc % 64) + 31) (8 * (pc % 64))
    if owner s l (pc / 65536) ≠ ownSeq then .refused
    else match q.ibuf.find? (fun e => e.1 = line) with
      | some e => .word (pickOf e.2) s
      | none =>
        if scrHeld s l (64 * line) 64 then .held
        else if scrBroken s l (64 * line) 64 then .broken
        else
        let d := scrNat s l (64 * line) 64
        let s := inc (fetchMend s l line) (bLoom l) F.LOOM_SEQIMISS_COUNT
        let r : List (Nat × Nat) × State := if q.ibuf.length < ibufLines then (q.ibuf, s)
          else let f := drawFree s
            (q.ibuf.eraseIdx (f.1 % ibufLines), f.2)
        .word (pickOf d) (modSeq r.2 l (fun q => { q with ibuf := r.1 ++ [(line, d)] }))

/-! ## Issue -/

/-- How an instruction ends. -/
inductive SeqEnd where
  /-- Done: the PC moves on by 4. -/
  | next (s : State)
  /-- Done: the PC is set. -/
  | jump (s : State) (pc : Nat)
  /-- A trap at this instruction. -/
  | trap (s : State) (cause val : Nat)
  /-- Done: the PC stands as the effect left it. -/
  | fin (s : State)
  /-- It blocks: the PC stays at it. -/
  | stay (s : State)

/-- Finishes an instruction. -/
def seqEnd (l : Nat) : SeqEnd → State
  | .next s => inc (modSeq s l (fun q => seqSetPc q (seqPc q + 4))) (bLoom l) F.LOOM_SEQINSTR_COUNT
  | .jump s pc => inc (modSeq s l (fun q => seqSetPc q pc)) (bLoom l) F.LOOM_SEQINSTR_COUNT
  | .trap s c v => seqTrap s l c v
  | .fin s => inc s (bLoom l) F.LOOM_SEQINSTR_COUNT
  | .stay s => s

/-- Issues the instruction `w` of loom `l`: where the sequencer runs code, is not blocked and fetches exactly this word,
`f` is its effect. A refused fetch traps; a word other than `w` is not this command's instruction, and nothing happens. -/
def seqIssue (s : State) (l w : Nat) (f : State → SeqEnd) : State :=
  let q := seqOf s l
  if (seqCtx q).isNone || q.wait.isSome then s
  else match fetch s l with
    | .held => s
    | .past => seqTrap s l tcFetch (seqPc q)
    | .refused => seqTrap (inc s (bLoom l) F.LOOM_BOWNREFUSE_COUNT) l tcFetch (seqPc q)
    | .broken => seqHalt s l 0x0111
    | .word x s' => if x = w then seqEnd l (f s') else s

/-- Writes a result and goes on. -/
def seqDest (l d : Nat) (v : W64) (s : State) : SeqEnd := .next (modSeq s l (fun q => gWrite q d v))

/-- An instruction that yields a VALUE record: it completes only once the staging buffer of the pick log takes it (R614). -/
def seqLogged (s : State) (l : Nat) (f : State → SeqEnd) : SeqEnd := if logFull s l then .stay s else f s

/-- Writes a result that the pick log records under a source of R613. -/
def seqDestLog (l src d : Nat) (v : W64) (s : State) : SeqEnd := seqDest l d v (logValue s l src v)

/-- An instruction whose result is a function of the registers it reads. -/
def seqFn (s : State) (l w d : Nat) (f : Seq → W64) : State :=
  seqIssue s l w (fun s => seqDest l d (f (seqOf s l)) s)

/-- A function of A and B (R293). -/
def opr (s : State) (l : Nat) (d a b : Nat) (sel : Nat) (f : W64 → W64 → W64) : State :=
  seqFn s l (tWord 0x01 d a b sel) d (fun q => f (gRead q a) (gRead q b))

/-- A function of A and a constant. -/
def opk (s : State) (l : Nat) (fam d a : Nat) (k : BitVec 16) (f : W64 → W64) : State :=
  seqFn s l (kWord fam d a k.toNat) d (fun q => f (gRead q a))

/-- A division: DIVZERO for a divisor of 0. -/
def opDiv (s : State) (l : Nat) (d a b : Nat) (sel : Nat) (f : W64 → W64 → W64) : State :=
  seqIssue s l (tWord 0x01 d a b sel) (fun s =>
    let q := seqOf s l
    if gRead q b = 0 then .trap s tcDivzero (gRead q a).toNat else seqDest l d (f (gRead q a) (gRead q b)) s)

/-- 1 for true. -/
def flag64 (b : Bool) : W64 := if b then 1 else 0

/-- sext(K16). -/
def sx16 (k : BitVec 16) : W64 := k.signExtend 64
/-- zext(K16). -/
def zx16 (k : BitVec 16) : W64 := k.zeroExtend 64

/-- RNE: shift right with round half to even, A signed. -/
def rne64 (a : W64) (n : Nat) : W64 := BitVec.ofInt 64 (rshiftRne a.toInt n)

/-- SATS: A clamped to w bits, 0 meaning 64. -/
def sats (a b : W64) : W64 :=
  let w := (b.toNat % 64)
  if w = 0 then a else BitVec.ofInt 64 (clampI (-(2 ^ (w - 1))) (2 ^ (w - 1) - 1) a.toInt)

/-- SHK (R292). -/
def shk (k : Nat) (a : W64) : W64 :=
  let n := bits k 5 0
  let m := bits k 7 6
  if m = 0 then a <<< n else if m = 1 then a >>> n else if m = 2 then a.sshiftRight n else rne64 a n

/-- A conditional branch (R292): C stands in bits [10:6]. -/
def branch (s : State) (l fam c a : Nat) (k : BitVec 16) (p : W64 → W64 → Bool) : State :=
  seqIssue s l (pWord fam c a k.toNat) (fun s =>
    let q := seqOf s l
    let goal := (BitVec.ofNat 64 (seqPc q) + 4 * sx16 k).toNat
    if p (gRead q a) (gRead q c) then .jump s goal else .next s)

/-- YIELD (R294, R298). -/
def seqYield (s : State) (l : Nat) : SeqEnd :=
  let q := seqOf s l
  match q.trap with
  | some t => if t.ctx = 0 then .fin (trapReturn s l 4) else .fin (actYield s l)
  | none => if q.act.isSome then .fin (actYield s l) else .next s

/-- END (R279, R294, R298). -/
def seqEndMain (s : State) (l w : Nat) : SeqEnd :=
  let q := seqOf s l
  if seqAct q = 0 then .fin (modSeq s l (fun q => { q with main := false, trap := none, wait := none }))
  else .trap s tcIllegal w

/-- TRET and TRETS. -/
def seqTret (s : State) (l w skip : Nat) : SeqEnd :=
  if (seqOf s l).trap.isSome then .fin (trapReturn s l skip) else .trap s tcIllegal w

end Sys2Proof.Machine
end

