-- ==== Sys2Proof/Machine/SeqBasic.lean ====
section
/-!
DEFINITION. The meanings of the sequencer's instructions that touch only the sequencer: OPR and constant functions, branches,
SYS and TRAP (R292 to R294), and its events: dispatch, budget, handler limit, illegal words.
-/

namespace Sys2Proof.Machine

/-- The outcome of a command that always has an effect or leaves the state as it is. -/
abbrev Out' := Host.Outcome State Fault Refusal

/-! ## OPR (R293) -/

/-- SUM: A + B. -/
def execSum (l : LoomId) (d a b : GReg) (s : State) : Out' :=
  .next (opr s l d a b 0x000 (fun a b => a + b))

/-- DIFF: A − B. -/
def execDiff (l : LoomId) (d a b : GReg) (s : State) : Out' :=
  .next (opr s l d a b 0x001 (fun a b => a - b))

/-- AND: A AND B. -/
def execAnd (l : LoomId) (d a b : GReg) (s : State) : Out' :=
  .next (opr s l d a b 0x002 (fun a b => a &&& b))

/-- OR: A OR B. -/
def execOr (l : LoomId) (d a b : GReg) (s : State) : Out' :=
  .next (opr s l d a b 0x003 (fun a b => a ||| b))

/-- XOR: A XOR B. -/
def execXor (l : LoomId) (d a b : GReg) (s : State) : Out' :=
  .next (opr s l d a b 0x004 (fun a b => a ^^^ b))

/-- SHL: A shifted left by B[5:0]. -/
def execShl (l : LoomId) (d a b : GReg) (s : State) : Out' :=
  .next (opr s l d a b 0x005 (fun a b => a <<< (b.toNat % 64)))

/-- SHRL: A shifted right, logical. -/
def execShrl (l : LoomId) (d a b : GReg) (s : State) : Out' :=
  .next (opr s l d a b 0x006 (fun a b => a >>> (b.toNat % 64)))

/-- SHRA: A shifted right, arithmetic. -/
def execShra (l : LoomId) (d a b : GReg) (s : State) : Out' :=
  .next (opr s l d a b 0x007 (fun a b => a.sshiftRight (b.toNat % 64)))

/-- LT: 1 if A < B, signed. -/
def execLt (l : LoomId) (d a b : GReg) (s : State) : Out' :=
  .next (opr s l d a b 0x008 (fun a b => flag64 (a.slt b)))

/-- LTU: 1 if A < B, unsigned. -/
def execLtu (l : LoomId) (d a b : GReg) (s : State) : Out' :=
  .next (opr s l d a b 0x009 (fun a b => flag64 (a.ult b)))

/-- MULLO: low 64 bits of A × B. -/
def execMullo (l : LoomId) (d a b : GReg) (s : State) : Out' :=
  .next (opr s l d a b 0x00A (fun a b => a * b))

/-- MULHS: high 64 bits of the signed product. -/
def execMulhs (l : LoomId) (d a b : GReg) (s : State) : Out' :=
  .next (opr s l d a b 0x00B (fun a b => BitVec.ofInt 64 ((a.toInt * b.toInt).fdiv (2 ^ 64))))

/-- MULHU: high 64 bits of the unsigned product. -/
def execMulhu (l : LoomId) (d a b : GReg) (s : State) : Out' :=
  .next (opr s l d a b 0x00C (fun a b => BitVec.ofNat 64 (a.toNat * b.toNat / 2 ^ 64)))

/-- MINS: signed minimum. -/
def execMins (l : LoomId) (d a b : GReg) (s : State) : Out' :=
  .next (opr s l d a b 0x00D (fun a b => if a.slt b then a else b))

/-- MAXS: signed maximum. -/
def execMaxs (l : LoomId) (d a b : GReg) (s : State) : Out' :=
  .next (opr s l d a b 0x00E (fun a b => if a.slt b then b else a))

/-- MINU: unsigned minimum. -/
def execMinu (l : LoomId) (d a b : GReg) (s : State) : Out' :=
  .next (opr s l d a b 0x00F (fun a b => if a.ult b then a else b))

/-- MAXU: unsigned maximum. -/
def execMaxu (l : LoomId) (d a b : GReg) (s : State) : Out' :=
  .next (opr s l d a b 0x010 (fun a b => if a.ult b then b else a))

/-- RNE: rshift_rne(A, B[5:0]). -/
def execRne (l : LoomId) (d a b : GReg) (s : State) : Out' :=
  .next (opr s l d a b 0x013 (fun a b => rne64 a (b.toNat % 64)))

/-- SATS: A clamped to B[5:0] bits. -/
def execSats (l : LoomId) (d a b : GReg) (s : State) : Out' :=
  .next (opr s l d a b 0x014 (sats))

/-- LZC: leading zeros of A, 64 for 0. -/
def execLzc (l : LoomId) (d a : GReg) (s : State) : Out' :=
  .next (opr s l d a 0 0x011 (fun a _ => BitVec.ofNat 64 (lzc64 a)))

/-- ONES: bits set in A. -/
def execOnes (l : LoomId) (d a : GReg) (s : State) : Out' :=
  .next (opr s l d a 0 0x012 (fun a _ => BitVec.ofNat 64 (popcount 64 a.toNat)))

/-- QUOS: signed quotient rounded toward zero; −2⁶³ by −1 gives −2⁶³. -/
def execQuos (l : LoomId) (d a b : GReg) (s : State) : Out' :=
  .next (opDiv s l d a b 0x015 (fun a b => BitVec.ofInt 64 (a.toInt.tdiv b.toInt)))

/-- QUOU: unsigned quotient. -/
def execQuou (l : LoomId) (d a b : GReg) (s : State) : Out' :=
  .next (opDiv s l d a b 0x016 (fun a b => BitVec.ofNat 64 (a.toNat / b.toNat)))

/-- MODS: remainder with the sign of A. -/
def execMods (l : LoomId) (d a b : GReg) (s : State) : Out' :=
  .next (opDiv s l d a b 0x017 (fun a b => BitVec.ofInt 64 (a.toInt.tmod b.toInt)))

/-- MODU: unsigned remainder. -/
def execModu (l : LoomId) (d a b : GReg) (s : State) : Out' :=
  .next (opDiv s l d a b 0x018 (fun a b => BitVec.ofNat 64 (a.toNat % b.toNat)))

/-! ## Constants (R292) -/

/-- ADDK: A + sext(K16). -/
def execAddk (l : LoomId) (d a : GReg) (k : BitVec 16) (s : State) : Out' :=
  .next (opk s l 0x02 d a k (fun a => a + sx16 k))

/-- MASKK: A AND zext(K16). -/
def execMaskk (l : LoomId) (d a : GReg) (k : BitVec 16) (s : State) : Out' :=
  .next (opk s l 0x03 d a k (fun a => a &&& zx16 k))

/-- SETK: A OR zext(K16). -/
def execSetk (l : LoomId) (d a : GReg) (k : BitVec 16) (s : State) : Out' :=
  .next (opk s l 0x04 d a k (fun a => a ||| zx16 k))

/-- FLIPK: A XOR zext(K16). -/
def execFlipk (l : LoomId) (d a : GReg) (k : BitVec 16) (s : State) : Out' :=
  .next (opk s l 0x05 d a k (fun a => a ^^^ zx16 k))

/-- LTK: 1 if A < sext(K16), signed. -/
def execLtk (l : LoomId) (d a : GReg) (k : BitVec 16) (s : State) : Out' :=
  .next (opk s l 0x06 d a k (fun a => flag64 (a.slt (sx16 k))))

/-- LTKU: 1 if A < zext(K16), unsigned. -/
def execLtku (l : LoomId) (d a : GReg) (k : BitVec 16) (s : State) : Out' :=
  .next (opk s l 0x07 d a k (fun a => flag64 (a.ult (zx16 k))))

/-- HIGHK: (A << 16) OR zext(K16). -/
def execHighk (l : LoomId) (d a : GReg) (k : BitVec 16) (s : State) : Out' :=
  .next (opk s l 0x09 d a k (fun a => (a <<< 16) ||| zx16 k))

/-- SHK: A shifted as K16 says; K16[15:8] must be 0, or the word is ILLEGAL. -/
def execShk (l : LoomId) (d a : GReg) (k : BitVec 16) (s : State) : Out' :=
  .next (seqIssue s l (kWord 0x08 d a k.toNat) (fun s =>
    if 256 ≤ k.toNat then .trap s tcIllegal (kWord 0x08 d a k.toNat)
    else seqDest l d (shk k.toNat (gRead (seqOf s l) a)) s))

/-- CONST: sext(K21). -/
def execConstK (l : LoomId) (d : GReg) (k : BitVec 21) (s : State) : Out' :=
  .next (seqFn s l (lWord 0x0A d k.toNat) d (fun _ => k.signExtend 64))

/-- HERE: PC + 4 × sext(K21). -/
def execHereK (l : LoomId) (d : GReg) (k : BitVec 21) (s : State) : Out' :=
  .next (seqFn s l (lWord 0x0B d k.toNat) d (fun q => BitVec.ofNat 64 (seqPc q) + 4 * k.signExtend 64))

/-! ## Branches -/

/-- IFEQ. -/
def execIfeq (l : LoomId) (c a : GReg) (k : BitVec 16) (s : State) : Out' :=
  .next (branch s l 0x20 c a k (fun a c => a == c))

/-- IFNE. -/
def execIfne (l : LoomId) (c a : GReg) (k : BitVec 16) (s : State) : Out' :=
  .next (branch s l 0x21 c a k (fun a c => a != c))

/-- IFLT. -/
def execIflt (l : LoomId) (c a : GReg) (k : BitVec 16) (s : State) : Out' :=
  .next (branch s l 0x22 c a k (fun a c => a.slt c))

/-- IFGE. -/
def execIfge (l : LoomId) (c a : GReg) (k : BitVec 16) (s : State) : Out' :=
  .next (branch s l 0x23 c a k (fun a c => !a.slt c))

/-- IFLTU. -/
def execIfltu (l : LoomId) (c a : GReg) (k : BitVec 16) (s : State) : Out' :=
  .next (branch s l 0x24 c a k (fun a c => a.ult c))

/-- IFGEU. -/
def execIfgeu (l : LoomId) (c a : GReg) (k : BitVec 16) (s : State) : Out' :=
  .next (branch s l 0x25 c a k (fun a c => !a.ult c))

/-- LEAP: D = PC + 4; PC = PC + 4 × sext(K21). -/
def execLeap (l : LoomId) (d : GReg) (k : BitVec 21) (s : State) : Out' :=
  .next (seqIssue s l (lWord 0x26 d k.toNat) (fun s =>
    let pc := BitVec.ofNat 64 (seqPc (seqOf s l))
    .jump (modSeq s l (fun q => gWrite q d (pc + 4))) (pc + 4 * k.signExtend 64).toNat))

/-- LEAPR: D = PC + 4; PC = (A + sext(K16)) with bits [1:0] cleared; A is read before D is written. -/
def execLeapr (l : LoomId) (d a : GReg) (k : BitVec 16) (s : State) : Out' :=
  .next (seqIssue s l (kWord 0x27 d a k.toNat) (fun s =>
    let pc := BitVec.ofNat 64 (seqPc (seqOf s l))
    let goal := (gRead (seqOf s l) a + sx16 k).toNat
    .jump (modSeq s l (fun q => gWrite q d (pc + 4))) (goal / 4 * 4)))

/-! ## SYS and TRAP (R294) -/

/-- YIELD. -/
def execYield (l : LoomId) (s : State) : Out' :=
  .next (seqIssue s l (tWord 0x28 0 0 0 0) (fun s => seqYield s l))

/-- END. -/
def execEndOp (l : LoomId) (s : State) : Out' :=
  .next (seqIssue s l (tWord 0x28 0 0 0 1) (fun s => seqEndMain s l (tWord 0x28 0 0 0 1)))

/-- TRET: back to the trapping instruction. -/
def execTret (l : LoomId) (s : State) : Out' :=
  .next (seqIssue s l (tWord 0x28 0 0 0 2) (fun s => seqTret s l (tWord 0x28 0 0 0 2) 0))

/-- TRETS: back to the instruction after it. -/
def execTrets (l : LoomId) (s : State) : Out' :=
  .next (seqIssue s l (tWord 0x28 0 0 0 3) (fun s => seqTret s l (tWord 0x28 0 0 0 3) 4))

/-- IFLUSH: invalidates the instruction buffer. -/
def execIflush (l : LoomId) (s : State) : Out' :=
  .next (seqIssue s l (tWord 0x28 0 0 0 4) (fun s => .next (modSeq s l (fun q => { q with ibuf := [] }))))

/-- RDLT: LT through a copy that lags by at most 6 ns (R24); the lag is a free value. -/
def execRdlt (l : LoomId) (d : GReg) (s : State) : Out' :=
  .next (seqIssue s l (tWord 0x28 d 0 0 8) (fun s => seqLogged s l (fun s =>
    let f := drawFree (timeDep s l 1)
    seqDestLog l 6 d (BitVec.ofNat 64 (ltNow s - f.1 % 7)) f.2)))

/-- RDBEAT: the loom's current beat. -/
def execRdbeat (l : LoomId) (d : GReg) (s : State) : Out' :=
  .next (seqIssue s l (tWord 0x28 d 0 0 9) (fun s => seqDest l d (BitVec.ofNat 64 (loom s l).beat) s))

/-- RDROUND: the retry round of the current beat. -/
def execRdround (l : LoomId) (d : GReg) (s : State) : Out' :=
  .next (seqIssue s l (tWord 0x28 d 0 0 10) (fun s => seqDest l d (BitVec.ofNat 64 (loom s l).round) s))

/-- RDCYC: loom-cycles since the loom's last reset, which this model does not count: a free value. -/
def execRdcyc (l : LoomId) (d : GReg) (s : State) : Out' :=
  .next (seqIssue s l (tWord 0x28 d 0 0 11) (fun s => seqLogged s l (fun s =>
    let f := drawFree (timeDep s l 1)
    seqDestLog l 6 d (BitVec.ofNat 64 f.1) f.2)))

/-- LOOM_NESTAT.PHASE codes (R114). -/
def phaseCode : LPhase → Nat
  | .idle => 0 | .opening => 1 | .integrate => 2 | .close => 3 | .settle => 4 | .emit => 5

/-- RDPHASE: LOOM_NESTAT.PHASE. -/
def execRdphase (l : LoomId) (d : GReg) (s : State) : Out' :=
  .next (seqIssue s l (tWord 0x28 d 0 0 12) (fun s => seqLogged s l (fun s =>
    seqDestLog l 6 d (BitVec.ofNat 64 (phaseCode (loom s l).phase)) (timeDep s l 1))))

/-- TRAP: USER with TVAL K21. -/
def execTrap (l : LoomId) (k : BitVec 21) (s : State) : Out' :=
  .next (seqIssue s l (lWord 0x29 0 k.toNat) (fun s => .trap s tcUser k.toNat))

/-! ## Events -/

/-- ACTIVATION_DISPATCH. -/
def execActivationDispatch (l : LoomId) (s : State) : Out' := .next (dispatch s l)

/-- SEQ_BUDGET_EXPIRY. -/
def execSeqBudgetExpiry (l : LoomId) (cycles : Nat) (s : State) : Out' := .next (budgetExpiry s l cycles)

/-- TRAP_HANDLER_LIMIT. -/
def execTrapHandlerLimit (l : LoomId) (s : State) : Out' := .next (handlerLimit s l)

/-- ILLEGAL_INSTRUCTION: the word at the PC has no defined encoding, or a non-zero unused field. -/
def execIllegalInstruction (l : LoomId) (s : State) : Out' :=
  let q := seqOf s l
  .next (if (seqCtx q).isNone || q.wait.isSome then s
    else match fetch s l with
      | .held => s
      | .past => seqTrap s l tcFetch (seqPc q)
      | .refused => seqTrap (inc s (bLoom l) F.LOOM_BOWNREFUSE_COUNT) l tcFetch (seqPc q)
      | .broken => seqHalt s l 0x0111
      | .word x s' => if legalWord x then s else seqTrap s' l tcIllegal x)

end Sys2Proof.Machine
end

