-- ==== Sys2Proof/Machine/SeqMem.lean ====
section
/-!
DEFINITION. The sequencer's local address space (R288), its loads and stores, AMO, and RLD and RST (R290, R294).
-/

namespace Sys2Proof.Machine

/-! ## Local addresses (R288) -/

/-- A local address: the low 24 bits of a sum. -/
def localAddr (a : W64) (k : BitVec 16) : Nat := (a + sx16 k).toNat % 2 ^ 24

/-- What an access of the sequencer to scratch meets (R313, R316). -/
inductive BankGate where
  | refused | held | open

/-- The bank of `n` scratch bytes for the sequencer: refused unless its owner code is SEQUENCER or SHARED, held while it drains, moves or
has them under test. -/
def seqBank (s : State) (l a n : Nat) : BankGate :=
  let o := owner s l (a / 65536)
  if o ≠ ownSeq ∧ o ≠ ownShared then .refused else if scrHeld s l a n then .held else .open

/-- A store of the running code is held at a store of the loom: its next local accesses wait, since they complete in program order (R288,
log entry 71). Further stores that are held queue behind it. -/
def ownStoreHeld (s : State) (l : Nat) : Bool := (loom s l).held.any (fun w => w.main = some (usesMain (seqOf s l)))

/-- The view of the own page that a local address names, and the page offset. -/
def ownPage (a : Nat) : Option (View × Nat) :=
  if 0x180000 ≤ a ∧ a < 0x190000 then (viewOf (a - 0x180000)).map (fun w => (w, a % 0x1000)) else none

/-- The tag of the loom's own accesses. -/
def loomReq (s : State) (l : Nat) : Requester := reqOf (rd s (bLoom l) F.OWNER_PART)

/-- A range of the synapse store that the sequencer may not touch while LEARN is 1 (R263). -/
def inPlastic (s : State) (l a n : Nat) : Bool :=
  let t := (loom s l).lat.tens
  t.learn && a < t.base + t.size && t.base < a + n

/-- A load from the own page whose value depends on timing (R665). -/
def ownTimed (off : Nat) : Bool :=
  off = F.LOOM_NESTAT_PHASE.off || off = F.LOOM_BSTAT_BUSY.off || off = F.LOOM_SEQSTAT_STATE.off || 0x800 ≤ off

/-! ## Loads and stores -/

/-- A refused local access. -/
def laccess (s : State) (a : Nat) : SeqEnd := .trap s tcLaccess a
/-- A refused access to a bank (R314). -/
def bankRefused (s : State) (l a : Nat) : SeqEnd := laccess (inc s (bLoom l) F.LOOM_BOWNREFUSE_COUNT) a
/-- A scratch word loaded by the sequencer is uncorrectable (R303). -/
def seqUe (s : State) (l : Nat) : SeqEnd := .stay (seqHalt s l 0x0111)

/-- The value of a load of `n` bytes, sign- or zero-extended. -/
def loadValue (n : Nat) (sign : Bool) (x : Nat) : W64 := if sign then BitVec.ofInt 64 (sext (8 * n) x) else BitVec.ofNat 64 x

/-- A load of `n` bytes at local address `a` into register `d`. -/
def localLoad (s : State) (l d a n : Nat) (sign : Bool) : SeqEnd :=
  let b := bLoom l
  let put := fun (s : State) (x : Nat) => seqDest l d (loadValue n sign x) s
  if a % n ≠ 0 then .trap s tcMisalign a
  else if ownStoreHeld s l then .stay s
  else if a < 0x80000 then
    match seqBank s l a n with
    | .refused => bankRefused s l a
    | .held => .stay s
    | .open => if scrBroken s l a n then seqUe s l else put (scratchCheck s l a n).2 (scrNat s l a n)
  else if a < 0x100000 then
    let r := nstoreLoad s l (a - 0x80000) n
    put r.2 r.1
  else if a < 0x180000 then
    let a' := a - 0x100000
    if inPlastic s l a' n then laccess (inc s b F.LOOM_TPREFUSE_COUNT) a
    else
      let r := sstoreLoad s l a' n
      put r.2 r.1
  else match ownPage a with
    | none => laccess s a
    | some (w, off) =>
      if n ≠ 4 then laccess s a
      else seqLogged s l (fun s =>
        let r := regRead s (loomReq s l) w b off
        if !r.1 then laccess r.2.2 a
        else
          let v := loadValue 4 sign r.2.1.toNat
          seqDestLog l 7 d v (if ownTimed off then timeDep r.2.2 l 1 else r.2.2))

/-- A store of the low `n` bytes of `v` at local address `a`. A write of the own page takes effect as the store ends, so that a RESTART by it
leaves the main program at its entry (R302). -/
def localStore (s : State) (l a n : Nat) (v : W64) : SeqEnd :=
  let b := bLoom l
  let x := v.toNat % 2 ^ (8 * n)
  let put := fun (s : State) => .next (modLoom s l (fun m => storeWrite m (some (usesMain m.seq)) a (leBytes n x)))
  if a % n ≠ 0 then .trap s tcMisalign a
  else if ownStoreHeld s l && !(0x80000 ≤ a && a < 0x180000 && storeHeld (loom s l) a) then .stay s
  else if a < 0x80000 then
    match seqBank s l a n with
    | .refused => bankRefused s l a
    | .held => .stay s
    | .open => .next (scrPut s l a n x)
  else if a < 0x100000 then put s
  else if a < 0x180000 then
    if inPlastic s l (a - 0x100000) n then laccess (inc s b F.LOOM_TPREFUSE_COUNT) a else put s
  else match ownPage a with
    | none => laccess s a
    | some (w, off) =>
      if n ≠ 4 then laccess s a
      else
        let pc := seqPc (seqOf s l)
        let r := regWrite (modSeq s l (fun q => seqSetPc q (pc + 4))) (loomReq s l) w b off (BitVec.ofNat 32 x)
        if r.1 then .fin r.2.2 else laccess (modSeq r.2.2 l (fun q => seqSetPc q pc)) a

/-- A load instruction: D = n bytes at A + sext(K16). -/
def seqLoad (s : State) (l fam d a : Nat) (k : BitVec 16) (n : Nat) (sign : Bool) : State :=
  seqIssue s l (kWord fam d a k.toNat) (fun s => localLoad s l d (localAddr (gRead (seqOf s l) a) k) n sign)

/-- A store instruction: n bytes of C at A + sext(K16). -/
def seqStore (s : State) (l fam c a : Nat) (k : BitVec 16) (n : Nat) : State :=
  seqIssue s l (pWord fam c a k.toNat) (fun s =>
    localStore s l (localAddr (gRead (seqOf s l) a) k) n (gRead (seqOf s l) c))

/-! ## AMO (R294) -/

/-- An atomic on the scratch word at A: D takes the old word, and the word becomes `f old d b`. -/
def seqAmo (s : State) (l d a b sel : Nat) (f : W64 → W64 → W64 → W64) : State :=
  seqIssue s l (tWord 0x1C d a b sel) (fun s =>
    let q := seqOf s l
    let x := (gRead q a).toNat % 2 ^ 24
    if x % 8 ≠ 0 then .trap s tcMisalign x
    else if 0x80000 ≤ x then laccess s x
    else if ownStoreHeld s l then .stay s
    else match seqBank s l x 8 with
      | .refused => bankRefused s l x
      | .held => .stay s
      | .open =>
        if scrBroken s l x 8 then seqUe s l
        else
          let old : W64 := BitVec.ofNat 64 (scrNat s l x 8)
          let s := scrPut (scratchCheck s l x 8).2 l x 8 (f old (gRead q d) (gRead q b)).toNat
          seqDest l d old s)

/-! ## RLD and RST (R290) -/

/-- The control region (R37). -/
abbrev ctlBase : Nat := 0x004000000000

/-- Sends a remote access: a memory request on VC2, or one on the selvedge network with the loom's OWNER as tag; false where the target
answers with an error at once. -/
def remoteSend (s : State) (l : Nat) (write : Bool) (a n : Nat) (v : W64) : Option State :=
  if a + n ≤ hbmSize then
    some (hbmAsk s (bLoom l) write a (if n = 8 then 1 else 0) (if write then leBytes n (v.toNat % 2 ^ (8 * n)) else []))
  else if ctlBase ≤ a ∧ a < ctlBase + 2 ^ 28 ∧ n = 4 then
    some (send s .remote (bLoom l) (regPacket (bLoom l) (rd s (bLoom l) F.OWNER_PART) 0 (a - ctlBase)
      (if write then [v.toNat % 2 ^ 32] else [])))
  else none

/-- RLD. -/
def seqRld (s : State) (l d a : Nat) (wide : Bool) : State :=
  seqIssue s l (tWord 0x1D d a 0 wide.toNat) (fun s =>
    let x := (gRead (seqOf s l) a).toNat
    let n := if wide then 8 else 4
    if x % n ≠ 0 then .trap s tcMisalign x
    else match remoteSend s l false x n 0 with
      | none => .trap s tcRfault x
      | some s => .stay (modSeq s l (fun q => { q with wait := some (.rld x d wide) })))

/-- RST. -/
def seqRst (s : State) (l a b : Nat) (wide : Bool) : State :=
  seqIssue s l (tWord 0x1E 0 a b wide.toNat) (fun s =>
    let x := (gRead (seqOf s l) a).toNat
    let n := if wide then 8 else 4
    if x % n ≠ 0 then .trap s tcMisalign x
    else match remoteSend s l true x n (gRead (seqOf s l) b) with
      | none => .trap s tcRfault x
      | some s => .stay (modSeq s l (fun q => { q with wait := some (.rst x) })))

/-- The wait of the running code ends. -/
def unwait (s : State) (l : Nat) : State := modSeq s l (fun q => { q with wait := none })

/-- A remote response arrives: the value of a load is logged (R613). -/
def remoteAnswer (s : State) (l : Nat) (ok : Bool) (data : W64) : State :=
  match (seqOf s l).wait with
  | some (.rld x d wide) =>
    if !ok then seqTrap (unwait s l) l tcRfault x
    else if logFull s l then send s .hold (bLoom l) []
    else seqEnd l (seqDestLog l 0 d (if wide then data else BitVec.ofNat 64 (data.toNat % 2 ^ 32)) (unwait s l))
  | some (.rst x) => if ok then seqEnd l (.next (unwait s l)) else seqTrap (unwait s l) l tcRfault x
  | _ => s

/-- No response within 20 µs. -/
def remoteLate (s : State) (l : Nat) : State :=
  match (seqOf s l).wait with
  | some (.rld x _ _) => seqTrap (unwait s l) l tcRtimeout x
  | some (.rst x) => seqTrap (unwait s l) l tcRtimeout x
  | _ => s

/-! ## Rows -/

/-- GET8. -/
def execGet8 (l : LoomId) (d a : GReg) (k : BitVec 16) (s : State) : Out' := .next (seqLoad s l 0x10 d a k 1 true)
/-- GET8U. -/
def execGet8u (l : LoomId) (d a : GReg) (k : BitVec 16) (s : State) : Out' := .next (seqLoad s l 0x11 d a k 1 false)
/-- GET16. -/
def execGet16 (l : LoomId) (d a : GReg) (k : BitVec 16) (s : State) : Out' := .next (seqLoad s l 0x12 d a k 2 true)
/-- GET16U. -/
def execGet16u (l : LoomId) (d a : GReg) (k : BitVec 16) (s : State) : Out' := .next (seqLoad s l 0x13 d a k 2 false)
/-- GET32. -/
def execGet32 (l : LoomId) (d a : GReg) (k : BitVec 16) (s : State) : Out' := .next (seqLoad s l 0x14 d a k 4 true)
/-- GET32U. -/
def execGet32u (l : LoomId) (d a : GReg) (k : BitVec 16) (s : State) : Out' := .next (seqLoad s l 0x15 d a k 4 false)
/-- GET64. -/
def execGet64 (l : LoomId) (d a : GReg) (k : BitVec 16) (s : State) : Out' := .next (seqLoad s l 0x16 d a k 8 true)
/-- PUT8. -/
def execPut8 (l : LoomId) (c a : GReg) (k : BitVec 16) (s : State) : Out' := .next (seqStore s l 0x18 c a k 1)
/-- PUT16. -/
def execPut16 (l : LoomId) (c a : GReg) (k : BitVec 16) (s : State) : Out' := .next (seqStore s l 0x19 c a k 2)
/-- PUT32. -/
def execPut32 (l : LoomId) (c a : GReg) (k : BitVec 16) (s : State) : Out' := .next (seqStore s l 0x1A c a k 4)
/-- PUT64. -/
def execPut64 (l : LoomId) (c a : GReg) (k : BitVec 16) (s : State) : Out' := .next (seqStore s l 0x1B c a k 8)

/-- AADD: the word grows by B. -/
def execAadd (l : LoomId) (d a b : GReg) (s : State) : Out' := .next (seqAmo s l d a b 0 (fun old _ b => old + b))
/-- ASWAP: the word becomes B. -/
def execAswap (l : LoomId) (d a b : GReg) (s : State) : Out' := .next (seqAmo s l d a b 1 (fun _ _ b => b))
/-- ACAS: the word becomes B where it equals D. -/
def execAcas (l : LoomId) (d a b : GReg) (s : State) : Out' :=
  .next (seqAmo s l d a b 2 (fun old d b => if old = d then b else old))

/-- RLD. -/
def execRld (l : LoomId) (d a : GReg) (wide : Bool) (s : State) : Out' := .next (seqRld s l d a wide)
/-- RST. -/
def execRst (l : LoomId) (a b : GReg) (wide : Bool) (s : State) : Out' := .next (seqRst s l a b wide)
/-- REMOTE_RESPONSE. -/
def execRemoteResponse (l : LoomId) (ok : Bool) (data : W64) (s : State) : Out' := .next (remoteAnswer s l ok data)
/-- REMOTE_TIMEOUT. -/
def execRemoteTimeout (l : LoomId) (s : State) : Out' := .next (remoteLate s l)

end Sys2Proof.Machine
end

