-- ==== Sys2Proof/Machine/SeqUnit.lean ====
section
/-!
DEFINITION. The sequencer's unit instructions (R294 to R297): neuron engine, batten, shuttle, channels, lamps, ply queues.
-/

namespace Sys2Proof.Machine

/-! ## Status values (R295) -/

abbrev usOk : W64 := 0
abbrev usRefused : W64 := 1
abbrev usClosed : W64 := 2
abbrev usNocredit : W64 := 3
abbrev usTimeout : W64 := 4
abbrev usPending : W64 := 5
abbrev usError : W64 := 6

/-! ## Neuron engine (R296) -/

/-- ACCADD: only in the INTEGRATE hook itself, |B| below 2³⁰. -/
def seqAccadd (s : State) (l e a b : Nat) : State :=
  let w := tWord 0x30 0 a b e
  seqIssue s l w (fun s =>
    let q := seqOf s l
    let slot := (gRead q a).toNat % 2 ^ 15
    let c := (gRead q b).toInt
    if q.trap.isSome || (q.act.map (·.ctx)) != some 1 then .trap s tcNotnow w
    else if 2 ^ 30 ≤ c.natAbs then .trap s tcRange (gRead q b).toNat
    else if neuronHeld s l then .stay s
    else if e = 0 then .next (accAdd s l slot c true)
    else if (loom s l).lat.nslots ≤ slot then .next (inc s (bLoom l) F.LOOM_TGTRANGE_COUNT)
    else .next (dqContrib s l slot c e))

/-! ## Batten (R224) -/

/-- BRUN: starts operation A[4:0]. -/
def seqBrun (s : State) (l d a : Nat) : State :=
  seqIssue s l (tWord 0x31 d a 0 0) (fun s =>
    let p := brunStart s l ((gRead (seqOf s l) a).toNat % 32)
    seqDest l d (if p.1 then usOk else usRefused) p.2)

/-- BWAIT: blocks while LOOM_BSTAT shows BUSY or QUEUED. -/
def seqBwait (s : State) (l : Nat) : State :=
  let b := bLoom l
  seqIssue s l (tWord 0x31 0 0 0 1) (fun s =>
    if rd s b F.LOOM_BSTAT_BUSY = 0 ∧ rd s b F.LOOM_BSTAT_QUEUED = 0 then .next s else .stay s)

/-- BSTAT: D = LOOM_BSTAT. -/
def seqBstat (s : State) (l d : Nat) : State :=
  seqIssue s l (tWord 0x31 d 0 0 2) (fun s => seqLogged s l (fun s =>
    seqDestLog l 7 d (BitVec.ofNat 64 (regGet s (bLoom l) F.LOOM_BSTAT_BUSY.off 0).toNat) (timeDep s l 1)))

/-! ## Shuttle (R297, R425) -/

/-- SHSUB: a misaligned descriptor address raises MISALIGN (R420; DEDUCED, log entry 55). -/
def seqShsub (s : State) (l d a : Nat) : State :=
  seqIssue s l (tWord 0x32 d a 0 0) (fun s =>
    let x := (gRead (seqOf s l) a).toNat
    let out := shOutstanding s l
    if x % 64 ≠ 0 then .trap s tcMisalign x
    else if 0x80000 ≤ x then laccess s x
    else match seqBank s l x 64 with
      | .refused => bankRefused s l x
      | .held => .stay s
      | .open =>
        if 8 ≤ out.length then (if out.all (fun e => e.code.isSome) then seqDest l d 0x100 s else .stay s)
        else if scrBroken s l x 64 then seqUe s l
        else
          let s := (scratchCheck s l x 64).2
          let p := shSubmit s l x (shDescOf (tabGetRun 0 (loom s l).scratch x 64))
          seqDest l d (BitVec.ofNat 64 p.1) p.2)

/-- The status of a ticket: none while its transfer runs. -/
def ticketStatus (s : State) (l t : Nat) : Option W64 :=
  match shTicket s l t with
  | none => some usRefused
  | some e => e.code.map (fun c => if c = scOk then usOk else usError)

/-- SHWAIT. -/
def seqShwait (s : State) (l d a : Nat) : State :=
  seqIssue s l (tWord 0x32 d a 0 1) (fun s => seqLogged s l (fun s =>
    let t := (gRead (seqOf s l) a).toNat
    match ticketStatus s l t with
    | none => .stay s
    | some v => seqDestLog l 3 d v (shFree s l t)))

/-- SHTEST. -/
def seqShtest (s : State) (l d a : Nat) : State :=
  seqIssue s l (tWord 0x32 d a 0 2) (fun s => seqLogged s l (fun s =>
    let t := (gRead (seqOf s l) a).toNat
    match ticketStatus s l t with
    | none => seqDestLog l 3 d usPending (timeDep s l 1)
    | some v => seqDestLog l 3 d v (shFree s l t)))

/-! ## Channels (R380, R386) -/

/-- The first word of the message at `x` that the sequencer may not read, if any. -/
def msgRefused (s : State) (l x n : Nat) : Option Nat :=
  ((List.range n).map (fun i => x + 8 * i)).find? (fun y => 0x80000 ≤ y || (match seqBank s l y 8 with | .refused => true | _ => false))

/-- Some word of the message at `x` lies in a bank that is held. -/
def msgHeld (s : State) (l x n : Nat) : Bool :=
  (List.range n).any (fun i => match seqBank s l (x + 8 * i) 8 with | .held => true | _ => false)

/-- The words of a message in scratch. -/
def msgRead (s : State) (l x n : Nat) : List W64 := (List.range n).map (fun i => BitVec.ofNat 64 (scrNat s l (x + 8 * i) 8))

/-- The trap of a message word that may not be read. -/
def msgTrap (s : State) (l y : Nat) : SeqEnd := if 0x80000 ≤ y then laccess s y else bankRefused s l y

/-- CSEND and CTRY. -/
def seqSend (s : State) (l d a b : Nat) (wait : Bool) : State :=
  seqIssue s l (tWord 0x33 d a b (if wait then 0 else 1)) (fun s => seqLogged s l (fun s =>
    let q := seqOf s l
    let chan := (gRead q a).toNat
    let x := (gRead q b).toNat
    if x % 8 ≠ 0 then .trap s tcMisalign x
    else match msgRefused s l x 1 with
      | some y => msgTrap s l y
      | none =>
        if msgHeld s l x 1 then .stay s
        else if scrBroken s l x 8 then seqUe s l
        else
        let n := msgWords (bits (scrNat s l x 8) 15 8)
        match msgRefused s l x n with
        | some y => msgTrap s l y
        | none =>
          if msgHeld s l x n then .stay s
          else if scrBroken s l x (8 * n) then seqUe s l
          else
            let s := (scratchCheck s l x (8 * n)).2
            match chSend s l chan (msgRead s l x n) with
            | .held => .stay s
            | .refused => seqDestLog l 5 d usRefused s
            | .closed => seqDestLog l 5 d usClosed s
            | .full credits => if wait then .stay (chBlock s l chan credits) else seqDestLog l 5 d usNocredit (timeDep s l 1)
            | .ok s => seqDestLog l 5 d usOk s))

/-- CPOLL: the scratch offset of the head message, WRAP skipped, or 0. -/
def seqCpoll (s : State) (l d a : Nat) : State :=
  seqIssue s l (tWord 0x33 d a 0 2) (fun s => seqLogged s l (fun s =>
    let chan := (gRead (seqOf s l) a).toNat
    let x := match chFind s l chan 1 with
      | none => 0
      | some i => match (chEnd s l i).ring.find? (fun m => !m.pad) with
        | none => 0
        | some m => chBase s l i + 64 + 64 * m.slot
    seqDestLog l 4 d (BitVec.ofNat 64 x) (timeDep s l 1)))

/-- CDONE. -/
def seqCdone (s : State) (l d a : Nat) : State :=
  seqIssue s l (tWord 0x33 d a 0 3) (fun s =>
    match doneEntry s l (gRead (seqOf s l) a).toNat with
    | none => seqDest l d usRefused s
    | some i => if ringHeld s l i then .stay s else seqDest l d usOk (chRelease s l i))

/-! ## Lamps (R393, R394, R396, R402) -/

/-- A lamp that the loom may operate on. -/
def loomLampOk (s : State) (l x : Nat) : Bool := x < 16384 && lampOk s (x / 1024) (x % 1024) (rd s (bLoom l) F.OWNER_PART)

/-- LSIG: the ADD travels on the selvedge network; a refused one is counted at the hub it reaches. -/
def seqLsig (s : State) (l d a b : Nat) : State :=
  seqIssue s l (tWord 0x34 d a b 0) (fun s =>
    let q := seqOf s l
    let x := (gRead q a).toNat
    let s' := if x < 16384 then
        send s .lampAdd (bHub (x / 1024)) [bLoom l, x % 1024, rd s (bLoom l) F.OWNER_PART, (gRead q b).toNat]
      else s
    seqDest l d (if loomLampOk s l x then usOk else usRefused) s')

/-- LWAIT: the watch travels to the hub, and the context waits for its completion. -/
def seqLwait (s : State) (l d a b : Nat) : State :=
  seqIssue s l (tWord 0x34 d a b 1) (fun s => seqLogged s l (fun s =>
    let q := seqOf s l
    let x := (gRead q a).toNat
    if 16384 ≤ x then seqDestLog l 2 d usRefused s
    else
      let s := send s .watch (bHub (x / 1024)) [waiterOf q l, x % 1024, (gRead q b).toNat, (gRead q d).toNat, q.wtok]
      .stay (modSeq s l (fun q => { q with wait := some (.lamp x d q.wtok), wtok := q.wtok + 1 }))))

/-- LREAD: D tells a refusal from a value; the register B names takes the value, or 0. Where D and B name one register, D's status is
written last (DESIGN CHOICE, log entry 56). -/
def seqLread (s : State) (l d a b : Nat) : State :=
  seqIssue s l (tWord 0x34 d a b 2) (fun s => seqLogged s l (fun s =>
    let x := (gRead (seqOf s l) a).toNat
    let ok := loomLampOk s l x
    let v : W64 := if ok then BitVec.ofNat 64 (lampVal s (x / 1024) (x % 1024)) else 0
    let s := if ok ∨ 16384 ≤ x then s else inc s (bHub (x / 1024)) F.HUB_LAMPREFUSE_COUNT
    let s := modSeq (logValue (timeDep s l 1) l 1 v) l (fun q => gWrite q b v)
    seqDest l d (if ok then usOk else usRefused) s))

/-! ## Ply queues (R357 to R359) -/

/-- The loom's mask names queue `q`. -/
def plyMine (s : State) (l q : Nat) : Bool := bit (regGet s (bLoom l) (F.LOOM_PLYMASK_MASK.off + 4 * (q / 32)) 0).toNat (q % 32)

/-- The window of `q` takes one more contribution: at most 64 uncredited, of at most 8 queues. -/
def plyRoom (s : State) (l q : Nat) : Bool :=
  let n := (plyWin s l q).kept.length
  n < 64 && (n != 0 || ((List.range 256).filter (fun i => !(plyWin s l i).kept.isEmpty)).length < 8)

/-- PLYPUT. -/
def seqPlyput (s : State) (l d a b : Nat) : State :=
  seqIssue s l (tWord 0x35 d a b 0) (fun s =>
    let q := (gRead (seqOf s l) a).toNat % 256
    let v := (gRead (seqOf s l) b).toInt
    if !plyMine s l q then seqDest l d usRefused s
    else if !plyRoom s l q then .stay s
    else
      let w := plyWin s l q
      let s := setPlyWin s l q { k := w.k + 1, kept := w.kept ++ [(w.k, v)] }
      seqDest l d usOk (inc (plyPacket s l q w.k v) (bLoom l) F.LOOM_PLYPUTS_COUNT))

/-! ## Rows -/

/-- ACCADD. -/
def execAccadd (l : LoomId) (e : Fin 16) (a b : GReg) (s : State) : Out' := .next (seqAccadd s l e a b)
/-- BRUN. -/
def execBrun (l : LoomId) (d a : GReg) (s : State) : Out' := .next (seqBrun s l d a)
/-- BWAIT. -/
def execBwait (l : LoomId) (s : State) : Out' := .next (seqBwait s l)
/-- BSTAT. -/
def execBstat (l : LoomId) (d : GReg) (s : State) : Out' := .next (seqBstat s l d)
/-- SHSUB. -/
def execShsub (l : LoomId) (d a : GReg) (s : State) : Out' := .next (seqShsub s l d a)
/-- SHWAIT. -/
def execShwait (l : LoomId) (d a : GReg) (s : State) : Out' := .next (seqShwait s l d a)
/-- SHTEST. -/
def execShtest (l : LoomId) (d a : GReg) (s : State) : Out' := .next (seqShtest s l d a)
/-- CSEND: waits for credits. -/
def execCsend (l : LoomId) (d a b : GReg) (s : State) : Out' := .next (seqSend s l d a b true)
/-- CTRY: NOCREDIT instead of waiting. -/
def execCtry (l : LoomId) (d a b : GReg) (s : State) : Out' := .next (seqSend s l d a b false)
/-- CPOLL. -/
def execCpoll (l : LoomId) (d a : GReg) (s : State) : Out' := .next (seqCpoll s l d a)
/-- CDONE. -/
def execCdone (l : LoomId) (d a : GReg) (s : State) : Out' := .next (seqCdone s l d a)
/-- LSIG. -/
def execLsig (l : LoomId) (d a b : GReg) (s : State) : Out' := .next (seqLsig s l d a b)
/-- LWAIT. -/
def execLwait (l : LoomId) (d a b : GReg) (s : State) : Out' := .next (seqLwait s l d a b)
/-- LREAD. -/
def execLread (l : LoomId) (d a b : GReg) (s : State) : Out' := .next (seqLread s l d a b)
/-- PLYPUT. -/
def execPlyput (l : LoomId) (d a b : GReg) (s : State) : Out' := .next (seqPlyput s l d a b)

end Sys2Proof.Machine
end

