-- ==== Sys2Proof/Machine/Warden.lean ====
section
/-!
DEFINITION. The warden port (R498 to R500): frames, their checks and answers. A command is a whole frame, given by its arguments and its
CRC byte; several bytes of one value travel most significant byte first (DEDUCED from R498, log entry 57).
-/

namespace Sys2Proof.Machine

/-! ## Frames -/

/-- Status codes. -/
abbrev wsOk : Nat := 0x00
abbrev wsCrcerr : Nat := 0x01
abbrev wsBadcmd : Nat := 0x02
abbrev wsRefusedFrame : Nat := 0x03
abbrev wsTimeoutFrame : Nat := 0x04
abbrev wsError : Nat := 0x05

/-- CRC-8 of the warden port: polynomial 0x07, initial value 0x00. -/
def crc8 (bs : List Byte) : Nat := crcMsb 8 0x07 0 bs

/-- An answer: status, data, CRC. -/
def wardenSay (s : State) (st : Nat) (d : List Byte) : State :=
  let body := BitVec.ofNat 8 st :: d
  send s .warden 0 ((body.map (·.toNat)) ++ [crc8 body])

/-- The port answers once step 1 of a bring-up has ended; until then it returns 0xFF (R589). -/
def wardenUp (s : State) : Bool := !s.boot.active || s.boot.cpr || s.boot.ended.contains 1

/-- A frame of command `code` with its arguments and CRC byte: checked, then performed. A new frame discards the result of one whose
answer is still awaited (R500). -/
def wardenFrame (s : State) (code : Nat) (args : List Byte) (crc : Byte) (f : State → State) : State :=
  let s := { s with cust := { s.cust with wardenBusy := false } }
  if !wardenUp s then send s .warden 0 [0xFF]
  else if crc8 (BitVec.ofNat 8 code :: args) ≠ crc.toNat then wardenSay s wsCrcerr []
  else f (wakeSource s 1)

/-- A scrapped part answers only IDENT, STATUS, DUMP and fuse reads (R574). -/
def wardenScrapped (s : State) : Bool := lifecycle s = lcScrapped

/-! ## Commands -/

/-- The warden port as a requester. -/
abbrev wardenReq : Requester := .custody .warden

/-- An access to a control-region offset, below 0x1000_0000 and word aligned. An access across a down selvedge link has no answer until
SELVEDGE_REQUEST_TIMEOUT. -/
def wardenAccess (s : State) (a : Nat) (isWrite : Bool) (v : Word) : State :=
  let b := a / 0x10000
  if 0x10000000 ≤ a ∨ a % 4 ≠ 0 then wardenSay s wsBadcmd []
  else if wardenScrapped s && (isWrite || b != bFuse) then wardenSay s wsRefusedFrame []
  else if isWrite && !gateError s b (a % 0x1000) true && !wardenMay s b (a % 0x1000) then wardenSay s wsRefusedFrame []
  else if selvCut s b then { s with cust := { s.cust with wardenBusy := true } }
  else
    let refused := gateRefuse s wardenReq b (a % 0x1000) isWrite v
    let p := ctlAccess s wardenReq a isWrite v
    if p.1 then wardenSay p.2.2 wsOk (if isWrite then [] else beBytes 4 p.2.1.toNat)
    else wardenSay p.2.2 (if refused && !gateError s b (a % 0x1000) isWrite then wsRefusedFrame else wsError) []

/-- READ. -/
def wardenRead (s : State) (a : Word) (crc : Byte) : State :=
  wardenFrame s 0x10 (beBytes 4 a.toNat) crc (fun s => wardenAccess s a.toNat false 0)

/-- WRITE. -/
def wardenWrite (s : State) (a v : Word) (crc : Byte) : State :=
  wardenFrame s 0x11 (beBytes 4 a.toNat ++ beBytes 4 v.toNat) crc (fun s => wardenAccess s a.toNat true v)

/-- IDENT: identity words 0 to 3, little-endian (R584). -/
def wardenIdent (s : State) (crc : Byte) : State :=
  wardenFrame s 0x20 [] crc (fun s => wardenSay s wsOk ((List.range 4).flatMap (fun i => leBytes 4 (fuse s i).toNat)))

/-- STATUS: lifecycle, pins, Lamplighter's state, the last rung. -/
def wardenStatus (s : State) (crc : Byte) : State :=
  wardenFrame s 0x21 [] crc (fun s =>
    let stat := viewWord s wardenReq bLamplighter F.LL_STAT_STATE.off
    wardenSay s wsOk [BitVec.ofNat 8 (lifecycle s), BitVec.ofNat 8 (s.ll.faultN.toNat + 2 * s.ll.alive.toNat),
      BitVec.ofNat 8 (fldGet F.LL_STAT_STATE stat), BitVec.ofNat 8 (fldGet F.LL_STAT_LASTRUNG stat)])

/-- DUMP: words of the dump SRAM. -/
def wardenDump (s : State) (off : BitVec 16) (n crc : Byte) : State :=
  wardenFrame s 0x30 (beBytes 2 off.toNat ++ [n]) crc (fun s =>
    let words := if n = 0 then 256 else n.toNat
    if off.toNat % 4 ≠ 0 ∨ 65536 < off.toNat + 4 * words then wardenSay s wsBadcmd []
    else wardenSay s wsOk ((List.range (4 * words)).map (fun i => dumpByte s (off.toNat + i))))

/-- A compute-partition reset that is asked for: nothing to reset while the compute rails are off, unless a bring-up runs. -/
def computeResetAsked (s : State) : State := if s.pw.enCmp || (s.boot.active && !s.boot.cpr) then computeReset s else s

/-- RESET: the answer goes out, then the reset takes effect as CS_N rises. -/
def wardenReset (s : State) (level key crc : Byte) : State :=
  wardenFrame s 0x40 [level, key] crc (fun s =>
    if key ≠ 0xA5 ∨ (level ≠ 1 ∧ level ≠ 2) then wardenSay s wsBadcmd []
    else if wardenScrapped s then wardenSay s wsRefusedFrame []
    else
      let s := wardenSay s wsOk []
      if level = 1 then computeResetAsked s else packageReset s false (selfPkg s))

/-- LASEROFF. -/
def wardenLaseroff (s : State) (key crc : Byte) : State :=
  wardenFrame s 0x41 [key] crc (fun s =>
    if key ≠ 0xA5 then wardenSay s wsBadcmd []
    else if wardenScrapped s then wardenSay s wsRefusedFrame []
    else wardenSay (lasLight s false) wsOk [])

/-- SCRAP as a frame. -/
def wardenScrap (s : State) (key : Word) (crc : Byte) : State :=
  wardenFrame s 0x42 (beBytes 4 key.toNat) crc (fun s =>
    if key ≠ 0x53435250 then wardenSay s wsBadcmd []
    else if wardenScrapped s then wardenSay s wsRefusedFrame []
    else wardenSay (scrapFrame s) wsOk [])

/-- No selvedge answer within 20 µs: the awaited access ends with TIMEOUT. -/
def wardenTimeout (s : State) : State :=
  if s.cust.wardenBusy then wardenSay { s with cust := { s.cust with wardenBusy := false } } wsTimeoutFrame [] else s

end Sys2Proof.Machine
end

