-- ==== Sys2Proof/Machine/RowsControl.lean ====
section
/-!
DEFINITION. The meanings of the commands of chapter 02: register accesses, transactions, groups, block resets, the management tick.
-/

namespace Sys2Proof.Machine

/-- The word of a write that changes one field of a register as the requester sees it, at the selected table entry. -/
def withField (s : State) (r : Requester) (b : Nat) (f : Fld) (v : Nat) : Word := fldSet f (viewWord s r b f.off) v

/-- A main-page write of one field, the other bits as they stand. -/
def fieldWrite (s : State) (r : Requester) (b : Nat) (f : Fld) (v : Nat) : State :=
  busWrite s r .main b f.off (withField s (asReq s r) b f v)

/-! ## Register accesses -/

/-- REGISTER_WRITE (R7). -/
def execRegisterWrite (r : Requester) (b off : Nat) (v : Word) (wd : Width) (s : State) : Out' := .next (busWriteW s r .main b off v wd)

/-- RC_COUNTER_READ (R7). -/
def execRcCounterRead (r : Requester) (b off : Nat) (wd : Width) (s : State) : Out' := .next (busReadW s r .main b off wd)

/-- LATCHING_LO_READ (R165). -/
def execLatchingLoRead (r : Requester) (b off : Nat) (wd : Width) (s : State) : Out' := .next (busReadW s r .main b off wd)

/-- BIT_SET_ALIAS_WRITE (R42). -/
def execBitSetAliasWrite (r : Requester) (b off : Nat) (v : Word) (wd : Width) (s : State) : Out' := .next (busWriteW s r .bitSet b off v wd)

/-- BIT_CLEAR_ALIAS_WRITE (R42). -/
def execBitClearAliasWrite (r : Requester) (b off : Nat) (v : Word) (wd : Width) (s : State) : Out' := .next (busWriteW s r .bitClear b off v wd)

/-- SHADOW_VIEW_WRITE (R61). -/
def execShadowViewWrite (r : Requester) (b off : Nat) (v : Word) (wd : Width) (s : State) : Out' := .next (busWriteW s r .shadow b off v wd)

/-! ## Block resets and modes -/

/-- RESET_REQ (R48). -/
def execResetReq (r : Requester) (b : Nat) (s : State) : Out' := .next (fieldWrite s r b F.CONTROL_RESETREQ 1)

/-- BLOCK_RESET_DONE (R693): a release that waited for the block goes on (R573), and so does a rung (R624). -/
def execBlockResetDone (b : Nat) (s : State) : Out' := .next (rungsCheck (releaseDone (blockReady s b) b))

/-- MODE_CHANGE_WRITE (R64): a write of CONTROL. -/
def execModeChangeWrite (r : Requester) (b : Nat) (v : Word) (s : State) : Out' :=
  .next (busWrite s r .main b F.CONTROL_EXPERT.off (fldSet F.CONTROL_RESETREQ v 0))

/-! ## Transactions (R59 to R63) -/

/-- BEGIN. -/
def execBegin (r : Requester) (b : Nat) (s : State) : Out' := .next (fieldWrite s r b F.TXN_OP 1)
/-- COMMIT. -/
def execCommit (r : Requester) (b : Nat) (s : State) : Out' := .next (fieldWrite s r b F.TXN_OP 2)
/-- ROLLBACK. -/
def execRollback (r : Requester) (b : Nat) (s : State) : Out' := .next (fieldWrite s r b F.TXN_OP 3)

/-! ## Groups (R65 to R69) -/

/-- ARM of the selected slot. -/
def execArm (r : Requester) (s : State) : Out' := .next (fieldWrite s r bBeat F.BEAT_TGCTL_OP 1)
/-- CANCEL of the selected slot. -/
def execCancel (r : Requester) (s : State) : Out' := .next (fieldWrite s r bBeat F.BEAT_TGCTL_OP 2)
/-- RELEASE of the selected slot. -/
def execRelease (r : Requester) (s : State) : Out' := .next (fieldWrite s r bBeat F.BEAT_TGCTL_OP 3)
/-- GROUP_PREPARE_ANSWER. -/
def execGroupPrepareAnswer (i : Fin 32) (b : Nat) (s : State) : Out' := .next (prepareAnswer s i b)
/-- GROUP_PREPARE_TIMEOUT. -/
def execGroupPrepareTimeout (i : Fin 32) (b : Nat) (s : State) : Out' := .next (prepareTimeout s i b)

/-! ## Application cluster and management -/

/-- APC_VMPART_WRITE (R75): the register of hart `h`. -/
def execApcVmpartWrite (r : Requester) (h : Fin 16) (v : Word) (s : State) : Out' :=
  .next (busWrite s r .main bApc (F.APC_VMPART_PART.off + 8 * h) v)

/-- MANAGEMENT_TICK (R25). -/
def execManagementTick (watts : Nat) (work : List (Nat × Nat)) (s : State) : Out' := .next (managementTick s watts work)

end Sys2Proof.Machine
end

