-- ==== Sys2Proof/Machine/RowsBeat.lean ====
section
/-!
DEFINITION. The meanings of the commands of chapter 05: loom time, the beat engine, streams and re-picks.
-/

namespace Sys2Proof.Machine

/-! ## Loom time -/

/-- LTIME_STEP_HI_WRITE (R161). -/
def execLtimeStepHiWrite (r : Requester) (v : Word) (s : State) : Out' := .next (busWrite s r .main bLtime F.LTIME_STEP_HI_STEP.off v)
/-- LTIME_RATE_WRITE (R160). -/
def execLtimeRateWrite (r : Requester) (v : Word) (s : State) : Out' := .next (busWrite s r .main bLtime F.LTIME_RATE_RATE.off v)
/-- SYNC_IN_EDGE (R162). -/
def execSyncInEdge (s : State) : Out' := .next (syncIn s)
/-- LTIME_SOURCE_TIMEOUT (R164). -/
def execLtimeSourceTimeout (s : State) : Out' := .next (ltTimeout s)

/-! ## The beat engine -/

/-- The value of a BEAT_CTL write with an operation. -/
def beatOp (v : Word) (op : Nat) : Word := fldSet F.BEAT_CTL_OP v op

/-- BEAT_ARM (R169): an ARM from IDLE restores a matching checkpoint first where one is due (R268, log entry 52). -/
def execBeatArm (r : Requester) (v : Word) (s : State) : Out' := .next (busWrite s r .main bBeat F.BEAT_CTL_OP.off (beatOp v 1))
/-- BEAT_STOP (R169). -/
def execBeatStop (r : Requester) (v : Word) (s : State) : Out' := .next (busWrite s r .main bBeat F.BEAT_CTL_OP.off (beatOp v 2))
/-- BEAT_LAUNCH (R169). -/
def execBeatLaunch (s : State) : Out' := .next (beatLaunch s)
/-- BEAT_HOLD_WRITE (R197). -/
def execBeatHoldWrite (r : Requester) (v : Word) (s : State) : Out' := .next (busWrite s r .main bBeat F.BEAT_HOLD_HOLD.off v)
/-- BEAT_OPEN (R172). -/
def execBeatOpen (s : State) : Out' := .next (beatOpen s)
/-- HUB_TALLY (R187). -/
def execHubTally (l : LoomId) (n round e d rep : Nat) (s : State) : Out' := .next (hubTally s l n round e d rep)
/-- BEAT_HUB_SUMS (R187). -/
def execBeatHubSums (h : HubId) (n round e d rep : Nat) (s : State) : Out' := .next (hubSums s h n round e d rep)
/-- BEAT_EMIT_DONE_REPORT (R172). -/
def execBeatEmitDoneReport (l : LoomId) (s : State) : Out' := .next (beatEmitted s l)
/-- JOB_WAIT_TIMEOUT (R188). -/
def execJobWaitTimeout (peer : Fin 16) (s : State) : Out' := .next (jobTimeout s peer)
/-- HOLDING_TIMER (R188). -/
def execHoldingTimer (s : State) : Out' := .next (holdingTimer s)
/-- BEAT_FAULT_REPORT (R194). -/
def execBeatFaultReport (b : Nat) (code : BitVec 16) (hbm : Bool) (s : State) : Out' := .next (faultReport s b code.toNat hbm)
/-- RETRY_DRAIN_DONE (R195). -/
def execRetryDrainDone (s : State) : Out' := .next (drainEnd s)
/-- RETRY_DRAIN_TIMEOUT (R195). -/
def execRetryDrainTimeout (s : State) : Out' := .next (drainTimeout s)
/-- LAGEXCEED (R192). -/
def execLagexceed (s : State) : Out' := .next (lagExceed s)

/-! ## Streams -/

/-- STREAM_PACKET_RECEIVE (R180). -/
def execStreamPacketReceive (l : LoomId) (h : StreamHdr) (ws : List W64) (s : State) : Out' := .next (streamPacket s l h ws)
/-- REPICK_CLOSEWAIT_EXPIRY (R185). -/
def execRepickClosewaitExpiry (l : LoomId) (pkg : BitVec 4) (endpoint tag : BitVec 11) (s : State) : Out' :=
  .next (closewaitExpiry s l (streamKey pkg.toNat endpoint.toNat tag.toNat))
/-- REPICK_WAIT_EXPIRY (R185). -/
def execRepickWaitExpiry (l : LoomId) (pkg : BitVec 4) (endpoint tag : BitVec 11) (first : Option Nat) (s : State) : Out' :=
  .next (repickwaitExpiry s l (streamKey pkg.toNat endpoint.toNat tag.toNat) first)
/-- REPICK_RECEIVE (R176, R186, R476), by glimmer port `port` if by any: at a loom, or at a reed port; no other endpoint is a source. -/
def execRepickReceive (src tag : BitVec 11) (pkg : BitVec 4) (dst : BitVec 11) (part : BitVec 5) (port : Option PortId) (w : W64)
    (s : State) : Out' :=
  let e := src.toNat
  .next (if e < 0x300 then repickPacket s e tag.toNat pkg.toNat dst.toNat part.toNat port w
    else if 0x400 ≤ e ∧ e ≤ 0x407 then
      reedRepick s (e - 0x400) tag.toNat (bits w.toNat 59 44) (bits w.toNat 43 12) (bits w.toNat 11 0) pkg.toNat dst.toNat
    else s)

end Sys2Proof.Machine
end

