-- ==== Sys2Proof/Machine/RowsIo.lean ====
section
/-!
DEFINITION. The meanings of the commands of chapter 14: reed ports, the host port, SPDM, the vehicle interfaces, the warden port.
-/

namespace Sys2Proof.Machine

/-! ## Reed ports -/

/-- REED_PACKET_RECEIVE (R464). -/
def execReedPacketReceive (p : PortId) (ecc short crc : Bool) (vc : BitVec 5) (dt : BitVec 6) (data : List Byte) (lost : Nat)
    (s : State) : Out' :=
  .next (reedPacket s p ecc short crc vc.toNat dt.toNat data lost)
/-- REED_FLUSH_START (R474). -/
def execReedFlushStart (p : PortId) (s : State) : Out' := .next (reedFlush s p)
/-- REED_REPLAY_RECORD (R478). -/
def execReedReplayRecord (p : PortId) (s : State) : Out' := .next (reedReplay s p)
/-- MIRROR_RECORD_RECEIVE (R517): a record of reed port `p` on glimmer port `g`. -/
def execMirrorRecordReceive (g p : PortId) (mseq : Word) (lt : W64) (word : Word) (s : State) : Out' :=
  .next (mirrorArrive s g p mseq.toNat ⟨lt.toInt, word.toNat⟩)
/-- MIRROR_WAIT_EXPIRY (R518). -/
def execMirrorWaitExpiry (p : PortId) (s : State) : Out' := .next (mirrorExpire s p)
/-- REED_I3CCMD_WRITE (R482). -/
def execReedI3ccmdWrite (r : Requester) (p : PortId) (v : Word) (s : State) : Out' :=
  .next (busWrite s r .main (bReed p) F.REED_I3CCMD_ADDR.off v)
/-- I3C_TRANSFER_DONE (R480). -/
def execI3cTransferDone (p : PortId) (nack : Bool) (data : List Byte) (s : State) : Out' := .next (i3cDone s p nack data)
/-- I3C_IBI (R480). -/
def execI3cIbi (p : PortId) (addr : BitVec 7) (s : State) : Out' := .next (i3cIbi s p addr.toNat)

/-! ## The host port -/

/-- The requester of a PCIe function: the device for PF0, partition p for VF p + 1 (R487). -/
def funReq (f : Fin 17) : Requester := if h : f.val = 0 then .device else .part ⟨f.val - 1, by omega⟩

/-- A request through BAR0 (R39, R487, R488): while the link is up it is performed on the control region, an aligned pair as two accesses. A
read is completed: 0 success, 1 error, 2 Completer Abort, with the data; writes are posted. During a compute-partition reset a frame of the
compute partition is not reached. -/
def hostRequest (s : State) (f : Fin 17) (write : Bool) (a : Nat) (v : Word) (wd : Width) : State :=
  let answer := fun (s : State) (st : Nat) (d : List Nat) => if write then s else send s .pcie f (st :: d)
  if !rdB s bHostport F.HOSTPORT_LINK_UP then s
  else if cpResetting s && inCompute (a / 0x10000) then
    (if write then inc s bHostport F.HOSTPORT_RSTDROP_COUNT else answer s 2 [0])
  else if selvCut s (a / 0x10000) then answer (latchFault s bHostport 0x8002) 1 [0]
  else
    let p := ctlAccess s (funReq f) a write v
    match wd with
    | .word => if a % 4 ≠ 0 then answer s 1 [0] else answer p.2.2 (if p.1 then 0 else 1) [p.2.1.toNat]
    | .pair hi =>
      let q := ctlAccess p.2.2 (funReq f) (a + 4) write hi
      if a % 8 ≠ 0 then answer s 1 [0]
      else if p.1 && q.1 then answer q.2.2 0 [p.2.1.toNat, q.2.1.toNat]
      else answer q.2.2 1 [0]
    | .other => answer s 1 [0]

/-- HOST_REQUEST. -/
def execHostRequest (f : Fin 17) (write : Bool) (addr : BitVec 28) (v : Word) (wd : Width) (s : State) : Out' :=
  .next (hostRequest s f write addr.toNat v wd)
/-- HOSTPORT_DOORBELL (R487). -/
def execHostportDoorbell (r : Requester) (v : Word) (s : State) : Out' :=
  .next (busWrite s r .main bHostport F.HOSTPORT_DOORBELL_VECTOR.off v)
/-- HOSTPORT_WINCTL_EN_WRITE (R489). -/
def execHostportWinctlEnWrite (r : Requester) (v : Word) (s : State) : Out' :=
  .next (busWrite s r .main bHostport F.HOSTPORT_WINCTL_EN.off v)
/-- PCIE_FLR (R492) of VF p + 1. -/
def execPcieFlr (p : Fin 16) (s : State) : Out' := .next (flr s p)
/-- PCIE_LINK_DOWN (R493). -/
def execPcieLinkDown (s : State) : Out' := .next (pcieDown s)
/-- PCIE_LINK_UP (R493). -/
def execPcieLinkUp (width speed : BitVec 4) (s : State) : Out' := .next (pcieUp s width.toNat speed.toNat)

/-! ## SPDM (R491, R492) -/

/-- GET_VERSION. -/
def execGetVersion (f : Fin 17) (s : State) : Out' := .next (spdmVersion s f)
/-- GET_CAPABILITIES. -/
def execGetCapabilities (f : Fin 17) (s : State) : Out' := .next (spdmCaps s f)
/-- NEGOTIATE_ALGORITHMS. -/
def execNegotiateAlgorithms (f : Fin 17) (s : State) : Out' := .next (spdmAlgs s f)
/-- GET_DIGESTS. -/
def execGetDigests (f : Fin 17) (s : State) : Out' := .next (spdmDigests s f)
/-- GET_CERTIFICATE. -/
def execGetCertificate (f : Fin 17) (slot : BitVec 4) (off len : BitVec 16) (s : State) : Out' :=
  .next (spdmCert s f slot.toNat off.toNat len.toNat)
/-- CHALLENGE. -/
def execChallenge (f : Fin 17) (slot : BitVec 4) (nonce : List Byte) (s : State) : Out' := .next (spdmChallenge s f slot.toNat nonce)
/-- GET_MEASUREMENTS. -/
def execGetMeasurements (f : Fin 17) (nonce : List Byte) (s : State) : Out' := .next (spdmMeasure s f nonce)
/-- KEY_EXCHANGE. -/
def execKeyExchange (f : Fin 17) (point : List Byte) (s : State) : Out' := .next (spdmKeyExchange s f point)
/-- FINISH. -/
def execFinish (f : Fin 17) (mac : List Byte) (s : State) : Out' := .next (spdmFinish s f mac)
/-- KEY_UPDATE. -/
def execKeyUpdate (f : Fin 17) (s : State) : Out' := .next (spdmUpdate s f)
/-- HEARTBEAT. -/
def execHeartbeat (f : Fin 17) (s : State) : Out' := .next (spdmHeartbeat s f)
/-- END_SESSION. -/
def execEndSession (f : Fin 17) (s : State) : Out' := .next (spdmEndSession s f)

/-! ## Vehicle interfaces -/

/-- NETIO_RTAIL_WRITE (R497). -/
def execNetioRtailWrite (r : Requester) (v : Word) (s : State) : Out' := .next (busWrite s r .main bNetio F.NETIO_RTAIL_TAIL.off v)
/-- ETH_FRAME_RECEIVE (R494). -/
def execEthFrameReceive (m : Fin 4) (ring : Fin 8) (data : List Byte) (err : Bool) (s : State) : Out' :=
  .next (ethReceive s m ring data err)
/-- ETH_FRAME_TRANSMITTED (R494). -/
def execEthFrameTransmitted (m : Fin 4) (ring : Fin 8) (err : Bool) (s : State) : Out' := .next (ethSent s m ring err)
/-- CAN_FRAME_RECEIVE (R496). -/
def execCanFrameReceive (m : Fin 4) (ring : Fin 8) (idFlags dlc : Word) (data : List Byte) (s : State) : Out' :=
  .next (canReceive s m ring idFlags.toNat dlc.toNat data)
/-- CAN_FRAME_TRANSMITTED (R496). -/
def execCanFrameTransmitted (m : Fin 4) (ring : Fin 8) (s : State) : Out' := .next (canSent s m ring)
/-- GPIO_EDGE (R497). -/
def execGpioEdge (pin : Fin 32) (rising : Bool) (s : State) : Out' := .next (gpioEdge s pin rising)

/-! ## The warden port (R499, R500) -/

/-- READ. -/
def execRead (a : Word) (crc : Byte) (s : State) : Out' := .next (wardenRead s a crc)
/-- WRITE. -/
def execWrite (a v : Word) (crc : Byte) (s : State) : Out' := .next (wardenWrite s a v crc)
/-- IDENT. -/
def execIdent (crc : Byte) (s : State) : Out' := .next (wardenIdent s crc)
/-- STATUS. -/
def execStatus (crc : Byte) (s : State) : Out' := .next (wardenStatus s crc)
/-- DUMP. -/
def execDump (off : BitVec 16) (n crc : Byte) (s : State) : Out' := .next (wardenDump s off n crc)
/-- RESET. -/
def execReset (level key crc : Byte) (s : State) : Out' := .next (wardenReset s level key crc)
/-- LASEROFF. -/
def execLaseroff (key crc : Byte) (s : State) : Out' := .next (wardenLaseroff s key crc)

/-- A command of CUSTODY_CMD (R574). -/
def custodyWrite (s : State) (r : Requester) (code : Nat) (certs : List (List Byte)) (secs : List (Nat × Nat × Nat)) : State :=
  regDo s r bCustody F.CUSTODY_CMD_CODE.off (BitVec.ofNat 32 code) (fun u => custodyCommand u (asReq s r) code certs secs)

/-- SCRAP (R574): command 0x2F, whose key stands in CUSTODY_ARG0, or a frame of the warden port. -/
def execScrap (r : Option Requester) (key : Word) (crc : Byte) (s : State) : Out' :=
  .next (match r with
    | some r => custodyWrite s r 0x2F [] []
    | none => wardenScrap s key crc)

/-- WARDEN_FRAME_ABORT (R500): CS_N rises before the CRC byte, and the frame does nothing. -/
def execWardenFrameAbort (s : State) : Out' := .next s

end Sys2Proof.Machine
end

