-- ==== Sys2Proof/Machine/RowsCustody.lean ====
section
/-!
DEFINITION. The meanings of the commands of chapter 17: Lantern's mailbox commands are writes of CUSTODY_CMD with their codes (R574, R575).
-/

namespace Sys2Proof.Machine

/-- VERIFY (R557 to R561); the encrypted sections that the model image holds come as operands (log entry 58). -/
def execVerify (r : Requester) (secs : List (Nat × Nat × Nat)) (s : State) : Out' := .next (custodyWrite s r 0x01 [] secs)
/-- SVNCOMMIT (R560). -/
def execSvncommit (r : Requester) (s : State) : Out' := .next (custodyWrite s r 0x02 [] [])
/-- ATTEST (R564). -/
def execAttest (r : Requester) (s : State) : Out' := .next (custodyWrite s r 0x03 [] [])
/-- PCREATE (R571). -/
def execPcreate (r : Requester) (s : State) : Out' := .next (custodyWrite s r 0x10 [] [])
/-- PACTIVATE (R571). -/
def execPactivate (r : Requester) (s : State) : Out' := .next (custodyWrite s r 0x11 [] [])
/-- PSUSPEND (R571). -/
def execPsuspend (r : Requester) (s : State) : Out' := .next (custodyWrite s r 0x12 [] [])
/-- PDESTROY (R571). -/
def execPdestroy (r : Requester) (s : State) : Out' := .next (custodyWrite s r 0x13 [] [])
/-- PASSIGN (R572). -/
def execPassign (r : Requester) (s : State) : Out' := .next (custodyWrite s r 0x14 [] [])
/-- PRELEASE (R573). -/
def execPrelease (r : Requester) (s : State) : Out' := .next (custodyWrite s r 0x15 [] [])
/-- NONCE (R567). -/
def execNonce (r : Requester) (s : State) : Out' := .next (custodyWrite s r 0x20 [] [])
/-- NONCE_EXPIRY (R567). -/
def execNonceExpiry (s : State) : Out' := .next (nonceExpire s)
/-- LCMOVE (R569). -/
def execLcmove (r : Requester) (s : State) : Out' := .next (custodyWrite s r 0x21 [] [])
/-- OWNERKEY (R566). -/
def execOwnerkey (r : Requester) (s : State) : Out' := .next (custodyWrite s r 0x22 [] [])
/-- RELOCK (R566). -/
def execRelock (r : Requester) (s : State) : Out' := .next (custodyWrite s r 0x23 [] [])
/-- PROVISION (R566) with the two identity certificates. -/
def execProvision (r : Requester) (certEd certMl : List Byte) (s : State) : Out' :=
  .next (custodyWrite s r 0x24 [certEd, certMl] [])
/-- LCINIT (R566). -/
def execLcinit (r : Requester) (s : State) : Out' := .next (custodyWrite s r 0x25 [] [])
/-- CUSTODY_COMMAND_DONE (R576). -/
def execCustodyCommandDone (s : State) : Out' := .next (custodyDone s)
/-- TRNG_HEALTH_FAIL (R551). -/
def execTrngHealthFail (s : State) : Out' := .next (trngFail s)
/-- DRBG_RESEED (R551). -/
def execDrbgReseed (s : State) : Out' := .next (drbgReseed s)

end Sys2Proof.Machine
end

