-- ==== Sys2Proof/Machine/RowsFabric.lean ====
section
/-!
DEFINITION. The meanings of the commands of chapters 10 and 11: the fabric, row maps, ply queues, the selvedge network, channels and
lamps.
-/

namespace Sys2Proof.Machine

/-! ## Fabric and rows -/

/-- FABRIC_PACKET_ROUTE (R332, R333, R338, R349): a packet's flits reach an input of a router; `left` tells that its HEAD has gone on before
the rest arrived. -/
def execFabricPacketRoute (row : Fin 24) (mcol : Fin 34) (port : Fin 6) (col : Fin 32) (flits : List (BitVec 256 × BitVec 26)) (left : Bool)
    (s : State) : Out' :=
  .next (routerIn s row mcol port col flits left)

/-- LOOM_NITHROT_WRITE (R367). -/
def execLoomNithrotWrite (r : Requester) (l : LoomId) (v : Word) (s : State) : Out' :=
  .next (busWrite s r .main (bLoom l) F.LOOM_NITHROT_THRON.off v)

/-- HUB_ROWGO (R354): a write with GO. -/
def execHubRowgo (r : Requester) (h : HubId) (v : Word) (s : State) : Out' :=
  .next (busWrite s r .main (bHub h) F.HUB_ROWGO_GO.off (fldSet F.HUB_ROWGO_GO v 1))

/-- ROW_MAP_APPLIED (R354). -/
def execRowMapApplied (h : HubId) (i : Fin 3) (s : State) : Out' := .next (rowApplied s h i)

/-- HUB_ROWISO_WRITE (R355). -/
def execHubRowisoWrite (r : Requester) (h : HubId) (v : Word) (s : State) : Out' :=
  .next (busWrite s r .main (bHub h) F.HUB_ROWISO_ISO.off v)

/-- STITCHED_HOP_DOWN (R369). -/
def execStitchedHopDown (row : Fin 24) (s : State) : Out' :=
  let up := rd s bSeam F.SEAM_LINKUP_UP
  .next (if bit up row then latchFault (wr s bSeam F.SEAM_LINKUP_UP (up - 2 ^ row.val)) bSeam 0x0401 else s)

/-! ## Ply queues (R357 to R361) -/

/-- HUB_PLY_ARM. -/
def execHubPlyArm (r : Requester) (h : HubId) (s : State) : Out' := .next (fieldWrite s r (bHub h) F.HUB_PLYCTL_OP 1)
/-- HUB_PLY_DISARM. -/
def execHubPlyDisarm (r : Requester) (h : HubId) (s : State) : Out' := .next (fieldWrite s r (bHub h) F.HUB_PLYCTL_OP 2)
/-- HUB_PLY_FORCE. -/
def execHubPlyForce (r : Requester) (h : HubId) (s : State) : Out' := .next (fieldWrite s r (bHub h) F.HUB_PLYCTL_OP 3)
/-- PLY_ARM_BROADCAST. -/
def execPlyArmBroadcast (l : LoomId) (q : BitVec 8) (s : State) : Out' := .next (plyArmed' s l q.toNat)
/-- PLY_CONTRIBUTION. -/
def execPlyContribution (h : HubId) (q : Fin 16) (part : BitVec 5) (l : LoomId) (k : Word) (v : W64) (s : State) : Out' :=
  .next (plyArrive s h q part.toNat l k.toNat v.toInt)
/-- PLY_CREDIT_RECEIVE (R352, R359). -/
def execPlyCreditReceive (l : LoomId) (part : BitVec 5) (q : BitVec 8) (credited : Word) (nack : Option Word) (s : State) : Out' :=
  .next (niTake s l part.toNat (plyCredited l q.toNat credited.toNat (nack.map (·.toNat))))
/-- PLY_RESEND_TIMEOUT. -/
def execPlyResendTimeout (l : LoomId) (q : BitVec 8) (k : Word) (s : State) : Out' := .next (plyResend s l q.toNat k.toNat)
/-- PLY_RESULT_RECEIVE (R352, R359). -/
def execPlyResultReceive (l : LoomId) (part : BitVec 5) (q : BitVec 8) (k : Word) (v : W64) (doff reslen : Nat) (lamp : Option (BitVec 14))
    (s : State) : Out' :=
  .next (plyResultIn s l part.toNat q.toNat k.toNat v doff reslen (lamp.map (·.toNat)))
/-- PLY_RESULT_RESEND_TIMEOUT. -/
def execPlyResultResendTimeout (h : HubId) (q : Fin 16) (s : State) : Out' := .next (plyResults s h q)
/-- PLY_CONFIRM. -/
def execPlyConfirm (h : HubId) (q : Fin 16) (k : Word) (s : State) : Out' := .next (plyConfirmed s h q k.toNat)

/-! ## Selvedge network -/

/-- SELVEDGE_PACKET (R363, R365): its header, data words and CRC-8. -/
def execSelvedgePacket (h : HubId) (hdr : Word) (ws : List Word) (crc : Byte) (s : State) : Out' :=
  .next (selvPacket s h hdr ws crc.toNat)

/-- SELVEDGE_REQUEST_TIMEOUT (R51, R499): the block whose request it was latches SELVTIMEOUT; a warden access ends with TIMEOUT. -/
def execSelvedgeRequestTimeout (b : Option Nat) (s : State) : Out' :=
  .next (match b with
    | some b => if (kindOf b).isSome then latchFault s b 0x8002 else s
    | none => wardenTimeout s)

/-! ## Channels -/

/-- CHANNEL_MESSAGE_RECEIVE (R383, R391). -/
def execChannelMessageReceive (l : Option LoomId) (spkg : BitVec 4) (sep : BitVec 11) (part : BitVec 5) (ws : List W64) (s : State) :
    Out' :=
  .next (match l with
    | some l => msgArrive s l spkg.toNat sep.toNat part.toNat ws
    | none => apcMsg s spkg.toNat sep.toNat part.toNat ws)

/-- CHANNEL_CREDIT_RECEIVE (R384, R391). -/
def execChannelCreditReceive (l : Option LoomId) (part : BitVec 5) (chan : BitVec 12) (ack freed : BitVec 16) (gen : BitVec 4)
    (closed nack probe : Bool) (s : State) : Out' :=
  .next (match l with
    | some l => creditArrive s l part.toNat chan.toNat ack.toNat freed.toNat gen.toNat closed nack probe
    | none => apcCreditIn s part.toNat chan.toNat ack.toNat freed.toNat gen.toNat closed nack probe)

/-- CHANNEL_RESEND_TIMEOUT (R384). -/
def execChannelResendTimeout (l : Option LoomId) (e : BitVec 10) (s : State) : Out' :=
  .next (match l with
    | some l => chResend s l e.toNat
    | none => apcResend s e.toNat)

/-- CHANNEL_PROBE_TIMER (R384). -/
def execChannelProbeTimer (l : Option LoomId) (e : BitVec 10) (s : State) : Out' :=
  .next (match l with
    | some l => chProbe s l e.toNat
    | none => apcProbe s e.toNat)

/-- LOOM_CHCTL_CLOSE (R387): a write of 1 to CLOSE. -/
def execLoomChctlClose (r : Requester) (l : LoomId) (v : Word) (s : State) : Out' :=
  .next (busWrite s r .main (bLoom l) F.LOOM_CHCTL_CLOSE.off (fldSet F.LOOM_CHCTL_CLOSE v 1))

/-- APC_CHSEND_HI_WRITE (R391). -/
def execApcChsendHiWrite (r : Requester) (v : Word) (s : State) : Out' := .next (busWrite s r .main bApc F.APC_CHSEND_HI_ADDR.off v)

/-- APC_CHDONE (R391). -/
def execApcChdone (r : Requester) (v : Word) (s : State) : Out' :=
  .next (busWrite s r .main bApc F.APC_CHDONE_DONE.off (fldSet F.APC_CHDONE_DONE v 1))

/-! ## Lamps -/

/-- LAMP_ADD (R395). -/
def execLampAdd (h : HubId) (i : BitVec 10) (tag : BitVec 5) (v : W64) (s : State) : Out' :=
  .next (lampAdd s h i.toNat tag.toNat v.toNat)

/-- LAMP_WATCH_PLACE (R396): a watch of a loom's main program or of its activation, for its LWAIT number `tok`. -/
def execLampWatchPlace (h : HubId) (l : LoomId) (main : Bool) (i : BitVec 10) (target tmo : W64) (tok : Nat)
    (s : State) : Out' :=
  .next (loomWatch s h (2 * l.val + (if main then 0 else 1)) i.toNat (rd s (bLoom l) F.OWNER_PART) target.toNat tmo.toNat tok)

/-- LAMP_WATCH_DEADLINE (R397). -/
def execLampWatchDeadline (h : HubId) (who : Nat) (s : State) : Out' := .next (watchDeadline s h who)

/-- LAMP_WATCH_COMPLETE (R402). -/
def execLampWatchComplete (l : LoomId) (main : Bool) (lamp : BitVec 14) (res : BitVec 3) (tok : Nat) (s : State) : Out' :=
  .next (watchDone s l main lamp.toNat res.toNat tok)

/-- LAMP_WATCH_CANCEL (R402). -/
def execLampWatchCancel (h : HubId) (who : Nat) (s : State) : Out' := .next (watchCancel s h who)

/-- HUB_LAMPADD_HI_WRITE (R405). -/
def execHubLampaddHiWrite (r : Requester) (h : HubId) (v : Word) (s : State) : Out' :=
  .next (busWrite s r .main (bHub h) F.HUB_LAMPADD_HI_ADD.off v)

/-- HUB_LAMPFORCE_HI_WRITE (R401). -/
def execHubLampforceHiWrite (r : Requester) (h : HubId) (v : Word) (s : State) : Out' :=
  .next (busWrite s r .main (bHub h) F.HUB_LAMPFORCE_HI_VALUE.off v)

/-- HUB_WATCH_ARM (R405). -/
def execHubWatchArm (r : Requester) (h : HubId) (s : State) : Out' := .next (fieldWrite s r (bHub h) F.HUB_WATCHCTL_OP 1)

/-- HUB_WATCH_CANCEL (R405). -/
def execHubWatchCancel (r : Requester) (h : HubId) (s : State) : Out' := .next (fieldWrite s r (bHub h) F.HUB_WATCHCTL_OP 2)

end Sys2Proof.Machine
end

