-- ==== Sys2Proof/Machine/RowsGlimmer.lean ====
section
/-!
DEFINITION. The meanings of the commands of chapter 15: glimmer links, marks, elections, laser modules.
-/

namespace Sys2Proof.Machine

/-! ## Frames and marks -/

/-- GLIMMER_FRAME_RECEIVE (R503). -/
def execGlimmerFrameReceive (p : PortId) (fec : Fin 3) (payload : BitVec 5140) (s : State) : Out' :=
  .next (frameReceive s p fec payload.toNat)

/-- A mark of a kind that arrives by itself on a live port. -/
def markBy (s : State) (p kind : Nat) (m : BitVec 120) (f : State → Nat → State) : State :=
  if glimLive s p then f s (m.toNat / 16 * 16 + kind) else s

/-- MIRREQ (R518). -/
def execMirreq (p : PortId) (m : BitVec 120) (s : State) : Out' := .next (markBy s p mkMirreq m (fun s m => mirreqMark s p m))
/-- CLOSED (R188). -/
def execClosed (p : PortId) (m : BitVec 120) (s : State) : Out' := .next (markBy s p mkClosed m (fun s m => closedMark s p m))
/-- HOLDING (R188). -/
def execHolding (p : PortId) (m : BitVec 120) (s : State) : Out' := .next (markBy s p mkHolding m (fun s m => holdingMark s p m))
/-- ABORT (R196). -/
def execAbort (p : PortId) (m : BitVec 120) (s : State) : Out' := .next (markBy s p mkAbort m (fun s m => abortMark s p m))
/-- RESTART (R195). -/
def execRestart (p : PortId) (m : BitVec 120) (s : State) : Out' := .next (markBy s p mkRestart m (fun s m => restartMark s p m))
/-- TSYNC (R515). -/
def execTsync (p : PortId) (m : BitVec 120) (s : State) : Out' := .next (markBy s p mkTsync m (fun s m => tsyncMark s p m))
/-- DIGEST (R512). -/
def execDigest (p : PortId) (m : BitVec 120) (s : State) : Out' := .next (markBy s p mkDigest m (fun s m => digestMark s p m))
/-- ELECT (R521). -/
def execElect (p : PortId) (m : BitVec 120) (s : State) : Out' := .next (markBy s p mkElect m (fun s m => electMark s p m))
/-- LANEMAP (R508). -/
def execLanemap (p : PortId) (m : BitVec 120) (s : State) : Out' := .next (markBy s p mkLanemap m (fun s m => lanemapMark s p m))
/-- PARTNER_DIGEST_STALE (R203). -/
def execPartnerDigestStale (n : BitVec 16) (s : State) : Out' := .next (partnerStale s n.toNat)

/-! ## Link states (R507, R508, R513, R514, R526) -/

/-- GLIM_CFG_EN_WRITE. -/
def execGlimCfgEnWrite (r : Requester) (p : PortId) (v : Word) (s : State) : Out' :=
  .next (busWrite s r .main (bGlimmer p) F.GLIM_CFG_EN.off v)
/-- GLIMMER_PEER_LIGHT. -/
def execGlimmerPeerLight (p : PortId) (lanes : Nat) (s : State) : Out' := .next (peerLight s p lanes)
/-- GLIMMER_TRAIN_DONE. -/
def execGlimmerTrainDone (p : PortId) (lanes : BitVec 8) (pkg : BitVec 4) (port : BitVec 3) (s : State) : Out' :=
  .next (trainDone s p lanes.toNat pkg.toNat port.toNat)
/-- GLIMMER_TRAIN_TIMEOUT. -/
def execGlimmerTrainTimeout (p : PortId) (s : State) : Out' := .next (trainFail s p)
/-- GLIMMER_LANE_FAIL. -/
def execGlimmerLaneFail (p : PortId) (lane : Fin 8) (dark : Bool) (errs : Nat) (s : State) : Out' := .next (laneFail s p lane dark errs)
/-- LANEMAP_SWITCH. -/
def execLanemapSwitch (p : PortId) (s : State) : Out' := .next (lanemapSwitch s p)
/-- GLIMMER_OPEN_FIBRE. -/
def execGlimmerOpenFibre (p : PortId) (s : State) : Out' := .next (openFibre s p)
/-- PROBE_PULSE_TIMER. -/
def execProbePulseTimer (p : PortId) (s : State) : Out' := .next (probePulse s p)
/-- PACKAGE_LOST_CODE_SEEN. -/
def execPackageLostCodeSeen (p : PortId) (s : State) : Out' := .next (lostSeen s p)
/-- WAKE_CODE_SEEN: WAKESEEN, and the wake source of R654. -/
def execWakeCodeSeen (p : PortId) (s : State) : Out' := .next (wakeSource (wr s (bGlimmer p) F.GLIM_STAT_WAKESEEN 1) 2)
/-- GLIM_SENDWAKE_WRITE. -/
def execGlimSendwakeWrite (r : Requester) (p : PortId) (v : Word) (s : State) : Out' :=
  .next (busWrite s r .main (bGlimmer p) F.GLIM_CFG_SENDWAKE.off v)

/-! ## Timers of the links and elections -/

/-- TSYNC_SEND_TIMER (R515). -/
def execTsyncSendTimer (p : PortId) (s : State) : Out' := .next (tsyncSend s p)
/-- JOB_MARK_REPEAT_TIMER (R511). -/
def execJobMarkRepeatTimer (p : PortId) (s : State) : Out' := .next (markRepeat s p)
/-- ELECT_SEND_TIMER (R521). -/
def execElectSendTimer (s : State) : Out' := .next (electSend s)
/-- ELECT_SETTLE_TIMEOUT (R521). -/
def execElectSettleTimeout (s : State) : Out' := .next (electSettle s)
/-- FM_ELECT_LOST (R521). -/
def execFmElectLost (s : State) : Out' := .next (fmLost s)
/-- GLIM_PKGRT_WRITE (R519): word `word` of the table on GLIMMER 0. -/
def execGlimPkgrtWrite (r : Requester) (word : Fin 2) (v : Word) (s : State) : Out' :=
  .next (busWrite s r .main (bGlimmer 0) (F.GLIM_PKGRT_ENTRY.off + 4 * word) v)

/-! ## Laser modules (R523 to R527) -/

/-- LASER_MODULE_INSERT. -/
def execLaserModuleInsert (m : Fin 2) (serial : Nat) (record sigEd sigMl : List Byte) (powered hot drift : Nat) (s : State) : Out' :=
  .next (lasInsert s m serial record sigEd sigMl powered hot drift)
/-- LASER_MODULE_VERIFIED. -/
def execLaserModuleVerified (m : Fin 2) (s : State) : Out' := .next (lasVerified s m)
/-- LASER_MODULE_FAIL. -/
def execLaserModuleFail (m : Fin 2) (s : State) : Out' := .next (lasFail s m)
/-- LASER_MODULE_REMOVE. -/
def execLaserModuleRemove (m : Fin 2) (s : State) : Out' := .next (lasRemove s m)
/-- LASER_LIFE_HOUR. -/
def execLaserLifeHour (m : Fin 2) (drift caset : Nat) (s : State) : Out' := .next (lasHour s m drift caset)
/-- LASER_CTL_LIGHT_WRITE. -/
def execLaserCtlLightWrite (r : Requester) (v : Word) (s : State) : Out' := .next (busWrite s r .main bLaser F.LASER_CTL_LIGHT.off v)
/-- LASER_CTL_RELEASE: LIGHT as it stands. -/
def execLaserCtlRelease (r : Requester) (v : Word) (s : State) : Out' :=
  .next (busWrite s r .main bLaser F.LASER_CTL_RELEASE.off (fldSet F.LASER_CTL_LIGHT v (rd s bLaser F.LASER_CTL_LIGHT)))

end Sys2Proof.Machine
end

