-- ==== Sys2Proof/Machine/RowsLoom.lean ====
section
/-!
DEFINITION. The meanings of the commands of chapters 03, 04, 06, 07 and 09: a loom in a beat, route and row caches, batten, tensioner
snapshots, sequencer control, banks and their test.
-/

namespace Sys2Proof.Machine

/-! ## Loom in a beat (R110) -/

/-- THDATA_WRITE (R85): word `word` of the selected threshold-table entry. -/
def execThdataWrite (r : Requester) (l : LoomId) (word : Fin 4) (v : Word) (s : State) : Out' :=
  .next (busWrite s r .main (bLoom l) (F.LOOM_THDATA0_THETA.off + 4 * word) v)

/-- LOOM_OPEN_RECEIVE. -/
def execLoomOpenReceive (l : LoomId) (n : Nat) (s : State) : Out' := .next (loomOpen s l n)

/-- LOOM_OPEN_ACK (R280): once no activation runs and no bank drains; the report reaches the beat engine. -/
def execLoomOpenAck (l : LoomId) (s : State) : Out' := .next (if openAckOk s l then beatAck (loomAck s l) l else s)

/-- SPILL_READBACK_DONE (R107). -/
def execSpillReadbackDone (l : LoomId) (s : State) : Out' := .next (spillBack s l)

/-- LOOM_SETTLE (R93). -/
def execLoomSettle (l : LoomId) (n : Nat) (s : State) : Out' := .next (loomSettle s l n)

/-- The last slot of loom `l` has been updated: the writes that were held take effect, and the shuttles of its row that waited for them
complete (R112, R147, R423). -/
def slotsWritten (s : State) (l : Nat) : State :=
  forEach [loomShuttle l, sibling (loomShuttle l)] (fun k s => shResume s k) (modLoom s l heldApply)

/-- LOOM_SETTLE_DONE (R110): the slots are done the first time that it comes in a SETTLE, and the report follows once everything is
(log entry 115). -/
def settleStep (s : State) (l : Nat) : State :=
  let s := if (loom s l).phase = .settle ∧ !(loom s l).slotsDone then slotsWritten s l else s
  if settleDoneOk s l then beatSettled (loomSettled s l) l else s

/-- LOOM_SETTLE_DONE. -/
def execLoomSettleDone (l : LoomId) (s : State) : Out' := .next (settleStep s l)

/-- LOOM_EMIT_DONE (R110): the report travels to the beat engine. -/
def execLoomEmitDone (l : LoomId) (s : State) : Out' :=
  .next (if emitDoneOk s l then send (loomEmitted s l) .emitDone (bLoom l) [] else s)

/-! ## Routes and rows -/

/-- ROUTE_CACHE_INVALIDATE (R127). -/
def execRouteCacheInvalidate (l : LoomId) (pop : BitVec 20) (s : State) : Out' := .next (routeInvalidate s l pop.toNat)

/-- HUB_DIRREQ (R352). -/
def execHubDirreq (h : HubId) (l : LoomId) (pop : BitVec 20) (s : State) : Out' := .next (dirRequest s h l pop.toNat)

/-- DIRRSP_RECEIVE (R136, R352): the response answers the oldest miss of the population. -/
def execDirrspReceive (l : LoomId) (part : BitVec 5) (pop : BitVec 20) (valid : Bool) (w1 w2 : Word) (s : State) : Out' :=
  .next (niTake s l part.toNat (dirAnswer l pop.toNat valid w1.toNat w2.toNat))

/-- DIRREQ_TIMEOUT (R350). -/
def execDirreqTimeout (l : LoomId) (pop : BitVec 20) (s : State) : Out' := .next (dirRetry s l pop.toNat)

/-- ROUTE_CACHE_FILL_DONE (R135). -/
def execRouteCacheFillDone (l : LoomId) (pop : BitVec 20) (idx : Nat) (ok : Bool) (rc : List Byte) (s : State) : Out' :=
  .next (routeFill s l pop.toNat idx ok rc)

/-- ROW_CACHE_FILL_DONE (R150). -/
def execRowCacheFillDone (l : LoomId) (line : Nat) (ok : Bool) (data : List Byte) (s : State) : Out' := .next (rowFill s l line ok data)

/-- LOOM_RCINV (R151): a write of 1 to INV. -/
def execLoomRcinv (r : Requester) (l : LoomId) (v : Word) (s : State) : Out' :=
  .next (busWrite s r .main (bLoom l) F.LOOM_RCINV_INV.off (fldSet F.LOOM_RCINV_INV v 1))

/-! ## Batten and tensioner -/

/-- BATTEN_OP_DONE (R224); `ue` is an uncorrectable error in an accumulator file (R238). -/
def execBattenOpDone (l : LoomId) (ue : Bool) (s : State) : Out' := .next (battenDone s l ue)

/-- LOOM_BRUN (R224): a write with GO. -/
def execLoomBrun (r : Requester) (l : LoomId) (v : Word) (s : State) : Out' :=
  .next (busWrite s r .main (bLoom l) F.LOOM_BRUN_GO.off (fldSet F.LOOM_BRUN_GO v 1))

/-- The snapshot of a loom is in Lamplighter's staging area (R268), or its copy fails, and with it the checkpoint. -/
def ckptSnapEnd (s : State) (l : Nat) (x : TSnap) (ok : Bool) : State :=
  let b := bLoom l
  let s := wr (modLoom s l (fun m => { m with tsnap := none })) b F.LOOM_TSNAPCTL_BUSY 0
  if ok then
    wr (wrPair s b F.LOOM_TSNAPBEAT_LO_N F.LOOM_TSNAPBEAT_HI_N x.beat) b F.LOOM_TSNAPSEQ_SEQ (rd s b F.LOOM_TSNAPSEQ_SEQ + 1)
  else ckptFail (latchFault (wr s b F.LOOM_TSNAPCTL_ERR 1) b 0x010E)

/-- The copy of a weight snapshot ends: its record is in HBM, or the copy fails (R266, R268). -/
def tsnapEnd (s : State) (l : Nat) (ok : Bool) : State :=
  let b := bLoom l
  match (loom s l).tsnap with
  | none => s
  | some x =>
    if x.ckpt then ckptSnapEnd s l x ok else
    let s := wr (wr (modLoom s l (fun m => { m with tsnap := none })) b F.LOOM_TSNAPCTL_BUSY 0) b F.LOOM_TSNAPCTL_GO 0
    let dst := rdPair s b F.LOOM_TSNAPDST_LO_ADDR F.LOOM_TSNAPDST_HI_ADDR
    let seq := rd s b F.LOOM_TSNAPSEQ_SEQ + 1
    let w := if ok then hbmWriteRun s b (rd s b F.OWNER_PART) dst (snapRecord l seq x) else (hMemerr, 0, s)
    if w.1 = hOk then
      wr (wrPair w.2.2 b F.LOOM_TSNAPBEAT_LO_N F.LOOM_TSNAPBEAT_HI_N x.beat) b F.LOOM_TSNAPSEQ_SEQ seq
    else latchFault (wr w.2.2 b F.LOOM_TSNAPCTL_ERR 1) b 0x010E

/-- TSNAP_DONE. -/
def execTsnapDone (l : LoomId) (ok : Bool) (s : State) : Out' := .next (tsnapEnd s l ok)

/-! ## Sequencer control -/

/-- LOOM_SEQCTL_RUN (R279). -/
def execLoomSeqctlRun (r : Requester) (l : LoomId) (v : Word) (s : State) : Out' :=
  .next (busWrite s r .main (bLoom l) F.LOOM_SEQCTL_RUN.off (fldSet F.LOOM_SEQCTL_RESTART v 0))

/-- LOOM_SEQCTL_RESTART (R302): RUN as it stands. -/
def execLoomSeqctlRestart (r : Requester) (l : LoomId) (v : Word) (s : State) : Out' :=
  .next (busWrite s r .main (bLoom l) F.LOOM_SEQCTL_RESTART.off
    (fldSet F.LOOM_SEQCTL_RUN (fldSet F.LOOM_SEQCTL_RESTART v 1) (rd s (bLoom l) F.LOOM_SEQCTL_RUN)))

/-! ## Scratch banks -/

/-- BANK_DRAIN_DONE (R316). -/
def execBankDrainDone (l : LoomId) (k : Fin 8) (s : State) : Out' := .next (bankGo (drainDone s l k) l)
/-- BTEST_REGION_START (R323). -/
def execBtestRegionStart (l : LoomId) (s : State) : Out' := .next (testStart s l)
/-- BTEST_REGION_DONE (R325). -/
def execBtestRegionDone (l : LoomId) (pass : Bool) (s : State) : Out' := .next (bankGo (testDone s l pass) l)
/-- LOOM_BTESTINT_WRITE (R329). -/
def execLoomBtestintWrite (r : Requester) (l : LoomId) (v : Word) (s : State) : Out' :=
  .next (busWrite s r .main (bLoom l) F.LOOM_BTESTINT_CYCLES.off v)
/-- LOOM_BREMAP (R326): a write with GO. -/
def execLoomBremap (r : Requester) (l : LoomId) (v : Word) (s : State) : Out' :=
  .next (busWrite s r .main (bLoom l) F.LOOM_BREMAP_GO.off (fldSet F.LOOM_BREMAP_GO v 1))
/-- BANK_MOVE_DONE (R326). -/
def execBankMoveDone (l : LoomId) (k : Fin 8) (s : State) : Out' := .next (bankGo (moveDone s l k) l)

end Sys2Proof.Machine
end

