-- ==== Sys2Proof/Machine/RowsMem.lean ====
section
/-!
DEFINITION. The meanings of the commands of chapters 12 and 13: shuttles, HBM requests, regions.
-/

namespace Sys2Proof.Machine

/-! ## Shuttles -/

/-- SH_GO (R419). -/
def execShGo (r : Requester) (k : ShId) (s : State) : Out' := .next (fieldWrite s r (bShuttle k) F.SH_CTL_GO 1)
/-- SH_ABORT (R431). -/
def execShAbort (r : Requester) (k : ShId) (s : State) : Out' := .next (fieldWrite s r (bShuttle k) F.SH_CTL_ABORT 1)
/-- SHUTTLE_DESCRIPTOR_START (R418). -/
def execShuttleDescriptorStart (k : ShId) (marks : LineMarks) (s : State) : Out' := .next (shStart (memMarks s marks) k)
/-- SHUTTLE_TRANSFER_DONE (R423). -/
def execShuttleTransferDone (k : ShId) (host : List Byte) (marks : LineMarks) (s : State) : Out' :=
  .next (shFinish (memMarks s marks) k host)

/-! ## Memory requests (R439) -/

/-- HBM_REQUEST. -/
def execHbmRequest (req : BitVec 12) (tag : BitVec 5) (rseq : BitVec 12) (write : Bool) (addr : BitVec 48) (size : BitVec 3)
    (data : List Byte) (marks : LineMarks) (s : State) : Out' :=
  .next (hbmRequest (memMarks s marks) req.toNat tag.toNat rseq.toNat write addr.toNat size.toNat data)
/-- A memory response reaches a loom's interface (R352): its OWNER's, the custody lane's or the package's own. One for the spill region ends
that request (R107, R117). -/
def loomResponse (s : State) (l part c rseq st : Nat) : State :=
  let b := bLoom l
  if isolated s l then isoDrop s l
  else
    let s := inc s b F.LOOM_NIPKTRX_COUNT
    if part ≠ rd s b F.OWNER_PART ∧ part ≠ 0x1E ∧ part ≠ 0x1F then latchFault (inc s b F.LOOM_PARTDROP_COUNT) b 0x0115
    else
      let q := (hbmTx s b c).unans.find? (fun q => q.rseq = rseq)
      let s := hbmResponse s b c rseq st
      match q with
      | some q => if q.spill then spillAnswered s l q st else s
      | none => s

/-- A memory response reaches the application cluster: one to a request that is open, with a status other than OK, is an error response
(R38, R438). -/
def apcResponse (s : State) (c rseq st : Nat) : State :=
  let open' := (hbmTx s bApc c).unans.any (fun q => q.rseq = rseq)
  let t := hbmResponse s bApc c rseq st
  if open' && st != hOk && st != hResend then send (inc t bApc F.APC_DECODEERR_COUNT) .resp 0x1F [0, 0] else t

/-- HBM_RESPONSE. -/
def execHbmResponse (req : BitVec 12) (part : BitVec 5) (c : HbmcId) (rseq : BitVec 12) (status : BitVec 3) (s : State) : Out' :=
  .next (match kindOf req.toNat with
    | some .loom => loomResponse s (req.toNat - 0x100) part.toNat c rseq.toNat status.toNat
    | some .apc => apcResponse s c rseq.toNat status.toNat
    | _ => hbmResponse s req.toNat c rseq.toNat status.toNat)
/-- HBM_REQUEST_TIMEOUT. -/
def execHbmRequestTimeout (req : BitVec 12) (c : HbmcId) (s : State) : Out' := .next (hbmTimeout s req.toNat c)

/-! ## Regions and errors -/

/-- MC_APPLY (R444). -/
def execMcApply (r : Requester) (s : State) : Out' := .next (fieldWrite s r bMemcrypt F.MC_REGCTL_OP 1)
/-- MC_WIPE (R455). -/
def execMcWipe (r : Requester) (s : State) : Out' := .next (fieldWrite s r bMemcrypt F.MC_REGCTL_OP 2)
/-- REGION_WIPE_DONE (R455, R573). -/
def execRegionWipeDone (i : Fin 64) (s : State) : Out' :=
  .next (if tabGet 0 s.mem.rstate i = 1 then releaseDone (regionWiped s i) (65536 + i) else s)
/-- HBMC_POISONCLR (R459): a write with GO. -/
def execHbmcPoisonclr (r : Requester) (c : HbmcId) (v : Word) (s : State) : Out' :=
  .next (busWrite s r .main (bHbmc c) F.HBMC_POISONCLR_GO.off (fldSet F.HBMC_POISONCLR_GO v 1))
/-- HBM_SCRUB_TIMER (R454). -/
def execHbmScrubTimer (c : HbmcId) (addr : BitVec 48) (marks : LineMarks) (s : State) : Out' :=
  .next (hbmScrub (memMarks s marks) c addr.toNat)

end Sys2Proof.Machine
end

