-- ==== Sys2Proof/Machine/RowsSystem.lean ====
section
/-!
DEFINITION. The meanings of the commands of chapters 18, 19, 20 and 22: resets and bring-up, Lamplighter, power, supplies and references.
-/

namespace Sys2Proof.Machine

/-! ## Resets and bring-up (chapter 18) -/

/-- A reset that takes the straps and, with `powerOn`, senses the fuses (R582, R588). -/
def resetWith (s : State) (powerOn : Bool) (pins : ResetPins) : State :=
  let s := if powerOn then pinsTake s (pins.ce.map BitVec.toNat) (pins.ue.map BitVec.toNat) else s
  packageReset s powerOn pins.pkgid.toNat

/-- PACKAGE_RESET (R588). -/
def execPackageReset (powerOn : Bool) (pins : ResetPins) (s : State) : Out' := .next (resetWith s powerOn pins)

/-- PORST_ASSERT (R676). -/
def execPorstAssert (pins : ResetPins) (s : State) : Out' := .next (resetWith s false pins)

/-- ALWAYS_ON_RAIL_LOSS (R676): the always-on island comes up anew once its rails are back. -/
def execAlwaysOnRailLoss (pins : ResetPins) (s : State) : Out' := .next (resetWith s true pins)

/-- COMPUTE_PARTITION_RESET (R592). -/
def execComputePartitionReset (s : State) : Out' := .next (computeResetAsked s)

/-- FUSE_TRECINV (R599): a write of FUSE_TRECINV with GO 1. -/
def execFuseTrecinv (r : Requester) (v : Word) (s : State) : Out' :=
  .next (busWrite s r .main bFuse F.FUSE_TRECINV_GO.off (fldSet F.FUSE_TRECINV_GO v 1))

/-- A step of what runs ends: of a bring-up (R589), of a compute-partition reset (R592), or of an exit from S2 whose stack fails its
quick check (R652). -/
def stepEnds (s : State) (step : Nat) (e : StepEnd) : State :=
  if s.boot.active && s.boot.cpr then
    match cpStep s step e with
    | some t => t
    | none => packageReset s false (selfPkg s)
  else if s.boot.active then bootStep s step e
  else if step = 3 && !e.ok then exitStackFails s
  else s

/-- BRINGUP_STEP_DONE (R589 to R592, R597): blocks that come up may end a rung (R624). -/
def execBringupStepDone (step : BitVec 4) (e : StepEnd) (s : State) : Out' := .next (rungsCheck (stepEnds s step.toNat e))

/-! ## Lamplighter (chapter 19) -/

/-- FAULT_REPORT (R607). -/
def execFaultReport (b : Nat) (code : BitVec 16) (s : State) : Out' := .next (faultIn s b code.toNat)
/-- DARN_LOAD_DONE (R617). -/
def execDarnLoadDone (l : LoomId) (ok : Bool) (s : State) : Out' := .next (darnLoaded s l.val ok)
/-- DARN_REPLAY_DONE (R617, R618). -/
def execDarnReplayDone (l : LoomId) (ok : Bool) (s : State) : Out' := .next (darnReplayed s l.val ok)
/-- DARN_TIMEOUT (R620). -/
def execDarnTimeout (l : LoomId) (s : State) : Out' := .next (darnTimeout s l.val)
/-- SNAPSHOT_COMPLETE (R612). -/
def execSnapshotComplete (l : LoomId) (ok : Bool) (s : State) : Out' := .next (snapshotDone s l.val ok)
/-- LOG_DRAIN_DONE (R614, R615). -/
def execLogDrainDone (l : LoomId) (s : State) : Out' := .next (logDrained s l.val)
/-- RUNG_TIMEOUT (R624). -/
def execRungTimeout (b : Nat) (s : State) : Out' := .next (rungTimeout s b)
/-- HANDOVER (R635). -/
def execHandover (s : State) : Out' := .next (handover s)
/-- LL_CTL_FAULTCLR (R635): a write of LL_CTL with FAULTCLR 1. -/
def execLlCtlFaultclr (r : Requester) (v : Word) (s : State) : Out' :=
  .next (busWrite s r .main bLamplighter F.LL_CTL_FAULTCLR.off (fldSet F.LL_CTL_FAULTCLR v 1))
/-- LL_CTL_DUMP (R629): a write of LL_CTL with DUMP 1. -/
def execLlCtlDump (r : Requester) (v : Word) (s : State) : Out' :=
  .next (busWrite s r .main bLamplighter F.LL_CTL_DUMP.off (fldSet F.LL_CTL_DUMP v 1))
/-- DUMP_READ_RESPONSE (R629). -/
def execDumpReadResponse (s : State) : Out' := .next (dumpRead s)
/-- DUMP_READ_TIMEOUT (R629). -/
def execDumpReadTimeout (s : State) : Out' := .next (dumpTimeout s)
/-- LAMPLIGHTER_HEARTBEAT_LOST (R632). -/
def execLamplighterHeartbeatLost (s : State) : Out' := .next (heartLost s)
/-- LAMPLIGHTER_RETURN (R632). -/
def execLamplighterReturn (s : State) : Out' := .next (heartBack s)
/-- LANTERN_HEARTBEAT_LOST (R633). -/
def execLanternHeartbeatLost (s : State) : Out' := .next (lanternSilent s)
/-- DEADMAN_EXPIRY (R634). -/
def execDeadmanExpiry (s : State) : Out' := .next (deadman s)
/-- LL_CKPTCTL_GO (R639): a write of LL_CKPTCTL with GO 1. -/
def execLlCkptctlGo (r : Requester) (v : Word) (s : State) : Out' :=
  .next (busWrite s r .main bLamplighter F.LL_CKPTCTL_GO.off (fldSet F.LL_CKPTCTL_GO v 1))
/-- CKPT_AUTO_TIMER (R639). -/
def execCkptAutoTimer (s : State) : Out' := .next (ckptAuto s)
/-- CHECKPOINT_COMMIT (R638). -/
def execCheckpointCommit (ok : Bool) (s : State) : Out' := .next (ckptCommit s ok)

/-! ## Power (chapter 20) -/

/-- A write of POWER_SLEEP with target `n`; `wfi` says that every hart but the requester's is in WFI. -/
def powerSleep (s : State) (r : Requester) (n : Nat) (f : State → State) : State :=
  regDo s r bPower F.POWER_SLEEP_TARGET.off (BitVec.ofNat 32 n) f

/-- POWER_SLEEP_S1 (R650). -/
def execPowerSleepS1 (r : Requester) (wfi : Bool) (s : State) : Out' := .next (powerSleep s r 1 (fun s => sleepRequest s 1 wfi))
/-- POWER_SLEEP_S2 (R651). -/
def execPowerSleepS2 (r : Requester) (wfi : Bool) (s : State) : Out' := .next (powerSleep s r 2 (fun s => sleepRequest s 2 wfi))
/-- POWER_SLEEP_S3 (R651). -/
def execPowerSleepS3 (r : Requester) (wfi : Bool) (s : State) : Out' := .next (powerSleep s r 3 (fun s => sleepRequest s 3 wfi))
/-- POWER_LEAVE_S1 (R654). -/
def execPowerLeaveS1 (r : Requester) (s : State) : Out' := .next (powerSleep s r 0 sleepLeave)
/-- APC_PWRREQ_WRITE (R647): APC_PWRREQ, or with `budget` APC_PWRBUDGET. -/
def execApcPwrreqWrite (r : Requester) (budget : Bool) (v : Word) (wfi : Bool) (s : State) : Out' :=
  .next (regDo s r bApc (if budget then F.APC_PWRBUDGET_W.off else F.APC_PWRREQ_SLEEP.off) v (fun s => pwrReq s budget v wfi))
/-- SLEEP_ENTRY_DONE (R651). -/
def execSleepEntryDone (s : State) : Out' := .next (sleepEntered s)
/-- WAKE_EVENT (R654). -/
def execWakeEvent (src : Fin 7) (s : State) : Out' := .next (wakeSource s src.val)
/-- WAKE_SENSE_DEBOUNCE (R654). -/
def execWakeSenseDebounce (s : State) : Out' := .next (wakeSense s)
/-- WAKEAT_REACHED (R654). -/
def execWakeatReached (s : State) : Out' := .next (wakeAt s)
/-- SLEEP_EXIT_DONE (R652). -/
def execSleepExitDone (s : State) : Out' := .next (sleepExited s)
/-- THERMAL_SAMPLE (R649). -/
def execThermalSample (temps : List Int) (s : State) : Out' := .next (thermalSample s temps)
/-- CATASTROPHIC_TEMP_FLAG (R649): the stacks exist while their rails are up. -/
def execCatastrophicTempFlag (_stack : Fin 2) (s : State) : Out' := .next (if s.pw.enHbm then thermTrip s else s)
/-- LEVEL_CHANGE_DONE (R644). -/
def execLevelChangeDone (s : State) : Out' := .next (levelDone s)

/-! ## Supplies and references (chapter 22) -/

/-- RAIL_FAULT (R677): `rail` is a row of R673; an alert comes from a loom regulator, rows 10 and 11 (R674). -/
def execRailFault (rail : Fin 12) (alert : Bool) (s : State) : Out' :=
  .next (if alert && rail.val < 10 then s else railFaulted s rail.val)
/-- XTAL_LOST (R679). -/
def execXtalLost (s : State) : Out' := .next (xtalLost s)
/-- POWER_GOOD_TIMEOUT (R675): whichever group it is, step 5 fails. -/
def execPowerGoodTimeout (_g : Fin 3) (s : State) : Out' := .next (powerGoodTimeout s ⟨false, 0, [], [], 0, 0, 0, [], 0⟩)

end Sys2Proof.Machine
end

