-- ==== Sys2Proof/Machine/RowsTimer.lean ====
section
/-!
DEFINITION. The meanings of the commands of chapter 16: the timer block.
-/

namespace Sys2Proof.Machine

/-- An event of the timer whose IRQEN bit is set, which is the one thing here that asserts the block's line, is a wake source (R654). -/
def timerWake (before after : State) : State :=
  if (after.out.drop before.out.length).any (fun m => m.kind == .apc && m.dst == bTimer) then wakeSource after 3 else after

/-- TIMER_TICK (R534 to R540). -/
def execTimerTick (c : TimId) (pins : BitVec 24) (s : State) : Out' := .next (timerWake s (timTick s c.val pins.toNat))

/-- TIMER_ENABLE (R535): a write of TIMER_CTL with EN 1. -/
def execTimerEnable (r : Requester) (c : TimId) (v : Word) (s : State) : Out' :=
  .next (busWrite s r .main bTimer (tf F.TIMER_CTL_EN c.val).off (fldSet F.TIMER_CTL_EN v 1))

/-- TIMER_RELOAD_WRITE (R539). -/
def execTimerReloadWrite (r : Requester) (c : TimId) (v : Word) (s : State) : Out' :=
  .next (busWrite s r .main bTimer (tf F.TIMER_RELOAD_RELOAD c.val).off v)

/-- TIMER_CMP_WRITE (R538). -/
def execTimerCmpWrite (r : Requester) (c : TimId) (v : Word) (s : State) : Out' :=
  .next (busWrite s r .main bTimer (tf F.TIMER_CMP_CMP c.val).off v)

/-- TIMER_CAPTURE_EDGE (R541). -/
def execTimerCaptureEdge (c : TimId) (rising : Bool) (s : State) : Out' := .next (timerWake s (timEdge s c.val rising))

/-- TIMER_CAP_READ (R542). -/
def execTimerCapRead (r : Requester) (c : TimId) (s : State) : Out' :=
  .next (busRead s r .main bTimer (tf F.TIMER_CAP_CAP c.val).off)

/-- TIMER_STARTGO (R543). -/
def execTimerStartgo (r : Requester) (v : Word) (s : State) : Out' := .next (busWrite s r .main bTimer F.TIMER_STARTGO_MASK.off v)

/-- TIMER_START_TIME (R543). -/
def execTimerStartTime (s : State) : Out' := .next (timStartTime s)

/-- TIMER_DEBUG_HALT (R544): a hart is halted by the debug module only in the lifecycles that enable it (R570). -/
def execTimerDebugHalt (halted : Bool) (s : State) : Out' := .next (timHalt s (halted && forceOk s .device))

end Sys2Proof.Machine
end

