-- ==== Sys2Proof/Machine/Dispatch.lean ====
section
/-!
DEFINITION. Which meaning each command calls, in the order of spec/opcode_table.json.
-/

namespace Sys2Proof.Machine

def exec (i : Instr) (s : State) : Host.Outcome State Fault Refusal :=
  match i with
  | .registerWrite r b off v wd => Sys2Proof.Machine.execRegisterWrite r b off v wd s
  | .rcCounterRead r b off wd => Sys2Proof.Machine.execRcCounterRead r b off wd s
  | .latchingLoRead r b off wd => Sys2Proof.Machine.execLatchingLoRead r b off wd s
  | .bitSetAliasWrite r b off v wd => Sys2Proof.Machine.execBitSetAliasWrite r b off v wd s
  | .bitClearAliasWrite r b off v wd => Sys2Proof.Machine.execBitClearAliasWrite r b off v wd s
  | .shadowViewWrite r b off v wd => Sys2Proof.Machine.execShadowViewWrite r b off v wd s
  | .resetReq r b => Sys2Proof.Machine.execResetReq r b s
  | .blockResetDone b => Sys2Proof.Machine.execBlockResetDone b s
  | .modeChangeWrite r b v => Sys2Proof.Machine.execModeChangeWrite r b v s
  | .begin r b => Sys2Proof.Machine.execBegin r b s
  | .commit r b => Sys2Proof.Machine.execCommit r b s
  | .rollback r b => Sys2Proof.Machine.execRollback r b s
  | .arm r => Sys2Proof.Machine.execArm r s
  | .cancel r => Sys2Proof.Machine.execCancel r s
  | .release r => Sys2Proof.Machine.execRelease r s
  | .groupPrepareAnswer slot b => Sys2Proof.Machine.execGroupPrepareAnswer slot b s
  | .groupPrepareTimeout slot b => Sys2Proof.Machine.execGroupPrepareTimeout slot b s
  | .apcVmpartWrite r hart v => Sys2Proof.Machine.execApcVmpartWrite r hart v s
  | .managementTick watts work => Sys2Proof.Machine.execManagementTick watts work s
  | .thdataWrite r l word v => Sys2Proof.Machine.execThdataWrite r l word v s
  | .loomOpenReceive l n => Sys2Proof.Machine.execLoomOpenReceive l n s
  | .loomOpenAck l => Sys2Proof.Machine.execLoomOpenAck l s
  | .spillReadbackDone l => Sys2Proof.Machine.execSpillReadbackDone l s
  | .loomSettle l n => Sys2Proof.Machine.execLoomSettle l n s
  | .loomSettleDone l => Sys2Proof.Machine.execLoomSettleDone l s
  | .loomEmitDone l => Sys2Proof.Machine.execLoomEmitDone l s
  | .routeCacheInvalidate l pop => Sys2Proof.Machine.execRouteCacheInvalidate l pop s
  | .hubDirreq h l pop => Sys2Proof.Machine.execHubDirreq h l pop s
  | .dirrspReceive l part pop valid w1 w2 => Sys2Proof.Machine.execDirrspReceive l part pop valid w1 w2 s
  | .dirreqTimeout l pop => Sys2Proof.Machine.execDirreqTimeout l pop s
  | .routeCacheFillDone l pop idx ok rc => Sys2Proof.Machine.execRouteCacheFillDone l pop idx ok rc s
  | .rowCacheFillDone l line ok data => Sys2Proof.Machine.execRowCacheFillDone l line ok data s
  | .loomRcinv r l v => Sys2Proof.Machine.execLoomRcinv r l v s
  | .ltimeStepHiWrite r v => Sys2Proof.Machine.execLtimeStepHiWrite r v s
  | .ltimeRateWrite r v => Sys2Proof.Machine.execLtimeRateWrite r v s
  | .syncInEdge => Sys2Proof.Machine.execSyncInEdge s
  | .ltimeSourceTimeout => Sys2Proof.Machine.execLtimeSourceTimeout s
  | .beatArm r v => Sys2Proof.Machine.execBeatArm r v s
  | .beatStop r v => Sys2Proof.Machine.execBeatStop r v s
  | .beatLaunch => Sys2Proof.Machine.execBeatLaunch s
  | .beatHoldWrite r v => Sys2Proof.Machine.execBeatHoldWrite r v s
  | .beatOpen => Sys2Proof.Machine.execBeatOpen s
  | .hubTally l n round e d rep => Sys2Proof.Machine.execHubTally l n round e d rep s
  | .beatHubSums h n round e d rep => Sys2Proof.Machine.execBeatHubSums h n round e d rep s
  | .beatEmitDoneReport l => Sys2Proof.Machine.execBeatEmitDoneReport l s
  | .jobWaitTimeout peer => Sys2Proof.Machine.execJobWaitTimeout peer s
  | .holdingTimer => Sys2Proof.Machine.execHoldingTimer s
  | .beatFaultReport b code hbm => Sys2Proof.Machine.execBeatFaultReport b code hbm s
  | .retryDrainDone => Sys2Proof.Machine.execRetryDrainDone s
  | .retryDrainTimeout => Sys2Proof.Machine.execRetryDrainTimeout s
  | .streamPacketReceive l h ws => Sys2Proof.Machine.execStreamPacketReceive l h ws s
  | .repickClosewaitExpiry l pkg endpoint tag => Sys2Proof.Machine.execRepickClosewaitExpiry l pkg endpoint tag s
  | .repickWaitExpiry l pkg endpoint tag first => Sys2Proof.Machine.execRepickWaitExpiry l pkg endpoint tag first s
  | .repickReceive src tag pkg dst part port w => Sys2Proof.Machine.execRepickReceive src tag pkg dst part port w s
  | .battenOpDone l ue => Sys2Proof.Machine.execBattenOpDone l ue s
  | .loomBrun r l v => Sys2Proof.Machine.execLoomBrun r l v s
  | .tsnapDone l ok => Sys2Proof.Machine.execTsnapDone l ok s
  | .loomSeqctlRun r l v => Sys2Proof.Machine.execLoomSeqctlRun r l v s
  | .loomSeqctlRestart r l v => Sys2Proof.Machine.execLoomSeqctlRestart r l v s
  | .activationDispatch l => Sys2Proof.Machine.execActivationDispatch l s
  | .seqBudgetExpiry l cycles => Sys2Proof.Machine.execSeqBudgetExpiry l cycles s
  | .trapHandlerLimit l => Sys2Proof.Machine.execTrapHandlerLimit l s
  | .illegalInstruction l => Sys2Proof.Machine.execIllegalInstruction l s
  | .sum l d a b => Sys2Proof.Machine.execSum l d a b s
  | .diff l d a b => Sys2Proof.Machine.execDiff l d a b s
  | .and l d a b => Sys2Proof.Machine.execAnd l d a b s
  | .or l d a b => Sys2Proof.Machine.execOr l d a b s
  | .xor l d a b => Sys2Proof.Machine.execXor l d a b s
  | .shl l d a b => Sys2Proof.Machine.execShl l d a b s
  | .shrl l d a b => Sys2Proof.Machine.execShrl l d a b s
  | .shra l d a b => Sys2Proof.Machine.execShra l d a b s
  | .lt l d a b => Sys2Proof.Machine.execLt l d a b s
  | .ltu l d a b => Sys2Proof.Machine.execLtu l d a b s
  | .mullo l d a b => Sys2Proof.Machine.execMullo l d a b s
  | .mulhs l d a b => Sys2Proof.Machine.execMulhs l d a b s
  | .mulhu l d a b => Sys2Proof.Machine.execMulhu l d a b s
  | .mins l d a b => Sys2Proof.Machine.execMins l d a b s
  | .maxs l d a b => Sys2Proof.Machine.execMaxs l d a b s
  | .minu l d a b => Sys2Proof.Machine.execMinu l d a b s
  | .maxu l d a b => Sys2Proof.Machine.execMaxu l d a b s
  | .lzc l d a => Sys2Proof.Machine.execLzc l d a s
  | .ones l d a => Sys2Proof.Machine.execOnes l d a s
  | .rne l d a b => Sys2Proof.Machine.execRne l d a b s
  | .sats l d a b => Sys2Proof.Machine.execSats l d a b s
  | .quos l d a b => Sys2Proof.Machine.execQuos l d a b s
  | .quou l d a b => Sys2Proof.Machine.execQuou l d a b s
  | .mods l d a b => Sys2Proof.Machine.execMods l d a b s
  | .modu l d a b => Sys2Proof.Machine.execModu l d a b s
  | .addk l d a k => Sys2Proof.Machine.execAddk l d a k s
  | .maskk l d a k => Sys2Proof.Machine.execMaskk l d a k s
  | .setk l d a k => Sys2Proof.Machine.execSetk l d a k s
  | .flipk l d a k => Sys2Proof.Machine.execFlipk l d a k s
  | .ltk l d a k => Sys2Proof.Machine.execLtk l d a k s
  | .ltku l d a k => Sys2Proof.Machine.execLtku l d a k s
  | .shk l d a k => Sys2Proof.Machine.execShk l d a k s
  | .highk l d a k => Sys2Proof.Machine.execHighk l d a k s
  | .constK l d k => Sys2Proof.Machine.execConstK l d k s
  | .hereK l d k => Sys2Proof.Machine.execHereK l d k s
  | .get8 l d a k => Sys2Proof.Machine.execGet8 l d a k s
  | .get8u l d a k => Sys2Proof.Machine.execGet8u l d a k s
  | .get16 l d a k => Sys2Proof.Machine.execGet16 l d a k s
  | .get16u l d a k => Sys2Proof.Machine.execGet16u l d a k s
  | .get32 l d a k => Sys2Proof.Machine.execGet32 l d a k s
  | .get32u l d a k => Sys2Proof.Machine.execGet32u l d a k s
  | .get64 l d a k => Sys2Proof.Machine.execGet64 l d a k s
  | .put8 l c a k => Sys2Proof.Machine.execPut8 l c a k s
  | .put16 l c a k => Sys2Proof.Machine.execPut16 l c a k s
  | .put32 l c a k => Sys2Proof.Machine.execPut32 l c a k s
  | .put64 l c a k => Sys2Proof.Machine.execPut64 l c a k s
  | .aadd l d a b => Sys2Proof.Machine.execAadd l d a b s
  | .aswap l d a b => Sys2Proof.Machine.execAswap l d a b s
  | .acas l d a b => Sys2Proof.Machine.execAcas l d a b s
  | .rld l d a wide => Sys2Proof.Machine.execRld l d a wide s
  | .rst l a b wide => Sys2Proof.Machine.execRst l a b wide s
  | .remoteResponse l ok data => Sys2Proof.Machine.execRemoteResponse l ok data s
  | .remoteTimeout l => Sys2Proof.Machine.execRemoteTimeout l s
  | .ifeq l c a k => Sys2Proof.Machine.execIfeq l c a k s
  | .ifne l c a k => Sys2Proof.Machine.execIfne l c a k s
  | .iflt l c a k => Sys2Proof.Machine.execIflt l c a k s
  | .ifge l c a k => Sys2Proof.Machine.execIfge l c a k s
  | .ifltu l c a k => Sys2Proof.Machine.execIfltu l c a k s
  | .ifgeu l c a k => Sys2Proof.Machine.execIfgeu l c a k s
  | .leap l d k => Sys2Proof.Machine.execLeap l d k s
  | .leapr l d a k => Sys2Proof.Machine.execLeapr l d a k s
  | .yield l => Sys2Proof.Machine.execYield l s
  | .endOp l => Sys2Proof.Machine.execEndOp l s
  | .tret l => Sys2Proof.Machine.execTret l s
  | .trets l => Sys2Proof.Machine.execTrets l s
  | .iflush l => Sys2Proof.Machine.execIflush l s
  | .rdlt l d => Sys2Proof.Machine.execRdlt l d s
  | .rdbeat l d => Sys2Proof.Machine.execRdbeat l d s
  | .rdround l d => Sys2Proof.Machine.execRdround l d s
  | .rdcyc l d => Sys2Proof.Machine.execRdcyc l d s
  | .rdphase l d => Sys2Proof.Machine.execRdphase l d s
  | .trap l k => Sys2Proof.Machine.execTrap l k s
  | .accadd l e a b => Sys2Proof.Machine.execAccadd l e a b s
  | .brun l d a => Sys2Proof.Machine.execBrun l d a s
  | .bwait l => Sys2Proof.Machine.execBwait l s
  | .bstat l d => Sys2Proof.Machine.execBstat l d s
  | .shsub l d a => Sys2Proof.Machine.execShsub l d a s
  | .shwait l d a => Sys2Proof.Machine.execShwait l d a s
  | .shtest l d a => Sys2Proof.Machine.execShtest l d a s
  | .csend l d a b => Sys2Proof.Machine.execCsend l d a b s
  | .ctry l d a b => Sys2Proof.Machine.execCtry l d a b s
  | .cpoll l d a => Sys2Proof.Machine.execCpoll l d a s
  | .cdone l d a => Sys2Proof.Machine.execCdone l d a s
  | .lsig l d a b => Sys2Proof.Machine.execLsig l d a b s
  | .lwait l d a b => Sys2Proof.Machine.execLwait l d a b s
  | .lread l d a b => Sys2Proof.Machine.execLread l d a b s
  | .plyput l d a b => Sys2Proof.Machine.execPlyput l d a b s
  | .bankDrainDone l k => Sys2Proof.Machine.execBankDrainDone l k s
  | .btestRegionStart l => Sys2Proof.Machine.execBtestRegionStart l s
  | .btestRegionDone l pass => Sys2Proof.Machine.execBtestRegionDone l pass s
  | .loomBtestintWrite r l v => Sys2Proof.Machine.execLoomBtestintWrite r l v s
  | .loomBremap r l v => Sys2Proof.Machine.execLoomBremap r l v s
  | .bankMoveDone l k => Sys2Proof.Machine.execBankMoveDone l k s
  | .fabricPacketRoute row mcol port col flits left => Sys2Proof.Machine.execFabricPacketRoute row mcol port col flits left s
  | .loomNithrotWrite r l v => Sys2Proof.Machine.execLoomNithrotWrite r l v s
  | .hubRowgo r h v => Sys2Proof.Machine.execHubRowgo r h v s
  | .rowMapApplied h k => Sys2Proof.Machine.execRowMapApplied h k s
  | .hubRowisoWrite r h v => Sys2Proof.Machine.execHubRowisoWrite r h v s
  | .hubPlyArm r h => Sys2Proof.Machine.execHubPlyArm r h s
  | .hubPlyDisarm r h => Sys2Proof.Machine.execHubPlyDisarm r h s
  | .hubPlyForce r h => Sys2Proof.Machine.execHubPlyForce r h s
  | .plyArmBroadcast l q => Sys2Proof.Machine.execPlyArmBroadcast l q s
  | .plyContribution h q part l k v => Sys2Proof.Machine.execPlyContribution h q part l k v s
  | .plyCreditReceive l part q credited nack => Sys2Proof.Machine.execPlyCreditReceive l part q credited nack s
  | .plyResendTimeout l q k => Sys2Proof.Machine.execPlyResendTimeout l q k s
  | .plyResultReceive l part q k v doff reslen lamp => Sys2Proof.Machine.execPlyResultReceive l part q k v doff reslen lamp s
  | .plyResultResendTimeout h q => Sys2Proof.Machine.execPlyResultResendTimeout h q s
  | .plyConfirm h q k => Sys2Proof.Machine.execPlyConfirm h q k s
  | .selvedgePacket h hdr ws crc => Sys2Proof.Machine.execSelvedgePacket h hdr ws crc s
  | .channelMessageReceive l spkg sep part ws => Sys2Proof.Machine.execChannelMessageReceive l spkg sep part ws s
  | .channelCreditReceive l part chan ack freed gen closed nack probe => Sys2Proof.Machine.execChannelCreditReceive l part chan ack freed gen closed nack probe s
  | .channelResendTimeout l e => Sys2Proof.Machine.execChannelResendTimeout l e s
  | .channelProbeTimer l e => Sys2Proof.Machine.execChannelProbeTimer l e s
  | .loomChctlClose r l v => Sys2Proof.Machine.execLoomChctlClose r l v s
  | .apcChsendHiWrite r v => Sys2Proof.Machine.execApcChsendHiWrite r v s
  | .apcChdone r v => Sys2Proof.Machine.execApcChdone r v s
  | .lampAdd h k tag v => Sys2Proof.Machine.execLampAdd h k tag v s
  | .lampWatchPlace h l main k target tmo tok => Sys2Proof.Machine.execLampWatchPlace h l main k target tmo tok s
  | .lampWatchDeadline h who => Sys2Proof.Machine.execLampWatchDeadline h who s
  | .lampWatchComplete l main lamp res tok => Sys2Proof.Machine.execLampWatchComplete l main lamp res tok s
  | .lampWatchCancel h who => Sys2Proof.Machine.execLampWatchCancel h who s
  | .hubLampaddHiWrite r h v => Sys2Proof.Machine.execHubLampaddHiWrite r h v s
  | .hubLampforceHiWrite r h v => Sys2Proof.Machine.execHubLampforceHiWrite r h v s
  | .hubWatchArm r h => Sys2Proof.Machine.execHubWatchArm r h s
  | .hubWatchCancel r h => Sys2Proof.Machine.execHubWatchCancel r h s
  | .shGo r k => Sys2Proof.Machine.execShGo r k s
  | .shAbort r k => Sys2Proof.Machine.execShAbort r k s
  | .shuttleDescriptorStart k marks => Sys2Proof.Machine.execShuttleDescriptorStart k marks s
  | .shuttleTransferDone k host marks => Sys2Proof.Machine.execShuttleTransferDone k host marks s
  | .hbmRequest req tag rseq write addr size data marks => Sys2Proof.Machine.execHbmRequest req tag rseq write addr size data marks s
  | .hbmResponse req part c rseq status => Sys2Proof.Machine.execHbmResponse req part c rseq status s
  | .hbmRequestTimeout req c => Sys2Proof.Machine.execHbmRequestTimeout req c s
  | .mcApply r => Sys2Proof.Machine.execMcApply r s
  | .mcWipe r => Sys2Proof.Machine.execMcWipe r s
  | .regionWipeDone k => Sys2Proof.Machine.execRegionWipeDone k s
  | .hbmcPoisonclr r c v => Sys2Proof.Machine.execHbmcPoisonclr r c v s
  | .hbmScrubTimer c addr marks => Sys2Proof.Machine.execHbmScrubTimer c addr marks s
  | .reedPacketReceive p ecc short crc vc dt data lost => Sys2Proof.Machine.execReedPacketReceive p ecc short crc vc dt data lost s
  | .reedFlushStart p => Sys2Proof.Machine.execReedFlushStart p s
  | .reedReplayRecord p => Sys2Proof.Machine.execReedReplayRecord p s
  | .mirrorRecordReceive g p mseq lt word => Sys2Proof.Machine.execMirrorRecordReceive g p mseq lt word s
  | .mirreq p m => Sys2Proof.Machine.execMirreq p m s
  | .mirrorWaitExpiry p => Sys2Proof.Machine.execMirrorWaitExpiry p s
  | .reedI3ccmdWrite r p v => Sys2Proof.Machine.execReedI3ccmdWrite r p v s
  | .i3cTransferDone p nack data => Sys2Proof.Machine.execI3cTransferDone p nack data s
  | .i3cIbi p addr => Sys2Proof.Machine.execI3cIbi p addr s
  | .hostRequest f write addr v wd => Sys2Proof.Machine.execHostRequest f write addr v wd s
  | .hostportDoorbell r v => Sys2Proof.Machine.execHostportDoorbell r v s
  | .hostportWinctlEnWrite r v => Sys2Proof.Machine.execHostportWinctlEnWrite r v s
  | .getVersion f => Sys2Proof.Machine.execGetVersion f s
  | .getCapabilities f => Sys2Proof.Machine.execGetCapabilities f s
  | .negotiateAlgorithms f => Sys2Proof.Machine.execNegotiateAlgorithms f s
  | .getDigests f => Sys2Proof.Machine.execGetDigests f s
  | .getCertificate f slot off len => Sys2Proof.Machine.execGetCertificate f slot off len s
  | .challenge f slot nonce => Sys2Proof.Machine.execChallenge f slot nonce s
  | .getMeasurements f nonce => Sys2Proof.Machine.execGetMeasurements f nonce s
  | .keyExchange f point => Sys2Proof.Machine.execKeyExchange f point s
  | .finish f mac => Sys2Proof.Machine.execFinish f mac s
  | .keyUpdate f => Sys2Proof.Machine.execKeyUpdate f s
  | .heartbeat f => Sys2Proof.Machine.execHeartbeat f s
  | .endSession f => Sys2Proof.Machine.execEndSession f s
  | .pcieFlr p => Sys2Proof.Machine.execPcieFlr p s
  | .pcieLinkDown => Sys2Proof.Machine.execPcieLinkDown s
  | .netioRtailWrite r v => Sys2Proof.Machine.execNetioRtailWrite r v s
  | .ethFrameReceive m ring data err => Sys2Proof.Machine.execEthFrameReceive m ring data err s
  | .ethFrameTransmitted m ring err => Sys2Proof.Machine.execEthFrameTransmitted m ring err s
  | .canFrameReceive m ring idFlags dlc data => Sys2Proof.Machine.execCanFrameReceive m ring idFlags dlc data s
  | .canFrameTransmitted m ring => Sys2Proof.Machine.execCanFrameTransmitted m ring s
  | .gpioEdge pin rising => Sys2Proof.Machine.execGpioEdge pin rising s
  | .read addr crc => Sys2Proof.Machine.execRead addr crc s
  | .write addr v crc => Sys2Proof.Machine.execWrite addr v crc s
  | .ident crc => Sys2Proof.Machine.execIdent crc s
  | .status crc => Sys2Proof.Machine.execStatus crc s
  | .dump off n crc => Sys2Proof.Machine.execDump off n crc s
  | .reset level key crc => Sys2Proof.Machine.execReset level key crc s
  | .laseroff key crc => Sys2Proof.Machine.execLaseroff key crc s
  | .scrap r key crc => Sys2Proof.Machine.execScrap r key crc s
  | .wardenFrameAbort => Sys2Proof.Machine.execWardenFrameAbort s
  | .glimmerFrameReceive p fec payload => Sys2Proof.Machine.execGlimmerFrameReceive p fec payload s
  | .closed p m => Sys2Proof.Machine.execClosed p m s
  | .holding p m => Sys2Proof.Machine.execHolding p m s
  | .abort p m => Sys2Proof.Machine.execAbort p m s
  | .restart p m => Sys2Proof.Machine.execRestart p m s
  | .tsync p m => Sys2Proof.Machine.execTsync p m s
  | .digest p m => Sys2Proof.Machine.execDigest p m s
  | .elect p m => Sys2Proof.Machine.execElect p m s
  | .lanemap p m => Sys2Proof.Machine.execLanemap p m s
  | .partnerDigestStale n => Sys2Proof.Machine.execPartnerDigestStale n s
  | .glimCfgEnWrite r p v => Sys2Proof.Machine.execGlimCfgEnWrite r p v s
  | .glimmerPeerLight p lanes => Sys2Proof.Machine.execGlimmerPeerLight p lanes s
  | .glimmerTrainDone p lanes pkg port => Sys2Proof.Machine.execGlimmerTrainDone p lanes pkg port s
  | .glimmerTrainTimeout p => Sys2Proof.Machine.execGlimmerTrainTimeout p s
  | .glimmerLaneFail p lane dark errs => Sys2Proof.Machine.execGlimmerLaneFail p lane dark errs s
  | .lanemapSwitch p => Sys2Proof.Machine.execLanemapSwitch p s
  | .glimmerOpenFibre p => Sys2Proof.Machine.execGlimmerOpenFibre p s
  | .probePulseTimer p => Sys2Proof.Machine.execProbePulseTimer p s
  | .packageLostCodeSeen p => Sys2Proof.Machine.execPackageLostCodeSeen p s
  | .wakeCodeSeen p => Sys2Proof.Machine.execWakeCodeSeen p s
  | .tsyncSendTimer p => Sys2Proof.Machine.execTsyncSendTimer p s
  | .jobMarkRepeatTimer p => Sys2Proof.Machine.execJobMarkRepeatTimer p s
  | .electSendTimer => Sys2Proof.Machine.execElectSendTimer s
  | .electSettleTimeout => Sys2Proof.Machine.execElectSettleTimeout s
  | .fmElectLost => Sys2Proof.Machine.execFmElectLost s
  | .glimPkgrtWrite r word v => Sys2Proof.Machine.execGlimPkgrtWrite r word v s
  | .glimSendwakeWrite r p v => Sys2Proof.Machine.execGlimSendwakeWrite r p v s
  | .laserModuleInsert m serial record sigEd sigMl powered hot drift => Sys2Proof.Machine.execLaserModuleInsert m serial record sigEd sigMl powered hot drift s
  | .laserModuleVerified m => Sys2Proof.Machine.execLaserModuleVerified m s
  | .laserModuleFail m => Sys2Proof.Machine.execLaserModuleFail m s
  | .laserLifeHour m drift caset => Sys2Proof.Machine.execLaserLifeHour m drift caset s
  | .laserCtlLightWrite r v => Sys2Proof.Machine.execLaserCtlLightWrite r v s
  | .laserCtlRelease r v => Sys2Proof.Machine.execLaserCtlRelease r v s
  | .timerTick c pins => Sys2Proof.Machine.execTimerTick c pins s
  | .timerEnable r c v => Sys2Proof.Machine.execTimerEnable r c v s
  | .timerReloadWrite r c v => Sys2Proof.Machine.execTimerReloadWrite r c v s
  | .timerCmpWrite r c v => Sys2Proof.Machine.execTimerCmpWrite r c v s
  | .timerCaptureEdge c rising => Sys2Proof.Machine.execTimerCaptureEdge c rising s
  | .timerCapRead r c => Sys2Proof.Machine.execTimerCapRead r c s
  | .timerStartgo r v => Sys2Proof.Machine.execTimerStartgo r v s
  | .timerStartTime => Sys2Proof.Machine.execTimerStartTime s
  | .timerDebugHalt halted => Sys2Proof.Machine.execTimerDebugHalt halted s
  | .verify r secs => Sys2Proof.Machine.execVerify r secs s
  | .svncommit r => Sys2Proof.Machine.execSvncommit r s
  | .attest r => Sys2Proof.Machine.execAttest r s
  | .pcreate r => Sys2Proof.Machine.execPcreate r s
  | .pactivate r => Sys2Proof.Machine.execPactivate r s
  | .psuspend r => Sys2Proof.Machine.execPsuspend r s
  | .pdestroy r => Sys2Proof.Machine.execPdestroy r s
  | .passign r => Sys2Proof.Machine.execPassign r s
  | .prelease r => Sys2Proof.Machine.execPrelease r s
  | .nonce r => Sys2Proof.Machine.execNonce r s
  | .nonceExpiry => Sys2Proof.Machine.execNonceExpiry s
  | .lcmove r => Sys2Proof.Machine.execLcmove r s
  | .ownerkey r => Sys2Proof.Machine.execOwnerkey r s
  | .relock r => Sys2Proof.Machine.execRelock r s
  | .provision r certEd certMl => Sys2Proof.Machine.execProvision r certEd certMl s
  | .lcinit r => Sys2Proof.Machine.execLcinit r s
  | .custodyCommandDone => Sys2Proof.Machine.execCustodyCommandDone s
  | .trngHealthFail => Sys2Proof.Machine.execTrngHealthFail s
  | .packageReset powerOn pins => Sys2Proof.Machine.execPackageReset powerOn pins s
  | .porstAssert pins => Sys2Proof.Machine.execPorstAssert pins s
  | .computePartitionReset => Sys2Proof.Machine.execComputePartitionReset s
  | .fuseTrecinv r v => Sys2Proof.Machine.execFuseTrecinv r v s
  | .faultReport b code => Sys2Proof.Machine.execFaultReport b code s
  | .darnLoadDone l ok => Sys2Proof.Machine.execDarnLoadDone l ok s
  | .darnReplayDone l ok => Sys2Proof.Machine.execDarnReplayDone l ok s
  | .darnTimeout l => Sys2Proof.Machine.execDarnTimeout l s
  | .snapshotComplete l ok => Sys2Proof.Machine.execSnapshotComplete l ok s
  | .logDrainDone l => Sys2Proof.Machine.execLogDrainDone l s
  | .rungTimeout b => Sys2Proof.Machine.execRungTimeout b s
  | .handover => Sys2Proof.Machine.execHandover s
  | .llCtlFaultclr r v => Sys2Proof.Machine.execLlCtlFaultclr r v s
  | .llCtlDump r v => Sys2Proof.Machine.execLlCtlDump r v s
  | .dumpReadResponse => Sys2Proof.Machine.execDumpReadResponse s
  | .dumpReadTimeout => Sys2Proof.Machine.execDumpReadTimeout s
  | .lamplighterHeartbeatLost => Sys2Proof.Machine.execLamplighterHeartbeatLost s
  | .lanternHeartbeatLost => Sys2Proof.Machine.execLanternHeartbeatLost s
  | .deadmanExpiry => Sys2Proof.Machine.execDeadmanExpiry s
  | .llCkptctlGo r v => Sys2Proof.Machine.execLlCkptctlGo r v s
  | .ckptAutoTimer => Sys2Proof.Machine.execCkptAutoTimer s
  | .checkpointCommit ok => Sys2Proof.Machine.execCheckpointCommit ok s
  | .powerSleepS1 r wfi => Sys2Proof.Machine.execPowerSleepS1 r wfi s
  | .powerSleepS2 r wfi => Sys2Proof.Machine.execPowerSleepS2 r wfi s
  | .powerSleepS3 r wfi => Sys2Proof.Machine.execPowerSleepS3 r wfi s
  | .powerLeaveS1 r => Sys2Proof.Machine.execPowerLeaveS1 r s
  | .apcPwrreqWrite r budget v wfi => Sys2Proof.Machine.execApcPwrreqWrite r budget v wfi s
  | .sleepEntryDone => Sys2Proof.Machine.execSleepEntryDone s
  | .wakeEvent src => Sys2Proof.Machine.execWakeEvent src s
  | .wakeSenseDebounce => Sys2Proof.Machine.execWakeSenseDebounce s
  | .wakeatReached => Sys2Proof.Machine.execWakeatReached s
  | .sleepExitDone => Sys2Proof.Machine.execSleepExitDone s
  | .thermalSample temps => Sys2Proof.Machine.execThermalSample temps s
  | .levelChangeDone => Sys2Proof.Machine.execLevelChangeDone s
  | .railFault rail alert => Sys2Proof.Machine.execRailFault rail alert s
  | .xtalLost => Sys2Proof.Machine.execXtalLost s
  | .powerGoodTimeout g => Sys2Proof.Machine.execPowerGoodTimeout g s
  | .lagexceed => Sys2Proof.Machine.execLagexceed s
  | .selvedgeRequestTimeout b => Sys2Proof.Machine.execSelvedgeRequestTimeout b s
  | .stitchedHopDown row => Sys2Proof.Machine.execStitchedHopDown row s
  | .drbgReseed => Sys2Proof.Machine.execDrbgReseed s
  | .laserModuleRemove m => Sys2Proof.Machine.execLaserModuleRemove m s
  | .pcieLinkUp width speed => Sys2Proof.Machine.execPcieLinkUp width speed s
  | .alwaysOnRailLoss pins => Sys2Proof.Machine.execAlwaysOnRailLoss pins s
  | .lamplighterReturn => Sys2Proof.Machine.execLamplighterReturn s
  | .bringupStepDone step e => Sys2Proof.Machine.execBringupStepDone step e s
  | .catastrophicTempFlag stack => Sys2Proof.Machine.execCatastrophicTempFlag stack s

end Sys2Proof.Machine
end

