-- ==== Sys2Proof/Machine/Lines.lean ====
section
/-!
DEFINITION. The interrupt lines of the blocks as the APLIC sees them (R76).
-/

namespace Sys2Proof.Machine

/-- The level of the line of block `b` (R76): a valid fault whose class FAULTMASK does not mask, an event that the block's own registers
enable, or one that no register holds. -/
def blockLine (s : State) (b : Nat) : Bool :=
  (kindOf b).isSome && ((rdB s b F.FAULTCAUSE_VALID && unmasked (rd s b F.FAULTMASK_MASK) (rd s b F.FAULTCAUSE_CAUSE))
    || eventLine s b || s.clu.pulse.contains b)

/-- What an election (R521) and a tenant or session event (R637) raise is held by no register: the line falls once the APLIC has looked at
it (DESIGN CHOICE, log entry 118). The APLIC looks at the line of each source that is configured. How long a line takes to reach it is not stated: it looks once in each
nanosecond that passes (DESIGN CHOICE, log entry 41). -/
def aplicSample (s : State) : State :=
  let t := forEach (aplicSources s).eraseDups (fun i t => aplicLook t i (blockLine s i)) s
  if t.clu.pulse.isEmpty then t else modClu t (fun c => { c with pulse := [] })

end Sys2Proof.Machine
end

