-- ==== Sys2Proof/Machine/TestPort.lean ====
section
/-!
DEFINITION. The test port (R683): boundary scan by IEEE 1149.1 in lifecycles BLANK, TEST and RETURN, a BYPASS-only device in every other.
The table has no row for its pins, so no command clocks it (log entry 105).
-/

namespace Sys2Proof.Machine

/-- The lifecycles in which the test port provides boundary scan. -/
def scanLife (s : State) : Bool := lifecycle s = lcBlank || lifecycle s = lcTest || lifecycle s = lcReturn

/-- The instruction in force selects the boundary register: in a lifecycle that provides it, and by a code that the manual does not list. -/
def scanOn (s : State) : Bool := scanLife s && Config.tapScan s.tap.instr

/-- The next state of the controller at a rising edge of TCK, by TMS. -/
def TapState.next (t : TapState) (tms : Bool) : TapState :=
  match t with
  | .reset => if tms then .reset else .runIdle
  | .runIdle => if tms then .selectDr else .runIdle
  | .selectDr => if tms then .selectIr else .captureDr
  | .captureDr | .shiftDr => if tms then .exit1Dr else .shiftDr
  | .exit1Dr => if tms then .updateDr else .pauseDr
  | .pauseDr => if tms then .exit2Dr else .pauseDr
  | .exit2Dr => if tms then .updateDr else .shiftDr
  | .updateDr | .updateIr => if tms then .selectDr else .runIdle
  | .selectIr => if tms then .reset else .captureIr
  | .captureIr | .shiftIr => if tms then .exit1Ir else .shiftIr
  | .exit1Ir => if tms then .updateIr else .pauseIr
  | .pauseIr => if tms then .exit2Ir else .pauseIr
  | .exit2Ir => if tms then .updateIr else .shiftIr

/-- One bit into a shift register, and the one that leaves it. -/
def shiftOne (r : List Bool) (tdi : Bool) : Bool × List Bool := (r.headD false, r.drop 1 ++ [tdi])

/-- A rising edge of TCK with TMS and TDI: TDO, and the port after it. The levels that the boundary register captures at the pins are free. -/
def tapClock (s : State) (tms tdi : Bool) : Bool × State :=
  let t := s.tap
  let go := fun (s : State) (f : TapSt → TapSt) => { s with tap := f { s.tap with ctrl := t.ctrl.next tms } }
  match t.ctrl with
  | .reset => (false, go s (fun _ => { TapSt.reset with ctrl := t.ctrl.next tms }))
  | .captureDr =>
    if scanOn s then
      let f := drawFree s
      (false, go f.2 (fun t => { t with boundary := (List.range Config.tapPins).map (fun i => bit f.1 i) }))
    else (false, go s (fun t => { t with bypass := false }))
  | .shiftDr =>
    if scanOn s then ((shiftOne t.boundary tdi).1, go s (fun t => { t with boundary := (shiftOne t.boundary tdi).2 }))
    else (t.bypass, go s (fun t => { t with bypass := tdi }))
  | .captureIr => (false, go s (fun t => { t with shift := true :: List.replicate (Config.tapBits - 1) false }))
  | .shiftIr => ((shiftOne t.shift tdi).1, go s (fun t => { t with shift := (shiftOne t.shift tdi).2 }))
  | .updateIr => (false, go s (fun t => { t with instr := t.shift }))
  | _ => (false, go s id)

/-- TRST_N held low. -/
def tapReset (s : State) : State := { s with tap := TapSt.reset }

end Sys2Proof.Machine
end

