-- ==== Sys2Proof/Machine/Idle.lean ====
section
/-!
DEFINITION. What the device does by itself while no command waits.
-/

namespace Sys2Proof.Machine

/-- One nanosecond of the timebase passes (R156): an apply window that is still open closes (R71), ports with light send the marks
that wait (R502, R510), the APLIC looks at the lines of the blocks and harts take the
interrupts that their registers enable (R76). DESIGN CHOICE: the table has no row for time, so a step on an
empty queue is where it passes (log entry 6). -/
def idle (s : State) : State := hartIrqs (aplicSample (sendFrames (windowClose (ltTick s))))

end Sys2Proof.Machine
end

