-- ==== Sys2Proof/WellFormed.lean ====
section
/-!
DEFINITION. The commands that the outside world can give: a block id names a block of the device, a register offset is a word of a page,
counts and data fit the fields that carry them. Everything else an operand's type says. A meaning does not depend on it: what an
ill-formed command names is not there, and the command changes nothing that is.
-/

namespace Sys2Proof.Machine

/-- A block id of the device (R37, R38). -/
def isBlock (b : Nat) : Bool := (kindOf b).isSome

/-- A register address: a block id of 12 bits and an offset in a page (R39, R41). A frame that holds no block, and an offset that is not
aligned, are possible targets: the access completes with an error (R39, R40). -/
def isReg (b off : Nat) : Bool := b < 4096 && off < 4096

/-- A tally names its beat modulo 2¹⁶ and a retry round of 0 to 7; sums are 64 bits wide (R187, R195). -/
def isSum (n round e d rep : Nat) : Bool := n < 2 ^ 16 && round < 8 && e < 2 ^ 64 && d < 2 ^ 64 && rep < 2 ^ 64

/-- Whether a command is well formed. -/
def wellFormed : Instr → Bool
  | .registerWrite _ b off _ _ => isReg b off
  | .rcCounterRead _ b off _ => isReg b off
  | .latchingLoRead _ b off _ => isReg b off
  | .bitSetAliasWrite _ b off _ _ => isReg b off
  | .bitClearAliasWrite _ b off _ _ => isReg b off
  | .shadowViewWrite _ b off _ _ => isReg b off
  | .resetReq _ b => isBlock b
  | .blockResetDone b => isBlock b
  | .modeChangeWrite _ b _ => isBlock b
  | .begin _ b => isBlock b
  | .commit _ b => isBlock b
  | .rollback _ b => isBlock b
  | .arm .. => true
  | .cancel .. => true
  | .release .. => true
  | .groupPrepareAnswer _ b => isBlock b
  | .groupPrepareTimeout _ b => isBlock b
  | .apcVmpartWrite .. => true
  | .managementTick watts work => watts < 2 ^ 16 && work.all (fun x => isBlock x.1 && x.2 < 2 ^ 32)
  | .thdataWrite .. => true
  | .loomOpenReceive _ n => n < 2 ^ 64
  | .loomOpenAck .. => true
  | .spillReadbackDone .. => true
  | .loomSettle _ n => n < 2 ^ 64
  | .loomSettleDone .. => true
  | .loomEmitDone .. => true
  | .routeCacheInvalidate .. => true
  | .hubDirreq .. => true
  | .dirrspReceive .. => true
  | .dirreqTimeout .. => true
  | .routeCacheFillDone _ _ _ _ rc => rc.length ≤ 64
  | .rowCacheFillDone _ _ _ data => data.length ≤ 256
  | .loomRcinv .. => true
  | .ltimeStepHiWrite .. => true
  | .ltimeRateWrite .. => true
  | .syncInEdge => true
  | .ltimeSourceTimeout => true
  | .beatArm .. => true
  | .beatStop .. => true
  | .beatLaunch => true
  | .beatHoldWrite .. => true
  | .beatOpen => true
  | .hubTally _ n round e d rep => isSum n round e d rep
  | .beatHubSums _ n round e d rep => isSum n round e d rep
  | .beatEmitDoneReport .. => true
  | .jobWaitTimeout .. => true
  | .holdingTimer => true
  | .beatFaultReport b _ _ => isBlock b
  | .retryDrainDone => true
  | .retryDrainTimeout => true
  | .streamPacketReceive _ h ws => h.part < 32 && ws.length ≤ 508
  | .repickClosewaitExpiry .. => true
  | .repickWaitExpiry .. => true
  | .repickReceive .. => true
  | .battenOpDone .. => true
  | .loomBrun .. => true
  | .tsnapDone .. => true
  | .loomSeqctlRun .. => true
  | .loomSeqctlRestart .. => true
  | .activationDispatch .. => true
  | .seqBudgetExpiry _ cycles => cycles < 2 ^ 32
  | .trapHandlerLimit .. => true
  | .illegalInstruction .. => true
  | .sum .. => true
  | .diff .. => true
  | .and .. => true
  | .or .. => true
  | .xor .. => true
  | .shl .. => true
  | .shrl .. => true
  | .shra .. => true
  | .lt .. => true
  | .ltu .. => true
  | .mullo .. => true
  | .mulhs .. => true
  | .mulhu .. => true
  | .mins .. => true
  | .maxs .. => true
  | .minu .. => true
  | .maxu .. => true
  | .lzc .. => true
  | .ones .. => true
  | .rne .. => true
  | .sats .. => true
  | .quos .. => true
  | .quou .. => true
  | .mods .. => true
  | .modu .. => true
  | .addk .. => true
  | .maskk .. => true
  | .setk .. => true
  | .flipk .. => true
  | .ltk .. => true
  | .ltku .. => true
  | .shk .. => true
  | .highk .. => true
  | .constK .. => true
  | .hereK .. => true
  | .get8 .. => true
  | .get8u .. => true
  | .get16 .. => true
  | .get16u .. => true
  | .get32 .. => true
  | .get32u .. => true
  | .get64 .. => true
  | .put8 .. => true
  | .put16 .. => true
  | .put32 .. => true
  | .put64 .. => true
  | .aadd .. => true
  | .aswap .. => true
  | .acas .. => true
  | .rld .. => true
  | .rst .. => true
  | .remoteResponse .. => true
  | .remoteTimeout .. => true
  | .ifeq .. => true
  | .ifne .. => true
  | .iflt .. => true
  | .ifge .. => true
  | .ifltu .. => true
  | .ifgeu .. => true
  | .leap .. => true
  | .leapr .. => true
  | .yield .. => true
  | .endOp .. => true
  | .tret .. => true
  | .trets .. => true
  | .iflush .. => true
  | .rdlt .. => true
  | .rdbeat .. => true
  | .rdround .. => true
  | .rdcyc .. => true
  | .rdphase .. => true
  | .trap .. => true
  | .accadd .. => true
  | .brun .. => true
  | .bwait .. => true
  | .bstat .. => true
  | .shsub .. => true
  | .shwait .. => true
  | .shtest .. => true
  | .csend .. => true
  | .ctry .. => true
  | .cpoll .. => true
  | .cdone .. => true
  | .lsig .. => true
  | .lwait .. => true
  | .lread .. => true
  | .plyput .. => true
  | .bankDrainDone .. => true
  | .btestRegionStart .. => true
  | .btestRegionDone .. => true
  | .loomBtestintWrite .. => true
  | .loomBremap .. => true
  | .bankMoveDone .. => true
  | .fabricPacketRoute _ _ _ _ flits _ => flits.length ≤ 128
  | .loomNithrotWrite .. => true
  | .hubRowgo .. => true
  | .rowMapApplied .. => true
  | .hubRowisoWrite .. => true
  | .hubPlyArm .. => true
  | .hubPlyDisarm .. => true
  | .hubPlyForce .. => true
  | .plyArmBroadcast .. => true
  | .plyContribution .. => true
  | .plyCreditReceive .. => true
  | .plyResendTimeout .. => true
  | .plyResultReceive _ _ _ _ _ doff reslen _ => doff < 2 ^ 32 && reslen < 2 ^ 16
  | .plyResultResendTimeout .. => true
  | .plyConfirm .. => true
  | .selvedgePacket _ hdr ws _ => decide (ws.length = hdr.toNat / 2 ^ 27 % 8)
  | .channelMessageReceive .. => true
  | .channelCreditReceive .. => true
  | .channelResendTimeout .. => true
  | .channelProbeTimer .. => true
  | .loomChctlClose .. => true
  | .apcChsendHiWrite .. => true
  | .apcChdone .. => true
  | .lampAdd .. => true
  | .lampWatchPlace .. => true
  | .lampWatchDeadline .. => true
  | .lampWatchComplete .. => true
  | .lampWatchCancel .. => true
  | .hubLampaddHiWrite .. => true
  | .hubLampforceHiWrite .. => true
  | .hubWatchArm .. => true
  | .hubWatchCancel .. => true
  | .shGo .. => true
  | .shAbort .. => true
  | .shuttleDescriptorStart .. => true
  | .shuttleTransferDone .. => true
  | .hbmRequest _ _ _ _ _ _ data _ => data.length ≤ 256
  | .hbmResponse .. => true
  | .hbmRequestTimeout .. => true
  | .mcApply .. => true
  | .mcWipe .. => true
  | .regionWipeDone .. => true
  | .hbmcPoisonclr .. => true
  | .hbmScrubTimer .. => true
  | .reedPacketReceive _ _ _ _ _ _ data lost => data.length < 2 ^ 16 && lost < 2 ^ 16
  | .reedFlushStart .. => true
  | .reedReplayRecord .. => true
  | .mirrorRecordReceive .. => true
  | .mirreq .. => true
  | .mirrorWaitExpiry .. => true
  | .reedI3ccmdWrite .. => true
  | .i3cTransferDone _ _ data => data.length ≤ 256
  | .i3cIbi .. => true
  | .hostRequest .. => true
  | .hostportDoorbell .. => true
  | .hostportWinctlEnWrite .. => true
  | .getVersion .. => true
  | .getCapabilities .. => true
  | .negotiateAlgorithms .. => true
  | .getDigests .. => true
  | .getCertificate .. => true
  | .challenge _ _ nonce => nonce.length = 32
  | .getMeasurements _ nonce => nonce.length = 32
  | .keyExchange .. => true
  | .finish _ mac => mac.length ≤ 64
  | .keyUpdate .. => true
  | .heartbeat .. => true
  | .endSession .. => true
  | .pcieFlr .. => true
  | .pcieLinkDown => true
  | .netioRtailWrite .. => true
  | .ethFrameReceive _ _ data _ => data.length ≤ 9216
  | .ethFrameTransmitted .. => true
  | .canFrameReceive _ _ _ _ data => data.length ≤ 64
  | .canFrameTransmitted .. => true
  | .gpioEdge .. => true
  | .read .. => true
  | .write .. => true
  | .ident .. => true
  | .status .. => true
  | .dump .. => true
  | .reset .. => true
  | .laseroff .. => true
  | .scrap .. => true
  | .wardenFrameAbort => true
  | .glimmerFrameReceive .. => true
  | .closed .. => true
  | .holding .. => true
  | .abort .. => true
  | .restart .. => true
  | .tsync .. => true
  | .digest .. => true
  | .elect .. => true
  | .lanemap .. => true
  | .partnerDigestStale .. => true
  | .glimCfgEnWrite .. => true
  | .glimmerPeerLight _ lanes => lanes < 256
  | .glimmerTrainDone .. => true
  | .glimmerTrainTimeout .. => true
  | .glimmerLaneFail _ _ _ errs => errs < 2 ^ 32
  | .lanemapSwitch .. => true
  | .glimmerOpenFibre .. => true
  | .probePulseTimer .. => true
  | .packageLostCodeSeen .. => true
  | .wakeCodeSeen .. => true
  | .tsyncSendTimer .. => true
  | .jobMarkRepeatTimer .. => true
  | .electSendTimer => true
  | .electSettleTimeout => true
  | .fmElectLost => true
  | .glimPkgrtWrite .. => true
  | .glimSendwakeWrite .. => true
  | .laserModuleInsert _ _ record _ _ _ _ _ => record.length ≤ 256
  | .laserModuleVerified .. => true
  | .laserModuleFail .. => true
  | .laserLifeHour .. => true
  | .laserCtlLightWrite .. => true
  | .laserCtlRelease .. => true
  | .timerTick .. => true
  | .timerEnable .. => true
  | .timerReloadWrite .. => true
  | .timerCmpWrite .. => true
  | .timerCaptureEdge .. => true
  | .timerCapRead .. => true
  | .timerStartgo .. => true
  | .timerStartTime => true
  | .timerDebugHalt .. => true
  | .verify .. => true
  | .svncommit .. => true
  | .attest .. => true
  | .pcreate .. => true
  | .pactivate .. => true
  | .psuspend .. => true
  | .pdestroy .. => true
  | .passign .. => true
  | .prelease .. => true
  | .nonce .. => true
  | .nonceExpiry => true
  | .lcmove .. => true
  | .ownerkey .. => true
  | .relock .. => true
  | .provision .. => true
  | .lcinit .. => true
  | .custodyCommandDone => true
  | .trngHealthFail => true
  | .packageReset .. => true
  | .porstAssert .. => true
  | .computePartitionReset => true
  | .fuseTrecinv .. => true
  | .faultReport b _ => isBlock b
  | .darnLoadDone .. => true
  | .darnReplayDone .. => true
  | .darnTimeout .. => true
  | .snapshotComplete .. => true
  | .logDrainDone .. => true
  | .rungTimeout b => isBlock b
  | .handover => true
  | .llCtlFaultclr .. => true
  | .llCtlDump .. => true
  | .dumpReadResponse => true
  | .dumpReadTimeout => true
  | .lamplighterHeartbeatLost => true
  | .lanternHeartbeatLost => true
  | .deadmanExpiry => true
  | .llCkptctlGo .. => true
  | .ckptAutoTimer => true
  | .checkpointCommit .. => true
  | .powerSleepS1 .. => true
  | .powerSleepS2 .. => true
  | .powerSleepS3 .. => true
  | .powerLeaveS1 .. => true
  | .apcPwrreqWrite .. => true
  | .sleepEntryDone => true
  | .wakeEvent .. => true
  | .wakeSenseDebounce => true
  | .wakeatReached => true
  | .sleepExitDone => true
  | .thermalSample temps => temps.length = 54
  | .levelChangeDone => true
  | .railFault .. => true
  | .xtalLost => true
  | .powerGoodTimeout .. => true
  | .lagexceed => true
  | .selvedgeRequestTimeout b => b.all isBlock
  | .stitchedHopDown .. => true
  | .drbgReseed => true
  | .laserModuleRemove .. => true
  | .pcieLinkUp .. => true
  | .alwaysOnRailLoss .. => true
  | .lamplighterReturn => true
  | .bringupStepDone .. => true
  | .catastrophicTempFlag .. => true

end Sys2Proof.Machine
end

