-- ==== Sys2Proof/Safety.lean ====
section
/-!
DEFINITION. The words that claims are stated in: what counts as a safe run, when an access is performed, when a sequencer stands at an
instruction, the canonical form of memories.
-/

namespace Sys2Proof.Machine

/-! ## Runs -/

/-- Every command that waits is well formed. -/
def queueOk (s : State) : Bool := s.pending.all wellFormed

/-- A step answered a state. -/
def Runs (s t : State) : Prop := step s = .next t

/-- No mode change and no policy decision waits for a boundary (R26, R64). -/
def quiet (s : State) : Prop := s.decisions = [] ∧ ∀ b, modePend s b = false

/-! ## Memories -/

/-- HBM is in its canonical form: addresses strictly rising, no byte listed that equals what an unlisted address reads as. -/
def Memory.wf (s : State) : Bool := tabWf (fun _ => (0 : Byte)) s.mem.hbm

/-- The register file lists no register twice. -/
def regsOk (s : State) : Bool := tabSorted s.regs

/-- What memories and the register file keep. -/
def MemOk (s : State) : Prop := Memory.wf s = true ∧ regsOk s = true

/-- A byte of HBM. -/
def hbmByte (s : State) (a : Nat) : Byte := tabGet 0 s.mem.hbm a

/-- A byte of a loom's scratch. -/
def scratchByte (s : State) (l a : Nat) : Byte := tabGet 0 (loom s l).scratch a

/-- A byte of a loom's neuron store. -/
def nstoreByte (s : State) (l a : Nat) : Byte := tabGet 0 (loom s l).nstore a

/-- A byte of a loom's synapse store. -/
def sstoreByte (s : State) (l a : Nat) : Byte := tabGet 0 (loom s l).sstore a

/-- `n` bytes from address `a`, the lowest first. -/
def bytesAt (f : Nat → Byte) (a n : Nat) : Nat := leNat ((List.range n).map (fun i => f (a + i)))

/-- Every byte of every memory of a loom and of HBM reads as before. -/
def storesKept (s t : State) : Prop :=
  (∀ l a, scratchByte t l a = scratchByte s l a ∧ nstoreByte t l a = nstoreByte s l a ∧ sstoreByte t l a = sstoreByte s l a) ∧
    t.mem = s.mem

/-! ## Accesses -/

/-- The requester is named by its tag. A hart is not: its accesses are those of the requester that `who` gives (R75), of which a
statement of its own speaks. -/
def tagged : Requester → Bool
  | .hart .. => false
  | _ => true

/-- An access of requester `r`, named by its tag, to offset `off` of block `b` is performed: the link to the block is up, the block
answers, and neither the checks of R55 to R57 nor those of the register refuse it. `v` is the value written. -/
def performed (s : State) (r : Requester) (b off : Nat) (isWrite : Bool) (v : Word) : Bool :=
  tagged r && !selvCut s b && !(isWrite && slotRefuses s r b off) && !lampRefuses s r b off isWrite
    && !gateError (windowClose s) b off isWrite
    && !(isWrite && r = .custody .warden && !wardenMay (windowClose s) b off)
    && !gateRefuse (windowClose s) r b off isWrite v

/-- A main-page write of one field by `r`, the other bits as they stand, is performed. -/
def fieldPerformed (s : State) (r : Requester) (b : Nat) (f : Fld) (v : Nat) : Bool :=
  performed s r b f.off true (withField s r b f v)

/-- The response that tells the requester of success, with data. -/
def okResp (r : Requester) (v : Nat) : Out := ⟨.resp, tagOf r, [1, v]⟩

/-- The error response. -/
def errResp (r : Requester) : Out := ⟨.resp, tagOf r, [0, 0]⟩

/-- Registers other than those of block `b` at the offsets of `offs` read as before. -/
def regsBut (s t : State) (b : Nat) (offs : List Nat) : Prop :=
  ∀ b' off idx, ¬ (b' = b ∧ off ∈ offs) → off < 4096 → idx < 65536 → regGet t b' off idx = regGet s b' off idx

/-- A write that leaves `u`, but for the interrupt line of the block, and answers success to its requester. -/
def answered (r : Requester) (u t : State) : Prop := (∃ n o, t = { u with free := n, out := o }) ∧ okResp r 0 ∈ t.out

/-! ## Sequencers -/

/-- The state after the instruction fetch of loom `l`'s sequencer. -/
def fetched (s : State) (l : Nat) : State := match fetch s l with | .word _ t => t | _ => s

/-- From `s` to `t` nothing has changed but what the fetch of an instruction by loom `l`'s sequencer may: its buffer and the count of lines
fetched; and where the line fetched holds single-bit errors, that they are corrected and counted, with the move of a bank that calls for
(R326), or its refusal, latched and reported. -/
def fetchOnly (l : Nat) (s t : State) : Prop :=
  t = { s with looms := t.looms, regs := t.regs, out := t.out, free := t.free } ∧ (∀ j, j ≠ l → loom t j = loom s j) ∧
  (∃ b x y z, loom t l = { loom s l with seq := { (loom s l).seq with ibuf := b }, xErr1 := x, bankCe := y, moving := z }) ∧
  regsBut s t (bLoom l) [F.LOOM_SEQIMISS_COUNT.off, F.LOOM_BSCE_COUNT.off, F.FAULTCAUSE_VALID.off]

/-- Loom `l`'s sequencer runs code that nothing blocks, and fetches the word `w` at its PC. -/
def seqAt (s : State) (l w : Nat) : Bool :=
  (seqCtx (seqOf s l)).isSome && (seqOf s l).wait.isNone && (match fetch s l with | .word x _ => x == w | _ => false)

/-- General register `r` of the code that loom `l`'s sequencer runs. -/
def g (s : State) (l r : Nat) : W64 := gRead (seqOf s l) r

/-- Register `d` takes `v`. -/
def setG (s : State) (l d : Nat) (v : W64) : State := modSeq s l (fun q => gWrite q d v)

/-- The PC of loom `l`'s running code. -/
def pcOf (s : State) (l : Nat) : Nat := seqPc (seqOf s l)

/-- Loom `l`'s sequencer may use the `n` bytes of scratch at `a`: the owner code of the bank is SEQUENCER or SHARED (R313), and nothing
holds the access (R316, R324, R326). -/
def seqMay (s : State) (l a n : Nat) : Bool :=
  (owner s l (a / 65536) = ownSeq || owner s l (a / 65536) = ownShared) && !scrHeld s l a n

/-- What an action code does to an output level of the timer (R537). -/
def outLevel (code : Nat) (o : Bool) : Bool := if code = 1 then true else if code = 2 then false else if code = 3 then !o else o

/-- Nothing but loom `l` and registers of its page at the offsets of `offs` differs. -/
def loomOnly (s t : State) (l : Nat) (offs : List Nat) : Prop :=
  t = { s with looms := t.looms, regs := t.regs, free := t.free } ∧ (∀ j, j ≠ l → loom t j = loom s j) ∧ regsBut s t (bLoom l) offs

/-- The instruction is done: it counts, and the PC is `pc`. -/
def goTo (s : State) (l pc : Nat) : State := inc (modSeq s l (fun q => seqSetPc q pc)) (bLoom l) F.LOOM_SEQINSTR_COUNT

/-- The instruction is done, and the PC moves on by 4. -/
def goOn (s : State) (l : Nat) : State := goTo s l (pcOf s l + 4)

/-- The instruction is done with result `v` in register `d`. -/
def done (s : State) (l d : Nat) (v : W64) : State := goOn (setG s l d v) l

end Sys2Proof.Machine
end

