-- ==== Sys2Proof/Certificates/Slice0/Obligations.lean ====
section
/-!
DEFINITION. The statements about the model, each from the rules of spec/ that its docstring names.
-/

open Sys2Proof Sys2Proof.Machine

/-! ## Commands, accesses, transactions (chapter 02) -/

/-- A step takes the command at the front of the queue and runs it on the rest; the queue is first in, first out. (The model's readings
here: log entry 1.) -/
def Obligations.StepRunsFront : Prop :=
  ∀ (c : Instr) (s : State), step { s with pending := c :: s.pending } = exec c s

/-- R42, R43, R61: a performed write through any view answers success. A write of FAULTMASK takes the value through the main page, sets or
clears the bits given through an alias, and no other register changes; through the shadow view it changes no live register: outside a
transaction it is refused and counted, inside its own the shadow view shows the bits of RWS fields from then on. R7, R41, R165: a performed
read answers success. A read of a counter that clears on reading answers its value and clears it; a read of LTIME_NOW_LO answers the low
half of LT as it reaches a reader, at most 6 ns behind (R24), and holds the high half, which that requester's next read of LTIME_NOW_HI
answers. R39: an aligned pair is two accesses, lower address first; every other width or alignment is answered with an error and changes
nothing. (The model's readings here: log entries 15, 19, 20.) -/
def Obligations.RegisterAccesses : Prop :=
  (∀ (r : Requester) (b off : Nat) (v : Word) (s : State),
    (performed s r b off true v = true →
      ∀ c ∈ ([.registerWrite r b off v, .bitSetAliasWrite r b off v, .bitClearAliasWrite r b off v, .shadowViewWrite r b off v] : List Instr),
        ∃ t, exec c s = .next t ∧ okResp r 0 ∈ t.out) ∧
    (performed s r b F.FAULTMASK_MASK.off true v = true →
      ∀ row ∈ ([(.registerWrite r b F.FAULTMASK_MASK.off v, v),
        (.bitSetAliasWrite r b F.FAULTMASK_MASK.off v, regGet s b F.FAULTMASK_MASK.off 0 ||| v),
        (.bitClearAliasWrite r b F.FAULTMASK_MASK.off v, regGet s b F.FAULTMASK_MASK.off 0 &&& ~~~v)] : List (Instr × Word)),
        ∃ t, exec row.1 s = .next t ∧ regGet t b F.FAULTMASK_MASK.off 0 = row.2 ∧ regsBut s t b [F.FAULTMASK_MASK.off] ∧
          t = { windowClose s with regs := t.regs, free := t.free, out := t.out }) ∧
    (performed s r b off true v = true → rd s b F.TXN_TSTATE = tsIdle →
      ∃ t, exec (.shadowViewWrite r b off v) s = .next t ∧ ctl t b = ctl s b ∧ regsBut s t b [F.TXNREFUSE_COUNT.off] ∧
        rd t b F.TXNREFUSE_COUNT = (rd s b F.TXNREFUSE_COUNT + 1) % 2 ^ 32) ∧
    (∀ k, kindOf b = some k → k ≠ .timer → performed s r b off true v = true → rd s b F.TXN_TSTATE = tsOpen →
      rd s b F.TXN_OPENER = tagOf r → off < 4096 →
      ∃ t, exec (.shadowViewWrite r b off v) s = .next t ∧ t.regs = s.regs ∧
        shadowWord t b off (selIndex s r b off) =
          mergeBits (rwsMask s k r b off) (shadowWord s b off (selIndex s r b off)) v)) ∧
  (∀ (r : Requester) (b off : Nat) (s : State),
    (performed s r b off false 0 = true → ∀ c ∈ ([.rcCounterRead r b off, .latchingLoRead r b off] : List Instr),
      ∃ t v, exec c s = .next t ∧ okResp r v ∈ t.out) ∧
    (off ∈ [F.ACCVIOL_COUNT.off, F.TXNREFUSE_COUNT.off, F.TXNROLLBACK_COUNT.off] → performed s r b off false 0 = true →
      tabGet 0 s.hiLatch (hiKey b off (tagOf r)) = 0 →
      ∃ t, exec (.rcCounterRead r b off) s = .next t ∧ okResp r (regGet s b off 0).toNat ∈ t.out ∧ regGet t b off 0 = 0 ∧
        regsBut s t b [off]) ∧
    (performed s r bLtime F.LTIME_NOW_LO_LT.off false 0 = true →
      ∃ t x, ltNow s - 6 ≤ x ∧ x ≤ ltNow s ∧
        exec (.latchingLoRead r bLtime F.LTIME_NOW_LO_LT.off) s = .next t ∧ okResp r (x % 2 ^ 32) ∈ t.out ∧ t.regs = s.regs ∧
        ∀ u, u.hiLatch = t.hiLatch → performed u r bLtime F.LTIME_NOW_HI_LT.off false 0 = true →
          ∃ w, exec (.rcCounterRead r bLtime F.LTIME_NOW_HI_LT.off) u = .next w ∧ okResp r (x / 2 ^ 32 % 2 ^ 32) ∈ w.out)) ∧
  (∀ (r : Requester) (b off : Nat) (v x : Word) (s : State),
    (∀ row ∈ ([(.registerWrite r b off v (.pair x), .main), (.bitSetAliasWrite r b off v (.pair x), .bitSet),
        (.bitClearAliasWrite r b off v (.pair x), .bitClear), (.shadowViewWrite r b off v (.pair x), .shadow)] : List (Instr × View)),
      let t := put (windowClose s) r row.2 b off v
      off % 8 = 0 → performed s r b off true v = true → performed t r b (off + 4) true x = true →
      exec row.1 s = .next (send (put (windowClose t) r row.2 b (off + 4) x) .resp (tagOf r) [1, 0, 0])) ∧
    (∀ c ∈ ([.rcCounterRead r b off (.pair x), .latchingLoRead r b off (.pair x)] : List Instr),
      let y := get (windowClose s) r .main b off
      let z := get (windowClose y.2) r .main b (off + 4)
      off % 8 = 0 → performed s r b off false 0 = true → performed y.2 r b (off + 4) false 0 = true →
      exec c s = .next (send z.2 .resp (tagOf r) [1, y.1.toNat, z.1.toNat])) ∧
    (∀ wd : Width, wd ≠ .word → (off % 8 = 0 → wd = .other) → tagged r = true →
      ∀ c ∈ ([.registerWrite r b off v wd, .bitSetAliasWrite r b off v wd, .bitClearAliasWrite r b off v wd,
        .shadowViewWrite r b off v wd, .rcCounterRead r b off wd, .latchingLoRead r b off wd] : List Instr),
        exec c s = .next (send s .resp (tagOf r) [0, 0])))

/-- R57: a refused access completes with an error response, adds 1 to ACCVIOL of the target block, and changes nothing else; an apply window
that was open has closed by then (R69). R38, R39, R593: an access that no register answers completes with an error response and has no
effect. R365: so does one across a link that is down, and the block that asked latches SELVTIMEOUT. (The model's readings here: log entries
20, 104.) -/
def Obligations.RefusedAccesses : Prop :=
  ∀ (r : Requester) (b off : Nat) (v : Word) (s : State),
    let refused := fun (isWrite : Bool) (v : Word) => tagged r = true ∧ selvCut s b = false ∧ gateError (windowClose s) b off isWrite = false ∧
      (isWrite = true → r = .custody .warden → wardenMay (windowClose s) b off = true) ∧
      (gateRefuse (windowClose s) r b off isWrite v = true ∨ (isWrite = true ∧ slotRefuses s r b off = true))
    let t := send (inc (windowClose s) b F.ACCVIOL_COUNT) .resp (tagOf r) [0, 0]
    (refused true v → exec (.registerWrite r b off v) s = .next t ∧ exec (.bitSetAliasWrite r b off v) s = .next t ∧
      exec (.bitClearAliasWrite r b off v) s = .next t ∧ exec (.shadowViewWrite r b off v) s = .next t) ∧
    (refused false 0 → exec (.rcCounterRead r b off) s = .next t ∧ exec (.latchingLoRead r b off) s = .next t) ∧
    (tagged r = true → selvCut s b = false → slotRefuses s r b off = false → lampRefuses s r b off true = false →
      gateError (windowClose s) b off true = true →
      exec (.registerWrite r b off v) s = .next (send (windowClose s) .resp (tagOf r) [0, 0])) ∧
    (tagged r = true → selvCut s b = true → ∀ c ∈ ([.registerWrite r b off v, .bitSetAliasWrite r b off v, .bitClearAliasWrite r b off v,
        .shadowViewWrite r b off v, .rcCounterRead r b off, .latchingLoRead r b off] : List Instr),
      exec c s = .next (send (latchFault s (requestBlock r) 0x8002) .resp (tagOf r) [0, 0]))

/-- BEGIN, COMMIT and ROLLBACK complete (R60, R62, R63): BEGIN on an IDLE block opens the transaction of its requester; COMMIT of values
that the block accepts applies all of them, here of a block whose commit sets its registers alone, and of values that it rejects none;
ROLLBACK discards them. BEGIN, COMMIT and ROLLBACK that are refused: the code of R59, TXNREFUSE, and no other register (R54, R59, R60, R68).
(The model's readings here: log entries 20, 95, 96.) -/
def Obligations.Transactions : Prop :=
  (∀ (r : Requester) (b : Nat) (s : State),
    (fieldPerformed s r b F.TXN_OP 1 = true → rd s b F.TXN_TSTATE = tsIdle →
      ∃ t, exec (.begin r b) s = .next t ∧ rd t b F.TXN_TSTATE = tsOpen ∧ rd t b F.TXN_OPENER = tagOf r
        ∧ rd t b F.TXN_RESULT = resOk ∧ (ctl t b).staged = [] ∧ regsBut s t b [F.TXN_OP.off] ∧ okResp r 0 ∈ t.out) ∧
    (fieldPerformed s r b F.TXN_OP 2 = true → rd s b F.TXN_TSTATE = tsOpen → rd s b F.TXN_OPENER = tagOf r →
      commitCheck (windowClose s) b false = true →
      ∃ t, exec (.commit r b) s = .next t ∧ rd t b F.TXN_TSTATE = tsIdle ∧ rd t b F.TXN_RESULT = resOk ∧ okResp r 0 ∈ t.out ∧
        (∀ k, kindOf b = some k → k ∉ [.loom, .apc, .hub, .beat, .timer, .reed] →
          ((ctl s b).staged.map (fun w => w.key)).Nodup →
          (∀ w ∈ (ctl s b).staged, w.key < 4096 * 65536 ∧ w.key / 65536 ≠ F.TXN_OP.off ∧
            w.mask &&& (waitBits b (w.key / 65536) ||| modeBits (w.key / 65536)) = 0) →
          (ctl t b).staged = [] ∧ ∀ off idx, off < 4096 → idx < 65536 → off ≠ F.TXN_OP.off →
            regGet t b off idx = stOver (ctl s b).staged (stKey off idx) (regGet s b off idx))) ∧
    (fieldPerformed s r b F.TXN_OP 2 = true → rd s b F.TXN_TSTATE = tsOpen → rd s b F.TXN_OPENER = tagOf r →
      commitCheck (windowClose s) b false = false →
      ∃ t, exec (.commit r b) s = .next t ∧ rd t b F.TXN_TSTATE = tsOpen ∧ rd t b F.TXN_RESULT = resInvalid ∧ ctl t b = ctl s b
        ∧ regsBut s t b [F.TXN_OP.off]) ∧
    (fieldPerformed s r b F.TXN_OP 3 = true → rd s b F.TXN_TSTATE = tsOpen → rd s b F.TXN_OPENER = tagOf r →
      ∃ t, exec (.rollback r b) s = .next t ∧ rd t b F.TXN_TSTATE = tsIdle ∧ rd t b F.TXN_RESULT = resOk
        ∧ rd t b F.TXNROLLBACK_COUNT = (rd s b F.TXNROLLBACK_COUNT + 1) % 2 ^ 32 ∧ (ctl t b).staged = []
        ∧ regsBut s t b [F.TXN_OP.off, F.TXNROLLBACK_COUNT.off] ∧ okResp r 0 ∈ t.out)) ∧
  (∀ (r : Requester) (b op code : Nat) (c : Instr) (s : State),
    fieldPerformed s r b F.TXN_OP op = true →
    ((op = 1 ∧ c = .begin r b ∧ rd s b F.TXN_TSTATE ≠ tsIdle ∧ code = resAlreadyOpen) ∨
     (((op = 2 ∧ c = .commit r b) ∨ (op = 3 ∧ c = .rollback r b)) ∧
      ((rd s b F.TXN_TSTATE = tsIdle ∧ code = resNotOpen) ∨ (rd s b F.TXN_TSTATE = tsPending ∧ code = resInGroup) ∨
       (rd s b F.TXN_TSTATE = tsOpen ∧ rd s b F.TXN_OPENER ≠ tagOf r ∧ code = resNotOpener)))) →
    ∃ t, exec c s = .next t ∧ rd t b F.TXN_RESULT = code ∧ rd t b F.TXN_TSTATE = rd s b F.TXN_TSTATE
      ∧ rd t b F.TXN_OPENER = rd s b F.TXN_OPENER ∧ rd t b F.TXNREFUSE_COUNT = (rd s b F.TXNREFUSE_COUNT + 1) % 2 ^ 32
      ∧ ctl t b = ctl s b ∧ regsBut s t b [F.TXN_OP.off, F.TXNREFUSE_COUNT.off])

/-- R48, R593, R693: RESET_REQ, BLOCK_RESET_DONE and MODE_CHANGE_WRITE complete. RESET_REQ on a block that has been READY and is not
resetting clears READY, sets RESETTING, returns the header to its reset values but for OWNER, and records the discard of a transaction;
while RESETTING it does nothing; the block is READY again at BLOCK_RESET_DONE. R31, R64: a direct write of CONTROL outside a transaction
puts EXPERT and FREEZE in force at once while the beat engine is IDLE, STOPPED or FAULTED; otherwise it latches them, and the live bits stay
until the boundary. (The model's readings here: log entries 9, 20, 103, 127.) -/
def Obligations.ResetsAndModes : Prop :=
  (∀ (r : Requester) (b : Nat) (s : State),
    (fieldPerformed s r b F.CONTROL_RESETREQ 1 = true → rdB s b F.STATE_RESETTING = false →
      ∃ t, exec (.resetReq r b) s = .next t ∧ okResp r 0 ∈ t.out ∧ rd t b F.STATE_READY = 0 ∧ rd t b F.STATE_RESETTING = 1 ∧
        rd t b F.FAULTCAUSE_VALID = 0 ∧ regGet t b F.FAULTMASK_MASK.off 0 = 0 ∧ rd t b F.TXN_TSTATE = tsIdle ∧
        (b ≠ bBeat → rd t b F.OWNER_PART = rd s b F.OWNER_PART) ∧ modePend t b = false ∧ (ctl t b).staged = [] ∧
        (rd s b F.TXN_TSTATE ≠ tsIdle → rd t b F.TXN_RESULT = resAbortedReset ∧ rd t b F.TXNROLLBACK_COUNT = 1)) ∧
    (fieldPerformed s r b F.CONTROL_RESETREQ 1 = true → rdB s b F.STATE_RESETTING = true →
      ∃ t, exec (.resetReq r b) s = .next t ∧ answered r (windowClose s) t) ∧
    (rdB s b F.STATE_RESETTING = true → readyOk s b = true → s.cust.releasing.contains b = false →
      ∃ t, exec (.blockResetDone b) s = .next t ∧ rd t b F.STATE_READY = 1 ∧ rd t b F.STATE_RESETTING = 0 ∧
        rd t b F.OWNER_PART = rd s b F.OWNER_PART ∧ b ∈ t.boot.seen) ∧
    (rdB s b F.STATE_RESETTING = true → readyOk s b = true → s.cust.releasing.contains b = true →
      exec (.blockResetDone b) s = .next (rungsCheck (releaseDone (setReady s b) b))) ∧
    (rdB s b F.STATE_RESETTING = false ∨ readyOk s b = false → s.ll.rungs = [] → s.cust.releasing.contains b = false →
      ∃ t, exec (.blockResetDone b) s = .next t ∧ t.regs = s.regs ∧ t.boot = s.boot)) ∧
  (∀ (r : Requester) (b : Nat) (v : Word) (s : State),
    let w := fldSet F.CONTROL_RESETREQ v 0
    performed s r b F.CONTROL_EXPERT.off true w = true → rd s b F.TXN_TSTATE = tsIdle → (ctl s b).latchVals = [] →
    ∃ t, exec (.modeChangeWrite r b v) s = .next t ∧ okResp r 0 ∈ t.out ∧ rd t b F.CONTROL_ENABLE = fldGet F.CONTROL_ENABLE v ∧
      (noBoundary s = true → rd t b F.CONTROL_EXPERT = fldGet F.CONTROL_EXPERT v ∧ rd t b F.CONTROL_FREEZE = fldGet F.CONTROL_FREEZE v) ∧
      (noBoundary s = false → rd t b F.CONTROL_EXPERT = rd s b F.CONTROL_EXPERT ∧ rd t b F.CONTROL_FREEZE = rd s b F.CONTROL_FREEZE ∧
        (ctl t b).latchExpert.getD (rdB s b F.CONTROL_EXPERT) = decide (fldGet F.CONTROL_EXPERT v = 1) ∧
        (ctl t b).latchFreeze.getD (rdB s b F.CONTROL_FREEZE) = decide (fldGet F.CONTROL_FREEZE v = 1)))

/-- R65 to R70: ARM of a slot that passes every check makes it ARMED and its members PENDING; one that fails records the code and the block;
CANCEL returns an ARMED slot and its members, and is refused while PREPARING; RELEASE frees a slot that has ended; a member that accepts is
noted, and the last one opens the apply window; one that refuses or is late rolls the group back. (The model's readings here: log entries
10, 11, 13, 20, 90, 96.) -/
def Obligations.GroupSlots : Prop :=
  ∀ (r : Requester) (i : Fin 32) (b : Nat) (s : State),
    let w := windowClose s
    let k := slotSel s
    let g := slot w k
    let mine := g.owner = some (tagOf r) ∧ g.count ≤ 64
    (fieldPerformed s r bBeat F.BEAT_TGCTL_OP 1 = true → mine → g.state = .building →
      (armFail w k = none → ∃ t, exec (.arm r) s = .next t ∧ okResp r 0 ∈ t.out ∧ (slot t k).state = .armed ∧ (slot t k).code = 0 ∧
        (slot t k).blocks = g.blocks ∧ ∀ b ∈ g.blocks, rd t b F.TXN_TSTATE = tsPending ∧ rd t b F.TXN_GROUP = k) ∧
      (∀ c x, armFail w k = some (c, x) → ∃ t, exec (.arm r) s = .next t ∧ (slot t k).state = .building ∧ (slot t k).code = c ∧
        (slot t k).block = x ∧ ∀ b, rd t b F.TXN_TSTATE = rd s b F.TXN_TSTATE)) ∧
    (fieldPerformed s r bBeat F.BEAT_TGCTL_OP 2 = true → mine →
      (g.state = .armed → ∃ t, exec (.cancel r) s = .next t ∧ okResp r 0 ∈ t.out ∧ (slot t k).state = .building ∧
        ∀ b ∈ g.blocks, rd s b F.TXN_TSTATE = tsPending → rd s b F.TXN_GROUP = k → rd t b F.TXN_TSTATE = tsOpen ∧ ctl t b = ctl s b) ∧
      (g.state = .preparing → ∃ t, exec (.cancel r) s = .next t ∧ (slot t k).state = .preparing ∧ (slot t k).code = 0x30)) ∧
    (fieldPerformed s r bBeat F.BEAT_TGCTL_OP 3 = true → mine → (g.state = .committed ∨ g.state = .rolledBack ∨ g.state = .partly) →
      ∃ t, exec (.release r) s = .next t ∧ okResp r 0 ∈ t.out ∧ slot t k = GroupSlot.reset) ∧
    (let x := slot s i
     x.state = .preparing → x.window = false → b ∈ x.blocks → b ∉ x.accepted → slotHead s i < 32 →
      (rd s b F.TXN_TSTATE = tsPending → rd s b F.TXN_GROUP = i.val → commitCheck s b true = true →
        allAccepted (modSlot s i (fun x => { x with accepted := x.accepted ++ [b] })) i = false →
        exec (.groupPrepareAnswer i b) s = .next (modSlot s i (fun x => { x with accepted := x.accepted ++ [b] }))) ∧
      (rd s b F.TXN_TSTATE = tsPending → rd s b F.TXN_GROUP = i.val → commitCheck s b true = true →
        allAccepted (modSlot s i (fun x => { x with accepted := x.accepted ++ [b] })) i = true →
        ∃ t, exec (.groupPrepareAnswer i b) s = .next t ∧ ∀ j ∈ groupOf s (slotHead s i) .preparing, (slot t j).window = true) ∧
      (commitCheck s b true = false → ∃ t, exec (.groupPrepareAnswer i b) s = .next t ∧
        ∀ j ∈ groupOf s (slotHead s i) .preparing, (slot t j).state = .rolledBack) ∧
      ∃ t, exec (.groupPrepareTimeout i b) s = .next t ∧ ∀ j ∈ groupOf s (slotHead s i) .preparing, (slot t j).state = .rolledBack)

/-- R75: a write of APC_VMPART of hart h completes: it takes a partition that the hart's APC_PARTALLOW holds, with VALID; any other is
ignored and counts an access violation. A hart's access in M-mode or HS-mode is one of the device, in VS-mode or VU-mode one of the
partition in its APC_VMPART; while VALID is 0 that is refused, and the hart takes an access fault (R38, R57). R25, R605, R632: a management
tick completes: it shows the power measured over it, keeps no sample of PROGRESS of a block that is not READY or not enabled, which is not
judged, ends the tick's list of faults, and counts Lamplighter's heartbeat while Lamplighter runs and Lantern's while Lantern does. (The
model's readings here: log entries 18, 41, 51, 92, 100, 101, 128.) -/
def Obligations.VmpartAndTick : Prop :=
  ∀ (r : Requester) (h : Fin 16) (v : Word) (watts : Nat) (work : List (Nat × Nat)) (s : State),
    let off := F.APC_VMPART_PART.off + 8 * h.val
    let p := fldGet F.APC_VMPART_PART v
    (performed s r bApc off true v = true →
      (bit (regGet s bApc (off - 4) 0).toNat p = true → ∃ t, exec (.apcVmpartWrite r h v) s = .next t ∧ okResp r 0 ∈ t.out ∧
        fldGet F.APC_VMPART_PART (regGet t bApc off 0) = p ∧ fldGet F.APC_VMPART_VALID (regGet t bApc off 0) = fldGet F.APC_VMPART_VALID v ∧
        regsBut s t bApc [off]) ∧
      (bit (regGet s bApc (off - 4) 0).toNat p = false → ∃ t, exec (.apcVmpartWrite r h v) s = .next t ∧
        rd t bApc F.ACCVIOL_COUNT = (rd s bApc F.ACCVIOL_COUNT + 1) % 2 ^ 32 ∧ regsBut s t bApc [F.ACCVIOL_COUNT.off])) ∧
    (beatState s ≠ stFaulted → s.decisions = [] → ∃ t, exec (.managementTick watts work) s = .next t ∧ t.ll.tickFaults = [] ∧
      rd t bPower F.POWER_MEAS_W = min watts 65535 ∧
      (∀ b ∈ allBlocks, rdB s b F.STATE_READY = false ∨ rdB s b F.CONTROL_ENABLE = false → tabGet (0, 0) t.ll.watch b = (0, 0)) ∧
      (llRuns s = true → rd t bLamplighter F.LL_HEART_LL = (rd s bLamplighter F.LL_HEART_LL + 1) % 2 ^ 16) ∧
      (llRuns s = false → rd t bLamplighter F.LL_HEART_LL = rd s bLamplighter F.LL_HEART_LL) ∧
      (rdB s bCustody F.STATE_READY = true → s.ll.lanternGone = false →
        rd t bLamplighter F.LL_HEART_LANTERN = (rd s bLamplighter F.LL_HEART_LANTERN + 1) % 2 ^ 16)) ∧
    (∀ (b o : Nat) (mode : HartMode),
      let reg := regGet s bApc off 0
      let q : Requester := .part (BitVec.ofNat 4 (fldGet F.APC_VMPART_PART reg)).toFin
      let guest := mode = .vs ∨ mode = .vu
      (¬ guest → performed s .device b o true v = true →
        exec (.registerWrite (.hart h mode) b o v) s = exec (.registerWrite .device b o v) s) ∧
      (guest → fldGet F.APC_VMPART_VALID reg = 1 → performed s q b o true v = true →
        exec (.registerWrite (.hart h mode) b o v) s = exec (.registerWrite q b o v) s) ∧
      (guest → fldGet F.APC_VMPART_VALID reg = 0 → selvCut s b = false → gateError (windowClose s) b o true = false →
        exec (.registerWrite (.hart h mode) b o v) s =
          .next (hartFault (send (inc (windowClose s) b F.ACCVIOL_COUNT) .resp (tagOf .device) [0, 0]) h mode true)))

/-! ## The sequencer (chapter 08) -/

/-- R293: for every function of the registers, with its operands as integers, the result in D, the PC 4 further, one more instruction
counted, and nothing else but what the fetch did; LZC counts the zero bits above the highest set bit, ONES the set bits, RNE gives the
nearest multiple, ties to even; a division by 0 traps with DIVZERO and the dividend, and no register is written; every other SEL, and LZC or
ONES with a B other than g0, traps with ILLEGAL. -/
def Obligations.SequencerArithmetic : Prop :=
  (∀ (l : LoomId) (d a b : GReg) (s : State),
    let A := g s l a
    let B := g s l b
    let n := B.toNat % 64
    ∀ row ∈ ([
      (.sum l d a b, 0x000, .ofInt 64 (A.toInt + B.toInt)),
      (.diff l d a b, 0x001, .ofInt 64 (A.toInt - B.toInt)),
      (.and l d a b, 0x002, .ofNat 64 (A.toNat &&& B.toNat)),
      (.or l d a b, 0x003, .ofNat 64 (A.toNat ||| B.toNat)),
      (.xor l d a b, 0x004, .ofNat 64 (A.toNat ^^^ B.toNat)),
      (.shl l d a b, 0x005, .ofNat 64 (A.toNat * 2 ^ n)),
      (.shrl l d a b, 0x006, .ofNat 64 (A.toNat / 2 ^ n)),
      (.shra l d a b, 0x007, .ofInt 64 (A.toInt / 2 ^ n)),
      (.lt l d a b, 0x008, if A.toInt < B.toInt then 1 else 0),
      (.ltu l d a b, 0x009, if A.toNat < B.toNat then 1 else 0),
      (.mullo l d a b, 0x00A, .ofNat 64 (A.toNat * B.toNat)),
      (.mulhs l d a b, 0x00B, .ofInt 64 (A.toInt * B.toInt / 2 ^ 64)),
      (.mulhu l d a b, 0x00C, .ofNat 64 (A.toNat * B.toNat / 2 ^ 64)),
      (.mins l d a b, 0x00D, .ofInt 64 (min A.toInt B.toInt)),
      (.maxs l d a b, 0x00E, .ofInt 64 (max A.toInt B.toInt)),
      (.minu l d a b, 0x00F, .ofNat 64 (min A.toNat B.toNat)),
      (.maxu l d a b, 0x010, .ofNat 64 (max A.toNat B.toNat)),
      (.sats l d a b, 0x014, .ofInt 64 (if n = 0 then A.toInt else max (-2 ^ (n - 1)) (min A.toInt (2 ^ (n - 1) - 1))))
      ] : List (Instr × Nat × W64)),
    seqAt s l (tWord 0x01 d a b row.2.1) = true → exec row.1 s = .next (done (fetched s l) l d row.2.2)) ∧
  (∀ (l : LoomId) (d a b : GReg) (s : State),
    let A := g s l a
    let n := (g s l b).toNat % 64
    (seqAt s l (tWord 0x01 d a 0 0x011) = true → ∃ z, z ≤ 64 ∧ exec (.lzc l d a) s = .next (done (fetched s l) l d (.ofNat 64 z)) ∧
      A.toNat < 2 ^ (64 - z) ∧ (z < 64 → 2 ^ (63 - z) ≤ A.toNat)) ∧
    (seqAt s l (tWord 0x01 d a 0 0x012) = true →
      exec (.ones l d a) s = .next (done (fetched s l) l d (.ofNat 64 ((List.range 64).countP (fun i => A.getLsbD i))))) ∧
    (seqAt s l (tWord 0x01 d a b 0x013) = true → ∃ q : Int, exec (.rne l d a b) s = .next (done (fetched s l) l d (.ofInt 64 q)) ∧
      2 * (A.toInt - q * 2 ^ n).natAbs ≤ 2 ^ n ∧ (2 * (A.toInt - q * 2 ^ n).natAbs = 2 ^ n → q % 2 = 0))) ∧
  (∀ (l : LoomId) (d a b : GReg) (s : State),
    let A := g s l a
    let B := g s l b
    ∀ row ∈ ([
      (.quos l d a b, 0x015, .ofInt 64 (A.toInt.tdiv B.toInt)),
      (.quou l d a b, 0x016, .ofNat 64 (A.toNat / B.toNat)),
      (.mods l d a b, 0x017, .ofInt 64 (A.toInt.tmod B.toInt)),
      (.modu l d a b, 0x018, .ofNat 64 (A.toNat % B.toNat))] : List (Instr × Nat × W64)),
    seqAt s l (tWord 0x01 d a b row.2.1) = true →
      (B ≠ 0 → exec row.1 s = .next (done (fetched s l) l d row.2.2)) ∧
      (B = 0 → ∃ t, exec row.1 s = .next t ∧ t = seqTrap (fetched s l) l tcDivzero A.toNat ∧ (seqOf t l).mfile = (seqOf s l).mfile ∧
        (seqOf t l).efile = (seqOf s l).efile)) ∧
  (∀ (l : LoomId) (w : Nat) (s : State),
    let sel := w / 2 ^ 21 % 2 ^ 11
    seqAt s l w = true → w % 64 = 0x01 → 0x018 < sel ∨ ((sel = 0x011 ∨ sel = 0x012) ∧ w / 2 ^ 16 % 32 ≠ 0) →
    exec (.illegalInstruction l) s = .next (seqTrap (fetched s l) l tcIllegal w))

/-- R292: a branch whose condition holds goes to PC + 4 × sext(K16), otherwise on; LEAP and LEAPR write PC + 4 and go; functions of a
register and a constant, CONST and HERE; SHK with a non-zero K16[15:8] traps with ILLEGAL. (The model's readings here: log entry 69.) -/
def Obligations.SequencerConstantsAndBranches : Prop :=
  (∀ (l : LoomId) (c a d : GReg) (k : BitVec 16) (k21 : BitVec 21) (s : State),
    let A := g s l a
    let C := g s l c
    let u := fetched s l
    (∀ row ∈ ([
      (.ifeq l c a k, 0x20, A.toNat = C.toNat),
      (.ifne l c a k, 0x21, A.toNat ≠ C.toNat),
      (.iflt l c a k, 0x22, A.toInt < C.toInt),
      (.ifge l c a k, 0x23, C.toInt ≤ A.toInt),
      (.ifltu l c a k, 0x24, A.toNat < C.toNat),
      (.ifgeu l c a k, 0x25, C.toNat ≤ A.toNat)] : List (Instr × Nat × Prop)),
      seqAt s l (pWord row.2.1 c a k.toNat) = true →
        (row.2.2 → exec row.1 s = .next (goTo u l (BitVec.ofInt 64 (pcOf s l + 4 * k.toInt)).toNat)) ∧
        (¬ row.2.2 → exec row.1 s = .next (goOn u l))) ∧
    (seqAt s l (lWord 0x26 d k21.toNat) = true → exec (.leap l d k21) s =
      .next (goTo (setG u l d (.ofNat 64 (pcOf s l + 4))) l (BitVec.ofInt 64 (pcOf s l + 4 * k21.toInt)).toNat)) ∧
    (seqAt s l (kWord 0x27 d a k.toNat) = true → exec (.leapr l d a k) s =
      .next (goTo (setG u l d (.ofNat 64 (pcOf s l + 4))) l ((BitVec.ofInt 64 (A.toInt + k.toInt)).toNat / 4 * 4)))) ∧
  (∀ (l : LoomId) (d a : GReg) (k : BitVec 16) (k21 : BitVec 21) (s : State),
    let A := g s l a
    (∀ row ∈ ([
      (.addk l d a k, 0x02, .ofInt 64 (A.toInt + k.toInt)),
      (.maskk l d a k, 0x03, .ofNat 64 (A.toNat &&& k.toNat)),
      (.setk l d a k, 0x04, .ofNat 64 (A.toNat ||| k.toNat)),
      (.flipk l d a k, 0x05, .ofNat 64 (A.toNat ^^^ k.toNat)),
      (.ltk l d a k, 0x06, if A.toInt < k.toInt then 1 else 0),
      (.ltku l d a k, 0x07, if A.toNat < k.toNat then 1 else 0),
      (.highk l d a k, 0x09, .ofNat 64 (A.toNat * 2 ^ 16 ||| k.toNat))] : List (Instr × Nat × W64)),
      seqAt s l (kWord row.2.1 d a k.toNat) = true → exec row.1 s = .next (done (fetched s l) l d row.2.2)) ∧
    (seqAt s l (kWord 0x08 d a k.toNat) = true →
      let n := k.toNat % 64
      (k.toNat / 64 = 0 → exec (.shk l d a k) s = .next (done (fetched s l) l d (.ofNat 64 (A.toNat * 2 ^ n)))) ∧
      (k.toNat / 64 = 1 → exec (.shk l d a k) s = .next (done (fetched s l) l d (.ofNat 64 (A.toNat / 2 ^ n)))) ∧
      (k.toNat / 64 = 2 → exec (.shk l d a k) s = .next (done (fetched s l) l d (.ofInt 64 (A.toInt / 2 ^ n)))) ∧
      (k.toNat / 64 = 3 → exec (.shk l d a k) s = .next (done (fetched s l) l d (.ofInt 64 (rshiftRne A.toInt n)))) ∧
      (256 ≤ k.toNat → exec (.shk l d a k) s = .next (seqTrap (fetched s l) l tcIllegal (kWord 0x08 d a k.toNat)))) ∧
    (seqAt s l (lWord 0x0A d k21.toNat) = true → exec (.constK l d k21) s = .next (done (fetched s l) l d (.ofInt 64 k21.toInt))) ∧
    (seqAt s l (lWord 0x0B d k21.toNat) = true →
      exec (.hereK l d k21) s = .next (done (fetched s l) l d (.ofInt 64 (pcOf s l + 4 * k21.toInt)))))

/-- R275, R289: the fetch touches the instruction buffer, its miss counter and a free value only; where the line that it reads holds
single-bit errors, they are corrected and counted besides, and the bank moves or its fault is latched where that calls for it (R326). A
result goes to D alone (to no register where D is g0, which reads as 0), the PC moves on by 4, one more instruction counts, and nothing else
changes. (The model's readings here: log entries 3, 69, 73, 117.) -/
def Obligations.SequencerFrame : Prop :=
  ∀ (l : LoomId) (d r : GReg) (v : W64) (s : State),
    fetchOnly l s (fetched s l) ∧
    ((loom s l).xErr1 = [] →
      (∃ b n, modSeq (fetched s l) l (fun q => { q with ibuf := b })
        = { modSeq s l (fun q => { q with ibuf := b }) with regs := (fetched s l).regs, free := n }) ∧
      regsBut s (fetched s l) (bLoom l) [F.LOOM_SEQIMISS_COUNT.off]) ∧
    g s l 0 = 0 ∧ g (done s l d v) l r = (if r = d ∧ d ≠ 0 then v else g s l r) ∧
    pcOf (done s l d v) l = pcOf s l + 4 ∧
    rd (done s l d v) (bLoom l) F.LOOM_SEQINSTR_COUNT = (rd s (bLoom l) F.LOOM_SEQINSTR_COUNT + 1) % 2 ^ 32 ∧
    regsBut s (done s l d v) (bLoom l) [F.LOOM_SEQINSTR_COUNT.off] ∧
    (∃ q, done s l d v = { setLoom s l { loom s l with seq := q } with regs := (done s l d v).regs })

/-- R288, R292 to R294: where a load lies in a bank of the sequencer, in the neuron store or in the synapse store outside the plastic
region, D takes the bytes at A + sext(K16), the lowest address first, sign- or zero-extended, and no byte of any store changes; a misaligned
address traps with MISALIGN, a bank of another unit with LACCESS. R288, R292 to R294: a store writes the low bytes of C at A + sext(K16),
the lowest address first, and no other byte of any store but DIRTY of the slot (R83); a store to the neuron store before the last slot
update of SETTLE, and one to the synapse store from OPEN to it, waits (R112, R147), and the accesses of the same code after it wait for it.
A read that meets a word that cannot be corrected halts the sequencer (R303). A store to the own page acts as its register write does, with
the PC already moved on. (The model's readings here: log entries 69, 71, 73, 93.) -/
def Obligations.SequencerMemory : Prop :=
  (∀ (l : LoomId) (d a : GReg) (k : BitVec 16) (s : State),
    let x := (BitVec.ofInt 64 ((g s l a).toInt + k.toInt)).toNat % 2 ^ 24
    ∀ row ∈ ([(.get8 l d a k, 0x10, 1, true), (.get8u l d a k, 0x11, 1, false), (.get16 l d a k, 0x12, 2, true),
      (.get16u l d a k, 0x13, 2, false), (.get32 l d a k, 0x14, 4, true), (.get32u l d a k, 0x15, 4, false),
      (.get64 l d a k, 0x16, 8, true)] : List (Instr × Nat × Nat × Bool)),
    let n := row.2.2.1
    let value := fun (f : Nat → Byte) (y : Nat) =>
      if row.2.2.2 then BitVec.signExtend 64 (BitVec.ofNat (8 * n) (bytesAt f y n)) else BitVec.ofNat 64 (bytesAt f y n)
    let gives := fun (v : W64) => ∃ u, exec row.1 s = .next (done u l d v) ∧ storesKept s u ∧ (∀ r, g u l r = g s l r) ∧
      pcOf u l = pcOf s l ∧ (∀ j, j ≠ l → loom u j = loom s j) ∧ u.hubs = s.hubs ∧ u.beat = s.beat
    let f := fetched s l
    let sound := fun (y : Nat) (es : List Nat) => es.any (fun w => y / 8 ≤ w && w < (y + n + 7) / 8) = false
    seqAt s l (kWord row.2.1 d a k.toNat) = true →
      (x % n ≠ 0 → exec row.1 s = .next (seqTrap f l tcMisalign x)) ∧
      (x % n = 0 → ownStoreHeld s l = true → exec row.1 s = .next f) ∧
      (x % n = 0 → ownStoreHeld s l = false →
      (x < 0x80000 → seqMay f l x n = true → scrBroken f l x n = false → gives (value (scratchByte s l) x)) ∧
      (x < 0x80000 → seqMay f l x n = true → scrBroken f l x n = true → exec row.1 s = .next (seqHalt f l 0x0111)) ∧
      (x < 0x80000 → owner s l (x / 65536) ≠ ownSeq → owner s l (x / 65536) ≠ ownShared →
        exec row.1 s = .next (seqTrap (inc f (bLoom l) F.LOOM_BOWNREFUSE_COUNT) l tcLaccess x)) ∧
      (0x80000 ≤ x → x < 0x100000 → sound (x - 0x80000) (loom s l).nErr2 → gives (value (nstoreByte s l) (x - 0x80000))) ∧
      (0x100000 ≤ x → x < 0x180000 → inPlastic s l (x - 0x100000) n = false → sound (x - 0x100000) (loom s l).sErr2 →
        gives (value (sstoreByte s l) (x - 0x100000))) ∧
      (0x100000 ≤ x → x < 0x180000 → inPlastic s l (x - 0x100000) n = true →
        exec row.1 s = .next (seqTrap (inc f (bLoom l) F.LOOM_TPREFUSE_COUNT) l tcLaccess x)) ∧
      (0x180000 ≤ x → ownPage x = none ∨ n ≠ 4 → exec row.1 s = .next (seqTrap f l tcLaccess x)) ∧
      (∀ w off, n = 4 → 0x180000 ≤ x → ownPage x = some (w, off) → logFull s l = false →
        performed f (loomReq s l) (bLoom l) off false 0 = true → ∃ u,
          let y := (get (windowClose f) (loomReq s l) w (bLoom l) off).1
          exec row.1 s = .next (done u l d (if row.2.2.2 then y.signExtend 64 else y.setWidth 64))))) ∧
  (∀ (l : LoomId) (c a : GReg) (k : BitVec 16) (s : State),
    let x := (BitVec.ofInt 64 ((g s l a).toInt + k.toInt)).toNat % 2 ^ 24
    let v := (g s l c).toNat
    let u := fetched s l
    ∀ row ∈ ([(.put8 l c a k, 0x18, 1), (.put16 l c a k, 0x19, 2), (.put32 l c a k, 0x1A, 4), (.put64 l c a k, 0x1B, 8)] :
      List (Instr × Nat × Nat)),
    let n := row.2.2
    let bytes := fun (old : Nat → Byte) (y i : Nat) => if y ≤ i ∧ i < y + n then BitVec.ofNat 8 (v / 2 ^ (8 * (i - y))) else old i
    seqAt s l (pWord row.2.1 c a k.toNat) = true →
      (x % n ≠ 0 → exec row.1 s = .next (seqTrap u l tcMisalign x)) ∧
      (x % n = 0 → 0x80000 ≤ x → x < 0x180000 → (x < 0x100000 ∨ inPlastic s l (x - 0x100000) n = false) → storeHeld (loom s l) x = true →
        exec row.1 s = .next (goOn (setLoom u l { loom u l with
          held := (loom s l).held ++ [⟨some (usesMain (seqOf s l)), x, leBytes n (v % 2 ^ (8 * n))⟩] }) l)) ∧
      (x % n = 0 → x < 0x80000 ∨ 0x180000 ≤ x ∨ storeHeld (loom s l) x = false → ownStoreHeld s l = true → exec row.1 s = .next u) ∧
      (x % n = 0 → ownStoreHeld s l = false →
      (x < 0x80000 → seqMay u l x n = true →
        ∃ m e1 e2, exec row.1 s = .next (goOn (setLoom u l { loom u l with scratch := m, xErr1 := e1, xErr2 := e2 }) l) ∧
          ∀ i, tabGet 0 m i = bytes (scratchByte s l) x i) ∧
      (x < 0x80000 → owner s l (x / 65536) ≠ ownSeq → owner s l (x / 65536) ≠ ownShared →
        exec row.1 s = .next (seqTrap (inc u (bLoom l) F.LOOM_BOWNREFUSE_COUNT) l tcLaccess x)) ∧
      (0x80000 ≤ x → x < 0x100000 → storeHeld (loom s l) x = false →
        ∃ m e1 e2, exec row.1 s = .next (goOn (setLoom u l { loom u l with nstore := m, nErr1 := e1, nErr2 := e2 }) l) ∧
          (∀ i, i / 16 ≠ (x - 0x80000) / 16 → tabGet 0 m i = nstoreByte s l i) ∧
          ∀ i, tabGet 0 m i ||| (if i % 16 = 14 then 8 else 0) =
            bytes (nstoreByte s l) (x - 0x80000) i ||| (if i % 16 = 14 then 8 else 0)) ∧
      (0x100000 ≤ x → x < 0x180000 → inPlastic s l (x - 0x100000) n = false → storeHeld (loom s l) x = false →
        ∃ m e1 e2, exec row.1 s = .next (goOn (setLoom u l { loom u l with sstore := m, sErr1 := e1, sErr2 := e2 }) l) ∧
          ∀ i, tabGet 0 m i = bytes (sstoreByte s l) (x - 0x100000) i) ∧
      (0x100000 ≤ x → x < 0x180000 → inPlastic s l (x - 0x100000) n = true →
        exec row.1 s = .next (seqTrap (inc u (bLoom l) F.LOOM_TPREFUSE_COUNT) l tcLaccess x)) ∧
      (0x180000 ≤ x → ownPage x = none ∨ n ≠ 4 → exec row.1 s = .next (seqTrap u l tcLaccess x)) ∧
      (∀ w off, n = 4 → 0x180000 ≤ x → ownPage x = some (w, off) →
        let p := modSeq u l (fun q => seqSetPc q (pcOf s l + 4))
        performed p (loomReq s l) (bLoom l) off true (.ofNat 32 v) = true →
        exec row.1 s = .next (inc (put (windowClose p) (loomReq s l) w (bLoom l) off (.ofNat 32 v)) (bLoom l) F.LOOM_SEQINSTR_COUNT))))

/-- R294: AADD, ASWAP and ACAS take the old doubleword of scratch to D and leave the sum, the operand, or the operand where the old word
equals D; a misaligned address traps with MISALIGN, one outside scratch or in a bank of another unit with LACCESS, and a word that cannot be
corrected halts the sequencer (R303). R290, R294: RLD and RST at an aligned address of HBM or of the control region wait for an answer: the
request is numbered and unanswered at the controller's window or waits for room in it, or its packet leaves on the selvedge network; one
elsewhere, or one that a target answers with an error, traps with RFAULT. The answer to a load goes to D, and the program goes on; without
an answer RTIMEOUT is trapped. (The model's readings here: log entry 69.) -/
def Obligations.SequencerSharedAccesses : Prop :=
  (∀ (l : LoomId) (d a b : GReg) (s : State),
    let x := (g s l a).toNat % 2 ^ 24
    let old := bytesAt (scratchByte s l) x 8
    ∀ row ∈ ([(.aadd l d a b, 0, old + (g s l b).toNat), (.aswap l d a b, 1, (g s l b).toNat),
      (.acas l d a b, 2, if old = (g s l d).toNat then (g s l b).toNat else old)] : List (Instr × Nat × Nat)),
    let f := fetched s l
    seqAt s l (tWord 0x1C d a b row.2.1) = true →
      (x % 8 ≠ 0 → exec row.1 s = .next (seqTrap f l tcMisalign x)) ∧
      (x % 8 = 0 → 0x80000 ≤ x → exec row.1 s = .next (seqTrap f l tcLaccess x)) ∧
      (x % 8 = 0 → x < 0x80000 → ownStoreHeld s l = true → exec row.1 s = .next f) ∧
      (x % 8 = 0 → x < 0x80000 → ownStoreHeld s l = false → owner s l (x / 65536) ≠ ownSeq → owner s l (x / 65536) ≠ ownShared →
        exec row.1 s = .next (seqTrap (inc f (bLoom l) F.LOOM_BOWNREFUSE_COUNT) l tcLaccess x)) ∧
      (x % 8 = 0 → x < 0x80000 → ownStoreHeld s l = false → seqMay f l x 8 = true → scrBroken f l x 8 = true →
        exec row.1 s = .next (seqHalt f l 0x0111)) ∧
      (x % 8 = 0 → x < 0x80000 → ownStoreHeld s l = false → seqMay f l x 8 = true → scrBroken f l x 8 = false →
        ∃ t, exec row.1 s = .next t ∧ (d ≠ 0 → g t l d = .ofNat 64 old) ∧ (∀ r : GReg, r ≠ d → g t l r = g s l r) ∧
          pcOf t l = pcOf s l + 4 ∧
          (∀ j i, nstoreByte t j i = nstoreByte s j i ∧ sstoreByte t j i = sstoreByte s j i ∧ t.mem = s.mem) ∧
          (∀ j i, scratchByte t j i =
            if j = l.val ∧ x ≤ i ∧ i < x + 8 then .ofNat 8 (row.2.2 / 2 ^ (8 * (i - x))) else scratchByte s j i))) ∧
  (∀ (l : LoomId) (d a b : GReg) (wide ok : Bool) (data : W64) (s : State),
    let x := (g s l a).toNat
    let n := if wide then 8 else 4
    let u := fetched s l
    let away := ¬ x + n ≤ hbmSize ∧ ¬ (ctlBase ≤ x ∧ x < ctlBase + 2 ^ 28 ∧ n = 4)
    (∀ row ∈ ([(.rld l d a wide, tWord 0x1D d a 0 wide.toNat, .rld x d wide, false), (.rst l a b wide, tWord 0x1E 0 a b wide.toNat, .rst x, true)] :
      List (Instr × Nat × Wait × Bool)),
      seqAt s l row.2.1 = true →
        (x % n ≠ 0 → exec row.1 s = .next (seqTrap u l tcMisalign x)) ∧
        (x % n = 0 → away → exec row.1 s = .next (seqTrap u l tcRfault x)) ∧
        (x % n = 0 → x + n ≤ hbmSize → ∃ t, exec row.1 s = .next t ∧ (seqOf t l).wait = some row.2.2.1 ∧ pcOf t l = pcOf s l ∧
          storesKept s { t with mem := s.mem } ∧ t.mem.hbm = s.mem.hbm ∧
          ∃ q ∈ (hbmTx t (bLoom l) (hbmCtl x)).unans ++ (hbmTx t (bLoom l) (hbmCtl x)).held, q.write = row.2.2.2 ∧ q.addr = x ∧
            q.size = wide.toNat ∧ q.data = if row.2.2.2 then leBytes n ((g s l b).toNat % 2 ^ (8 * n)) else []) ∧
        (x % n = 0 → n = 4 → ctlBase ≤ x → x < ctlBase + 2 ^ 28 → ∃ t, exec row.1 s = .next t ∧ (seqOf t l).wait = some row.2.2.1 ∧
          pcOf t l = pcOf s l ∧ storesKept s t ∧
          ⟨.remote, bLoom l, regPacket (bLoom l) (rd s (bLoom l) F.OWNER_PART) 0 (x - ctlBase)
            (if row.2.2.2 then [(g s l b).toNat % 2 ^ 32] else [])⟩ ∈ t.out)) ∧
    (∀ y, (seqOf s l).wait = some (.rld y d wide) → ok = true → logFull s l = false → ∃ t, exec (.remoteResponse l ok data) s = .next t ∧
      (d ≠ 0 → g t l d = if wide then data else .ofNat 64 (data.toNat % 2 ^ 32)) ∧ (∀ r : GReg, r ≠ d → g t l r = g s l r) ∧
      pcOf t l = pcOf s l + 4 ∧ (seqOf t l).wait = none) ∧
    (∀ y, (seqOf s l).wait = some (.rst y) → ok = true → exec (.remoteResponse l ok data) s = .next (goOn (unwait s l) l)) ∧
    (∀ y w, (seqOf s l).wait = some w → (w = .rld y d wide ∨ w = .rst y) →
      exec (.remoteTimeout l) s = .next (seqTrap (unwait s l) l tcRtimeout y) ∧
      (ok = false → exec (.remoteResponse l ok data) s = .next (seqTrap (unwait s l) l tcRfault y))))

/-- R298: a trap writes LOOM_SEQTPC, LOOM_SEQTCAUSE, LOOM_SEQTVAL and counts; with a valid LOOM_SEQTVEC and no handler running, the handler
starts at it in the context that trapped, and otherwise the sequencer halts (R301). Here for TRAP k, which raises USER with TVAL k (R294).
(The model's readings here: log entry 69.) -/
def Obligations.TrapEntry : Prop :=
  ∀ (l : LoomId) (k : BitVec 21) (s : State), seqAt s l (lWord 0x29 0 k.toNat) = true →
    ∃ t, exec (.trap l k) s = .next t ∧ t = seqTrap (fetched s l) l tcUser k.toNat ∧
      rd t (bLoom l) F.LOOM_SEQTPC_ADDR = pcOf s l / 4 % 2 ^ 17 ∧ rd t (bLoom l) F.LOOM_SEQTCAUSE_CAUSE = 8 ∧
      rd t (bLoom l) F.LOOM_SEQTCAUSE_ACT = seqAct (seqOf s l) % 8 ∧ rd t (bLoom l) F.LOOM_SEQTVAL_LO_VAL = k.toNat ∧
      rd t (bLoom l) F.LOOM_SEQTRAPS_COUNT = (rd s (bLoom l) F.LOOM_SEQTRAPS_COUNT + 1) % 2 ^ 32 ∧
      (rdB s (bLoom l) F.LOOM_SEQTVEC_VALID = true → (seqOf s l).trap = none →
        (seqOf t l).trap = some ⟨seqAct (seqOf s l), pcOf s l, rd s (bLoom l) F.LOOM_SEQTVEC_ADDR * 4⟩ ∧
        (seqOf t l).halted = (seqOf s l).halted ∧ (∀ r, g t l r = g s l r)) ∧
      (rdB s (bLoom l) F.LOOM_SEQTVEC_VALID = false ∨ (seqOf s l).trap ≠ none →
        (seqOf t l).halted = true ∧ (seqOf t l).trap = none)

/-- R279, R287, R294, R298: YIELD, END, TRET, TRETS and IFLUSH. R294, R613, R665, R671: RDBEAT and RDROUND give the beat and the round;
RDPHASE gives the phase, RDLT the loom time as at most 6 ns ago and RDCYC a count that this model leaves open, each counted as
timing-dependent and, where looms keep a log, recorded in it. (The model's readings here: log entries 19, 69, 72.) -/
def Obligations.SequencerControlAndReads : Prop :=
  (∀ (l : LoomId) (s : State),
    let q := seqOf s l
    let u := fetched s l
    let counted := fun (t : State) => inc t (bLoom l) F.LOOM_SEQINSTR_COUNT
    (seqAt s l (tWord 0x28 0 0 0 0) = true →
      (q.trap = none → q.act = none → exec (.yield l) s = .next (goOn u l)) ∧
      (∀ x, q.trap = some x → x.ctx = 0 → q.act = none → exec (.yield l) s =
        .next (counted (modSeq u l (fun q => seqSetPc { q with trap := none, wait := none } (x.tpc + 4))))) ∧
      (∀ a, (∀ x, q.trap = some x → x.ctx ≠ 0) → q.act = some a → ∃ t, exec (.yield l) s = .next t ∧ (seqOf t l).act = none ∧
        (seqOf t l).mpc = q.mpc ∧ (seqOf t l).wait = q.mwait ∧
        rd t (bLoom l) F.LOOM_SEQACT_COUNT = (rd s (bLoom l) F.LOOM_SEQACT_COUNT + 1) % 2 ^ 32)) ∧
    (seqAt s l (tWord 0x28 0 0 0 1) = true →
      (seqAct q = 0 → exec (.endOp l) s =
        .next (counted (modSeq u l (fun q => { q with main := false, trap := none, wait := none })))) ∧
      (seqAct q ≠ 0 → exec (.endOp l) s = .next (seqTrap u l tcIllegal (tWord 0x28 0 0 0 1)))) ∧
    (∀ row ∈ ([(.tret l, 2, 0), (.trets l, 3, 4)] : List (Instr × Nat × Nat)), seqAt s l (tWord 0x28 0 0 0 row.2.1) = true →
      (∀ x, q.trap = some x → (∀ a, q.act = some a → a.due = false ∨ a.raised = true) → exec row.1 s =
        .next (counted (modSeq u l (fun q => seqSetPc { q with trap := none, wait := none } (x.tpc + row.2.2))))) ∧
      (q.trap = none → exec row.1 s = .next (seqTrap u l tcIllegal (tWord 0x28 0 0 0 row.2.1)))) ∧
    (seqAt s l (tWord 0x28 0 0 0 4) = true → exec (.iflush l) s = .next (goOn (modSeq u l (fun q => { q with ibuf := [] })) l))) ∧
  (∀ (l : LoomId) (d : GReg) (s : State),
    (seqAt s l (tWord 0x28 d 0 0 9) = true → exec (.rdbeat l d) s = .next (done (fetched s l) l d (.ofNat 64 (loom s l).beat))) ∧
    (seqAt s l (tWord 0x28 d 0 0 10) = true → exec (.rdround l d) s = .next (done (fetched s l) l d (.ofNat 64 (loom s l).round))) ∧
    (∀ row ∈ ([(.rdlt l d, 8, fun v => ∃ j, j ≤ 6 ∧ v = .ofNat 64 (ltNow s - j)), (.rdcyc l d, 11, fun _ => True),
      (.rdphase l d, 12, fun v => v = .ofNat 64 (match (loom s l).phase with
        | .idle => 0 | .opening => 1 | .integrate => 2 | .close => 3 | .settle => 4 | .emit => 5))] : List (Instr × Nat × (W64 → Prop))),
      seqAt s l (tWord 0x28 d 0 0 row.2.1) = true → logFull s l = false →
        ∃ t v, exec row.1 s = .next t ∧ row.2.2 v ∧ (d ≠ 0 → g t l d = v) ∧ (∀ r : GReg, r ≠ d → g t l r = g s l r) ∧
          pcOf t l = pcOf s l + 4 ∧
          rd t (bLoom l) F.LOOM_TIMEDEP_COUNT = (rd s (bLoom l) F.LOOM_TIMEDEP_COUNT + 1) % 2 ^ 32 ∧
          (logOn s = true → (loom t l).logBuf = (loom s l).logBuf ++ [.ofNat 64 (0xE * 2 ^ 60 + 6 * 2 ^ 56), v]) ∧ storesKept s t))

/-- R277, R278, R285, R286, R291, R300, R301: the first queued activation starts at its entry with its event file loaded, a handler where
its word of the handler table is VALID; one whose word lies in a bank that is held waits, and a word that cannot be corrected halts the
sequencer (R303); the loom-cycle budget traps once in an activation; a trap handler that runs too long halts the sequencer; a word without a
defined encoding traps with ILLEGAL. (The model's readings here: log entries 69, 70, 72, 120.) -/
def Obligations.SequencerEvents : Prop :=
  ∀ (l : LoomId) (cycles : Nat) (s : State),
    let q := seqOf s l
    let b := bLoom l
    (∀ a rest, q.queue = a :: rest → a.ctx ≠ 0 → q.running = true → q.halted = false → q.act = none → q.trap = none → midRemote q = false →
      let w := handlerWord s l a.g5
      (a.ctx = 4 → scrHeld s l w 4 = true → exec (.activationDispatch l) s = .next s) ∧
      (a.ctx = 4 → scrHeld s l w 4 = false → scrBroken s l w 4 = true → exec (.activationDispatch l) s = .next (seqHalt s l 0x0111)) ∧
      ((a.ctx = 4 → scrHeld s l w 4 = false ∧ scrBroken s l w 4 = false ∧ (handlerEntry s l a.g5).isSome = true) →
      ∃ t, exec (.activationDispatch l) s = .next t ∧ (seqOf t l).act = some a ∧ g t l 1 = .ofNat 64 a.ctx ∧ g t l 2 = .ofNat 64 a.g2 ∧
        g t l 3 = .ofNat 64 a.g3 ∧ g t l 4 = .ofNat 64 a.g4 ∧ g t l 5 = .ofNat 64 a.g5 ∧
        (seqOf t l).mfile = q.mfile ∧ (seqOf t l).mpc = q.mpc ∧ (seqOf t l).mwait = q.wait ∧
        (a.ctx ≠ 4 → pcOf t l = rd s b (hookAddr a.ctx) * 4) ∧ ∀ e, a.ctx = 4 → handlerEntry s l a.g5 = some e → pcOf t l = e)) ∧
    (∀ a, q.act = some a → q.running = true → q.halted = false → q.trap = none → a.raised = false →
      rd s b F.LOOM_SEQBUDGET_CYCLES ≠ 0 → rd s b F.LOOM_SEQBUDGET_CYCLES ≤ cycles →
      exec (.seqBudgetExpiry l cycles) s =
        .next (seqTrap (modSeq s l (fun q => { q with act := some { a with raised := true } })) l tcBudget cycles)) ∧
    (q.trap.isSome = true → q.running = true → q.halted = false →
      ∃ t, exec (.trapHandlerLimit l) s = .next t ∧ (seqOf t l).halted = true ∧ rd t b F.FAULTCAUSE_VALID = 1) ∧
    (∀ w, seqAt s l w = true → legalWord w = false → exec (.illegalInstruction l) s = .next (seqTrap (fetched s l) l tcIllegal w))

/-- R224, R295, R296: ACCADD adds to an accumulator only in the INTEGRATE hook itself and with |B| below 2³⁰, now (E 0) or E beats later; it
waits while a bank that the neuron engine works on is held (R316). BRUN queues a valid triggered operation or answers REFUSED; BWAIT waits
for an idle array; BSTAT reads LOOM_BSTAT. (The model's readings here: log entries 67, 69, 131.) -/
def Obligations.SequencerEngineUnits : Prop :=
  ∀ (l : LoomId) (e : Fin 16) (d a b : GReg) (s : State),
    let u := fetched s l
    let m := loom s l
    let slot := (g s l a).toNat % 2 ^ 15
    let C := (g s l b).toInt
    let i := (g s l a).toNat % 32
    let op := dop s l i
    let acc := fun (t : State) (n : Nat) => sext 64 (scrNat t l (m.lat.accBase + 8 * n) 8)
    let hook := (seqOf s l).trap = none ∧ (seqOf s l).act.map (·.ctx) = some 1
    (seqAt s l (tWord 0x30 0 a b e) = true →
      (¬ hook → exec (.accadd l e a b) s = .next (seqTrap u l tcNotnow (tWord 0x30 0 a b e))) ∧
      (hook → 2 ^ 30 ≤ C.natAbs → exec (.accadd l e a b) s = .next (seqTrap u l tcRange (g s l b).toNat)) ∧
      (hook → C.natAbs < 2 ^ 30 → neuronHeld u l = true → exec (.accadd l e a b) s = .next u) ∧
      (hook → C.natAbs < 2 ^ 30 → neuronHeld u l = false →
        (m.lat.nslots ≤ slot → exec (.accadd l e a b) s = .next (goOn (inc u (bLoom l) F.LOOM_TGTRANGE_COUNT) l)) ∧
        (slot < m.lat.nslots → e = 0 → m.contrib + 1 < 2 ^ 32 → scrBroken u l (m.lat.accBase + 8 * slot) 8 = false →
          ∃ t, exec (.accadd l e a b) s = .next t ∧ acc t slot = (BitVec.ofInt 64 (acc s slot + C)).toInt ∧
            (∀ j, j ≠ slot → acc t j = acc s j) ∧ (loom t l).contrib = m.contrib + 1 ∧ pcOf t l = pcOf s l + 4 ∧
            rd t (bLoom l) F.LOOM_CONTRIB_COUNT = (rd s (bLoom l) F.LOOM_CONTRIB_COUNT + 1) % 2 ^ 32) ∧
        (slot < m.lat.nslots → e ≠ 0 → exec (.accadd l e a b) s = .next (goOn (dqContrib u l slot C e) l)))) ∧
    (seqAt s l (tWord 0x31 d a 0 0) = true →
      (op.valid = false ∨ op.trigger = false → exec (.brun l d a) s = .next (done (wr u (bLoom l) F.LOOM_BSTAT_REFUSED 1) l d 1)) ∧
      (op.valid = true → op.trigger = true → m.bOp ≠ none ∨ m.bSettle = true → m.bQueue.length < 4 →
        ∃ t, exec (.brun l d a) s = .next (done t l d 0) ∧ (loom t l).bQueue = m.bQueue ++ [i] ∧ (loom t l).bOp = m.bOp) ∧
      (op.valid = true → op.trigger = true → 4 ≤ m.bQueue.length →
        exec (.brun l d a) s = .next (done (wr u (bLoom l) F.LOOM_BSTAT_REFUSED 1) l d 1)) ∧
      (op.valid = true → op.trigger = true → m.bOp = none → m.bSettle = false → m.bQueue = [] →
        ∃ t, exec (.brun l d a) s = .next (done t l d 0))) ∧
    (seqAt s l (tWord 0x31 0 0 0 1) = true →
      (rd s (bLoom l) F.LOOM_BSTAT_BUSY = 0 → rd s (bLoom l) F.LOOM_BSTAT_QUEUED = 0 → exec (.bwait l) s = .next (goOn u l)) ∧
      (rd s (bLoom l) F.LOOM_BSTAT_BUSY ≠ 0 ∨ rd s (bLoom l) F.LOOM_BSTAT_QUEUED ≠ 0 → exec (.bwait l) s = .next u)) ∧
    (seqAt s l (tWord 0x31 d 0 0 2) = true → logFull s l = false →
      ∃ t, exec (.bstat l d) s = .next (done t l d ((regGet s (bLoom l) F.LOOM_BSTAT_BUSY.off 0).setWidth 64)) ∧ storesKept s t ∧
        (∀ r, g t l r = g s l r) ∧ pcOf t l = pcOf s l)

/-- R297, R425: SHSUB appends the descriptor in scratch to the queue of the loom's shuttle and gives a free ticket; it waits while its bank
is held (R316), and a descriptor word that cannot be corrected halts the sequencer (R303). SHWAIT waits for a ticket's end, SHTEST tells of
it without waiting, and either frees the ticket. (The model's readings here: log entries 55, 69, 78.) -/
def Obligations.SequencerShuttle : Prop :=
  ∀ (l : LoomId) (d a : GReg) (s : State),
    let u := fetched s l
    let x := (g s l a).toNat
    let k := loomShuttle l
    (seqAt s l (tWord 0x32 d a 0 0) = true →
      (x % 64 ≠ 0 → exec (.shsub l d a) s = .next (seqTrap u l tcMisalign x)) ∧
      (x % 64 = 0 → 0x80000 ≤ x → exec (.shsub l d a) s = .next (seqTrap u l tcLaccess x)) ∧
      (x % 64 = 0 → x < 0x80000 → scrHeld u l x 64 = true → owner s l (x / 65536) = ownSeq ∨ owner s l (x / 65536) = ownShared →
        exec (.shsub l d a) s = .next u) ∧
      (x % 64 = 0 → x < 0x80000 → seqMay u l x 64 = true → scrBroken u l x 64 = true → (shOutstanding s l).length < 8 →
        exec (.shsub l d a) s = .next (seqHalt u l 0x0111)) ∧
      (x % 64 = 0 → x < 0x80000 → seqMay u l x 64 = true → scrBroken u l x 64 = false → (shOutstanding s l).length < 8 →
        (sh s k).queue.length < 256 →
        ∃ t n, exec (.shsub l d a) s = .next t ∧ n < 256 ∧ (∀ e ∈ (sh s k).queue, e.ticket ≠ n) ∧
          (sh t k).queue = (sh s k).queue ++ [⟨n, l, rd s (bLoom l) F.OWNER_PART,
            .desc (shDescOf ((List.range 64).map (fun i => scratchByte s l (x + i)))) (some (mkLocal l x)), none, false⟩] ∧
          (∀ j, j ≠ k → sh t j = sh s j) ∧ (d ≠ 0 → g t l d = .ofNat 64 n) ∧ pcOf t l = pcOf s l + 4) ∧
      (x % 64 = 0 → x < 0x80000 → seqMay u l x 64 = true → 8 ≤ (shOutstanding s l).length →
        ((∀ e ∈ shOutstanding s l, e.code ≠ none) → exec (.shsub l d a) s = .next (done u l d 0x100)) ∧
        ((∃ e ∈ shOutstanding s l, e.code = none) → exec (.shsub l d a) s = .next u))) ∧
    (∀ row ∈ ([(.shwait l d a, 1), (.shtest l d a, 2)] : List (Instr × Nat)), seqAt s l (tWord 0x32 d a 0 row.2) = true → logFull s l = false →
      (shTicket s l x = none → ∃ t, exec row.1 s = .next (done t l d 1) ∧ (sh t k).queue = (sh s k).queue.filter
        (fun e => !(e.ticket = x && e.loom = l.val))) ∧
      (∀ e c, shTicket s l x = some e → e.code = some c → ∃ t, exec row.1 s = .next (done t l d (if c = scOk then 0 else 6)) ∧
        (sh t k).queue = (sh s k).queue.filter (fun e => !(e.ticket = x && e.loom = l.val)) ∧
        (logOn s = true → (loom t l).logBuf = (loom s l).logBuf ++
          [.ofNat 64 (0xE * 2 ^ 60 + 3 * 2 ^ 56), if c = scOk then 0 else 6])) ∧
      (∀ e, shTicket s l x = some e → e.code = none →
        if row.2 = 1 then exec row.1 s = .next u else ∃ t, exec row.1 s = .next (done t l d 5) ∧ (sh t k).queue = (sh s k).queue))

/-- R380, R386, R613: CSEND and CTRY take a message from scratch to a channel and answer OK, REFUSED or CLOSED; without credits CTRY answers
NOCREDIT and CSEND waits; CPOLL gives the place of the message at the head of a receive ring; CDONE releases it. An access to a bank that is
held waits (R316). (The model's readings here: log entries 69, 76.) -/
def Obligations.SequencerChannels : Prop :=
  ∀ (l : LoomId) (d a b : GReg) (s : State),
    let u := fetched s l
    let chan := (g s l a).toNat
    let x := (g s l b).toNat
    let n := msgWords (bits (bytesAt (scratchByte s l) x 8) 15 8)
    let v := (scratchCheck u l x (8 * n)).2
    let ws := (List.range n).map (fun i => BitVec.ofNat 64 (bytesAt (scratchByte s l) (x + 8 * i) 8))
    (∀ row ∈ ([(.csend l d a b, 0), (.ctry l d a b, 1)] : List (Instr × Nat)), seqAt s l (tWord 0x33 d a b row.2) = true → logFull s l = false →
      (x % 8 ≠ 0 → exec row.1 s = .next (seqTrap u l tcMisalign x)) ∧
      (x % 8 = 0 → x + 8 * n ≤ 0x80000 → 0 < n → (∀ i, i < n → seqMay u l (x + 8 * i) 8 = true) → scrBroken u l x (8 * n) = true →
        exec row.1 s = .next (seqHalt u l 0x0111)) ∧
      (x % 8 = 0 → x + 8 * n ≤ 0x80000 → 0 < n → (∀ i, i < n → seqMay u l (x + 8 * i) 8 = true) → scrBroken u l x (8 * n) = false →
        exec row.1 s = .next (match chSend v l chan ws with
        | .held => v
        | .refused => done (logValue v l 5 1) l d 1
        | .closed => done (logValue v l 5 2) l d 2
        | .ok t => done (logValue t l 5 0) l d 0
        | .full credits => if row.2 = 1 then done (logValue (timeDep v l 1) l 5 3) l d 3 else chBlock v l chan credits))) ∧
    (seqAt s l (tWord 0x33 d a 0 2) = true → logFull s l = false →
      ∃ y, exec (.cpoll l d a) s = .next (done (logValue (timeDep u l 1) l 4 y) l d y) ∧
        (chFind s l chan 1 = none → y = 0) ∧
        (∀ i m, chFind s l chan 1 = some i → (chEnd s l i).ring.find? (fun m => !m.pad) = some m →
          y = .ofNat 64 (chBase s l i + 64 + 64 * m.slot))) ∧
    (seqAt s l (tWord 0x33 d a 0 3) = true →
      (doneEntry s l chan = none → exec (.cdone l d a) s = .next (done u l d 1)) ∧
      (∀ i, doneEntry s l chan = some i → exec (.cdone l d a) s = .next (if ringHeld u l i then u else done (chRelease u l i) l d 0)))

/-- R357, R359, R394, R396, R402: LSIG sends an ADD to the lamp's hub, LWAIT a watch and waits, LREAD reads a lamp of the loom's partition;
PLYPUT sends a contribution of a queue that the loom's mask names and that the window takes. (The model's readings here: log entries 56, 69,
75, 77, 135.) -/
def Obligations.SequencerLampsAndPly : Prop :=
  ∀ (l : LoomId) (d a b : GReg) (s : State),
    let u := fetched s l
    let x := (g s l a).toNat
    let q := x % 256
    let w := plyWin s l q
    (seqAt s l (tWord 0x34 d a b 0) = true →
      (x < 16384 → exec (.lsig l d a b) s = .next (done (send u .lampAdd (bHub (x / 1024)) [bLoom l, x % 1024, rd s (bLoom l) F.OWNER_PART, (g s l b).toNat])
        l d (if loomLampOk s l x then 0 else 1))) ∧
      (16384 ≤ x → exec (.lsig l d a b) s = .next (done u l d 1))) ∧
    (seqAt s l (tWord 0x34 d a b 1) = true → logFull s l = false →
      (x < 16384 → ∃ t, exec (.lwait l d a b) s = .next t ∧ (seqOf t l).wait = some (.lamp x d (seqOf s l).wtok) ∧ pcOf t l = pcOf s l ∧
        (seqOf t l).wtok = (seqOf s l).wtok + 1 ∧ t.out = u.out ++ [outOf .watch (bHub (x / 1024))
          [waiterOf (seqOf s l) l, x % 1024, (g s l b).toNat, (g s l d).toNat, (seqOf s l).wtok]]) ∧
      (16384 ≤ x → exec (.lwait l d a b) s = .next (done (logValue u l 2 1) l d 1))) ∧
    (seqAt s l (tWord 0x34 d a b 2) = true → logFull s l = false →
      (loomLampOk s l x = true → ∃ t, exec (.lread l d a b) s = .next t ∧ (d ≠ 0 → g t l d = 0) ∧
        (b ≠ 0 → b ≠ d → g t l b = .ofNat 64 (lampVal s (x / 1024) (x % 1024))) ∧ pcOf t l = pcOf s l + 4 ∧ t.hubs = s.hubs) ∧
      (loomLampOk s l x = false → ∃ t, exec (.lread l d a b) s = .next t ∧ (d ≠ 0 → g t l d = 1) ∧ (b ≠ d → g t l b = 0) ∧
        pcOf t l = pcOf s l + 4 ∧ (x < 16384 → rd t (bHub (x / 1024)) F.HUB_LAMPREFUSE_COUNT =
          (rd s (bHub (x / 1024)) F.HUB_LAMPREFUSE_COUNT + 1) % 2 ^ 32))) ∧
    (seqAt s l (tWord 0x35 d a b 0) = true →
      (plyMine s l q = false → exec (.plyput l d a b) s = .next (done u l d 1)) ∧
      (plyMine s l q = true → plyRoom s l q = false → exec (.plyput l d a b) s = .next u) ∧
      (plyMine s l q = true → plyRoom s l q = true → ∃ t, exec (.plyput l d a b) s = .next (done t l d 0) ∧
        plyWin t l q = ⟨w.k + 1, w.kept ++ [(w.k, (g s l b).toInt)]⟩ ∧
        (isolated s l = false → t.out = u.out ++ [⟨.ply, bLoom l,
          niFields s l 1 4 (0x410 + q / 16) 1 [q % 16, l, w.k, toBits 64 (g s l b).toInt]⟩]) ∧
        rd t (bLoom l) F.LOOM_PLYPUTS_COUNT = (rd s (bLoom l) F.LOOM_PLYPUTS_COUNT + 1) % 2 ^ 32))

/-! ## Looms (chapters 03, 04 and 06 to 09) -/

/-- R107, R110, R112, R147, R266, R280, R316: OPEN starts a beat at an enabled loom whose last beat has ended; the loom acknowledges once no
activation runs, no bank drains and its areas have been read; SETTLE follows the close of its beat and waits while a snapshot is copied; the
stores that were held are applied with its last slot; EMIT ends with the close markers on every stream. An engine whose bank is held waits.
(The model's readings here: log entries 2, 26, 64, 70, 115.) -/
def Obligations.LoomBeat : Prop :=
  ∀ (l : LoomId) (n : Nat) (s : State),
    let b := bLoom l
    let m := loom s l
    let noneWaits := (sh s (loomShuttle l)).wait = none ∧ (sh s (sibling (loomShuttle l))).wait = none
    (rdB s b F.CONTROL_ENABLE = true → m.phase = .idle →
      ∃ t, exec (.loomOpenReceive l n) s = .next t ∧ (loom t l).phase = .opening ∧ (loom t l).beat = n ∧ (loom t l).round = 0 ∧
        (loom t l).tallySent = false ∧ (loom t l).released = ((m.dq[n % 16]?).getD DqSlot.reset).noted ∧
        ∀ j, j ≠ l.val → loom t j = loom s j) ∧
    (rdB s b F.CONTROL_ENABLE = false ∨ m.phase ≠ .idle → exec (.loomOpenReceive l n) s = .next s) ∧
    (m.phase = .opening → m.openDue = none → seqOpenOk m.seq = true → m.drains = [] → neuronHeld s l = false → s.beat.isOpen = true → beatPhase s = 1 → l.val ∈ s.beat.on →
      l.val ∉ s.beat.acked → (∃ k ∈ s.beat.on, k ≠ l.val ∧ k ∉ s.beat.acked) →
      ∃ t, exec (.loomOpenAck l) s = .next t ∧ l.val ∈ t.beat.acked ∧ (loom t l).phase ≠ .opening) ∧
    (m.phase ≠ .opening ∨ m.openDue ≠ none ∨ seqOpenOk m.seq = false ∨ m.drains ≠ [] ∨ neuronHeld s l = true → exec (.loomOpenAck l) s = .next s) ∧
    (m.spillDue = true → spillBusy s l = false → m.phase = .opening ∨ neuronHeld s l = false →
      ∃ t, exec (.spillReadbackDone l) s = .next t ∧ (loom t l).spillDue = false) ∧
    (m.spillDue = false ∨ spillBusy s l = true → exec (.spillReadbackDone l) s = .next s) ∧
    (m.phase = .close → m.beat = n → rdB s b F.LOOM_TSNAPCTL_BUSY = false → neuronHeld s l = false → netifHeld s l = false →
      ∃ t, exec (.loomSettle l n) s = .next t ∧ (loom t l).phase = .settle ∧ (loom t l).ret.epoch = some n) ∧
    (m.phase ≠ .close ∨ m.beat ≠ n → exec (.loomSettle l n) s = .next s) ∧
    (m.phase = .close → m.beat = n → rdB s b F.LOOM_TSNAPCTL_BUSY = true →
      ∃ t x, exec (.loomSettle l n) s = .next t ∧ t.looms = s.looms ∧ regsBut s t b [F.LOOM_TSNAPSTALL_COUNT.off] ∧
        rd t b F.LOOM_TSNAPSTALL_COUNT = (rd s b F.LOOM_TSNAPSTALL_COUNT + x) % 2 ^ 32) ∧
    (m.phase = .close → m.beat = n → rdB s b F.LOOM_TSNAPCTL_BUSY = false → neuronHeld s l = true ∨ netifHeld s l = true →
      exec (.loomSettle l n) s = .next (send s .hold b [])) ∧
    (m.phase = .settle → m.bSettle = false → m.hookS = false → l.val ∉ s.beat.emitted → (m.slotsDone = false → noneWaits) →
      ∃ t, exec (.loomSettleDone l) s = .next t ∧ (loom t l).phase = .emit ∧ (m.slotsDone = false → (loom t l).held = []) ∧
        rd t b F.LOOM_SATLAST_COUNT = m.satNow % 2 ^ 32 ∧ (s.beat.isOpen = true → l.val ∈ s.beat.on → l.val ∈ t.beat.settled)) ∧
    (m.phase = .settle → m.slotsDone = false → m.bSettle = true ∨ m.hookS = true → noneWaits →
      exec (.loomSettleDone l) s = .next (setLoom s l { m.held.foldl (fun m w => storePut m w.addr w.data) m with held := [], slotsDone := true })) ∧
    (m.phase ≠ .settle ∨ (m.slotsDone = true ∧ (m.bSettle = true ∨ m.hookS = true)) → exec (.loomSettleDone l) s = .next s) ∧
    (m.phase = .emit → routesReady m = true → netifHeld s l = false →
      ∃ t, exec (.loomEmitDone l) s = .next t ∧ (loom t l).phase = .idle ∧ outOf .emitDone b [] ∈ t.out ∧
        (isolated s l = false → ∀ ep, m.ret.epoch = some ep → ∀ g ∈ injectable m, ∀ r ∈ segChain m g,
          recDpkg s r.2.word = selfPkg s ∨ (pkgRoute s (recDpkg s r.2.word)).isSome = true →
          ⟨.stream, b, niFlits s l 0 0 (g.idx * 32 + r.1) (recDpkg s r.2.word) (recPath r.2.word)
            (wordFlits [(closeWord ep (segRun m g.idx).2).toNat] padWord)⟩ ∈ t.out)) ∧
    (m.phase ≠ .emit ∨ routesReady m = false ∨ netifHeld s l = true → exec (.loomEmitDone l) s = .next s)

/-- R127, R135, R136, R350, R352: invalidation drops the cached records of a population and the fetches of it; the hub answers a request
with the entry, as not valid where it is another partition's; the answer places the record or, with none, makes the route bad, and one under
another partition's tag is dropped and counted; a record that passes the checks is cached, one that does not leaves the segments that reach
it out of this beat. R150, R151: a line that was fetched is cached; a failed one latches SROW_ERR and the rows that need it give nothing;
one whose fill was invalidated is dropped on arrival. INV asks for the cache to be invalidated at the next OPEN. (The model's readings here:
log entries 2, 25, 46, 64.) -/
def Obligations.RoutesAndRowCache : Prop :=
  (∀ (l : LoomId) (h : HubId) (part : BitVec 5) (pop : BitVec 20) (idx : Nat) (valid : Bool) (w1 w2 : Word) (rc : List Byte)
      (s : State),
    let b := bLoom l
    let m := loom s l
    let p := pop.toNat
    let word := leNat (padTo 32 rc)
    (∃ t, exec (.routeCacheInvalidate l pop) s = .next t ∧ (loom t l).routes = m.routes.filter (fun r => r.pop != p) ∧
      (loom t l).dirWait = m.dirWait.filter (fun w => w.pop != p) ∧ (loom t l).retRoutes = m.retRoutes ∧ t.regs = s.regs) ∧
    (p % 16 = h.val → ∃ t, exec (.hubDirreq h l pop) s = .next t ∧
      rd t (bHub h) F.HUB_DIRREQ_COUNT = (rd s (bHub h) F.HUB_DIRREQ_COUNT + 1) % 2 ^ 32 ∧ regsBut s t (bHub h) [F.HUB_DIRREQ_COUNT.off] ∧
      t.out = s.out ++ [⟨.dirRsp, b, edgeFields s (0x410 + h) (rd s b F.OWNER_PART) l 1 3 2 [p,
        if dirF s p F.HUB_DIRDATA0_VALID = 1 ∧ (dirF s p F.HUB_DIRDATA0_PART = rd s b F.OWNER_PART ∨ dirF s p F.HUB_DIRDATA0_PART = 0x1F)
          then 1 else 0,
        (regGet s (bHub h) F.HUB_DIRDATA1_RSETLO.off (p / 16)).toNat, (regGet s (bHub h) F.HUB_DIRDATA2_RSETHI.off (p / 16)).toNat]⟩]) ∧
    (isolated s l = true → exec (.dirrspReceive l part pop valid w1 w2) s = .next (isoDrop s l)) ∧
    (isolated s l = false → part.toNat ≠ rd s b F.OWNER_PART → exec (.dirrspReceive l part pop valid w1 w2) s =
      .next (latchFault (inc (inc s b F.LOOM_NIPKTRX_COUNT) b F.LOOM_PARTDROP_COUNT) b 0x0115)) ∧
    (∀ w, m.dirWait.find? (fun w => w.pop = p && w.addr.isNone) = some w → isolated s l = false → part.toNat = rd s b F.OWNER_PART →
      (w.idx < rcountOf w2.toNat → ∃ t, exec (.dirrspReceive l part pop true w1 w2) s = .next t ∧
        ⟨p, w.idx, some (rsetOf w1.toNat w2.toNat + 32 * w.idx), rcountOf w2.toNat⟩ ∈ (loom t l).dirWait ∧ (loom t l).badSegs = m.badSegs) ∧
      (rcountOf w2.toNat ≤ w.idx → ∃ t, exec (.dirrspReceive l part pop true w1 w2) s = .next t ∧ rd t b F.FAULTCAUSE_VALID = 1 ∧
        ∀ x ∈ (loom t l).dirWait, ¬ (x.pop = p ∧ x.idx = w.idx)) ∧
      ∃ t, exec (.dirrspReceive l part pop false w1 w2) s = .next t ∧ rd t b F.FAULTCAUSE_VALID = 1 ∧
        ∀ x ∈ (loom t l).dirWait, ¬ (x.pop = p ∧ x.idx = w.idx)) ∧
    ((∃ w ∈ m.dirWait, w.pop = p ∧ w.addr = none) → isolated s l = false → exec (.dirreqTimeout l pop) s =
      .next (send (inc s b F.LOOM_NIPKTTX_COUNT) .dirReq b (niFields s l 1 2 (0x410 + p % 16) 1 [l, p]))) ∧
    ((∀ w ∈ m.dirWait, w.pop = p → w.addr ≠ none) → exec (.dirreqTimeout l pop) s = .next s) ∧
    (∀ w, m.dirWait.find? (fun w => w.pop = p && w.idx = idx && w.addr.isSome) = some w →
      (recordOk word w.rcount (l / 32, l % 32) = true → recRouted s word = true → m.routes.length < 64 →
        (∀ g ∈ m.lat.segs, (chainWalk (m.openRoutes ++ (m.routes ++ [⟨p, idx, word⟩])) g.pop 33 g.route).1.length ≤ 32) →
        ∃ t, exec (.routeCacheFillDone l pop idx true rc) s = .next t ∧ (loom t l).routes = m.routes ++ [⟨p, idx, word⟩] ∧
          (∀ x ∈ (loom t l).dirWait, ¬ (x.pop = p ∧ x.idx = idx)) ∧ (loom t l).badSegs = m.badSegs) ∧
      (∀ ok, ok = false ∨ recordOk word w.rcount (l / 32, l % 32) = false →
        ∃ t, exec (.routeCacheFillDone l pop idx ok rc) s = .next t ∧ rd t b F.FAULTCAUSE_VALID = 1 ∧ (loom t l).routes = m.routes ∧
          ∀ g ∈ m.lat.segs, g.pop = p → (chainWalk (m.openRoutes ++ m.routes) p 33 g.route).2 = some idx → g.idx ∈ (loom t l).badSegs))) ∧
  (∀ (r : Requester) (l : LoomId) (line : Nat) (data : List Byte) (v : Word) (s : State),
    let b := bLoom l
    let m := loom s l
    (neuronHeld s l = true → ∀ ok, exec (.rowCacheFillDone l line ok data) s = .next (send s .hold b [])) ∧
    (neuronHeld s l = false → line ∈ m.deadFills → ∀ ok, exec (.rowCacheFillDone l line ok data) s =
      .next (setLoom s l { m with deadFills := m.deadFills.erase line })) ∧
    (neuronHeld s l = false → line ∉ m.deadFills → line ∈ m.fills →
      (rcSets s l ≠ 0 → m.rowWaits = [] → ∃ t way, exec (.rowCacheFillDone l line true data) s = .next t ∧
        rcFind (loom t l) (rcSets s l) line = some way ∧
        (∀ i, i < 256 → scratchByte t l (rcAt s l (line % rcSets s l) way + i) = (data[i]?).getD 0) ∧ (loom t l).fills = m.fills.erase line) ∧
      ∃ t, exec (.rowCacheFillDone l line false data) s = .next t ∧ rd t b F.FAULTCAUSE_VALID = 1 ∧
        ∀ w ∈ (loom t l).rowWaits, line ∉ if rcSets s l = 0 then w.asked else waitLines w) ∧
    (neuronHeld s l = false → line ∉ m.deadFills → line ∉ m.fills → ∀ ok, exec (.rowCacheFillDone l line ok data) s = .next s) ∧
    (performed s r b F.LOOM_RCINV_INV.off true (fldSet F.LOOM_RCINV_INV v 1) = true →
      ∃ t, exec (.loomRcinv r l v) s = .next t ∧ answered r (modLoom (windowClose s) l (fun m => { m with rcinvPending := true })) t))

/-- R85, R224, R238, R265, R268, R279, R302: threshold words outside a transaction, the batten's end, which waits while one of its banks is
moved or tested, and at an operand or an accumulator file that cannot be corrected has no effect but its fault, and its starts by register,
the end of a weight snapshot, RUN and RESTART of the sequencer. (The model's readings here: log entries 67, 68, 70, 131.) -/
def Obligations.LoomControl : Prop :=
  ∀ (r : Requester) (l : LoomId) (word : Fin 4) (v : Word) (s : State),
    let b := bLoom l
    let m := loom s l
    let u := windowClose s
    let off := F.LOOM_THDATA0_THETA.off + 4 * word.val
    let i := selIndex s r b off
    let x := mergeBits (rwsMask s .loom r b off) (regGet s b off i) v
    (performed s r b off true v = true → rd s b F.TXN_TSTATE = tsIdle →
      (word = 0 → fldGet F.LOOM_THDATA0_THETA x ≠ 0 ∧ fldGet F.LOOM_THDATA0_GMAX x ≠ 0) →
      ∃ t, exec (.thdataWrite r l word v) s = .next t ∧ okResp r 0 ∈ t.out ∧ regGet t b off i = x ∧ t.looms = s.looms ∧
        ∀ o j, o < 4096 → j < 65536 → (o ≠ off ∨ j ≠ i) → regGet t b o j = regGet s b o j) ∧
    (performed s r b off true v = true → rd s b F.TXN_TSTATE = tsIdle → word = 0 →
      fldGet F.LOOM_THDATA0_THETA x = 0 ∨ fldGet F.LOOM_THDATA0_GMAX x = 0 →
      ∃ t, exec (.thdataWrite r l word v) s = .next t ∧ rd t b F.TXNREFUSE_COUNT = (rd s b F.TXNREFUSE_COUNT + 1) % 2 ^ 32 ∧
        regsBut s t b [F.TXNREFUSE_COUNT.off]) ∧
    (∀ o, m.bOp = some o → m.bSettle = false → m.bFold = false → m.bQueue = [] →
      let sound := (operandsRead l (runReads s l (dop s l o.1)) s).1
      let busy := (runRanges s l (dop s l o.1)).any (fun r => scrBusy s l r.1 r.2)
      (∀ ue, busy = true → exec (.battenOpDone l ue) s = .next (send s .hold b [])) ∧
      (sound = true → busy = false → ∃ t, exec (.battenOpDone l false) s = .next t ∧ (loom t l).bOp = none ∧ rd t b F.LOOM_BSTAT_BUSY = 0 ∧
        rd t b F.LOOM_DOPRUNS_COUNT = (rd s b F.LOOM_DOPRUNS_COUNT + 1) % 2 ^ 32) ∧
      (∀ ue, sound = false ∨ ue = true → busy = false → ∃ t, exec (.battenOpDone l ue) s = .next t ∧ (loom t l).bOp = none ∧ rd t b F.LOOM_BSTAT_BUSY = 0 ∧
        rd t b F.FAULTCAUSE_VALID = 1 ∧ (loom t l).scratch = m.scratch ∧ rd t b F.LOOM_DOPRUNS_COUNT = rd s b F.LOOM_DOPRUNS_COUNT)) ∧
    (let w := fldSet F.LOOM_BRUN_GO v 1
     performed s r b F.LOOM_BRUN_GO.off true w = true →
      ∃ t, exec (.loomBrun r l v) s = .next t ∧
        answered r (let p := brunStart u l (fldGet F.LOOM_BRUN_INDEX v); if p.1 then p.2 else wr p.2 b F.LOOM_BSTAT_REFUSED 1) t) ∧
    (∀ y ok, m.tsnap = some y → ∃ t, exec (.tsnapDone l ok) s = .next t ∧ (loom t l).tsnap = none ∧ rd t b F.LOOM_TSNAPCTL_BUSY = 0 ∧
      (ok = false → rd t b F.FAULTCAUSE_VALID = 1 ∧ rd t b F.LOOM_TSNAPSEQ_SEQ = rd s b F.LOOM_TSNAPSEQ_SEQ)) ∧
    (performed s r b F.LOOM_SEQCTL_RUN.off true (fldSet F.LOOM_SEQCTL_RESTART v 0) = true →
      (fldGet F.LOOM_SEQCTL_RUN v = 1 → m.seq.running = false → m.seq.act = none →
        ownedBy s l ownSeq (rd s b F.LOOM_SEQENTRY_ADDR * 4) 4 = true → ownedBy s l ownSeq (rd s b F.LOOM_SEQHTBASE_BASE * 1024) 1024 = true →
        ∃ t, exec (.loomSeqctlRun r l v) s = .next t ∧ okResp r 0 ∈ t.out ∧ (seqOf t l).running = true ∧ (seqOf t l).main = true ∧
          (seqOf t l).halted = false ∧ pcOf t l = rd s b F.LOOM_SEQENTRY_ADDR * 4 ∧ (∀ k, g t l k = 0) ∧ rd t b F.LOOM_SEQCTL_RUN = 1) ∧
      (fldGet F.LOOM_SEQCTL_RUN v = 0 → m.seq.running = true →
        ∃ t, exec (.loomSeqctlRun r l v) s = .next t ∧ okResp r 0 ∈ t.out ∧ (seqOf t l).running = false ∧ (seqOf t l).act = none ∧
          (seqOf t l).trap = none ∧ rd t b F.LOOM_SEQCTL_RUN = 0)) ∧
    (performed s r b F.LOOM_SEQCTL_RESTART.off true (fldSet F.LOOM_SEQCTL_RUN (fldSet F.LOOM_SEQCTL_RESTART v 1) (rd s b F.LOOM_SEQCTL_RUN)) = true →
      m.seq.running = true → rd s b F.LOOM_SEQCTL_RUN = 1 →
      (inRun s = true → ∃ t, exec (.loomSeqctlRestart r l v) s = .next t ∧ (seqOf t l).restart = true ∧ (seqOf t l).mpc = m.seq.mpc) ∧
      (inRun s = false → ∃ t, exec (.loomSeqctlRestart r l v) s = .next t ∧ (seqOf t l).running = true ∧ (seqOf t l).act = none ∧
        pcOf t l = rd s b F.LOOM_SEQENTRY_ADDR * 4 ∧ (∀ k, g t l k = 0)))

/-- R316, R323 to R329: the last access under a bank's old code ends its handover; the background test reads, writes back and moves on; a
failed region, or GO, moves its bank to the spare unless that is used; the end of the copy puts the spare in service. (The model's readings
here: log entries 2, 73.) -/
def Obligations.ScratchBanks : Prop :=
  ∀ (r : Requester) (l : LoomId) (k : Fin 8) (v : Word) (s : State),
    let b := bLoom l
    let m := loom s l
    (∀ d, m.drains.find? (fun e => e.1 = k.val) = some (k.val, d) →
      (d.batten = false → d.shuttles = [] → ∃ t, exec (.bankDrainDone l k) s = .next t ∧
        rd t b F.LOOM_BHANDOVER_COUNT = (rd s b F.LOOM_BHANDOVER_COUNT + 1) % 2 ^ 32 ∧ ∀ e ∈ (loom t l).drains, e.1 ≠ k.val) ∧
      (d.batten = true ∨ d.shuttles ≠ [] → m.bOp ≠ none → m.netHeld = [] → exec (.bankDrainDone l k) s = .next s)) ∧
    (rdB s b F.LOOM_BTESTCTL_EN = true → rdB s b F.STATE_READY = true → m.testing = false →
      ∃ t, exec (.btestRegionStart l) s = .next t ∧ (loom t l).testing = true ∧ (loom t l).scratch = m.scratch) ∧
    (rdB s b F.LOOM_BTESTCTL_EN = false ∨ m.testing = true → exec (.btestRegionStart l) s = .next s) ∧
    (m.testing = true → m.bFold = false → m.netHeld = [] → m.openDue = none → rd s b F.LOOM_BTESTPOS_ROW < 255 →
      (∃ t, exec (.btestRegionDone l true) s = .next t ∧ (loom t l).testing = false ∧ (loom t l).scratch = m.scratch ∧
        rd t b F.LOOM_BTESTPOS_ROW = rd s b F.LOOM_BTESTPOS_ROW + 1 ∧ rd t b F.LOOM_BTESTFAIL_COUNT = rd s b F.LOOM_BTESTFAIL_COUNT) ∧
      ∃ t, exec (.btestRegionDone l false) s = .next t ∧ (loom t l).testing = false ∧ (loom t l).scratch = m.scratch ∧
        rd t b F.LOOM_BTESTFAIL_COUNT = (rd s b F.LOOM_BTESTFAIL_COUNT + 1) % 2 ^ 32 ∧
        (∀ j, servedBank s l (rd s b F.LOOM_BTESTPOS_BANK) = some j → m.moving = [] → spareGone s l = false → (loom t l).moving = [j]) ∧
        (servedBank s l (rd s b F.LOOM_BTESTPOS_BANK) = none → rd t b F.LOOM_BANKSTAT_SPAREBAD =
          if rd s b F.LOOM_BTESTPOS_BANK = 8 then 1 else rd s b F.LOOM_BANKSTAT_SPAREBAD)) ∧
    (performed s r b F.LOOM_BTESTINT_CYCLES.off true v = true →
      (256 ≤ fldGet F.LOOM_BTESTINT_CYCLES v → ∃ t, exec (.loomBtestintWrite r l v) s = .next t ∧ okResp r 0 ∈ t.out ∧
        rd t b F.LOOM_BTESTINT_CYCLES = fldGet F.LOOM_BTESTINT_CYCLES v ∧ regsBut s t b [F.LOOM_BTESTINT_CYCLES.off]) ∧
      (fldGet F.LOOM_BTESTINT_CYCLES v < 256 → ∃ t, exec (.loomBtestintWrite r l v) s = .next t ∧
        rd t b F.LOOM_BTESTINT_CYCLES = rd s b F.LOOM_BTESTINT_CYCLES ∧
        rd t b F.TXNREFUSE_COUNT = (rd s b F.TXNREFUSE_COUNT + 1) % 2 ^ 32)) ∧
    (performed s r b F.LOOM_BREMAP_GO.off true (fldSet F.LOOM_BREMAP_GO v 1) = true → fldGet F.LOOM_BREMAP_BANK v ∉ m.moving →
      (spareGone s l = false → m.moving = [] → ∃ t, exec (.loomBremap r l v) s = .next t ∧ okResp r 0 ∈ t.out ∧
        (loom t l).moving = [fldGet F.LOOM_BREMAP_BANK v]) ∧
      (spareGone s l = true ∨ m.moving ≠ [] → ∃ t, exec (.loomBremap r l v) s = .next t ∧ rd t b F.FAULTCAUSE_VALID = 1 ∧
        (loom t l).moving = m.moving)) ∧
    (k.val ∈ m.moving → (∀ w ∈ m.xErr2, w / 8192 ≠ k.val) → ∃ t, exec (.bankMoveDone l k) s = .next t ∧ k.val ∉ (loom t l).moving ∧
      rd t b F.LOOM_BANKSTAT_SPAREUSED = 1 ∧ rd t b F.LOOM_BANKSTAT_SPAREBANK = k.val ∧ rd t b F.STATE_DEGRADED = 1 ∧
      rd t b F.FAULTCAUSE_VALID = 1) ∧
    (k.val ∈ m.moving → (∃ w ∈ m.xErr2, w / 8192 = k.val) → m.openDue = none → ∃ t, exec (.bankMoveDone l k) s = .next t ∧ (loom t l).moving = [] ∧
      rd t b F.FAULTCAUSE_VALID = 1 ∧ rd t b F.LOOM_BANKSTAT_SPAREUSED = rd s b F.LOOM_BANKSTAT_SPAREUSED)

/-! ## Loom time and the beat engine (chapter 05) -/

/-- R160 to R164: LTIME_STEP moves LT while the engine rests and is refused and counted otherwise; under SOFTWARE a rate takes effect,
clamped to 250 ppm; an edge of SYNC_IN measures the error of LT against it; 1.5 s without a measurement of the source is SRCLOST and
HOLDOVER. (The model's readings here: log entries 2, 8, 16, 31, 97, 98.) -/
def Obligations.LoomTime : Prop :=
  ∀ (r : Requester) (v : Word) (s : State),
    let d := sext 64 (rd s bLtime F.LTIME_STEP_LO_STEP + v.toNat * 2 ^ 32)
    let rate := max (-274877906) (min 274877906 v.toInt)
    let x : Int := ((ltNow s : Int) - rd s bLtime F.LTIME_PPSOFF_NS) % 1000000000
    let e : Int := if 500000000 ≤ x then x - 1000000000 else x
    (performed s r bLtime F.LTIME_STEP_HI_STEP.off true v = true →
      (beatState s = stIdle ∨ beatState s = stStopped → ∃ t, exec (.ltimeStepHiWrite r v) s = .next t ∧ okResp r 0 ∈ t.out ∧
        (0 ≤ (ltNow s : Int) + d → (ltNow t : Int) = ltNow s + d)) ∧
      (beatState s ≠ stIdle → beatState s ≠ stStopped → ∃ t, exec (.ltimeStepHiWrite r v) s = .next t ∧ ltNow t = ltNow s ∧
        rd t bLtime F.LTIME_STEPREFUSE_COUNT = (rd s bLtime F.LTIME_STEPREFUSE_COUNT + 1) % 2 ^ 32)) ∧
    (performed s r bLtime F.LTIME_RATE_RATE.off true v = true →
      (rd s bLtime F.LTIME_SRC_SRC = srcSoftware → ∃ t, exec (.ltimeRateWrite r v) s = .next t ∧ okResp r 0 ∈ t.out ∧
        rdS t bLtime F.LTIME_RATE_RATE = rate ∧ rd t bLtime F.LTIME_STAT_HOLDOVER = 0 ∧
        rd t bLtime F.LTIME_RATECLAMP_COUNT = (rd s bLtime F.LTIME_RATECLAMP_COUNT + (if rate = v.toInt then 0 else 1)) % 2 ^ 32) ∧
      (rd s bLtime F.LTIME_SRC_SRC ≠ srcSoftware → ∃ t, exec (.ltimeRateWrite r v) s = .next t ∧ okResp r 0 ∈ t.out ∧ t.regs = s.regs)) ∧
    (ltSource s = srcSyncIn → ∃ t, exec .syncInEdge s = .next t ∧
      rdPair t bLtime F.LTIME_CAP_LO_LT F.LTIME_CAP_HI_LT = ltNow s % 2 ^ 64 ∧ rdS t bLtime F.LTIME_ERR_NS = e ∧
      (200 < e.natAbs → rd t bLtime F.LTIME_STAT_LOCKED = 0) ∧ (e.natAbs ≤ 50 → 3 ≤ s.ltime.good → rd t bLtime F.LTIME_STAT_LOCKED = 1) ∧
      -274877906 ≤ rdS t bLtime F.LTIME_RATE_RATE ∧ rdS t bLtime F.LTIME_RATE_RATE ≤ 274877906 ∧ ltNow t = ltNow s) ∧
    (ltSource s ≠ srcSyncIn → exec .syncInEdge s = .next s) ∧
    (ltSource s ≠ srcCrystal → s.ltime.lastMeas + 1500000000 ≤ ltNow s → ∃ t, exec .ltimeSourceTimeout s = .next t ∧
      rd t bLtime F.LTIME_STAT_SRCLOST = 1 ∧ rd t bLtime F.LTIME_STAT_LOCKED = 0 ∧ rd t bLtime F.LTIME_STAT_HOLDOVER = 1 ∧
      (rd s bLtime F.LTIME_STAT_HOLDOVER = 0 → rd t bLtime F.LTIME_SRCLOST_COUNT = (rd s bLtime F.LTIME_SRCLOST_COUNT + 1) % 2 ^ 32)) ∧
    (ltSource s = srcCrystal ∨ ltNow s < s.ltime.lastMeas + 1500000000 → exec .ltimeSourceTimeout s = .next s)

/-- R169, R172, R189, R193, R197: ARM checks BEAT_LEN and T0 and sets the anchor; STOP disarms, or ends the run after the open beat; the run
starts at T0, in HELD where BEAT_HOLD is set; OPEN comes at the scheduled moment. (The model's readings here: log entries 2, 26, 32, 43, 45,
99, 122.) -/
def Obligations.BeatControl : Prop :=
  ∀ (r : Requester) (v : Word) (s : State),
    let len := rd s bBeat F.BEAT_LEN_NS
    let t0 := rdPair s bBeat F.BEAT_LAUNCH_LO_T0 F.BEAT_LAUNCH_HI_T0
    let st := beatState s
    let n := s.beat.n
    (performed s r bBeat F.BEAT_CTL_OP.off true (fldSet F.BEAT_CTL_OP v 1) = true → rdB s bBeat F.CONTROL_ENABLE = true →
      (st = stIdle ∨ st = stStopped → 20000 ≤ len → len ≤ 100000000 → (st = stIdle ∧ fldGet F.BEAT_CTL_MODE v = 1) ∨ beatLt s + 100000 ≤ t0 →
        ∃ t, exec (.beatArm r v) s = .next t ∧ okResp r 0 ∈ t.out ∧ beatState t = stArmed ∧ t.beat.n = (if st = stIdle then 0 else n) ∧
          t.beat.anchors.head? = some ⟨t0, t.beat.n, len⟩ ∧ rd t bBeat F.BEAT_CTL_MODE = fldGet F.BEAT_CTL_MODE v) ∧
      (st = stIdle ∨ st = stStopped → len < 20000 ∨ 100000000 < len → ∃ t, exec (.beatArm r v) s = .next t ∧ beatState t = st ∧
        rd t bBeat F.BEAT_STATUS_CODE = 2 ∧ rd t bBeat F.BEAT_ARMREFUSE_COUNT = (rd s bBeat F.BEAT_ARMREFUSE_COUNT + 1) % 2 ^ 32) ∧
      (st = stIdle ∨ st = stStopped → 20000 ≤ len → len ≤ 100000000 → st = stStopped ∨ fldGet F.BEAT_CTL_MODE v = 0 → t0 < beatLt s + 100000 →
        ∃ t, exec (.beatArm r v) s = .next t ∧ beatState t = st ∧ rd t bBeat F.BEAT_STATUS_CODE = 1 ∧
          rd t bBeat F.BEAT_ARMREFUSE_COUNT = (rd s bBeat F.BEAT_ARMREFUSE_COUNT + 1) % 2 ^ 32) ∧
      (st ≠ stIdle → st ≠ stStopped → ∃ t, exec (.beatArm r v) s = .next t ∧ beatState t = st ∧
        rd t bBeat F.BEAT_ARMREFUSE_COUNT = (rd s bBeat F.BEAT_ARMREFUSE_COUNT + 1) % 2 ^ 32)) ∧
    (performed s r bBeat F.BEAT_CTL_OP.off true (fldSet F.BEAT_CTL_OP v 2) = true → quiet s →
      (st = stArmed → ∃ t, exec (.beatStop r v) s = .next t ∧ okResp r 0 ∈ t.out ∧ beatState t = stIdle) ∧
      (inRun s = true → s.beat.isOpen = true → ∃ t, exec (.beatStop r v) s = .next t ∧ beatState t = st ∧ t.beat.stopReq = true) ∧
      (inRun s = true → s.beat.isOpen = false → ∃ t, exec (.beatStop r v) s = .next t ∧ beatState t = stStopped)) ∧
    (st = stArmed → replayMode s = true ∨ s.beat.t0 ≤ beatLt s →
      (rd s bBeat F.BEAT_HOLD_HOLD = 0 → exec .beatLaunch s = .next (beatOpen (boundaryStart (setBeatState s stRunning)))) ∧
      (rd s bBeat F.BEAT_HOLD_HOLD = 1 → exec .beatLaunch s =
        .next (beatOpen (boundaryStart (setBeatState (inc s bBeat F.BEAT_HOLDS_COUNT) stHeld))))) ∧
    (st ≠ stArmed ∨ (replayMode s = false ∧ beatLt s < s.beat.t0) → exec .beatLaunch s = .next s) ∧
    (performed s r bBeat F.BEAT_HOLD_HOLD.off true v = true → isCustody r = true →
      (fldGet F.BEAT_HOLD_HOLD v = 1 → st = stRunning → ∃ t, exec (.beatHoldWrite r v) s = .next t ∧ okResp r 0 ∈ t.out ∧
        beatState t = stHeld ∧ rd t bBeat F.BEAT_HOLDS_COUNT = (rd s bBeat F.BEAT_HOLDS_COUNT + 1) % 2 ^ 32) ∧
      (fldGet F.BEAT_HOLD_HOLD v = 0 → st = stHeld → s.beat.isOpen = false → s.beat.keptAborts = [] → ∃ t, exec (.beatHoldWrite r v) s = .next t ∧
        beatState t = stRunning ∧ rd t bBeat F.BEAT_HOLD_HOLD = 0)) ∧
    (quiet s → st = stRunning ∨ st = stHeld → s.beat.isOpen = false → preparing s = false → levelDue s = false →
      rd s bPower F.POWER_STAT_STATE = 0 → enabledLooms s ≠ [] →
      (if replayMode s then pace s = 0 ∨ pacedSched s n ≤ beatLt s else sched s n ≤ beatLt s) →
      ∃ t, exec .beatOpen s = .next t ∧ t.beat.isOpen = true ∧ t.beat.n = n ∧ beatPhase t = 1 ∧ beatRound t = 0 ∧ beatState t = st ∧
        t.beat.on = enabledLooms s ∧ t.beat.acked = [] ∧ t.beat.openLt = beatLt s ∧ outOf .openB 0 [n] ∈ t.out) ∧
    (s.beat.isOpen = true ∨ preparing s = true ∨ openTime s = false ∨ levelDue s = true → exec .beatOpen s = .next s)

/-- R172, R187, R188: a hub adds the tallies of its looms and forwards the sums when all have reported; the engine adds the hubs' sums, and
when all have reported and expected equals delivered it closes the beat and, with no peer to wait for, starts SETTLE; sums that differ are
CONSERVE and start a retry round. EMIT of the last loom ends the beat. (The model's readings here: log entries 2, 26, 133.) -/
def Obligations.BeatTallies : Prop :=
  ∀ (l : LoomId) (h : HubId) (n round e d rep : Nat) (s : State),
    let x := hub s (loomHub l)
    let q := s.beat
    let mine := s.beat.on.filter (fun j => loomHub j = loomHub l)
    let open' := q.isOpen = true ∧ n % 65536 = q.n % 65536 ∧ round = beatRound s
    (open' → l.val ∉ x.tallied → l.val ∈ q.on →
      ∃ t, exec (.hubTally l n round e d rep) s = .next t ∧
        hub t (loomHub l) = { x with tallied := x.tallied ++ [l.val], exp := x.exp + e, del := x.del + d, rep := x.rep + rep } ∧
        t.regs = s.regs ∧ t.beat = s.beat ∧
        ((∀ j ∈ mine, j = l.val ∨ j ∈ x.tallied) → t.out = s.out ++
          [outOf .hubSums bBeat [loomHub l, n % 65536, round, x.exp + e, x.del + d, x.rep + rep]]) ∧
        ((∃ j ∈ mine, j ≠ l.val ∧ j ∉ x.tallied) → t.out = s.out)) ∧
    (¬ open' ∨ l.val ∈ x.tallied ∨ l.val ∉ q.on → exec (.hubTally l n round e d rep) s = .next s) ∧
    (open' → h.val ∉ q.hubs → q.localClosed = false →
      ((∃ k ∈ hubsDue s, k ≠ h.val ∧ k ∉ q.hubs) → ∃ t, exec (.beatHubSums h n round e d rep) s = .next t ∧ t.beat.hubs = q.hubs ++ [h.val] ∧
        t.beat.expSum = q.expSum + e ∧ t.beat.delSum = q.delSum + d ∧ t.beat.repSum = q.repSum + rep ∧ t.beat.localClosed = false ∧
        (beatPhase s = 2 → beatPhase t = 3)) ∧
      ((∀ k ∈ hubsDue s, k = h.val ∨ k ∈ q.hubs) → beatState s = stRunning → beatPhase s = 2 ∨ beatPhase s = 3 →
        (q.expSum + e = q.delSum + d → jobPeers s = [] → (∃ j ∈ q.on, j ∉ q.settled) →
          ∃ t, exec (.beatHubSums h n round e d rep) s = .next t ∧ t.beat.localClosed = true ∧ beatPhase t = 4 ∧
            outOf .closedB 0 [q.n] ∈ t.out ∧ outOf .settleB 0 [q.n] ∈ t.out ∧
            rdPair t bBeat F.BEAT_TEXP_LO_SUM F.BEAT_TEXP_HI_SUM = (q.expSum + e) % 2 ^ 64 ∧
            rdPair t bBeat F.BEAT_TREP_LO_SUM F.BEAT_TREP_HI_SUM = (q.repSum + rep) % 2 ^ 64) ∧
        (q.expSum + e ≠ q.delSum + d → beatRound s < rd s bBeat F.BEAT_RETRY_RETRYMAX →
          ∃ t, exec (.beatHubSums h n round e d rep) s = .next t ∧ rd t bBeat F.FAULTCAUSE_VALID = 1 ∧ beatState t = stRetrying ∧
            beatRound t = beatRound s + 1 ∧ outOf .abortB 0 [q.n, beatRound s, 0] ∈ t.out ∧ t.beat.hubs = []))) ∧
    (¬ open' ∨ h.val ∈ q.hubs ∨ q.localClosed = true → exec (.beatHubSums h n round e d rep) s = .next s) ∧
    (q.isOpen = true → l.val ∈ q.on → l.val ∉ q.emitted → l.val ∈ q.settled → 4 ≤ beatPhase s →
      ((∃ j ∈ q.on, j ≠ l.val ∧ j ∉ q.emitted) → ∃ t, exec (.beatEmitDoneReport l) s = .next t ∧
        t = modBeat s (fun x => { x with emitted := x.emitted ++ [l.val] })) ∧
      ((∀ j ∈ q.on, j ∈ q.settled ∧ (j = l.val ∨ j ∈ q.emitted)) → q.stopReq = false → ∃ t, exec (.beatEmitDoneReport l) s = .next t ∧
        t.beat.isOpen = false ∧ t.beat.n = q.n + 1 ∧ beatPhase t = 0 ∧ beatState t = beatState s)) ∧
    (q.isOpen = false ∨ l.val ∉ q.on ∨ l.val ∈ q.emitted ∨ l.val ∉ q.settled → exec (.beatEmitDoneReport l) s = .next s)

/-- R188, R192, R194, R195: the faults of R194 start a retry round or stop the engine; the end of the drain reopens the beat, its limit of
10 µs faults it; a peer that neither closes nor holds within BEAT_JOBWAIT faults it; in HELD a member of a job tells its peers; LAGEXCEED is
reported. (The model's readings here: log entries 2, 45.) -/
def Obligations.BeatFaults : Prop :=
  ∀ (l : LoomId) (p : PortId) (peer : Fin 16) (s : State),
    let q := s.beat
    let n := q.n
    let k := beatRound s
    let stopped := fun (t : State) => beatState t = stFaulted ∧ t.beat.isOpen = false ∧ outOf .abortB 0 [n, k, 1] ∈ t.out
    (∀ row ∈ ([(bLoom l, 0x0107, false), (bLoom l, 0x0108, false), (bLoom l, 0x0109, false), (bLoom l, 0x010A, false),
        (bLoom l, 0x0105, true)] : List (Nat × BitVec 16 × Bool)),
      beatState s = stRunning → q.isOpen = true → beatPhase s = 2 ∨ beatPhase s = 3 → q.localClosed = false →
      k < rd s bBeat F.BEAT_RETRY_RETRYMAX →
      ∃ t, exec (.beatFaultReport row.1 row.2.1 row.2.2) s = .next t ∧ beatState t = stRetrying ∧ beatRound t = k + 1 ∧
        outOf .abortB 0 [n, k, 0] ∈ t.out ∧ rd t bBeat F.BEAT_RETRIES_COUNT = (rd s bBeat F.BEAT_RETRIES_COUNT + 1) % 2 ^ 32 ∧
        ∀ j ∈ q.on, (loom t j).drain = true) ∧
    (∀ row ∈ ([(bLoom l, 0x0102, false), (bLoom l, 0x0103, false), (bLoom l, 0x0105, false), (bLoom l, 0x0106, false), (bLoom l, 0x010B, false),
        (bReed p, 0x0702, false), (bReed p, 0x0703, false)] : List (Nat × BitVec 16 × Bool)),
      inRun s = true → quiet s → ∃ t, exec (.beatFaultReport row.1 row.2.1 row.2.2) s = .next t ∧ stopped t) ∧
    (beatState s = stRetrying → q.keptAborts = [] → q.heldRetry = false → q.localClosed = false → (∃ j ∈ hubsDue s, j ∉ q.hubs) →
      ∃ t, exec .retryDrainDone s = .next t ∧ outOf .restartB 0 [n, k] ∈ t.out ∧ (∀ j ∈ q.on, (loom t j).drain = false) ∧
        (rd s bBeat F.BEAT_HOLD_HOLD = 0 → beatState t = stRunning) ∧
        (rd s bBeat F.BEAT_HOLD_HOLD = 1 → beatState t = stHeld)) ∧
    (beatState s ≠ stRetrying → exec .retryDrainDone s = .next s ∧ exec .retryDrainTimeout s = .next s) ∧
    (beatState s = stRetrying → quiet s → ∃ t, exec .retryDrainTimeout s = .next t ∧ stopped t ∧ rd t bBeat F.FAULTCAUSE_VALID = 1) ∧
    (let due := q.isOpen = true ∧ q.localClosed = true ∧ beatPhase s = 3 ∧ peer.val ∈ jobPeers s ∧ (n, peer.val) ∉ q.closedPeers ∧
        max q.closeLt (tabGet 0 q.holdLt peer) + rd s bBeat F.BEAT_JOBWAIT_NS ≤ ltNow s
     (due → quiet s → ∃ t, exec (.jobWaitTimeout peer) s = .next t ∧ stopped t ∧ rd t bBeat F.FAULTCAUSE_VALID = 1) ∧
     (¬ due → exec (.jobWaitTimeout peer) s = .next s)) ∧
    (beatState s = stHeld → jobPeers s ≠ [] → ∃ t, exec .holdingTimer s = .next t ∧ outOf .holdingB 0 [n] ∈ t.out ∧ t.regs = s.regs ∧
      ∀ g ∈ jobPorts s, mkMark mkHolding (selfPkg s) false (nFields n) ∈ (glim t g).q) ∧
    (beatState s ≠ stHeld ∨ jobPeers s = [] → exec .holdingTimer s = .next s) ∧
    (let m := rd s bBeat F.BEAT_LAGMAX_NS
     (m ≠ 0 → m < beatLag s → q.lagAbove = false → ∃ t, exec .lagexceed s = .next t ∧ t.beat.lagAbove = true ∧
       rd t bBeat F.FAULTCAUSE_VALID = 1 ∧ beatState t = beatState s) ∧
     (m = 0 ∨ beatLag s ≤ m ∨ q.lagAbove = true → exec .lagexceed s = .next s))

/-- R180, R195, R334, R335, R352, R355: a packet longer than 4 flits, one of another partition, and one of a stream that the loom does not
list, are dropped and counted; one at an isolated site is discarded; a packet waits while a bank that it needs is held (R316). On a listed
stream a pick with the next sequence number is accepted, one up to 2,047 ahead makes a gap, an older one is a duplicate; a CLOSE word that
adds up closes the epoch; PAD does nothing, and a reserved kind is counted. In a retry drain the picks of epoch N − 1 are discarded. (The
model's readings here: log entries 74, 107, 110, 121.) -/
def Obligations.Streams : Prop :=
  ∀ (l : LoomId) (h : StreamHdr) (p : W64) (ep : BitVec 16) (count : Word) (s : State),
    let b := bLoom l
    let m := loom s l
    let key := streamKey h.pkg.toNat h.endpoint.toNat h.tag.toNat
    let st := streamGet m key
    let seq := p.toNat % 4096
    let gap := (seq + 4096 - st.x % 4096) % 4096
    let kind := p.toNat / 2 ^ 60
    let run := fun (ws : List W64) => exec (.streamPacketReceive l h ws) s
    (∀ ws, 16 < ws.length → ∃ t, run ws = .next t ∧ t.looms = s.looms ∧
      rd t b F.LOOM_NIBADPKT_COUNT = (rd s b F.LOOM_NIBADPKT_COUNT + 1) % 2 ^ 32) ∧
    (streamHeld s l = true → ∀ ws, ws.length ≤ 16 → run ws = .next (send s .hold b [])) ∧
    (streamHeld s l = false → isolated s l = true → ∀ ws, ws.length ≤ 16 → run ws = .next (isoDrop s l)) ∧
    (streamHeld s l = false → isolated s l = false →
    (h.part ≠ rd s b F.OWNER_PART → ∀ ws, ws.length ≤ 16 → ∃ t, run ws = .next t ∧ t.looms = s.looms ∧
      rd t b F.LOOM_PARTDROP_COUNT = (rd s b F.LOOM_PARTDROP_COUNT + 1) % 2 ^ 32 ∧ rd t b F.FAULTCAUSE_VALID = 1) ∧
    (h.part = rd s b F.OWNER_PART → key ∉ m.latKeys → key ∉ (stagedTable s l).2 → ∀ ws, ws.length ≤ 16 → ∃ t, run ws = .next t ∧
      t.looms = s.looms ∧ rd t b F.LOOM_STRAYDROP_COUNT = (rd s b F.LOOM_STRAYDROP_COUNT + 1) % 2 ^ 32 ∧ rd t b F.FAULTCAUSE_VALID = 1) ∧
    (h.part = rd s b F.OWNER_PART → key ∈ m.latKeys → (∃ e ∈ m.streams, e.1 = key) → h.port = none →
      (m.drain = true → kind < 8 → st.ep < m.beat → ∃ t, run [p] = .next t ∧ streamGet (loom t l) key = st ∧
        rd t b F.LOOM_ABORTDROP_COUNT = (rd s b F.LOOM_ABORTDROP_COUNT + 1) % 2 ^ 32) ∧
      (m.drain = false →
      (kind < 8 →
      (gap = 0 → st.marker = none → ∃ t, run [p] = .next t ∧
        streamGet (loom t l) key = { st with r := st.r + 1, x := st.x + 1 } ∧
        rd t b F.LOOM_PICKSIN_COUNT = (rd s b F.LOOM_PICKSIN_COUNT + 1) % 2 ^ 32) ∧
      (0 < gap → gap ≤ 2047 → st.miss.length < 4 → ∃ t, run [p] = .next t ∧
        streamGet (loom t l) key = { st with r := st.r + 1, x := st.x + gap + 1, miss := st.miss ++ [⟨st.x, st.x + gap - 1, 0, 0⟩] } ∧
        rd t b F.LOOM_GAPPICKS_COUNT = (rd s b F.LOOM_GAPPICKS_COUNT + gap) % 2 ^ 32) ∧
      (0 < gap → gap ≤ 2047 → 4 ≤ st.miss.length → ∃ t, run [p] = .next t ∧
        streamGet (loom t l) key = st ∧ rd t b F.FAULTCAUSE_VALID = 1) ∧
      (2047 < gap → ∃ t, run [p] = .next t ∧ streamGet (loom t l) key = st ∧
        rd t b F.LOOM_DUPDROP_COUNT = (rd s b F.LOOM_DUPDROP_COUNT + 1) % 2 ^ 32)) ∧
      (kind = 0xB → ∃ t, run [p] = .next t ∧ streamGet (loom t l) key = st ∧
        rd t b F.LOOM_BADKIND_COUNT = rd s b F.LOOM_BADKIND_COUNT) ∧
      (0xC ≤ kind → ∃ t, run [p] = .next t ∧ streamGet (loom t l) key = st ∧
        rd t b F.LOOM_BADKIND_COUNT = (rd s b F.LOOM_BADKIND_COUNT + 1) % 2 ^ 32) ∧
      (ep.toNat = st.ep % 65536 → st.marker = none → st.any = false → st.miss = [] → count.toNat = st.r →
        count.toNat % 4096 = st.x % 4096 → ∃ t, run [closeWord ep.toNat count.toNat] = .next t ∧
          streamGet (loom t l) key = { StreamSt.fresh (st.ep + 1) with held := (st.r, st.r, st.rep) }))))

/-- R185, R186, R195, R350, R352, R476: a marker missing after BEAT_CLOSEWAIT is asked for; a request unanswered for BEAT_REPICKWAIT is
repeated up to REPICKMAX times, and then is REPICKFAIL; a source answers with the picks or the CLOSE word that it retains, holds a request
for a CLOSE word that it has not sent yet, discards one for the epoch that a retry drain clears, in the drain or before the RESTART of the
link that it came by, and counts what it cannot answer. (The model's readings here: log entries 2, 45, 126.) -/
def Obligations.Repicks : Prop :=
  ∀ (l : LoomId) (pkg : BitVec 4) (endpoint tag : BitVec 11) (epoch : BitVec 16) (first : Word) (num : BitVec 12) (dst : BitVec 11)
    (part : BitVec 5) (port : Option PortId) (s : State),
    let b := bLoom l
    let m := loom s l
    let key := streamKey pkg.toNat endpoint.toNat tag.toNat
    let st := streamGet m key
    let asked := fun (t : State) => rd t b F.LOOM_REPICKREQ_COUNT = (rd s b F.LOOM_REPICKREQ_COUNT + 1) % 2 ^ 32
    let request := fun (first num : Nat) => (⟨.repick, b, niFlits s l 0 1 tag.toNat pkg.toNat (genPath s l pkg.toNat endpoint.toNat)
      (wordFlits [(repickWord st.ep first num).toNat] 0)⟩ : Out)
    (let due := key ∈ m.latKeys ∧ st.ep < m.beat ∧ st.marker = none ∧ st.tries0 = 0 ∧ waitFrom s l key + rd s bBeat F.BEAT_CLOSEWAIT_NS ≤ ltNow s
     (due → ∃ t, exec (.repickClosewaitExpiry l pkg endpoint tag) s = .next t ∧ (streamGet (loom t l) key).tries0 = 1 ∧ asked t ∧
       (pkg.toNat = selfPkg s → isolated s l = false → request 0 0 ∈ t.out)) ∧
     (¬ due → exec (.repickClosewaitExpiry l pkg endpoint tag) s = .next s)) ∧
    (repickDue s st.asked0 = false → exec (.repickWaitExpiry l pkg endpoint tag none) s = .next s) ∧
    (st.marker = none → 0 < st.tries0 → repickDue s st.asked0 = true →
      (st.tries0 < repickMax s → beatState s ≠ stHeld → ∃ t, exec (.repickWaitExpiry l pkg endpoint tag none) s = .next t ∧
        (streamGet (loom t l) key).tries0 = st.tries0 + 1 ∧ asked t) ∧
      (beatState s = stHeld → ∃ t, exec (.repickWaitExpiry l pkg endpoint tag none) s = .next t ∧
        (streamGet (loom t l) key).tries0 = st.tries0 ∧ asked t) ∧
      (repickMax s ≤ st.tries0 → beatState s ≠ stHeld → ∃ t, exec (.repickWaitExpiry l pkg endpoint tag none) s = .next t ∧
        rd t b F.FAULTCAUSE_VALID = 1 ∧ t.looms = s.looms)) ∧
    (let e : BitVec 11 := BitVec.ofNat 11 l
     let run := segRun m (tag.toNat / 32)
     let recv := fun (n : BitVec 12) => exec (.repickReceive e tag pkg dst part port (repickWord epoch.toNat first.toNat n.toNat)) s
     let bad := fun (n : BitVec 12) => ∃ t, recv n = .next t ∧ t.out = s.out ∧ t.looms = s.looms ∧
       rd t b F.LOOM_REPICKBAD_COUNT = (rd s b F.LOOM_REPICKBAD_COUNT + 1) % 2 ^ 32
     let keeps := ∃ t, recv 0 = .next t ∧ t.out = s.out ∧
       (loom t l).heldReqs = m.heldReqs ++ [⟨tag.toNat, epoch.toNat, pkg.toNat, dst.toNat⟩]
     let answer := fun (ws : List W64) => (⟨.stream, b, niFlits s l 0 0 tag.toNat pkg.toNat (genPath s l pkg.toNat dst.toNat)
       (wordFlits (ws.map (·.toNat)) padWord)⟩ : Out)
     (netifHeld s l = true → recv num = .next (send s .hold b [])) ∧
     (netifHeld s l = false → isolated s l = true → recv num = .next (isoDrop s l)) ∧
     (netifHeld s l = false → isolated s l = false → part.toNat ≠ rd s b F.OWNER_PART → recv num =
       .next (latchFault (inc (inc s b F.LOOM_NIPKTRX_COUNT) b F.LOOM_PARTDROP_COUNT) b 0x0115)) ∧
     (netifHeld s l = false → isolated s l = false → part.toNat = rd s b F.OWNER_PART →
       let cut := (m.drain = true ∨ port.any (fun p => m.noRestart.contains p.val) = true) ∧ epoch.toNat = (m.beat + 65535) % 65536
       (cut → ∃ t, recv num = .next t ∧ t.out = s.out ∧ t.looms = s.looms ∧
         rd t b F.LOOM_ABORTDROP_COUNT = (rd s b F.LOOM_ABORTDROP_COUNT + 1) % 2 ^ 32) ∧
       (¬ cut →
       (∀ x, m.ret.epoch = some x → x % 65536 = epoch.toNat →
         (m.ret.closed = true → pkg.toNat = selfPkg s → ∃ t, recv 0 = .next t ∧ answer [closeWord x run.2] ∈ t.out ∧
           rd t b F.LOOM_REPICKSRV_COUNT = (rd s b F.LOOM_REPICKSRV_COUNT + 1) % 2 ^ 32) ∧
         (m.ret.closed = false → m.heldReqs.length < 64 → keeps) ∧
         (num ≠ 0 → first.toNat < run.2 → pkg.toNat = selfPkg s → ∃ t, recv num = .next t ∧
           (let n := min (first.toNat + num.toNat) run.2 - first.toNat
            let ws := (List.range n).flatMap (fun i =>
              [resendWord x (first.toNat + i), retPick s l (run.1 + first.toNat + i) (first.toNat + i)])
            ∀ k, k < (2 * n + 15) / 16 → answer ((ws.drop (16 * k)).take 16) ∈ t.out) ∧
           rd t b F.LOOM_REPICKSRV_COUNT = (rd s b F.LOOM_REPICKSRV_COUNT + 1) % 2 ^ 32) ∧
         (num ≠ 0 → run.2 ≤ first.toNat → bad num)) ∧
       ((m.ret.epoch = none ∨ ∃ x, m.ret.epoch = some x ∧ x % 65536 ≠ epoch.toNat) →
         let next := match m.ret.epoch with | some x => x + 1 | none => m.beat
         let ahead := (epoch.toNat + 65536 - next % 65536) % 65536 < 32768
         (num ≠ 0 → bad num) ∧ (¬ ahead → bad 0) ∧ (ahead → m.heldReqs.length < 64 → keeps)))))

/-! ## The warp fabric (chapter 10) -/

/-- R133, R332, R334, R337 to R340, R346, R349, R355, R363, R365, R367, R369: at the site of a packet's column the router acts on the code
at HPTR and forwards what still has codes to run, elsewhere the packet takes a correction hop; one that leaves the mesh moves to the router
with the edge port first; a local port takes the packet, or discards and counts it where there is no site, where the site is isolated, and
where the class or length is not allowed, as an edge endpoint does uncounted; every flit that fails its CRC is counted, and its packet goes
no further; a stitched hop that goes down and a selvedge link that fails 17 times in a row latch their faults; NITHROT keeps THROFF below
THRON. R353 to R355: GO puts a staged row map in force that names no bad site and no site twice, and refuses any other; the last router ends
BUSY; isolating a site latches ISOLATED at the loom that the map puts there. (The model's readings here: log entries 74, 111, 112, 125, 133,
134.) -/
def Obligations.FabricAndRowMaps : Prop :=
  (∀ (row : Fin 24) (mcol : Fin 34) (port : Fin 6) (col : Fin 32) (fs : List LinkFlit) (left : Bool) (k : Transit) (s : State),
    let i := hdrHptr k.head
    let e := hdrHend k.head
    let code := hopCode k.head i
    let next := k.at (i + 1) e
    let l := row.val * 32 + col.val
    let half := bHub (rowHalfOf row col).1
    let key := routerInput row mcol port k.vc
    let run := exec (.fabricPacketRoute row mcol port col fs left) s
    let onwards := fun (col : Nat) (k : Transit) => (1 :: col :: k.flits : List Nat)
    let nBad := (fs.filter (fun f => !LinkFlit.ok f)).length
    (∀ f ∈ fs, f.valid = true) → transitOf fs (fs.any LinkFlit.abort) = some k → hasPort row mcol port = true → hdrDpkg k.head = selfPkg s →
    (key ∈ s.cuts → (∀ f ∈ fs, f.ok = true) → run = .next { s with cuts := s.cuts.erase key }) ∧
    (key ∉ s.cuts → (∀ f ∈ fs, f.ok = true) → k.abort = false →
      (e ≤ i → run = .next s) ∧
      (i < e →
      (∀ m, meshOf s row col = some m → m ≠ mcol.val → (∀ x, rowExit row col k = some x → pastSite m (edgeMesh x col mcol) mcol = false) →
        run = .next (send s .forward (row * 34 + hopTo mcol m) (onwards col k))) ∧
      (∀ m x, meshOf s row col = some m → m ≠ mcol.val → rowExit row col k = some x → pastSite m (edgeMesh x col mcol) mcol = true →
        edgeMesh x col mcol ≠ mcol.val → run = .next (send s .forward (row * 34 + hopTo mcol (edgeMesh x col mcol)) (onwards col k))) ∧
      (meshOf s row col = some mcol.val →
        (code = 0 → 0 < row.val → run = .next (send s .forward ((row - 1) * 34 + mcol) (onwards col next))) ∧
        (code = 2 → row.val < 23 → run = .next (send s .forward ((row + 1) * 34 + mcol) (onwards col next))) ∧
        (∀ c m, (code = 1 ∧ col.val ≠ 15 ∧ col.val ≠ 31 ∧ c = col.val + 1) ∨ (code = 3 ∧ col.val ≠ 0 ∧ col.val ≠ 16 ∧ c + 1 = col.val) ∨
            (code = 7 ∧ col.val = 15 ∧ c = 16) ∨ (code = 7 ∧ col.val = 16 ∧ c = 15) → meshOf s row c = some m → m ≠ mcol.val →
          run = .next (send s .forward (row * 34 + hopTo mcol m) (onwards c next))) ∧
        (code = 5 → k.vc = 0 → let j := popMatch k.head 64 (i + 1) 1
          run = .next (routerAct row mcol 63 col (k.at (j + 1) e) (routerAct row mcol 63 col (k.at (i + 1) j) s))) ∧
        (∀ (x : Move) (ports : Nat), (code = 0 ∧ row.val = 0 ∧ x = .north ∧ ports = 8) ∨ (code = 2 ∧ row.val = 23 ∧ x = .south ∧ ports = 8) ∨
            (code = 1 ∧ col.val = 31 ∧ x = .east ∧ ports = 4) ∨ (code = 3 ∧ col.val = 0 ∧ x = .west ∧ ports = 4) ∨
            (((code = 1 ∧ col.val = 15) ∨ (code = 3 ∧ col.val = 16)) ∧ x = .seam ∧ ports = 16) →
          let edge := edgeMesh x col mcol
          (edge ≠ mcol.val → run = .next (send s .forward (row * 34 + hopTo mcol edge) (onwards col k))) ∧
          (edge = mcol.val → hdrXsel k.head < ports → ∀ n, classMax k.vc (hdrClass k.head) = some n →
            (n < hdrFlits k.head → run = .next s) ∧
            (hdrFlits k.head ≤ n → ∃ ep, run = .next (send s .forward (row * 34 + mcol) (2 :: ep :: next.flits)) ∧
              (x = .west → hdrXsel k.head < 2 → ep = 0x420 + hdrXsel k.head) ∧
              (x = .east → hdrXsel k.head < 2 → ep = 0x422 + hdrXsel k.head) ∧
              (x = .seam → ep = 0x410 + hdrXsel k.head) ∧
              (ports = 8 → hdrXsel k.head < 4 → ep = (if row.val = 0 then 0x428 else 0x42C) + hdrXsel k.head))) ∧
          (edge = mcol.val → hdrXsel k.head < ports → classMax k.vc (hdrClass k.head) = none → run = .next s) ∧
          (edge = mcol.val → ports ≤ hdrXsel k.head → run = .next (inc s bSeam F.SEAM_SWDROP_COUNT))) ∧
        (code = 4 → isolated s l = false → ∀ n, classMax k.vc (hdrClass k.head) = some n →
          (hdrFlits k.head ≤ n → i + 1 = e ∨ k.vc ≠ 0 → run = .next (send s .forward l (0 :: k.flits))) ∧
          (hdrFlits k.head ≤ n → i + 1 < e → k.vc = 0 → ∃ t, run = .next t ∧ ⟨.forward, l, 0 :: k.flits⟩ ∈ t.out) ∧
          (n < hdrFlits k.head → i + 1 = e → run = .next (inc s (bLoom l) F.LOOM_NIBADPKT_COUNT))) ∧
        (code = 4 → i + 1 = e → isolated s l = false → classMax k.vc (hdrClass k.head) = none →
          run = .next (inc s (bLoom l) F.LOOM_NIBADPKT_COUNT)) ∧
        (code = 4 → i + 1 = e → isolated s l = true → run = .next (inc s half F.HUB_ISODROP_COUNT))) ∧
      (meshOf s row col = none → code = 4 → i + 1 = e → run = .next (inc s half F.HUB_NOSITEDROP_COUNT)))) ∧
    (∀ n, key ∉ s.cuts → findIdx? (fun f => !LinkFlit.ok f) fs = some n → left = false →
      let h := bHub (row / 3 + (if 17 ≤ mcol.val then 8 else 0))
      let tailOk := (fs.getLast?.map LinkFlit.ok).getD true
      ∃ t, run = .next t ∧ t.out = s.out ∧ (tailOk = false → key ∈ t.cuts) ∧ (tailOk = true → t.cuts = s.cuts) ∧
        (stitched mcol port = true → rd t bSeam F.SEAM_CRCERR_COUNT = (rd s bSeam F.SEAM_CRCERR_COUNT + nBad) % 2 ^ 32) ∧
        (stitched mcol port = false → rd t h F.HUB_CRCERR_COUNT = (rd s h F.HUB_CRCERR_COUNT + nBad) % 2 ^ 32 ∧
          rd t h F.HUB_PKTABORT_COUNT = (rd s h F.HUB_PKTABORT_COUNT + 1) % 2 ^ 32 ∧ rd t h F.HUB_LASTERR_ROW = row ∧
          rd t h F.HUB_LASTERR_PORT = port ∧ rd t h F.HUB_LASTERR_SITE = mcol % 17))) ∧
  (∀ (row : Fin 24) (h : HubId) (hdr : Word) (crc : Byte) (ws : List Word) (r : Requester) (l : LoomId) (v : Word) (s : State),
    let w := hdr.toNat
    let data := (w % 4 :: w / 2 ^ 15 % 4096 :: ws.map (·.toNat) : List Nat)
    let recv := exec (.selvedgePacket h hdr ws crc) s
    (bit (rd s bSeam F.SEAM_LINKUP_UP) row = true → ∃ t, exec (.stitchedHopDown row) s = .next t ∧
      bit (rd t bSeam F.SEAM_LINKUP_UP) row = false ∧ rd t bSeam F.FAULTCAUSE_VALID = 1) ∧
    ((hub s h).selvDown = true → recv = .next s) ∧
    ((hub s h).selvDown = false →
      (crc.toNat = selvCrc (hdr :: ws) →
        (bit w 2 = false → ∃ t, recv = .next t ∧ t.out = s.out ++ [⟨.forward, w / 8 % 4096, data⟩] ∧ (hub t h).selvFail = 0) ∧
        (bit w 2 = true → ∃ t, recv = .next t ∧ (hub t h).selvFail = 0 ∧ ∀ j : LoomId, 16 ≤ ((ws[0]?).getD 0x1F).toNat % 32 ∨
          rd s (bLoom j) F.OWNER_PART = ((ws[0]?).getD 0x1F).toNat % 32 → ⟨.forward, bLoom j, data⟩ ∈ t.out)) ∧
      (crc.toNat ≠ selvCrc (hdr :: ws) → (hub s h).selvFail < 16 → ∃ t, recv = .next t ∧ t.out = s.out ∧
        (hub t h).selvFail = (hub s h).selvFail + 1 ∧ hdr :: ws ∈ (hub t h).selvReplay ∧
        rd t (bHub h) F.HUB_SELVRETRY_COUNT = (rd s (bHub h) F.HUB_SELVRETRY_COUNT + 1) % 2 ^ 32) ∧
      (crc.toNat ≠ selvCrc (hdr :: ws) → 16 ≤ (hub s h).selvFail → ∃ t, recv = .next t ∧ (hub t h).selvDown = true ∧
        rd t (bHub h) F.FAULTCAUSE_VALID = 1)) ∧
    (∃ t, exec (.selvedgeRequestTimeout (some (bLoom l))) s = .next t ∧ rd t (bLoom l) F.FAULTCAUSE_VALID = 1 ∧
      (rd s (bLoom l) F.FAULTCAUSE_VALID = 0 → rd t (bLoom l) F.FAULTCAUSE_CAUSE = 0x8002)) ∧
    (let b := bLoom l
     let on := fldGet F.LOOM_NITHROT_THRON v
     let off := fldGet F.LOOM_NITHROT_THROFF v
     performed s r b F.LOOM_NITHROT_THRON.off true v = true →
      (on = 0 ∨ off < on → ∃ t, exec (.loomNithrotWrite r l v) s = .next t ∧ okResp r 0 ∈ t.out ∧ rd t b F.LOOM_NITHROT_THRON = on ∧
        rd t b F.LOOM_NITHROT_THROFF = off ∧ regsBut s t b [F.LOOM_NITHROT_THRON.off]) ∧
      (on ≠ 0 → on ≤ off → ∃ t, exec (.loomNithrotWrite r l v) s = .next t ∧
        rd t b F.LOOM_NITHROT_THRON = rd s b F.LOOM_NITHROT_THRON ∧ rd t b F.TXNREFUSE_COUNT = (rd s b F.TXNREFUSE_COUNT + 1) % 2 ^ 32))) ∧
  (∀ (r : Requester) (h : HubId) (i : Fin 3) (v : Word) (s : State),
    let b := bHub h
    let k := rd s b F.HUB_ROWSEL_ROW
    let m := stagedMap s h k
    let good := (∀ c ∈ m, c = 0x1F ∨ (c ≤ 16 ∧ bit (rdI s b F.HUB_ROWPASS_PASS k) c = false)) ∧ (m.filter (fun c => c != 0x1F)).Nodup
    (performed s r b F.HUB_ROWGO_GO.off true (fldSet F.HUB_ROWGO_GO v 1) = true → isCustody r = true →
      (good → ∃ t, exec (.hubRowgo r h v) s = .next t ∧ okResp r 0 ∈ t.out ∧ rdI t b F.HUB_ROWSTAT_BUSY k = 1 ∧
        (hub t h).map = (hub s h).map.take (16 * k) ++ m ++ (hub s h).map.drop (16 * k + 16) ∧ k ∈ (hub t h).mapping ∧
        ⟨.rowMap, b, k :: m⟩ ∈ t.out) ∧
      (¬ good → ∃ t, exec (.hubRowgo r h v) s = .next t ∧ rdI t b F.HUB_ROWSTAT_REFUSED k = 1 ∧ t.hubs = s.hubs ∧
        rd t b F.TXNREFUSE_COUNT = (rd s b F.TXNREFUSE_COUNT + 1) % 2 ^ 32)) ∧
    (i.val ∈ (hub s h).mapping → ∃ t, exec (.rowMapApplied h i) s = .next t ∧ i.val ∉ (hub t h).mapping ∧
      rdI t b F.HUB_ROWSTAT_BUSY i = 0 ∧ (hub t h).map = (hub s h).map) ∧
    (i.val ∉ (hub s h).mapping → exec (.rowMapApplied h i) s = .next s) ∧
    (performed s r b F.HUB_ROWISO_ISO.off true v = true → isCustody r = true →
      ∃ t, exec (.hubRowisoWrite r h v) s = .next t ∧ okResp r 0 ∈ t.out ∧ rdI t b F.HUB_ROWISO_ISO k = fldGet F.HUB_ROWISO_ISO v ∧
        ∀ site l, site < 17 → bit (fldGet F.HUB_ROWISO_ISO v) site = true → bit (rdI s b F.HUB_ROWISO_ISO k) site = false →
          loomAt s h k site = some l → rd t (bLoom l) F.FAULTCAUSE_VALID = 1))

/-- R357 to R361, at the hub: ARM empties a queue and announces it; DISARM waits for its rounds, FORCE does not; a contribution is accepted
in sequence, credited where it is dropped, FORCE among the drops, NACKed after a gap; the round that is complete is delivered, its result
sent until it is confirmed. (The model's readings here: log entries 75, 133.) -/
def Obligations.PlyHub : Prop :=
  ∀ (r : Requester) (h : HubId) (q : Fin 16) (part : BitVec 5) (l : LoomId) (k : Word) (v : W64) (s : State),
    let b := bHub h
    let i := rd s b F.HUB_PLYSEL_INDEX
    let y := plyQ s h i
    let d := rdI s b F.HUB_PLYDLOOM_LOOM i
    let x := plyQ s h q
    let n := rdI s b F.HUB_PLYNEXT_ROUND q
    let e := ((x.srcs.find? (fun c => c.loom = l.val)).map (·.next)).getD 0
    let old := (x.rounds.find? (fun z => z.k = k.toNat)).getD ⟨k.toNat, 0, 0⟩
    let room := x.srcs.any (fun c => c.loom = l.val) = true ∨ plySlots s h < 1024
    let credit := fun (l k : Nat) (nack : Option Nat) (q : Nat) => (⟨.plyCredit, bLoom l,
      edgeFields s (0x410 + h) (rdI s b F.HUB_PLYPART_PART q) l 1 5 1 [16 * h.val + q, k, nack.isSome.toNat, nack.getD 0]⟩ : Out)
    let result := fun (k : Nat) (v : Int) => (⟨.plyResult, bLoom (rdI s b F.HUB_PLYDLOOM_LOOM q),
      edgeFields s (0x410 + h) (rdI s b F.HUB_PLYPART_PART q) (rdI s b F.HUB_PLYDLOOM_LOOM q) 1 6 1 [16 * h.val + q.val, k, toBits 64 v,
        rdI s b F.HUB_PLYDOFF_DOFF q * 8, plyReslen s h q, rdI s b F.HUB_PLYLAMP_LAMP q, rdI s b F.HUB_PLYLAMP_LAMPEN q]⟩ : Out)
    let arrive := exec (.plyContribution h q part l k v) s
    let armed := part.toNat = rdI s b F.HUB_PLYPART_PART q ∧ rdI s b F.HUB_PLYCTL_STATE q = plyArmed
    (fieldPerformed s r b F.HUB_PLYCTL_OP 1 = true →
      (d < 768 → rd s (bLoom d) F.OWNER_PART = rdI s b F.HUB_PLYPART_PART i → ∃ t, exec (.hubPlyArm r h) s = .next t ∧ okResp r 0 ∈ t.out ∧
        rdI t b F.HUB_PLYCTL_STATE i = plyArmed ∧ rdI t b F.HUB_PLYNEXT_ROUND i = 0 ∧ plyQ t h i = PlyQ.reset ∧
        outOf .plyArm b [16 * h.val + i] ∈ t.out) ∧
      (768 ≤ d ∨ rd s (bLoom d) F.OWNER_PART ≠ rdI s b F.HUB_PLYPART_PART i → ∃ t, exec (.hubPlyArm r h) s = .next t ∧ t.hubs = s.hubs ∧
        rd t b F.TXNREFUSE_COUNT = (rd s b F.TXNREFUSE_COUNT + 1) % 2 ^ 32)) ∧
    (fieldPerformed s r b F.HUB_PLYCTL_OP 2 = true →
      ((∀ z ∈ y.rounds, z.count = 0) → y.unconf = [] → ∃ t, exec (.hubPlyDisarm r h) s = .next t ∧ okResp r 0 ∈ t.out ∧
        rdI t b F.HUB_PLYCTL_STATE i = plyIdle) ∧
      ((∃ z ∈ y.rounds, z.count ≠ 0) ∨ y.unconf ≠ [] → ∃ t, exec (.hubPlyDisarm r h) s = .next t ∧ t.hubs = s.hubs ∧
        rdI t b F.HUB_PLYCTL_STATE i = rdI s b F.HUB_PLYCTL_STATE i ∧
        rd t b F.TXNREFUSE_COUNT = (rd s b F.TXNREFUSE_COUNT + 1) % 2 ^ 32)) ∧
    (fieldPerformed s r b F.HUB_PLYCTL_OP 3 = true → isCustody r = true → ∃ t, exec (.hubPlyForce r h) s = .next t ∧ okResp r 0 ∈ t.out ∧
      plyQ t h i = PlyQ.reset ∧ rdI t b F.HUB_PLYCTL_STATE i = plyIdle ∧
      (∀ c ∈ y.srcs, credit c.loom c.next none i ∈ t.out) ∧
      rd t b F.HUB_PLYDROP_COUNT = (rd s b F.HUB_PLYDROP_COUNT + (y.rounds.map (·.count)).sum) % 2 ^ 32) ∧
    (¬ armed → ∃ t, arrive = .next t ∧ t.hubs = s.hubs ∧ t.out = s.out ++ [credit l (k.toNat + 1) none q] ∧
      rd t b F.HUB_PLYDROP_COUNT = (rd s b F.HUB_PLYDROP_COUNT + 1) % 2 ^ 32) ∧
    (armed → ¬ room → ∃ t, arrive = .next t ∧ rdI t b F.HUB_PLYCTL_STATE q = plyError ∧ rd t b F.FAULTCAUSE_VALID = 1 ∧
      credit l (k.toNat + 1) none q ∈ t.out ∧ rd t b F.HUB_PLYDROP_COUNT = (rd s b F.HUB_PLYDROP_COUNT + 1) % 2 ^ 32) ∧
    (armed → room →
      (e < k.toNat → ∃ t, arrive = .next t ∧ (plyQ t h q).rounds = x.rounds ∧ t.out = s.out ++ [credit l (min e n) (some e) q]) ∧
      (k.toNat < e → ∃ t, arrive = .next t ∧ t.hubs = s.hubs ∧ t.out = s.out ++ [credit l (min e n) none q] ∧
        rd t b F.HUB_PLYDUP_COUNT = (rd s b F.HUB_PLYDUP_COUNT + 1) % 2 ^ 32) ∧
      (k.toNat = e → (k.toNat = n → old.count + 1 < plyExpect s h q) → (∀ z ∈ x.rounds, z.k = n → k.toNat ≠ n → z.count < plyExpect s h q) →
        ∃ t, arrive = .next t ∧ t.out = s.out ∧ (plyQ t h q).rounds.find? (fun z => z.k = k.toNat) = some ⟨k.toNat, old.count + 1, old.sum + v.toInt⟩ ∧
          rd t b F.HUB_PLYACC_COUNT = (rd s b F.HUB_PLYACC_COUNT + 1) % 2 ^ 32) ∧
      (k.toNat = e → k.toNat = n → plyExpect s h q ≤ old.count + 1 →
        let res := clampI (-(2 ^ 63)) (2 ^ 63 - 1) (old.sum + v.toInt)
        ∃ t, arrive = .next t ∧ (n, res) ∈ (plyQ t h q).unconf ∧ result n res ∈ t.out)) ∧
    ((∃ z ∈ x.unconf, z.1 = k.toNat) → ∃ t, exec (.plyConfirm h q k) s = .next t ∧ (plyQ t h q).unconf = x.unconf.filter (fun z => z.1 != k.toNat) ∧
      rd t b F.HUB_PLYROUNDS_COUNT = (rd s b F.HUB_PLYROUNDS_COUNT + 1) % 2 ^ 32) ∧
    exec (.plyResultResendTimeout h q) s = .next { s with out := s.out ++ x.unconf.map (fun z => result z.1 z.2) }

/-- R352, R355, R358, R359, at a loom: an ARM empties the window; a credit frees it below its sequence, a NACK resends from the first
missing one on; a contribution not credited in time is sent again; a result is written once, in a bank of the network interface, and
confirmed. An isolated site takes nothing, and another partition's packet is dropped. (The model's readings here: log entries 75, 109.) -/
def Obligations.PlyLoom : Prop :=
  ∀ (l : LoomId) (part : BitVec 5) (q : BitVec 8) (k miss : Word) (v : W64) (doff reslen : Nat) (lamp : BitVec 14) (s : State),
    let b := bLoom l
    let w := plyWin s l q.toNat
    let kept := w.kept.filter (fun c => k.toNat ≤ c.1)
    let again := kept.filter (fun c => miss.toNat ≤ c.1)
    let packet := fun (c : Nat × Int) => (⟨.ply, b, niFields s l 1 4 (0x410 + q.toNat / 16) 1 [q.toNat % 16, l, c.1, toBits 64 c.2]⟩ : Out)
    let confirm := fun (s : State) => send s .plyConfirm (bHub (q.toNat / 16)) [l, q.toNat % 16, k.toNat]
    let a := plySlot k.toNat doff reslen
    let got := fun (t : State) => tabGet 0 (loom t l).plyGot (plyKey q.toNat k.toNat)
    let credit := exec (.plyCreditReceive l part q k none) s
    let result := exec (.plyResultReceive l part q k v doff reslen (some lamp)) s
    let mine := isolated s l = false ∧ part.toNat = rd s b F.OWNER_PART
    let room := logFull s l = false ∧ scrHeld s l a 8 = false
    (∃ t, exec (.plyArmBroadcast l q) s = .next t ∧ plyWin t l q.toNat = PlyWin.reset ∧ got t = 0 ∧ t.regs = s.regs) ∧
    (isolated s l = true → credit = .next (isoDrop s l) ∧ (room → result = .next (isoDrop s l))) ∧
    (isolated s l = false → part.toNat ≠ rd s b F.OWNER_PART →
      let dropped := latchFault (inc (inc s b F.LOOM_NIPKTRX_COUNT) b F.LOOM_PARTDROP_COUNT) b 0x0115
      credit = .next dropped ∧ (room → result = .next dropped)) ∧
    (mine → credit = .next (setPlyWin (inc s b F.LOOM_NIPKTRX_COUNT) l q.toNat { w with kept := kept })) ∧
    (mine → ∃ t, exec (.plyCreditReceive l part q k (some miss)) s = .next t ∧ plyWin t l q.toNat = { w with kept := kept } ∧
      t.out = s.out ++ again.map packet ∧ rd t b F.LOOM_PLYRESEND_COUNT = (rd s b F.LOOM_PLYRESEND_COUNT + again.length) % 2 ^ 32) ∧
    (∀ c, w.kept.find? (fun c => c.1 = k.toNat) = some c → isolated s l = false → ∃ t, exec (.plyResendTimeout l q k) s = .next t ∧
      t.out = s.out ++ [packet c] ∧ t.looms = s.looms ∧ rd t b F.LOOM_PLYRESEND_COUNT = (rd s b F.LOOM_PLYRESEND_COUNT + 1) % 2 ^ 32) ∧
    ((∀ c ∈ w.kept, c.1 ≠ k.toNat) → exec (.plyResendTimeout l q k) s = .next s) ∧
    (¬ room → result = .next (send s .hold b [])) ∧
    (mine → room → got s ≠ 0 → result = .next (confirm (inc s b F.LOOM_NIPKTRX_COUNT))) ∧
    (mine → room → got s = 0 →
      (ownedBy s l ownNetif a 8 = true → ∃ t, result = .next t ∧ bytesAt (scratchByte t l) a 8 = v.toNat ∧
        (∀ j, j < a ∨ a + 8 ≤ j → scratchByte t l j = scratchByte s l j) ∧ got t = 1 ∧
        t.out = (confirm (send s .lampAdd (bHub (lamp.toNat / 1024)) [b, lamp.toNat % 1024, rd s b F.OWNER_PART, 1])).out) ∧
      (ownedBy s l ownNetif a 8 = false → ∃ t u, result = .next t ∧ t = confirm u ∧
        (∀ j, scratchByte t l j = scratchByte s l j) ∧ rd t b F.FAULTCAUSE_VALID = 1 ∧
        rd t b F.LOOM_PLYRESDROP_COUNT = (rd s b F.LOOM_PLYRESDROP_COUNT + 1) % 2 ^ 32))

/-! ## Channels and lamps (chapter 11) -/

/-- R334, R352, R355, R379, R383, R384, R387 to R389, at a loom: a message is taken in sequence into the ring and credited, and one that is
too long or does not belong is counted; it waits for room in the log and at a ring whose bank is held; a credit frees the send end's
retention, NACK and timeout resend it, CLOSED drops it; PROBE asks for the credit; CLOSE discards what the receive end holds. (The model's
readings here: log entries 76, 114, 121, 130.) -/
def Obligations.Channels : Prop :=
  ∀ (r : Requester) (l : LoomId) (spkg gen : BitVec 4) (sep : BitVec 11) (part : BitVec 5) (ws : List W64) (chan : BitVec 12)
    (ack freed : BitVec 16) (ent : BitVec 10) (v : Word) (s : State),
    let b := bLoom l
    let x := ((ws.head?).getD 0).toNat
    let n := msgSlots ws.length
    let up := fun (f : Fld) (t : State) => rd t b f = (rd s b f + 1) % 2 ^ 32
    let msg := exec (.channelMessageReceive (some l) spkg sep part ws) s
    let fits := fun (i : Nat) => rdI s b F.LOOM_CHDATA0_PKG i = spkg.toNat ∧ rdI s b F.LOOM_CHDATA0_PEER i = sep.toNat ∧
      rdI s b F.LOOM_CHDATA1_GEN i = hdrGen x
    let credit := fun (closed nack probe : Bool) => exec (.channelCreditReceive (some l) part chan ack freed gen closed nack probe) s
    let waits := logFull s l = true ∨ ∃ i, chFind s l (hdrChan x) 1 = some i ∧ ringHeld s l i = true
    let creditMsg := fun (pkg : Nat) (path : Nat × Nat × Nat) (w : Nat) => (⟨.credit, b, niFlits s l 1 1 0 pkg path [w]⟩ : Out)
    (256 < ws.length → msg = .next (inc s b F.LOOM_NIBADPKT_COUNT)) ∧
    (ws.length ≤ 256 → waits → msg = .next (send s .hold b [])) ∧
    (ws.length ≤ 256 → ¬ waits → isolated s l = true → msg = .next (isoDrop s l)) ∧
    (isolated s l = true → ∀ closed nack probe, credit closed nack probe = .next (isoDrop s l)) ∧
    (ws.length ≤ 256 → ¬ waits → isolated s l = false →
      (part.toNat ≠ rd s b F.OWNER_PART → ∃ t, msg = .next t ∧ up F.LOOM_PARTDROP_COUNT t ∧ t.looms = s.looms ∧ rd t b F.FAULTCAUSE_VALID = 1) ∧
      (part.toNat = rd s b F.OWNER_PART → chFind s l (hdrChan x) 1 = none → ∃ t, msg = .next t ∧ up F.LOOM_CHORPHAN_COUNT t ∧ t.looms = s.looms ∧
        (spkg.toNat = selfPkg s → t.out = s.out ++ [creditMsg spkg.toNat (genPath s l spkg.toNat sep.toNat)
          (creditWord (hdrChan x) (hdrSeq x + 1) 0 (hdrGen x) true false false)])) ∧
      (∀ i, part.toNat = rd s b F.OWNER_PART → chFind s l (hdrChan x) 1 = some i →
        (rdI s b F.LOOM_CHDATA0_PKG i ≠ spkg.toNat ∨ rdI s b F.LOOM_CHDATA0_PEER i ≠ sep.toNat → ∃ t, msg = .next t ∧ up F.LOOM_CHSTRAY_COUNT t ∧
          t.looms = s.looms) ∧
        (rdI s b F.LOOM_CHDATA0_PKG i = spkg.toNat → rdI s b F.LOOM_CHDATA0_PEER i = sep.toNat → rdI s b F.LOOM_CHDATA1_GEN i ≠ hdrGen x →
          ∃ t, msg = .next t ∧ up F.LOOM_CHSTALE_COUNT t ∧ t.looms = s.looms) ∧
        (fits i → (chEnd s l i).closed = true → ∃ t, msg = .next t ∧ (chEnd t l i).orph = (chEnd s l i).orph + 1 ∧
          (chEnd t l i).ring = (chEnd s l i).ring) ∧
        (fits i → (chEnd s l i).closed = false →
          (arrival (chSize s l i) (chEnd s l i) (hdrSeq x) n = .take → ∃ t, msg = .next t ∧
            (chEnd t l i).ack = ((chEnd s l i).ack + 1) % 65536 ∧ (chEnd t l i).msgs = (chEnd s l i).msgs + 1 ∧
            ((chEnd s l i).tail + n ≤ chSize s l i → ∀ (j : Nat) w, ws[j]? = some w →
              bytesAt (scratchByte t l) (chBase s l i + 64 + 64 * (chEnd s l i).tail + 8 * j) 8 = w.toNat)) ∧
          (arrival (chSize s l i) (chEnd s l i) (hdrSeq x) n = .gap → ∃ t, msg = .next t ∧ chEnd t l i = chEnd s l i ∧
            (spkg.toNat = selfPkg s → creditMsg spkg.toNat (chPath s l i) (creditWord (rdI s b F.LOOM_CHDATA0_CHAN i) (chEnd s l i).ack
              (chEnd s l i).rfreed (hdrGen x) false true false) ∈ t.out)) ∧
          (arrival (chSize s l i) (chEnd s l i) (hdrSeq x) n = .dup → ∃ t, msg = .next t ∧ up F.LOOM_CHDUP_COUNT t ∧ chEnd t l i = chEnd s l i) ∧
          (arrival (chSize s l i) (chEnd s l i) (hdrSeq x) n = .overflow → ∃ t, msg = .next t ∧ up F.LOOM_CHOVFDROP_COUNT t ∧
            (chEnd t l i).ovf = true ∧ rd t b F.FAULTCAUSE_VALID = 1)))) ∧
    (∀ i, isolated s l = false → part.toNat = rd s b F.OWNER_PART → chFind s l chan.toNat 0 = some i →
      rdI s b F.LOOM_CHDATA1_GEN i = gen.toNat → (chEnd s l i).closed = false →
      (∃ t, credit false false false = .next t ∧ (chEnd t l i).freed = freed.toNat ∧
        (chEnd t l i).kept = (sendCredit (chEnd s l i) ack.toNat freed.toNat).kept) ∧
      (∃ t, credit false true false = .next t ∧ rd t b F.LOOM_CHRESEND_COUNT =
        (rd s b F.LOOM_CHRESEND_COUNT + (sendCredit (chEnd s l i) ack.toNat freed.toNat).kept.length) % 2 ^ 32) ∧
      ∀ nack, ∃ t, credit true nack false = .next t ∧ (chEnd t l i).closed = true ∧ (chEnd t l i).kept = [] ∧
        rd t b F.LOOM_CHCLOSEDROP_COUNT = (rd s b F.LOOM_CHCLOSEDROP_COUNT + (chEnd s l i).kept.length) % 2 ^ 32) ∧
    (∃ t, exec (.channelResendTimeout (some l) ent) s = .next t ∧ (∀ i, chEnd t l i = chEnd s l i) ∧
      rd t b F.LOOM_CHRESEND_COUNT = (rd s b F.LOOM_CHRESEND_COUNT + (chEnd s l ent.toNat).kept.length) % 2 ^ 32) ∧
    ((chEnd s l ent.toNat).blocked ≠ [] → (chEnd s l ent.toNat).closed = false → rdI s b F.LOOM_CHDATA0_PKG ent.toNat = selfPkg s →
      isolated s l = false → ∃ t, exec (.channelProbeTimer (some l) ent) s = .next t ∧ t.looms = s.looms ∧
        t.out = s.out ++ [creditMsg (selfPkg s) (chPath s l ent.toNat)
          (creditWord (rdI s b F.LOOM_CHDATA0_CHAN ent.toNat) 0 0 (rdI s b F.LOOM_CHDATA1_GEN ent.toNat) false false true)]) ∧
    ((chEnd s l ent.toNat).blocked = [] ∨ (chEnd s l ent.toNat).closed = true → exec (.channelProbeTimer (some l) ent) s = .next s) ∧
    (let i := rd s b F.LOOM_CHSEL_INDEX
     performed s r b F.LOOM_CHCTL_CLOSE.off true (fldSet F.LOOM_CHCTL_CLOSE v 1) = true →
      (rdI s b F.LOOM_CHDATA0_VALID i = 1 → rdI s b F.LOOM_CHDATA0_DIR i = 1 → (chEnd s l i).closed = false →
        ∃ t, exec (.loomChctlClose r l v) s = .next t ∧ okResp r 0 ∈ t.out ∧ (chEnd t l i).closed = true ∧ (chEnd t l i).ring = []) ∧
      (rdI s b F.LOOM_CHDATA0_VALID i = 0 ∨ rdI s b F.LOOM_CHDATA0_DIR i = 0 → ∃ t, exec (.loomChctlClose r l v) s = .next t ∧
        answered r (windowClose s) t))

/-- R380, R383, R384, R386, R391, at the application cluster: messages and credits as at a loom, by the partition of the end; CHSEND takes a
message from HBM and CHDONE releases the head message, each with its status. (The model's readings here: log entries 76, 130.) -/
def Obligations.ApcChannels : Prop :=
  ∀ (r : Requester) (spkg gen : BitVec 4) (sep : BitVec 11) (part : BitVec 5) (ws : List W64) (chan : BitVec 12) (ack freed : BitVec 16)
    (ent : BitVec 10) (v : Word) (s : State),
    let x := ((ws.head?).getD 0).toNat
    let i := rd s bApc F.APC_CHSEL_INDEX
    let status := fun (t : State) => rdI t bApc F.APC_CHSTAT_STATUS i
    let a := rd s bApc F.APC_CHSEND_LO_ADDR * 8 + v.toNat % 65536 * 2 ^ 32
    let creditMsg := fun (part pkg peer : Nat) (path : Nat × Nat × Nat) (w : Nat) =>
      (⟨.credit, bApc, entryAt s apcEp (entryPos apcEp (if pkg = selfPkg s then peer else 0x428 + (pkgRoute s pkg).getD 0)) ++
        packetFlits 1 0 (headFlit (headOf s apcEp part 1 0 pkg 1 path)) [w] false⟩ : Out)
    let reached := fun (pkg : Nat) => pkg = selfPkg s ∨ (pkgRoute s pkg).isSome = true
    (∀ k, apcFind s part.toNat (hdrChan x) 1 = some k → apcPeer s k = [spkg.toNat, sep.toNat] → rdA s F.APC_CHDATA1_GEN k = hdrGen x →
      (apcEnd s k).closed = false → arrival (apcSize s k) (apcEnd s k) (hdrSeq x) (msgSlots ws.length) = .take →
      ∃ t, exec (.channelMessageReceive none spkg sep part ws) s = .next t ∧ (apcEnd t k).ack = ((apcEnd s k).ack + 1) % 65536 ∧
        (apcEnd t k).msgs = (apcEnd s k).msgs + 1) ∧
    (apcFind s part.toNat (hdrChan x) 1 = none → reached spkg.toNat → ∃ t, exec (.channelMessageReceive none spkg sep part ws) s = .next t ∧ t.apc = s.apc ∧
      t.out = s.out ++ [creditMsg part.toNat spkg.toNat sep.toNat (genPath s apcEp spkg.toNat sep.toNat)
        (creditWord (hdrChan x) (hdrSeq x + 1) 0 (hdrGen x) true false false)]) ∧
    (∀ k, apcFind s part.toNat chan.toNat 0 = some k → rdA s F.APC_CHDATA1_GEN k = gen.toNat → (apcEnd s k).closed = false →
      exec (.channelCreditReceive none part chan ack freed gen false false false) s =
        .next (setApc s k (sendCredit (apcEnd s k) ack.toNat freed.toNat))) ∧
    (reached (rdA s F.APC_CHDATA0_PKG ent.toNat) → ∃ t, exec (.channelResendTimeout none ent) s = .next t ∧ t = { s with out := t.out } ∧
      t.out.length = s.out.length + (apcEnd s ent.toNat).kept.length) ∧
    ((apcEnd s ent.toNat).blocked ≠ [] → (apcEnd s ent.toNat).closed = false → reached (rdA s F.APC_CHDATA0_PKG ent.toNat) →
      ∃ t, exec (.channelProbeTimer none ent) s = .next t ∧
        t.out = s.out ++ [creditMsg (rdA s F.APC_CHPART_PART ent.toNat) (rdA s F.APC_CHDATA0_PKG ent.toNat) (rdA s F.APC_CHDATA0_PEER ent.toNat) (apcPath s ent.toNat)
          (creditWord (rdA s F.APC_CHDATA0_CHAN ent.toNat) 0 0 (rdA s F.APC_CHDATA1_GEN ent.toNat) false false true)]) ∧
    (performed s r bApc F.APC_CHSEND_HI_ADDR.off true v = true →
      (rdA s F.APC_CHDATA0_VALID i = 0 ∨ rdA s F.APC_CHDATA0_DIR i = 1 → ∃ t, exec (.apcChsendHiWrite r v) s = .next t ∧ okResp r 0 ∈ t.out ∧
        status t = 1 ∧ t.apc = s.apc) ∧
      (rdA s F.APC_CHDATA0_VALID i = 1 → rdA s F.APC_CHDATA0_DIR i = 0 → (apcEnd s i).closed = false → ∀ total,
        let y := wr (windowClose s) bApc F.APC_CHSEND_HI_ADDR v.toNat
        let h := hbmReadRun y bApc (rdA s F.APC_CHPART_PART i) a 8
        let n := msgWords (bits (leNat (l2Over y a h.2.2.1)) 15 8)
        let d := hbmReadRun h.2.2.2 bApc (rdA s F.APC_CHPART_PART i) a (8 * n)
        h.1 = hOk → d.1 = hOk → msgSlots n ≤ apcSize s i → sendRoom (apcSize s i) (apcEnd s i) (msgSlots n) = some total →
        ∃ t, exec (.apcChsendHiWrite r v) s = .next t ∧ okResp r 0 ∈ t.out ∧ status t = 0 ∧
          (apcEnd t i).msgs = (apcEnd s i).msgs + 1 ∧ (apcEnd t i).sent = ((apcEnd s i).sent + total) % 65536 ∧
          (apcEnd t i).seq = ((apcEnd s i).seq + 1) % 65536)) ∧
    (performed s r bApc F.APC_CHDONE_DONE.off true (fldSet F.APC_CHDONE_DONE v 1) = true →
      (rdA s F.APC_CHDATA0_VALID i = 1 → rdA s F.APC_CHDATA0_DIR i = 1 → (apcEnd s i).ring ≠ [] → ∃ t, exec (.apcChdone r v) s = .next t ∧
        okResp r 0 ∈ t.out ∧ status t = 0 ∧ apcEnd t i = ringRelease (apcSize s i) (apcEnd s i)) ∧
      (rdA s F.APC_CHDATA0_VALID i = 0 ∨ rdA s F.APC_CHDATA0_DIR i = 0 ∨ (apcEnd s i).ring = [] → ∃ t, exec (.apcChdone r v) s = .next t ∧
        status t = 1 ∧ t.apc = s.apc))

/-- R393 to R397, R401, R402, R405: ADD grows a lamp of the requester's own, saturating at 2⁶⁴ − 1, and completes every watch that its new
value meets; a watch is placed, completed at once, or refused; a deadline, by the hub's copy of LT (R24), ends one with TIMEOUT; a
completion makes the LWAIT of the context that waits return, and one of another LWAIT is dropped; the window of the hub does the same. (The
model's readings here: log entries 2, 59, 60, 77, 133, 135.) -/
def Obligations.Lamps : Prop :=
  ∀ (r : Requester) (h : HubId) (l : LoomId) (main : Bool) (i : BitVec 10) (tag : BitVec 5) (v target tmo : W64) (who : Nat) (res : BitVec 3)
    (lamp : BitVec 14) (w : Word) (tok : Nat) (s : State),
    let b := bHub h
    let k := i.toNat
    let old := lampVal s h k
    let new := min (old + v.toNat) (2 ^ 64 - 1)
    let up := fun (f : Fld) (t : State) => rd t b f = (rd s b f + 1) % 2 ^ 32
    let me := 2 * l.val + (if main then 0 else 1)
    let part := rd s (bLoom l) F.OWNER_PART
    let doneMsg := fun (code : Nat) => outOf .watchDone (bLoom l) [if main then 0 else 1, 1024 * h.val + k, code, tok]
    (lampOk s h k tag.toNat = false → exec (.lampAdd h i tag v) s = .next (inc s b F.HUB_LAMPREFUSE_COUNT)) ∧
    (lampOk s h k tag.toNat = true → ∃ t, exec (.lampAdd h i tag v) s = .next t ∧ lampVal t h k = new ∧ up F.HUB_LAMPADDS_COUNT t ∧
      (2 ^ 64 ≤ old + v.toNat → up F.HUB_LAMPSAT_COUNT t) ∧ (∀ j, j ≠ k → lampVal t h j = lampVal s h j) ∧
      (∀ y ∈ (hub s h).watches, y.lamp = k → y.target ≤ new → y.who < 1536 →
        outOf .watchDone (bLoom (y.who / 2)) [y.who % 2, 1024 * h.val + k, 0, y.tok] ∈ t.out) ∧
      ∀ y ∈ (hub t h).watches, y.lamp = k → new < y.target) ∧
    (lampOk s h k part = true →
      (old < target.toNat → ∃ t x, exec (.lampWatchPlace h l main i target tmo tok) s = .next t ∧ t.out = s.out ∧ ltNow s - 6 ≤ x ∧ x ≤ ltNow s ∧
        ⟨me, k, target.toNat, if tmo = 0 then none else some (x + min tmo.toNat (2 ^ 40)), tok⟩ ∈ (hub t h).watches) ∧
      (target.toNat ≤ old → ∃ t, exec (.lampWatchPlace h l main i target tmo tok) s = .next t ∧ t.out = s.out ++ [doneMsg 0] ∧
        up F.HUB_WATCHMET_COUNT t)) ∧
    (lampOk s h k part = false → ∃ t, exec (.lampWatchPlace h l main i target tmo tok) s = .next t ∧ t.out = s.out ++ [doneMsg 1] ∧
      (hub t h).watches = (hub s h).watches ∧
      up F.HUB_LAMPREFUSE_COUNT t) ∧
    (∀ y d, (hub s h).watches.find? (fun y => y.who = who) = some y → y.deadline = some d →
      (d + 6 ≤ ltNow s → ∃ t, exec (.lampWatchDeadline h who) s = .next t ∧ up F.HUB_WATCHTMO_COUNT t ∧ (∀ z ∈ (hub t h).watches, z.who ≠ who) ∧
        (who < 1536 → t.out = s.out ++ [outOf .watchDone (bLoom (who / 2)) [who % 2, 1024 * h.val + y.lamp, 4, y.tok]])) ∧
      (ltNow s < d → ∃ t, exec (.lampWatchDeadline h who) s = .next t ∧ t = { s with free := t.free })) ∧
    (∀ d, (seqOf s l).wait = some (.lamp lamp.toNat d tok) → main = usesMain (seqOf s l) → logFull s l = false →
      ∃ t, exec (.lampWatchComplete l main lamp res tok) s = .next t ∧ (seqOf t l).wait = none ∧ pcOf t l = pcOf s l + 4 ∧
        (d ≠ 0 → g t l d = .ofNat 64 res.toNat) ∧ rd t (bLoom l) F.LOOM_SEQINSTR_COUNT = (rd s (bLoom l) F.LOOM_SEQINSTR_COUNT + 1) % 2 ^ 32) ∧
    (watched s l main lamp.toNat tok = false → exec (.lampWatchComplete l main lamp res tok) s = .next s) ∧
    (∃ t, exec (.lampWatchCancel h who) s = .next t ∧ (hub t h).watches = (hub s h).watches.filter (fun y => y.who != who) ∧
      (hub t h).lamps = (hub s h).lamps ∧ t.regs = s.regs ∧ t.out = s.out) ∧
    (performed s r b F.HUB_LAMPADD_HI_ADD.off true w = true → ∃ t, exec (.hubLampaddHiWrite r h w) s = .next t ∧
      answered r (lampAdd (windowClose s) h (rd s b F.HUB_LAMPSEL_INDEX) (tagOf r) (tabGet 0 (hub s h).addLo (tagOf r) + w.toNat * 2 ^ 32)) t) ∧
    (performed s r b F.HUB_LAMPFORCE_HI_VALUE.off true w = true → ∃ t, exec (.hubLampforceHiWrite r h w) s = .next t ∧ okResp r 0 ∈ t.out ∧
      lampVal t h (rd s b F.HUB_LAMPSEL_INDEX) = (tabGet 0 (hub s h).forceLo (tagOf r) + w.toNat * 2 ^ 32) % 2 ^ 64 ∧
      up F.HUB_LAMPFORCE_COUNT t) ∧
    (let n := rd s b F.HUB_WATCHSEL_SLOT
     let at' := rd s b F.HUB_LAMPSEL_INDEX
     let goal := rdI s b F.HUB_WATCHTGT_LO_TARGET n + rdI s b F.HUB_WATCHTGT_HI_TARGET n * 2 ^ 32
     let full := ∀ j < 64, ∃ y ∈ (hub s h).watches, y.who = 1536 + j
     (fieldPerformed s r b F.HUB_WATCHCTL_OP 1 = true →
       (¬ full → lampOk s h at' (tagOf r) = true → lampVal s h at' < goal → ∃ t, exec (.hubWatchArm r h) s = .next t ∧ okResp r 0 ∈ t.out ∧
         rdI t b F.HUB_WATCHCTL_STATUS n = wsWaiting ∧ tabGet 0 (hub t h).winOwner n = tagOf r + 1 ∧
         ∃ y ∈ (hub t h).watches, y.who = 1536 + n ∧ y.lamp = at' ∧ y.target = goal) ∧
       (¬ full → lampOk s h at' (tagOf r) = true → goal ≤ lampVal s h at' → ∃ t, exec (.hubWatchArm r h) s = .next t ∧
         rdI t b F.HUB_WATCHCTL_STATUS n = wsMet) ∧
       (¬ full → lampOk s h at' (tagOf r) = false → ∃ t, exec (.hubWatchArm r h) s = .next t ∧ rdI t b F.HUB_WATCHCTL_STATUS n = wsRefused) ∧
       (full → ∃ t, exec (.hubWatchArm r h) s = .next t ∧ rdI t b F.HUB_WATCHCTL_STATUS n = wsRefused ∧ up F.HUB_WATCHFULL_COUNT t ∧
         (hub t h).watches = (hub s h).watches)) ∧
     (fieldPerformed s r b F.HUB_WATCHCTL_OP 2 = true → ∃ t, exec (.hubWatchCancel r h) s = .next t ∧ okResp r 0 ∈ t.out ∧
       rdI t b F.HUB_WATCHCTL_STATUS n = wsIdle ∧ (∀ y ∈ (hub t h).watches, y.who ≠ 1536 + n) ∧ tabGet 0 (hub t h).winOwner n = 0))

/-! ## Shuttles and memory (chapters 12 and 13) -/

/-- R411, R412, R418, R419, R422, R426, R431: GO starts the shadow set, arms it behind a running chain, or is refused while it is armed;
ABORT ends the page lane, and with it a transfer of that lane that runs and writes no STATUS, with ABORTED; a descriptor starts when the
shuttle runs nothing, no custody-lane work waits and its checks pass, and ends at once with the code of the check that fails; custody-lane
work goes first; the end of a transfer reports its code, and a FILL of a loom's scratch leaves the pattern there; it waits while a bank, a
full log or a controller in reset holds its access, and its completion while a store holds its writes (R112, R147, R316, R456). (The model's
readings here: log entries 2, 21, 78, 124, 136, 139, 140.) -/
def Obligations.Shuttles : Prop :=
  ∀ (r : Requester) (k : ShId) (host : List Byte) (marks : LineMarks) (d : ShDesc) (a : Option Nat) (tag : Nat) (j : ShJob) (s : State),
    let b := bShuttle k
    let x := sh s k
    let y := sh s (sibling k)
    let u := windowClose s
    let m := memMarks s marks
    let page : ShRun := ⟨k, .page, d, a, tag, none⟩
    let c : ShCtx := ⟨k, .page, tag⟩
    let start := exec (.shuttleDescriptorStart k marks) s
    let finish := exec (.shuttleTransferDone k host marks) s
    (fieldPerformed s r b F.SH_CTL_GO 1 = true →
      (x.armed = true → ∃ t, exec (.shGo r k) s = .next t ∧ answered r (inc (wr u b F.SH_STAT_REFUSED 1) b F.SH_REFUSE_COUNT) t) ∧
      (x.armed = false → x.page ≠ none → ∃ t, exec (.shGo r k) s = .next t ∧
        answered r (wr (modSh u k (fun y => { y with armed := true })) b F.SH_STAT_ARMED 1) t) ∧
      (x.armed = false → x.page = none → ∃ t, exec (.shGo r k) s = .next t ∧
        answered r (wr (modSh u k (fun y => { y with page := some (.desc (shShadow s k) none) })) b F.SH_STAT_ACTIVE 1) t)) ∧
    (fieldPerformed s r b F.SH_CTL_ABORT 1 = true → x.failed = false → x.wait = none → x.redo = none → y.run = none → y.redo = none →
      (∀ z, x.run = some z → z.desc.wb = false) →
      ∃ t, exec (.shAbort r k) s = .next t ∧ okResp r 0 ∈ t.out ∧ (sh t k).armed = false ∧ (sh t k).page = none ∧ rd t b F.SH_STAT_ARMED = 0 ∧
        (x.page = none → rd t b F.SH_STAT_CODE = rd s b F.SH_STAT_CODE ∧ (sh t k).run = x.run) ∧
        (x.page ≠ none → rd t b F.SH_STAT_CODE = scAborted ∧ rd t b F.SH_STAT_ACTIVE = 0 ∧
          (x.run = some page → (sh t k).run = none) ∧ ∀ z, x.run = some z → z.lane ≠ .page → (sh t k).run = some z)) ∧
    (x.run ≠ none ∨ x.job ≠ none ∨ x.failed = true → start = .next m) ∧
    (x.run = none → x.job = none → x.failed = false → y.failed = false → y.job = none → (shJobs m k).head? = some j →
      start = .next (modSh m k (fun z => { z with job := some j }))) ∧
    (x.run = none → x.job = none → x.failed = false → y.failed = false → (∀ z, y.run = some z → z.home ≠ k) → shJobs m k = [] →
      (∀ e ∈ x.queue, e.code ≠ none) →
      (x.page = none → start = .next m) ∧
      (x.page = some (.desc d a) → tag = rd s b F.OWNER_PART →
        (shCheck k d = scOk → d.len ≠ 0 → ∃ t, start = .next t ∧ (sh t k).run = some page ∧
          rd t b F.SH_DONE_BYTES = 0 ∧ t.looms = s.looms ∧ t.mem = m.mem) ∧
        (shCheck k d ≠ scOk → d.wb = false → ∃ t, start = .next t ∧ (sh t k).run = none ∧
          rd t b F.SH_STAT_CODE = shCheck k d ∧ t.looms = s.looms ∧ t.mem = m.mem ∧ rd t b F.SH_DESCS_COUNT = (rd s b F.SH_DESCS_COUNT + 1) % 2 ^ 32 ∧
          rd t b F.SH_ERRORS_COUNT = (rd s b F.SH_ERRORS_COUNT + 1) % 2 ^ 32))) ∧
    (x.run = none → finish = .next m) ∧
    (x.run = some page → x.failed = false → x.wait = none → shHeld m c d = true → finish = .next m) ∧
    (x.run = some page → x.failed = false → x.wait = none → shHeld m c d = false → shStoresHeld m d = true →
      (shTransfer m c d host).1.bytes ≠ 0 → ∃ t, finish = .next t ∧ (sh t k).run = some page ∧
        (sh t k).wait = some ((shTransfer m c d host).1, false) ∧ rd t b F.SH_STAT_CODE = rd s b F.SH_STAT_CODE) ∧
    (x.run = some page → x.failed = false → x.wait = none → shHeld m c d = false → shStoresHeld m d = false → shCheck k d = scOk →
      d.crypt = 0 → d.wb = false →
      ∃ t, finish = .next t ∧ (sh t k).run = none ∧
        rd t b F.SH_STAT_CODE = (shTransfer m c d host).1.code ∧
        rd t b F.SH_DESCS_COUNT = (rd s b F.SH_DESCS_COUNT + 1) % 2 ^ 32 ∧
        (d.op = 1 → d.wmode = 0 → isLocal d.dst = true → d.ds = d.dw → locAddr d.dst + d.len ≤ 0x80000 → isolated s (locLoom d.dst) = false →
          tag = rd s (bLoom (locLoom d.dst)) F.OWNER_PART → (∀ j, j < 8 → owner s (locLoom d.dst) j = ownShuttle) →
          rd t b F.SH_STAT_CODE = scOk ∧
          ∀ l i, scratchByte t l i = if l = locLoom d.dst ∧ locAddr d.dst ≤ i ∧ i < locAddr d.dst + d.len
            then BitVec.ofNat 8 (d.pat / 256 ^ ((i - locAddr d.dst) % 8)) else scratchByte s l i))

/-- R117, R352, R436 to R439, R443, R446, R450, R456: a READY controller performs the request it expects and answers with its status and
data; one ahead is answered RESEND with the number expected, one behind counts as a duplicate; the requester drops what was answered, and
sends again what was not; a written entry of a spill region counts in LOOM_DQSPILL, and a refused one is DQSPILLFULL. A whole line that has
been written under a region's key stands in the stack as its AES-256-XTS ciphertext. (The model's readings here: log entries 2, 21, 79, 136,
137.) -/
def Obligations.HbmRequests : Prop :=
  ∀ (req rseq : BitVec 12) (tag : BitVec 5) (write : Bool) (addr : BitVec 48) (size st : BitVec 3) (data : List Byte) (marks : LineMarks)
    (c : HbmcId) (l : LoomId) (part : BitVec 5) (s : State),
    let a := addr.toNat
    let n := hbmBytes size.toNat
    let k := hbmCtl a
    let b := bHbmc k
    let want := tabGet 0 s.mem.expect (k * 4096 + req.toNat)
    let last := tabGet 0 s.mem.resent (k * 4096 + req.toNat)
    let Δ := (rseq.toNat + 4096 - want) % 4096
    let m := memMarks s marks
    let run := exec (.hbmRequest req tag rseq write addr size data marks) s
    let rsp := fun (q st : Nat) (d : List Byte) => (⟨.hbmRsp, b, entryAt s (blockEp b) (entryPos (blockEp b) (blockEp req.toNat)) ++ packetFlits 3 0 (headFlit (headOf s (blockEp b) tag.toNat write.toNat 0
      (selfPkg s) (byteFlits d).length (memPath (genPath s (blockEp b) (selfPkg s) (blockEp req.toNat)) (memWord a size.toNat st q))))
      (byteFlits d) false⟩ : Out)
    let lb := bLoom l
    let x := hbmTx s lb c
    let ask := fun (q : HbmReq) => (⟨if q.write then .hbmWrite else .hbmRead, lb, niFlits s l 2 q.write.toNat 0 (selfPkg s)
      (memPath (genPath s l (selfPkg s) (blockEp (hbmBlk q.addr))) (memWord q.addr q.size 0 q.rseq)) (byteFlits q.data)⟩ : Out)
    let answer := exec (.hbmResponse (.ofNat 12 lb) part c rseq st) s
    let mine := isolated s l = false ∧ (part.toNat = rd s lb F.OWNER_PART ∨ part.toNat = 0x1E ∨ part.toNat = 0x1F)
    let u := inc s lb F.LOOM_NIPKTRX_COUNT
    (rdB s b F.STATE_READY = false → run = .next m) ∧
    (rdB s b F.STATE_READY = true →
      (Δ = 0 → ∃ t, run = .next t ∧ tabGet 0 t.mem.expect (k * 4096 + req.toNat) = (want + 1) % 4096 ∧
        (n = 0 ∨ a % n ≠ 0 ∨ payloadOk write n data = false → t.out = s.out ++ [rsp rseq.toNat hDecode []] ∧ ∀ i, hbmByte t i = hbmByte s i) ∧
        (n ≠ 0 → a % n = 0 → payloadOk write n data = true → hbmCheck s tag.toNat a n ≠ hOk → t.out = s.out ++ [rsp rseq.toNat (hbmCheck s tag.toNat a n) []] ∧
          (∀ i, hbmByte t i = hbmByte s i) ∧ (hbmCheck s tag.toNat a n = hPartition →
            rd t b F.HBMC_PARTREFUSE_COUNT = (rd s b F.HBMC_PARTREFUSE_COUNT + 1) % 2 ^ 32)) ∧
        (n ≠ 0 → a % n = 0 → hbmCheck s tag.toNat a n = hOk → (∀ i, a ≤ i → i < a + n → lineMark m i = .clean) → (∀ j, j * 128 < a + n → a < j * 128 + 128 → j ∉ s.mem.poison) →
          (∀ i, a ≤ i → i < a + n → staleKey s i = false) →
          (write = false → data = [] → (∀ i, hbmByte t i = hbmByte s i) ∧
            t.out = s.out ++ [rsp rseq.toNat hOk ((List.range n).map (fun i => hbmByte s (a + i)))]) ∧
          (write = true → data.length = n → t.out = s.out ++ [rsp rseq.toNat hOk []] ∧
            (∀ i, hbmByte t i = if a ≤ i ∧ i < a + n then (data[i - a]?).getD 0 else hbmByte s i) ∧
            (n = 128 → ∀ e, regionAt s a = some e → regionKey s e ≠ 0 → ∃ c, ∃ T : Nat → Nat, lineCipher t a = some c ∧ c.length = 128 ∧
              T 0 = leNat (aes256 ((memKey (regionKey s e)).drop 32 |>.take 32) (leBytes 16 (a / 128))) ∧
              ∀ j, j < 8 → T (j + 1) = tweakNext (T j) ∧ (c.drop (16 * j)).take 16 = List.zipWith (· ^^^ ·)
                (aes256 ((memKey (regionKey s e)).take 32) (List.zipWith (· ^^^ ·) ((data.drop (16 * j)).take 16) (leBytes 16 (T j))))
                (leBytes 16 (T j)))))) ∧
      (1 ≤ Δ → Δ ≤ 2047 → if last ≠ 0 ∧ ltNow s < last - 1 + 1000 then run = .next m else ∃ t, run = .next t ∧
          t = { s with mem := t.mem, out := s.out ++ [rsp want hResend []] } ∧ t.mem = { m.mem with resent := t.mem.resent }) ∧
      (2048 ≤ Δ → ∃ t, run = .next t ∧ rd t b F.HBMC_DUPREQ_COUNT = (rd s b F.HBMC_DUPREQ_COUNT + 1) % 2 ^ 32 ∧
        (∀ i, hbmByte t i = hbmByte s i) ∧ tabGet 0 t.mem.expect (k * 4096 + req.toNat) = want ∧
        (write = true → t.out = s.out ++ [rsp rseq.toNat hOk []]))) ∧
    (isolated s l = true → answer = .next (isoDrop s l)) ∧
    (isolated s l = false → ¬ mine → answer = .next (latchFault (inc u lb F.LOOM_PARTDROP_COUNT) lb 0x0115)) ∧
    (∀ q, mine → x.unans.find? (fun q => q.rseq = rseq.toNat) = some q → st.toNat ≠ hResend → x.held = [] →
      let answered := setHbmTx u lb c { x with unans := x.unans.filter (fun q => q.rseq != rseq.toNat) }
      (q.spill = false ∨ st.toNat = hOk ∧ (q.write = false ∨ q.addr % 256 = linkAt) → answer = .next answered) ∧
      (q.spill = true → q.write = true → q.addr % 256 ≠ linkAt → st.toNat = hOk → answer = .next (inc answered lb F.LOOM_DQSPILL_COUNT)) ∧
      (q.spill = true → q.write = true → st.toNat ≠ hOk → ∃ t, answer = .next t ∧ rd t lb F.FAULTCAUSE_VALID = 1 ∧
        (rd s lb F.FAULTCAUSE_VALID = 0 → rd t lb F.FAULTCAUSE_CAUSE = 0x0103))) ∧
    (mine → st.toNat ≠ hResend → (∀ q ∈ x.unans, q.rseq ≠ rseq.toNat) → answer = .next u) ∧
    (mine → st.toNat = hResend → ∃ t, answer = .next t ∧ t.mem = s.mem ∧ t.looms = s.looms ∧
      t.out = s.out ++ (x.unans.filter (fun q => (q.rseq + 4096 - rseq.toNat) % 4096 < 2048)).map ask) ∧
    (isolated s l = false → ∃ t, exec (.hbmRequestTimeout (.ofNat 12 lb) c) s = .next t ∧ t.mem = s.mem ∧ t.looms = s.looms ∧
      t.out = s.out ++ x.unans.map ask)

/-- R443, R444, R451 to R455, R459: APPLY installs the staged entry that the checks accept, and is refused otherwise; WIPE of a VALID entry
makes it WIPING, and at its end every byte of the region is 0, unpoisoned and under the region's key, and the other bytes stand; both act
for Lantern only; POISONCLR clears one line's poison for a custody requester; the scrub reads one line, and counts a corrected, an
uncorrectable and a badly tagged one. (The model's readings here: log entries 2, 22, 79, 138.) -/
def Obligations.Regions : Prop :=
  ∀ (r : Requester) (i : Fin 64) (c : HbmcId) (addr : BitVec 48) (marks : LineMarks) (v : Word) (s : State),
    let b := bMemcrypt
    let e := rd s b F.MC_REGSEL_INDEX
    let u := windowClose s
    let q := regionStaged s e
    let line := addr.toNat / 128
    let ue := rdPair s (bHbmc c) F.HBMC_UEADDR_LO_ADDR F.HBMC_UEADDR_HI_ADDR
    let m := memMarks s marks
    let mark := lineMark m addr.toNat
    let scrub := exec (.hbmScrubTimer c addr marks) s
    let lo := (region s i).base * 2 ^ 21
    let hi := ((region s i).base + (region s i).size) * 2 ^ 21
    let lantern := r = .custody .lantern
    let refused := inc (wrI u b F.MC_REGSTAT_REFUSED e 1) b F.TXNREFUSE_COUNT
    (fieldPerformed s r b F.MC_REGCTL_OP 1 = true →
      (¬ lantern → ∃ t, exec (.mcApply r) s = .next t ∧ answered r u t) ∧
      (lantern → regionOk (deviceSlot u q) e q = true → ∃ t, exec (.mcApply r) s = .next t ∧ okResp r 0 ∈ t.out ∧ region t e = q ∧ (∀ j, j ≠ e → region t j = region s j) ∧
        (∀ j, hbmByte t j = hbmByte s j) ∧ (q.valid = false → tabGet 0 t.mem.rstate e = 0)) ∧
      (lantern → regionOk (deviceSlot u q) e q = false → ∃ t, exec (.mcApply r) s = .next t ∧ answered r refused t)) ∧
    (fieldPerformed s r b F.MC_REGCTL_OP 2 = true →
      (¬ lantern → ∃ t, exec (.mcWipe r) s = .next t ∧ answered r u t) ∧
      (lantern → (region s e).valid = true → tabGet 0 s.mem.rstate e ≠ 1 → ∃ t, exec (.mcWipe r) s = .next t ∧ okResp r 0 ∈ t.out ∧
        tabGet 0 t.mem.rstate e = 1 ∧ t.mem.hbm = s.mem.hbm ∧ t.mem.regions = s.mem.regions ∧
        tabGet 0 t.mem.keygen (region s e).slot = (tabGet 0 s.mem.keygen (region s e).slot + 1) % 65536) ∧
      (lantern → (region s e).valid = false ∨ tabGet 0 s.mem.rstate e = 1 → ∃ t, exec (.mcWipe r) s = .next t ∧ answered r refused t)) ∧
    (tabGet 0 s.mem.rstate i = 1 → 65536 + i.val ∉ s.cust.releasing →
      ∃ t, exec (.regionWipeDone i) s = .next t ∧ t = { s with mem := t.mem } ∧ tabGet 0 t.mem.rstate i = 2 ∧ t.mem.regions = s.mem.regions ∧
        (∀ j, hbmByte t j = if lo ≤ j ∧ j < hi then 0 else hbmByte s j) ∧
        ∀ j, lo ≤ j → j < hi → j / 128 ∉ t.mem.poison ∧ (regionKey s i ≠ 0 → keyOfLine t j = some (regionKey s i))) ∧
    (tabGet 0 s.mem.rstate i ≠ 1 → exec (.regionWipeDone i) s = .next s) ∧
    (performed s r (bHbmc c) F.HBMC_POISONCLR_GO.off true (fldSet F.HBMC_POISONCLR_GO v 1) = true →
      (isCustody r = true → ∃ t, exec (.hbmcPoisonclr r c v) s = .next t ∧
        answered r { u with mem := { u.mem with poison := u.mem.poison.filter (fun x => x != ue / 128) } } t) ∧
      (isCustody r = false → ∃ t, exec (.hbmcPoisonclr r c v) s = .next t ∧ answered r u t)) ∧
    (rd s (bHbmc c) F.HBMC_SCRUB_HOURS ≠ 0 → addr.toNat < hbmSize → hbmCtl addr.toNat = c → rdB s (bHbmc c) F.STATE_READY = true → line ∉ s.mem.poison →
      (mark = .clean → staleKey s (line * 128) = false → ∃ t, scrub = .next t ∧ t.mem.poison = s.mem.poison ∧ t.mem.hbm = s.mem.hbm) ∧
      (mark = .corrected → staleKey s (line * 128) = false → ∃ t, scrub = .next t ∧ t.mem.poison = s.mem.poison ∧ t.mem.hbm = s.mem.hbm ∧
        lineMark t addr.toNat = .clean ∧
        rd t (bHbmc c) F.HBMC_SCRUBCE_COUNT = (rd s (bHbmc c) F.HBMC_SCRUBCE_COUNT + 1) % 2 ^ 32) ∧
      (mark = .badTag → ∃ t, scrub = .next t ∧ t.mem.poison = s.mem.poison ++ [line] ∧ t.mem.hbm = s.mem.hbm ∧
        rd t (bHbmc c) F.HBMC_INTEG_COUNT = (rd s (bHbmc c) F.HBMC_INTEG_COUNT + 1) % 2 ^ 32) ∧
      (mark = .uncorrectable → ∃ t, scrub = .next t ∧ t.mem.poison = s.mem.poison ++ [line] ∧ t.mem.hbm = s.mem.hbm ∧
        rd t (bHbmc c) F.HBMC_UE_COUNT = (rd s (bHbmc c) F.HBMC_UE_COUNT + 1) % 2 ^ 32 ∧
        rdPair t (bHbmc c) F.HBMC_UEADDR_LO_ADDR F.HBMC_UEADDR_HI_ADDR = line * 128)) ∧
    (rd s (bHbmc c) F.HBMC_SCRUB_HOURS = 0 ∨ hbmCtl addr.toNat ≠ c → scrub = .next m)

/-! ## Reed ports (chapter 14) -/

/-- R464, R465, R469, R470, R473 to R475, R478, R480, R517, R518: a packet that fails its checks is discarded and counted; an event word
counts and enters the bank of its epoch's tile, or is dropped with its counter; the flush retains the epoch's picks and injects close
markers; replay and mirroring deliver records in order; one I3C transfer runs at a time. (The model's readings here: log entries 2, 19, 27,
28, 30, 80.) -/
def Obligations.ReedPorts : Prop :=
  ∀ (r : Requester) (p g : PortId) (vc : BitVec 5) (dt : BitVec 6) (d : List Byte) (v word mseq : Word) (lt : W64) (nack : Bool) (adr : BitVec 7) (s : State),
    let b := bReed p
    let x := reed s p
    let up := fun (f : Fld) (n : Nat) (t : State) => rd t b f = (rd s b f + n) % 2 ^ 32
    let pkt := fun (ecc short crc : Bool) (y : List Byte) => exec (.reedPacketReceive p ecc short crc vc dt y 0) s
    let at_ := ltNow s - (drawFree s).1 % 7
    let w := word.toNat
    let mine := vc.toNat = rd s b F.REED_CSI_VC ∧ dt.toNat = rd s b F.REED_CSI_DT
    let e := x.epoch
    let rec_ := hbmReadRun s b (reedTag s p) (recAddr s p x.rdPos) 16
    let picks := (reedPicks s p e).1
    let len := if bits v.toNat 15 8 = 0 then 256 else bits v.toNat 15 8
    (rdB s b F.CONTROL_ENABLE = false ∨ rd s b F.REED_CFG_SRC ≠ srcLanes → ∀ ecc short crc, pkt ecc short crc d = .next s) ∧
    (rdB s b F.CONTROL_ENABLE = true → rd s b F.REED_CFG_SRC = srcLanes →
      (∀ short crc, pkt false short crc d = .next (inc s b F.REED_CRCDROP_COUNT)) ∧
      (∀ short crc, short = true ∨ ¬ mine → pkt true short crc d = .next (inc s b F.REED_OTHERPKT_COUNT)) ∧
      (mine → pkt true false false d = .next (inc s b F.REED_CRCDROP_COUNT) ∧
        (rd s b ⟨F.REED_CFG_DECMODE.off, 7, 7⟩ = 0 →
          (bits w 31 30 = 2 → ∃ t, pkt true false true (leBytes 4 w) = .next t ∧ up F.REED_STATUSW_COUNT 1 t ∧ rd t b F.REED_SENSTAT_STATUS = w % 2 ^ 30 ∧
            t.reeds = s.reeds) ∧
          (bits w 31 30 = 3 → pkt true false true (leBytes 4 w) = .next (drawFree s).2) ∧
          (bits w 31 30 = 1 → x.lastV = none → x.time < 2 ^ 30 → ∃ t, pkt true false true (leBytes 4 w) = .next t ∧ (reed t p).time = w % 2 ^ 30 ∧
            t.regs = s.regs) ∧
          (bits w 31 30 = 0 → pktCfg s p at_ F.REED_CFG_TSMODE 0 = 0 → rdB s b F.REED_RECCTL_CAPEN = false →
            ∃ t, pkt true false true (leBytes 4 w) = .next t ∧ up F.REED_EVENTS_COUNT 1 t ∧
              (inRun s = false ∨ epochOf s at_ = none → up F.REED_IDLEDROP_COUNT 1 t ∧ (reed t p).bank = x.bank) ∧
              ∀ n, inRun s = true → epochOf s at_ = some n →
                (n < e → up F.REED_LATEDROP_COUNT 1 t ∧ (reed t p).bank = x.bank) ∧
                (e ≤ n → reedTile s p n w = none → up F.REED_NOTILE_COUNT 1 t ∧ (reed t p).bank = x.bank) ∧
                ∀ i, e ≤ n → n ≤ e + 1 → reedTile s p n w = some i →
                  let k := n * 2 ^ 21 + reedCfg s p n F.REED_TMDATA1_MSLOT i * 512 + (evPol w * 256 + evY w % 16 * 16 + evX w % 16)
                  tabGet 0 (reed t p).bank k = min 16 (tabGet 0 x.bank k + 1) ∧ ∀ j, j ≠ k → tabGet 0 (reed t p).bank j = tabGet 0 x.bank j)))) ∧
    (flushOk s p = true → ∃ t, exec (.reedFlushStart p) s = .next t ∧ (reed t p).epoch = e + 1 ∧
      (∃ q, (reed t p).ret = some q ∧ q.epoch = e ∧ q.groups = picks.map (·.1) ∧ q.chains = (reedChains s p e).1 ∧
        q.base = rdPair s b F.REED_RETBASE_LO_ADDR F.REED_RETBASE_HI_ADDR ∧
        ∀ c ∈ q.chains, ∀ i w, (i, w) ∈ (List.range c.2.length).zip c.2 →
          (recDpkg s w = selfPkg s ∨ (pkgRoute s (recDpkg s w)).isSome = true) →
          let n := (picksOf picks c.1).length
          let ws := wordFlits ((pickRun (picksOf picks c.1) (n / 16 * 16) (n % 16) ++ [closeWord e n]).map (·.toNat)) padWord
          let pos := if recDpkg s w = selfPkg s then reedPos p else entryPos (reedEp p) (0x428 + (pkgRoute s (recDpkg s w)).getD 0)
          ⟨.stream, b, entryAt s (reedEp p) pos ++ packetFlits 0 0 (headFlit (headOf s (reedEp p) (reedTag s p) 0 (c.1 * 32 + i) (recDpkg s w) ws.length (recPath w))) ws false⟩
            ∈ t.out) ∧
      up F.REED_PICKS_COUNT picks.length t) ∧
    (flushOk s p = false → exec (.reedFlushStart p) s = .next s) ∧
    (rdB s b F.CONTROL_ENABLE = false ∨ rd s b F.REED_CFG_SRC ≠ srcReplay ∨ recCnt s p ≤ x.rdPos ∨ inRun s = false →
      exec (.reedReplayRecord p) s = .next s) ∧
    (rdB s b F.CONTROL_ENABLE = true → rd s b F.REED_CFG_SRC = srcReplay → x.rdPos < recCnt s p → inRun s = true →
      (rec_.1 ≠ hOk → ∃ t, exec (.reedReplayRecord p) s = .next t ∧ (reed t p).rdPos = recCnt s p) ∧
      (rec_.1 = hOk → ∀ n, epochOf s (sext 64 (leNat (rec_.2.2.1.take 8))) = some n →
        (e + 1 < n → ∃ t, exec (.reedReplayRecord p) s = .next t ∧
          reed t p = { x with rdLast := max x.rdLast (sext 64 (leNat (rec_.2.2.1.take 8))) }) ∧
        (n ≤ e + 1 → ∃ t, exec (.reedReplayRecord p) s = .next t ∧ (reed t p).rdPos = x.rdPos + 1 ∧ (reed t p).epoch = e))) ∧
    (rd s b F.REED_CFG_SRC ≠ srcMirror ∨ rdB s b F.CONTROL_ENABLE = false →
      exec (.mirrorRecordReceive g p mseq lt word) s = .next (inc s (bGlimmer g) F.GLIM_MIRDROP_COUNT)) ∧
    (rd s b F.REED_CFG_SRC = srcMirror → rdB s b F.CONTROL_ENABLE = true → x.mHeld = [] → ∀ k, x.mNext.getD mseq.toNat = k → k < 2 ^ 32 →
      (k = mseq.toNat → ∃ t, exec (.mirrorRecordReceive g p mseq lt word) s = .next t ∧ (reed t p).mNext = some ((k + 1) % 2 ^ 32) ∧
        (reed t p).mHeld = [] ∧ (reed t p).mGap = none) ∧
      (k ≠ mseq.toNat → (mseq.toNat + 2 ^ 32 - k) % 2 ^ 32 < 2 ^ 31 → ∃ t, exec (.mirrorRecordReceive g p mseq lt word) s = .next t ∧
        (reed t p).mNext = some k ∧ (reed t p).mHeld = [(mseq.toNat, ⟨lt.toInt, w⟩)] ∧ (reed t p).mGap ≠ none ∧ (reed t p).bank = x.bank) ∧
      (2 ^ 31 ≤ (mseq.toNat + 2 ^ 32 - k) % 2 ^ 32 → ∃ t, exec (.mirrorRecordReceive g p mseq lt word) s = .next t ∧
        (reed t p).mNext = some k ∧ (reed t p).mHeld = [] ∧ (reed t p).bank = x.bank ∧ t.regs = s.regs)) ∧
    (∀ o z, x.mGap = some (o, z) → ltNow s < o + rd s (bGlimmer x.mPort) F.GLIM_MIRWAIT_NS → exec (.mirrorWaitExpiry p) s = .next s) ∧
    (∀ o z k, x.mGap = some (o, z) → x.mNext = some k → x.mPort < 8 → x.mHeld ≠ [] → x.mHeld.length < 2 ^ 31 →
      z = (k + mirrorAhead x k) % 2 ^ 32 → mseqBefore k z = true → o + rd s (bGlimmer x.mPort) F.GLIM_MIRWAIT_NS ≤ ltNow s →
      ∃ t, exec (.mirrorWaitExpiry p) s = .next t ∧ rd t (bGlimmer x.mPort) F.FAULTCAUSE_VALID = 1 ∧
        rd t (bGlimmer x.mPort) F.GLIM_MIRLOST_COUNT = (rd s (bGlimmer x.mPort) F.GLIM_MIRLOST_COUNT + mirrorAhead x k) % 2 ^ 32) ∧
    (performed s r b F.REED_I3CCMD_ADDR.off true v = true →
      (rdB s b F.REED_I3CSTAT_BUSY = true → ∃ t, exec (.reedI3ccmdWrite r p v) s = .next t ∧ answered r (windowClose s) t) ∧
      (rdB s b F.REED_I3CSTAT_BUSY = false → ∃ t, exec (.reedI3ccmdWrite r p v) s = .next t ∧ okResp r 0 ∈ t.out ∧
        rd t b F.REED_I3CSTAT_BUSY = 1 ∧ (reed t p).i3c = some v.toNat ∧
        (bit v.toNat 7 = true → (reed t p).fifo = x.fifo ∧ ⟨.i3c, b, [v.toNat]⟩ ∈ t.out) ∧
        (bit v.toNat 7 = false → (reed t p).fifo = x.fifo.drop len ∧ ⟨.i3c, b, v.toNat :: (x.fifo.take len).map (·.toNat)⟩ ∈ t.out))) ∧
    (x.i3c = none → exec (.i3cTransferDone p nack d) s = .next s) ∧
    (x.i3c = some v.toNat → ∃ t, exec (.i3cTransferDone p nack d) s = .next t ∧ (reed t p).i3c = none ∧ rd t b F.REED_I3CSTAT_BUSY = 0 ∧
      (nack = true → rd t b F.REED_I3CSTAT_NACK = 1 ∧ (reed t p).fifo = x.fifo) ∧
      (nack = false → bit v.toNat 7 = true → (reed t p).fifo = (x.fifo ++ d.take len).take 256)) ∧
    (∃ t, exec (.i3cIbi p adr) s = .next t ∧ rd t b F.REED_I3CSTAT_IBI = 1 ∧ rd t b F.REED_I3CSTAT_IBIADDR = adr.toNat ∧
      regsBut s t b [F.REED_I3CSTAT_IBI.off] ∧ t.reeds = s.reeds)

/-! ## The host port (chapter 14) -/

/-- R487 to R490, R492, R493: a request of a function is an access of its tag to the control region, with Completer Abort for compute frames
during their reset; a doorbell raises its vector; EN of a window slot is set where its range is free; an FLR and a lost link end sessions
and unload session keys, and an FLR ends the running transfers of its partition, after a write that is held. (The model's readings here: log
entries 2, 41, 82.) -/
def Obligations.HostPort : Prop :=
  ∀ (r : Requester) (f : Fin 17) (addr : BitVec 28) (v : Word) (p : Fin 16) (width speed : BitVec 4) (s : State),
    let b := bHostport
    let u := windowClose s
    let a := addr.toNat
    let blk := a / 0x10000
    let off := a % 0x1000
    let i := winSlot s (tagOf r)
    let vec := fldGet F.HOSTPORT_DOORBELL_VECTOR v
    let en := rdI s b F.HOSTPORT_WINCTL_EN
    (rdB s b F.HOSTPORT_LINK_UP = false → ∀ write, exec (.hostRequest f write addr v) s = .next s) ∧
    (rdB s b F.HOSTPORT_LINK_UP = true → cpResetting s = true → inCompute blk = true →
      exec (.hostRequest f true addr v) s = .next (inc s b F.HOSTPORT_RSTDROP_COUNT) ∧
      exec (.hostRequest f false addr v) s = .next (send s .pcie f [2, 0])) ∧
    (rdB s b F.HOSTPORT_LINK_UP = true → cpResetting s = false ∨ inCompute blk = false →
      (selvCut s blk = true → exec (.hostRequest f true addr v) s = .next (latchFault s b 0x8002) ∧
        exec (.hostRequest f false addr v) s = .next (send (latchFault s b 0x8002) .pcie f [1, 0])) ∧
      (∀ wd : Width, (wd = .word → a % 4 ≠ 0) → (a % 8 = 0 → wd = .other) → selvCut s blk = false →
        exec (.hostRequest f true addr v wd) s = .next s ∧ exec (.hostRequest f false addr v wd) s = .next (send s .pcie f [1, 0])) ∧
      (a % 8 = 0 → viewOf a = some .main → viewOf (a + 4) = some .main →
        (∀ x, let t := putMain u (funReq f) blk off v
          performed s (funReq f) blk off true v = true → performed t (funReq f) blk (off + 4) true x = true →
          exec (.hostRequest f true addr v (.pair x)) s = .next (putMain (windowClose t) (funReq f) blk (off + 4) x)) ∧
        (∀ x, let y := readMain u (funReq f) blk off
          let z := readMain (windowClose y.2) (funReq f) blk (off + 4)
          performed s (funReq f) blk off false 0 = true → performed y.2 (funReq f) blk (off + 4) false 0 = true →
          exec (.hostRequest f false addr v (.pair x)) s = .next (send z.2 .pcie f [0, y.1.toNat, z.1.toNat]))) ∧
      (a % 4 = 0 → viewOf a = some .main →
        (performed s (funReq f) blk off true v = true → exec (.hostRequest f true addr v) s = .next (putMain u (funReq f) blk off v)) ∧
        (performed s (funReq f) blk off false 0 = true → exec (.hostRequest f false addr v) s =
          .next (send (readMain u (funReq f) blk off).2 .pcie f [0, (readMain u (funReq f) blk off).1.toNat])) ∧
        (performed s (funReq f) blk off false 0 = false → ∃ t, exec (.hostRequest f false addr v) s = .next t ∧ ⟨.pcie, f.val, [1, 0]⟩ ∈ t.out))) ∧
    (performed s r b F.HOSTPORT_DOORBELL_VECTOR.off true v = true → ∃ t, exec (.hostportDoorbell r v) s = .next t ∧ okResp r 0 ∈ t.out ∧
      (∀ q, r = .part q → 1 ≤ vec → vec ≤ 7 → ⟨.msix, q.val + 1, [vec]⟩ ∈ t.out) ∧
      (r = .device → 1 ≤ vec → ⟨.msix, 0, [vec]⟩ ∈ t.out) ∧
      (bit (rd s bPower F.POWER_WAKEEN_EN) 6 = false → answered r u t)) ∧
    (performed s r b F.HOSTPORT_WINCTL_EN.off true v = true → ∃ t, exec (.hostportWinctlEnWrite r v) s = .next t ∧ okResp r 0 ∈ t.out ∧
      (fldGet F.HOSTPORT_WINCTL_EN v = 0 → rdI t b F.HOSTPORT_WINCTL_EN i = 0) ∧
      (fldGet F.HOSTPORT_WINCTL_EN v = 1 → windowOk s i = true → rdI t b F.HOSTPORT_WINCTL_EN i = 1) ∧
      (fldGet F.HOSTPORT_WINCTL_EN v = 1 → windowOk s i = false → rdI t b F.HOSTPORT_WINCTL_EN i = en i ∧
        rdI t b F.HOSTPORT_WINSTAT_REFUSED i = 1 ∧ rd t b F.TXNREFUSE_COUNT = (rd s b F.TXNREFUSE_COUNT + 1) % 2 ^ 32) ∧
      (∀ j, j ≠ i → j < 64 → rdI t b F.HOSTPORT_WINCTL_EN j = en j) ∧ t.mem = s.mem ∧ t.looms = s.looms) ∧
    (∃ t, exec (.pcieFlr p) s = .next t ∧ spdmSess t (p.val + 1) = SpdmSess.reset ∧ (sessKey t p).loaded = false ∧
      (∀ j, j < 64 → rdI t b F.HOSTPORT_WINCTL_EN j = if rdI s b F.HOSTPORT_WINCTL_PART j = p.val then 0 else en j) ∧
      (∀ k q, k ∈ [56, 57, 58, 59] → (sh s k).run = some q → q.tag = p.val →
        (sh t k).run = none ∨ ∃ res held, (sh t k).wait = some (res, held) ∧ (held = false → res.code = scAborted)) ∧
      ∀ q : Fin 16, q ≠ p → sessKey t q = sessKey s q) ∧
    (rdB s b F.HOSTPORT_LINK_UP = true → ∃ t, exec .pcieLinkDown s = .next t ∧ rd t b F.HOSTPORT_LINK_UP = 0 ∧ rd t b F.HOSTPORT_LINK_WIDTH = 0 ∧
      rd t b F.HOSTPORT_LINK_SPEED = 0 ∧ rd t b F.FAULTCAUSE_VALID = 1 ∧ (∀ j, j < 17 → spdmSess t j = SpdmSess.reset) ∧
      ∀ q, q < 16 → (sessKey t q).loaded = false) ∧
    (rdB s b F.HOSTPORT_LINK_UP = false → exec .pcieLinkDown s = .next s) ∧
    (rdB s b F.STATE_READY = true → ∃ t, exec (.pcieLinkUp width speed) s = .next t ∧ rd t b F.HOSTPORT_LINK_UP = 1 ∧
      rd t b F.HOSTPORT_LINK_WIDTH = width.toNat ∧ rd t b F.HOSTPORT_LINK_SPEED = speed.toNat ∧ t = { s with regs := t.regs } ∧
      regsBut s t b [F.HOSTPORT_LINK_UP.off]) ∧
    (rdB s b F.STATE_READY = false → exec (.pcieLinkUp width speed) s = .next s)

/-- R428, R491, R492 (what the messages hold beyond the rules is the model's choice, log entry 65, and the key schedule behind the export
master secret is taken from SPDM itself, log entry 141): Lantern answers each request while the link is up; the algorithms and certificates
offered; a key exchange starts a session in place of the last, FINISH completes it and loads the partition's bounce key, and END_SESSION
unloads it; what needs a session is refused without one. (The model's readings here: log entries 65, 141.) -/
def Obligations.SpdmSessions : Prop :=
  ∀ (f : Fin 17) (slot : BitVec 4) (off len : BitVec 16) (d : List Byte) (s : State),
    let x := spdmSess s f
    let answer := fun (k : Nat) (y : List Byte) => (Host.Outcome.next (send s .spdm f (k :: y.map (·.toNat))) : Out')
    let error := (Host.Outcome.next (send s .spdm f [0x7F]) : Out')
    let all := [Instr.getVersion f, .getCapabilities f, .negotiateAlgorithms f, .getDigests f, .getCertificate f slot off len, .challenge f slot d,
      .getMeasurements f d, .keyExchange f d, .finish f d, .keyUpdate f, .heartbeat f, .endSession f]
    (spdmUp s = false → ∀ c ∈ all, exec c s = .next s) ∧
    (spdmUp s = true →
      exec (.getVersion f) s = answer 0 [0x12] ∧ exec (.getCapabilities f) s = answer 1 [] ∧
      exec (.negotiateAlgorithms f) s = answer 2 (ascii "SHA-512 secp384r1 AES-256-GCM") ∧
      exec (.getDigests f) s = answer 3 (sha512 (certOf s 0) ++ sha512 (certOf s 1)) ∧
      (slot.toNat < 2 → exec (.getCertificate f slot off len) s = answer 4 (((certOf s slot.toNat).drop off.toNat).take len.toNat) ∧
        exec (.challenge f slot d) s = answer 5 (bothSign s (ascii "CHALLENGE" ++ padTo 32 d ++ s.cust.digest))) ∧
      (2 ≤ slot.toNat → exec (.getCertificate f slot off len) s = error ∧ exec (.challenge f slot d) s = error) ∧
      exec (.getMeasurements f d) s = answer 6 (attestBody s d ++ bothSign s (attestBody s d)) ∧
      (s.cust.noEntropy = true → exec (.keyExchange f d) s = error) ∧
      (s.cust.noEntropy = false → ∃ t, exec (.keyExchange f d) s = .next t ∧ (spdmSess t f).pending = true ∧ (spdmSess t f).active = false ∧
        (∀ q, f.val = q + 1 → (sessKey t q).loaded = false) ∧ ∀ j, j ≠ f.val → spdmSess t j = spdmSess s j) ∧
      (x.pending = false ∨ Config.verifies algFinish x.secret [] d = false → exec (.finish f d) s = error) ∧
      (x.pending = true → Config.verifies algFinish x.secret [] d = true → ∃ t, exec (.finish f d) s = .next t ∧ (spdmSess t f).active = true ∧
        (spdmSess t f).pending = false ∧ (f.val = 0 → t.sess = s.sess) ∧
        ∀ q, f.val = q + 1 → (sessKey t q).loaded = true ∧ (sessKey t q).key = leNat (hkdfExpand (exportSecret x.secret (x.hist ++ d)) (ascii "GELNAL BOUNCE" ++ [BitVec.ofNat 8 q]) 32) ∧
          (sessKey t q).gen = ((sessKey s q).gen + 1) % 65536) ∧
      (x.active = true → (∃ t, exec (.keyUpdate f) s = .next t ∧ (spdmSess t f).updates = x.updates + 1 ∧ (spdmSess t f).active = true) ∧
        exec (.heartbeat f) s = answer 10 [] ∧
        ∃ t, exec (.endSession f) s = .next t ∧ spdmSess t f = SpdmSess.reset ∧ ∀ q, f.val = q + 1 → (sessKey t q).loaded = false) ∧
      (x.active = false → exec (.keyUpdate f) s = error ∧ exec (.heartbeat f) s = error ∧ exec (.endSession f) s = error))

/-! ## Vehicle interfaces and the warden port (chapter 14) -/

/-- R76, R494 to R497: TAIL takes what is written; a frame with no entry handed over leaves no trace; one that fits its descriptor is
written and handed back with its length and flags; a transmitted one is handed back, with ERR where its buffer cannot be read; CAN entries
carry the stamp, at most 6 ns old (R24); an edge of the chosen direction sets its event, and asserts the line while it is enabled. (The
model's readings here: log entries 2, 19, 44, 82.) -/
def Obligations.VehicleInterfaces : Prop :=
  ∀ (r : Requester) (m : Fin 4) (ring : Fin 8) (d : List Byte) (v idf dlc : Word) (pin : Fin 32) (rising err : Bool) (s : State),
    let b := bNetio
    let rx := ringIdx ring m true false
    let tx := ringIdx ring m false false
    let crx := ringIdx ring m true true
    let ctx := ringIdx ring m false true
    let desc := fun (i : Nat) => netRead s (ringAt s i 32) 32
    let j := selIndex s r b F.NETIO_RTAIL_TAIL.off
    let bad := err = true ∨ d.length < 64 ∨ 9216 < d.length
    (performed s r b F.NETIO_RTAIL_TAIL.off true v = true → ∃ t, exec (.netioRtailWrite r v) s = .next t ∧ okResp r 0 ∈ t.out ∧
      rdI t b F.NETIO_RTAIL_TAIL j = fldGet F.NETIO_RTAIL_TAIL v ∧ ∀ i, i ≠ j → i < 65536 → rdI t b F.NETIO_RTAIL_TAIL i = rdI s b F.NETIO_RTAIL_TAIL i) ∧
    (ringHas s rx = false → exec (.ethFrameReceive m ring d err) s = .next s) ∧
    (ringHas s rx = true → d ≠ [] → isPtp d = false → ∀ x, (desc rx).1 = some x → bit (fieldAt x 10 2) 0 = true → d.length ≤ fieldAt x 8 2 →
      let w := netWrite (desc rx).2 (fieldAt x 0 8) d
      (¬ bad → w.1 = true → exec (.ethFrameReceive m ring d err) s =
        .next (ringNext (descBack w.2 (ringAt s rx 32) d.length (dSop + dEop) none) rx)) ∧
      (bad → exec (.ethFrameReceive m ring d err) s =
        .next (ringNext (descBack w.2 (ringAt s rx 32) d.length (dSop + dEop + dErr) none) rx))) ∧
    (ringHas s tx = false → exec (.ethFrameTransmitted m ring err) s = .next s) ∧
    (ringHas s tx = true → ∀ x, (desc tx).1 = some x → bit (fieldAt x 10 2) 0 = true → bit (fieldAt x 10 2) 2 = true → bit (fieldAt x 10 2) 3 = false →
      let q := netRead (desc tx).2 (fieldAt x 0 8) (fieldAt x 8 2)
      (∀ y, q.1 = some y → isPtp y = false → exec (.ethFrameTransmitted m ring err) s =
        .next (descBack (send (ringNext q.2 tx) .eth m (y.map (·.toNat))) (ringAt s tx 32) (fieldAt x 8 2)
          (fieldAt x 10 2 % 16 / 2 * 2 + (if err then dErr else 0)) none)) ∧
      (q.1 = none → exec (.ethFrameTransmitted m ring err) s =
        .next (descBack (ringNext q.2 tx) (ringAt s tx 32) (fieldAt x 8 2) (fieldAt x 10 2 % 16 / 2 * 2 + dErr) none))) ∧
    (ringHas s crx = false → exec (.canFrameReceive m ring idf dlc d) s = .next s) ∧
    (ringHas s crx = true →
      let l := ltLagged s
      let w := netWrite l.2 (ringAt s crx 80) (leBytes 4 idf.toNat ++ leBytes 4 dlc.toNat ++ leBytes 8 l.1 ++ padTo 64 d)
      ltNow s - 6 ≤ l.1 ∧ l.1 ≤ ltNow s ∧ (w.1 = true → exec (.canFrameReceive m ring idf dlc d) s = .next (ringNext w.2 crx))) ∧
    (ringHas s ctx = false → exec (.canFrameTransmitted m ring) s = .next s) ∧
    (ringHas s ctx = true → ∀ x, (netRead s (ringAt s ctx 80) 80).1 = some x →
      let l := ltLagged (send (netRead s (ringAt s ctx 80) 80).2 .can m ((x.take 8 ++ x.drop 16).map (·.toNat)))
      exec (.canFrameTransmitted m ring) s = .next (ringNext (netWrite l.2 (ringAt s ctx 80 + 8) (leBytes 8 l.1)).2 ctx)) ∧
    (powered s b = true → ∃ t, exec (.gpioEdge pin rising) s = .next t ∧ rd t b ⟨F.NETIO_GPIN_IN.off, pin, pin⟩ = rising.toNat ∧
      (bit (rd s b F.NETIO_GPEDGE_RISE) pin = rising → rd t b ⟨F.NETIO_GPEVENT_EVENT.off, pin, pin⟩ = 1 ∧
        (bit (rd s b F.NETIO_GPIRQEN_EN) pin = true → ⟨.apc, b, [1]⟩ ∈ t.out) ∧
        (bit (rd s b F.NETIO_GPIRQEN_EN) pin = false → t.out = s.out)) ∧
      (bit (rd s b F.NETIO_GPEDGE_RISE) pin ≠ rising → t.out = s.out ∧ regsBut s t b [F.NETIO_GPIN_IN.off])) ∧
    (powered s b = false → exec (.gpioEdge pin rising) s = .next s)

/-- R498 to R500, R527, R552, R574 (the order of the bytes of an argument is the model's reading, log entry 57): a frame whose CRC fails
does nothing; the commands, their answers and their refusals. (The model's readings here: log entries 57, 82.) -/
def Obligations.WardenFrames : Prop :=
  ∀ (a v key : Word) (off : BitVec 16) (n level k crc : Byte) (s : State),
    let s0 : State := { s with cust := { s.cust with wardenBusy := false } }
    let w := wakeSource s0 1
    let good := fun (code : Nat) (args : List Byte) => wardenUp s = true ∧ crc8 (BitVec.ofNat 8 code :: args) = crc.toNat
    let q := wardenReq
    let blk := a.toNat / 0x10000
    let at_ := a.toNat % 0x1000
    let alive := wardenScrapped w = false
    let bytes := beBytes 4 a.toNat
    let words := if n = 0 then 256 else n.toNat
    let all : List (Instr × Nat × List Byte) := [(.read a crc, 0x10, bytes), (.write a v crc, 0x11, bytes ++ beBytes 4 v.toNat), (.ident crc, 0x20, []),
      (.status crc, 0x21, []), (.dump off n crc, 0x30, beBytes 2 off.toNat ++ [n]), (.reset level k crc, 0x40, [level, k]), (.laseroff k crc, 0x41, [k]),
      (.scrap none key crc, 0x42, beBytes 4 key.toNat)]
    (wardenUp s = false → ∀ c ∈ all, exec c.1 s = .next (send s0 .warden 0 [0xFF])) ∧
    (wardenUp s = true → ∀ c ∈ all, crc8 (BitVec.ofNat 8 c.2.1 :: c.2.2) ≠ crc.toNat → exec c.1 s = .next (wardenSay s0 wsCrcerr [])) ∧
    (good 0x10 bytes →
      (0x10000000 ≤ a.toNat ∨ a.toNat % 4 ≠ 0 → exec (.read a crc) s = .next (wardenSay w wsBadcmd [])) ∧
      (a.toNat < 0x10000000 → a.toNat % 4 = 0 → alive ∨ blk = bFuse →
        (selvCut w blk = true → ∃ t, exec (.read a crc) s = .next t ∧ t.cust.wardenBusy = true ∧ t.out = w.out) ∧
        (viewOf a.toNat = some .main → performed w q blk at_ false 0 = true → exec (.read a crc) s =
          .next (wardenSay (readMain (windowClose w) q blk at_).2 wsOk (beBytes 4 (readMain (windowClose w) q blk at_).1.toNat)))) ∧
      (a.toNat < 0x10000000 → a.toNat % 4 = 0 → ¬ alive → blk ≠ bFuse → exec (.read a crc) s = .next (wardenSay w wsRefusedFrame []))) ∧
    (good 0x11 (bytes ++ beBytes 4 v.toNat) → a.toNat < 0x10000000 → a.toNat % 4 = 0 →
      (alive → viewOf a.toNat = some .main → wardenMay w blk at_ = true → performed w q blk at_ true v = true → exec (.write a v crc) s =
        .next (wardenSay (putMain (windowClose w) q blk at_ v) wsOk [])) ∧
      (¬ alive → exec (.write a v crc) s = .next (wardenSay w wsRefusedFrame [])) ∧
      (gateError w blk at_ true = false → wardenMay w blk at_ = false → exec (.write a v crc) s = .next (wardenSay w wsRefusedFrame []))) ∧
    (good 0x20 [] → exec (.ident crc) s = .next (wardenSay w wsOk ((List.range 4).flatMap (fun i => leBytes 4 (fuse w i).toNat)))) ∧
    (good 0x21 [] → ∃ st rung : Byte, exec (.status crc) s = .next (wardenSay w wsOk [BitVec.ofNat 8 (lifecycle w),
      BitVec.ofNat 8 (w.ll.faultN.toNat + 2 * w.ll.alive.toNat), st, rung])) ∧
    (good 0x30 (beBytes 2 off.toNat ++ [n]) →
      (off.toNat % 4 = 0 → off.toNat + 4 * words ≤ 65536 → exec (.dump off n crc) s =
        .next (wardenSay w wsOk ((List.range (4 * words)).map (fun i => dumpByte w (off.toNat + i))))) ∧
      (off.toNat % 4 ≠ 0 ∨ 65536 < off.toNat + 4 * words → exec (.dump off n crc) s = .next (wardenSay w wsBadcmd []))) ∧
    (good 0x40 [level, k] →
      (k = 0xA5 → level = 2 → alive → exec (.reset level k crc) s = .next (packageReset (wardenSay w wsOk []) false (selfPkg w))) ∧
      (k = 0xA5 → level = 1 → alive → w.pw.enCmp = true → exec (.reset level k crc) s = .next (computeReset (wardenSay w wsOk []))) ∧
      (k ≠ 0xA5 ∨ (level ≠ 1 ∧ level ≠ 2) → exec (.reset level k crc) s = .next (wardenSay w wsBadcmd [])) ∧
      (k = 0xA5 → level = 1 ∨ level = 2 → ¬ alive → exec (.reset level k crc) s = .next (wardenSay w wsRefusedFrame []))) ∧
    (good 0x41 [k] →
      (k = 0xA5 → alive → exec (.laseroff k crc) s = .next (wardenSay (lasLight w false) wsOk []) ∧ rd (lasLight w false) bLaser F.LASER_CTL_LIGHT = 0) ∧
      (k ≠ 0xA5 → exec (.laseroff k crc) s = .next (wardenSay w wsBadcmd [])) ∧
      (k = 0xA5 → ¬ alive → exec (.laseroff k crc) s = .next (wardenSay w wsRefusedFrame []))) ∧
    (good 0x42 (beBytes 4 key.toNat) →
      (key ≠ 0x53435250 → exec (.scrap none key crc) s = .next (wardenSay w wsBadcmd [])) ∧
      (key = 0x53435250 → alive →
        ((∀ t0, w.cust.scrapFrame = some t0 → t0 + 10000000 < ltNow w) → exec (.scrap none key crc) s =
          .next (wardenSay { w with cust := { w.cust with scrapFrame := some (ltNow w) } } wsOk [])) ∧
        ∀ t0, w.cust.scrapFrame = some t0 → ltNow w ≤ t0 + 10000000 → ∃ t, exec (.scrap none key crc) s = .next t ∧ lifecycle t = lcScrapped ∧
          rd t bLaser F.LASER_CTL_LIGHT = 0)) ∧
    exec .wardenFrameAbort s = .next s ∧
    (s.cust.wardenBusy = true → exec (.selvedgeRequestTimeout none) s = .next (wardenSay s0 wsTimeoutFrame [])) ∧
    (s.cust.wardenBusy = false → exec (.selvedgeRequestTimeout none) s = .next s)

/-! ## Glimmer links (chapter 15) -/

/-- R507, R508, R513, R514, R519, R526, R527: an enabled port with light probes, trains on at least four lit lanes, and comes UP on eight
lanes or DEGRADED on seven; a failed lane is spared once and a second fails the link; an open fibre returns to probing; the light codes are
seen and sent. (The model's readings here: log entries 2, 83.) -/
def Obligations.GlimmerLinks : Prop :=
  ∀ (r : Requester) (p : PortId) (lane : Fin 8) (dark : Bool) (errs lanes : Nat) (mask : BitVec 8) (pkg : BitVec 4) (port : BitVec 3) (word : Fin 2)
    (m : BitVec 120) (v : Word) (s : State),
    let b := bGlimmer p
    let st := glimState s p
    let x := glim s p
    let stopped := fun (t : State) => glim t p = Glim.reset ∧ glimLanes t p = 0
    let lit := fun (a : Nat) (t : State) => (⟨.light, b, [a]⟩ : Out) ∈ t.out
    let en := rdB s b F.GLIM_CFG_EN
    let wake := rd s b F.GLIM_CFG_SENDWAKE
    let sel := match x.switch with | some y => y.1 | none => glimLanes s p
    let bad := bit sel lane = true ∧ (dark = true ∨ (rd s b F.GLIM_SERTHR_LIMIT ≠ 0 ∧ rd s b F.GLIM_SERTHR_LIMIT < errs))
    let at_ := (x.fseq + 32) % 256
    let good := mask.toNat &&& (0xFF ^^^ badLanes s p)
    (performed s r b F.GLIM_CFG_EN.off true v = true → fldGet F.GLIM_CFG_SENDWAKE v = wake →
      (fldGet F.GLIM_CFG_EN v = 1 → en = false → portFusedOff s p = false → st = gsOff → laserLit s = true →
        ∃ t, exec (.glimCfgEnWrite r p v) s = .next t ∧ okResp r 0 ∈ t.out ∧ rd t b F.GLIM_CFG_EN = 1 ∧ glimState t p = gsProbe ∧ lit laProbe t) ∧
      (fldGet F.GLIM_CFG_EN v = 0 → en = true → portFusedOff s p = false → st ≠ gsOff → st ≠ gsLost →
        ∃ t, exec (.glimCfgEnWrite r p v) s = .next t ∧ okResp r 0 ∈ t.out ∧ rd t b F.GLIM_CFG_EN = 0 ∧ glimState t p = gsOff ∧ lit laDark t ∧ stopped t) ∧
      (fldGet F.GLIM_CFG_EN v = 1 → en = false → portFusedOff s p = true →
        ∃ t, exec (.glimCfgEnWrite r p v) s = .next t ∧ answered r (inc (windowClose s) b F.TXNREFUSE_COUNT) t) ∧
      ((fldGet F.GLIM_CFG_EN v = 1 ↔ en = true) → ∃ t, exec (.glimCfgEnWrite r p v) s = .next t ∧ answered r (windowClose s) t)) ∧
    (performed s r b F.GLIM_CFG_SENDWAKE.off true v = true → (fldGet F.GLIM_CFG_EN v = 1 ↔ en = true) → fldGet F.GLIM_CFG_SENDWAKE v ≠ wake →
      ∃ t, exec (.glimSendwakeWrite r p v) s = .next t ∧ okResp r 0 ∈ t.out ∧ rd t b F.GLIM_CFG_SENDWAKE = fldGet F.GLIM_CFG_SENDWAKE v ∧
        regsBut s t b [F.GLIM_CFG_SENDWAKE.off] ∧
        (st ≠ gsOff → (fldGet F.GLIM_CFG_SENDWAKE v = 1 → lit laWake t) ∧ (fldGet F.GLIM_CFG_SENDWAKE v = 0 → glimLive s p = true → lit laFrames t))) ∧
    (performed s r (bGlimmer 0) (F.GLIM_PKGRT_ENTRY.off + 4 * word) true v = true → ∃ t, exec (.glimPkgrtWrite r word v) s = .next t ∧ okResp r 0 ∈ t.out ∧
      regGet t (bGlimmer 0) (F.GLIM_PKGRT_ENTRY.off + 4 * word) 0 = v ∧ regsBut s t (bGlimmer 0) [F.GLIM_PKGRT_ENTRY.off + 4 * word]) ∧
    (st = gsProbe → 4 ≤ popcount 8 lanes → ∃ t, exec (.glimmerPeerLight p lanes) s = .next t ∧ glimState t p = gsTrain ∧ lit laFull t) ∧
    (st ≠ gsProbe ∨ popcount 8 lanes < 4 → exec (.glimmerPeerLight p lanes) s = .next s) ∧
    (st = gsTrain →
      (7 ≤ popcount 8 good → ∃ t, exec (.glimmerTrainDone p mask pkg port) s = .next t ∧
        glimState t p = (if popcount 8 good = 8 then gsUp else gsDegraded) ∧ glimLanes t p = good ∧ glimPeer t p = pkg.toNat ∧
        rd t b F.GLIM_STAT_PEERPORT = port.toNat ∧ rd t b F.STATE_DEGRADED = (if popcount 8 good = 8 then 0 else 1) ∧ glim t p = Glim.reset) ∧
      ∀ c ∈ [Instr.glimmerTrainTimeout p] ++ (if popcount 8 good < 7 then [.glimmerTrainDone p mask pkg port] else []),
        ∃ t, exec c s = .next t ∧ glimState t p = gsFailed ∧ stopped t ∧ rd t b F.FAULTCAUSE_VALID = 1) ∧
    (st ≠ gsTrain → exec (.glimmerTrainDone p mask pkg port) s = .next s ∧ exec (.glimmerTrainTimeout p) s = .next s) ∧
    (bad → st = gsUp → ∃ t, exec (.glimmerLaneFail p lane dark errs) s = .next t ∧ glimState t p = gsDegraded ∧
      (glim t p).switch = some (sel - 2 ^ lane.val, at_) ∧ (glim t p).q = x.q ++ [mkMark mkLanemap (selfPkg s) false (sel - 2 ^ lane.val + at_ * 2 ^ 8)] ∧
      rd t b F.GLIM_LANESPARE_COUNT = (rd s b F.GLIM_LANESPARE_COUNT + 1) % 2 ^ 32) ∧
    (bad → st = gsDegraded → ∃ t, exec (.glimmerLaneFail p lane dark errs) s = .next t ∧ glimState t p = gsFailed ∧ stopped t ∧ rd t b F.FAULTCAUSE_VALID = 1) ∧
    (¬ bad ∨ glimLive s p = false → exec (.glimmerLaneFail p lane dark errs) s = .next s) ∧
    (glimLive s p = true → ∃ t, exec (.lanemap p m) s = .next t ∧ glimState t p = gsDegraded ∧
      (glim t p).switch = some (bits m.toNat 16 9, bits m.toNat 24 17)) ∧
    (∀ y, x.switch = some y → y.1 < 256 → ∃ t, exec (.lanemapSwitch p) s = .next t ∧ glimLanes t p = y.1 ∧ (glim t p).switch = none ∧ glimState t p = st) ∧
    (x.switch = none → exec (.lanemapSwitch p) s = .next s) ∧
    (glimLive s p = true → ∃ t, exec (.glimmerOpenFibre p) s = .next t ∧ glimState t p = gsProbe ∧ stopped t ∧ lit laDark t ∧
      rd t b F.FAULTCAUSE_VALID = 1 ∧ rd t b F.GLIM_OFSHUT_COUNT = (rd s b F.GLIM_OFSHUT_COUNT + 1) % 2 ^ 32) ∧
    (glimLive s p = false → exec (.glimmerOpenFibre p) s = .next s) ∧
    exec (.probePulseTimer p) s = .next (if st = gsProbe then send s .light b [laProbe] else s) ∧
    (quiet s → ∃ t, exec (.packageLostCodeSeen p) s = .next t ∧ rd t b F.GLIM_STAT_LOSTSEEN = 1 ∧ rd t b F.FAULTCAUSE_VALID = 1 ∧ ⟨.apc, b, [1]⟩ ∈ t.out) ∧
    (∃ t, exec (.wakeCodeSeen p) s = .next t ∧ rd t b F.GLIM_STAT_WAKESEEN = 1 ∧
      (bit (rd s bPower F.POWER_WAKEEN_EN) 2 = false → t = { s with regs := t.regs } ∧ regsBut s t b [F.GLIM_STAT_WAKESEEN.off]))

/-- R188, R195, R196, R203, R507, R509, R511, R512, R515, R518, R521: a mark counts on a live port only; the first copy of a job mark is
kept and forwarded on every other link of the job, repeats and the own marks do nothing, and a HOLDING sent afresh acts again; CLOSED,
HOLDING, ABORT and RESTART of a peer reach the beat engine; TSYNC gives delay and offset; DIGEST is forwarded or gathered; elections note,
repeat and settle. (The model's readings here: log entries 2, 34, 35, 83.) -/
def Obligations.GlimmerMarks : Prop :=
  ∀ (p : PortId) (m : BitVec 120) (n : BitVec 16) (s : State),
    let b := bGlimmer p
    let b0 := bGlimmer 0
    let live := glimLive s p = true
    let as := fun (k : Nat) => m.toNat / 16 * 16 + k
    let o := markOrigin m.toNat
    let others := (jobPorts s).filter (· != p.val)
    let peer := o ∈ jobPeers s
    let fresh := fun (k : Nat) => o ≠ selfPkg s ∧ markId (as k) ∉ s.gpkg.seen
    let kept := fun (k : Nat) (t : State) => markId (as k) ∈ t.gpkg.seen ∧ tabGet 0 t.gpkg.latest o = as k + 1 ∧ ∀ q ∈ others, as k ∈ (glim t q).q
    let jobMarks : List (Instr × Nat) := [(.closed p m, mkClosed), (.holding p m, mkHolding), (.abort p m, mkAbort)]
    let t4 := ltNow s
    let asym := rdS s b F.GLIM_ASYM_ASYM
    let dest := bits m.toNat 94 91
    let fm := rd s b0 F.GLIM_FMSTAT_FM
    let fmv := rdB s b0 F.GLIM_FMSTAT_VALID
    let own := mkMark mkElect (selfPkg s) false (rd s b0 F.GLIM_ELECT_PRIO + (rdB s b0 F.GLIM_ELECT_CAND).toNat * 2 ^ 4 + fm * 2 ^ 5 + fmv.toNat * 2 ^ 9)
    let N := markN m.toNat
    let rp := bits m.toNat 11 9
    let back := (recCnt s rp + 2 ^ 32 - bits m.toNat 43 12) % 2 ^ 32
    let age := (s.beat.n + 65536 - n.toNat) % 65536
    (¬ live → ∀ c ∈ [Instr.mirreq p m, .closed p m, .holding p m, .abort p m, .restart p m, .tsync p m, .digest p m, .elect p m, .lanemap p m],
      exec c s = .next s) ∧
    (live → ∀ c ∈ jobMarks, (¬ fresh c.2 → c.2 ≠ mkHolding ∨ bit m.toNat 8 = true ∨ ¬ peer → exec c.1 s = .next s) ∧
      (fresh c.2 → ¬ peer → ∃ t, exec c.1 s = .next t ∧ kept c.2 t ∧ t.beat = s.beat ∧ t.regs = s.regs)) ∧
    (live → peer → inRun s = true → quiet s →
      (fresh mkClosed → s.beat.n ≤ N → roundOk s = false ∨ (s.beat.localClosed = false ∧ ∃ h ∈ hubsDue s, h ∉ s.beat.hubs) → ∃ t, exec (.closed p m) s = .next t ∧ (N, o) ∈ t.beat.closedPeers) ∧
      (fresh mkHolding ∨ bit m.toNat 8 = false → N = s.beat.n → ∃ t, exec (.holding p m) s = .next t ∧ tabGet 0 t.beat.holdLt o = t4) ∧
      (fresh mkAbort → N = s.beat.n → s.beat.isOpen = true → beatPhase s < 4 → beatState s ≠ stHeld → bit m.toNat 76 = true →
        ∃ t, exec (.abort p m) s = .next t ∧ beatState t = stFaulted) ∧
      (fresh mkAbort → s.beat.n < N ∨ beatState s = stHeld → ∃ t, exec (.abort p m) s = .next t ∧ ⟨N, markR m.toNat, bit m.toNat 76⟩ ∈ t.beat.keptAborts)) ∧
    (live → (glimPeer s p = o → s.beat.n ≤ N → ∃ t, exec (.restart p m) s = .next t ∧ (N, markR m.toNat, p.val) ∈ t.beat.restarts) ∧
      (glimPeer s p ≠ o → ∃ t, exec (.restart p m) s = .next t ∧ t.beat = s.beat ∧ (fresh mkRestart → kept mkRestart t))) ∧
    (live → refPort s ≠ some p.val → ∃ t t4, ltNow s - 6 ≤ t4 ∧ t4 ≤ ltNow s ∧
      let t1 := timeExt t4 (bits m.toNat 80 45)
      let t2 := timeExt t4 (bits m.toNat 116 81)
      let t3 := timeExt t4 (bits m.toNat 44 9)
      exec (.tsync p m) s = .next t ∧ (glim t p).tsync = some (bits m.toNat 44 9, t4) ∧
      rd t b F.GLIM_DELAY_DELAY = toBits 24 (((t2 - t1) + ((t4 : Int) - t3)) * 8 - asym) ∧
      rd t b F.GLIM_OFFSET_OFFSET = toBits 32 (clampI (-(2 ^ 31)) (2 ^ 31 - 1) (((t1 - t2) + ((t4 : Int) - t3)) * 8 + asym)) ∧
      regsBut s t b [F.GLIM_DELAY_DELAY.off, F.GLIM_OFFSET_OFFSET.off] ∧ t.ltime = s.ltime) ∧
    (live → dest ≠ selfPkg s →
      (∀ q, pkgRoute s dest = some q → glimLive s q = true → ∃ t, exec (.digest p m) s = .next t ∧ (glim t q).q = (glim s q).q ++ [as mkDigest] ∧
        t.regs = s.regs) ∧
      (pkgRoute s dest = none → exec (.digest p m) s = .next s)) ∧
    (live → dest = selfPkg s → s.gpkg.quarters = [] → ∃ t, exec (.digest p m) s = .next t ∧
      t.gpkg.quarters = [(o, bits m.toNat 24 9, bits m.toNat 26 25, leBytes 8 (bits m.toNat 90 27))] ∧ t.regs = s.regs) ∧
    (live → (back = 0 → exec (.mirreq p m) s = .next s) ∧
      (1 ≤ back → back ≤ recCnt s rp → back ≤ recCap s rp → 1 ≤ bits m.toNat 59 44 →
        let x := hbmReadRun s (bReed rp) (reedTag s rp) (recAddr s rp (recCnt s rp - back)) 16
        let e := recordEv x.2.2.1
        x.1 = hOk → (glim s p).tq = [] → (glim s p).slots = [] → (glim s p).recs = [] → rdB s b F.GLIM_CFG_SENDWAKE = false →
        ∃ t f, exec (.mirreq p m) s = .next t ∧ ⟨.frame, b, [framePayload f]⟩ ∈ t.out ∧ f.mirror = true ∧
          f.slots = [toBits 64 e.t + e.word % 2 ^ 32 * 2 ^ 64 + (recCnt s rp - back) % 2 ^ 32 * 2 ^ 96 + rp * 2 ^ 256])) ∧
    (live → o ∈ jobPeers s → o ≠ selfPkg s → ∃ t, exec (.elect p m) s = .next t ∧
      electView t o = some ⟨bits m.toNat 12 9, bit m.toNat 13, bits m.toNat 17 14, bit m.toNat 18, t4⟩ ∧ t.regs = s.regs ∧
      (tabGet 0 s.gpkg.electPort o = p.val + 1 → ∀ q ∈ others, as mkElect ∈ (glim t q).q)) ∧
    (live → o = selfPkg s ∨ o ∉ jobPeers s → exec (.elect p m) s = .next s) ∧
    (∃ t, exec .electSendTimer s = .next t ∧ electView t (selfPkg s) = some ⟨rd s b0 F.GLIM_ELECT_PRIO, rdB s b0 F.GLIM_ELECT_CAND, fm, fmv, t4⟩ ∧
      ∀ q ∈ jobPorts s, own ∈ (glim t q).q) ∧
    (s.gpkg.elected = true ∨ t4 < s.gpkg.change + 1000000 → exec .electSettleTimeout s = .next s) ∧
    (s.gpkg.elected = false → s.gpkg.change + 1000000 ≤ t4 → ∀ k, electWinner s = some k → k < 16 → ∃ t, exec .electSettleTimeout s = .next t ∧
      rd t b0 F.GLIM_FMSTAT_FM = k ∧ rd t b0 F.GLIM_FMSTAT_VALID = 1 ∧ t.gpkg.elected = true ∧ ⟨.apc, b0, [1]⟩ ∈ t.out) ∧
    (fmv = true → fm ≠ selfPkg s → (∀ v, electView s fm = some v → v.lt + 1000000 ≤ t4) → ∃ t, exec .fmElectLost s = .next t ∧
      rd t b0 F.GLIM_FMSTAT_VALID = 0 ∧ electView t fm = none ∧ t.gpkg.elected = false) ∧
    (fmv = false ∨ fm = selfPkg s ∨ (∃ v, electView s fm = some v ∧ t4 < v.lt + 1000000) → exec .fmElectLost s = .next s) ∧
    (live → ∃ t, exec (.tsyncSendTimer p) s = .next t ∧ (glim t p).q = (glim s p).q ++ [mkMark mkTsync (selfPkg s) false 0] ∧ t.regs = s.regs) ∧
    (¬ live → exec (.tsyncSendTimer p) s = .next s) ∧
    (p.val ∈ jobPorts s → ∃ t, exec (.jobMarkRepeatTimer p) s = .next t ∧
      (glim t p).q = (glim s p).q ++ s.gpkg.latest.map (fun x => setBits (x.2 - 1) 8 8 1) ∧ t.regs = s.regs) ∧
    (p.val ∉ jobPorts s → exec (.jobMarkRepeatTimer p) s = .next s) ∧
    ((∀ x ∈ s.beat.partner, x.1 ≠ n.toNat) → (∀ x ∈ s.gpkg.quarters, x.2.1 ≠ n.toNat) → exec (.partnerDigestStale n) s = .next s) ∧
    (age ≤ 64 ∨ 32768 ≤ age → exec (.partnerDigestStale n) s = .next s) ∧
    ((∃ x ∈ s.beat.partner, x.1 = n.toNat) → (∀ x ∈ s.gpkg.quarters, x.2.1 ≠ n.toNat) → 64 < age → age < 32768 →
      ∃ t, exec (.partnerDigestStale n) s = .next t ∧ (∀ x ∈ t.beat.partner, x.1 ≠ n.toNat) ∧
        rd t bBeat F.BEAT_DIGSTALE_COUNT = (rd s bBeat F.BEAT_DIGSTALE_COUNT + 1) % 2 ^ 32)

/-- R501 to R506, R519: a frame counts on a live port only, and one that the FEC or the CRC over its 5,140 payload bits fails is counted and
dropped; an accepted one counts, takes its FSEQ and the freed slots of its channel, and a gap in FSEQ cuts the packets in progress; a flit
slot begins, continues or ends its channel's packet, one for another package leaves in a frame of the port of its route, and while a channel
is cut its flits drop up to a tail. (The model's readings here: log entries 36, 83, 142.) -/
def Obligations.GlimmerFrames : Prop :=
  ∀ (p : PortId) (fec : Fin 3) (payload : BitVec 5140) (s : State),
    let b := bGlimmer p
    let x := glim s p
    let f := glimFrameOf payload.toNat
    let good := frameCrcOk payload.toNat = true
    let v := f.fseq % 4
    let run := exec (.glimmerFrameReceive p fec payload) s
    let ce := fun (u : State) => if fec = 1 then inc u b F.GLIM_FECCE_COUNT else u
    (glimLive s p = false → run = .next s) ∧
    (glimLive s p = true → fec = 2 → run = .next (inc s b F.GLIM_FECUE_COUNT)) ∧
    (glimLive s p = true → fec ≠ 2 → ¬ good → run = .next (inc (ce s) b F.GLIM_CRCFAIL_COUNT)) ∧
    (glimLive s p = true → fec ≠ 2 → good → f.slots = [] → f.mark = 0 →
      ∃ t, run = .next t ∧ (glim t p).last = some f.fseq ∧ tabGet 0 (glim t p).freed v = f.freed ∧ tabGet 0 (glim t p).rcvd v = f.sent ∧
        rd t b F.GLIM_FRAMESRX_COUNT = (rd s b F.GLIM_FRAMESRX_COUNT + 1) % 2 ^ 32 ∧
        rd t b F.GLIM_FECCE_COUNT = (rd s b F.GLIM_FECCE_COUNT + if fec = 1 then 1 else 0) % 2 ^ 32 ∧
        ((∀ y, x.last = some y → f.fseq = (y + 1) % 256) → (glim t p).pkt = x.pkt ∧ (glim t p).cut = x.cut ∧
          rd t b F.GLIM_PKTCUT_COUNT = rd s b F.GLIM_PKTCUT_COUNT) ∧
        (∀ y, x.last = some y → f.fseq ≠ (y + 1) % 256 → (∀ c, c < 4 → c ∈ (glim t p).cut ∧ tabGet none (glim t p).pkt c = none))) ∧
    (glimLive s p = true → fec ≠ 2 → good → (∀ y, x.last = some y → f.fseq = (y + 1) % 256) → f.mirror = false → f.mark = 0 → f.ab = 0 →
      ∀ y, f.slots = [y] →
        let w := y % 2 ^ 256
        let c := y / 2 ^ 256 % 4
        let d := y / 2 ^ 258 % 4
        (c ∉ x.cut → d = 0 → ∃ t, run = .next t ∧ tabGet none (glim t p).pkt c = some ⟨w, [], false⟩) ∧
        (c ∉ x.cut → d = 1 → ∀ k, tabGet none x.pkt c = some k → ∃ t, run = .next t ∧
          tabGet none (glim t p).pkt c = some ⟨k.head, k.flits ++ [w], false⟩) ∧
        (c ∉ x.cut → d = 2 → ∀ k, tabGet none x.pkt c = some k → hdrDpkg k.head ≠ selfPkg s → ∀ q, pkgRoute s (hdrDpkg k.head) = some q →
          q ≠ p.val → glimLive s q = true → rdB s (bGlimmer q) F.GLIM_CFG_SENDWAKE = false →
          (glim s q).tq = [] → (glim s q).slots = [] → (glim s q).recs = [] →
          (tabGet 0 (glim s q).sent c + 4096 - tabGet 0 (glim s q).freed c) % 4096 + (2 + k.flits.length) ≤ 2048 → 2 + k.flits.length ≤ 19 →
          ∃ t g, run = .next t ∧ tabGet none (glim t p).pkt c = none ∧ rd t b F.GLIM_TRANSIT_COUNT = (rd s b F.GLIM_TRANSIT_COUNT + 1) % 2 ^ 32 ∧
            ⟨.frame, bGlimmer q, [framePayload g]⟩ ∈ t.out ∧ g.mirror = false ∧ g.fseq = (glim s q).fseq ∧
            g.slots = GlimPkt.slots ⟨k.head, k.flits ++ [w], false⟩ c) ∧
        (c ∈ x.cut → 2 ≤ d → ∃ t, run = .next t ∧ c ∉ (glim t p).cut) ∧
        (c ∈ x.cut → d < 2 → ∃ t, run = .next t ∧ c ∈ (glim t p).cut ∧ (glim t p).pkt = x.pkt))

/-- R523 to R527: a module is read and verified when it comes, and lit when both signatures verify; each lit module gives half while both
are lit; a failed, released or removed one stops; life is counted by the lit hour; LIGHT lets the ports probe, and its end darkens them.
R637: Lamplighter raises its line when a module comes or goes. (The model's readings here: log entries 2, 61, 83, 118.) -/
def Obligations.LaserModules : Prop :=
  ∀ (r : Requester) (m : Fin 2) (serial powered hot drift caset : Nat) (rec_ sigEd sigMl : List Byte) (v : Word) (s : State),
    let b := bLaser
    let st := lasState s m
    let other := 1 - m.val
    let x := las s m
    let verifies := Config.verifies algEd25519 (ascii "laser-module root") (sha512 x.record) x.sigEd = true ∧
      Config.verifies algMlDsa (ascii "laser-module root") (sha512 x.record) x.sigMl = true
    let old := tabGet (0, 0) s.nv.life serial
    let p := rdI s b F.LASER_POWERED_HOURS m + 1
    let h := rdI s b F.LASER_HOT_HOURS m + (if 70 < sext 8 caset then 1 else 0)
    let shared := fun (t : State) => ∀ k, k < 2 → ((las t k).full = true ↔ lasState t k = lmLit ∧ lasState t (1 - k) ≠ lmLit)
    let off := fun (t : State) => rd t b F.LASER_CTL_LIGHT = 0 ∨ (lasState t 0 ≠ lmLit ∧ lasState t 1 ≠ lmLit)
    let dark := fun (t : State) => off t → ∀ q, q < 8 → glimState t q = gsOff
    (st = lmAbsent → max powered old.1 < 2 ^ 32 → max hot old.2 < 2 ^ 32 → ∃ t,
      exec (.laserModuleInsert m serial rec_ sigEd sigMl powered hot drift) s = .next t ∧ lasState t m = lmVerifying ∧
      las t m = ⟨serial, rec_, sigEd, sigMl, false⟩ ∧ rdI t b F.LASER_POWERED_HOURS m = max powered old.1 ∧
      rdI t b F.LASER_HOT_HOURS m = max hot old.2 ∧ t.out = s.out ++ (if llRuns s then [⟨.apc, bLamplighter, [1]⟩] else [])) ∧
    (st ≠ lmAbsent → exec (.laserModuleInsert m serial rec_ sigEd sigMl powered hot drift) s = .next s) ∧
    (st = lmVerifying → verifies → ∃ t, exec (.laserModuleVerified m) s = .next t ∧ lasState t m = lmLit ∧ lasState t other = lasState s other ∧ shared t) ∧
    (st = lmVerifying → ¬ verifies → ∃ t, exec (.laserModuleVerified m) s = .next t ∧ lasState t m = lmRefused ∧ rd t b F.FAULTCAUSE_VALID = 1 ∧
      t.glims = s.glims) ∧
    (st ≠ lmVerifying → exec (.laserModuleVerified m) s = .next s) ∧
    (st = lmLit → ∃ t, exec (.laserModuleFail m) s = .next t ∧ lasState t m = lmFailed ∧ rd t b F.FAULTCAUSE_VALID = 1 ∧ shared t ∧ dark t) ∧
    (st ≠ lmLit → exec (.laserModuleFail m) s = .next s) ∧
    (st ≠ lmAbsent → ∃ t, exec (.laserModuleRemove m) s = .next t ∧ lasState t m = lmAbsent ∧ rdI t b F.LASER_POWERED_HOURS m = 0 ∧
      rdI t b F.LASER_HOT_HOURS m = 0 ∧ bit (rd t b F.LASER_CTL_RELEASE) m = false ∧ shared t ∧ dark t ∧
      (llRuns s = true → ⟨.apc, bLamplighter, [1]⟩ ∈ t.out)) ∧
    (st = lmAbsent → exec (.laserModuleRemove m) s = .next s) ∧
    (st = lmLit → p < 2 ^ 32 → h < 2 ^ 32 → ∃ t, exec (.laserLifeHour m drift caset) s = .next t ∧ rdI t b F.LASER_POWERED_HOURS m = p ∧
      rdI t b F.LASER_HOT_HOURS m = h ∧ tabGet (0, 0) t.nv.life x.serial = (p, h) ∧ lasState t m = lmLit ∧
      ⟨.light, b, [6, m.val, p, h]⟩ ∈ t.out ∧
      (x.serial ∉ s.nv.worn → 40000 ≤ p + h ∨ 100 ≤ sext 16 (rdI t b F.LASER_DRIFT_PERMILLE m) → rd t b F.FAULTCAUSE_VALID = 1 ∧
        x.serial ∈ t.nv.worn) ∧
      (p + h < 40000 → sext 16 (rdI t b F.LASER_DRIFT_PERMILLE m) < 100 → las t m = x ∧ t.out = s.out ++ [⟨.light, b, [6, m.val, p, h]⟩])) ∧
    (st ≠ lmLit → exec (.laserLifeHour m drift caset) s = .next s) ∧
    (performed s r b F.LASER_CTL_LIGHT.off true v = true → isCustody r = true → bits (fldGet F.LASER_CTL_RELEASE v) 1 0 = 0 →
      ∃ t, exec (.laserCtlLightWrite r v) s = .next t ∧ okResp r 0 ∈ t.out ∧ rd t b F.LASER_CTL_LIGHT = fldGet F.LASER_CTL_LIGHT v ∧
        (∀ k, k < 2 → lasState t k = lasState s k) ∧ dark t ∧
        (laserLit t = true → ∀ q, q < 8 → glimState s q = gsOff → rdB s (bGlimmer q) F.GLIM_CFG_EN = true → glimState t q = gsProbe)) ∧
    (let w := fldSet F.LASER_CTL_LIGHT v (rd s b F.LASER_CTL_LIGHT)
     performed s r b F.LASER_CTL_RELEASE.off true w = true → isCustody r = true → bits (fldGet F.LASER_CTL_RELEASE v) 1 0 = 2 ^ m.val →
      (st ≠ lmAbsent → st ≠ lmReleased → ∃ t, exec (.laserCtlRelease r v) s = .next t ∧ okResp r 0 ∈ t.out ∧ lasState t m = lmReleased ∧
        bit (rd t b F.LASER_CTL_RELEASE) m = true ∧
        rd t b (modField m F.LASER_MOD_READYOUT0 F.LASER_MOD_READYOUT1) = 1 ∧ lasState t other = lasState s other ∧ shared t) ∧
      (st = lmAbsent ∨ st = lmReleased → ∃ t, exec (.laserCtlRelease r v) s = .next t ∧ okResp r 0 ∈ t.out ∧ ∀ k, k < 2 → lasState t k = lasState s k))

/-! ## The timer block (chapter 16) -/

/-- R534 to R544, R548: every PRESCALE + 1 cycles of a source give a tick; a tick that the gate lets through counts up, or wraps at the
RELOAD in force, where a pending reload takes effect; the actions move OUT and a match needs a tick that brings the counter to CMP; EN
starts a channel; a RELOAD waits; an edge of a pin is captured in every channel whose CAPPIN names it; reads of captures; TIMER_STARTGO and
its time; the debug halt. (The model's readings here: log entries 2, 84.) -/
def Obligations.Timers : Prop :=
  ∀ (r : Requester) (c k : TimId) (pins : BitVec 24) (v : Word) (rising halted : Bool) (s : State),
    let b := bTimer
    let x := fun (f : Fld) => rdT s c f
    let src := x F.TIMER_CTL_CLKSRC
    let n := x F.TIMER_COUNT_COUNT
    let wrap := n = reloadNow s c
    let n' := if wrap then 0 else (n + 1) % 2 ^ 32
    let hit := n' = x F.TIMER_CMP_CMP
    let due := tabGet 0 s.tim.last c + (x F.TIMER_PRESCALE_DIV : Int) + 1
    let pre := tabGet 0 s.tim.presc c
    let full := x F.TIMER_PRESCALE_DIV ≤ pre
    let now : Int := ltAt s b
    let o := bit s.tim.out c
    let late := timStartAt s < ltAt s b
    let tick := exec (.timerTick c pins) s
    let kept := fun (f : Fld) (t : State) => maskBit t f c = maskBit s f c
    let pulse := src = 1 ∨ (src = 2 ∧ x F.TIMER_CTL_OUTEN = 0)
    (pulse ∧ full ∨ (src = 0 ∧ due ≤ now) → timCounts s c = true → gateOpen s pins.toNat c = true →
      (c.val ∉ s.tim.imm ∨ maskBit s F.TIMER_RLDPEND_PEND c = false) → rdT s ((c.val + 1) % 24) F.TIMER_CTL_CLKSRC ≠ 3 →
      ∃ t, tick = .next t ∧ rdT t c F.TIMER_COUNT_COUNT = n' ∧
        (wrap → maskBit t F.TIMER_EVWRAP_EV c = true ∧ (maskBit s F.TIMER_RLDPEND_PEND c = true → reloadNow t c = x F.TIMER_RELOAD_RELOAD ∧
          maskBit t F.TIMER_RLDPEND_PEND c = false)) ∧
        (¬ wrap → kept F.TIMER_EVWRAP_EV t ∧ kept F.TIMER_RLDPEND_PEND t ∧ reloadNow t c = reloadNow s c) ∧
        (hit → maskBit t F.TIMER_EVMATCH_EV c = true) ∧ (¬ hit → kept F.TIMER_EVMATCH_EV t) ∧
        bit t.tim.out c = outLevel (if hit then x F.TIMER_CTL_MATCHACT else 0)
          (outLevel (if wrap then x F.TIMER_CTL_WRAPACT else 0) o)) ∧
    (pulse → x F.TIMER_CTL_EN = 0 ∨ maskBit s F.TIMER_WAITING_WAIT c = true → tick = .next s) ∧
    (pulse → x F.TIMER_CTL_EN = 1 → maskBit s F.TIMER_WAITING_WAIT c = false →
      (¬ full → tick = .next { s with tim := { s.tim with presc := tabSet 0 s.tim.presc c (pre + 1) } }) ∧
      (full → timCounts s c = false ∨ gateOpen s pins.toNat c = false →
        tick = .next { s with tim := { s.tim with presc := tabSet 0 s.tim.presc c 0 } })) ∧
    (src = 3 ∨ (src = 2 ∧ x F.TIMER_CTL_OUTEN = 1) ∨ (src = 0 ∧ now < due) → tick = .next s) ∧
    (let w := fldSet F.TIMER_CTL_EN v 1
     performed s r b (tf F.TIMER_CTL_EN c).off true w = true → rd s b F.TXN_TSTATE = tsIdle →
      (timCtlBad w = true → ∃ t, exec (.timerEnable r c v) s = .next t ∧ answered r (inc (windowClose s) b F.TXNREFUSE_COUNT) t) ∧
      (timCtlBad w = false → x F.TIMER_CTL_EN = 0 → ∃ t, exec (.timerEnable r c v) s = .next t ∧ okResp r 0 ∈ t.out ∧ rdT t c F.TIMER_CTL_EN = 1 ∧
        rdT t c F.TIMER_COUNT_COUNT = 0 ∧ bit t.tim.out c = decide (fldGet F.TIMER_CTL_INIT v = 1) ∧ maskBit t F.TIMER_RLDPEND_PEND c = false ∧
        kept F.TIMER_EVWRAP_EV t ∧ kept F.TIMER_EVMATCH_EV t)) ∧
    (performed s r b (tf F.TIMER_RELOAD_RELOAD c).off true v = true → rd s b F.TXN_TSTATE = tsIdle →
      ∃ t, exec (.timerReloadWrite r c v) s = .next t ∧ okResp r 0 ∈ t.out ∧ rdT t c F.TIMER_RELOAD_RELOAD = v.toNat ∧
        maskBit t F.TIMER_RLDPEND_PEND c = true ∧ reloadNow t c = reloadNow s c ∧ rdT t c F.TIMER_COUNT_COUNT = n ∧
        (c.val ∈ t.tim.imm ↔ rdB s b F.CONTROL_EXPERT = true ∧ maskBit s F.TIMER_IMMED_IMMED c = true)) ∧
    (performed s r b (tf F.TIMER_CMP_CMP c).off true v = true → rd s b F.TXN_TSTATE = tsIdle →
      ∃ t, exec (.timerCmpWrite r c v) s = .next t ∧ okResp r 0 ∈ t.out ∧ rdT t c F.TIMER_CMP_CMP = v.toNat ∧ t.tim = s.tim ∧
        rdT t c F.TIMER_COUNT_COUNT = n ∧ kept F.TIMER_EVMATCH_EV t) ∧
    (x F.TIMER_CTL_CAPPIN = k → capSelects (x F.TIMER_CTL_CAPEDGE) rising = true → ltNow s < 2 ^ 64 →
      ∃ t, exec (.timerCaptureEdge k rising) s = .next t ∧
      rdT t c F.TIMER_CAP_CAP = n ∧ maskBit t F.TIMER_CAPFRESH_FRESH c = true ∧ maskBit t F.TIMER_EVCAP_EV c = true ∧
      rdPair t b (tf F.TIMER_CAPLT_LO_LT c) (tf F.TIMER_CAPLT_HI_LT c) ≤ ltNow s ∧
      ltNow s ≤ rdPair t b (tf F.TIMER_CAPLT_LO_LT c) (tf F.TIMER_CAPLT_HI_LT c) + 8 ∧
      rd t b (fAt F.TIMER_CAPLOST_COUNT c) =
        (rd s b (fAt F.TIMER_CAPLOST_COUNT c) + (if maskBit s F.TIMER_CAPFRESH_FRESH c then 1 else 0)) % 2 ^ 32) ∧
    (x F.TIMER_CTL_CAPPIN ≠ k ∨ capSelects (x F.TIMER_CTL_CAPEDGE) rising = false → ∃ t, exec (.timerCaptureEdge k rising) s = .next t ∧
      rdT t c F.TIMER_CAP_CAP = x F.TIMER_CAP_CAP ∧ kept F.TIMER_CAPFRESH_FRESH t ∧ kept F.TIMER_EVCAP_EV t) ∧
    (performed s r b (tf F.TIMER_CAP_CAP c).off false 0 = true → ∃ t, exec (.timerCapRead r c) s = .next t ∧
      okResp r (x F.TIMER_CAP_CAP) ∈ t.out ∧ maskBit t F.TIMER_CAPFRESH_FRESH c = false ∧
      timCapLt t (tagOf r) c = rdPair s b (tf F.TIMER_CAPLT_LO_LT c) (tf F.TIMER_CAPLT_HI_LT c)) ∧
    (performed s r b F.TIMER_STARTGO_MASK.off true v = true → ∃ t, exec (.timerStartgo r v) s = .next t ∧ okResp r 0 ∈ t.out ∧
      (bit v.toNat c = true → x F.TIMER_CTL_EN = 1 → rdT t c F.TIMER_COUNT_COUNT = 0 ∧ bit t.tim.out c = decide (x F.TIMER_CTL_INIT = 1) ∧
        (late → maskBit t F.TIMER_STARTLATE_LATE c = true ∧ maskBit t F.TIMER_WAITING_WAIT c = false) ∧
        (¬ late → maskBit t F.TIMER_WAITING_WAIT c = true)) ∧
      (bit v.toNat c = false ∨ x F.TIMER_CTL_EN = 0 → rdT t c F.TIMER_COUNT_COUNT = n ∧ kept F.TIMER_WAITING_WAIT t ∧ bit t.tim.out c = o)) ∧
    (ltAt s b < timStartAt s → exec .timerStartTime s = .next s) ∧
    (timStartAt s ≤ ltAt s b → ∃ t, exec .timerStartTime s = .next t ∧ maskBit t F.TIMER_WAITING_WAIT c = false ∧
      (maskBit s F.TIMER_WAITING_WAIT c = true → rdT t c F.TIMER_COUNT_COUNT = 0 ∧ bit t.tim.out c = decide (x F.TIMER_CTL_INIT = 1)) ∧
      (maskBit s F.TIMER_WAITING_WAIT c = false → rdT t c F.TIMER_COUNT_COUNT = n ∧ bit t.tim.out c = o)) ∧
    (∃ t, exec (.timerDebugHalt halted) s = .next t ∧ rd t b F.TIMER_FROZEN_HALT = (halted && forceOk s .device).toNat ∧
      regsBut s t b [F.TIMER_FROZEN_HALT.off] ∧ t.tim = s.tim)

/-! ## Custody (chapter 17) -/

/-- R551, R558 to R561, R564 to R569, R574 to R576, R599: a command is refused while one runs, and in a scrapped part; its result is
published when it ends. An accepted image has the form, the hash, both signatures and an SVN not below the fused one, and is measured;
SVNCOMMIT blows the SVN; moves blow the lifecycle bit, ask for a wipe and reset the package; SCRAP scraps. How the effect and its
publication divide is the model's choice (log entry 62). (The model's readings here: log entries 62, 118.) -/
def Obligations.CustodyCommands : Prop :=
  ∀ (r : Requester) (secs : List (Nat × Nat × Nat)) (key v : Word) (crc : Byte) (ed ml : List Byte) (s : State),
    let b := bCustody
    let u := windowClose s
    let may := fun (code : Nat) => performed s r b F.CUSTODY_CMD_CODE.off true (BitVec.ofNat 32 code) = true
    let ready := rdB s b F.CUSTODY_CSTAT_BUSY = false ∧ s.ll.lanternGone = false ∧ lifecycle s ≠ lcScrapped
    let ran := fun (code res : Nat) (y t : State) =>
      answered r (modCust (wr y b F.CUSTODY_CSTAT_BUSY 1) (fun c => { c with run := some (code, res) })) t
    let scrap := custArg s 0 = 0x53435250
    let all : List (Instr × Nat) := [(.verify r secs, 0x01), (.svncommit r, 0x02), (.attest r, 0x03), (.pcreate r, 0x10), (.pactivate r, 0x11),
      (.psuspend r, 0x12), (.pdestroy r, 0x13), (.passign r, 0x14), (.prelease r, 0x15), (.nonce r, 0x20), (.lcmove r, 0x21), (.ownerkey r, 0x22),
      (.relock r, 0x23), (.provision r ed ml, 0x24), (.lcinit r, 0x25), (.scrap (some r) key crc, 0x2F)]
    let img := imageCheck u (custBuf s)
    let h := img.2.1
    let kind := custArg s 0
    let tok := tokenCheck u
    let moved := fun (c : Instr) (lc : Nat) => ∃ t, exec c s = .next t ∧ okResp r 0 ∈ t.out ∧ lifecycle t = lc ∧ t.nv.wipepend = true ∧ t.boot.active = true ∧
      t.looms = [] ∧ t.mem = MemSt.reset
    (∀ c ∈ all, may c.2 → (c.2 = 0x2F → ¬ scrap) →
      (rdB s b F.CUSTODY_CSTAT_BUSY = true → ∃ t, exec c.1 s = .next t ∧ answered r (wr u b F.CUSTODY_CSTAT_RESULT crBusy) t) ∧
      (rdB s b F.CUSTODY_CSTAT_BUSY = false → s.ll.lanternGone = false → lifecycle s = lcScrapped →
        ∃ t, exec c.1 s = .next t ∧ ran c.2 crRefused u t)) ∧
    (ready → may 0x01 →
      (img.1 ≠ crOk → ∃ t, exec (.verify r secs) s = .next t ∧ ran 0x01 img.1 (inc img.2.2 b F.CUSTODY_VREFUSE_COUNT) t) ∧
      (img.1 = crOk → fieldAt h 4 1 ≠ 4 → imageForm u h = true ∧ sha512 (h.take 192) = (h.drop 192).take 64 ∧ fusedSvn s (fieldAt h 4 1) ≤ fieldAt h 6 2 ∧
        ∃ t, exec (.verify r secs) s = .next t ∧ ran 0x01 crOk (measure img.2.2 h) t)) ∧
    (ready → may 0x02 →
      (kind < 1 ∨ 4 < kind → ∃ t, exec (.svncommit r) s = .next t ∧ ran 0x02 crBadcmd u t) ∧
      (1 ≤ kind → kind ≤ 4 → ∀ v, tabGet 0 s.cust.accepted kind = v + 1 → v ≤ 64 → ∃ t, exec (.svncommit r) s = .next t ∧
        (t.cust.run = some (0x02, crOk)) ∧ v ≤ fusedSvn t kind ∧ ∀ i, fuse s i &&& fuse t i = fuse s i)) ∧
    (ready → may 0x03 → (custRead u (custBuf s) 32).1 = none → ∃ t, exec (.attest r) s = .next t ∧ t.cust.run = some (0x03, crBadcmd)) ∧
    (ready → may 0x03 → ∀ n, (custRead u (custBuf s) 32).1 = some n →
      let y := (custRead u (custBuf s) 32).2
      let body := attestBody y n
      let w := custWrite y (custBuf s) (body ++ selfSign y algEd25519 body ++ selfSign y algMlDsa body)
      w.1 = true → ∃ t, exec (.attest r) s = .next t ∧ ran 0x03 crOk w.2 t) ∧
    (ready → may 0x20 → (s.cust.noEntropy = true → ∃ t, exec (.nonce r) s = .next t ∧ ran 0x20 crNoentropy u t) ∧
      (s.cust.noEntropy = false → ∃ t n, exec (.nonce r) s = .next t ∧ t.cust.nonce = some (n, ltNow s) ∧ n.length = 32)) ∧
    ((∀ n t0, s.cust.nonce = some (n, t0) → ltNow s < t0 + 600000000000) → exec .nonceExpiry s = .next s) ∧
    (∀ n t0, s.cust.nonce = some (n, t0) → t0 + 600000000000 ≤ ltNow s → exec .nonceExpiry s = .next { s with cust := { s.cust with nonce := none } }) ∧
    (ready → may 0x21 → moveMay (lifecycle s) kind = true → (tok kind 1 true).1 = crOk → moved (.lcmove r) kind) ∧
    (ready → may 0x21 → moveMay (lifecycle s) kind = false → ∃ t, exec (.lcmove r) s = .next t ∧ t.cust.run = some (0x21, crBadmove) ∧
      t.nv = s.nv ∧ rd t b F.CUSTODY_LCREFUSE_COUNT = (rd s b F.CUSTODY_LCREFUSE_COUNT + 1) % 2 ^ 32) ∧
    (ready → may 0x22 →
      (lifecycle s ≠ lcProvisioned → ∃ t, exec (.ownerkey r) s = .next t ∧ ran 0x22 crRefused u t) ∧
      (lifecycle s = lcProvisioned → bit (fuse s 0x15).toNat 0 = true → ∃ t, exec (.ownerkey r) s = .next t ∧ ran 0x22 crAlready u t) ∧
      (lifecycle s = lcProvisioned → bit (fuse s 0x15).toNat 0 = false → ∀ d, (custRead u (custBuf s) 1984).1 = some d →
        ∃ t, exec (.ownerkey r) s = .next t ∧ t.cust.run = some (0x22, crOk) ∧ bit (fuse t 0x15).toNat 0 = true ∧ ∀ i, fuse s i &&& fuse t i = fuse s i)) ∧
    (ready → may 0x23 → (lifecycle s = lcFieldDebug → moved (.relock r) lcField) ∧
      (lifecycle s ≠ lcFieldDebug → ∃ t, exec (.relock r) s = .next t ∧ ran 0x23 crRefused u t)) ∧
    (ready → may 0x24 → (lifecycle s = lcTest → (tok lcProvisioned 0 true).1 = crOk → moved (.provision r ed ml) lcProvisioned) ∧
      (lifecycle s ≠ lcTest → ∃ t, exec (.provision r ed ml) s = .next t ∧ ran 0x24 crRefused u t)) ∧
    (ready → may 0x25 → (lifecycle s = lcBlank → r = .custody .warden → moved (.lcinit r) lcTest) ∧
      (lifecycle s ≠ lcBlank ∨ r ≠ .custody .warden → ∃ t, exec (.lcinit r) s = .next t ∧ ran 0x25 crRefused u t)) ∧
    (may 0x2F → scrap → lifecycle s ≠ lcScrapped → ∃ t, exec (.scrap (some r) key crc) s = .next t ∧ okResp r 0 ∈ t.out ∧ lifecycle t = lcScrapped ∧
      t.nv.life = [] ∧ t.nv.trec = [] ∧ t.nv.certs = [] ∧ t.nv.ckpt = [] ∧ rd t bLaser F.LASER_CTL_LIGHT = 0 ∧ ∀ p, p < 16 → (sessKey t p).loaded = false) ∧
    (ready → may 0x2F → ¬ scrap → ∃ t, exec (.scrap (some r) key crc) s = .next t ∧ ran 0x2F crBadcmd u t) ∧
    (∀ code res, s.cust.run = some (code, res) → res < 256 → (code ≠ 0x13 ∧ code ≠ 0x15) ∨ s.cust.releasing = [] →
      ∃ t, exec .custodyCommandDone s = .next t ∧ rd t b F.CUSTODY_CSTAT_RESULT = res ∧ rd t b F.CUSTODY_CSTAT_BUSY = 0 ∧ rd t b F.CUSTODY_CSTAT_DONE = 1 ∧
        t.cust = { s.cust with run := none } ∧ t.out = s.out ++ [⟨.apc, b, [1]⟩]) ∧
    (∀ code res, s.cust.run = some (code, res) → code = 0x13 ∨ code = 0x15 → s.cust.releasing ≠ [] → exec .custodyCommandDone s = .next s) ∧
    (s.cust.run = none → exec .custodyCommandDone s = .next s) ∧
    (∃ t, exec .trngHealthFail s = .next t ∧ t.cust = { s.cust with noEntropy := true } ∧ rd t b F.FAULTCAUSE_VALID = 1) ∧
    exec .drbgReseed s = .next { s with cust := { s.cust with noEntropy := false } } ∧
    (performed s r bFuse F.FUSE_TRECINV_GO.off true (fldSet F.FUSE_TRECINV_GO v 1) = true → isCustody r = true → ∃ t, exec (.fuseTrecinv r v) s = .next t ∧
      answered r { u with nv := { s.nv with trec := [] } } t)

/-- R400, R445, R571 to R573, R576: a partition is created from FREE with its key, switched between SUSPENDED and ACTIVE with its lamps
zeroed, given free resources while it is SUSPENDED, and gives them back wiped. The results for other states are the model's choice (log
entry 62). (The model's readings here: log entries 62, 85, 118.) -/
def Obligations.Partitions : Prop :=
  ∀ (r : Requester) (s : State),
    let u := windowClose s
    let p := custArg s 0
    let kind := custArg s 1
    let a2 := custArg s 2
    let a3 := custArg s 3
    let st := partState s p
    let may := fun (code : Nat) => performed s r bCustody F.CUSTODY_CMD_CODE.off true (BitVec.ofNat 32 code) = true ∧
      rdB s bCustody F.CUSTODY_CSTAT_BUSY = false ∧ s.ll.lanternGone = false ∧ lifecycle s ≠ lcScrapped
    let ran := fun (code res : Nat) (y t : State) =>
      answered r (modCust (wr y bCustody F.CUSTODY_CSTAT_BUSY 1) (fun c => { c with run := some (code, res) })) t
    let others := fun (t : State) => ∀ q, q < 16 → q ≠ p → partState t q = partState s q
    let all : List (Instr × Nat) := [(.pcreate r, 0x10), (.pactivate r, 0x11), (.psuspend r, 0x12), (.pdestroy r, 0x13), (.passign r, 0x14), (.prelease r, 0x15)]
    let gives := fun (t : State) => t.cust.run = some (0x14, crOk) ∧ okResp r 0 ∈ t.out
    let back := fun (t : State) => t.cust.run = some (0x15, crOk) ∧ okResp r 0 ∈ t.out
    (∀ c ∈ all, may c.2 → 16 ≤ p → ∃ t, exec c.1 s = .next t ∧ ran c.2 crBadcmd u t) ∧
    (may 0x10 → p < 16 →
      (st ≠ psFree → ∃ t, exec (.pcreate r) s = .next t ∧ ran 0x10 crAlready u t) ∧
      (st = psFree → s.cust.noEntropy = true → ∃ t, exec (.pcreate r) s = .next t ∧ ran 0x10 crNoentropy u t) ∧
      (st = psFree → s.cust.noEntropy = false → ∃ t, exec (.pcreate r) s = .next t ∧ t.cust.run = some (0x10, crOk) ∧ partState t p = psSuspended ∧
        slotLoaded t (1 + p) = true ∧ tabGet 0 t.mem.keygen (1 + p) = (tabGet 0 s.mem.keygen (1 + p) + 1) % 65536 ∧ others t)) ∧
    (may 0x11 → p < 16 →
      (st = psSuspended → ∃ t, exec (.pactivate r) s = .next t ∧ t.cust.run = some (0x11, crOk) ∧ partState t p = psActive ∧ others t ∧ t.mem = s.mem) ∧
      (st ≠ psSuspended → ∃ t, exec (.pactivate r) s = .next t ∧ ran 0x11 crNotsuspended u t)) ∧
    (may 0x12 → p < 16 →
      (st = psActive → ∃ t, exec (.psuspend r) s = .next t ∧ t.cust.run = some (0x12, crOk) ∧ partState t p = psSuspended ∧ others t ∧ t.mem = s.mem) ∧
      (st ≠ psActive → ∃ t, exec (.psuspend r) s = .next t ∧ ran 0x12 crNotsuspended u t)) ∧
    (∀ c ∈ [((.passign r : Instr), 0x14), (.prelease r, 0x15), (.pdestroy r, 0x13)], may c.2 → p < 16 → st ≠ psSuspended →
      ∃ t, exec c.1 s = .next t ∧ ran c.2 crNotsuspended u t) ∧
    (may 0x14 → p < 16 → st = psSuspended →
      (8 ≤ kind → ∃ t, exec (.passign r) s = .next t ∧ ran 0x14 crBadcmd u t) ∧
      (∀ k, resBlock kind a2 = some k → rd s k F.OWNER_PART ≠ 0x1F → ∃ t, exec (.passign r) s = .next t ∧ ran 0x14 crBusyres u t) ∧
      (∀ k, resBlock kind a2 = some k → rd s k F.OWNER_PART = 0x1F → (kind = 2 → shIdle s a2 = true) → (kind ≠ 2 → beatState s = stIdle ∨ beatState s = stStopped) →
        ∃ t, exec (.passign r) s = .next t ∧ gives t ∧ rd t k F.OWNER_PART = p) ∧
      (kind = 3 → a2 < 16 → a3 < 16 → lampPart s a2 a3 = 0x1F → ∃ t, exec (.passign r) s = .next t ∧ gives t ∧ lampPart t a2 a3 = p) ∧
      (kind = 4 → a2 < 256 → rdI s (bHub (a2 / 16)) F.HUB_PLYPART_PART (a2 % 16) = 0x1F → rdI s (bHub (a2 / 16)) F.HUB_PLYCTL_STATE (a2 % 16) = plyIdle →
        ∃ t, exec (.passign r) s = .next t ∧ gives t ∧ rdI t (bHub (a2 / 16)) F.HUB_PLYPART_PART (a2 % 16) = p) ∧
      (let i := bits a2 5 0
       let q : Region := ⟨bits a3 14 0, bits a3 30 16, p, 1 + p, 0, true, false⟩
       kind = 5 → bits a2 12 8 = 1 + p → (region s i).valid = false → regionOk s i q = true →
        ∃ t, exec (.passign r) s = .next t ∧ gives t ∧ region t i = q ∧ ∀ j, j ≠ i → region t j = region s j) ∧
      (kind = 6 → a2 < 64 → rdI s bHostport F.HOSTPORT_WINCTL_PART a2 = 0x1F → rdI s bHostport F.HOSTPORT_WINCTL_EN a2 = 0 →
        ∃ t, exec (.passign r) s = .next t ∧ gives t ∧ rdI t bHostport F.HOSTPORT_WINCTL_PART a2 = p) ∧
      (kind = 7 → a2 < 16 → ∃ t, exec (.passign r) s = .next t ∧ gives t ∧ bit (rd t bApc (fStep F.APC_PARTALLOW_ALLOW 8 a2)) p = true)) ∧
    (may 0x15 → p < 16 → st = psSuspended →
      (resOf s p kind a2 a3 = none → ∃ t, exec (.prelease r) s = .next t ∧ ran 0x15 crBadcmd u t) ∧
      (resOf s p kind a2 a3 = some false → ∃ t, exec (.prelease r) s = .next t ∧ ran 0x15 crBusyres u t) ∧
      (∀ k, resBlock kind a2 = some k → rd s k F.OWNER_PART = p → rdB s k F.STATE_RESETTING = false → s.boot.seen.contains k = true → quiet s →
        ∃ t, exec (.prelease r) s = .next t ∧ back t ∧ rdB t k F.STATE_RESETTING = true ∧ k ∈ t.cust.releasing) ∧
      (kind = 3 → a2 < 16 → a3 < 16 → lampPart s a2 a3 = p → ∃ t, exec (.prelease r) s = .next t ∧ back t ∧ lampPart t a2 a3 = 0x1F ∧
        ∀ i, 64 * a3 ≤ i → i < 64 * a3 + 64 → lampVal t a2 i = 0) ∧
      (kind = 5 → (region s (bits a2 5 0)).valid = true → (region s (bits a2 5 0)).part = p → s.cust.noEntropy = false → tabGet 0 s.mem.rstate (bits a2 5 0) ≠ 1 →
        ∃ t, exec (.prelease r) s = .next t ∧ back t ∧ tabGet 0 t.mem.rstate (bits a2 5 0) = 1 ∧ 65536 + bits a2 5 0 ∈ t.cust.releasing) ∧
      (kind = 6 → a2 < 64 → rdI s bHostport F.HOSTPORT_WINCTL_PART a2 = p → ∃ t, exec (.prelease r) s = .next t ∧ back t ∧
        rdI t bHostport F.HOSTPORT_WINCTL_PART a2 = 0x1F ∧ rdI t bHostport F.HOSTPORT_WINCTL_EN a2 = 0) ∧
      (kind = 7 → a2 < 16 → bit (rd s bApc (fStep F.APC_PARTALLOW_ALLOW 8 a2)) p = true → ∃ t, exec (.prelease r) s = .next t ∧ back t ∧
        bit (rd t bApc (fStep F.APC_PARTALLOW_ALLOW 8 a2)) p = false)) ∧
    (may 0x13 → p < 16 → st = psSuspended → resAll s p = [] → s.cust.releasing = [] → ∃ t, exec (.pdestroy r) s = .next t ∧
      t.cust.run = some (0x13, crOk) ∧ partState t p = psFree ∧ slotLoaded t (1 + p) = false ∧ (sessKey t p).loaded = false)

/-! ## Reset and bring-up (chapter 18) -/

/-- R63, R588, R589, R597, R676: a package reset leaves every block not READY, LT 0, the always-on straps taken, HBM and looms empty, step 1
of the bring-up running, FAULT_N asserted and transactions discarded; fuses, training record and checkpoints stay. (The model's readings
here: log entries 66, 86.) -/
def Obligations.PackageResets : Prop :=
  ∀ (pins : ResetPins) (s : State),
    let gone := fun (c : Instr) (powerOn : Bool) => ∃ t, exec c s = .next t ∧ t.pending = s.pending ∧ ltNow t = 0 ∧ (∀ b, rdB t b F.STATE_READY = false) ∧
      t.boot.active = true ∧ t.boot.cpr = false ∧ t.boot.ended = [] ∧ rd t bFuse F.FUSE_BOOTSTAT_STEP = 1 ∧ t.ll.faultN = true ∧ t.ll.alive = false ∧
      t.gpkg.self = pins.pkgid.toNat ∧ t.looms = [] ∧ t.mem = MemSt.reset ∧ t.cust.meas = [] ∧ beatState t = stIdle ∧
      t.nv.fuse = s.nv.fuse ∧ t.nv.trec = s.nv.trec ∧ t.nv.ckpt = s.nv.ckpt ∧ t.nv.wipepend = s.nv.wipepend ∧
      (powerOn = false → t.nv = s.nv ∧ t.ll.log = s.ll.log) ∧ (powerOn = true → t.ll.log = [] ∧ t.cust.fieldDebug = false) ∧
      (∀ b, rd s b F.TXN_TSTATE ≠ tsIdle → rd t b F.TXN_TSTATE = tsIdle ∧ rd t b F.TXN_RESULT = resAbortedReset ∧ rd t b F.TXNROLLBACK_COUNT = 1)
    gone (.packageReset false pins) false ∧ gone (.packageReset true pins) true ∧ gone (.porstAssert pins) false ∧ gone (.alwaysOnRailLoss pins) true

/-- R12, R592, R598: a compute-partition reset takes down the blocks of the compute partition and no other, keeps HBM and owners, and starts
the path of R592, or steps 7 to 10 of a bring-up whose step 9 has not ended. R589 to R597: a step ends after the step it waits for; a failed
one latches BOOTFAIL and asserts FAULT_N; one that ends well makes its blocks READY, measures its image, chooses the path at step 5, leaves
HBM zero at step 9; the last one ends the bring-up. (The model's readings here: log entries 2, 86.) -/
def Obligations.Bringup : Prop :=
  ∀ (n : BitVec 4) (e : StepEnd) (s : State),
    let k := n.toNat
    let r := s.boot
    let run := exec (.bringupStepDone n e) s
    let due := r.active = true ∧ s.ll.rungs = [] ∧ k ∉ r.ended ∧ (k = 1 ∨ (if r.cpr then k - 1 else stepAfter k) ∈ r.ended)
    let first := due ∧ r.cpr = false ∧ 1 ≤ k ∧ k ≤ 10
    let again := due ∧ r.cpr = true ∧ 1 ≤ k ∧ k ≤ 6
    let hubs := (List.range 16).map bHub ++ [bSeam, bBeat] ++ (List.range 48).map bShuttle
    let hbm := (List.range 4).map bHbmc ++ [bMemcrypt]
    let app := [bApc, bNetio] ++ (List.range 12).map (fun i => bShuttle (48 + i))
    let readyAt := fun (i : Nat) => if i = 1 then [bFuse] else if i = 3 then [bCustody, bPartition] else if i = 4 then [bLamplighter, bLaser]
      else if i = 5 then [bPower] else if i = 6 then [bLtime, bTimer, bHostport] ++ (List.range 8).map bReed ++ (List.range 8).map bGlimmer
      else if i = 7 then hubs else if i = 9 then hbm else if i = 10 then app else []
    let cpAt := fun (i : Nat) => if i = 2 then hubs else if i = 3 then hbm else if i = 6 then app else []
    let failed := fun (t : State) => rd t bFuse F.FUSE_BOOTSTAT_FAILSTEP = k ∧ rdB t bFuse F.FAULTCAUSE_VALID = true ∧ t.ll.faultN = true ∧ t.boot = s.boot ∧
      (rd s bFuse F.FAULTCAUSE_VALID = 0 → rd t bFuse F.FAULTCAUSE_CAUSE = 0x0C02)
    (s.pw.enCmp = true → s.decisions = [] → (∀ b, modePend s b = false) → ∃ t, exec .computePartitionReset s = .next t ∧ t.boot.active = true ∧ t.looms = [] ∧ t.shs = [] ∧
      t.mem.hbm = s.mem.hbm ∧ t.mem.regions = s.mem.regions ∧ t.ltime = s.ltime ∧ t.cust = s.cust ∧ t.nv = s.nv ∧
      (∀ b, rdB t b F.STATE_READY = (rdB s b F.STATE_READY && !inCompute b)) ∧ (∀ b, rd t b F.OWNER_PART = rd s b F.OWNER_PART) ∧
      (if r.active ∧ ¬ r.cpr ∧ 9 ∉ r.ended then t.boot.cpr = false ∧ t.boot.ended = r.ended.filter (· < 7)
        else t.boot.cpr = true ∧ t.boot.ended = [] ∧ rd t bFuse F.FUSE_BOOTSTAT_PATH = pathCp)) ∧
    (s.pw.enCmp = false → r.active = false ∨ r.cpr = true → exec .computePartitionReset s = .next s) ∧
    (r.active = true → s.ll.rungs = [] → k = 0 ∨ k ∈ r.ended ∨ (k ≠ 1 ∧ (if r.cpr then k - 1 else stepAfter k) ∉ r.ended) → run = .next s) ∧
    (first → e.ok = false → ∃ t, run = .next t ∧ failed t) ∧
    (again → e.ok = false → k ≠ 3 → k ≠ 4 → ∃ t, run = .next t ∧ failed t) ∧
    (again → e.ok = false → k = 3 ∨ k = 4 → ∃ t, run = .next t ∧ t.boot.active = true ∧ t.boot.cpr = false ∧ t.boot.ended = [] ∧ ltNow t = 0) ∧
    (first → e.ok = true → ∃ t, run = .next t ∧ t.boot.ended = r.ended ++ [k] ∧ rd t bFuse F.FUSE_BOOTSTAT_STEP = k ∧ (∀ b ∈ readyAt k, rdB t b F.STATE_READY = true) ∧
      (∀ b ∈ readyAt k, bootEnables b = true → rdB s b F.STATE_READY = false → rdB t b F.CONTROL_ENABLE = true) ∧
      (k = 1 → rd t bFuse F.FUSE_CE_COUNT = (rd s bFuse F.FUSE_CE_COUNT + (s.nv.fuseErr.filter (fun x => x.2 == 1)).length) % 2 ^ 32) ∧
      (k = 3 ∨ k = 4 ∨ k = 10 → t.cust.meas.length = s.cust.meas.length + 1) ∧
      (k = 4 → rd s bFuse F.FUSE_BOOTSTAT_FAILSTEP = 0 → t.ll.faultN = false) ∧
      (k = 5 → t.pw.enIo = true ∧ t.pw.enHbm = true ∧ t.pw.enCmp = true ∧ rd t bFuse F.FUSE_BOOTSTAT_PATH = if warmOk s e.tj then pathWarm else pathCold) ∧
      (k = 6 → rd t bHostport F.HOSTPORT_LINK_UP = 1) ∧
      (k = 7 → ∀ l, l < 768 → loomSite t l ≤ 16 → rdB t (bLoom l) F.STATE_READY = true) ∧
      (k = 9 → ∀ a, hbmByte t a = 0) ∧
      ((∀ i, 1 ≤ i → i ≤ 10 → i ∈ r.ended ++ [k]) → k ≠ 1 → rd t bFuse F.FUSE_BOOTSTAT_DONE = 1 ∧ t.boot.active = false)) ∧
    (again → e.ok = true → ∃ t, run = .next t ∧ t.boot.ended = r.ended ++ [k] ∧ (∀ b ∈ cpAt k, rdB t b F.STATE_READY = true) ∧ t.mem.hbm = s.mem.hbm ∧
      (k = 5 → (r.kept.map (·.1)).Nodup → (∀ x ∈ r.kept, ∀ y ∈ x.2.2, y.1 / 65536 < 4096) → ∀ x ∈ r.kept, rdB s (bLoom x.1) F.STATE_READY = true → loom t x.1 = loomRebuilt x.2.1) ∧
      (k = 6 → r.ended = [1, 2, 3, 4, 5] → rd t bFuse F.FUSE_BOOTSTAT_DONE = 1 ∧ t.boot.active = false ∧
        rd t bFuse F.FUSE_CPRESETS_COUNT = (rd s bFuse F.FUSE_CPRESETS_COUNT + 1) % 2 ^ 32))

/-! ## Lamplighter (chapter 19) -/

/-- R607, R624 to R628: a fault is logged, and nothing else while Lamplighter does not run or the class is logged only. A failed block takes
rung 1, a failed shuttle gives its lanes to its sibling, a failure outside single-package cover hands over and takes rung 3, a FAULTED beat
engine returns to IDLE. A rung that has run out of time climbs; one that has time left, or a block that no rung was entered for, changes
nothing. (The model's readings here: log entries 2, 88, 133.) -/
def Obligations.ResetLadder : Prop :=
  ∀ (b : Nat) (code : BitVec 16) (s : State),
    let ll := bLamplighter
    let kind := kindOf b
    let c := code.toNat
    let common := 0x8001 ≤ c ∧ c ≤ 0x8003
    let u := modLl (logEvent (if reportedOnly b c then latchCause s b c else s) b evFault 0 c 0) (fun x => { x with tickFaults := if x.tickFaults.contains b then x.tickFaults else x.tickFaults ++ [b] })
    let run := exec (.faultReport b code) s
    let now := ltNow s
    let usual := rdB s ll F.STATE_READY = true ∧ s.ll.absent = false ∧ quiet s
    let rest := usual ∧ s.boot.seen.contains b = true ∧ rdB s b F.STATE_RESETTING = false ∧ ∀ r ∈ s.ll.rungs, r.block ≠ b ∧ b ∉ r.waits
    let one := kind = some .hbmc ∨ kind = some .memcrypt ∨ kind = some .apc ∨ kind = some .netio ∨ kind = some .reed ∨ kind = some .glimmer ∨
      kind = some .ltime ∨ kind = some .timer ∨ kind = some .hostport
    let dom := rungDomain b
    let third := fun (t : State) => t.boot.active = true ∧ t.looms = [] ∧ t.ll.lost = true ∧
      rd t ll (fAt F.LL_RUNG1_COUNT 2) = (rd s ll (fAt F.LL_RUNG1_COUNT 2) + 1) % 2 ^ 32 ∧ ∃ r ∈ t.ll.rungs, r.rung = 3 ∧ r.block = b ∧ r.start = now
    let second := fun (cause : Nat) (t : State) => ⟨2, b, dom, cause, now⟩ ∈ t.ll.rungs ∧
      rd t ll (fAt F.LL_RUNG1_COUNT 1) = (rd s ll (fAt F.LL_RUNG1_COUNT 1) + 1) % 2 ^ 32 ∧
      ∀ x ∈ dom, s.boot.seen.contains x = true → rdB t x F.STATE_RESETTING = true
    let few := fun (es : List (Nat × Nat)) (x ns : Nat) => (es.filter (fun e => e.1 == x && decide (now < e.2 + ns))).length < 3
    (rdB s ll F.STATE_READY = false → run = .next u) ∧
    (rdB s ll F.STATE_READY = true → beatState s ≠ stFaulted → (kind = some .loom ∧ loomCause c = false) ∨ ((one ∨ kind = some .beat) ∧ ¬ common ∧ c ≠ 0x0603) ∨
        kind = some .fuse ∨ kind = some .partition ∨ (kind = some .shuttle ∧ ¬ common ∧ c ≠ 0x0501) → run = .next u) ∧
    (usual → beatState s = stFaulted → b = bBeat → ¬ common → ∃ t, run = .next t ∧ beatState t = stIdle ∧ (s.ll.dump = none → t.ll.dump.isSome = true) ∧
      (rdB s ll F.LL_POLICY_BEATFATAL = true → t.ll.lost = true)) ∧
    (rest → one → common → few s.ll.rung1 b 1000000000 → ∃ t, run = .next t ∧ rdB t b F.STATE_RESETTING = true ∧ rdB t b F.STATE_READY = false ∧
      ⟨1, b, [b], c, now⟩ ∈ t.ll.rungs ∧ rd t ll F.LL_RUNG1_COUNT = (rd s ll F.LL_RUNG1_COUNT + 1) % 2 ^ 32 ∧ rd t ll F.LL_STAT_LASTRUNG = 1) ∧
    (rest → one → common → ¬ few s.ll.rung1 b 1000000000 → dom ≠ [] → few s.ll.rung2 (dom.headD b) 10000000000 → ∃ t, run = .next t ∧ second c t) ∧
    (∀ k, k < 48 → b = bShuttle k → c = 0x0501 ∨ c = 0x8001 → rest → (sh s k).failed = false → (sh s (sibling k)).failed = false →
      ∃ t, run = .next t ∧ (sh t k).failed = true ∧ rd t (bShuttle (sibling k)) F.SH_STAT_TAKEOVER = 1 ∧ ⟨0, b, [b], c, now⟩ ∈ t.ll.rungs ∧
        rdB t b F.STATE_RESETTING = true) ∧
    (∀ k, k < 60 → b = bShuttle k → c = 0x0501 ∨ c = 0x8001 → usual → (sh s (sibling k)).failed = true → ∃ t, run = .next t ∧ third t) ∧
    (usual → ((kind = some .hub ∨ kind = some .seam ∨ kind = some .beat) ∧ common) ∨ (kind = some .hbmc ∧ c = 0x0603) ∨ (kind = some .seam ∧ c = 0x0401) →
      ∃ t, run = .next t ∧ third t) ∧
    ((∀ r ∈ s.ll.rungs, r.block ≠ b) → rdB s b F.STATE_RESETTING = false → exec (.rungTimeout b) s = .next s) ∧
    ((∀ r ∈ s.ll.rungs, r.block ≠ b) → rdB s b F.STATE_RESETTING = true → quiet s → kind = some .hub ∨ kind = some .seam ∨ kind = some .beat →
      ∃ t, exec (.rungTimeout b) s = .next t ∧ third t) ∧
    (∀ r, s.ll.rungs = [r] → r.block = b → quiet s →
      (now < r.start + rungLimit r.rung → exec (.rungTimeout b) s = .next s) ∧
      (r.start + rungLimit r.rung ≤ now →
        (r.rung = 0 → ∃ t, exec (.rungTimeout b) s = .next t ∧ t = { s with ll := { s.ll with rungs := [] } }) ∧
        (r.rung = 1 → dom ≠ [] → few s.ll.rung2 (dom.headD b) 10000000000 → ∃ t, exec (.rungTimeout b) s = .next t ∧ second r.cause t ∧
          rd t ll F.LL_LADDER0_RUNG = 1 ∧ rd t ll F.LL_LADDER0_OUTCOME = roTimeout) ∧
        (r.rung = 2 → ∃ t, exec (.rungTimeout b) s = .next t ∧ third t) ∧
        (r.rung = 3 → ∃ t, exec (.rungTimeout b) s = .next t ∧ t.boot.active = true ∧ t.boot.ended = [] ∧ ltNow t = 0 ∧ t.mem = MemSt.reset)))

/-- R608 to R620: a failed loom is isolated, the beat held and a stand-in mapped, or the darning fails and the hold stays; the load brings
the image, the replay ends the darning with the loom as it was kept; a late one fails. A snapshot counts when its last byte is written, by
the shuttle that writes it, and not before the loom has acknowledged OPEN; the staging buffer drains 512 bytes at a time, by that shuttle,
and stands while the ring has no room. (The model's readings here: log entries 2, 50, 87, 88, 119.) -/
def Obligations.Darning : Prop :=
  ∀ (l : LoomId) (code : BitVec 16) (ok : Bool) (s : State),
    let ll := bLamplighter
    let c := code.toNat
    let b := bLoom l
    let u := modLl (logEvent (if reportedOnly b c then latchCause s b c else s) b evFault 0 c 0) (fun x => { x with tickFaults := if x.tickFaults.contains b then x.tickFaults else x.tickFaults ++ [b] })
    let v := holdWrite (watchesDrop (isolate u l) l) true
    let r := loomRow l
    let handed := fun (t : State) => t.ll.lost = true ∨ t.ll.handPend = true
    let failed := fun (t : State) => t.ll.darn = none ∧ handed t ∧ rd t ll F.LL_DARNFAIL_COUNT = (rd s ll F.LL_DARNFAIL_COUNT + 1) % 2 ^ 32 ∧
      rd t ll F.LL_LASTDARN_LOOM = l ∧ rd t ll F.LL_LASTDARN_RESULT = 1 ∧ rdB t ll F.FAULTCAUSE_VALID = true
    let report := exec (.faultReport b code) s
    let usual := rdB s ll F.STATE_READY = true ∧ loomCause c = true ∧ quiet s
    let done := exec (.darnReplayDone l ok) s
    let i := tabGet 0 s.ll.snapSeq l % 2
    let a := snapAddr s l i
    let late := fun (d : DarnSt) => 10 * d.start + darnBoundOf s l d.kept (rd s ll F.LL_SNAPBEATS_BEATS) + 10000000 ≤ 10 * ltNow s
    let m := loom s l
    let n := min 64 m.logBuf.length
    (usual → s.ll.absent = true → ∃ t, report = .next t ∧ handed t ∧ rd t bBeat F.BEAT_HOLD_HOLD = 1 ∧ ∃ x ∈ t.ll.heldLooms, x.1 = l.val) ∧
    (usual → s.ll.absent = false → s.ll.darn = none →
      (snapLatest v l = none ∨ standIn v l = none ∨ logOn v = false → ∃ t, report = .next t ∧ failed t ∧ rd t bBeat F.BEAT_HOLD_HOLD = 1) ∧
      (∀ img site, snapLatest v l = some img → standIn v l = some (site, none) → logOn v = true → site ≤ 16 →
        mapOk v r.1 r.2.1 (listSet (rowMapOf v r.1 r.2.1) (l.val % 16) site) = true →
        (∀ x ∈ rowMapOf v r.1 r.2.1, x < 32) → (rowMapOf v r.1 r.2.1).length = 16 → ∃ t d, report = .next t ∧ t.ll.darn = some d ∧
          d.loom = l.val ∧ d.site = site ∧ d.image = img ∧ d.loaded = false ∧ loom t l = Loom.reset ∧ rowMapOf t r.1 r.2.1 = listSet (rowMapOf v r.1 r.2.1) (l.val % 16) site ∧
          rd t bBeat F.BEAT_HOLD_HOLD = 1)) ∧
    (∀ d, s.ll.darn = some d → d.loom = l.val → d.loaded = false → (hub s r.1).mapping.contains r.2.1 = false →
      (∃ t, exec (.darnLoadDone l true) s = .next t ∧ t = { s with looms := t.looms, ll := { s.ll with darn := some { d with loaded := true } } } ∧
        loom t l = d.image.loom ∧ ∀ j, j ≠ l.val → loom t j = loom s j) ∧
      (s.ll.heldLooms = [] → ∃ t, exec (.darnLoadDone l false) s = .next t ∧ failed t ∧ t.looms = s.looms)) ∧
    (s.ll.darn = none ∨ (∃ d, s.ll.darn = some d ∧ d.loom ≠ l.val) → exec (.darnLoadDone l ok) s = .next s ∧ done = .next s ∧ exec (.darnTimeout l) s = .next s) ∧
    (∀ d, s.ll.darn = some d → d.loom = l.val → d.loaded = true → s.ll.heldLooms = [] → quiet s →
      (ok = false → ∃ t, done = .next t ∧ failed t) ∧
      (ok = true → d.kept.phase ≠ .opening → d.kept.phase ≠ .integrate → d.kept.phase ≠ .close → (∀ e ∈ d.kept.streams, d.kept.beat < e.2.ep) →
        (∀ y ∈ d.kept.dq, dqForget d.kept.beat y = y) → d.kept.dqWaits = [] → beatState s ≠ stHeld →
        ∃ t, done = .next t ∧ t.ll.darn = none ∧ loom t l = loomReplayed d.kept ∧ rd t bBeat F.BEAT_HOLD_HOLD = 0 ∧ rd t b F.STATE_DEGRADED = 1 ∧
          rd t ll F.LL_DARNS_COUNT = (rd s ll F.LL_DARNS_COUNT + 1) % 2 ^ 32 ∧ rd t ll F.LL_LASTDARN_LOOM = l ∧
          rd t ll F.LL_LASTDARN_RESULT = (if d.image.freerun || d.kept.seq.freerun then 2 else 0) ∧ (d.bad ≤ 16 → r.2.2 * 32 + d.bad ∈ t.ll.soft))) ∧
    (∀ d, s.ll.darn = some d → d.loom = l.val →
      (late d → s.ll.heldLooms = [] → ∃ t, exec (.darnTimeout l) s = .next t ∧ failed t) ∧ (¬ late d → exec (.darnTimeout l) s = .next s)) ∧
    (shJobAt s l (.snap l) = none → exec (.snapshotComplete l ok) s = .next s) ∧
    (∀ k, shJobAt s l (.snap l) = some k → snapImg s l i = none → exec (.snapshotComplete l ok) s = .next (shFreed s k)) ∧
    (memUp s a 0x200000 = false ∨ m.phase = .opening → (snapImg s l i).isSome = true → exec (.snapshotComplete l ok) s = .next s) ∧
    (∀ x, snapImg s l i = some x → x.done = false → x.seq = tabGet 0 s.ll.snapSeq l → (shJobAt s l (.snap l)).isSome = true →
      memUp s a 0x200000 = true → m.phase ≠ .opening →
      ((∀ j k, a ≤ j → 1 ≤ k → k ≤ 256 → j + k ≤ a + 0x200000 → hbmCheck s 0x1E j k = hOk) → s.mem.poison = [] → s.mem.marks = [] → (∀ j, staleKey s j = false) →
        (∀ j i, a ≤ j → j < a + 0x200000 → regionAt s j = some i → regionKey s i ≠ 0) →
        (∀ y ∈ x.nmap ++ x.smap ++ x.xmap, y < 2048) →
        ∃ t, exec (.snapshotComplete l true) s = .next t ∧ snapImg t l i = some { x with done := true } ∧ t.looms = s.looms ∧
          rd t ll F.LL_SNAPS_COUNT = (rd s ll F.LL_SNAPS_COUNT + 1) % 2 ^ 32 ∧ bytesAt (hbmByte t) (a + 4088) 4 = x.seq % 2 ^ 32 ∧
          bytesAt (hbmByte t) (a + 4092) 4 = 0x534E4150) ∧
      (∃ t, exec (.snapshotComplete l false) s = .next t ∧ snapImg t l i = none ∧ snapImg t l (1 - i) = snapImg s l (1 - i) ∧ t.looms = s.looms ∧
        rd t ll F.LL_SNAPFAIL_COUNT = (rd s ll F.LL_SNAPFAIL_COUNT + 1) % 2 ^ 32 ∧ rdB t ll F.FAULTCAUSE_VALID = true)) ∧
    (n = 0 ∨ logPending s l = true → shJobAt s l (.log l) = none → exec (.logDrainDone l) s = .next s) ∧
    (logPending s l = true → (shJobAt s l (.log l)).isSome = true → (∀ y, y < n → memUp s (logAddr s l (m.logPos + y)) 8 = true) → ∃ t, exec (.logDrainDone l) s = .next t ∧
      (loom t l).logBuf = m.logBuf.drop n ∧ (loom t l).logPos = m.logPos + n ∧ ∀ j, j ≠ l.val → loom t j = loom s j) ∧
    (n ≠ 0 → logOn s = true → logWords s < logKept s l + n → shJobAt s l (.log l) = none → ∃ t, exec (.logDrainDone l) s = .next t ∧ loom t l = { m with logStall := true } ∧
      rd t ll F.LL_LOGSTALL_COUNT = (rd s ll F.LL_LOGSTALL_COUNT + if m.logStall then 0 else 1) % 2 ^ 32)

/-- R268, R629 to R635, R639: a handover waits for the boundary of an open beat; FAULTCLR releases FAULT_N when no cause remains; dumps read
a page word by word; heartbeats, the dead-man timer; checkpoints. (The model's readings here: log entries 2, 37, 48, 88, 118, 123.) -/
def Obligations.Lamplighter : Prop :=
  ∀ (r : Requester) (ok : Bool) (s : State),
    let b := bLamplighter
    let u := windowClose s
    let x := s.ll
    let handed := fun (t : State) => t.ll.lost = true ∨ t.ll.handPend = true
    let open' := s.beat.isOpen = true ∧ (beatState s = stRunning ∨ beatState s = stRetrying)
    let lone := fun (f : Fld) => f.off = 0x044 ∧ performed s r b f.off true (fldSet f 0 1) = true
    let word := fun (p : Nat) (o : Nat) => if gateError s p o false then (0 : Word) else (readMain s (.custody .lamplighter) p o).1
    let mode := rd s b F.LL_CKPTCTL_MODE
    let refused := x.ckpt ≠ none ∨ (x.ckptLt ≠ 0 ∧ ltNow s + 1 < x.ckptLt + 100000000) ∨
      (if mode = 1 then 12 else 24) * 1048576 < ((ckptLooms s).map (ckptSize s)).sum
    let begun := fun (t : State) => t.ll.ckptLt = ltNow s + 1 ∧ ∃ y, t.ll.ckpt = some y ∧ tabGet none t.nv.ckpt y.copy = none ∧ (mode = 0 → y.copy = 0) ∧
      (mode = s.nv.ckptMode → ∀ i, i ≠ y.copy → tabGet none t.nv.ckpt i = tabGet none s.nv.ckpt i) ∧ (noBoundary s = true → y.cap.isSome = true)
    let apart := noBoundary s = true → ∀ l ∈ ckptLooms s, rdB s (bLoom l) F.LOOM_TSNAPCTL_BUSY = false
    let met := fun (t : State) => t.ll.ckpt = none ∧ rd t b F.LL_CKPTCTL_ERR = 1 ∧ t.looms = s.looms
    let turned := fun (t : State) => t.ll.ckpt = x.ckpt ∧ t.nv = s.nv ∧ rd t b F.LL_CKPTCTL_ERR = 1 ∧
      rd t b F.LL_CKPTREFUSE_COUNT = (rd s b F.LL_CKPTREFUSE_COUNT + 1) % 2 ^ 32
    (x.lost = true → exec .handover s = .next s) ∧
    (x.lost = false → open' → exec .handover s = .next { s with ll := { x with handPend := true } }) ∧
    (x.lost = false → ¬ open' → ∃ t, exec .handover s = .next t ∧ t.ll = { x with faultN := true, handPend := false, lost := true } ∧
      (s.beat.n < 2 ^ 64 → rdPair t b F.LL_HANDBEAT_LO_N F.LL_HANDBEAT_HI_N = s.beat.n) ∧ t.out = s.out ++ [⟨.pin, 0, [1]⟩]) ∧
    (lone F.LL_CTL_FAULTCLR →
      (faultRemains s = true → ∃ t, exec (.llCtlFaultclr r 0) s = .next t ∧ answered r (inc u b F.TXNREFUSE_COUNT) t) ∧
      (faultRemains s = false → ∃ t, exec (.llCtlFaultclr r 0) s = .next t ∧
        answered r { u with ll := { u.ll with faultN := false, lost := false } } t ∧ ⟨.pin, 0, [0]⟩ ∈ t.out)) ∧
    (lone F.LL_CTL_DUMP →
      (x.dump.isSome = true ∨ x.absent = true → ∃ t, exec (.llCtlDump r 0) s = .next t ∧ answered r u t) ∧
      (x.dump = none → x.absent = false → rdB s b F.STATE_READY = true → ∃ t d, exec (.llCtlDump r 0) s = .next t ∧ okResp r 0 ∈ t.out ∧ t.ll.dump = some d ∧ d.pages.head? = some b ∧
        d.off = 0 ∧ d.hbmOnly = rdB s b F.LL_DUMPSTAT_LOCK ∧ t.ll.dumpSeq = x.dumpSeq + 1)) ∧
    (x.dump = none → exec .dumpReadResponse s = .next s ∧ exec .dumpReadTimeout s = .next s) ∧
    (∀ d p rest, x.dump = some d → d.pages = p :: rest → d.hbmOnly = false → d.pos + 4 ≤ dumpRoom →
      (∃ t, exec .dumpReadResponse s = .next t ∧ (∀ i, i < 4 → dumpByte t (dumpData + d.pos + i) = BitVec.ofNat 8 ((word p d.off).toNat / 256 ^ i)) ∧
        (d.off ≠ 4092 → t.ll.dump = some { d with pos := d.pos + 4, off := d.off + 4 }) ∧
        (d.off = 4092 → rest ≠ [] → ∃ y, t.ll.dump = some y ∧ y.pages = rest ∧ y.off = 0 ∧ y.pos = d.pos + 4) ∧
        (d.off = 4092 → rest = [] → d.stores = none → t.ll.dump = none ∧ rd t b F.LL_DUMPS_COUNT = (rd s b F.LL_DUMPS_COUNT + 1) % 2 ^ 32)) ∧
      (∃ t, exec .dumpReadTimeout s = .next t ∧ rd t b F.LL_UNREACH_COUNT = (rd s b F.LL_UNREACH_COUNT + 1) % 2 ^ 32 ∧
        (rest ≠ [] → ∃ y, t.ll.dump = some y ∧ y.pages = rest ∧ y.off = 0 ∧ y.pos = d.pos) ∧ (rest = [] → t.ll.dump = none) ∧
        (d.entries < 64 → dumpByte t (0x2010 + 16 * d.entries + 4) = 1))) ∧
    (x.absent = true ∨ x.lanternGone = true ∨ rdB s b F.STATE_READY = false → exec .lamplighterHeartbeatLost s = .next s) ∧
    (x.absent = false → x.lanternGone = false → rdB s b F.STATE_READY = true → ∃ t, exec .lamplighterHeartbeatLost s = .next t ∧ t.ll.absent = true ∧
      rd t b F.STATE_DEGRADED = 1 ∧ rd t b F.LL_HBMISS_COUNT = (rd s b F.LL_HBMISS_COUNT + 1) % 2 ^ 32 ∧ (∃ e, t.ll.window.head? = some e ∧ e.kind = evHeartbeat) ∧
      t.ll.log = x.log) ∧
    (x.absent = false → exec .lamplighterReturn s = .next s) ∧
    (x.absent = true → x.heldLooms = [] → ∃ t, exec .lamplighterReturn s = .next t ∧ rd t b F.STATE_DEGRADED = 0 ∧ regsBut s t b [F.STATE_DEGRADED.off] ∧
      t = { s with regs := t.regs, ll := { x with absent := false, log := (x.window ++ x.log).take 4096, window := [] } }) ∧
    (x.lanternGone = true ∨ rdB s b F.STATE_READY = false ∨ x.absent = true → exec .lanternHeartbeatLost s = .next s) ∧
    (x.lanternGone = false → rdB s b F.STATE_READY = true → x.absent = false → ∃ t, exec .lanternHeartbeatLost s = .next t ∧ t.ll.lanternGone = true ∧ handed t ∧
      rdB t b F.FAULTCAUSE_VALID = true ∧ (rd s b F.FAULTCAUSE_VALID = 0 → rd t b F.FAULTCAUSE_CAUSE = 0x0D02)) ∧
    (rdB s b F.LL_STAT_DMEXPIRED = true → exec .deadmanExpiry s = .next s) ∧
    (rdB s b F.LL_STAT_DMEXPIRED = false → ∃ t, exec .deadmanExpiry s = .next t ∧ t.ll = { x with faultN := true, alive := false } ∧
      rd t b F.LL_STAT_DMEXPIRED = 1 ∧ ⟨.pin, 0, [1]⟩ ∈ t.out ∧ ⟨.pin, 1, [0]⟩ ∈ t.out ∧ (laserLit s = true → ∀ p, p < 8 → glimState t p = gsLost)) ∧
    (fieldPerformed s r b F.LL_CKPTCTL_GO 1 = true → rd s b F.TXN_TSTATE = tsIdle → fldGet F.LL_CKPTCTL_ERR (withField s r b F.LL_CKPTCTL_GO 1) = 0 →
      fldGet F.LL_CKPTCTL_MODE (withField s r b F.LL_CKPTCTL_GO 1) = mode →
      (refused → ∃ t, exec (.llCkptctlGo r (withField s r b F.LL_CKPTCTL_GO 1)) s = .next t ∧ okResp r 0 ∈ t.out ∧ turned t) ∧
      (¬ refused → apart → ∃ t, exec (.llCkptctlGo r (withField s r b F.LL_CKPTCTL_GO 1)) s = .next t ∧ okResp r 0 ∈ t.out ∧ begun t) ∧
      (¬ refused → ¬ apart → ∃ t, exec (.llCkptctlGo r (withField s r b F.LL_CKPTCTL_GO 1)) s = .next t ∧ okResp r 0 ∈ t.out ∧ met t)) ∧
    (rd s b F.LL_CKPTAUTO_S = 0 ∨ rdB s b F.STATE_READY = false ∨ x.absent = true → exec .ckptAutoTimer s = .next s) ∧
    (rd s b F.LL_CKPTAUTO_S ≠ 0 → rdB s b F.STATE_READY = true → x.absent = false →
      (refused → ∃ t, exec .ckptAutoTimer s = .next t ∧ turned t ∧ ∃ e, t.ll.log.head? = some e ∧ e.kind = evCkpt ∧ e.flags = efRefused) ∧
      (¬ refused → apart → ∃ t, exec .ckptAutoTimer s = .next t ∧ begun t) ∧
      (¬ refused → ¬ apart → ∃ t, exec .ckptAutoTimer s = .next t ∧ met t)) ∧
    (∀ copy c, x.ckpt = some ⟨copy, some c⟩ →
      (ckptCopying s = true → exec (.checkpointCommit true) s = .next s) ∧
      (ckptCopying s = false → ∃ t, exec (.checkpointCommit true) s = .next t ∧ t.ll.ckpt = none ∧ tabGet none t.nv.ckpt copy = some { c with valid := true } ∧
        rd t b F.LL_CKPTS_COUNT = (rd s b F.LL_CKPTS_COUNT + 1) % 2 ^ 32 ∧ (c.beat < 2 ^ 64 → rdPair t b F.LL_CKPTBEAT_LO_N F.LL_CKPTBEAT_HI_N = c.beat)) ∧
      (∃ t, exec (.checkpointCommit false) s = .next t ∧ t.ll = { x with ckpt := none } ∧ t.nv = s.nv ∧ rd t b F.LL_CKPTCTL_ERR = 1 ∧
        regsBut s t b [F.LL_CKPTCTL_ERR.off])) ∧
    ((∀ copy c, x.ckpt ≠ some ⟨copy, some c⟩) → exec (.checkpointCommit ok) s = .next s)

/-! ## Power and supplies (chapters 20 and 22) -/

/-- R648, R650 to R652, R654: a request for sleep is refused by the first block that has work, or begins an entry, with a whole snapshot of
every READY loom for S2 and S3; the entry ends in its state, without compute rails from S2 on, without any in S3. A wake that is enabled and
occurs in the state aborts an entry or starts the exit, and is recorded; the exit ends in S0. (The model's readings here: log entries 2, 86,
89.) -/
def Obligations.Sleep : Prop :=
  ∀ (r : Requester) (wfi : Bool) (v : Word) (src : Fin 7) (s : State),
    let p := bPower
    let u := windowClose s
    let st := sleepState s
    let ph := sleepPhase s
    let pw := s.pw
    let busy := st ≠ 0 ∨ ph ≠ phSteady ∨ pw.railFault = true
    let deep := fun (n : Nat) => 2 ≤ n
    let refuses := fun (n b : Nat) =>
      (b = bCustody ∧ deep n ∧ rdB s bCustody F.CUSTODY_CSTAT_BUSY = true) ∨
      (b = bLamplighter ∧ (s.ll.darn ≠ none ∨ s.ll.rungs ≠ [] ∨ (deep n ∧ s.ll.ckpt ≠ none))) ∨
      (b = bBeat ∧ beatState s ≠ stIdle ∧ beatState s ≠ stStopped) ∨
      (b = bMemcrypt ∧ deep n ∧ ∃ i, i < 64 ∧ tabGet 0 s.mem.rstate i = 1) ∨
      (∃ k, b = bShuttle k ∧ k < 60 ∧ (k < 48 ∨ deep n) ∧ shIdle s k = false) ∨
      (b = bApc ∧ deep n ∧ wfi = false) ∨
      (∃ l, b = bLoom l ∧ l < 768 ∧ (seqState (seqOf s l) ∈ [2, 3, 4] ∨ rdB s b F.LOOM_BSTAT_BUSY = true))
    let turned := fun (n b : Nat) (t : State) => rd t p F.POWER_LASTREFUSER_BLOCK = b ∧ rd t p F.POWER_LASTREFUSER_TARGET = n ∧
      rd t p (fAt F.POWER_REFUSE1_COUNT (n - 1)) = (rd s p (fAt F.POWER_REFUSE1_COUNT (n - 1)) + 1) % 2 ^ 32 ∧ sleepState t = st ∧ sleepPhase t = ph ∧ t.pw = pw
    let entering := fun (n : Nat) (t : State) => t.pw = { pw with target := n } ∧ sleepState t = 0 ∧ sleepPhase t = phEnter ∧
      (deep n → ∀ l, l < 768 → rdB s (bLoom l) F.STATE_READY = true → ∃ x i, snapImg t l x = some i ∧ i.beat = s.beat.n ∧
        i.done = false ∧ ∀ k, k < 2048 → k ∈ i.nmap ∧ k ∈ i.smap)
    let asked := fun (n : Nat) (c : Instr) =>
      (busy → ∃ t, exec c s = .next t ∧ okResp r 0 ∈ t.out ∧ turned n bPower t) ∧
      (¬ busy → ∀ b, refuses n b → (∀ b', refuses n b' → b ≤ b') → ∃ t, exec c s = .next t ∧ okResp r 0 ∈ t.out ∧ turned n b t) ∧
      (¬ busy → (∀ b, ¬ refuses n b) → ∃ t, exec c s = .next t ∧ okResp r 0 ∈ t.out ∧ entering n t)
    let sleepMay := fun (n : Nat) => performed s r p F.POWER_SLEEP_TARGET.off true (BitVec.ofNat 32 n) = true
    let target := fldGet F.APC_PWRREQ_SLEEP v
    let aborted := fun (t : State) => sleepState t = 0 ∧ sleepPhase t = phSteady ∧ rd t p F.POWER_STAT_ABORTED = 1 ∧ t.pw = pw ∧
      rd t p (fAt F.POWER_ABORT1_COUNT (pw.target - 1)) = (rd s p (fAt F.POWER_ABORT1_COUNT (pw.target - 1)) + 1) % 2 ^ 32
    let leaving := fun (t : State) => sleepState t = st ∧ sleepPhase t = phExit ∧ (st = 3 → t.boot.active = true ∧ t.boot.ended = [] ∧ ltNow t = ltNow s)
    let at' := if ph = phEnter then pw.target else st
    let sees := fun (i : Nat) => bit (rd s p F.POWER_WAKEEN_EN) i = true ∧ pw.railFault = false ∧
      (at' = 1 ∨ (at' = 2 ∧ i ≠ 5) ∨ (at' = 3 ∧ i ≠ 3 ∧ i ≠ 5 ∧ i ≠ 6))
    let woken := fun (i : Nat) (t : State) => bit (rd t p F.POWER_WAKECAUSE_CAUSE) i = true ∧
      (ph = phEnter → pw.target ≠ 0 → aborted t) ∧
      (ph = phSteady → pw.wake = false → ¬ (st = 3 ∧ pw.tripped = true) → leaving t ∧ rd t p F.POWER_WAKES_COUNT = (rd s p F.POWER_WAKES_COUNT + 1) % 2 ^ 32) ∧
      (ph = phSteady → st = 3 → pw.tripped = true → sleepPhase t = phSteady ∧ (pw.wake = false → t.pw.wake = true)) ∧
      (ph = phExit → sleepPhase t = phExit ∧ sleepState t = st)
    let deb := wr s p F.POWER_STAT_WSABOVE 1
    let wakeLt := rdPair s p F.POWER_WAKEAT_LO_LT F.POWER_WAKEAT_HI_LT
    (sleepMay 1 → asked 1 (.powerSleepS1 r wfi)) ∧ (sleepMay 2 → asked 2 (.powerSleepS2 r wfi)) ∧ (sleepMay 3 → asked 3 (.powerSleepS3 r wfi)) ∧
    (performed s r bApc F.APC_PWRREQ_SLEEP.off true v = true → target ≠ 0 → fldGet F.APC_PWRREQ_FREEZE v = rd s p F.CONTROL_FREEZE → rd s p F.TXN_TSTATE = tsIdle → modePend s p = false →
      asked target (.apcPwrreqWrite r false v wfi)) ∧
    (performed s r bApc F.APC_PWRBUDGET_W.off true v = true → ∃ t, exec (.apcPwrreqWrite r true v wfi) s = .next t ∧ okResp r 0 ∈ t.out ∧
      rd t p F.POWER_BUDGET_W = fldGet F.APC_PWRBUDGET_W v ∧ rd t bApc F.APC_PWRBUDGET_W = fldGet F.APC_PWRBUDGET_W v ∧ t.pw = pw) ∧
    (sleepMay 0 → (ph = phEnter → pw.target = 1 → ∃ t, exec (.powerLeaveS1 r) s = .next t ∧ okResp r 0 ∈ t.out ∧ aborted t) ∧
      (st = 1 → ph = phSteady → ∃ t, exec (.powerLeaveS1 r) s = .next t ∧ okResp r 0 ∈ t.out ∧ leaving t) ∧
      (¬ (ph = phEnter ∧ pw.target = 1) → ¬ (st = 1 ∧ ph = phSteady) → ∃ t, exec (.powerLeaveS1 r) s = .next t ∧ answered r u t)) ∧
    (ph ≠ phEnter ∨ (2 ≤ pw.target ∧ snapsOpen s = true) → exec .sleepEntryDone s = .next s) ∧
    (ph = phEnter → pw.target < 4 → (2 ≤ pw.target → snapsOpen s = false ∧ quiet s) → ∃ t, exec .sleepEntryDone s = .next t ∧ sleepState t = pw.target ∧ sleepPhase t = phSteady ∧
      ltNow t = ltNow s ∧ t.nv.fuse = s.nv.fuse ∧ (pw.target ≠ 2 → pw.target ≠ 3 → t.pw.enCmp = pw.enCmp ∧ t.looms = s.looms ∧ t.mem = s.mem) ∧
      (pw.target = 2 → t.pw.enCmp = false ∧ t.pw.enHbm = pw.enHbm ∧ t.pw.enIo = pw.enIo ∧ t.mem.hbm = s.mem.hbm ∧ (pw.enCmp = true → t.looms = [])) ∧
      (pw.target = 3 → t.pw.enCmp = false ∧ t.pw.enHbm = false ∧ t.pw.enIo = false ∧ (pw.enHbm = true → t.mem = MemSt.reset))) ∧
    (sees src → ∃ t, exec (.wakeEvent src) s = .next t ∧ woken src t) ∧
    (¬ sees src ∨ at' = 0 → at' < 4 → exec (.wakeEvent src) s = .next s) ∧
    (∃ t, exec .wakeSenseDebounce s = .next t ∧ rd t p F.POWER_STAT_WSABOVE = 1 ∧ (sees 0 → woken 0 t) ∧ (¬ sees 0 → at' < 4 → t = deb)) ∧
    (wakeLt = 0 ∨ ltAt s p < wakeLt → exec .wakeatReached s = .next s) ∧
    (wakeLt ≠ 0 → wakeLt ≤ ltAt s p → (sees 4 → ∃ t, exec .wakeatReached s = .next t ∧ woken 4 t) ∧ (¬ sees 4 → at' < 4 → exec .wakeatReached s = .next s)) ∧
    (ph ≠ phExit ∨ (st = 3 ∧ s.boot.active = true) → exec .sleepExitDone s = .next s) ∧
    (ph = phExit → st ≠ 3 ∨ s.boot.active = false → (∀ e ∈ s.ll.snaps, ∀ i, e.2 = some i → ∀ y ∈ i.regs, y.1 / 65536 < 4096) → ∃ t, exec .sleepExitDone s = .next t ∧ sleepState t = 0 ∧ sleepPhase t = phSteady ∧
      (st = 1 → t.looms = s.looms ∧ t.mem = s.mem) ∧
      (st = 2 → t.pw.enCmp = true ∧ t.mem.hbm = s.mem.hbm ∧ t.beat.n = pw.beatN ∧ (pw.wasStopped = true → beatState t = stStopped) ∧
        rdB t bApc F.STATE_READY = true ∧ rdB t bBeat F.STATE_READY = true))

/-- R644, R649, R674, R675, R677, R679: the level asked for comes into force where no beat is open; the hottest sensor is shown, throttles
at TJMAX and trips 10 °C above; a rail fault cuts its group's rails, latches its row and hands over; a lost crystal asserts FAULT_N and puts
LTIME into holdover, which LTIME_SRCLOST counts (R208); a missing power-good fails step 5 of the bring-up. (The model's readings here: log
entries 2, 89.) -/
def Obligations.PowerProtection : Prop :=
  ∀ (temps : List Int) (stack : Fin 2) (rail : Fin 12) (alert : Bool) (g : Fin 3) (s : State),
    let p := bPower
    let pw := s.pw
    let want := if rdB s p F.POWER_STAT_THROTTLE then (7, 1) else (rd s p F.POWER_PLEVEL_P, rd s p F.POWER_PLEVEL_W)
    let handed := fun (t : State) => t.ll.lost = true ∨ t.ll.handPend = true
    let fault := fun (c : Nat) (t : State) => rdB t p F.FAULTCAUSE_VALID = true ∧ (rd s p F.FAULTCAUSE_VALID = 0 → rd t p F.FAULTCAUSE_CAUSE = c)
    let gone := fun (t : State) => t.ll.lost = true ∨ (pw.enCmp = false ∧ t.ll.handPend = true)
    let tripped := fun (t : State) => t.pw.tripped = true ∧ t.pw.enCmp = false ∧ t.pw.enHbm = false ∧ t.pw.enIo = false ∧ sleepState t = 3 ∧ sleepPhase t = phSteady ∧
      gone t ∧ fault 0x0E01 t
    let top := if bits (fuse s 0).toNat 19 16 = 2 then (105 : Int) else 115
    let on := if rail.val < 2 then false else if rail.val < 5 then pw.enIo else if rail.val < 8 then pw.enHbm else pw.enCmp
    (want = pw.level ∨ (s.beat.isOpen = true ∧ noBoundary s = false) → exec .levelChangeDone s = .next s) ∧
    (want ≠ pw.level → s.beat.isOpen = false ∨ noBoundary s = true → ∃ t, exec .levelChangeDone s = .next t ∧ t.pw = { pw with level := want } ∧
      t = { s with pw := t.pw, regs := t.regs }) ∧
    (temps = [] → exec (.thermalSample temps) s = .next s) ∧
    (∀ th i, temps.length ≤ 54 → temps[i]? = some th → (∀ x ∈ temps, x ≤ th) → (∀ j, j < i → temps[j]? ≠ some th) → pw.tripped = false → quiet s →
      (-128 ≤ th → th ≤ 127 → th < top → ∃ t, exec (.thermalSample temps) s = .next t ∧ rdS t p F.POWER_TJ_DEGC = th ∧ rd t p F.POWER_TJ_SENSOR = i ∧
        t = { s with regs := t.regs } ∧ (pw.enCmp = true → ∀ c x, c < 4 → temps[52 + c / 2]? = some x → -128 ≤ x → rdS t (bHbmc c) F.HBMC_TEMP_MAXC = x)) ∧
      (top ≤ th → th < top + 10 → rdB s p F.POWER_STAT_THROTTLE = false → ∃ t, exec (.thermalSample temps) s = .next t ∧ rdB t p F.POWER_STAT_THROTTLE = true ∧
        t.pw = { pw with level := (7, 1), cool := 0 } ∧ rd t p F.POWER_THROTTLES_COUNT = (rd s p F.POWER_THROTTLES_COUNT + 1) % 2 ^ 32 ∧ fault 0x0E02 t) ∧
      (top + 10 ≤ th → ∃ t, exec (.thermalSample temps) s = .next t ∧ tripped t)) ∧
    (∀ th, temps = [th] → pw.tripped = true → th < top - 20 → pw.wake = false → ∃ t, exec (.thermalSample temps) s = .next t ∧ t.pw = { pw with tripped := false }) ∧
    (pw.enHbm = true → pw.tripped = false → quiet s → ∃ t, exec (.catastrophicTempFlag stack) s = .next t ∧ tripped t) ∧
    (pw.enHbm = false ∨ pw.tripped = true → exec (.catastrophicTempFlag stack) s = .next s) ∧
    (on = false ∨ (alert = true ∧ rail.val < 10) → exec (.railFault rail alert) s = .next s) ∧
    (on = true → (alert = true → 10 ≤ rail.val) → quiet s → ∃ t, exec (.railFault rail alert) s = .next t ∧ t.pw.railFault = true ∧ t.boot.active = false ∧
      t.pw.enCmp = false ∧ t.pw.enHbm = false ∧ t.pw.enIo = (pw.enIo && 5 ≤ rail.val) ∧ rd t p F.POWER_LASTREFUSER_BLOCK = 0xF00 + rail ∧ fault 0x0E03 t ∧ gone t) ∧
    (pw.rc = true → exec .xtalLost s = .next s) ∧
    (pw.rc = false → ∃ t, exec .xtalLost s = .next t ∧ t.pw = { pw with rc := true } ∧ t.ll.faultN = true ∧ handed t ∧ fault 0x0E04 t ∧
      rd t bLtime F.LTIME_STAT_HOLDOVER = 1 ∧ rd t bLtime F.LTIME_STAT_LOCKED = 0 ∧ t.ltime = s.ltime ∧
      rd t bLtime F.LTIME_SRCLOST_COUNT = (rd s bLtime F.LTIME_SRCLOST_COUNT + (if rdB s bLtime F.LTIME_STAT_HOLDOVER then 0 else 1)) % 2 ^ 32) ∧
    (s.boot.active = true → s.boot.cpr = false → 5 ∉ s.boot.ended → 4 ∈ s.boot.ended → ∃ t, exec (.powerGoodTimeout g) s = .next t ∧ t.boot = s.boot ∧
      rd t bFuse F.FUSE_BOOTSTAT_FAILSTEP = 5 ∧ rdB t bFuse F.FAULTCAUSE_VALID = true ∧ t.ll.faultN = true) ∧
    (s.boot.active = false ∨ s.boot.cpr = true ∨ 5 ∈ s.boot.ended ∨ 4 ∉ s.boot.ended → exec (.powerGoodTimeout g) s = .next s)

/-! ## The whole machine -/

/-- R66, R158, R392, R507, R597: the machine right after reset: no command waits, LT is 0, no block is READY, FAULT_N is asserted and ALIVE
low, no beat runs, and memories are in their canonical form; with no command waiting a step lets time pass (the model's choice, log entry
6). (The model's readings here: log entries 5, 6, 41, 44, 66, 128.) -/
def Obligations.ResetState : Prop :=
  State.reset.pending = [] ∧ ltNow State.reset = 0 ∧ (∀ b, rdB State.reset b F.STATE_READY = false) ∧ State.reset.ll.faultN = true ∧ State.reset.ll.alive = false ∧
    beatState State.reset = stIdle ∧ (∀ a, hbmByte State.reset a = 0) ∧ (∀ p, p < 8 → glimState State.reset p = gsOff) ∧ (∀ h i, lampVal State.reset h i = 0) ∧
    MemOk State.reset ∧ queueOk State.reset = true ∧ ∀ s : State, s.pending = [] → step s = .next (idle s)

/-- Every step keeps HBM and the register file in their canonical form. (The model's readings here: log entry 21.) -/
def Obligations.StepsKeepMemories : Prop := ∀ s t : State, Runs s t → MemOk s → MemOk t

/-- R582, R585: fuses are one-time programmable: no step clears a fuse bit; and every step takes the one command at the front off the queue,
no more and no fewer. -/
def Obligations.StepsKeepFusesAndQueue : Prop :=
  ∀ s t : State, Runs s t → (∀ i, fuse s i &&& fuse t i = fuse s i) ∧ t.pending = s.pending.tail
end

