-- ==== Sys2Proof/Laws/State.lean ====
section
/-!
SUPPORT. What the named updates of a state leave: one lemma per field that an update does not touch.
-/

namespace Sys2Proof.Machine

/-! ## regSet -/

@[simp] theorem regSet_pending (s : State) (b off idx : Nat) (w : Word) : (regSet s b off idx w).pending = s.pending := rfl
@[simp] theorem regSet_out (s : State) (b off idx : Nat) (w : Word) : (regSet s b off idx w).out = s.out := rfl
@[simp] theorem regSet_free (s : State) (b off idx : Nat) (w : Word) : (regSet s b off idx w).free = s.free := rfl
@[simp] theorem regSet_blk (s : State) (b off idx : Nat) (w : Word) : (regSet s b off idx w).blk = s.blk := rfl
@[simp] theorem regSet_hiLatch (s : State) (b off idx : Nat) (w : Word) : (regSet s b off idx w).hiLatch = s.hiLatch := rfl
@[simp] theorem regSet_decisions (s : State) (b off idx : Nat) (w : Word) : (regSet s b off idx w).decisions = s.decisions := rfl
@[simp] theorem regSet_looms (s : State) (b off idx : Nat) (w : Word) : (regSet s b off idx w).looms = s.looms := rfl
@[simp] theorem regSet_hubs (s : State) (b off idx : Nat) (w : Word) : (regSet s b off idx w).hubs = s.hubs := rfl
@[simp] theorem regSet_beat (s : State) (b off idx : Nat) (w : Word) : (regSet s b off idx w).beat = s.beat := rfl
@[simp] theorem regSet_ltime (s : State) (b off idx : Nat) (w : Word) : (regSet s b off idx w).ltime = s.ltime := rfl
@[simp] theorem regSet_ll (s : State) (b off idx : Nat) (w : Word) : (regSet s b off idx w).ll = s.ll := rfl
@[simp] theorem regSet_mem (s : State) (b off idx : Nat) (w : Word) : (regSet s b off idx w).mem = s.mem := rfl
@[simp] theorem regSet_shs (s : State) (b off idx : Nat) (w : Word) : (regSet s b off idx w).shs = s.shs := rfl
@[simp] theorem regSet_sess (s : State) (b off idx : Nat) (w : Word) : (regSet s b off idx w).sess = s.sess := rfl
@[simp] theorem regSet_glims (s : State) (b off idx : Nat) (w : Word) : (regSet s b off idx w).glims = s.glims := rfl
@[simp] theorem regSet_gpkg (s : State) (b off idx : Nat) (w : Word) : (regSet s b off idx w).gpkg = s.gpkg := rfl
@[simp] theorem regSet_lasers (s : State) (b off idx : Nat) (w : Word) : (regSet s b off idx w).lasers = s.lasers := rfl
@[simp] theorem regSet_reeds (s : State) (b off idx : Nat) (w : Word) : (regSet s b off idx w).reeds = s.reeds := rfl
@[simp] theorem regSet_pw (s : State) (b off idx : Nat) (w : Word) : (regSet s b off idx w).pw = s.pw := rfl
@[simp] theorem regSet_nv (s : State) (b off idx : Nat) (w : Word) : (regSet s b off idx w).nv = s.nv := rfl
@[simp] theorem regSet_tim (s : State) (b off idx : Nat) (w : Word) : (regSet s b off idx w).tim = s.tim := rfl
@[simp] theorem regSet_cust (s : State) (b off idx : Nat) (w : Word) : (regSet s b off idx w).cust = s.cust := rfl
@[simp] theorem regSet_boot (s : State) (b off idx : Nat) (w : Word) : (regSet s b off idx w).boot = s.boot := rfl
@[simp] theorem regSet_host (s : State) (b off idx : Nat) (w : Word) : (regSet s b off idx w).host = s.host := rfl
@[simp] theorem regSet_apc (s : State) (b off idx : Nat) (w : Word) : (regSet s b off idx w).apc = s.apc := rfl
@[simp] theorem regSet_cuts (s : State) (b off idx : Nat) (w : Word) : (regSet s b off idx w).cuts = s.cuts := rfl
@[simp] theorem regSet_clu (s : State) (b off idx : Nat) (w : Word) : (regSet s b off idx w).clu = s.clu := rfl
@[simp] theorem regSet_tap (s : State) (b off idx : Nat) (w : Word) : (regSet s b off idx w).tap = s.tap := rfl

/-! ## wrI -/

@[simp] theorem wrI_pending (s : State) (b : Nat) (f : Fld) (i v : Nat) : (wrI s b f i v).pending = s.pending := rfl
@[simp] theorem wrI_out (s : State) (b : Nat) (f : Fld) (i v : Nat) : (wrI s b f i v).out = s.out := rfl
@[simp] theorem wrI_free (s : State) (b : Nat) (f : Fld) (i v : Nat) : (wrI s b f i v).free = s.free := rfl
@[simp] theorem wrI_blk (s : State) (b : Nat) (f : Fld) (i v : Nat) : (wrI s b f i v).blk = s.blk := rfl
@[simp] theorem wrI_hiLatch (s : State) (b : Nat) (f : Fld) (i v : Nat) : (wrI s b f i v).hiLatch = s.hiLatch := rfl
@[simp] theorem wrI_decisions (s : State) (b : Nat) (f : Fld) (i v : Nat) : (wrI s b f i v).decisions = s.decisions := rfl
@[simp] theorem wrI_looms (s : State) (b : Nat) (f : Fld) (i v : Nat) : (wrI s b f i v).looms = s.looms := rfl
@[simp] theorem wrI_hubs (s : State) (b : Nat) (f : Fld) (i v : Nat) : (wrI s b f i v).hubs = s.hubs := rfl
@[simp] theorem wrI_beat (s : State) (b : Nat) (f : Fld) (i v : Nat) : (wrI s b f i v).beat = s.beat := rfl
@[simp] theorem wrI_ltime (s : State) (b : Nat) (f : Fld) (i v : Nat) : (wrI s b f i v).ltime = s.ltime := rfl
@[simp] theorem wrI_ll (s : State) (b : Nat) (f : Fld) (i v : Nat) : (wrI s b f i v).ll = s.ll := rfl
@[simp] theorem wrI_mem (s : State) (b : Nat) (f : Fld) (i v : Nat) : (wrI s b f i v).mem = s.mem := rfl
@[simp] theorem wrI_shs (s : State) (b : Nat) (f : Fld) (i v : Nat) : (wrI s b f i v).shs = s.shs := rfl
@[simp] theorem wrI_sess (s : State) (b : Nat) (f : Fld) (i v : Nat) : (wrI s b f i v).sess = s.sess := rfl
@[simp] theorem wrI_glims (s : State) (b : Nat) (f : Fld) (i v : Nat) : (wrI s b f i v).glims = s.glims := rfl
@[simp] theorem wrI_gpkg (s : State) (b : Nat) (f : Fld) (i v : Nat) : (wrI s b f i v).gpkg = s.gpkg := rfl
@[simp] theorem wrI_lasers (s : State) (b : Nat) (f : Fld) (i v : Nat) : (wrI s b f i v).lasers = s.lasers := rfl
@[simp] theorem wrI_reeds (s : State) (b : Nat) (f : Fld) (i v : Nat) : (wrI s b f i v).reeds = s.reeds := rfl
@[simp] theorem wrI_pw (s : State) (b : Nat) (f : Fld) (i v : Nat) : (wrI s b f i v).pw = s.pw := rfl
@[simp] theorem wrI_nv (s : State) (b : Nat) (f : Fld) (i v : Nat) : (wrI s b f i v).nv = s.nv := rfl
@[simp] theorem wrI_tim (s : State) (b : Nat) (f : Fld) (i v : Nat) : (wrI s b f i v).tim = s.tim := rfl
@[simp] theorem wrI_cust (s : State) (b : Nat) (f : Fld) (i v : Nat) : (wrI s b f i v).cust = s.cust := rfl
@[simp] theorem wrI_boot (s : State) (b : Nat) (f : Fld) (i v : Nat) : (wrI s b f i v).boot = s.boot := rfl
@[simp] theorem wrI_host (s : State) (b : Nat) (f : Fld) (i v : Nat) : (wrI s b f i v).host = s.host := rfl
@[simp] theorem wrI_apc (s : State) (b : Nat) (f : Fld) (i v : Nat) : (wrI s b f i v).apc = s.apc := rfl
@[simp] theorem wrI_cuts (s : State) (b : Nat) (f : Fld) (i v : Nat) : (wrI s b f i v).cuts = s.cuts := rfl
@[simp] theorem wrI_clu (s : State) (b : Nat) (f : Fld) (i v : Nat) : (wrI s b f i v).clu = s.clu := rfl
@[simp] theorem wrI_tap (s : State) (b : Nat) (f : Fld) (i v : Nat) : (wrI s b f i v).tap = s.tap := rfl

/-! ## wr -/

@[simp] theorem wr_pending (s : State) (b : Nat) (f : Fld) (v : Nat) : (wr s b f v).pending = s.pending := rfl
@[simp] theorem wr_out (s : State) (b : Nat) (f : Fld) (v : Nat) : (wr s b f v).out = s.out := rfl
@[simp] theorem wr_free (s : State) (b : Nat) (f : Fld) (v : Nat) : (wr s b f v).free = s.free := rfl
@[simp] theorem wr_blk (s : State) (b : Nat) (f : Fld) (v : Nat) : (wr s b f v).blk = s.blk := rfl
@[simp] theorem wr_hiLatch (s : State) (b : Nat) (f : Fld) (v : Nat) : (wr s b f v).hiLatch = s.hiLatch := rfl
@[simp] theorem wr_decisions (s : State) (b : Nat) (f : Fld) (v : Nat) : (wr s b f v).decisions = s.decisions := rfl
@[simp] theorem wr_looms (s : State) (b : Nat) (f : Fld) (v : Nat) : (wr s b f v).looms = s.looms := rfl
@[simp] theorem wr_hubs (s : State) (b : Nat) (f : Fld) (v : Nat) : (wr s b f v).hubs = s.hubs := rfl
@[simp] theorem wr_beat (s : State) (b : Nat) (f : Fld) (v : Nat) : (wr s b f v).beat = s.beat := rfl
@[simp] theorem wr_ltime (s : State) (b : Nat) (f : Fld) (v : Nat) : (wr s b f v).ltime = s.ltime := rfl
@[simp] theorem wr_ll (s : State) (b : Nat) (f : Fld) (v : Nat) : (wr s b f v).ll = s.ll := rfl
@[simp] theorem wr_mem (s : State) (b : Nat) (f : Fld) (v : Nat) : (wr s b f v).mem = s.mem := rfl
@[simp] theorem wr_shs (s : State) (b : Nat) (f : Fld) (v : Nat) : (wr s b f v).shs = s.shs := rfl
@[simp] theorem wr_sess (s : State) (b : Nat) (f : Fld) (v : Nat) : (wr s b f v).sess = s.sess := rfl
@[simp] theorem wr_glims (s : State) (b : Nat) (f : Fld) (v : Nat) : (wr s b f v).glims = s.glims := rfl
@[simp] theorem wr_gpkg (s : State) (b : Nat) (f : Fld) (v : Nat) : (wr s b f v).gpkg = s.gpkg := rfl
@[simp] theorem wr_lasers (s : State) (b : Nat) (f : Fld) (v : Nat) : (wr s b f v).lasers = s.lasers := rfl
@[simp] theorem wr_reeds (s : State) (b : Nat) (f : Fld) (v : Nat) : (wr s b f v).reeds = s.reeds := rfl
@[simp] theorem wr_pw (s : State) (b : Nat) (f : Fld) (v : Nat) : (wr s b f v).pw = s.pw := rfl
@[simp] theorem wr_nv (s : State) (b : Nat) (f : Fld) (v : Nat) : (wr s b f v).nv = s.nv := rfl
@[simp] theorem wr_tim (s : State) (b : Nat) (f : Fld) (v : Nat) : (wr s b f v).tim = s.tim := rfl
@[simp] theorem wr_cust (s : State) (b : Nat) (f : Fld) (v : Nat) : (wr s b f v).cust = s.cust := rfl
@[simp] theorem wr_boot (s : State) (b : Nat) (f : Fld) (v : Nat) : (wr s b f v).boot = s.boot := rfl
@[simp] theorem wr_host (s : State) (b : Nat) (f : Fld) (v : Nat) : (wr s b f v).host = s.host := rfl
@[simp] theorem wr_apc (s : State) (b : Nat) (f : Fld) (v : Nat) : (wr s b f v).apc = s.apc := rfl
@[simp] theorem wr_cuts (s : State) (b : Nat) (f : Fld) (v : Nat) : (wr s b f v).cuts = s.cuts := rfl
@[simp] theorem wr_clu (s : State) (b : Nat) (f : Fld) (v : Nat) : (wr s b f v).clu = s.clu := rfl
@[simp] theorem wr_tap (s : State) (b : Nat) (f : Fld) (v : Nat) : (wr s b f v).tap = s.tap := rfl

/-! ## incBy -/

@[simp] theorem incBy_pending (s : State) (b : Nat) (f : Fld) (n : Nat) : (incBy s b f n).pending = s.pending := rfl
@[simp] theorem incBy_out (s : State) (b : Nat) (f : Fld) (n : Nat) : (incBy s b f n).out = s.out := rfl
@[simp] theorem incBy_free (s : State) (b : Nat) (f : Fld) (n : Nat) : (incBy s b f n).free = s.free := rfl
@[simp] theorem incBy_blk (s : State) (b : Nat) (f : Fld) (n : Nat) : (incBy s b f n).blk = s.blk := rfl
@[simp] theorem incBy_hiLatch (s : State) (b : Nat) (f : Fld) (n : Nat) : (incBy s b f n).hiLatch = s.hiLatch := rfl
@[simp] theorem incBy_decisions (s : State) (b : Nat) (f : Fld) (n : Nat) : (incBy s b f n).decisions = s.decisions := rfl
@[simp] theorem incBy_looms (s : State) (b : Nat) (f : Fld) (n : Nat) : (incBy s b f n).looms = s.looms := rfl
@[simp] theorem incBy_hubs (s : State) (b : Nat) (f : Fld) (n : Nat) : (incBy s b f n).hubs = s.hubs := rfl
@[simp] theorem incBy_beat (s : State) (b : Nat) (f : Fld) (n : Nat) : (incBy s b f n).beat = s.beat := rfl
@[simp] theorem incBy_ltime (s : State) (b : Nat) (f : Fld) (n : Nat) : (incBy s b f n).ltime = s.ltime := rfl
@[simp] theorem incBy_ll (s : State) (b : Nat) (f : Fld) (n : Nat) : (incBy s b f n).ll = s.ll := rfl
@[simp] theorem incBy_mem (s : State) (b : Nat) (f : Fld) (n : Nat) : (incBy s b f n).mem = s.mem := rfl
@[simp] theorem incBy_shs (s : State) (b : Nat) (f : Fld) (n : Nat) : (incBy s b f n).shs = s.shs := rfl
@[simp] theorem incBy_sess (s : State) (b : Nat) (f : Fld) (n : Nat) : (incBy s b f n).sess = s.sess := rfl
@[simp] theorem incBy_glims (s : State) (b : Nat) (f : Fld) (n : Nat) : (incBy s b f n).glims = s.glims := rfl
@[simp] theorem incBy_gpkg (s : State) (b : Nat) (f : Fld) (n : Nat) : (incBy s b f n).gpkg = s.gpkg := rfl
@[simp] theorem incBy_lasers (s : State) (b : Nat) (f : Fld) (n : Nat) : (incBy s b f n).lasers = s.lasers := rfl
@[simp] theorem incBy_reeds (s : State) (b : Nat) (f : Fld) (n : Nat) : (incBy s b f n).reeds = s.reeds := rfl
@[simp] theorem incBy_pw (s : State) (b : Nat) (f : Fld) (n : Nat) : (incBy s b f n).pw = s.pw := rfl
@[simp] theorem incBy_nv (s : State) (b : Nat) (f : Fld) (n : Nat) : (incBy s b f n).nv = s.nv := rfl
@[simp] theorem incBy_tim (s : State) (b : Nat) (f : Fld) (n : Nat) : (incBy s b f n).tim = s.tim := rfl
@[simp] theorem incBy_cust (s : State) (b : Nat) (f : Fld) (n : Nat) : (incBy s b f n).cust = s.cust := rfl
@[simp] theorem incBy_boot (s : State) (b : Nat) (f : Fld) (n : Nat) : (incBy s b f n).boot = s.boot := rfl
@[simp] theorem incBy_host (s : State) (b : Nat) (f : Fld) (n : Nat) : (incBy s b f n).host = s.host := rfl
@[simp] theorem incBy_apc (s : State) (b : Nat) (f : Fld) (n : Nat) : (incBy s b f n).apc = s.apc := rfl
@[simp] theorem incBy_cuts (s : State) (b : Nat) (f : Fld) (n : Nat) : (incBy s b f n).cuts = s.cuts := rfl
@[simp] theorem incBy_clu (s : State) (b : Nat) (f : Fld) (n : Nat) : (incBy s b f n).clu = s.clu := rfl
@[simp] theorem incBy_tap (s : State) (b : Nat) (f : Fld) (n : Nat) : (incBy s b f n).tap = s.tap := rfl

/-! ## inc -/

@[simp] theorem inc_pending (s : State) (b : Nat) (f : Fld) : (inc s b f).pending = s.pending := rfl
@[simp] theorem inc_out (s : State) (b : Nat) (f : Fld) : (inc s b f).out = s.out := rfl
@[simp] theorem inc_free (s : State) (b : Nat) (f : Fld) : (inc s b f).free = s.free := rfl
@[simp] theorem inc_blk (s : State) (b : Nat) (f : Fld) : (inc s b f).blk = s.blk := rfl
@[simp] theorem inc_hiLatch (s : State) (b : Nat) (f : Fld) : (inc s b f).hiLatch = s.hiLatch := rfl
@[simp] theorem inc_decisions (s : State) (b : Nat) (f : Fld) : (inc s b f).decisions = s.decisions := rfl
@[simp] theorem inc_looms (s : State) (b : Nat) (f : Fld) : (inc s b f).looms = s.looms := rfl
@[simp] theorem inc_hubs (s : State) (b : Nat) (f : Fld) : (inc s b f).hubs = s.hubs := rfl
@[simp] theorem inc_beat (s : State) (b : Nat) (f : Fld) : (inc s b f).beat = s.beat := rfl
@[simp] theorem inc_ltime (s : State) (b : Nat) (f : Fld) : (inc s b f).ltime = s.ltime := rfl
@[simp] theorem inc_ll (s : State) (b : Nat) (f : Fld) : (inc s b f).ll = s.ll := rfl
@[simp] theorem inc_mem (s : State) (b : Nat) (f : Fld) : (inc s b f).mem = s.mem := rfl
@[simp] theorem inc_shs (s : State) (b : Nat) (f : Fld) : (inc s b f).shs = s.shs := rfl
@[simp] theorem inc_sess (s : State) (b : Nat) (f : Fld) : (inc s b f).sess = s.sess := rfl
@[simp] theorem inc_glims (s : State) (b : Nat) (f : Fld) : (inc s b f).glims = s.glims := rfl
@[simp] theorem inc_gpkg (s : State) (b : Nat) (f : Fld) : (inc s b f).gpkg = s.gpkg := rfl
@[simp] theorem inc_lasers (s : State) (b : Nat) (f : Fld) : (inc s b f).lasers = s.lasers := rfl
@[simp] theorem inc_reeds (s : State) (b : Nat) (f : Fld) : (inc s b f).reeds = s.reeds := rfl
@[simp] theorem inc_pw (s : State) (b : Nat) (f : Fld) : (inc s b f).pw = s.pw := rfl
@[simp] theorem inc_nv (s : State) (b : Nat) (f : Fld) : (inc s b f).nv = s.nv := rfl
@[simp] theorem inc_tim (s : State) (b : Nat) (f : Fld) : (inc s b f).tim = s.tim := rfl
@[simp] theorem inc_cust (s : State) (b : Nat) (f : Fld) : (inc s b f).cust = s.cust := rfl
@[simp] theorem inc_boot (s : State) (b : Nat) (f : Fld) : (inc s b f).boot = s.boot := rfl
@[simp] theorem inc_host (s : State) (b : Nat) (f : Fld) : (inc s b f).host = s.host := rfl
@[simp] theorem inc_apc (s : State) (b : Nat) (f : Fld) : (inc s b f).apc = s.apc := rfl
@[simp] theorem inc_cuts (s : State) (b : Nat) (f : Fld) : (inc s b f).cuts = s.cuts := rfl
@[simp] theorem inc_clu (s : State) (b : Nat) (f : Fld) : (inc s b f).clu = s.clu := rfl
@[simp] theorem inc_tap (s : State) (b : Nat) (f : Fld) : (inc s b f).tap = s.tap := rfl

/-! ## wrPair -/

@[simp] theorem wrPair_pending (s : State) (b : Nat) (lo hi : Fld) (v : Nat) : (wrPair s b lo hi v).pending = s.pending := rfl
@[simp] theorem wrPair_out (s : State) (b : Nat) (lo hi : Fld) (v : Nat) : (wrPair s b lo hi v).out = s.out := rfl
@[simp] theorem wrPair_free (s : State) (b : Nat) (lo hi : Fld) (v : Nat) : (wrPair s b lo hi v).free = s.free := rfl
@[simp] theorem wrPair_blk (s : State) (b : Nat) (lo hi : Fld) (v : Nat) : (wrPair s b lo hi v).blk = s.blk := rfl
@[simp] theorem wrPair_hiLatch (s : State) (b : Nat) (lo hi : Fld) (v : Nat) : (wrPair s b lo hi v).hiLatch = s.hiLatch := rfl
@[simp] theorem wrPair_decisions (s : State) (b : Nat) (lo hi : Fld) (v : Nat) : (wrPair s b lo hi v).decisions = s.decisions := rfl
@[simp] theorem wrPair_looms (s : State) (b : Nat) (lo hi : Fld) (v : Nat) : (wrPair s b lo hi v).looms = s.looms := rfl
@[simp] theorem wrPair_hubs (s : State) (b : Nat) (lo hi : Fld) (v : Nat) : (wrPair s b lo hi v).hubs = s.hubs := rfl
@[simp] theorem wrPair_beat (s : State) (b : Nat) (lo hi : Fld) (v : Nat) : (wrPair s b lo hi v).beat = s.beat := rfl
@[simp] theorem wrPair_ltime (s : State) (b : Nat) (lo hi : Fld) (v : Nat) : (wrPair s b lo hi v).ltime = s.ltime := rfl
@[simp] theorem wrPair_ll (s : State) (b : Nat) (lo hi : Fld) (v : Nat) : (wrPair s b lo hi v).ll = s.ll := rfl
@[simp] theorem wrPair_mem (s : State) (b : Nat) (lo hi : Fld) (v : Nat) : (wrPair s b lo hi v).mem = s.mem := rfl
@[simp] theorem wrPair_shs (s : State) (b : Nat) (lo hi : Fld) (v : Nat) : (wrPair s b lo hi v).shs = s.shs := rfl
@[simp] theorem wrPair_sess (s : State) (b : Nat) (lo hi : Fld) (v : Nat) : (wrPair s b lo hi v).sess = s.sess := rfl
@[simp] theorem wrPair_glims (s : State) (b : Nat) (lo hi : Fld) (v : Nat) : (wrPair s b lo hi v).glims = s.glims := rfl
@[simp] theorem wrPair_gpkg (s : State) (b : Nat) (lo hi : Fld) (v : Nat) : (wrPair s b lo hi v).gpkg = s.gpkg := rfl
@[simp] theorem wrPair_lasers (s : State) (b : Nat) (lo hi : Fld) (v : Nat) : (wrPair s b lo hi v).lasers = s.lasers := rfl
@[simp] theorem wrPair_reeds (s : State) (b : Nat) (lo hi : Fld) (v : Nat) : (wrPair s b lo hi v).reeds = s.reeds := rfl
@[simp] theorem wrPair_pw (s : State) (b : Nat) (lo hi : Fld) (v : Nat) : (wrPair s b lo hi v).pw = s.pw := rfl
@[simp] theorem wrPair_nv (s : State) (b : Nat) (lo hi : Fld) (v : Nat) : (wrPair s b lo hi v).nv = s.nv := rfl
@[simp] theorem wrPair_tim (s : State) (b : Nat) (lo hi : Fld) (v : Nat) : (wrPair s b lo hi v).tim = s.tim := rfl
@[simp] theorem wrPair_cust (s : State) (b : Nat) (lo hi : Fld) (v : Nat) : (wrPair s b lo hi v).cust = s.cust := rfl
@[simp] theorem wrPair_boot (s : State) (b : Nat) (lo hi : Fld) (v : Nat) : (wrPair s b lo hi v).boot = s.boot := rfl
@[simp] theorem wrPair_host (s : State) (b : Nat) (lo hi : Fld) (v : Nat) : (wrPair s b lo hi v).host = s.host := rfl
@[simp] theorem wrPair_apc (s : State) (b : Nat) (lo hi : Fld) (v : Nat) : (wrPair s b lo hi v).apc = s.apc := rfl
@[simp] theorem wrPair_cuts (s : State) (b : Nat) (lo hi : Fld) (v : Nat) : (wrPair s b lo hi v).cuts = s.cuts := rfl
@[simp] theorem wrPair_clu (s : State) (b : Nat) (lo hi : Fld) (v : Nat) : (wrPair s b lo hi v).clu = s.clu := rfl
@[simp] theorem wrPair_tap (s : State) (b : Nat) (lo hi : Fld) (v : Nat) : (wrPair s b lo hi v).tap = s.tap := rfl

/-! ## setTxn -/

@[simp] theorem setTxn_pending (s : State) (b ts res : Nat) : (setTxn s b ts res).pending = s.pending := rfl
@[simp] theorem setTxn_out (s : State) (b ts res : Nat) : (setTxn s b ts res).out = s.out := rfl
@[simp] theorem setTxn_free (s : State) (b ts res : Nat) : (setTxn s b ts res).free = s.free := rfl
@[simp] theorem setTxn_blk (s : State) (b ts res : Nat) : (setTxn s b ts res).blk = s.blk := rfl
@[simp] theorem setTxn_hiLatch (s : State) (b ts res : Nat) : (setTxn s b ts res).hiLatch = s.hiLatch := rfl
@[simp] theorem setTxn_decisions (s : State) (b ts res : Nat) : (setTxn s b ts res).decisions = s.decisions := rfl
@[simp] theorem setTxn_looms (s : State) (b ts res : Nat) : (setTxn s b ts res).looms = s.looms := rfl
@[simp] theorem setTxn_hubs (s : State) (b ts res : Nat) : (setTxn s b ts res).hubs = s.hubs := rfl
@[simp] theorem setTxn_beat (s : State) (b ts res : Nat) : (setTxn s b ts res).beat = s.beat := rfl
@[simp] theorem setTxn_ltime (s : State) (b ts res : Nat) : (setTxn s b ts res).ltime = s.ltime := rfl
@[simp] theorem setTxn_ll (s : State) (b ts res : Nat) : (setTxn s b ts res).ll = s.ll := rfl
@[simp] theorem setTxn_mem (s : State) (b ts res : Nat) : (setTxn s b ts res).mem = s.mem := rfl
@[simp] theorem setTxn_shs (s : State) (b ts res : Nat) : (setTxn s b ts res).shs = s.shs := rfl
@[simp] theorem setTxn_sess (s : State) (b ts res : Nat) : (setTxn s b ts res).sess = s.sess := rfl
@[simp] theorem setTxn_glims (s : State) (b ts res : Nat) : (setTxn s b ts res).glims = s.glims := rfl
@[simp] theorem setTxn_gpkg (s : State) (b ts res : Nat) : (setTxn s b ts res).gpkg = s.gpkg := rfl
@[simp] theorem setTxn_lasers (s : State) (b ts res : Nat) : (setTxn s b ts res).lasers = s.lasers := rfl
@[simp] theorem setTxn_reeds (s : State) (b ts res : Nat) : (setTxn s b ts res).reeds = s.reeds := rfl
@[simp] theorem setTxn_pw (s : State) (b ts res : Nat) : (setTxn s b ts res).pw = s.pw := rfl
@[simp] theorem setTxn_nv (s : State) (b ts res : Nat) : (setTxn s b ts res).nv = s.nv := rfl
@[simp] theorem setTxn_tim (s : State) (b ts res : Nat) : (setTxn s b ts res).tim = s.tim := rfl
@[simp] theorem setTxn_cust (s : State) (b ts res : Nat) : (setTxn s b ts res).cust = s.cust := rfl
@[simp] theorem setTxn_boot (s : State) (b ts res : Nat) : (setTxn s b ts res).boot = s.boot := rfl
@[simp] theorem setTxn_host (s : State) (b ts res : Nat) : (setTxn s b ts res).host = s.host := rfl
@[simp] theorem setTxn_apc (s : State) (b ts res : Nat) : (setTxn s b ts res).apc = s.apc := rfl
@[simp] theorem setTxn_cuts (s : State) (b ts res : Nat) : (setTxn s b ts res).cuts = s.cuts := rfl
@[simp] theorem setTxn_clu (s : State) (b ts res : Nat) : (setTxn s b ts res).clu = s.clu := rfl
@[simp] theorem setTxn_tap (s : State) (b ts res : Nat) : (setTxn s b ts res).tap = s.tap := rfl

/-! ## setCtl -/

@[simp] theorem setCtl_pending (s : State) (b : Nat) (c : BlockCtl) : (setCtl s b c).pending = s.pending := rfl
@[simp] theorem setCtl_out (s : State) (b : Nat) (c : BlockCtl) : (setCtl s b c).out = s.out := rfl
@[simp] theorem setCtl_free (s : State) (b : Nat) (c : BlockCtl) : (setCtl s b c).free = s.free := rfl
@[simp] theorem setCtl_regs (s : State) (b : Nat) (c : BlockCtl) : (setCtl s b c).regs = s.regs := rfl
@[simp] theorem setCtl_hiLatch (s : State) (b : Nat) (c : BlockCtl) : (setCtl s b c).hiLatch = s.hiLatch := rfl
@[simp] theorem setCtl_decisions (s : State) (b : Nat) (c : BlockCtl) : (setCtl s b c).decisions = s.decisions := rfl
@[simp] theorem setCtl_looms (s : State) (b : Nat) (c : BlockCtl) : (setCtl s b c).looms = s.looms := rfl
@[simp] theorem setCtl_hubs (s : State) (b : Nat) (c : BlockCtl) : (setCtl s b c).hubs = s.hubs := rfl
@[simp] theorem setCtl_beat (s : State) (b : Nat) (c : BlockCtl) : (setCtl s b c).beat = s.beat := rfl
@[simp] theorem setCtl_ltime (s : State) (b : Nat) (c : BlockCtl) : (setCtl s b c).ltime = s.ltime := rfl
@[simp] theorem setCtl_ll (s : State) (b : Nat) (c : BlockCtl) : (setCtl s b c).ll = s.ll := rfl
@[simp] theorem setCtl_mem (s : State) (b : Nat) (c : BlockCtl) : (setCtl s b c).mem = s.mem := rfl
@[simp] theorem setCtl_shs (s : State) (b : Nat) (c : BlockCtl) : (setCtl s b c).shs = s.shs := rfl
@[simp] theorem setCtl_sess (s : State) (b : Nat) (c : BlockCtl) : (setCtl s b c).sess = s.sess := rfl
@[simp] theorem setCtl_glims (s : State) (b : Nat) (c : BlockCtl) : (setCtl s b c).glims = s.glims := rfl
@[simp] theorem setCtl_gpkg (s : State) (b : Nat) (c : BlockCtl) : (setCtl s b c).gpkg = s.gpkg := rfl
@[simp] theorem setCtl_lasers (s : State) (b : Nat) (c : BlockCtl) : (setCtl s b c).lasers = s.lasers := rfl
@[simp] theorem setCtl_reeds (s : State) (b : Nat) (c : BlockCtl) : (setCtl s b c).reeds = s.reeds := rfl
@[simp] theorem setCtl_pw (s : State) (b : Nat) (c : BlockCtl) : (setCtl s b c).pw = s.pw := rfl
@[simp] theorem setCtl_nv (s : State) (b : Nat) (c : BlockCtl) : (setCtl s b c).nv = s.nv := rfl
@[simp] theorem setCtl_tim (s : State) (b : Nat) (c : BlockCtl) : (setCtl s b c).tim = s.tim := rfl
@[simp] theorem setCtl_cust (s : State) (b : Nat) (c : BlockCtl) : (setCtl s b c).cust = s.cust := rfl
@[simp] theorem setCtl_boot (s : State) (b : Nat) (c : BlockCtl) : (setCtl s b c).boot = s.boot := rfl
@[simp] theorem setCtl_host (s : State) (b : Nat) (c : BlockCtl) : (setCtl s b c).host = s.host := rfl
@[simp] theorem setCtl_apc (s : State) (b : Nat) (c : BlockCtl) : (setCtl s b c).apc = s.apc := rfl
@[simp] theorem setCtl_cuts (s : State) (b : Nat) (c : BlockCtl) : (setCtl s b c).cuts = s.cuts := rfl
@[simp] theorem setCtl_clu (s : State) (b : Nat) (c : BlockCtl) : (setCtl s b c).clu = s.clu := rfl
@[simp] theorem setCtl_tap (s : State) (b : Nat) (c : BlockCtl) : (setCtl s b c).tap = s.tap := rfl

/-! ## setLoom -/

@[simp] theorem setLoom_pending (s : State) (l : Nat) (x : Loom) : (setLoom s l x).pending = s.pending := rfl
@[simp] theorem setLoom_out (s : State) (l : Nat) (x : Loom) : (setLoom s l x).out = s.out := rfl
@[simp] theorem setLoom_free (s : State) (l : Nat) (x : Loom) : (setLoom s l x).free = s.free := rfl
@[simp] theorem setLoom_regs (s : State) (l : Nat) (x : Loom) : (setLoom s l x).regs = s.regs := rfl
@[simp] theorem setLoom_blk (s : State) (l : Nat) (x : Loom) : (setLoom s l x).blk = s.blk := rfl
@[simp] theorem setLoom_hiLatch (s : State) (l : Nat) (x : Loom) : (setLoom s l x).hiLatch = s.hiLatch := rfl
@[simp] theorem setLoom_decisions (s : State) (l : Nat) (x : Loom) : (setLoom s l x).decisions = s.decisions := rfl
@[simp] theorem setLoom_hubs (s : State) (l : Nat) (x : Loom) : (setLoom s l x).hubs = s.hubs := rfl
@[simp] theorem setLoom_beat (s : State) (l : Nat) (x : Loom) : (setLoom s l x).beat = s.beat := rfl
@[simp] theorem setLoom_ltime (s : State) (l : Nat) (x : Loom) : (setLoom s l x).ltime = s.ltime := rfl
@[simp] theorem setLoom_ll (s : State) (l : Nat) (x : Loom) : (setLoom s l x).ll = s.ll := rfl
@[simp] theorem setLoom_mem (s : State) (l : Nat) (x : Loom) : (setLoom s l x).mem = s.mem := rfl
@[simp] theorem setLoom_shs (s : State) (l : Nat) (x : Loom) : (setLoom s l x).shs = s.shs := rfl
@[simp] theorem setLoom_sess (s : State) (l : Nat) (x : Loom) : (setLoom s l x).sess = s.sess := rfl
@[simp] theorem setLoom_glims (s : State) (l : Nat) (x : Loom) : (setLoom s l x).glims = s.glims := rfl
@[simp] theorem setLoom_gpkg (s : State) (l : Nat) (x : Loom) : (setLoom s l x).gpkg = s.gpkg := rfl
@[simp] theorem setLoom_lasers (s : State) (l : Nat) (x : Loom) : (setLoom s l x).lasers = s.lasers := rfl
@[simp] theorem setLoom_reeds (s : State) (l : Nat) (x : Loom) : (setLoom s l x).reeds = s.reeds := rfl
@[simp] theorem setLoom_pw (s : State) (l : Nat) (x : Loom) : (setLoom s l x).pw = s.pw := rfl
@[simp] theorem setLoom_nv (s : State) (l : Nat) (x : Loom) : (setLoom s l x).nv = s.nv := rfl
@[simp] theorem setLoom_tim (s : State) (l : Nat) (x : Loom) : (setLoom s l x).tim = s.tim := rfl
@[simp] theorem setLoom_cust (s : State) (l : Nat) (x : Loom) : (setLoom s l x).cust = s.cust := rfl
@[simp] theorem setLoom_boot (s : State) (l : Nat) (x : Loom) : (setLoom s l x).boot = s.boot := rfl
@[simp] theorem setLoom_host (s : State) (l : Nat) (x : Loom) : (setLoom s l x).host = s.host := rfl
@[simp] theorem setLoom_apc (s : State) (l : Nat) (x : Loom) : (setLoom s l x).apc = s.apc := rfl
@[simp] theorem setLoom_cuts (s : State) (l : Nat) (x : Loom) : (setLoom s l x).cuts = s.cuts := rfl
@[simp] theorem setLoom_clu (s : State) (l : Nat) (x : Loom) : (setLoom s l x).clu = s.clu := rfl
@[simp] theorem setLoom_tap (s : State) (l : Nat) (x : Loom) : (setLoom s l x).tap = s.tap := rfl

/-! ## modLoom -/

@[simp] theorem modLoom_pending (s : State) (l : Nat) (f : Loom → Loom) : (modLoom s l f).pending = s.pending := rfl
@[simp] theorem modLoom_out (s : State) (l : Nat) (f : Loom → Loom) : (modLoom s l f).out = s.out := rfl
@[simp] theorem modLoom_free (s : State) (l : Nat) (f : Loom → Loom) : (modLoom s l f).free = s.free := rfl
@[simp] theorem modLoom_regs (s : State) (l : Nat) (f : Loom → Loom) : (modLoom s l f).regs = s.regs := rfl
@[simp] theorem modLoom_blk (s : State) (l : Nat) (f : Loom → Loom) : (modLoom s l f).blk = s.blk := rfl
@[simp] theorem modLoom_hiLatch (s : State) (l : Nat) (f : Loom → Loom) : (modLoom s l f).hiLatch = s.hiLatch := rfl
@[simp] theorem modLoom_decisions (s : State) (l : Nat) (f : Loom → Loom) : (modLoom s l f).decisions = s.decisions := rfl
@[simp] theorem modLoom_hubs (s : State) (l : Nat) (f : Loom → Loom) : (modLoom s l f).hubs = s.hubs := rfl
@[simp] theorem modLoom_beat (s : State) (l : Nat) (f : Loom → Loom) : (modLoom s l f).beat = s.beat := rfl
@[simp] theorem modLoom_ltime (s : State) (l : Nat) (f : Loom → Loom) : (modLoom s l f).ltime = s.ltime := rfl
@[simp] theorem modLoom_ll (s : State) (l : Nat) (f : Loom → Loom) : (modLoom s l f).ll = s.ll := rfl
@[simp] theorem modLoom_mem (s : State) (l : Nat) (f : Loom → Loom) : (modLoom s l f).mem = s.mem := rfl
@[simp] theorem modLoom_shs (s : State) (l : Nat) (f : Loom → Loom) : (modLoom s l f).shs = s.shs := rfl
@[simp] theorem modLoom_sess (s : State) (l : Nat) (f : Loom → Loom) : (modLoom s l f).sess = s.sess := rfl
@[simp] theorem modLoom_glims (s : State) (l : Nat) (f : Loom → Loom) : (modLoom s l f).glims = s.glims := rfl
@[simp] theorem modLoom_gpkg (s : State) (l : Nat) (f : Loom → Loom) : (modLoom s l f).gpkg = s.gpkg := rfl
@[simp] theorem modLoom_lasers (s : State) (l : Nat) (f : Loom → Loom) : (modLoom s l f).lasers = s.lasers := rfl
@[simp] theorem modLoom_reeds (s : State) (l : Nat) (f : Loom → Loom) : (modLoom s l f).reeds = s.reeds := rfl
@[simp] theorem modLoom_pw (s : State) (l : Nat) (f : Loom → Loom) : (modLoom s l f).pw = s.pw := rfl
@[simp] theorem modLoom_nv (s : State) (l : Nat) (f : Loom → Loom) : (modLoom s l f).nv = s.nv := rfl
@[simp] theorem modLoom_tim (s : State) (l : Nat) (f : Loom → Loom) : (modLoom s l f).tim = s.tim := rfl
@[simp] theorem modLoom_cust (s : State) (l : Nat) (f : Loom → Loom) : (modLoom s l f).cust = s.cust := rfl
@[simp] theorem modLoom_boot (s : State) (l : Nat) (f : Loom → Loom) : (modLoom s l f).boot = s.boot := rfl
@[simp] theorem modLoom_host (s : State) (l : Nat) (f : Loom → Loom) : (modLoom s l f).host = s.host := rfl
@[simp] theorem modLoom_apc (s : State) (l : Nat) (f : Loom → Loom) : (modLoom s l f).apc = s.apc := rfl
@[simp] theorem modLoom_cuts (s : State) (l : Nat) (f : Loom → Loom) : (modLoom s l f).cuts = s.cuts := rfl
@[simp] theorem modLoom_clu (s : State) (l : Nat) (f : Loom → Loom) : (modLoom s l f).clu = s.clu := rfl
@[simp] theorem modLoom_tap (s : State) (l : Nat) (f : Loom → Loom) : (modLoom s l f).tap = s.tap := rfl

/-! ## modSeq -/

@[simp] theorem modSeq_pending (s : State) (l : Nat) (f : Seq → Seq) : (modSeq s l f).pending = s.pending := rfl
@[simp] theorem modSeq_out (s : State) (l : Nat) (f : Seq → Seq) : (modSeq s l f).out = s.out := rfl
@[simp] theorem modSeq_free (s : State) (l : Nat) (f : Seq → Seq) : (modSeq s l f).free = s.free := rfl
@[simp] theorem modSeq_regs (s : State) (l : Nat) (f : Seq → Seq) : (modSeq s l f).regs = s.regs := rfl
@[simp] theorem modSeq_blk (s : State) (l : Nat) (f : Seq → Seq) : (modSeq s l f).blk = s.blk := rfl
@[simp] theorem modSeq_hiLatch (s : State) (l : Nat) (f : Seq → Seq) : (modSeq s l f).hiLatch = s.hiLatch := rfl
@[simp] theorem modSeq_decisions (s : State) (l : Nat) (f : Seq → Seq) : (modSeq s l f).decisions = s.decisions := rfl
@[simp] theorem modSeq_hubs (s : State) (l : Nat) (f : Seq → Seq) : (modSeq s l f).hubs = s.hubs := rfl
@[simp] theorem modSeq_beat (s : State) (l : Nat) (f : Seq → Seq) : (modSeq s l f).beat = s.beat := rfl
@[simp] theorem modSeq_ltime (s : State) (l : Nat) (f : Seq → Seq) : (modSeq s l f).ltime = s.ltime := rfl
@[simp] theorem modSeq_ll (s : State) (l : Nat) (f : Seq → Seq) : (modSeq s l f).ll = s.ll := rfl
@[simp] theorem modSeq_mem (s : State) (l : Nat) (f : Seq → Seq) : (modSeq s l f).mem = s.mem := rfl
@[simp] theorem modSeq_shs (s : State) (l : Nat) (f : Seq → Seq) : (modSeq s l f).shs = s.shs := rfl
@[simp] theorem modSeq_sess (s : State) (l : Nat) (f : Seq → Seq) : (modSeq s l f).sess = s.sess := rfl
@[simp] theorem modSeq_glims (s : State) (l : Nat) (f : Seq → Seq) : (modSeq s l f).glims = s.glims := rfl
@[simp] theorem modSeq_gpkg (s : State) (l : Nat) (f : Seq → Seq) : (modSeq s l f).gpkg = s.gpkg := rfl
@[simp] theorem modSeq_lasers (s : State) (l : Nat) (f : Seq → Seq) : (modSeq s l f).lasers = s.lasers := rfl
@[simp] theorem modSeq_reeds (s : State) (l : Nat) (f : Seq → Seq) : (modSeq s l f).reeds = s.reeds := rfl
@[simp] theorem modSeq_pw (s : State) (l : Nat) (f : Seq → Seq) : (modSeq s l f).pw = s.pw := rfl
@[simp] theorem modSeq_nv (s : State) (l : Nat) (f : Seq → Seq) : (modSeq s l f).nv = s.nv := rfl
@[simp] theorem modSeq_tim (s : State) (l : Nat) (f : Seq → Seq) : (modSeq s l f).tim = s.tim := rfl
@[simp] theorem modSeq_cust (s : State) (l : Nat) (f : Seq → Seq) : (modSeq s l f).cust = s.cust := rfl
@[simp] theorem modSeq_boot (s : State) (l : Nat) (f : Seq → Seq) : (modSeq s l f).boot = s.boot := rfl
@[simp] theorem modSeq_host (s : State) (l : Nat) (f : Seq → Seq) : (modSeq s l f).host = s.host := rfl
@[simp] theorem modSeq_apc (s : State) (l : Nat) (f : Seq → Seq) : (modSeq s l f).apc = s.apc := rfl
@[simp] theorem modSeq_cuts (s : State) (l : Nat) (f : Seq → Seq) : (modSeq s l f).cuts = s.cuts := rfl
@[simp] theorem modSeq_clu (s : State) (l : Nat) (f : Seq → Seq) : (modSeq s l f).clu = s.clu := rfl
@[simp] theorem modSeq_tap (s : State) (l : Nat) (f : Seq → Seq) : (modSeq s l f).tap = s.tap := rfl

/-! ## setCh -/

@[simp] theorem setCh_pending (s : State) (l i : Nat) (e : ChEnd) : (setCh s l i e).pending = s.pending := rfl
@[simp] theorem setCh_out (s : State) (l i : Nat) (e : ChEnd) : (setCh s l i e).out = s.out := rfl
@[simp] theorem setCh_free (s : State) (l i : Nat) (e : ChEnd) : (setCh s l i e).free = s.free := rfl
@[simp] theorem setCh_regs (s : State) (l i : Nat) (e : ChEnd) : (setCh s l i e).regs = s.regs := rfl
@[simp] theorem setCh_blk (s : State) (l i : Nat) (e : ChEnd) : (setCh s l i e).blk = s.blk := rfl
@[simp] theorem setCh_hiLatch (s : State) (l i : Nat) (e : ChEnd) : (setCh s l i e).hiLatch = s.hiLatch := rfl
@[simp] theorem setCh_decisions (s : State) (l i : Nat) (e : ChEnd) : (setCh s l i e).decisions = s.decisions := rfl
@[simp] theorem setCh_hubs (s : State) (l i : Nat) (e : ChEnd) : (setCh s l i e).hubs = s.hubs := rfl
@[simp] theorem setCh_beat (s : State) (l i : Nat) (e : ChEnd) : (setCh s l i e).beat = s.beat := rfl
@[simp] theorem setCh_ltime (s : State) (l i : Nat) (e : ChEnd) : (setCh s l i e).ltime = s.ltime := rfl
@[simp] theorem setCh_ll (s : State) (l i : Nat) (e : ChEnd) : (setCh s l i e).ll = s.ll := rfl
@[simp] theorem setCh_mem (s : State) (l i : Nat) (e : ChEnd) : (setCh s l i e).mem = s.mem := rfl
@[simp] theorem setCh_shs (s : State) (l i : Nat) (e : ChEnd) : (setCh s l i e).shs = s.shs := rfl
@[simp] theorem setCh_sess (s : State) (l i : Nat) (e : ChEnd) : (setCh s l i e).sess = s.sess := rfl
@[simp] theorem setCh_glims (s : State) (l i : Nat) (e : ChEnd) : (setCh s l i e).glims = s.glims := rfl
@[simp] theorem setCh_gpkg (s : State) (l i : Nat) (e : ChEnd) : (setCh s l i e).gpkg = s.gpkg := rfl
@[simp] theorem setCh_lasers (s : State) (l i : Nat) (e : ChEnd) : (setCh s l i e).lasers = s.lasers := rfl
@[simp] theorem setCh_reeds (s : State) (l i : Nat) (e : ChEnd) : (setCh s l i e).reeds = s.reeds := rfl
@[simp] theorem setCh_pw (s : State) (l i : Nat) (e : ChEnd) : (setCh s l i e).pw = s.pw := rfl
@[simp] theorem setCh_nv (s : State) (l i : Nat) (e : ChEnd) : (setCh s l i e).nv = s.nv := rfl
@[simp] theorem setCh_tim (s : State) (l i : Nat) (e : ChEnd) : (setCh s l i e).tim = s.tim := rfl
@[simp] theorem setCh_cust (s : State) (l i : Nat) (e : ChEnd) : (setCh s l i e).cust = s.cust := rfl
@[simp] theorem setCh_boot (s : State) (l i : Nat) (e : ChEnd) : (setCh s l i e).boot = s.boot := rfl
@[simp] theorem setCh_host (s : State) (l i : Nat) (e : ChEnd) : (setCh s l i e).host = s.host := rfl
@[simp] theorem setCh_apc (s : State) (l i : Nat) (e : ChEnd) : (setCh s l i e).apc = s.apc := rfl
@[simp] theorem setCh_cuts (s : State) (l i : Nat) (e : ChEnd) : (setCh s l i e).cuts = s.cuts := rfl
@[simp] theorem setCh_clu (s : State) (l i : Nat) (e : ChEnd) : (setCh s l i e).clu = s.clu := rfl
@[simp] theorem setCh_tap (s : State) (l i : Nat) (e : ChEnd) : (setCh s l i e).tap = s.tap := rfl

/-! ## modHub -/

@[simp] theorem modHub_pending (s : State) (h : Nat) (f : Hub → Hub) : (modHub s h f).pending = s.pending := rfl
@[simp] theorem modHub_out (s : State) (h : Nat) (f : Hub → Hub) : (modHub s h f).out = s.out := rfl
@[simp] theorem modHub_free (s : State) (h : Nat) (f : Hub → Hub) : (modHub s h f).free = s.free := rfl
@[simp] theorem modHub_regs (s : State) (h : Nat) (f : Hub → Hub) : (modHub s h f).regs = s.regs := rfl
@[simp] theorem modHub_blk (s : State) (h : Nat) (f : Hub → Hub) : (modHub s h f).blk = s.blk := rfl
@[simp] theorem modHub_hiLatch (s : State) (h : Nat) (f : Hub → Hub) : (modHub s h f).hiLatch = s.hiLatch := rfl
@[simp] theorem modHub_decisions (s : State) (h : Nat) (f : Hub → Hub) : (modHub s h f).decisions = s.decisions := rfl
@[simp] theorem modHub_looms (s : State) (h : Nat) (f : Hub → Hub) : (modHub s h f).looms = s.looms := rfl
@[simp] theorem modHub_beat (s : State) (h : Nat) (f : Hub → Hub) : (modHub s h f).beat = s.beat := rfl
@[simp] theorem modHub_ltime (s : State) (h : Nat) (f : Hub → Hub) : (modHub s h f).ltime = s.ltime := rfl
@[simp] theorem modHub_ll (s : State) (h : Nat) (f : Hub → Hub) : (modHub s h f).ll = s.ll := rfl
@[simp] theorem modHub_mem (s : State) (h : Nat) (f : Hub → Hub) : (modHub s h f).mem = s.mem := rfl
@[simp] theorem modHub_shs (s : State) (h : Nat) (f : Hub → Hub) : (modHub s h f).shs = s.shs := rfl
@[simp] theorem modHub_sess (s : State) (h : Nat) (f : Hub → Hub) : (modHub s h f).sess = s.sess := rfl
@[simp] theorem modHub_glims (s : State) (h : Nat) (f : Hub → Hub) : (modHub s h f).glims = s.glims := rfl
@[simp] theorem modHub_gpkg (s : State) (h : Nat) (f : Hub → Hub) : (modHub s h f).gpkg = s.gpkg := rfl
@[simp] theorem modHub_lasers (s : State) (h : Nat) (f : Hub → Hub) : (modHub s h f).lasers = s.lasers := rfl
@[simp] theorem modHub_reeds (s : State) (h : Nat) (f : Hub → Hub) : (modHub s h f).reeds = s.reeds := rfl
@[simp] theorem modHub_pw (s : State) (h : Nat) (f : Hub → Hub) : (modHub s h f).pw = s.pw := rfl
@[simp] theorem modHub_nv (s : State) (h : Nat) (f : Hub → Hub) : (modHub s h f).nv = s.nv := rfl
@[simp] theorem modHub_tim (s : State) (h : Nat) (f : Hub → Hub) : (modHub s h f).tim = s.tim := rfl
@[simp] theorem modHub_cust (s : State) (h : Nat) (f : Hub → Hub) : (modHub s h f).cust = s.cust := rfl
@[simp] theorem modHub_boot (s : State) (h : Nat) (f : Hub → Hub) : (modHub s h f).boot = s.boot := rfl
@[simp] theorem modHub_host (s : State) (h : Nat) (f : Hub → Hub) : (modHub s h f).host = s.host := rfl
@[simp] theorem modHub_apc (s : State) (h : Nat) (f : Hub → Hub) : (modHub s h f).apc = s.apc := rfl
@[simp] theorem modHub_cuts (s : State) (h : Nat) (f : Hub → Hub) : (modHub s h f).cuts = s.cuts := rfl
@[simp] theorem modHub_clu (s : State) (h : Nat) (f : Hub → Hub) : (modHub s h f).clu = s.clu := rfl
@[simp] theorem modHub_tap (s : State) (h : Nat) (f : Hub → Hub) : (modHub s h f).tap = s.tap := rfl

/-! ## setPlyQ -/

@[simp] theorem setPlyQ_pending (s : State) (h q : Nat) (x : PlyQ) : (setPlyQ s h q x).pending = s.pending := rfl
@[simp] theorem setPlyQ_out (s : State) (h q : Nat) (x : PlyQ) : (setPlyQ s h q x).out = s.out := rfl
@[simp] theorem setPlyQ_free (s : State) (h q : Nat) (x : PlyQ) : (setPlyQ s h q x).free = s.free := rfl
@[simp] theorem setPlyQ_regs (s : State) (h q : Nat) (x : PlyQ) : (setPlyQ s h q x).regs = s.regs := rfl
@[simp] theorem setPlyQ_blk (s : State) (h q : Nat) (x : PlyQ) : (setPlyQ s h q x).blk = s.blk := rfl
@[simp] theorem setPlyQ_hiLatch (s : State) (h q : Nat) (x : PlyQ) : (setPlyQ s h q x).hiLatch = s.hiLatch := rfl
@[simp] theorem setPlyQ_decisions (s : State) (h q : Nat) (x : PlyQ) : (setPlyQ s h q x).decisions = s.decisions := rfl
@[simp] theorem setPlyQ_looms (s : State) (h q : Nat) (x : PlyQ) : (setPlyQ s h q x).looms = s.looms := rfl
@[simp] theorem setPlyQ_beat (s : State) (h q : Nat) (x : PlyQ) : (setPlyQ s h q x).beat = s.beat := rfl
@[simp] theorem setPlyQ_ltime (s : State) (h q : Nat) (x : PlyQ) : (setPlyQ s h q x).ltime = s.ltime := rfl
@[simp] theorem setPlyQ_ll (s : State) (h q : Nat) (x : PlyQ) : (setPlyQ s h q x).ll = s.ll := rfl
@[simp] theorem setPlyQ_mem (s : State) (h q : Nat) (x : PlyQ) : (setPlyQ s h q x).mem = s.mem := rfl
@[simp] theorem setPlyQ_shs (s : State) (h q : Nat) (x : PlyQ) : (setPlyQ s h q x).shs = s.shs := rfl
@[simp] theorem setPlyQ_sess (s : State) (h q : Nat) (x : PlyQ) : (setPlyQ s h q x).sess = s.sess := rfl
@[simp] theorem setPlyQ_glims (s : State) (h q : Nat) (x : PlyQ) : (setPlyQ s h q x).glims = s.glims := rfl
@[simp] theorem setPlyQ_gpkg (s : State) (h q : Nat) (x : PlyQ) : (setPlyQ s h q x).gpkg = s.gpkg := rfl
@[simp] theorem setPlyQ_lasers (s : State) (h q : Nat) (x : PlyQ) : (setPlyQ s h q x).lasers = s.lasers := rfl
@[simp] theorem setPlyQ_reeds (s : State) (h q : Nat) (x : PlyQ) : (setPlyQ s h q x).reeds = s.reeds := rfl
@[simp] theorem setPlyQ_pw (s : State) (h q : Nat) (x : PlyQ) : (setPlyQ s h q x).pw = s.pw := rfl
@[simp] theorem setPlyQ_nv (s : State) (h q : Nat) (x : PlyQ) : (setPlyQ s h q x).nv = s.nv := rfl
@[simp] theorem setPlyQ_tim (s : State) (h q : Nat) (x : PlyQ) : (setPlyQ s h q x).tim = s.tim := rfl
@[simp] theorem setPlyQ_cust (s : State) (h q : Nat) (x : PlyQ) : (setPlyQ s h q x).cust = s.cust := rfl
@[simp] theorem setPlyQ_boot (s : State) (h q : Nat) (x : PlyQ) : (setPlyQ s h q x).boot = s.boot := rfl
@[simp] theorem setPlyQ_host (s : State) (h q : Nat) (x : PlyQ) : (setPlyQ s h q x).host = s.host := rfl
@[simp] theorem setPlyQ_apc (s : State) (h q : Nat) (x : PlyQ) : (setPlyQ s h q x).apc = s.apc := rfl
@[simp] theorem setPlyQ_cuts (s : State) (h q : Nat) (x : PlyQ) : (setPlyQ s h q x).cuts = s.cuts := rfl
@[simp] theorem setPlyQ_clu (s : State) (h q : Nat) (x : PlyQ) : (setPlyQ s h q x).clu = s.clu := rfl
@[simp] theorem setPlyQ_tap (s : State) (h q : Nat) (x : PlyQ) : (setPlyQ s h q x).tap = s.tap := rfl

/-! ## setLamp -/

@[simp] theorem setLamp_pending (s : State) (h i v : Nat) : (setLamp s h i v).pending = s.pending := rfl
@[simp] theorem setLamp_out (s : State) (h i v : Nat) : (setLamp s h i v).out = s.out := rfl
@[simp] theorem setLamp_free (s : State) (h i v : Nat) : (setLamp s h i v).free = s.free := rfl
@[simp] theorem setLamp_regs (s : State) (h i v : Nat) : (setLamp s h i v).regs = s.regs := rfl
@[simp] theorem setLamp_blk (s : State) (h i v : Nat) : (setLamp s h i v).blk = s.blk := rfl
@[simp] theorem setLamp_hiLatch (s : State) (h i v : Nat) : (setLamp s h i v).hiLatch = s.hiLatch := rfl
@[simp] theorem setLamp_decisions (s : State) (h i v : Nat) : (setLamp s h i v).decisions = s.decisions := rfl
@[simp] theorem setLamp_looms (s : State) (h i v : Nat) : (setLamp s h i v).looms = s.looms := rfl
@[simp] theorem setLamp_beat (s : State) (h i v : Nat) : (setLamp s h i v).beat = s.beat := rfl
@[simp] theorem setLamp_ltime (s : State) (h i v : Nat) : (setLamp s h i v).ltime = s.ltime := rfl
@[simp] theorem setLamp_ll (s : State) (h i v : Nat) : (setLamp s h i v).ll = s.ll := rfl
@[simp] theorem setLamp_mem (s : State) (h i v : Nat) : (setLamp s h i v).mem = s.mem := rfl
@[simp] theorem setLamp_shs (s : State) (h i v : Nat) : (setLamp s h i v).shs = s.shs := rfl
@[simp] theorem setLamp_sess (s : State) (h i v : Nat) : (setLamp s h i v).sess = s.sess := rfl
@[simp] theorem setLamp_glims (s : State) (h i v : Nat) : (setLamp s h i v).glims = s.glims := rfl
@[simp] theorem setLamp_gpkg (s : State) (h i v : Nat) : (setLamp s h i v).gpkg = s.gpkg := rfl
@[simp] theorem setLamp_lasers (s : State) (h i v : Nat) : (setLamp s h i v).lasers = s.lasers := rfl
@[simp] theorem setLamp_reeds (s : State) (h i v : Nat) : (setLamp s h i v).reeds = s.reeds := rfl
@[simp] theorem setLamp_pw (s : State) (h i v : Nat) : (setLamp s h i v).pw = s.pw := rfl
@[simp] theorem setLamp_nv (s : State) (h i v : Nat) : (setLamp s h i v).nv = s.nv := rfl
@[simp] theorem setLamp_tim (s : State) (h i v : Nat) : (setLamp s h i v).tim = s.tim := rfl
@[simp] theorem setLamp_cust (s : State) (h i v : Nat) : (setLamp s h i v).cust = s.cust := rfl
@[simp] theorem setLamp_boot (s : State) (h i v : Nat) : (setLamp s h i v).boot = s.boot := rfl
@[simp] theorem setLamp_host (s : State) (h i v : Nat) : (setLamp s h i v).host = s.host := rfl
@[simp] theorem setLamp_apc (s : State) (h i v : Nat) : (setLamp s h i v).apc = s.apc := rfl
@[simp] theorem setLamp_cuts (s : State) (h i v : Nat) : (setLamp s h i v).cuts = s.cuts := rfl
@[simp] theorem setLamp_clu (s : State) (h i v : Nat) : (setLamp s h i v).clu = s.clu := rfl
@[simp] theorem setLamp_tap (s : State) (h i v : Nat) : (setLamp s h i v).tap = s.tap := rfl

/-! ## modBeat -/

@[simp] theorem modBeat_pending (s : State) (f : BeatSt → BeatSt) : (modBeat s f).pending = s.pending := rfl
@[simp] theorem modBeat_out (s : State) (f : BeatSt → BeatSt) : (modBeat s f).out = s.out := rfl
@[simp] theorem modBeat_free (s : State) (f : BeatSt → BeatSt) : (modBeat s f).free = s.free := rfl
@[simp] theorem modBeat_regs (s : State) (f : BeatSt → BeatSt) : (modBeat s f).regs = s.regs := rfl
@[simp] theorem modBeat_blk (s : State) (f : BeatSt → BeatSt) : (modBeat s f).blk = s.blk := rfl
@[simp] theorem modBeat_hiLatch (s : State) (f : BeatSt → BeatSt) : (modBeat s f).hiLatch = s.hiLatch := rfl
@[simp] theorem modBeat_decisions (s : State) (f : BeatSt → BeatSt) : (modBeat s f).decisions = s.decisions := rfl
@[simp] theorem modBeat_looms (s : State) (f : BeatSt → BeatSt) : (modBeat s f).looms = s.looms := rfl
@[simp] theorem modBeat_hubs (s : State) (f : BeatSt → BeatSt) : (modBeat s f).hubs = s.hubs := rfl
@[simp] theorem modBeat_ltime (s : State) (f : BeatSt → BeatSt) : (modBeat s f).ltime = s.ltime := rfl
@[simp] theorem modBeat_ll (s : State) (f : BeatSt → BeatSt) : (modBeat s f).ll = s.ll := rfl
@[simp] theorem modBeat_mem (s : State) (f : BeatSt → BeatSt) : (modBeat s f).mem = s.mem := rfl
@[simp] theorem modBeat_shs (s : State) (f : BeatSt → BeatSt) : (modBeat s f).shs = s.shs := rfl
@[simp] theorem modBeat_sess (s : State) (f : BeatSt → BeatSt) : (modBeat s f).sess = s.sess := rfl
@[simp] theorem modBeat_glims (s : State) (f : BeatSt → BeatSt) : (modBeat s f).glims = s.glims := rfl
@[simp] theorem modBeat_gpkg (s : State) (f : BeatSt → BeatSt) : (modBeat s f).gpkg = s.gpkg := rfl
@[simp] theorem modBeat_lasers (s : State) (f : BeatSt → BeatSt) : (modBeat s f).lasers = s.lasers := rfl
@[simp] theorem modBeat_reeds (s : State) (f : BeatSt → BeatSt) : (modBeat s f).reeds = s.reeds := rfl
@[simp] theorem modBeat_pw (s : State) (f : BeatSt → BeatSt) : (modBeat s f).pw = s.pw := rfl
@[simp] theorem modBeat_nv (s : State) (f : BeatSt → BeatSt) : (modBeat s f).nv = s.nv := rfl
@[simp] theorem modBeat_tim (s : State) (f : BeatSt → BeatSt) : (modBeat s f).tim = s.tim := rfl
@[simp] theorem modBeat_cust (s : State) (f : BeatSt → BeatSt) : (modBeat s f).cust = s.cust := rfl
@[simp] theorem modBeat_boot (s : State) (f : BeatSt → BeatSt) : (modBeat s f).boot = s.boot := rfl
@[simp] theorem modBeat_host (s : State) (f : BeatSt → BeatSt) : (modBeat s f).host = s.host := rfl
@[simp] theorem modBeat_apc (s : State) (f : BeatSt → BeatSt) : (modBeat s f).apc = s.apc := rfl
@[simp] theorem modBeat_cuts (s : State) (f : BeatSt → BeatSt) : (modBeat s f).cuts = s.cuts := rfl
@[simp] theorem modBeat_clu (s : State) (f : BeatSt → BeatSt) : (modBeat s f).clu = s.clu := rfl
@[simp] theorem modBeat_tap (s : State) (f : BeatSt → BeatSt) : (modBeat s f).tap = s.tap := rfl

/-! ## modSlot -/

@[simp] theorem modSlot_pending (s : State) (i : Nat) (f : GroupSlot → GroupSlot) : (modSlot s i f).pending = s.pending := rfl
@[simp] theorem modSlot_out (s : State) (i : Nat) (f : GroupSlot → GroupSlot) : (modSlot s i f).out = s.out := rfl
@[simp] theorem modSlot_free (s : State) (i : Nat) (f : GroupSlot → GroupSlot) : (modSlot s i f).free = s.free := rfl
@[simp] theorem modSlot_regs (s : State) (i : Nat) (f : GroupSlot → GroupSlot) : (modSlot s i f).regs = s.regs := rfl
@[simp] theorem modSlot_blk (s : State) (i : Nat) (f : GroupSlot → GroupSlot) : (modSlot s i f).blk = s.blk := rfl
@[simp] theorem modSlot_hiLatch (s : State) (i : Nat) (f : GroupSlot → GroupSlot) : (modSlot s i f).hiLatch = s.hiLatch := rfl
@[simp] theorem modSlot_decisions (s : State) (i : Nat) (f : GroupSlot → GroupSlot) : (modSlot s i f).decisions = s.decisions := rfl
@[simp] theorem modSlot_looms (s : State) (i : Nat) (f : GroupSlot → GroupSlot) : (modSlot s i f).looms = s.looms := rfl
@[simp] theorem modSlot_hubs (s : State) (i : Nat) (f : GroupSlot → GroupSlot) : (modSlot s i f).hubs = s.hubs := rfl
@[simp] theorem modSlot_ltime (s : State) (i : Nat) (f : GroupSlot → GroupSlot) : (modSlot s i f).ltime = s.ltime := rfl
@[simp] theorem modSlot_ll (s : State) (i : Nat) (f : GroupSlot → GroupSlot) : (modSlot s i f).ll = s.ll := rfl
@[simp] theorem modSlot_mem (s : State) (i : Nat) (f : GroupSlot → GroupSlot) : (modSlot s i f).mem = s.mem := rfl
@[simp] theorem modSlot_shs (s : State) (i : Nat) (f : GroupSlot → GroupSlot) : (modSlot s i f).shs = s.shs := rfl
@[simp] theorem modSlot_sess (s : State) (i : Nat) (f : GroupSlot → GroupSlot) : (modSlot s i f).sess = s.sess := rfl
@[simp] theorem modSlot_glims (s : State) (i : Nat) (f : GroupSlot → GroupSlot) : (modSlot s i f).glims = s.glims := rfl
@[simp] theorem modSlot_gpkg (s : State) (i : Nat) (f : GroupSlot → GroupSlot) : (modSlot s i f).gpkg = s.gpkg := rfl
@[simp] theorem modSlot_lasers (s : State) (i : Nat) (f : GroupSlot → GroupSlot) : (modSlot s i f).lasers = s.lasers := rfl
@[simp] theorem modSlot_reeds (s : State) (i : Nat) (f : GroupSlot → GroupSlot) : (modSlot s i f).reeds = s.reeds := rfl
@[simp] theorem modSlot_pw (s : State) (i : Nat) (f : GroupSlot → GroupSlot) : (modSlot s i f).pw = s.pw := rfl
@[simp] theorem modSlot_nv (s : State) (i : Nat) (f : GroupSlot → GroupSlot) : (modSlot s i f).nv = s.nv := rfl
@[simp] theorem modSlot_tim (s : State) (i : Nat) (f : GroupSlot → GroupSlot) : (modSlot s i f).tim = s.tim := rfl
@[simp] theorem modSlot_cust (s : State) (i : Nat) (f : GroupSlot → GroupSlot) : (modSlot s i f).cust = s.cust := rfl
@[simp] theorem modSlot_boot (s : State) (i : Nat) (f : GroupSlot → GroupSlot) : (modSlot s i f).boot = s.boot := rfl
@[simp] theorem modSlot_host (s : State) (i : Nat) (f : GroupSlot → GroupSlot) : (modSlot s i f).host = s.host := rfl
@[simp] theorem modSlot_apc (s : State) (i : Nat) (f : GroupSlot → GroupSlot) : (modSlot s i f).apc = s.apc := rfl
@[simp] theorem modSlot_cuts (s : State) (i : Nat) (f : GroupSlot → GroupSlot) : (modSlot s i f).cuts = s.cuts := rfl
@[simp] theorem modSlot_clu (s : State) (i : Nat) (f : GroupSlot → GroupSlot) : (modSlot s i f).clu = s.clu := rfl
@[simp] theorem modSlot_tap (s : State) (i : Nat) (f : GroupSlot → GroupSlot) : (modSlot s i f).tap = s.tap := rfl

/-! ## modLt -/

@[simp] theorem modLt_pending (s : State) (f : LtimeSt → LtimeSt) : (modLt s f).pending = s.pending := rfl
@[simp] theorem modLt_out (s : State) (f : LtimeSt → LtimeSt) : (modLt s f).out = s.out := rfl
@[simp] theorem modLt_free (s : State) (f : LtimeSt → LtimeSt) : (modLt s f).free = s.free := rfl
@[simp] theorem modLt_regs (s : State) (f : LtimeSt → LtimeSt) : (modLt s f).regs = s.regs := rfl
@[simp] theorem modLt_blk (s : State) (f : LtimeSt → LtimeSt) : (modLt s f).blk = s.blk := rfl
@[simp] theorem modLt_hiLatch (s : State) (f : LtimeSt → LtimeSt) : (modLt s f).hiLatch = s.hiLatch := rfl
@[simp] theorem modLt_decisions (s : State) (f : LtimeSt → LtimeSt) : (modLt s f).decisions = s.decisions := rfl
@[simp] theorem modLt_looms (s : State) (f : LtimeSt → LtimeSt) : (modLt s f).looms = s.looms := rfl
@[simp] theorem modLt_hubs (s : State) (f : LtimeSt → LtimeSt) : (modLt s f).hubs = s.hubs := rfl
@[simp] theorem modLt_beat (s : State) (f : LtimeSt → LtimeSt) : (modLt s f).beat = s.beat := rfl
@[simp] theorem modLt_ll (s : State) (f : LtimeSt → LtimeSt) : (modLt s f).ll = s.ll := rfl
@[simp] theorem modLt_mem (s : State) (f : LtimeSt → LtimeSt) : (modLt s f).mem = s.mem := rfl
@[simp] theorem modLt_shs (s : State) (f : LtimeSt → LtimeSt) : (modLt s f).shs = s.shs := rfl
@[simp] theorem modLt_sess (s : State) (f : LtimeSt → LtimeSt) : (modLt s f).sess = s.sess := rfl
@[simp] theorem modLt_glims (s : State) (f : LtimeSt → LtimeSt) : (modLt s f).glims = s.glims := rfl
@[simp] theorem modLt_gpkg (s : State) (f : LtimeSt → LtimeSt) : (modLt s f).gpkg = s.gpkg := rfl
@[simp] theorem modLt_lasers (s : State) (f : LtimeSt → LtimeSt) : (modLt s f).lasers = s.lasers := rfl
@[simp] theorem modLt_reeds (s : State) (f : LtimeSt → LtimeSt) : (modLt s f).reeds = s.reeds := rfl
@[simp] theorem modLt_pw (s : State) (f : LtimeSt → LtimeSt) : (modLt s f).pw = s.pw := rfl
@[simp] theorem modLt_nv (s : State) (f : LtimeSt → LtimeSt) : (modLt s f).nv = s.nv := rfl
@[simp] theorem modLt_tim (s : State) (f : LtimeSt → LtimeSt) : (modLt s f).tim = s.tim := rfl
@[simp] theorem modLt_cust (s : State) (f : LtimeSt → LtimeSt) : (modLt s f).cust = s.cust := rfl
@[simp] theorem modLt_boot (s : State) (f : LtimeSt → LtimeSt) : (modLt s f).boot = s.boot := rfl
@[simp] theorem modLt_host (s : State) (f : LtimeSt → LtimeSt) : (modLt s f).host = s.host := rfl
@[simp] theorem modLt_apc (s : State) (f : LtimeSt → LtimeSt) : (modLt s f).apc = s.apc := rfl
@[simp] theorem modLt_cuts (s : State) (f : LtimeSt → LtimeSt) : (modLt s f).cuts = s.cuts := rfl
@[simp] theorem modLt_clu (s : State) (f : LtimeSt → LtimeSt) : (modLt s f).clu = s.clu := rfl
@[simp] theorem modLt_tap (s : State) (f : LtimeSt → LtimeSt) : (modLt s f).tap = s.tap := rfl

/-! ## send -/

@[simp] theorem send_pending (s : State) (k : MsgKind) (d : Nat) (a : List Nat) : (send s k d a).pending = s.pending := rfl
@[simp] theorem send_free (s : State) (k : MsgKind) (d : Nat) (a : List Nat) : (send s k d a).free = s.free := rfl
@[simp] theorem send_regs (s : State) (k : MsgKind) (d : Nat) (a : List Nat) : (send s k d a).regs = s.regs := rfl
@[simp] theorem send_blk (s : State) (k : MsgKind) (d : Nat) (a : List Nat) : (send s k d a).blk = s.blk := rfl
@[simp] theorem send_hiLatch (s : State) (k : MsgKind) (d : Nat) (a : List Nat) : (send s k d a).hiLatch = s.hiLatch := rfl
@[simp] theorem send_decisions (s : State) (k : MsgKind) (d : Nat) (a : List Nat) : (send s k d a).decisions = s.decisions := rfl
@[simp] theorem send_looms (s : State) (k : MsgKind) (d : Nat) (a : List Nat) : (send s k d a).looms = s.looms := rfl
@[simp] theorem send_hubs (s : State) (k : MsgKind) (d : Nat) (a : List Nat) : (send s k d a).hubs = s.hubs := rfl
@[simp] theorem send_beat (s : State) (k : MsgKind) (d : Nat) (a : List Nat) : (send s k d a).beat = s.beat := rfl
@[simp] theorem send_ltime (s : State) (k : MsgKind) (d : Nat) (a : List Nat) : (send s k d a).ltime = s.ltime := rfl
@[simp] theorem send_ll (s : State) (k : MsgKind) (d : Nat) (a : List Nat) : (send s k d a).ll = s.ll := rfl
@[simp] theorem send_mem (s : State) (k : MsgKind) (d : Nat) (a : List Nat) : (send s k d a).mem = s.mem := rfl
@[simp] theorem send_shs (s : State) (k : MsgKind) (d : Nat) (a : List Nat) : (send s k d a).shs = s.shs := rfl
@[simp] theorem send_sess (s : State) (k : MsgKind) (d : Nat) (a : List Nat) : (send s k d a).sess = s.sess := rfl
@[simp] theorem send_glims (s : State) (k : MsgKind) (d : Nat) (a : List Nat) : (send s k d a).glims = s.glims := rfl
@[simp] theorem send_gpkg (s : State) (k : MsgKind) (d : Nat) (a : List Nat) : (send s k d a).gpkg = s.gpkg := rfl
@[simp] theorem send_lasers (s : State) (k : MsgKind) (d : Nat) (a : List Nat) : (send s k d a).lasers = s.lasers := rfl
@[simp] theorem send_reeds (s : State) (k : MsgKind) (d : Nat) (a : List Nat) : (send s k d a).reeds = s.reeds := rfl
@[simp] theorem send_pw (s : State) (k : MsgKind) (d : Nat) (a : List Nat) : (send s k d a).pw = s.pw := rfl
@[simp] theorem send_nv (s : State) (k : MsgKind) (d : Nat) (a : List Nat) : (send s k d a).nv = s.nv := rfl
@[simp] theorem send_tim (s : State) (k : MsgKind) (d : Nat) (a : List Nat) : (send s k d a).tim = s.tim := rfl
@[simp] theorem send_cust (s : State) (k : MsgKind) (d : Nat) (a : List Nat) : (send s k d a).cust = s.cust := rfl
@[simp] theorem send_boot (s : State) (k : MsgKind) (d : Nat) (a : List Nat) : (send s k d a).boot = s.boot := rfl
@[simp] theorem send_host (s : State) (k : MsgKind) (d : Nat) (a : List Nat) : (send s k d a).host = s.host := rfl
@[simp] theorem send_apc (s : State) (k : MsgKind) (d : Nat) (a : List Nat) : (send s k d a).apc = s.apc := rfl
@[simp] theorem send_cuts (s : State) (k : MsgKind) (d : Nat) (a : List Nat) : (send s k d a).cuts = s.cuts := rfl
@[simp] theorem send_clu (s : State) (k : MsgKind) (d : Nat) (a : List Nat) : (send s k d a).clu = s.clu := rfl
@[simp] theorem send_tap (s : State) (k : MsgKind) (d : Nat) (a : List Nat) : (send s k d a).tap = s.tap := rfl

/-! ## drawFree -/

@[simp] theorem drawFree_pending (s : State) : ((drawFree s).2).pending = s.pending := rfl
@[simp] theorem drawFree_out (s : State) : ((drawFree s).2).out = s.out := rfl
@[simp] theorem drawFree_regs (s : State) : ((drawFree s).2).regs = s.regs := rfl
@[simp] theorem drawFree_blk (s : State) : ((drawFree s).2).blk = s.blk := rfl
@[simp] theorem drawFree_hiLatch (s : State) : ((drawFree s).2).hiLatch = s.hiLatch := rfl
@[simp] theorem drawFree_decisions (s : State) : ((drawFree s).2).decisions = s.decisions := rfl
@[simp] theorem drawFree_looms (s : State) : ((drawFree s).2).looms = s.looms := rfl
@[simp] theorem drawFree_hubs (s : State) : ((drawFree s).2).hubs = s.hubs := rfl
@[simp] theorem drawFree_beat (s : State) : ((drawFree s).2).beat = s.beat := rfl
@[simp] theorem drawFree_ltime (s : State) : ((drawFree s).2).ltime = s.ltime := rfl
@[simp] theorem drawFree_ll (s : State) : ((drawFree s).2).ll = s.ll := rfl
@[simp] theorem drawFree_mem (s : State) : ((drawFree s).2).mem = s.mem := rfl
@[simp] theorem drawFree_shs (s : State) : ((drawFree s).2).shs = s.shs := rfl
@[simp] theorem drawFree_sess (s : State) : ((drawFree s).2).sess = s.sess := rfl
@[simp] theorem drawFree_glims (s : State) : ((drawFree s).2).glims = s.glims := rfl
@[simp] theorem drawFree_gpkg (s : State) : ((drawFree s).2).gpkg = s.gpkg := rfl
@[simp] theorem drawFree_lasers (s : State) : ((drawFree s).2).lasers = s.lasers := rfl
@[simp] theorem drawFree_reeds (s : State) : ((drawFree s).2).reeds = s.reeds := rfl
@[simp] theorem drawFree_pw (s : State) : ((drawFree s).2).pw = s.pw := rfl
@[simp] theorem drawFree_nv (s : State) : ((drawFree s).2).nv = s.nv := rfl
@[simp] theorem drawFree_tim (s : State) : ((drawFree s).2).tim = s.tim := rfl
@[simp] theorem drawFree_cust (s : State) : ((drawFree s).2).cust = s.cust := rfl
@[simp] theorem drawFree_boot (s : State) : ((drawFree s).2).boot = s.boot := rfl
@[simp] theorem drawFree_host (s : State) : ((drawFree s).2).host = s.host := rfl
@[simp] theorem drawFree_apc (s : State) : ((drawFree s).2).apc = s.apc := rfl
@[simp] theorem drawFree_cuts (s : State) : ((drawFree s).2).cuts = s.cuts := rfl
@[simp] theorem drawFree_clu (s : State) : ((drawFree s).2).clu = s.clu := rfl
@[simp] theorem drawFree_tap (s : State) : ((drawFree s).2).tap = s.tap := rfl

/-! ## modMem -/

@[simp] theorem modMem_pending (s : State) (f : MemSt → MemSt) : (modMem s f).pending = s.pending := rfl
@[simp] theorem modMem_out (s : State) (f : MemSt → MemSt) : (modMem s f).out = s.out := rfl
@[simp] theorem modMem_free (s : State) (f : MemSt → MemSt) : (modMem s f).free = s.free := rfl
@[simp] theorem modMem_regs (s : State) (f : MemSt → MemSt) : (modMem s f).regs = s.regs := rfl
@[simp] theorem modMem_blk (s : State) (f : MemSt → MemSt) : (modMem s f).blk = s.blk := rfl
@[simp] theorem modMem_hiLatch (s : State) (f : MemSt → MemSt) : (modMem s f).hiLatch = s.hiLatch := rfl
@[simp] theorem modMem_decisions (s : State) (f : MemSt → MemSt) : (modMem s f).decisions = s.decisions := rfl
@[simp] theorem modMem_looms (s : State) (f : MemSt → MemSt) : (modMem s f).looms = s.looms := rfl
@[simp] theorem modMem_hubs (s : State) (f : MemSt → MemSt) : (modMem s f).hubs = s.hubs := rfl
@[simp] theorem modMem_beat (s : State) (f : MemSt → MemSt) : (modMem s f).beat = s.beat := rfl
@[simp] theorem modMem_ltime (s : State) (f : MemSt → MemSt) : (modMem s f).ltime = s.ltime := rfl
@[simp] theorem modMem_ll (s : State) (f : MemSt → MemSt) : (modMem s f).ll = s.ll := rfl
@[simp] theorem modMem_shs (s : State) (f : MemSt → MemSt) : (modMem s f).shs = s.shs := rfl
@[simp] theorem modMem_sess (s : State) (f : MemSt → MemSt) : (modMem s f).sess = s.sess := rfl
@[simp] theorem modMem_glims (s : State) (f : MemSt → MemSt) : (modMem s f).glims = s.glims := rfl
@[simp] theorem modMem_gpkg (s : State) (f : MemSt → MemSt) : (modMem s f).gpkg = s.gpkg := rfl
@[simp] theorem modMem_lasers (s : State) (f : MemSt → MemSt) : (modMem s f).lasers = s.lasers := rfl
@[simp] theorem modMem_reeds (s : State) (f : MemSt → MemSt) : (modMem s f).reeds = s.reeds := rfl
@[simp] theorem modMem_pw (s : State) (f : MemSt → MemSt) : (modMem s f).pw = s.pw := rfl
@[simp] theorem modMem_nv (s : State) (f : MemSt → MemSt) : (modMem s f).nv = s.nv := rfl
@[simp] theorem modMem_tim (s : State) (f : MemSt → MemSt) : (modMem s f).tim = s.tim := rfl
@[simp] theorem modMem_cust (s : State) (f : MemSt → MemSt) : (modMem s f).cust = s.cust := rfl
@[simp] theorem modMem_boot (s : State) (f : MemSt → MemSt) : (modMem s f).boot = s.boot := rfl
@[simp] theorem modMem_host (s : State) (f : MemSt → MemSt) : (modMem s f).host = s.host := rfl
@[simp] theorem modMem_apc (s : State) (f : MemSt → MemSt) : (modMem s f).apc = s.apc := rfl
@[simp] theorem modMem_cuts (s : State) (f : MemSt → MemSt) : (modMem s f).cuts = s.cuts := rfl
@[simp] theorem modMem_clu (s : State) (f : MemSt → MemSt) : (modMem s f).clu = s.clu := rfl
@[simp] theorem modMem_tap (s : State) (f : MemSt → MemSt) : (modMem s f).tap = s.tap := rfl

/-! ## modSh -/

@[simp] theorem modSh_pending (s : State) (k : Nat) (f : Shuttle → Shuttle) : (modSh s k f).pending = s.pending := rfl
@[simp] theorem modSh_out (s : State) (k : Nat) (f : Shuttle → Shuttle) : (modSh s k f).out = s.out := rfl
@[simp] theorem modSh_free (s : State) (k : Nat) (f : Shuttle → Shuttle) : (modSh s k f).free = s.free := rfl
@[simp] theorem modSh_regs (s : State) (k : Nat) (f : Shuttle → Shuttle) : (modSh s k f).regs = s.regs := rfl
@[simp] theorem modSh_blk (s : State) (k : Nat) (f : Shuttle → Shuttle) : (modSh s k f).blk = s.blk := rfl
@[simp] theorem modSh_hiLatch (s : State) (k : Nat) (f : Shuttle → Shuttle) : (modSh s k f).hiLatch = s.hiLatch := rfl
@[simp] theorem modSh_decisions (s : State) (k : Nat) (f : Shuttle → Shuttle) : (modSh s k f).decisions = s.decisions := rfl
@[simp] theorem modSh_looms (s : State) (k : Nat) (f : Shuttle → Shuttle) : (modSh s k f).looms = s.looms := rfl
@[simp] theorem modSh_hubs (s : State) (k : Nat) (f : Shuttle → Shuttle) : (modSh s k f).hubs = s.hubs := rfl
@[simp] theorem modSh_beat (s : State) (k : Nat) (f : Shuttle → Shuttle) : (modSh s k f).beat = s.beat := rfl
@[simp] theorem modSh_ltime (s : State) (k : Nat) (f : Shuttle → Shuttle) : (modSh s k f).ltime = s.ltime := rfl
@[simp] theorem modSh_ll (s : State) (k : Nat) (f : Shuttle → Shuttle) : (modSh s k f).ll = s.ll := rfl
@[simp] theorem modSh_mem (s : State) (k : Nat) (f : Shuttle → Shuttle) : (modSh s k f).mem = s.mem := rfl
@[simp] theorem modSh_sess (s : State) (k : Nat) (f : Shuttle → Shuttle) : (modSh s k f).sess = s.sess := rfl
@[simp] theorem modSh_glims (s : State) (k : Nat) (f : Shuttle → Shuttle) : (modSh s k f).glims = s.glims := rfl
@[simp] theorem modSh_gpkg (s : State) (k : Nat) (f : Shuttle → Shuttle) : (modSh s k f).gpkg = s.gpkg := rfl
@[simp] theorem modSh_lasers (s : State) (k : Nat) (f : Shuttle → Shuttle) : (modSh s k f).lasers = s.lasers := rfl
@[simp] theorem modSh_reeds (s : State) (k : Nat) (f : Shuttle → Shuttle) : (modSh s k f).reeds = s.reeds := rfl
@[simp] theorem modSh_pw (s : State) (k : Nat) (f : Shuttle → Shuttle) : (modSh s k f).pw = s.pw := rfl
@[simp] theorem modSh_nv (s : State) (k : Nat) (f : Shuttle → Shuttle) : (modSh s k f).nv = s.nv := rfl
@[simp] theorem modSh_tim (s : State) (k : Nat) (f : Shuttle → Shuttle) : (modSh s k f).tim = s.tim := rfl
@[simp] theorem modSh_cust (s : State) (k : Nat) (f : Shuttle → Shuttle) : (modSh s k f).cust = s.cust := rfl
@[simp] theorem modSh_boot (s : State) (k : Nat) (f : Shuttle → Shuttle) : (modSh s k f).boot = s.boot := rfl
@[simp] theorem modSh_host (s : State) (k : Nat) (f : Shuttle → Shuttle) : (modSh s k f).host = s.host := rfl
@[simp] theorem modSh_apc (s : State) (k : Nat) (f : Shuttle → Shuttle) : (modSh s k f).apc = s.apc := rfl
@[simp] theorem modSh_cuts (s : State) (k : Nat) (f : Shuttle → Shuttle) : (modSh s k f).cuts = s.cuts := rfl
@[simp] theorem modSh_clu (s : State) (k : Nat) (f : Shuttle → Shuttle) : (modSh s k f).clu = s.clu := rfl
@[simp] theorem modSh_tap (s : State) (k : Nat) (f : Shuttle → Shuttle) : (modSh s k f).tap = s.tap := rfl

/-! ## setSessKey -/

@[simp] theorem setSessKey_pending (s : State) (p : Nat) (x : SessKey) : (setSessKey s p x).pending = s.pending := rfl
@[simp] theorem setSessKey_out (s : State) (p : Nat) (x : SessKey) : (setSessKey s p x).out = s.out := rfl
@[simp] theorem setSessKey_free (s : State) (p : Nat) (x : SessKey) : (setSessKey s p x).free = s.free := rfl
@[simp] theorem setSessKey_regs (s : State) (p : Nat) (x : SessKey) : (setSessKey s p x).regs = s.regs := rfl
@[simp] theorem setSessKey_blk (s : State) (p : Nat) (x : SessKey) : (setSessKey s p x).blk = s.blk := rfl
@[simp] theorem setSessKey_hiLatch (s : State) (p : Nat) (x : SessKey) : (setSessKey s p x).hiLatch = s.hiLatch := rfl
@[simp] theorem setSessKey_decisions (s : State) (p : Nat) (x : SessKey) : (setSessKey s p x).decisions = s.decisions := rfl
@[simp] theorem setSessKey_looms (s : State) (p : Nat) (x : SessKey) : (setSessKey s p x).looms = s.looms := rfl
@[simp] theorem setSessKey_hubs (s : State) (p : Nat) (x : SessKey) : (setSessKey s p x).hubs = s.hubs := rfl
@[simp] theorem setSessKey_beat (s : State) (p : Nat) (x : SessKey) : (setSessKey s p x).beat = s.beat := rfl
@[simp] theorem setSessKey_ltime (s : State) (p : Nat) (x : SessKey) : (setSessKey s p x).ltime = s.ltime := rfl
@[simp] theorem setSessKey_ll (s : State) (p : Nat) (x : SessKey) : (setSessKey s p x).ll = s.ll := rfl
@[simp] theorem setSessKey_mem (s : State) (p : Nat) (x : SessKey) : (setSessKey s p x).mem = s.mem := rfl
@[simp] theorem setSessKey_shs (s : State) (p : Nat) (x : SessKey) : (setSessKey s p x).shs = s.shs := rfl
@[simp] theorem setSessKey_glims (s : State) (p : Nat) (x : SessKey) : (setSessKey s p x).glims = s.glims := rfl
@[simp] theorem setSessKey_gpkg (s : State) (p : Nat) (x : SessKey) : (setSessKey s p x).gpkg = s.gpkg := rfl
@[simp] theorem setSessKey_lasers (s : State) (p : Nat) (x : SessKey) : (setSessKey s p x).lasers = s.lasers := rfl
@[simp] theorem setSessKey_reeds (s : State) (p : Nat) (x : SessKey) : (setSessKey s p x).reeds = s.reeds := rfl
@[simp] theorem setSessKey_pw (s : State) (p : Nat) (x : SessKey) : (setSessKey s p x).pw = s.pw := rfl
@[simp] theorem setSessKey_nv (s : State) (p : Nat) (x : SessKey) : (setSessKey s p x).nv = s.nv := rfl
@[simp] theorem setSessKey_tim (s : State) (p : Nat) (x : SessKey) : (setSessKey s p x).tim = s.tim := rfl
@[simp] theorem setSessKey_cust (s : State) (p : Nat) (x : SessKey) : (setSessKey s p x).cust = s.cust := rfl
@[simp] theorem setSessKey_boot (s : State) (p : Nat) (x : SessKey) : (setSessKey s p x).boot = s.boot := rfl
@[simp] theorem setSessKey_host (s : State) (p : Nat) (x : SessKey) : (setSessKey s p x).host = s.host := rfl
@[simp] theorem setSessKey_apc (s : State) (p : Nat) (x : SessKey) : (setSessKey s p x).apc = s.apc := rfl
@[simp] theorem setSessKey_cuts (s : State) (p : Nat) (x : SessKey) : (setSessKey s p x).cuts = s.cuts := rfl
@[simp] theorem setSessKey_clu (s : State) (p : Nat) (x : SessKey) : (setSessKey s p x).clu = s.clu := rfl
@[simp] theorem setSessKey_tap (s : State) (p : Nat) (x : SessKey) : (setSessKey s p x).tap = s.tap := rfl

/-! ## modGlim -/

@[simp] theorem modGlim_pending (s : State) (p : Nat) (f : Glim → Glim) : (modGlim s p f).pending = s.pending := rfl
@[simp] theorem modGlim_out (s : State) (p : Nat) (f : Glim → Glim) : (modGlim s p f).out = s.out := rfl
@[simp] theorem modGlim_free (s : State) (p : Nat) (f : Glim → Glim) : (modGlim s p f).free = s.free := rfl
@[simp] theorem modGlim_regs (s : State) (p : Nat) (f : Glim → Glim) : (modGlim s p f).regs = s.regs := rfl
@[simp] theorem modGlim_blk (s : State) (p : Nat) (f : Glim → Glim) : (modGlim s p f).blk = s.blk := rfl
@[simp] theorem modGlim_hiLatch (s : State) (p : Nat) (f : Glim → Glim) : (modGlim s p f).hiLatch = s.hiLatch := rfl
@[simp] theorem modGlim_decisions (s : State) (p : Nat) (f : Glim → Glim) : (modGlim s p f).decisions = s.decisions := rfl
@[simp] theorem modGlim_looms (s : State) (p : Nat) (f : Glim → Glim) : (modGlim s p f).looms = s.looms := rfl
@[simp] theorem modGlim_hubs (s : State) (p : Nat) (f : Glim → Glim) : (modGlim s p f).hubs = s.hubs := rfl
@[simp] theorem modGlim_beat (s : State) (p : Nat) (f : Glim → Glim) : (modGlim s p f).beat = s.beat := rfl
@[simp] theorem modGlim_ltime (s : State) (p : Nat) (f : Glim → Glim) : (modGlim s p f).ltime = s.ltime := rfl
@[simp] theorem modGlim_ll (s : State) (p : Nat) (f : Glim → Glim) : (modGlim s p f).ll = s.ll := rfl
@[simp] theorem modGlim_mem (s : State) (p : Nat) (f : Glim → Glim) : (modGlim s p f).mem = s.mem := rfl
@[simp] theorem modGlim_shs (s : State) (p : Nat) (f : Glim → Glim) : (modGlim s p f).shs = s.shs := rfl
@[simp] theorem modGlim_sess (s : State) (p : Nat) (f : Glim → Glim) : (modGlim s p f).sess = s.sess := rfl
@[simp] theorem modGlim_gpkg (s : State) (p : Nat) (f : Glim → Glim) : (modGlim s p f).gpkg = s.gpkg := rfl
@[simp] theorem modGlim_lasers (s : State) (p : Nat) (f : Glim → Glim) : (modGlim s p f).lasers = s.lasers := rfl
@[simp] theorem modGlim_reeds (s : State) (p : Nat) (f : Glim → Glim) : (modGlim s p f).reeds = s.reeds := rfl
@[simp] theorem modGlim_pw (s : State) (p : Nat) (f : Glim → Glim) : (modGlim s p f).pw = s.pw := rfl
@[simp] theorem modGlim_nv (s : State) (p : Nat) (f : Glim → Glim) : (modGlim s p f).nv = s.nv := rfl
@[simp] theorem modGlim_tim (s : State) (p : Nat) (f : Glim → Glim) : (modGlim s p f).tim = s.tim := rfl
@[simp] theorem modGlim_cust (s : State) (p : Nat) (f : Glim → Glim) : (modGlim s p f).cust = s.cust := rfl
@[simp] theorem modGlim_boot (s : State) (p : Nat) (f : Glim → Glim) : (modGlim s p f).boot = s.boot := rfl
@[simp] theorem modGlim_host (s : State) (p : Nat) (f : Glim → Glim) : (modGlim s p f).host = s.host := rfl
@[simp] theorem modGlim_apc (s : State) (p : Nat) (f : Glim → Glim) : (modGlim s p f).apc = s.apc := rfl
@[simp] theorem modGlim_cuts (s : State) (p : Nat) (f : Glim → Glim) : (modGlim s p f).cuts = s.cuts := rfl
@[simp] theorem modGlim_clu (s : State) (p : Nat) (f : Glim → Glim) : (modGlim s p f).clu = s.clu := rfl
@[simp] theorem modGlim_tap (s : State) (p : Nat) (f : Glim → Glim) : (modGlim s p f).tap = s.tap := rfl

/-! ## modGpkg -/

@[simp] theorem modGpkg_pending (s : State) (f : GlimPkg → GlimPkg) : (modGpkg s f).pending = s.pending := rfl
@[simp] theorem modGpkg_out (s : State) (f : GlimPkg → GlimPkg) : (modGpkg s f).out = s.out := rfl
@[simp] theorem modGpkg_free (s : State) (f : GlimPkg → GlimPkg) : (modGpkg s f).free = s.free := rfl
@[simp] theorem modGpkg_regs (s : State) (f : GlimPkg → GlimPkg) : (modGpkg s f).regs = s.regs := rfl
@[simp] theorem modGpkg_blk (s : State) (f : GlimPkg → GlimPkg) : (modGpkg s f).blk = s.blk := rfl
@[simp] theorem modGpkg_hiLatch (s : State) (f : GlimPkg → GlimPkg) : (modGpkg s f).hiLatch = s.hiLatch := rfl
@[simp] theorem modGpkg_decisions (s : State) (f : GlimPkg → GlimPkg) : (modGpkg s f).decisions = s.decisions := rfl
@[simp] theorem modGpkg_looms (s : State) (f : GlimPkg → GlimPkg) : (modGpkg s f).looms = s.looms := rfl
@[simp] theorem modGpkg_hubs (s : State) (f : GlimPkg → GlimPkg) : (modGpkg s f).hubs = s.hubs := rfl
@[simp] theorem modGpkg_beat (s : State) (f : GlimPkg → GlimPkg) : (modGpkg s f).beat = s.beat := rfl
@[simp] theorem modGpkg_ltime (s : State) (f : GlimPkg → GlimPkg) : (modGpkg s f).ltime = s.ltime := rfl
@[simp] theorem modGpkg_ll (s : State) (f : GlimPkg → GlimPkg) : (modGpkg s f).ll = s.ll := rfl
@[simp] theorem modGpkg_mem (s : State) (f : GlimPkg → GlimPkg) : (modGpkg s f).mem = s.mem := rfl
@[simp] theorem modGpkg_shs (s : State) (f : GlimPkg → GlimPkg) : (modGpkg s f).shs = s.shs := rfl
@[simp] theorem modGpkg_sess (s : State) (f : GlimPkg → GlimPkg) : (modGpkg s f).sess = s.sess := rfl
@[simp] theorem modGpkg_glims (s : State) (f : GlimPkg → GlimPkg) : (modGpkg s f).glims = s.glims := rfl
@[simp] theorem modGpkg_lasers (s : State) (f : GlimPkg → GlimPkg) : (modGpkg s f).lasers = s.lasers := rfl
@[simp] theorem modGpkg_reeds (s : State) (f : GlimPkg → GlimPkg) : (modGpkg s f).reeds = s.reeds := rfl
@[simp] theorem modGpkg_pw (s : State) (f : GlimPkg → GlimPkg) : (modGpkg s f).pw = s.pw := rfl
@[simp] theorem modGpkg_nv (s : State) (f : GlimPkg → GlimPkg) : (modGpkg s f).nv = s.nv := rfl
@[simp] theorem modGpkg_tim (s : State) (f : GlimPkg → GlimPkg) : (modGpkg s f).tim = s.tim := rfl
@[simp] theorem modGpkg_cust (s : State) (f : GlimPkg → GlimPkg) : (modGpkg s f).cust = s.cust := rfl
@[simp] theorem modGpkg_boot (s : State) (f : GlimPkg → GlimPkg) : (modGpkg s f).boot = s.boot := rfl
@[simp] theorem modGpkg_host (s : State) (f : GlimPkg → GlimPkg) : (modGpkg s f).host = s.host := rfl
@[simp] theorem modGpkg_apc (s : State) (f : GlimPkg → GlimPkg) : (modGpkg s f).apc = s.apc := rfl
@[simp] theorem modGpkg_cuts (s : State) (f : GlimPkg → GlimPkg) : (modGpkg s f).cuts = s.cuts := rfl
@[simp] theorem modGpkg_clu (s : State) (f : GlimPkg → GlimPkg) : (modGpkg s f).clu = s.clu := rfl
@[simp] theorem modGpkg_tap (s : State) (f : GlimPkg → GlimPkg) : (modGpkg s f).tap = s.tap := rfl

/-! ## modLas -/

@[simp] theorem modLas_pending (s : State) (m : Nat) (f : Laser → Laser) : (modLas s m f).pending = s.pending := rfl
@[simp] theorem modLas_out (s : State) (m : Nat) (f : Laser → Laser) : (modLas s m f).out = s.out := rfl
@[simp] theorem modLas_free (s : State) (m : Nat) (f : Laser → Laser) : (modLas s m f).free = s.free := rfl
@[simp] theorem modLas_regs (s : State) (m : Nat) (f : Laser → Laser) : (modLas s m f).regs = s.regs := rfl
@[simp] theorem modLas_blk (s : State) (m : Nat) (f : Laser → Laser) : (modLas s m f).blk = s.blk := rfl
@[simp] theorem modLas_hiLatch (s : State) (m : Nat) (f : Laser → Laser) : (modLas s m f).hiLatch = s.hiLatch := rfl
@[simp] theorem modLas_decisions (s : State) (m : Nat) (f : Laser → Laser) : (modLas s m f).decisions = s.decisions := rfl
@[simp] theorem modLas_looms (s : State) (m : Nat) (f : Laser → Laser) : (modLas s m f).looms = s.looms := rfl
@[simp] theorem modLas_hubs (s : State) (m : Nat) (f : Laser → Laser) : (modLas s m f).hubs = s.hubs := rfl
@[simp] theorem modLas_beat (s : State) (m : Nat) (f : Laser → Laser) : (modLas s m f).beat = s.beat := rfl
@[simp] theorem modLas_ltime (s : State) (m : Nat) (f : Laser → Laser) : (modLas s m f).ltime = s.ltime := rfl
@[simp] theorem modLas_ll (s : State) (m : Nat) (f : Laser → Laser) : (modLas s m f).ll = s.ll := rfl
@[simp] theorem modLas_mem (s : State) (m : Nat) (f : Laser → Laser) : (modLas s m f).mem = s.mem := rfl
@[simp] theorem modLas_shs (s : State) (m : Nat) (f : Laser → Laser) : (modLas s m f).shs = s.shs := rfl
@[simp] theorem modLas_sess (s : State) (m : Nat) (f : Laser → Laser) : (modLas s m f).sess = s.sess := rfl
@[simp] theorem modLas_glims (s : State) (m : Nat) (f : Laser → Laser) : (modLas s m f).glims = s.glims := rfl
@[simp] theorem modLas_gpkg (s : State) (m : Nat) (f : Laser → Laser) : (modLas s m f).gpkg = s.gpkg := rfl
@[simp] theorem modLas_reeds (s : State) (m : Nat) (f : Laser → Laser) : (modLas s m f).reeds = s.reeds := rfl
@[simp] theorem modLas_pw (s : State) (m : Nat) (f : Laser → Laser) : (modLas s m f).pw = s.pw := rfl
@[simp] theorem modLas_nv (s : State) (m : Nat) (f : Laser → Laser) : (modLas s m f).nv = s.nv := rfl
@[simp] theorem modLas_tim (s : State) (m : Nat) (f : Laser → Laser) : (modLas s m f).tim = s.tim := rfl
@[simp] theorem modLas_cust (s : State) (m : Nat) (f : Laser → Laser) : (modLas s m f).cust = s.cust := rfl
@[simp] theorem modLas_boot (s : State) (m : Nat) (f : Laser → Laser) : (modLas s m f).boot = s.boot := rfl
@[simp] theorem modLas_host (s : State) (m : Nat) (f : Laser → Laser) : (modLas s m f).host = s.host := rfl
@[simp] theorem modLas_apc (s : State) (m : Nat) (f : Laser → Laser) : (modLas s m f).apc = s.apc := rfl
@[simp] theorem modLas_cuts (s : State) (m : Nat) (f : Laser → Laser) : (modLas s m f).cuts = s.cuts := rfl
@[simp] theorem modLas_clu (s : State) (m : Nat) (f : Laser → Laser) : (modLas s m f).clu = s.clu := rfl
@[simp] theorem modLas_tap (s : State) (m : Nat) (f : Laser → Laser) : (modLas s m f).tap = s.tap := rfl

/-! ## modReed -/

@[simp] theorem modReed_pending (s : State) (p : Nat) (f : Reed → Reed) : (modReed s p f).pending = s.pending := rfl
@[simp] theorem modReed_out (s : State) (p : Nat) (f : Reed → Reed) : (modReed s p f).out = s.out := rfl
@[simp] theorem modReed_free (s : State) (p : Nat) (f : Reed → Reed) : (modReed s p f).free = s.free := rfl
@[simp] theorem modReed_regs (s : State) (p : Nat) (f : Reed → Reed) : (modReed s p f).regs = s.regs := rfl
@[simp] theorem modReed_blk (s : State) (p : Nat) (f : Reed → Reed) : (modReed s p f).blk = s.blk := rfl
@[simp] theorem modReed_hiLatch (s : State) (p : Nat) (f : Reed → Reed) : (modReed s p f).hiLatch = s.hiLatch := rfl
@[simp] theorem modReed_decisions (s : State) (p : Nat) (f : Reed → Reed) : (modReed s p f).decisions = s.decisions := rfl
@[simp] theorem modReed_looms (s : State) (p : Nat) (f : Reed → Reed) : (modReed s p f).looms = s.looms := rfl
@[simp] theorem modReed_hubs (s : State) (p : Nat) (f : Reed → Reed) : (modReed s p f).hubs = s.hubs := rfl
@[simp] theorem modReed_beat (s : State) (p : Nat) (f : Reed → Reed) : (modReed s p f).beat = s.beat := rfl
@[simp] theorem modReed_ltime (s : State) (p : Nat) (f : Reed → Reed) : (modReed s p f).ltime = s.ltime := rfl
@[simp] theorem modReed_ll (s : State) (p : Nat) (f : Reed → Reed) : (modReed s p f).ll = s.ll := rfl
@[simp] theorem modReed_mem (s : State) (p : Nat) (f : Reed → Reed) : (modReed s p f).mem = s.mem := rfl
@[simp] theorem modReed_shs (s : State) (p : Nat) (f : Reed → Reed) : (modReed s p f).shs = s.shs := rfl
@[simp] theorem modReed_sess (s : State) (p : Nat) (f : Reed → Reed) : (modReed s p f).sess = s.sess := rfl
@[simp] theorem modReed_glims (s : State) (p : Nat) (f : Reed → Reed) : (modReed s p f).glims = s.glims := rfl
@[simp] theorem modReed_gpkg (s : State) (p : Nat) (f : Reed → Reed) : (modReed s p f).gpkg = s.gpkg := rfl
@[simp] theorem modReed_lasers (s : State) (p : Nat) (f : Reed → Reed) : (modReed s p f).lasers = s.lasers := rfl
@[simp] theorem modReed_pw (s : State) (p : Nat) (f : Reed → Reed) : (modReed s p f).pw = s.pw := rfl
@[simp] theorem modReed_nv (s : State) (p : Nat) (f : Reed → Reed) : (modReed s p f).nv = s.nv := rfl
@[simp] theorem modReed_tim (s : State) (p : Nat) (f : Reed → Reed) : (modReed s p f).tim = s.tim := rfl
@[simp] theorem modReed_cust (s : State) (p : Nat) (f : Reed → Reed) : (modReed s p f).cust = s.cust := rfl
@[simp] theorem modReed_boot (s : State) (p : Nat) (f : Reed → Reed) : (modReed s p f).boot = s.boot := rfl
@[simp] theorem modReed_host (s : State) (p : Nat) (f : Reed → Reed) : (modReed s p f).host = s.host := rfl
@[simp] theorem modReed_apc (s : State) (p : Nat) (f : Reed → Reed) : (modReed s p f).apc = s.apc := rfl
@[simp] theorem modReed_cuts (s : State) (p : Nat) (f : Reed → Reed) : (modReed s p f).cuts = s.cuts := rfl
@[simp] theorem modReed_clu (s : State) (p : Nat) (f : Reed → Reed) : (modReed s p f).clu = s.clu := rfl
@[simp] theorem modReed_tap (s : State) (p : Nat) (f : Reed → Reed) : (modReed s p f).tap = s.tap := rfl

/-! ## modPw -/

@[simp] theorem modPw_pending (s : State) (f : PowerSt → PowerSt) : (modPw s f).pending = s.pending := rfl
@[simp] theorem modPw_out (s : State) (f : PowerSt → PowerSt) : (modPw s f).out = s.out := rfl
@[simp] theorem modPw_free (s : State) (f : PowerSt → PowerSt) : (modPw s f).free = s.free := rfl
@[simp] theorem modPw_regs (s : State) (f : PowerSt → PowerSt) : (modPw s f).regs = s.regs := rfl
@[simp] theorem modPw_blk (s : State) (f : PowerSt → PowerSt) : (modPw s f).blk = s.blk := rfl
@[simp] theorem modPw_hiLatch (s : State) (f : PowerSt → PowerSt) : (modPw s f).hiLatch = s.hiLatch := rfl
@[simp] theorem modPw_decisions (s : State) (f : PowerSt → PowerSt) : (modPw s f).decisions = s.decisions := rfl
@[simp] theorem modPw_looms (s : State) (f : PowerSt → PowerSt) : (modPw s f).looms = s.looms := rfl
@[simp] theorem modPw_hubs (s : State) (f : PowerSt → PowerSt) : (modPw s f).hubs = s.hubs := rfl
@[simp] theorem modPw_beat (s : State) (f : PowerSt → PowerSt) : (modPw s f).beat = s.beat := rfl
@[simp] theorem modPw_ltime (s : State) (f : PowerSt → PowerSt) : (modPw s f).ltime = s.ltime := rfl
@[simp] theorem modPw_ll (s : State) (f : PowerSt → PowerSt) : (modPw s f).ll = s.ll := rfl
@[simp] theorem modPw_mem (s : State) (f : PowerSt → PowerSt) : (modPw s f).mem = s.mem := rfl
@[simp] theorem modPw_shs (s : State) (f : PowerSt → PowerSt) : (modPw s f).shs = s.shs := rfl
@[simp] theorem modPw_sess (s : State) (f : PowerSt → PowerSt) : (modPw s f).sess = s.sess := rfl
@[simp] theorem modPw_glims (s : State) (f : PowerSt → PowerSt) : (modPw s f).glims = s.glims := rfl
@[simp] theorem modPw_gpkg (s : State) (f : PowerSt → PowerSt) : (modPw s f).gpkg = s.gpkg := rfl
@[simp] theorem modPw_lasers (s : State) (f : PowerSt → PowerSt) : (modPw s f).lasers = s.lasers := rfl
@[simp] theorem modPw_reeds (s : State) (f : PowerSt → PowerSt) : (modPw s f).reeds = s.reeds := rfl
@[simp] theorem modPw_nv (s : State) (f : PowerSt → PowerSt) : (modPw s f).nv = s.nv := rfl
@[simp] theorem modPw_tim (s : State) (f : PowerSt → PowerSt) : (modPw s f).tim = s.tim := rfl
@[simp] theorem modPw_cust (s : State) (f : PowerSt → PowerSt) : (modPw s f).cust = s.cust := rfl
@[simp] theorem modPw_boot (s : State) (f : PowerSt → PowerSt) : (modPw s f).boot = s.boot := rfl
@[simp] theorem modPw_host (s : State) (f : PowerSt → PowerSt) : (modPw s f).host = s.host := rfl
@[simp] theorem modPw_apc (s : State) (f : PowerSt → PowerSt) : (modPw s f).apc = s.apc := rfl
@[simp] theorem modPw_cuts (s : State) (f : PowerSt → PowerSt) : (modPw s f).cuts = s.cuts := rfl
@[simp] theorem modPw_clu (s : State) (f : PowerSt → PowerSt) : (modPw s f).clu = s.clu := rfl
@[simp] theorem modPw_tap (s : State) (f : PowerSt → PowerSt) : (modPw s f).tap = s.tap := rfl

/-! ## modLl -/

@[simp] theorem modLl_pending (s : State) (f : LlSt → LlSt) : (modLl s f).pending = s.pending := rfl
@[simp] theorem modLl_out (s : State) (f : LlSt → LlSt) : (modLl s f).out = s.out := rfl
@[simp] theorem modLl_free (s : State) (f : LlSt → LlSt) : (modLl s f).free = s.free := rfl
@[simp] theorem modLl_regs (s : State) (f : LlSt → LlSt) : (modLl s f).regs = s.regs := rfl
@[simp] theorem modLl_blk (s : State) (f : LlSt → LlSt) : (modLl s f).blk = s.blk := rfl
@[simp] theorem modLl_hiLatch (s : State) (f : LlSt → LlSt) : (modLl s f).hiLatch = s.hiLatch := rfl
@[simp] theorem modLl_decisions (s : State) (f : LlSt → LlSt) : (modLl s f).decisions = s.decisions := rfl
@[simp] theorem modLl_looms (s : State) (f : LlSt → LlSt) : (modLl s f).looms = s.looms := rfl
@[simp] theorem modLl_hubs (s : State) (f : LlSt → LlSt) : (modLl s f).hubs = s.hubs := rfl
@[simp] theorem modLl_beat (s : State) (f : LlSt → LlSt) : (modLl s f).beat = s.beat := rfl
@[simp] theorem modLl_ltime (s : State) (f : LlSt → LlSt) : (modLl s f).ltime = s.ltime := rfl
@[simp] theorem modLl_mem (s : State) (f : LlSt → LlSt) : (modLl s f).mem = s.mem := rfl
@[simp] theorem modLl_shs (s : State) (f : LlSt → LlSt) : (modLl s f).shs = s.shs := rfl
@[simp] theorem modLl_sess (s : State) (f : LlSt → LlSt) : (modLl s f).sess = s.sess := rfl
@[simp] theorem modLl_glims (s : State) (f : LlSt → LlSt) : (modLl s f).glims = s.glims := rfl
@[simp] theorem modLl_gpkg (s : State) (f : LlSt → LlSt) : (modLl s f).gpkg = s.gpkg := rfl
@[simp] theorem modLl_lasers (s : State) (f : LlSt → LlSt) : (modLl s f).lasers = s.lasers := rfl
@[simp] theorem modLl_reeds (s : State) (f : LlSt → LlSt) : (modLl s f).reeds = s.reeds := rfl
@[simp] theorem modLl_pw (s : State) (f : LlSt → LlSt) : (modLl s f).pw = s.pw := rfl
@[simp] theorem modLl_nv (s : State) (f : LlSt → LlSt) : (modLl s f).nv = s.nv := rfl
@[simp] theorem modLl_tim (s : State) (f : LlSt → LlSt) : (modLl s f).tim = s.tim := rfl
@[simp] theorem modLl_cust (s : State) (f : LlSt → LlSt) : (modLl s f).cust = s.cust := rfl
@[simp] theorem modLl_boot (s : State) (f : LlSt → LlSt) : (modLl s f).boot = s.boot := rfl
@[simp] theorem modLl_host (s : State) (f : LlSt → LlSt) : (modLl s f).host = s.host := rfl
@[simp] theorem modLl_apc (s : State) (f : LlSt → LlSt) : (modLl s f).apc = s.apc := rfl
@[simp] theorem modLl_cuts (s : State) (f : LlSt → LlSt) : (modLl s f).cuts = s.cuts := rfl
@[simp] theorem modLl_clu (s : State) (f : LlSt → LlSt) : (modLl s f).clu = s.clu := rfl
@[simp] theorem modLl_tap (s : State) (f : LlSt → LlSt) : (modLl s f).tap = s.tap := rfl

/-! ## modTim -/

@[simp] theorem modTim_pending (s : State) (f : TimerSt → TimerSt) : (modTim s f).pending = s.pending := rfl
@[simp] theorem modTim_out (s : State) (f : TimerSt → TimerSt) : (modTim s f).out = s.out := rfl
@[simp] theorem modTim_free (s : State) (f : TimerSt → TimerSt) : (modTim s f).free = s.free := rfl
@[simp] theorem modTim_regs (s : State) (f : TimerSt → TimerSt) : (modTim s f).regs = s.regs := rfl
@[simp] theorem modTim_blk (s : State) (f : TimerSt → TimerSt) : (modTim s f).blk = s.blk := rfl
@[simp] theorem modTim_hiLatch (s : State) (f : TimerSt → TimerSt) : (modTim s f).hiLatch = s.hiLatch := rfl
@[simp] theorem modTim_decisions (s : State) (f : TimerSt → TimerSt) : (modTim s f).decisions = s.decisions := rfl
@[simp] theorem modTim_looms (s : State) (f : TimerSt → TimerSt) : (modTim s f).looms = s.looms := rfl
@[simp] theorem modTim_hubs (s : State) (f : TimerSt → TimerSt) : (modTim s f).hubs = s.hubs := rfl
@[simp] theorem modTim_beat (s : State) (f : TimerSt → TimerSt) : (modTim s f).beat = s.beat := rfl
@[simp] theorem modTim_ltime (s : State) (f : TimerSt → TimerSt) : (modTim s f).ltime = s.ltime := rfl
@[simp] theorem modTim_ll (s : State) (f : TimerSt → TimerSt) : (modTim s f).ll = s.ll := rfl
@[simp] theorem modTim_mem (s : State) (f : TimerSt → TimerSt) : (modTim s f).mem = s.mem := rfl
@[simp] theorem modTim_shs (s : State) (f : TimerSt → TimerSt) : (modTim s f).shs = s.shs := rfl
@[simp] theorem modTim_sess (s : State) (f : TimerSt → TimerSt) : (modTim s f).sess = s.sess := rfl
@[simp] theorem modTim_glims (s : State) (f : TimerSt → TimerSt) : (modTim s f).glims = s.glims := rfl
@[simp] theorem modTim_gpkg (s : State) (f : TimerSt → TimerSt) : (modTim s f).gpkg = s.gpkg := rfl
@[simp] theorem modTim_lasers (s : State) (f : TimerSt → TimerSt) : (modTim s f).lasers = s.lasers := rfl
@[simp] theorem modTim_reeds (s : State) (f : TimerSt → TimerSt) : (modTim s f).reeds = s.reeds := rfl
@[simp] theorem modTim_pw (s : State) (f : TimerSt → TimerSt) : (modTim s f).pw = s.pw := rfl
@[simp] theorem modTim_nv (s : State) (f : TimerSt → TimerSt) : (modTim s f).nv = s.nv := rfl
@[simp] theorem modTim_cust (s : State) (f : TimerSt → TimerSt) : (modTim s f).cust = s.cust := rfl
@[simp] theorem modTim_boot (s : State) (f : TimerSt → TimerSt) : (modTim s f).boot = s.boot := rfl
@[simp] theorem modTim_host (s : State) (f : TimerSt → TimerSt) : (modTim s f).host = s.host := rfl
@[simp] theorem modTim_apc (s : State) (f : TimerSt → TimerSt) : (modTim s f).apc = s.apc := rfl
@[simp] theorem modTim_cuts (s : State) (f : TimerSt → TimerSt) : (modTim s f).cuts = s.cuts := rfl
@[simp] theorem modTim_clu (s : State) (f : TimerSt → TimerSt) : (modTim s f).clu = s.clu := rfl
@[simp] theorem modTim_tap (s : State) (f : TimerSt → TimerSt) : (modTim s f).tap = s.tap := rfl

/-! ## modCust -/

@[simp] theorem modCust_pending (s : State) (f : CustSt → CustSt) : (modCust s f).pending = s.pending := rfl
@[simp] theorem modCust_out (s : State) (f : CustSt → CustSt) : (modCust s f).out = s.out := rfl
@[simp] theorem modCust_free (s : State) (f : CustSt → CustSt) : (modCust s f).free = s.free := rfl
@[simp] theorem modCust_regs (s : State) (f : CustSt → CustSt) : (modCust s f).regs = s.regs := rfl
@[simp] theorem modCust_blk (s : State) (f : CustSt → CustSt) : (modCust s f).blk = s.blk := rfl
@[simp] theorem modCust_hiLatch (s : State) (f : CustSt → CustSt) : (modCust s f).hiLatch = s.hiLatch := rfl
@[simp] theorem modCust_decisions (s : State) (f : CustSt → CustSt) : (modCust s f).decisions = s.decisions := rfl
@[simp] theorem modCust_looms (s : State) (f : CustSt → CustSt) : (modCust s f).looms = s.looms := rfl
@[simp] theorem modCust_hubs (s : State) (f : CustSt → CustSt) : (modCust s f).hubs = s.hubs := rfl
@[simp] theorem modCust_beat (s : State) (f : CustSt → CustSt) : (modCust s f).beat = s.beat := rfl
@[simp] theorem modCust_ltime (s : State) (f : CustSt → CustSt) : (modCust s f).ltime = s.ltime := rfl
@[simp] theorem modCust_ll (s : State) (f : CustSt → CustSt) : (modCust s f).ll = s.ll := rfl
@[simp] theorem modCust_mem (s : State) (f : CustSt → CustSt) : (modCust s f).mem = s.mem := rfl
@[simp] theorem modCust_shs (s : State) (f : CustSt → CustSt) : (modCust s f).shs = s.shs := rfl
@[simp] theorem modCust_sess (s : State) (f : CustSt → CustSt) : (modCust s f).sess = s.sess := rfl
@[simp] theorem modCust_glims (s : State) (f : CustSt → CustSt) : (modCust s f).glims = s.glims := rfl
@[simp] theorem modCust_gpkg (s : State) (f : CustSt → CustSt) : (modCust s f).gpkg = s.gpkg := rfl
@[simp] theorem modCust_lasers (s : State) (f : CustSt → CustSt) : (modCust s f).lasers = s.lasers := rfl
@[simp] theorem modCust_reeds (s : State) (f : CustSt → CustSt) : (modCust s f).reeds = s.reeds := rfl
@[simp] theorem modCust_pw (s : State) (f : CustSt → CustSt) : (modCust s f).pw = s.pw := rfl
@[simp] theorem modCust_nv (s : State) (f : CustSt → CustSt) : (modCust s f).nv = s.nv := rfl
@[simp] theorem modCust_tim (s : State) (f : CustSt → CustSt) : (modCust s f).tim = s.tim := rfl
@[simp] theorem modCust_boot (s : State) (f : CustSt → CustSt) : (modCust s f).boot = s.boot := rfl
@[simp] theorem modCust_host (s : State) (f : CustSt → CustSt) : (modCust s f).host = s.host := rfl
@[simp] theorem modCust_apc (s : State) (f : CustSt → CustSt) : (modCust s f).apc = s.apc := rfl
@[simp] theorem modCust_cuts (s : State) (f : CustSt → CustSt) : (modCust s f).cuts = s.cuts := rfl
@[simp] theorem modCust_clu (s : State) (f : CustSt → CustSt) : (modCust s f).clu = s.clu := rfl
@[simp] theorem modCust_tap (s : State) (f : CustSt → CustSt) : (modCust s f).tap = s.tap := rfl

/-! ## setApc -/

@[simp] theorem setApc_pending (s : State) (i : Nat) (e : ChEnd) : (setApc s i e).pending = s.pending := rfl
@[simp] theorem setApc_out (s : State) (i : Nat) (e : ChEnd) : (setApc s i e).out = s.out := rfl
@[simp] theorem setApc_free (s : State) (i : Nat) (e : ChEnd) : (setApc s i e).free = s.free := rfl
@[simp] theorem setApc_regs (s : State) (i : Nat) (e : ChEnd) : (setApc s i e).regs = s.regs := rfl
@[simp] theorem setApc_blk (s : State) (i : Nat) (e : ChEnd) : (setApc s i e).blk = s.blk := rfl
@[simp] theorem setApc_hiLatch (s : State) (i : Nat) (e : ChEnd) : (setApc s i e).hiLatch = s.hiLatch := rfl
@[simp] theorem setApc_decisions (s : State) (i : Nat) (e : ChEnd) : (setApc s i e).decisions = s.decisions := rfl
@[simp] theorem setApc_looms (s : State) (i : Nat) (e : ChEnd) : (setApc s i e).looms = s.looms := rfl
@[simp] theorem setApc_hubs (s : State) (i : Nat) (e : ChEnd) : (setApc s i e).hubs = s.hubs := rfl
@[simp] theorem setApc_beat (s : State) (i : Nat) (e : ChEnd) : (setApc s i e).beat = s.beat := rfl
@[simp] theorem setApc_ltime (s : State) (i : Nat) (e : ChEnd) : (setApc s i e).ltime = s.ltime := rfl
@[simp] theorem setApc_ll (s : State) (i : Nat) (e : ChEnd) : (setApc s i e).ll = s.ll := rfl
@[simp] theorem setApc_mem (s : State) (i : Nat) (e : ChEnd) : (setApc s i e).mem = s.mem := rfl
@[simp] theorem setApc_shs (s : State) (i : Nat) (e : ChEnd) : (setApc s i e).shs = s.shs := rfl
@[simp] theorem setApc_sess (s : State) (i : Nat) (e : ChEnd) : (setApc s i e).sess = s.sess := rfl
@[simp] theorem setApc_glims (s : State) (i : Nat) (e : ChEnd) : (setApc s i e).glims = s.glims := rfl
@[simp] theorem setApc_gpkg (s : State) (i : Nat) (e : ChEnd) : (setApc s i e).gpkg = s.gpkg := rfl
@[simp] theorem setApc_lasers (s : State) (i : Nat) (e : ChEnd) : (setApc s i e).lasers = s.lasers := rfl
@[simp] theorem setApc_reeds (s : State) (i : Nat) (e : ChEnd) : (setApc s i e).reeds = s.reeds := rfl
@[simp] theorem setApc_pw (s : State) (i : Nat) (e : ChEnd) : (setApc s i e).pw = s.pw := rfl
@[simp] theorem setApc_nv (s : State) (i : Nat) (e : ChEnd) : (setApc s i e).nv = s.nv := rfl
@[simp] theorem setApc_tim (s : State) (i : Nat) (e : ChEnd) : (setApc s i e).tim = s.tim := rfl
@[simp] theorem setApc_cust (s : State) (i : Nat) (e : ChEnd) : (setApc s i e).cust = s.cust := rfl
@[simp] theorem setApc_boot (s : State) (i : Nat) (e : ChEnd) : (setApc s i e).boot = s.boot := rfl
@[simp] theorem setApc_host (s : State) (i : Nat) (e : ChEnd) : (setApc s i e).host = s.host := rfl
@[simp] theorem setApc_cuts (s : State) (i : Nat) (e : ChEnd) : (setApc s i e).cuts = s.cuts := rfl
@[simp] theorem setApc_clu (s : State) (i : Nat) (e : ChEnd) : (setApc s i e).clu = s.clu := rfl
@[simp] theorem setApc_tap (s : State) (i : Nat) (e : ChEnd) : (setApc s i e).tap = s.tap := rfl

/-! ## fuseBlow -/

@[simp] theorem fuseBlow_pending (s : State) (i : Nat) (w : Word) : (fuseBlow s i w).pending = s.pending := rfl
@[simp] theorem fuseBlow_out (s : State) (i : Nat) (w : Word) : (fuseBlow s i w).out = s.out := rfl
@[simp] theorem fuseBlow_free (s : State) (i : Nat) (w : Word) : (fuseBlow s i w).free = s.free := rfl
@[simp] theorem fuseBlow_regs (s : State) (i : Nat) (w : Word) : (fuseBlow s i w).regs = s.regs := rfl
@[simp] theorem fuseBlow_blk (s : State) (i : Nat) (w : Word) : (fuseBlow s i w).blk = s.blk := rfl
@[simp] theorem fuseBlow_hiLatch (s : State) (i : Nat) (w : Word) : (fuseBlow s i w).hiLatch = s.hiLatch := rfl
@[simp] theorem fuseBlow_decisions (s : State) (i : Nat) (w : Word) : (fuseBlow s i w).decisions = s.decisions := rfl
@[simp] theorem fuseBlow_looms (s : State) (i : Nat) (w : Word) : (fuseBlow s i w).looms = s.looms := rfl
@[simp] theorem fuseBlow_hubs (s : State) (i : Nat) (w : Word) : (fuseBlow s i w).hubs = s.hubs := rfl
@[simp] theorem fuseBlow_beat (s : State) (i : Nat) (w : Word) : (fuseBlow s i w).beat = s.beat := rfl
@[simp] theorem fuseBlow_ltime (s : State) (i : Nat) (w : Word) : (fuseBlow s i w).ltime = s.ltime := rfl
@[simp] theorem fuseBlow_ll (s : State) (i : Nat) (w : Word) : (fuseBlow s i w).ll = s.ll := rfl
@[simp] theorem fuseBlow_mem (s : State) (i : Nat) (w : Word) : (fuseBlow s i w).mem = s.mem := rfl
@[simp] theorem fuseBlow_shs (s : State) (i : Nat) (w : Word) : (fuseBlow s i w).shs = s.shs := rfl
@[simp] theorem fuseBlow_sess (s : State) (i : Nat) (w : Word) : (fuseBlow s i w).sess = s.sess := rfl
@[simp] theorem fuseBlow_glims (s : State) (i : Nat) (w : Word) : (fuseBlow s i w).glims = s.glims := rfl
@[simp] theorem fuseBlow_gpkg (s : State) (i : Nat) (w : Word) : (fuseBlow s i w).gpkg = s.gpkg := rfl
@[simp] theorem fuseBlow_lasers (s : State) (i : Nat) (w : Word) : (fuseBlow s i w).lasers = s.lasers := rfl
@[simp] theorem fuseBlow_reeds (s : State) (i : Nat) (w : Word) : (fuseBlow s i w).reeds = s.reeds := rfl
@[simp] theorem fuseBlow_pw (s : State) (i : Nat) (w : Word) : (fuseBlow s i w).pw = s.pw := rfl
@[simp] theorem fuseBlow_tim (s : State) (i : Nat) (w : Word) : (fuseBlow s i w).tim = s.tim := rfl
@[simp] theorem fuseBlow_cust (s : State) (i : Nat) (w : Word) : (fuseBlow s i w).cust = s.cust := rfl
@[simp] theorem fuseBlow_boot (s : State) (i : Nat) (w : Word) : (fuseBlow s i w).boot = s.boot := rfl
@[simp] theorem fuseBlow_host (s : State) (i : Nat) (w : Word) : (fuseBlow s i w).host = s.host := rfl
@[simp] theorem fuseBlow_apc (s : State) (i : Nat) (w : Word) : (fuseBlow s i w).apc = s.apc := rfl
@[simp] theorem fuseBlow_cuts (s : State) (i : Nat) (w : Word) : (fuseBlow s i w).cuts = s.cuts := rfl
@[simp] theorem fuseBlow_clu (s : State) (i : Nat) (w : Word) : (fuseBlow s i w).clu = s.clu := rfl
@[simp] theorem fuseBlow_tap (s : State) (i : Nat) (w : Word) : (fuseBlow s i w).tap = s.tap := rfl

/-! ## modClu -/

@[simp] theorem modClu_pending (s : State) (f : CluSt → CluSt) : (modClu s f).pending = s.pending := rfl
@[simp] theorem modClu_out (s : State) (f : CluSt → CluSt) : (modClu s f).out = s.out := rfl
@[simp] theorem modClu_free (s : State) (f : CluSt → CluSt) : (modClu s f).free = s.free := rfl
@[simp] theorem modClu_regs (s : State) (f : CluSt → CluSt) : (modClu s f).regs = s.regs := rfl
@[simp] theorem modClu_blk (s : State) (f : CluSt → CluSt) : (modClu s f).blk = s.blk := rfl
@[simp] theorem modClu_hiLatch (s : State) (f : CluSt → CluSt) : (modClu s f).hiLatch = s.hiLatch := rfl
@[simp] theorem modClu_decisions (s : State) (f : CluSt → CluSt) : (modClu s f).decisions = s.decisions := rfl
@[simp] theorem modClu_looms (s : State) (f : CluSt → CluSt) : (modClu s f).looms = s.looms := rfl
@[simp] theorem modClu_hubs (s : State) (f : CluSt → CluSt) : (modClu s f).hubs = s.hubs := rfl
@[simp] theorem modClu_cuts (s : State) (f : CluSt → CluSt) : (modClu s f).cuts = s.cuts := rfl
@[simp] theorem modClu_beat (s : State) (f : CluSt → CluSt) : (modClu s f).beat = s.beat := rfl
@[simp] theorem modClu_ltime (s : State) (f : CluSt → CluSt) : (modClu s f).ltime = s.ltime := rfl
@[simp] theorem modClu_ll (s : State) (f : CluSt → CluSt) : (modClu s f).ll = s.ll := rfl
@[simp] theorem modClu_mem (s : State) (f : CluSt → CluSt) : (modClu s f).mem = s.mem := rfl
@[simp] theorem modClu_shs (s : State) (f : CluSt → CluSt) : (modClu s f).shs = s.shs := rfl
@[simp] theorem modClu_sess (s : State) (f : CluSt → CluSt) : (modClu s f).sess = s.sess := rfl
@[simp] theorem modClu_glims (s : State) (f : CluSt → CluSt) : (modClu s f).glims = s.glims := rfl
@[simp] theorem modClu_gpkg (s : State) (f : CluSt → CluSt) : (modClu s f).gpkg = s.gpkg := rfl
@[simp] theorem modClu_lasers (s : State) (f : CluSt → CluSt) : (modClu s f).lasers = s.lasers := rfl
@[simp] theorem modClu_reeds (s : State) (f : CluSt → CluSt) : (modClu s f).reeds = s.reeds := rfl
@[simp] theorem modClu_pw (s : State) (f : CluSt → CluSt) : (modClu s f).pw = s.pw := rfl
@[simp] theorem modClu_nv (s : State) (f : CluSt → CluSt) : (modClu s f).nv = s.nv := rfl
@[simp] theorem modClu_tim (s : State) (f : CluSt → CluSt) : (modClu s f).tim = s.tim := rfl
@[simp] theorem modClu_cust (s : State) (f : CluSt → CluSt) : (modClu s f).cust = s.cust := rfl
@[simp] theorem modClu_boot (s : State) (f : CluSt → CluSt) : (modClu s f).boot = s.boot := rfl
@[simp] theorem modClu_host (s : State) (f : CluSt → CluSt) : (modClu s f).host = s.host := rfl
@[simp] theorem modClu_apc (s : State) (f : CluSt → CluSt) : (modClu s f).apc = s.apc := rfl
@[simp] theorem modClu_tap (s : State) (f : CluSt → CluSt) : (modClu s f).tap = s.tap := rfl
@[simp] theorem modClu_clu (s : State) (f : CluSt → CluSt) : (modClu s f).clu = f s.clu := rfl

end Sys2Proof.Machine
end

