-- ==== Sys2Proof/Laws/Tab.lean ====
section
/-!
SUPPORT. Laws of sparse tables: reads after writes, and that every operation keeps the canonical form.
-/

namespace Sys2Proof.Machine

variable {α : Type}

theorem tabGet_cons (d : α) (p : Nat × α) (t : Tab α) (k : Nat) :
    tabGet d (p :: t) k = if p.1 = k then p.2 else tabGet d t k := rfl

@[simp] theorem tabGet_nil (d : α) (k : Nat) : tabGet d [] k = d := rfl

/-- A key that passes the filter reads as before. -/
theorem tabGet_filter_pos (d : α) (q : Nat → Bool) (t : Tab α) (k : Nat) (h : q k = true) :
    tabGet d (t.filter (fun p => q p.1)) k = tabGet d t k := by
  induction t with
  | nil => rfl
  | cons p t ih =>
    by_cases hp : q p.1 = true
    · simp only [List.filter_cons, hp, if_true, tabGet_cons, ih]
    · have hk : p.1 ≠ k := fun e => hp (e ▸ h)
      simpa [List.filter_cons, hp, tabGet_cons, hk] using ih

/-- A key that the filter drops reads the default. -/
theorem tabGet_filter_neg (d : α) (q : Nat → Bool) (t : Tab α) (k : Nat) (h : q k = false) :
    tabGet d (t.filter (fun p => q p.1)) k = d := by
  induction t with
  | nil => rfl
  | cons p t ih =>
    by_cases hp : q p.1 = true
    · have hk : p.1 ≠ k := fun e => by rw [e, h] at hp; cases hp
      simp only [List.filter_cons, hp, if_true, tabGet_cons, hk, if_false, ih]
    · simpa [List.filter_cons, hp] using ih

theorem tabGet_tabErase_self (d : α) (t : Tab α) (k : Nat) : tabGet d (tabErase t k) k = d :=
  tabGet_filter_neg d (fun x => x != k) t k (by simp)

theorem tabGet_tabErase_ne (d : α) (t : Tab α) {j k : Nat} (h : j ≠ k) : tabGet d (tabErase t k) j = tabGet d t j :=
  tabGet_filter_pos d (fun x => x != k) t j (by simp [h])

theorem tabGet_tabInsert_ne (d v : α) (t : Tab α) {j k : Nat} (h : j ≠ k) : tabGet d (tabInsert k v t) j = tabGet d t j := by
  induction t with
  | nil => simp [tabInsert, tabGet, Ne.symm h]
  | cons p t ih =>
    unfold tabInsert
    split
    · simp [tabGet_cons, Ne.symm h]
    · simp [tabGet_cons, ih]

theorem tabGet_tabInsert_self (d v : α) (t : Tab α) (k : Nat) (h : ∀ p ∈ t, p.1 ≠ k) : tabGet d (tabInsert k v t) k = v := by
  induction t with
  | nil => simp [tabInsert, tabGet]
  | cons p t ih =>
    have hp : p.1 ≠ k := h p (by simp)
    unfold tabInsert
    split
    · simp [tabGet_cons]
    · simp [tabGet_cons, hp, ih (fun q hq => h q (by simp [hq]))]

theorem mem_tabErase {t : Tab α} {k : Nat} {p : Nat × α} : p ∈ tabErase t k ↔ p ∈ t ∧ p.1 ≠ k := by
  simp [tabErase]

/-- What is written is read. -/
@[simp] theorem tabGet_tabSet_self [DecidableEq α] (d v : α) (t : Tab α) (k : Nat) : tabGet d (tabSet d t k v) k = v := by
  unfold tabSet
  split
  · rename_i h; rw [tabGet_tabErase_self, h]
  · exact tabGet_tabInsert_self d v _ k (fun p hp => (mem_tabErase.1 hp).2)

/-- A write leaves every other key. -/
theorem tabGet_tabSet_ne [DecidableEq α] (d e v : α) (t : Tab α) {j k : Nat} (h : j ≠ k) :
    tabGet e (tabSet d t k v) j = tabGet e t j := by
  unfold tabSet
  split
  · exact tabGet_tabErase_ne e t h
  · rw [tabGet_tabInsert_ne e v _ h, tabGet_tabErase_ne e t h]

/-! ## The canonical form -/

theorem tabSorted_iff (t : Tab α) : tabSorted t = true ↔ t.Pairwise (fun p q => p.1 < q.1) := by
  induction t with
  | nil => simp [tabSorted]
  | cons p t ih =>
    cases t with
    | nil => simp [tabSorted]
    | cons q t =>
      rw [List.pairwise_cons, ← ih]
      simp only [tabSorted, Bool.and_eq_true, decide_eq_true_eq]
      constructor
      · rintro ⟨h1, h2⟩
        refine ⟨fun a ha => ?_, h2⟩
        rcases List.mem_cons.1 ha with rfl | ha
        · exact h1
        · exact lt_trans h1 (List.rel_of_pairwise_cons (ih.1 h2) ha)
      · rintro ⟨h1, h2⟩
        exact ⟨h1 q (by simp), h2⟩

theorem tabSorted_filter (q : Nat × α → Bool) (t : Tab α) (h : tabSorted t = true) : tabSorted (t.filter q) = true :=
  (tabSorted_iff _).2 (((tabSorted_iff t).1 h).filter _)

theorem mem_tabInsert {k : Nat} {v : α} {t : Tab α} {p : Nat × α} : p ∈ tabInsert k v t ↔ p = (k, v) ∨ p ∈ t := by
  induction t with
  | nil => simp [tabInsert]
  | cons q t ih =>
    unfold tabInsert
    split
    · simp
    · simp only [List.mem_cons, ih]; tauto

theorem tabSorted_tabInsert (k : Nat) (v : α) (t : Tab α) (h : tabSorted t = true) (hk : ∀ p ∈ t, p.1 ≠ k) :
    tabSorted (tabInsert k v t) = true := by
  rw [tabSorted_iff] at h ⊢
  induction t with
  | nil => simp [tabInsert]
  | cons q t ih =>
    rw [List.pairwise_cons] at h
    unfold tabInsert
    split
    · rename_i hlt
      refine List.pairwise_cons.2 ⟨fun a ha => ?_, List.pairwise_cons.2 h⟩
      rcases List.mem_cons.1 ha with rfl | ha
      · exact hlt
      · exact lt_trans hlt (h.1 a ha)
    · rename_i hlt
      refine List.pairwise_cons.2 ⟨fun a ha => ?_, ih h.2 (fun p hp => hk p (by simp [hp]))⟩
      rcases mem_tabInsert.1 ha with rfl | ha
      · have := hk q (by simp); simp only; omega
      · exact h.1 a ha

theorem tabSorted_tabSet [DecidableEq α] (d v : α) (t : Tab α) (k : Nat) (h : tabSorted t = true) :
    tabSorted (tabSet d t k v) = true := by
  have he : tabSorted (tabErase t k) = true := tabSorted_filter _ t h
  unfold tabSet
  split
  · exact he
  · exact tabSorted_tabInsert k v _ he (fun p hp => (mem_tabErase.1 hp).2)

theorem tabWf_iff [DecidableEq α] (d : Nat → α) (t : Tab α) :
    tabWf d t = true ↔ tabSorted t = true ∧ ∀ p ∈ t, p.2 ≠ d p.1 := by
  simp [tabWf]

theorem tabWf_filter [DecidableEq α] (d : Nat → α) (q : Nat × α → Bool) (t : Tab α) (h : tabWf d t = true) :
    tabWf d (t.filter q) = true := by
  rw [tabWf_iff] at h ⊢
  exact ⟨tabSorted_filter q t h.1, fun p hp => h.2 p (List.mem_of_mem_filter hp)⟩

/-- A write keeps the canonical form. -/
theorem tabWf_tabSet [DecidableEq α] (d : Nat → α) (v : α) (t : Tab α) (k : Nat) (h : tabWf d t = true) :
    tabWf d (tabSet (d k) t k v) = true := by
  rw [tabWf_iff] at h ⊢
  refine ⟨tabSorted_tabSet (d k) v t k h.1, fun p hp => ?_⟩
  unfold tabSet at hp
  split at hp
  · exact h.2 p (mem_tabErase.1 hp).1
  · rename_i hv
    rcases mem_tabInsert.1 hp with rfl | hp
    · exact hv
    · exact h.2 p (mem_tabErase.1 hp).1

/-- A run of writes keeps the canonical form. -/
theorem tabWf_tabSetRun [DecidableEq α] (d : α) (vs : List α) (t : Tab α) (k : Nat) (h : tabWf (fun _ => d) t = true) :
    tabWf (fun _ => d) (tabSetRun d t k vs) = true := by
  induction vs generalizing t k with
  | nil => exact h
  | cons v vs ih => exact ih _ _ (tabWf_tabSet (fun _ => d) v t k h)

/-- Removing a range keeps the canonical form. -/
theorem tabWf_tabClear [DecidableEq α] (d : Nat → α) (t : Tab α) (lo hi : Nat) (h : tabWf d t = true) :
    tabWf d (tabClear t lo hi) = true := tabWf_filter d _ t h

/-- A run of writes leaves what lies outside it. -/
theorem tabGet_tabSetRun_out [DecidableEq α] (d : α) (vs : List α) (t : Tab α) (k j : Nat) (h : j < k ∨ k + vs.length ≤ j) :
    tabGet d (tabSetRun d t k vs) j = tabGet d t j := by
  induction vs generalizing t k with
  | nil => rfl
  | cons v vs ih =>
    have hl : (v :: vs).length = vs.length + 1 := rfl
    rw [tabSetRun, ih _ _ (by omega), tabGet_tabSet_ne d d v t (by omega)]

/-- A run of writes writes what it says. -/
theorem tabGet_tabSetRun_in [DecidableEq α] (d : α) (vs : List α) (t : Tab α) (k i : Nat) (h : i < vs.length) :
    tabGet d (tabSetRun d t k vs) (k + i) = vs[i] := by
  induction vs generalizing t k i with
  | nil => simp at h
  | cons v vs ih =>
    rw [tabSetRun]
    cases i with
    | zero => rw [tabGet_tabSetRun_out d vs _ (k + 1) (k + 0) (by omega)]; simp
    | succ i =>
      have := ih (tabSet d t k v) (k + 1) i (by simpa using h)
      rw [show k + (i + 1) = k + 1 + i by omega, this]; simp

/-! ## Writes at one key -/

theorem tabErase_tabInsert (k : Nat) (v : α) (t : Tab α) : tabErase (tabInsert k v t) k = tabErase t k := by
  induction t with
  | nil => simp [tabInsert, tabErase]
  | cons p t ih =>
    unfold tabInsert
    split
    · simp [tabErase]
    · simp only [tabErase, List.filter_cons] at *; rw [ih]

theorem tabErase_tabErase (k : Nat) (t : Tab α) : tabErase (tabErase t k) k = tabErase t k := by
  simp [tabErase, List.filter_filter]

/-- Only the last of two writes at one key shows. -/
@[simp] theorem tabSet_tabSet [DecidableEq α] (d : α) (t : Tab α) (k : Nat) (v w : α) :
    tabSet d (tabSet d t k v) k w = tabSet d t k w := by
  have : tabErase (tabSet d t k v) k = tabErase t k := by
    unfold tabSet; split
    · exact tabErase_tabErase k t
    · rw [tabErase_tabInsert, tabErase_tabErase]
  rw [tabSet, this]; rfl

end Sys2Proof.Machine
end

