-- ==== Sys2Proof/Laws/Regs.lean ====
section
/-!
SUPPORT. Laws of registers: a field reads what was written to it, and every other field as before.
-/

namespace Sys2Proof.Machine

/-! ## Fields of a word -/

theorem fldGet_lt (f : Fld) (w : Word) : fldGet f w < 2 ^ fldWidth f := Nat.mod_lt _ (by positivity)

theorem fldGet_eq_extract (f : Fld) (w : Word) : fldGet f w = (w >>> f.lo).toNat % 2 ^ fldWidth f := by
  simp [fldGet, Nat.shiftRight_eq_div_pow]

/-- Bit `i` of a field's mask. -/
theorem fldMask_bit (f : Fld) (i : Nat) : (fldMask f).getLsbD i = (decide (i < 32) && decide (f.lo ≤ i ∧ i < f.lo + fldWidth f)) := by
  unfold fldMask
  rw [BitVec.getLsbD_ofNat, Nat.testBit_mul_two_pow]
  by_cases h : i < 32 <;> by_cases hl : f.lo ≤ i <;> simp [h, hl, Nat.testBit_two_pow_sub_one]
  omega

theorem fldGet_testBit (f : Fld) (w : Word) (i : Nat) :
    (fldGet f w).testBit i = (decide (i < fldWidth f) && w.getLsbD (f.lo + i)) := by
  rw [fldGet, Nat.testBit_mod_two_pow, Nat.testBit_div_two_pow, BitVec.getLsbD, Nat.add_comm]

theorem fldSet_bit (f : Fld) (w : Word) (v i : Nat) (hi : i < 32) :
    (fldSet f w v).getLsbD i =
      if f.lo ≤ i ∧ i < f.lo + fldWidth f then v.testBit (i - f.lo) else w.getLsbD i := by
  unfold fldSet
  simp only [BitVec.getLsbD_or, BitVec.getLsbD_and, BitVec.getLsbD_not, fldMask_bit, hi, decide_true, Bool.true_and,
    BitVec.getLsbD_ofNat, Nat.testBit_mul_two_pow, Nat.testBit_mod_two_pow]
  by_cases h : f.lo ≤ i ∧ i < f.lo + fldWidth f
  · have h2 : i - f.lo < fldWidth f := by omega
    simp [h, h2]
  · simp [h]

/-- A field reads what was written to it, modulo its width. -/
theorem fldGet_fldSet_self (f : Fld) (w : Word) (v : Nat) (h : f.lo + fldWidth f ≤ 32) :
    fldGet f (fldSet f w v) = v % 2 ^ fldWidth f := by
  apply Nat.eq_of_testBit_eq
  intro i
  rw [fldGet_testBit, Nat.testBit_mod_two_pow]
  by_cases hi : i < fldWidth f
  · rw [fldSet_bit f w v (f.lo + i) (by omega)]
    have : f.lo ≤ f.lo + i ∧ f.lo + i < f.lo + fldWidth f := by omega
    simp [hi, this]
  · simp [hi]

/-- Fields that share no bit are independent. -/
theorem fldGet_fldSet_disjoint (f g : Fld) (w : Word) (v : Nat)
    (h : g.lo + fldWidth g ≤ f.lo ∨ f.lo + fldWidth f ≤ g.lo) (hg : g.lo + fldWidth g ≤ 32) :
    fldGet g (fldSet f w v) = fldGet g w := by
  apply Nat.eq_of_testBit_eq
  intro i
  rw [fldGet_testBit, fldGet_testBit]
  by_cases hi : i < fldWidth g
  · rw [fldSet_bit f w v (g.lo + i) (by omega)]
    have : ¬ (f.lo ≤ g.lo + i ∧ g.lo + i < f.lo + fldWidth f) := by omega
    simp [this]
  · simp [hi]

/-! ## The register table -/

theorem regKey_ne {b b' off off' i i' : Nat} (ho : off < 4096) (ho' : off' < 4096) (hi : i < 65536) (hi' : i' < 65536)
    (h : b ≠ b' ∨ off ≠ off' ∨ i ≠ i') : regKey b off i ≠ regKey b' off' i' := by
  unfold regKey; omega

@[simp] theorem regGet_regSet_self (s : State) (b off i : Nat) (w : Word) : regGet (regSet s b off i w) b off i = w := by
  simp [regGet, regSet]

theorem regGet_regSet_ne (s : State) (b off i : Nat) (w : Word) {b' off' i' : Nat} (h : regKey b' off' i' ≠ regKey b off i) :
    regGet (regSet s b off i w) b' off' i' = regGet s b' off' i' := by
  simp only [regGet, regSet]; exact tabGet_tabSet_ne _ _ _ _ h

/-- A register reads the table only. -/
theorem regGet_congr {s t : State} (h : t.regs = s.regs) (b off i : Nat) : regGet t b off i = regGet s b off i := by
  simp [regGet, h]

theorem rdI_congr {s t : State} (h : t.regs = s.regs) (b : Nat) (f : Fld) (i : Nat) : rdI t b f i = rdI s b f i := by
  simp [rdI, regGet_congr h]

theorem rd_congr {s t : State} (h : t.regs = s.regs) (b : Nat) (f : Fld) : rd t b f = rd s b f := rdI_congr h b f 0

/-- A field reads what was written to it. -/
theorem rdI_wrI_self (s : State) (b : Nat) (f : Fld) (i v : Nat) (h : f.lo + fldWidth f ≤ 32) :
    rdI (wrI s b f i v) b f i = v % 2 ^ fldWidth f := by
  simp [rdI, wrI, fldGet_fldSet_self f _ v h]

theorem rd_wr_self (s : State) (b : Nat) (f : Fld) (v : Nat) (h : f.lo + fldWidth f ≤ 32) :
    rd (wr s b f v) b f = v % 2 ^ fldWidth f := rdI_wrI_self s b f 0 v h

/-- Another field of the same register is kept. -/
theorem rdI_wrI_same (s : State) (b : Nat) (f g : Fld) (i v : Nat) (ho : g.off = f.off)
    (h : g.lo + fldWidth g ≤ f.lo ∨ f.lo + fldWidth f ≤ g.lo) (hg : g.lo + fldWidth g ≤ 32) :
    rdI (wrI s b f i v) b g i = rdI s b g i := by
  simp only [rdI, wrI, ho, regGet_regSet_self]
  exact fldGet_fldSet_disjoint f g _ v h hg

theorem rd_wr_same (s : State) (b : Nat) (f g : Fld) (v : Nat) (ho : g.off = f.off)
    (h : g.lo + fldWidth g ≤ f.lo ∨ f.lo + fldWidth f ≤ g.lo) (hg : g.lo + fldWidth g ≤ 32) :
    rd (wr s b f v) b g = rd s b g := rdI_wrI_same s b f g 0 v ho h hg

/-- Another register is kept. -/
theorem rdI_wrI_ne (s : State) (b b' : Nat) (f g : Fld) (i j v : Nat) (h : regKey b' g.off j ≠ regKey b f.off i) :
    rdI (wrI s b f i v) b' g j = rdI s b' g j := by
  simp only [rdI, wrI]; rw [regGet_regSet_ne _ _ _ _ _ h]

theorem rd_wr_ne (s : State) (b b' : Nat) (f g : Fld) (v : Nat) (h : regKey b' g.off 0 ≠ regKey b f.off 0) :
    rd (wr s b f v) b' g = rd s b' g := rdI_wrI_ne s b b' f g 0 0 v h

theorem rd_inc_self (s : State) (b : Nat) (f : Fld) (h : f.lo + fldWidth f ≤ 32) :
    rd (inc s b f) b f = (rd s b f + 1) % 2 ^ fldWidth f := rd_wr_self s b f _ h

theorem rd_inc_ne (s : State) (b b' : Nat) (f g : Fld) (h : regKey b' g.off 0 ≠ regKey b f.off 0) :
    rd (inc s b f) b' g = rd s b' g := rd_wr_ne s b b' f g _ h

/-! ## Reads after writes, decided by the offsets -/

/-- A register after a field of table entry `i` is written. -/
theorem regGet_wrI (s : State) (b b' : Nat) (f : Fld) (i v off j : Nat) (hf : f.off < 4096) (hg : off < 4096) (hi : i < 65536)
    (hj : j < 65536) : regGet (wrI s b f i v) b' off j =
      if b' = b ∧ off = f.off ∧ j = i then fldSet f (regGet s b f.off i) v else regGet s b' off j := by
  split
  · rename_i h; obtain ⟨rfl, rfl, rfl⟩ := h; simp [wrI]
  · rename_i h
    exact regGet_regSet_ne _ _ _ _ _ (regKey_ne hg hf hj hi (by tauto))

theorem rdI_wrI (s : State) (b b' : Nat) (f g : Fld) (i j v : Nat) (hf : f.off < 4096) (hg : g.off < 4096) (hi : i < 65536)
    (hj : j < 65536) : rdI (wrI s b f i v) b' g j =
      if b' = b ∧ g.off = f.off ∧ j = i then fldGet g (fldSet f (regGet s b f.off i) v) else rdI s b' g j := by
  unfold rdI
  rw [regGet_wrI s b b' f i v g.off j hf hg hi hj]
  split <;> rfl

theorem rd_wr (s : State) (b b' : Nat) (f g : Fld) (v : Nat) (hf : f.off < 4096) (hg : g.off < 4096) :
    rd (wr s b f v) b' g = if b' = b ∧ g.off = f.off then fldGet g (fldSet f (regGet s b f.off 0) v) else rd s b' g := by
  have := rdI_wrI s b b' f g 0 0 v hf hg (by decide) (by decide)
  simpa [rd, wr] using this

theorem rd_inc (s : State) (b b' : Nat) (f g : Fld) (hf : f.off < 4096) (hg : g.off < 4096) :
    rd (inc s b f) b' g = if b' = b ∧ g.off = f.off then fldGet g (fldSet f (regGet s b f.off 0) (rd s b f + 1)) else rd s b' g :=
  rd_wr s b b' f g _ hf hg

/-- A field of a word as a read of the register. -/
theorem fldGet_regGet (s : State) (b : Nat) (f : Fld) : fldGet f (regGet s b f.off 0) = rd s b f := rfl

/-! ## Sub-states -/

@[simp] theorem loom_setLoom_self (s : State) (l : Nat) (x : Loom) : loom (setLoom s l x) l = x := by simp [loom, setLoom]

theorem loom_setLoom_ne (s : State) (l : Nat) (x : Loom) {j : Nat} (h : j ≠ l) : loom (setLoom s l x) j = loom s j := by
  simp only [loom, setLoom]; exact tabGet_tabSet_ne _ _ _ _ h

@[simp] theorem loom_modLoom_self (s : State) (l : Nat) (f : Loom → Loom) : loom (modLoom s l f) l = f (loom s l) := by
  simp [modLoom]

theorem loom_modLoom_ne (s : State) (l : Nat) (f : Loom → Loom) {j : Nat} (h : j ≠ l) : loom (modLoom s l f) j = loom s j :=
  loom_setLoom_ne s l _ h

theorem loom_congr {s t : State} (h : t.looms = s.looms) (l : Nat) : loom t l = loom s l := by simp [loom, h]

@[simp] theorem hub_modHub_self (s : State) (h : Nat) (f : Hub → Hub) : hub (modHub s h f) h = f (hub s h) := by
  simp [hub, modHub]

theorem hub_modHub_ne (s : State) (h : Nat) (f : Hub → Hub) {j : Nat} (e : j ≠ h) : hub (modHub s h f) j = hub s j := by
  simp only [hub, modHub]; exact tabGet_tabSet_ne _ _ _ _ e

@[simp] theorem ctl_setCtl_self (s : State) (b : Nat) (c : BlockCtl) : ctl (setCtl s b c) b = c := by simp [ctl, setCtl]

theorem ctl_setCtl_ne (s : State) (b : Nat) (c : BlockCtl) {j : Nat} (h : j ≠ b) : ctl (setCtl s b c) j = ctl s j := by
  simp only [ctl, setCtl]; exact tabGet_tabSet_ne _ _ _ _ h

end Sys2Proof.Machine
end

