-- ==== Sys2Proof/Laws/Access.lean ====
section
/-!
SUPPORT. Laws of accesses: what a performed access does, and what the last step of a write leaves.
-/

namespace Sys2Proof.Machine

/-- A block's copy of LT is never ahead (R24). -/
theorem ltAt_le (s : State) (b : Nat) : ltAt s b ≤ ltNow s := Nat.sub_le _ _

/-- A block's copy of LT is at most 6 ns behind (R24). -/
theorem ltNow_le_ltAt (s : State) (b : Nat) : ltNow s ≤ ltAt s b + 6 := by
  unfold ltAt
  have : Config.ltLag b (ltNow s) % 7 < 7 := Nat.mod_lt _ (by decide)
  omega

/-- A performed access through the gate. -/
theorem blockAccess_performed {s : State} {r : Requester} {b off : Nat} {w : Bool} {v : Word} (f : State → Word × State)
    (h : performed s r b off w v = true) :
    blockAccess s r b off w v f = (true, (f (windowClose s)).1, (f (windowClose s)).2) := by
  simp only [performed, Bool.and_eq_true, Bool.not_eq_true', Bool.and_eq_false_imp] at h
  obtain ⟨⟨⟨⟨⟨⟨_, _⟩, h1⟩, h2⟩, h3⟩, h4⟩, h5⟩ := h
  have e1 : (w && slotRefuses s r b off) = false := by cases w <;> simp_all
  unfold blockAccess
  rw [if_neg (by simp [e1]), if_neg (by simp [h2])]
  have e4 : (w && decide (r = .custody .warden) && !wardenMay (windowClose s) b off) = false := by
    cases w <;> by_cases hr : r = .custody .warden <;> simp_all
  simp only [access, h3, h5]
  simp only [Bool.false_eq_true, if_false]
  rw [if_neg (by simpa using e4)]

/-- A requester named by its tag is itself at every block. -/
theorem who_tagged {r : Requester} (h : tagged r = true) (s : State) : who s r = some r := by
  cases r <;> simp_all [tagged, who]

theorem asReq_tagged {r : Requester} (h : tagged r = true) (s : State) : asReq s r = r := by simp [asReq, who_tagged h]

theorem hartSees_tagged {r : Requester} (h : tagged r = true) (w ok : Bool) (s : State) : hartSees r w ok s = s := by
  cases r <;> simp_all [tagged, hartSees]

theorem performed_tagged {s : State} {r : Requester} {b off : Nat} {w : Bool} {v : Word} (h : performed s r b off w v = true) :
    tagged r = true := by
  simp only [performed, Bool.and_eq_true] at h
  exact h.1.1.1.1.1.1

theorem busAnswer_performed {s : State} {r : Requester} {b off : Nat} {w : Bool} {v : Word} (h : performed s r b off w v = true)
    (isWrite : Bool) (p : Bool × Word × State) : busAnswer s r b isWrite p = accessSend r p := by
  have ht := performed_tagged h
  simp only [performed, Bool.and_eq_true, Bool.not_eq_true'] at h
  simp [busAnswer, h.1.1.1.1.1.2, asReq_tagged ht, hartSees_tagged ht]

/-- A performed access by any requester. -/
theorem anyAccess_performed {s : State} {r : Requester} {b off : Nat} {w : Bool} {v : Word} (f : Requester → State → Word × State)
    (h : performed s r b off w v = true) :
    anyAccess s r b off w v f = (true, (f r (windowClose s)).1, (f r (windowClose s)).2) := by
  simp only [anyAccess, who_tagged (performed_tagged h), blockAccess_performed _ h]

/-- A performed write. -/
theorem busWrite_performed {s : State} {r : Requester} {b off : Nat} {v : Word} (w : View) (h : performed s r b off true v = true) :
    busWrite s r w b off v = send (put (windowClose s) r w b off v) .resp (tagOf r) [1, 0] := by
  simp [busWrite, regWrite, anyAccess_performed _ h, busAnswer_performed h, accessSend]

/-- A performed write with an effect of its own row. -/
theorem regDo_performed {s : State} {r : Requester} {b off : Nat} {v : Word} (f : State → State) (h : performed s r b off true v = true) :
    regDo s r b off v f = send (f (windowClose s)) .resp (tagOf r) [1, 0] := by
  simp [regDo, anyAccess_performed _ h, busAnswer_performed h, accessSend]

/-- A performed read. -/
theorem busRead_performed {s : State} {r : Requester} {b off : Nat} (w : View) (h : performed s r b off false 0 = true) :
    busRead s r w b off = send (get (windowClose s) r w b off).2 .resp (tagOf r) [1, (get (windowClose s) r w b off).1.toNat] := by
  unfold busRead regRead
  rw [anyAccess_performed _ h, busAnswer_performed h]
  rfl

/-! ## The line that follows a write -/

theorem faultLine_frame (s : State) (b m code : Nat) : ∃ o, faultLine s b m code = { s with out := o } := ⟨_, rfl⟩

theorem lineFollow_frame (o s : State) (b : Nat) : ∃ u, lineFollow o s b = { s with out := u } := by
  unfold lineFollow
  dsimp only
  split <;> split
  · obtain ⟨u, h⟩ := faultLine_frame (send s .apc b [1]) b (rd (send s .apc b [1]) b F.FAULTMASK_MASK)
      (rd (send s .apc b [1]) b F.FAULTCAUSE_CAUSE)
    exact ⟨u, h.trans rfl⟩
  · exact ⟨_, rfl⟩
  · exact faultLine_frame s b _ _
  · exact ⟨s.out, rfl⟩

/-! ## Windows -/

/-- Closing the apply windows touches the group slots only. -/
theorem windowClose_frame (s : State) : ∃ x, windowClose s = { s with beat := { s.beat with slots := x } } := by
  unfold windowClose forEach
  generalize (s.beat.slots.filter (fun e => e.2.window)).map (·.1) = xs
  induction xs generalizing s with
  | nil => exact ⟨s.beat.slots, rfl⟩
  | cons i xs ih =>
    obtain ⟨x, h⟩ := ih (modSlot s i (fun g => { g with state := .committed, window := false }))
    exact ⟨x, h.trans rfl⟩

@[simp] theorem windowClose_regs (s : State) : (windowClose s).regs = s.regs := by
  obtain ⟨x, h⟩ := windowClose_frame s; rw [h]
@[simp] theorem windowClose_looms (s : State) : (windowClose s).looms = s.looms := by
  obtain ⟨x, h⟩ := windowClose_frame s; rw [h]
@[simp] theorem windowClose_blk (s : State) : (windowClose s).blk = s.blk := by
  obtain ⟨x, h⟩ := windowClose_frame s; rw [h]
@[simp] theorem windowClose_pending (s : State) : (windowClose s).pending = s.pending := by
  obtain ⟨x, h⟩ := windowClose_frame s; rw [h]
@[simp] theorem windowClose_out (s : State) : (windowClose s).out = s.out := by
  obtain ⟨x, h⟩ := windowClose_frame s; rw [h]
@[simp] theorem windowClose_mem (s : State) : (windowClose s).mem = s.mem := by
  obtain ⟨x, h⟩ := windowClose_frame s; rw [h]
@[simp] theorem windowClose_hubs (s : State) : (windowClose s).hubs = s.hubs := by
  obtain ⟨x, h⟩ := windowClose_frame s; rw [h]
@[simp] theorem windowClose_boot (s : State) : (windowClose s).boot = s.boot := by
  obtain ⟨x, h⟩ := windowClose_frame s; rw [h]
@[simp] theorem windowClose_nv (s : State) : (windowClose s).nv = s.nv := by
  obtain ⟨x, h⟩ := windowClose_frame s; rw [h]

end Sys2Proof.Machine
end

