-- ==== Sys2Proof/Laws/Header.lean ====
section
/-!
SUPPORT. Laws of the common page header (R45 to R54): the rows that stand at its offsets, and what writes of TXN, CONTROL and FAULTMASK do.
-/

namespace Sys2Proof.Machine

/-- The rows of the common header at an offset. -/
def hdr (off : Nat) : List FldRow := commonMap.filter (fun r =>
    r.fld.off ≤ off && (off - r.fld.off) % r.stride == 0 && (off - r.fld.off) / r.stride < r.n)

theorem rowsAt_hdr (k : Kind) (off : Nat) (h : off ∈ [0x00C, 0x010, 0x014, 0x018, 0x01C, 0x024, 0x800, 0x804,0x808]) : rowsAt k off = hdr off := by
  simp only [List.mem_cons, List.not_mem_nil, or_false] at h
  rcases h with rfl|rfl|rfl|rfl|rfl|rfl|rfl|rfl|rfl <;> cases k <;> decide +kernel

theorem accMask_txn (s : State) (k : Kind) (r : Requester) (e : Bool) (a : Acc) (h : a ≠ .wo) (h2 : a ≠ .ro) : accMask s k r e 0x018 a = 0 := by
  unfold accMask maskWhere
  rw [rowsAt_hdr k _ (by simp)]
  have : hdr 0x18 = [⟨F.TXN_OP, 1, 4, .wo, .any, 0⟩, ⟨F.TXN_TSTATE, 1, 4, .ro, .any, 0x0⟩,
  ⟨F.TXN_RESULT, 1, 4, .ro, .any, 0x0⟩,
  ⟨F.TXN_GROUP, 1, 4, .ro, .any, 0x0⟩,
  ⟨F.TXN_OPENER, 1, 4, .ro, .any, 0x0⟩] := by decide +kernel
  rw [this]
  cases a <;> simp at * 

/-- No bit of TXN is an expert register coded RW. -/
theorem expertRw_txn (s : State) (k : Kind) (r : Requester) (b : Nat) : expertRw s k r b 0x018 = 0 := by
  unfold expertRw
  rw [accMask_txn s k r true .rw (by decide) (by decide)]
  simp

theorem putMain_txn (s : State) (r : Requester) (b : Nat) (k : Kind) (v : Word) (hk : kindOf b = some k) :
    putMain s r b F.TXN_OP.off v = lineFollow s (txnOp s r b (v.toNat % 4)) b := by
  unfold putMain
  rw [hk]
  have hm : rwsMask s k r b 0x18 = 0 := accMask_txn _ _ _ _ _ (by decide) (by decide)
  have hx : expertRw s k r b 0x18 = 0 := expertRw_txn s k r b
  simp only [accMask_txn s k r (liveExpert s b) .rw (by decide) (by decide), hm, hx,
    accMask_txn s k r (liveExpert s b) .w1c (by decide) (by decide), accMask_txn s k r (liveExpert s b) .w1s (by decide) (by decide)]
  simp [reservedAt, rwsWrite, rwWrite, w1cWrite, w1sWrite, writeDo, bLaser]

end Sys2Proof.Machine
end

