-- ==== Sys2Proof/Laws/Seq.lean ====
section
/-!
SUPPORT. Laws of a loom's sequencer: what a fetch leaves, what reads a register, what an instruction that issues does.
-/

namespace Sys2Proof.Machine

@[simp] theorem seqOf_modSeq (s : State) (l : Nat) (f : Seq → Seq) : seqOf (modSeq s l f) l = f (seqOf s l) := by simp [seqOf, modSeq]

@[simp] theorem seqOf_inc (s : State) (l b : Nat) (f : Fld) : seqOf (inc s b f) l = seqOf s l := rfl

/-! ## What a fetch may touch -/

theorem regsBut_trans {s t u : State} {b : Nat} {o : List Nat} (h : regsBut s t b o) (k : regsBut t u b o) : regsBut s u b o :=
  fun b' off idx hn ho hi => (k b' off idx hn ho hi).trans (h b' off idx hn ho hi)

theorem regsBut_of_regs {s t : State} (b : Nat) (o : List Nat) (h : t.regs = s.regs) : regsBut s t b o :=
  fun _ _ _ _ _ _ => regGet_congr h _ _ _

theorem fetchOnly_refl (l : Nat) (s : State) : fetchOnly l s s :=
  ⟨rfl, fun _ _ => rfl, ⟨_, _, _, _, rfl⟩, fun _ _ _ _ _ _ => rfl⟩

theorem fetchOnly_trans {l : Nat} {s t u : State} (h : fetchOnly l s t) (k : fetchOnly l t u) : fetchOnly l s u := by
  obtain ⟨h1, h2, ⟨_, _, _, _, h3⟩, h4⟩ := h
  obtain ⟨k1, k2, ⟨_, _, _, _, k3⟩, k4⟩ := k
  exact ⟨by rw [k1, h1], fun j hj => (k2 j hj).trans (h2 j hj), ⟨_, _, _, _, by rw [k3, h3]⟩, regsBut_trans h4 k4⟩

/-- A change of the loom in what a fetch may touch of it. -/
theorem fetchOnly_modLoom (l : Nat) (s : State) (f : Loom → Loom)
    (h : ∃ b x y z, f (loom s l) = { loom s l with seq := { (loom s l).seq with ibuf := b }, xErr1 := x, bankCe := y, moving := z }) :
    fetchOnly l s (modLoom s l f) :=
  ⟨rfl, fun j hj => loom_modLoom_ne s l f hj, by rw [loom_modLoom_self]; exact h, regsBut_of_regs _ _ rfl⟩

/-- A change of a register that a fetch may touch. -/
theorem fetchOnly_wr (l : Nat) (s : State) (f : Fld) (v : Nat)
    (h : f.off ∈ [F.LOOM_SEQIMISS_COUNT.off, F.LOOM_BSCE_COUNT.off, F.FAULTCAUSE_VALID.off]) (hf : f.off < 4096) :
    fetchOnly l s (wr s (bLoom l) f v) := by
  refine ⟨rfl, fun _ _ => rfl, ⟨_, _, _, _, rfl⟩, fun b off idx hn ho hi => ?_⟩
  rw [wr, regGet_wrI _ _ _ _ _ _ _ _ hf ho (by decide) hi, if_neg]
  rintro ⟨rfl, rfl, -⟩
  exact hn ⟨rfl, h⟩

theorem fetchOnly_out (l : Nat) (s : State) (o : List Out) : fetchOnly l s { s with out := o } :=
  ⟨rfl, fun _ _ => rfl, ⟨_, _, _, _, rfl⟩, regsBut_of_regs _ _ rfl⟩

theorem fetchOnly_free (l : Nat) (s : State) (n : Nat) : fetchOnly l s { s with free := n } :=
  ⟨rfl, fun _ _ => rfl, ⟨_, _, _, _, rfl⟩, regsBut_of_regs _ _ rfl⟩

/-- A fault that the loom latches. -/
theorem fetchOnly_latchFault (l : Nat) (s : State) (code : Nat) : fetchOnly l s (latchFault s (bLoom l) code) := by
  have w := fun (s : State) (f : Fld) (v : Nat) (h : f.off = F.FAULTCAUSE_VALID.off) =>
    fetchOnly_wr l s f v (by rw [h]; decide) (by rw [h]; decide)
  refine fetchOnly_trans ?_ (fetchOnly_out l _ _)
  unfold latchCause
  split
  · have c := fetchOnly_trans (fetchOnly_trans (w s F.FAULTCAUSE_VALID 1 rfl) (w _ F.FAULTCAUSE_CAUSE code rfl))
      (w _ F.FAULTCAUSE_REPEAT 0 rfl)
    dsimp only
    generalize wr (wr (wr s (bLoom l) F.FAULTCAUSE_VALID 1) (bLoom l) F.FAULTCAUSE_CAUSE code) (bLoom l) F.FAULTCAUSE_REPEAT 0 = x
      at c ⊢
    obtain ⟨o, h⟩ := faultLine_frame x (bLoom l) (rd s (bLoom l) F.FAULTMASK_MASK) code
    rw [h]
    exact fetchOnly_trans c (fetchOnly_out l x o)
  · exact w _ _ _ rfl

theorem fetchOnly_moveStart (l : Nat) (s : State) (k : Nat) : fetchOnly l s (moveStart s l k) := by
  unfold moveStart
  dsimp only
  split_ifs
  · exact fetchOnly_refl l s
  · exact fetchOnly_latchFault l s _
  · exact fetchOnly_modLoom l s (fun m => { m with moving := [k] }) ⟨_, _, _, _, rfl⟩

theorem fetchOnly_bankCorrected (l : Nat) (s : State) (k n : Nat) : fetchOnly l s (bankCorrected s l k n) := by
  unfold bankCorrected
  have h : fetchOnly l s (incBy (modLoom s l (fun m => { m with bankCe := tabSet 0 m.bankCe k (tabGet 0 (loom s l).bankCe k + n) }))
      (bLoom l) F.LOOM_BSCE_COUNT n) :=
    fetchOnly_trans (fetchOnly_modLoom l s _ ⟨_, _, _, _, rfl⟩) (fetchOnly_wr l _ _ _ (by decide) (by decide))
  dsimp only
  split_ifs
  · exact fetchOnly_refl l s
  · exact fetchOnly_trans h (fetchOnly_moveStart l _ k)
  · exact h

theorem fetchOnly_forEach (l : Nat) (f : Nat → State → State) (h : ∀ k s, fetchOnly l s (f k s)) (xs : List Nat) (s : State) :
    fetchOnly l s (forEach xs f s) := by
  unfold forEach
  induction xs generalizing s with
  | nil => exact fetchOnly_refl l s
  | cons x xs ih => exact fetchOnly_trans (h x s) (ih _)

/-- A read of scratch that meets single-bit errors. -/
theorem fetchOnly_scratchMend (l : Nat) (s : State) (ps : List Nat) : fetchOnly l s (scratchMend s l ps) :=
  fetchOnly_trans (fetchOnly_modLoom l s _ ⟨_, _, _, _, rfl⟩) (fetchOnly_forEach l _ (fun k s => fetchOnly_bankCorrected l s k _) _ _)

theorem fetchOnly_fetchMend (l : Nat) (s : State) (line : Nat) : fetchOnly l s (fetchMend s l line) := by
  unfold fetchMend
  split
  · exact fetchOnly_refl l s
  · exact fetchOnly_scratchMend l s _

/-- What a fetch may touch. -/
theorem fetch_frame {s t : State} {l x : Nat} (h : fetch s l = .word x t) : fetchOnly l s t := by
  have m := fun k => fetchOnly_trans (fetchOnly_fetchMend l s k)
    (fetchOnly_wr l _ F.LOOM_SEQIMISS_COUNT (rd (fetchMend s l k) (bLoom l) F.LOOM_SEQIMISS_COUNT + 1) (by decide) (by decide))
  have b := fun s (i : List (Nat × Nat)) => fetchOnly_modLoom l s (fun m => { m with seq := { m.seq with ibuf := i } }) ⟨_, _, _, _, rfl⟩
  unfold fetch at h
  dsimp only at h
  split at h
  · cases h
  split at h
  · cases h
  split at h
  · cases h
  split at h
  · simp only [Fetch.word.injEq] at h; rw [← h.2]; exact fetchOnly_refl l s
  split at h
  · cases h
  split at h
  · cases h
  split at h <;> simp only [Fetch.word.injEq] at h <;> rw [← h.2]
  · exact fetchOnly_trans (m _) (b _ _)
  · exact fetchOnly_trans (m _) (fetchOnly_trans (fetchOnly_free l _ _) (b _ _))

/-- What the fetch of an instruction leaves. -/
theorem fetched_frame (s : State) (l : Nat) : fetchOnly l s (fetched s l) := by
  unfold fetched
  cases h : fetch s l with
  | word x t => exact fetch_frame h
  | _ => exact fetchOnly_refl l s

/-- A fetch changes nothing of the sequencer but its instruction buffer. -/
theorem seqOf_fetched (s : State) (l : Nat) : ∃ b, seqOf (fetched s l) l = { seqOf s l with ibuf := b } := by
  obtain ⟨-, -, ⟨b, _, _, _, h⟩, -⟩ := fetched_frame s l
  exact ⟨b, by rw [seqOf, h]; rfl⟩

@[simp] theorem gRead_ibuf (q : Seq) (b : List (Nat × Nat)) (r : Nat) : gRead { q with ibuf := b } r = gRead q r := rfl
@[simp] theorem seqPc_ibuf (q : Seq) (b : List (Nat × Nat)) : seqPc { q with ibuf := b } = seqPc q := rfl

@[simp] theorem g_fetched (s : State) (l r : Nat) : gRead (seqOf (fetched s l) l) r = g s l r := by
  obtain ⟨b, h⟩ := seqOf_fetched s l; rw [h]; rfl
@[simp] theorem pc_fetched (s : State) (l : Nat) : seqPc (seqOf (fetched s l) l) = pcOf s l := by
  obtain ⟨b, h⟩ := seqOf_fetched s l; rw [h]; rfl
theorem act_fetched (s : State) (l : Nat) : (seqOf (fetched s l) l).act = (seqOf s l).act := by
  obtain ⟨b, h⟩ := seqOf_fetched s l; rw [h]
theorem trap_fetched (s : State) (l : Nat) : (seqOf (fetched s l) l).trap = (seqOf s l).trap := by
  obtain ⟨b, h⟩ := seqOf_fetched s l; rw [h]

/-- An instruction that stands at the PC issues. -/
theorem seqIssue_at {s : State} {l w : Nat} (f : State → SeqEnd) (h : seqAt s l w = true) :
    seqIssue s l w f = seqEnd l (f (fetched s l)) := by
  simp only [seqAt, Bool.and_eq_true] at h
  obtain ⟨⟨h1, h2⟩, h3⟩ := h
  unfold seqIssue fetched
  rw [if_neg (by simp [Option.isNone_iff_eq_none] at *; exact ⟨Option.ne_none_iff_isSome.mpr h1, h2⟩)]
  cases hf : fetch s l <;> simp_all

/-- A result that is written and passed. -/
theorem seqEnd_dest (l d : Nat) (v : W64) (s : State) : seqEnd l (seqDest l d v s) = done s l d v := rfl
theorem seqEnd_next (l : Nat) (s : State) : seqEnd l (.next s) = goOn s l := rfl
theorem seqEnd_jump (l : Nat) (s : State) (pc : Nat) : seqEnd l (.jump s pc) = goTo s l pc := rfl

/-- A function of the registers. -/
theorem seqFn_at {s : State} {l w d : Nat} (f : Seq → W64) (h : seqAt s l w = true) :
    seqFn s l w d f = done (fetched s l) l d (f (seqOf (fetched s l) l)) := by
  rw [seqFn, seqIssue_at _ h]; rfl

theorem opr_at {s : State} {l d a b sel : Nat} (f : W64 → W64 → W64) (h : seqAt s l (tWord 0x01 d a b sel) = true) :
    opr s l d a b sel f = done (fetched s l) l d (f (g s l a) (g s l b)) := by
  rw [opr, seqFn_at _ h]; simp

theorem opk_at {s : State} {l fam d a : Nat} {k : BitVec 16} (f : W64 → W64) (h : seqAt s l (kWord fam d a k.toNat) = true) :
    opk s l fam d a k f = done (fetched s l) l d (f (g s l a)) := by
  rw [opk, seqFn_at _ h]; simp

/-! ## Register files -/

@[simp] theorem seqAct_setPc (q : Seq) (pc : Nat) : seqAct (seqSetPc q pc) = seqAct q := by
  unfold seqSetPc seqAct
  cases h : q.trap <;> cases h2 : q.act <;> simp_all

@[simp] theorem gRead_setPc (q : Seq) (pc r : Nat) : gRead (seqSetPc q pc) r = gRead q r := by
  unfold gRead usesMain
  rw [seqAct_setPc]
  unfold seqSetPc
  cases q.trap <;> cases q.act <;> rfl

@[simp] theorem seqPc_setPc (q : Seq) (pc : Nat) : seqPc (seqSetPc q pc) = pc := by
  unfold seqSetPc seqPc
  cases h : q.trap <;> cases h2 : q.act <;> simp_all

@[simp] theorem seqPc_gWrite (q : Seq) (d : Nat) (v : W64) : seqPc (gWrite q d v) = seqPc q := by
  unfold gWrite; split_ifs <;> rfl

@[simp] theorem gRead_zero (q : Seq) : gRead q 0 = 0 := rfl

theorem gRead_gWrite (q : Seq) (d r : Nat) (v : W64) : gRead (gWrite q d v) r = if r = d ∧ d ≠ 0 then v else gRead q r := by
  unfold gWrite
  by_cases hd : d = 0
  · simp [hd]
  by_cases hu : usesMain q
  · by_cases hr : r = 0
    · subst hr; simp [hd, gRead, Ne.symm hd]
    · simp only [hd, hu, if_true, if_false, gRead, hr]
      have : usesMain { q with mfile := tabSet 0 q.mfile d v } = true := hu
      by_cases he : r = d <;> simp_all [tabGet_tabSet_ne]
  · by_cases hr : r = 0
    · subst hr; simp [hd, gRead, Ne.symm hd]
    · simp only [hd, hu, if_false, gRead, hr]
      have : usesMain { q with efile := tabSet 0 q.efile d v } = false := Bool.eq_false_iff.mpr hu
      by_cases he : r = d <;> simp_all [tabGet_tabSet_ne]

/-! ## Memories -/

/-- A local address as a sum of integers. -/
theorem localAddr_eq (s : State) (l a : Nat) (k : BitVec 16) : localAddr (g s l a) k = (BitVec.ofInt 64 ((g s l a).toInt + k.toInt)).toNat % 2 ^ 24 := by
  unfold localAddr
  rw [BitVec.ofInt_add]; simp [sx16]; rfl
theorem loom_fetched (s : State) (l : Nat) : ∃ b x y z, loom (fetched s l) l =
    { loom s l with seq := { (loom s l).seq with ibuf := b }, xErr1 := x, bankCe := y, moving := z } := (fetched_frame s l).2.2.1
theorem regGet_fetched (s : State) (l b off i : Nat) (h : off < 4096) (hi : i < 65536)
    (hn : ¬ (b = bLoom l ∧ off ∈ [F.LOOM_SEQIMISS_COUNT.off, F.LOOM_BSCE_COUNT.off, F.FAULTCAUSE_VALID.off])) :
    regGet (fetched s l) b off i = regGet s b off i := (fetched_frame s l).2.2.2 b off i hn h hi
theorem owner_fetched (s : State) (l k : Nat) : owner (fetched s l) l k = owner s l k := by
  unfold owner bankOwn; rw [regGet_fetched _ _ _ _ _ (by decide) (by decide) (by rintro ⟨-, h⟩; revert h; decide)]
theorem inPlastic_fetched (s : State) (l a n : Nat) : inPlastic (fetched s l) l a n = inPlastic s l a n := by
  obtain ⟨_, _, _, _, h⟩ := loom_fetched s l
  simp [inPlastic, h]
theorem leBytes_get (n x i : Nat) (h : i < n) : (leBytes n x)[i]? = some (BitVec.ofNat 8 (x / 2 ^ (8 * i))) := by
  induction n generalizing x i with
  | zero => omega
  | succ n ih =>
    cases i with
    | zero => simp [leBytes]; apply BitVec.eq_of_toNat_eq; simp
    | succ i => simp only [leBytes, List.getElem?_cons_succ]; rw [ih _ _ (by omega), Nat.div_div_eq_div_mul]; congr 3; rw [Nat.mul_succ, Nat.add_comm, pow_add, show (256 : Nat) = 2 ^ 8 from rfl]
theorem leBytes_length (n x : Nat) : (leBytes n x).length = n := by induction n generalizing x <;> simp [leBytes, *]
theorem tabGet_run_leBytes (t : Tab Byte) (y n v i : Nat) : tabGet 0 (tabSetRun 0 t y (leBytes n (v % 2 ^ (8 * n)))) i = if y ≤ i ∧ i < y + n then BitVec.ofNat 8 (v / 2 ^ (8 * (i - y))) else tabGet 0 t i := by
  split
  · rename_i h
    obtain ⟨j, rfl⟩ : ∃ j, i = y + j := ⟨i - y, by omega⟩
    have hj : j < n := by omega
    rw [tabGet_tabSetRun_in _ _ _ _ _ (by rw [leBytes_length]; exact hj)]
    have := leBytes_get n (v % 2 ^ (8 * n)) j hj
    rw [List.getElem?_eq_some_iff] at this
    obtain ⟨_, e⟩ := this
    rw [e]
    simp only [Nat.add_sub_cancel_left]
    apply BitVec.eq_of_toNat_eq
    simp only [BitVec.toNat_ofNat]
    rw [show 8 * n = 8 * j + 8 * (n - j) by omega, pow_add, Nat.mod_mul_right_div_self, Nat.mod_mod_of_dvd]
    exact Nat.pow_dvd_pow 2 (by omega)
  · rw [tabGet_tabSetRun_out]; rw [leBytes_length]; omega

end Sys2Proof.Machine
end

