-- ==== Sys2Proof/Tests/Slice0.lean ====
section
/-!
SUPPORT. Worked examples of the manual and hand calculations from its rules, a smoke test of well-formedness, and for every
statement with hypotheses a state and operands that meet them.
-/

namespace Sys2Proof.Machine

set_option Elab.async false

/-! ## States of the tests -/

/-- Everything powered, the blocks of `bs` READY. -/
def up (bs : List Nat) : State :=
  let s : State := { State.reset with
    boot := { State.reset.boot with seen := bs }
    pw := { State.reset.pw with enIo := true, enHbm := true, enCmp := true } }
  bs.foldl (fun s b => wr s b F.STATE_READY 1) s

/-- Writes of fields, in order. -/
def put' (s : State) (ws : List (Nat × Fld × Nat)) : State := ws.foldl (fun s w => wr s w.1 w.2.1 w.2.2) s

/-- A state in which no decision and no mode change waits is quiet. -/
theorem quiet_of (s : State) (h : s.decisions = []) (h' : s.blk = []) : quiet s := by
  refine ⟨h, fun b => ?_⟩
  simp [modePend, ctl, h', BlockCtl.reset]

/-! ## Commands, accesses, transactions -/

def sLt : State := up [bLtime]

def sLtOpen : State := put' sLt [(bLtime, F.TXN_TSTATE, tsOpen), (bLtime, F.TXN_OPENER, tagOf .device)]

theorem witness_RegisterAccesses :
    (performed sLt .device bLtime F.FAULTMASK_MASK.off true 5 = true ∧ rd sLt bLtime F.TXN_TSTATE = tsIdle) ∧
    (kindOf bLtime = some .ltime ∧ performed sLtOpen .device bLtime F.LTIME_SRC_SRC.off true 1 = true ∧ rd sLtOpen bLtime F.TXN_TSTATE = tsOpen ∧
      rd sLtOpen bLtime F.TXN_OPENER = tagOf .device) ∧
    (performed sLt .device bLtime F.TXNREFUSE_COUNT.off false 0 = true ∧ tabGet 0 sLt.hiLatch (hiKey bLtime F.TXNREFUSE_COUNT.off (tagOf .device)) = 0) ∧
    performed sLt .device bLtime F.LTIME_NOW_LO_LT.off false 0 = true ∧ performed sLt .device bLtime F.LTIME_NOW_HI_LT.off false 0 = true := by decide +kernel

/-- Partition 3 is not ACTIVE, so its accesses are refused. -/
theorem witness_RefusedAccesses :
    selvCut sLt bLtime = false ∧ gateError (windowClose sLt) bLtime F.LTIME_SRC_SRC.off true = false ∧
    gateRefuse (windowClose sLt) (.part 3) bLtime F.LTIME_SRC_SRC.off true 1 = true ∧
    gateError (windowClose sLt) bLtime F.LTIME_SRC_SRC.off false = false ∧
    gateRefuse (windowClose sLt) (.part 3) bLtime F.LTIME_SRC_SRC.off false 0 = true := by decide +kernel

def sLtPend : State := put' sLt [(bLtime, F.TXN_TSTATE, tsPending)]

/-- Lamplighter with a transaction open that stages LL_SNAPBEATS 65, which its commit refuses. -/
def sLlOpen : State := setCtl (put' (up [bLamplighter]) [(bLamplighter, F.TXN_TSTATE, tsOpen), (bLamplighter, F.TXN_OPENER, tagOf (.custody .lantern))]) bLamplighter
  { BlockCtl.reset with staged := [⟨stKey F.LL_SNAPBEATS_BEATS.off 0, 0xFFFFFFFF, 65⟩] }

theorem witness_Transactions :
    (fieldPerformed sLt .device bLtime F.TXN_OP 1 = true ∧ rd sLt bLtime F.TXN_TSTATE = tsIdle) ∧
    (fieldPerformed sLtOpen .device bLtime F.TXN_OP 2 = true ∧ fieldPerformed sLtOpen .device bLtime F.TXN_OP 3 = true ∧
      rd sLtOpen bLtime F.TXN_TSTATE = tsOpen ∧ rd sLtOpen bLtime F.TXN_OPENER = tagOf .device ∧ commitCheck (windowClose sLtOpen) bLtime false = true) ∧
    (fieldPerformed sLtOpen .device bLtime F.TXN_OP 1 = true ∧ rd sLtOpen bLtime F.TXN_TSTATE ≠ tsIdle) ∧
    (fieldPerformed sLt .device bLtime F.TXN_OP 2 = true ∧ fieldPerformed sLt .device bLtime F.TXN_OP 3 = true) ∧
    (fieldPerformed sLtPend .device bLtime F.TXN_OP 2 = true ∧ rd sLtPend bLtime F.TXN_TSTATE = tsPending) ∧
    (fieldPerformed sLtOpen (.custody .lantern) bLtime F.TXN_OP 2 = true ∧ rd sLtOpen bLtime F.TXN_OPENER ≠ tagOf (.custody .lantern)) := by decide +kernel

theorem witness_Transactions_invalid :
    fieldPerformed sLlOpen (.custody .lantern) bLamplighter F.TXN_OP 2 = true ∧ rd sLlOpen bLamplighter F.TXN_TSTATE = tsOpen ∧
    rd sLlOpen bLamplighter F.TXN_OPENER = tagOf (.custody .lantern) ∧ commitCheck (windowClose sLlOpen) bLamplighter false = false := by decide +kernel

def sLtResetting : State := put' sLt [(bLtime, F.STATE_RESETTING, 1)]

theorem witness_ResetsAndModes :
    (fieldPerformed sLt .device bLtime F.CONTROL_RESETREQ 1 = true ∧ rdB sLt bLtime F.STATE_RESETTING = false ∧ kindOf bLtime ≠ some .shuttle) ∧
    (fieldPerformed sLtResetting .device bLtime F.CONTROL_RESETREQ 1 = true ∧ rdB sLtResetting bLtime F.STATE_RESETTING = true ∧
      readyOk sLtResetting bLtime = true ∧ sLtResetting.cust.releasing.contains bLtime = false ∧ sLtResetting.ll.rungs = []) ∧
    (performed sLt .device bLtime F.CONTROL_EXPERT.off true (fldSet F.CONTROL_RESETREQ 5 0) = true ∧ rd sLt bLtime F.TXN_TSTATE = tsIdle ∧
      (ctl sLt bLtime).latchVals = [] ∧ noBoundary sLt = true) := by decide +kernel

/-- A run is on, so mode changes wait for a boundary. -/
theorem witness_ResetsAndModes_latch :
    let s := put' sLt [(bBeat, F.BEAT_STATUS_STATE, stRunning)]
    performed s .device bLtime F.CONTROL_EXPERT.off true (fldSet F.CONTROL_RESETREQ 5 0) = true ∧ noBoundary s = false := by decide +kernel

/-- Slot 0 of the device, with LTIME as its member for beat 9. -/
def sSlot (st : SlotState) : State :=
  modSlot (put' (up [bBeat, bLtime]) [(bLtime, F.TXN_TSTATE, tsOpen), (bLtime, F.TXN_OPENER, tagOf .device)]) 0
    (fun g => { g with state := st, owner := some (tagOf .device), count := 1, beat := 9, members := [(0, bLtime)] })

def sSlotPrep : State := put' (sSlot .preparing) [(bLtime, F.TXN_TSTATE, tsPending)]

theorem witness_GroupSlots :
    (fieldPerformed (sSlot .building) .device bBeat F.BEAT_TGCTL_OP 1 = true ∧ slotSel (sSlot .building) = 0 ∧
      (slot (windowClose (sSlot .building)) 0).owner = some (tagOf .device) ∧ armFail (windowClose (sSlot .building)) 0 = none) ∧
    armFail (windowClose (modSlot (sSlot .building) 0 (fun g => { g with beat := 1 }))) 0 = some (0x10, 0) ∧
    fieldPerformed (sSlot .armed) .device bBeat F.BEAT_TGCTL_OP 2 = true ∧ fieldPerformed (sSlot .preparing) .device bBeat F.BEAT_TGCTL_OP 2 = true ∧
    fieldPerformed (sSlot .committed) .device bBeat F.BEAT_TGCTL_OP 3 = true := by decide +kernel

theorem witness_GroupSlots_answers :
    (slot sSlotPrep 0).window = false ∧ bLtime ∈ (slot sSlotPrep 0).blocks ∧ bLtime ∉ (slot sSlotPrep 0).accepted ∧ slotHead sSlotPrep 0 < 32 ∧
    rd sSlotPrep bLtime F.TXN_TSTATE = tsPending ∧ rd sSlotPrep bLtime F.TXN_GROUP = 0 ∧ commitCheck sSlotPrep bLtime true = true ∧
    allAccepted (modSlot sSlotPrep 0 (fun x => { x with accepted := x.accepted ++ [bLtime] })) 0 = true := by decide +kernel

theorem witness_VmpartAndTick :
    performed (up [bApc]) .device bApc F.APC_VMPART_PART.off true 0 = true ∧ bit (regGet (up [bApc]) bApc (F.APC_VMPART_PART.off - 4) 0).toNat 0 = false ∧
    performed (put' (up [bApc]) [(bApc, F.APC_PARTALLOW_ALLOW, 4)]) .device bApc F.APC_VMPART_PART.off true 2 = true ∧
    bit (regGet (put' (up [bApc]) [(bApc, F.APC_PARTALLOW_ALLOW, 4)]) bApc (F.APC_VMPART_PART.off - 4) 0).toNat 2 = true ∧
    rdB (up [bApc]) bLamplighter F.STATE_READY = false := by decide +kernel

/-! ## Sequencers -/

/-- Loom 0 READY, bank 0 the sequencer's and the others nobody's, the word `w` at 0, the main program running with g6 = 0x48
and g7 = 9. -/
def seqS (w : Nat) : State :=
  modSeq (wr (modLoom (up [bLoom 0, bShuttle (loomShuttle 0)]) 0 (fun m => { m with scratch := memPut [] 0 4 w })) (bLoom 0) F.LOOM_BANKOWN_OWNER0 1) 0
    (fun q => { q with running := true, main := true, mfile := [(6, 0x48), (7, 9)] })

/-- The main program of `seqS` with register `r` set. -/
def seqG (w r : Nat) (v : W64) : State := modSeq (seqS w) 0 (fun q => gWrite q r v)

/-- Functions of registers: every SEL of the table issues; 9 is no zero divisor, g0 is one; SEL 0x19 is no function. -/
theorem witness_SequencerArithmetic :
    (∀ sel ∈ List.range 0x17, sel + 2 ≠ 0x11 → sel + 2 ≠ 0x12 → seqAt (seqS (tWord 1 5 6 7 (sel + 2))) 0 (tWord 1 5 6 7 (sel + 2)) = true) ∧
    seqAt (seqS (tWord 1 5 6 7 0)) 0 (tWord 1 5 6 7 0) = true ∧ seqAt (seqS (tWord 1 5 6 0 0x11)) 0 (tWord 1 5 6 0 0x11) = true ∧
    seqAt (seqS (tWord 1 5 6 0 0x12)) 0 (tWord 1 5 6 0 0x12) = true ∧ g (seqS (tWord 1 5 6 7 0x15)) 0 7 ≠ 0 ∧
    (seqAt (seqS (tWord 1 5 6 0 0x15)) 0 (tWord 1 5 6 0 0x15) = true ∧ g (seqS (tWord 1 5 6 0 0x15)) 0 0 = 0) ∧
    (seqAt (seqS (tWord 1 5 6 7 0x19)) 0 (tWord 1 5 6 7 0x19) = true ∧ 0x18 < tWord 1 5 6 7 0x19 / 2 ^ 21 % 2 ^ 11) ∧
    (seqAt (seqS (tWord 1 5 6 7 0x11)) 0 (tWord 1 5 6 7 0x11) = true ∧ tWord 1 5 6 7 0x11 / 2 ^ 16 % 32 ≠ 0) := by decide +kernel

theorem witness_SequencerConstantsAndBranches :
    (∀ fam ∈ [0x20, 0x21, 0x22, 0x23, 0x24, 0x25], seqAt (seqS (pWord fam 7 6 0x10)) 0 (pWord fam 7 6 0x10) = true) ∧
    (g (seqS (pWord 0x24 7 6 0x10)) 0 7).toNat < (g (seqS (pWord 0x24 7 6 0x10)) 0 6).toNat ∧
    (∀ fam ∈ [2, 3, 4, 5, 6, 7, 9, 0x27], seqAt (seqS (kWord fam 5 6 0x10)) 0 (kWord fam 5 6 0x10) = true) ∧
    (∀ k ∈ [0x03, 0x43, 0x83, 0xC3, 0x103], seqAt (seqS (kWord 8 5 6 k)) 0 (kWord 8 5 6 k) = true) ∧
    (∀ fam ∈ [0x26, 0x0A, 0x0B], seqAt (seqS (lWord fam 5 0x1FFFFF)) 0 (lWord fam 5 0x1FFFFF) = true) := by decide +kernel

/-- A load's address: aligned in bank 0, misaligned, in another unit's bank, in the stores, beyond them, at the loom's own page. -/
theorem witness_SequencerMemory_loads :
    let w := kWord 0x14 5 6 0
    (([0x100, 0x102, 0x70000, 0x80000, 0x100000, 0x190000, 0x180000] : List W64).all (fun a => seqAt (seqG w 6 a) 0 w) = true) ∧
    (seqMay (seqG w 6 0x100) 0 0x100 4 = true ∧ ownStoreHeld (seqG w 6 0x100) 0 = false ∧ scrBroken (seqG w 6 0x100) 0 0x100 4 = false) ∧
    (owner (seqG w 6 0x70000) 0 7 ≠ ownSeq ∧ owner (seqG w 6 0x70000) 0 7 ≠ ownShared) ∧
    (inPlastic (seqG w 6 0x100000) 0 0 4 = false ∧ (loom (seqG w 6 0x100000) 0).sErr2 = []) ∧ ownPage 0x190000 = none ∧
    (ownPage 0x180000 = some (.main, 0) ∧ logFull (seqG w 6 0x180000) 0 = false ∧
      performed (fetched (seqG w 6 0x180000) 0) (loomReq (seqG w 6 0x180000) 0) (bLoom 0) 0 false 0 = true) := by decide +kernel

/-- The plastic region covers the synapse store's first 64 bytes. -/
def seqPlastic (w : Nat) : State :=
  modLoom (seqG w 6 0x100000) 0 (fun m => { m with lat := { m.lat with tens := { m.lat.tens with learn := true, base := 0, size := 64 } } })

theorem witness_SequencerMemory_stores :
    let w := pWord 0x1A 7 6 0
    (([0x100, 0x102, 0x70000, 0x80000, 0x100000, 0x190000, 0x180000 + F.FAULTMASK_MASK.off] : List W64).all (fun a => seqAt (seqG w 6 a) 0 w) = true) ∧
    (loom (seqG w 6 0x80000) 0).phase = .idle ∧
    (seqAt (modLoom (seqG w 6 0x80000) 0 (fun m => { m with phase := .settle })) 0 w = true) ∧
    (seqAt (seqPlastic w) 0 w = true ∧ inPlastic (seqPlastic w) 0 0 4 = true) ∧
    performed (fetched (seqS w) 0) (loomReq (seqS w) 0) (bLoom 0) F.FAULTMASK_MASK.off true 9 = true := by decide +kernel

def seqWait (x : Wait) : State := modSeq (seqS 0) 0 (fun q => { q with wait := some x })

theorem witness_SequencerSharedAccesses :
    (∀ sel ∈ [0, 1, 2], seqAt (seqS (tWord 0x1C 5 6 7 sel)) 0 (tWord 0x1C 5 6 7 sel) = true) ∧
    ((g (seqS 0) 0 6).toNat % 2 ^ 24 % 8 = 0 ∧ seqMay (seqS 0) 0 0x48 8 = true ∧ scrBroken (seqS 0) 0 0x48 8 = false) ∧
    (([0x100, 0x102, 0x3FFFFFFFFC, ctlBase] : List W64).all (fun a => seqAt (seqG (tWord 0x1D 5 6 0 0) 6 a) 0 (tWord 0x1D 5 6 0 0)) = true) ∧
    (([0x100, 0x102, 0x3FFFFFFFFC, ctlBase] : List W64).all (fun a => seqAt (seqG (tWord 0x1E 0 6 7 0) 6 a) 0 (tWord 0x1E 0 6 7 0)) = true) ∧
    (0x100 + 4 ≤ hbmSize ∧ hbmSize < 0x3FFFFFFFFC ∧ 0x3FFFFFFFFC < ctlBase) ∧
    ((seqOf (seqWait (.rld 0x100 5 false)) 0).wait = some (.rld 0x100 5 false) ∧ logFull (seqWait (.rld 0x100 5 false)) 0 = false) ∧
    (seqOf (seqWait (.rst 0x100)) 0).wait = some (.rst 0x100) := by decide +kernel

def seqTvec (w : Nat) : State := put' (seqS w) [(bLoom 0, F.LOOM_SEQTVEC_VALID, 1), (bLoom 0, F.LOOM_SEQTVEC_ADDR, 0x40)]

theorem witness_TrapEntry :
    let w := lWord 0x29 0 7
    seqAt (seqS w) 0 w = true ∧ rdB (seqS w) (bLoom 0) F.LOOM_SEQTVEC_VALID = false ∧
    seqAt (seqTvec w) 0 w = true ∧ rdB (seqTvec w) (bLoom 0) F.LOOM_SEQTVEC_VALID = true ∧ (seqOf (seqTvec w) 0).trap = none := by decide +kernel

/-- An activation of the INTEGRATE hook that runs from 0. -/
def hookAct : Act := ⟨1, 0, 0, 0, 0, 0, 0, false, false⟩

def seqAct' (w : Nat) (a : Act) : State := modSeq (seqS w) 0 (fun q => { q with act := some a, efile := [(6, 0x48), (7, 9)] })

def seqTrap' (w c : Nat) : State := modSeq (seqS w) 0 (fun q => { q with trap := some ⟨c, 0x20, 0⟩ })

theorem witness_SequencerControlAndReads :
    (∀ sel ∈ List.range 5, seqAt (seqS (tWord 0x28 0 0 0 sel)) 0 (tWord 0x28 0 0 0 sel) = true) ∧
    (∀ sel ∈ List.range 5, seqAt (seqTrap' (tWord 0x28 0 0 0 sel) 0) 0 (tWord 0x28 0 0 0 sel) = true) ∧
    (∀ sel ∈ List.range 2, seqAt (seqAct' (tWord 0x28 0 0 0 sel) hookAct) 0 (tWord 0x28 0 0 0 sel) = true) ∧
    (seqAct (seqOf (seqS 0) 0) = 0 ∧ seqAct (seqOf (seqAct' 0 hookAct) 0) = 1) ∧
    (∀ sel ∈ List.range 5, seqAt (seqS (tWord 0x28 5 0 0 (8 + sel))) 0 (tWord 0x28 5 0 0 (8 + sel)) = true) ∧ logFull (seqS 0) 0 = false := by decide +kernel

theorem witness_SequencerEvents :
    let s := modSeq (seqS 0) 0 (fun q => { q with queue := [hookAct] })
    let t := put' (seqAct' 0 hookAct) [(bLoom 0, F.LOOM_SEQBUDGET_CYCLES, 1000)]
    ((seqOf s 0).queue = [hookAct] ∧ hookAct.ctx ≠ 0 ∧ (seqOf s 0).running = true ∧ (seqOf s 0).halted = false ∧ (seqOf s 0).act = none ∧
      (seqOf s 0).trap = none ∧ midRemote (seqOf s 0) = false) ∧
    ((seqOf t 0).act = some hookAct ∧ rd t (bLoom 0) F.LOOM_SEQBUDGET_CYCLES = 1000) ∧
    ((seqOf (seqTrap' 0 0) 0).trap.isSome = true ∧ (seqOf (seqTrap' 0 0) 0).running = true) ∧
    (seqAt (seqS 0x3F) 0 0x3F = true ∧ legalWord 0x3F = false) := by decide +kernel

/-- Loom 0 in its INTEGRATE hook, with two slots. -/
def seqHook (w : Nat) (slot c : W64) : State :=
  modLoom (modSeq (seqAct' w hookAct) 0 (fun q => gWrite (gWrite q 6 slot) 7 c)) 0 (fun m => { m with lat := { m.lat with nslots := 2 } })

/-- Operation 1 of the batten is valid and has a trigger. -/
def seqDop (w : Nat) : State := wrI (wrI (seqG w 6 1) (bLoom 0) F.LOOM_DOPDATA0_VALID 1 1) (bLoom 0) F.LOOM_DOPDATA0_TRIGGER 1 1

theorem witness_SequencerEngineUnits :
    (seqAt (seqS (tWord 0x30 0 6 7 0)) 0 (tWord 0x30 0 6 7 0) = true ∧ (seqOf (seqS 0) 0).act = none) ∧
    (∀ e ∈ [0, 3], ([(1, 9), (1, 0x40000000), (2, 9)] : List (W64 × W64)).all (fun x =>
      seqAt (seqHook (tWord 0x30 0 6 7 e) x.1 x.2) 0 (tWord 0x30 0 6 7 e)) = true) ∧
    (g (seqHook 0 1 9) 0 6).toNat % 2 ^ 15 < (loom (seqHook 0 1 9) 0).lat.nslots ∧ 2 ^ 30 ≤ (g (seqHook 0 1 0x40000000) 0 7).toInt.natAbs ∧
    (seqAt (seqS (tWord 0x31 5 6 0 0)) 0 (tWord 0x31 5 6 0 0) = true ∧ (dop (seqS 0) 0 8).valid = false) ∧
    (seqAt (seqDop (tWord 0x31 5 6 0 0)) 0 (tWord 0x31 5 6 0 0) = true ∧ (dop (seqDop 0) 0 1).valid = true ∧ (dop (seqDop 0) 0 1).trigger = true ∧
      (loom (seqDop 0) 0).bOp = none ∧ (loom (seqDop 0) 0).bQueue = []) ∧
    (seqAt (seqS (tWord 0x31 0 0 0 1)) 0 (tWord 0x31 0 0 0 1) = true ∧ rd (seqS 0) (bLoom 0) F.LOOM_BSTAT_BUSY = 0 ∧
      rd (seqS 0) (bLoom 0) F.LOOM_BSTAT_QUEUED = 0) ∧
    seqAt (seqS (tWord 0x31 5 0 0 2)) 0 (tWord 0x31 5 0 0 2) = true := by decide +kernel

/-- Ticket 3 of loom 0, ended with OK or running. -/
def seqTicket (w : Nat) (c : Option Nat) : State :=
  modSh (seqG w 6 3) (loomShuttle 0) (fun x => { x with queue := [⟨3, 0, 0, .fetch 0x100, c, false⟩] })

theorem witness_SequencerShuttle :
    (([0x40, 0x48, 0x80000] : List W64).all (fun a => seqAt (seqG (tWord 0x32 5 6 0 0) 6 a) 0 (tWord 0x32 5 6 0 0)) = true) ∧
    (seqMay (seqS 0) 0 0x40 64 = true ∧ scrBroken (seqS 0) 0 0x40 64 = false ∧ (shOutstanding (seqS 0) 0).length < 8 ∧ (sh (seqS 0) (loomShuttle 0)).queue = []) ∧
    (∀ sel ∈ [1, 2], ∀ c ∈ [none, some scOk], seqAt (seqTicket (tWord 0x32 5 6 0 sel) c) 0 (tWord 0x32 5 6 0 sel) = true) ∧
    shTicket (seqS 0) 0 3 = none ∧ shTicket (seqTicket 0 (some scOk)) 0 3 = some ⟨3, 0, 0, .fetch 0x100, some scOk, false⟩ ∧
    shTicket (seqTicket 0 none) 0 3 = some ⟨3, 0, 0, .fetch 0x100, none, false⟩ := by decide +kernel

/-- A message of one word at 0x48, for channel 5; entry 2 is the receive end of channel 5. -/
def seqChan (w : Nat) : State :=
  let s := modLoom (seqG w 7 0x48) 0 (fun m => { m with scratch := memPut (memPut [] 0 4 w) 0x48 8 0x100 })
  let b := bLoom 0
  modSeq (wrI (wrI (wrI s b F.LOOM_CHDATA0_VALID 2 1) b F.LOOM_CHDATA0_DIR 2 1) b F.LOOM_CHDATA0_CHAN 2 5) 0 (fun q => gWrite q 6 5)

theorem witness_SequencerChannels :
    (∀ sel ∈ [0, 1], seqAt (seqChan (tWord 0x33 5 6 7 sel)) 0 (tWord 0x33 5 6 7 sel) = true) ∧
    (msgWords (bits (bytesAt (scratchByte (seqChan 0) 0) 0x48 8) 15 8) = 1 ∧ seqMay (seqChan 0) 0 0x48 8 = true ∧ scrBroken (seqChan 0) 0 0x48 8 = false) ∧
    (∀ sel ∈ [2, 3], seqAt (seqChan (tWord 0x33 5 6 0 sel)) 0 (tWord 0x33 5 6 0 sel) = true) ∧
    chFind (seqS 0) 0 0x48 1 = none ∧ chFind (seqChan 0) 0 5 1 = some 2 ∧ doneEntry (seqChan 0) 0 5 = none := by decide +kernel

/-- Loom 0 owned by partition 4, which no lamp is given to. -/
def seqLamp (w : Nat) : State := put' (seqG w 6 3) [(bLoom 0, F.OWNER_PART, 4)]

/-- Queue 3 stands in the loom's mask. -/
def seqPly (w : Nat) : State := put' (seqG w 6 3) [(bLoom 0, F.LOOM_PLYMASK_MASK, 8)]

theorem witness_SequencerLampsAndPly :
    (∀ sel ∈ [0, 1, 2], ([3, 16384] : List W64).all (fun a => seqAt (seqG (tWord 0x34 5 6 7 sel) 6 a) 0 (tWord 0x34 5 6 7 sel)) = true) ∧
    (loomLampOk (seqG 0 6 3) 0 3 = true ∧ loomLampOk (seqLamp 0) 0 3 = false) ∧
    seqAt (seqG (tWord 0x35 5 6 7 0) 6 3) 0 (tWord 0x35 5 6 7 0) = true ∧ plyMine (seqG 0 6 3) 0 3 = false ∧
    (seqAt (seqPly (tWord 0x35 5 6 7 0)) 0 (tWord 0x35 5 6 7 0) = true ∧ plyMine (seqPly 0) 0 3 = true ∧ plyRoom (seqPly 0) 0 3 = true) := by decide +kernel

/-! ## Looms -/

/-- Loom 0 READY and enabled, in phase `p` of beat 3. -/
def sLoom (p : LPhase) : State := modLoom (put' (up [bLoom 0, bBeat]) [(bLoom 0, F.CONTROL_ENABLE, 1)]) 0 (fun m => { m with phase := p, beat := 3 })

/-- Beat 3 is open on looms 0 and 1, none of which has acknowledged. -/
def sOpen (p : LPhase) : State :=
  modBeat (put' (sLoom p) [(bBeat, F.BEAT_STATUS_STATE, stRunning), (bBeat, F.BEAT_STATUS_PHASE, 1)]) (fun q => { q with n := 3, isOpen := true, on := [0, 1] })

theorem witness_LoomBeat :
    (rdB (sLoom .idle) (bLoom 0) F.CONTROL_ENABLE = true ∧ (loom (sLoom .idle) 0).phase = .idle) ∧
    ((loom (sOpen .opening) 0).phase = .opening ∧ seqOpenOk (loom (sOpen .opening) 0).seq = true ∧ (loom (sOpen .opening) 0).drains = [] ∧
      beatPhase (sOpen .opening) = 1 ∧ 1 ∈ (sOpen .opening).beat.on ∧ 1 ∉ (sOpen .opening).beat.acked) ∧
    (loom (modLoom (sLoom .opening) 0 (fun m => { m with spillDue := true })) 0).spillDue = true ∧
    ((loom (sLoom .close) 0).phase = .close ∧ rdB (sLoom .close) (bLoom 0) F.LOOM_TSNAPCTL_BUSY = false) ∧
    ((loom (sLoom .settle) 0).bSettle = false ∧ (loom (sLoom .settle) 0).hookS = false ∧ (sLoom .settle).beat.emitted = []) ∧
    routesReady (loom (sLoom .emit) 0) = true := by decide +kernel

/-- A record of one hop, which is LOCAL. -/
def recWord : Nat := 4 + 2 ^ 192 + 0xFFF * 2 ^ 208 + 2 ^ 224

/-- Loom 0 waits for record 0 of population 5, from the directory or from HBM. -/
def sRoute (a : Option Nat) : State := modLoom (up [bLoom 0]) 0 (fun m => { m with dirWait := [⟨5, 0, a, 1⟩] })

/-- Loom 0 waits for line 9 of the row cache. -/
def sLine : State := modLoom (put' (up [bLoom 0]) [(bLoom 0, F.LOOM_RCSIZE_SIZE, 1)]) 0 (fun m => { m with fills := [9] })

theorem witness_RoutesAndRowCache :
    ((loom (sRoute none) 0).dirWait.filter (fun w => w.pop = 5 && w.addr.isNone) = [⟨5, 0, none, 1⟩] ∧ rcountOf 0x800 = 1 ∧ rcountOf 0 = 0) ∧
    ((loom (sRoute (some 0x40)) 0).dirWait.find? (fun w => w.pop = 5 && w.idx = 0 && w.addr.isSome) = some ⟨5, 0, some 0x40, 1⟩ ∧
      leNat (padTo 32 (leBytes 32 recWord)) = recWord ∧ recordOk recWord 1 (0, 0) = true ∧ recRouted (sRoute (some 0x40)) recWord = true ∧
      recordOk 0 1 (0, 0) = false) ∧
    (9 ∉ (loom sLine 0).deadFills ∧ 9 ∈ (loom sLine 0).fills ∧ rcSets sLine 0 ≠ 0 ∧ (loom sLine 0).rowWaits = []) ∧
    performed (up [bLoom 0]) .device (bLoom 0) F.LOOM_RCINV_INV.off true (fldSet F.LOOM_RCINV_INV 0 1) = true := by decide +kernel

/-- The sequencer of loom 0 runs and RUN is set. -/
def sRun : State := put' (seqS 0) [(bLoom 0, F.LOOM_SEQCTL_RUN, 1)]

def sTsnap : State := modLoom (up [bLoom 0]) 0 (fun m => { m with tsnap := some ⟨3, 0, 0, 0, [], [], false⟩ })

theorem witness_LoomControl :
    (([0x010003E8, 0] : List Word).all (fun v => performed (up [bLoom 0]) .device (bLoom 0) F.LOOM_THDATA0_THETA.off true v) = true) ∧
    performed (up [bLoom 0]) .device (bLoom 0) (F.LOOM_THDATA0_THETA.off + 8) true 7 = true ∧
    rd (up [bLoom 0]) (bLoom 0) F.TXN_TSTATE = tsIdle ∧ (fldGet F.LOOM_THDATA0_THETA 0x010003E8 ≠ 0 ∧ fldGet F.LOOM_THDATA0_GMAX 0x010003E8 ≠ 0) ∧
    (loom (modLoom (up [bLoom 0]) 0 (fun m => { m with bOp := some (1, true) })) 0).bOp = some (1, true) ∧
    performed (up [bLoom 0]) .device (bLoom 0) F.LOOM_BRUN_GO.off true (fldSet F.LOOM_BRUN_GO 1 1) = true ∧
    (loom sTsnap 0).tsnap = some ⟨3, 0, 0, 0, [], [], false⟩ ∧
    (performed (put' (up [bLoom 0]) [(bLoom 0, F.LOOM_BANKOWN_OWNER0, 1)]) .device (bLoom 0) F.LOOM_SEQCTL_RUN.off true (fldSet F.LOOM_SEQCTL_RESTART 1 0) = true ∧
      ownedBy (seqS 0) 0 ownSeq (rd (seqS 0) (bLoom 0) F.LOOM_SEQENTRY_ADDR * 4) 4 = true ∧
      ownedBy (seqS 0) 0 ownSeq (rd (seqS 0) (bLoom 0) F.LOOM_SEQHTBASE_BASE * 1024) 1024 = true) ∧
    performed sRun .device (bLoom 0) F.LOOM_SEQCTL_RUN.off true (fldSet F.LOOM_SEQCTL_RESTART 0 0) = true ∧
    (performed sRun .device (bLoom 0) F.LOOM_SEQCTL_RESTART.off true
        (fldSet F.LOOM_SEQCTL_RUN (fldSet F.LOOM_SEQCTL_RESTART 0 1) (rd sRun (bLoom 0) F.LOOM_SEQCTL_RUN)) = true ∧
      (loom sRun 0).seq.running = true ∧ rd sRun (bLoom 0) F.LOOM_SEQCTL_RUN = 1 ∧ inRun sRun = false) := by decide +kernel

/-- Bank 3 drains, moves, or loom 0 tests. -/
def sDrain : State := modLoom (up [bLoom 0]) 0 (fun m => { m with drains := [(3, ⟨false, []⟩)] })
def sMove : State := modLoom (up [bLoom 0]) 0 (fun m => { m with moving := [3] })
def sTest : State := modLoom (put' (up [bLoom 0]) [(bLoom 0, F.LOOM_BTESTCTL_EN, 1)]) 0 (fun m => { m with testing := true })

theorem witness_ScratchBanks :
    (loom sDrain 0).drains.find? (fun e => e.1 = 3) = some (3, ⟨false, []⟩) ∧
    rdB (put' (up [bLoom 0]) [(bLoom 0, F.LOOM_BTESTCTL_EN, 1)]) (bLoom 0) F.LOOM_BTESTCTL_EN = true ∧
    ((loom sTest 0).testing = true ∧ rd sTest (bLoom 0) F.LOOM_BTESTPOS_ROW < 255 ∧ servedBank sTest 0 (rd sTest (bLoom 0) F.LOOM_BTESTPOS_BANK) = some 0 ∧
      spareGone sTest 0 = false) ∧
    (([256, 255] : List Word).all (fun v => performed sTest .device (bLoom 0) F.LOOM_BTESTINT_CYCLES.off true v) = true) ∧
    performed sTest (.custody .lantern) (bLoom 0) F.LOOM_BREMAP_GO.off true (fldSet F.LOOM_BREMAP_GO 3 1) = true ∧
    (3 ∈ (loom sMove 0).moving ∧ (loom sMove 0).xErr2 = []) := by decide +kernel

/-! ## Loom time and the beat engine -/

def sSrc (x : Nat) : State := put' sLt [(bLtime, F.LTIME_SRC_SRC, x)]

/-- LTIME at 2 s. -/
def sLate (x : Nat) : State := modLt (sSrc x) (fun t => { t with lt := 2000000000 })

theorem witness_LoomTime :
    (performed sLt .device bLtime F.LTIME_STEP_HI_STEP.off true 0 = true ∧ beatState sLt = stIdle) ∧
    beatState (put' sLt [(bBeat, F.BEAT_STATUS_STATE, stRunning)]) = stRunning ∧
    (performed (sSrc srcSoftware) .device bLtime F.LTIME_RATE_RATE.off true 7 = true ∧ rd (sSrc srcSoftware) bLtime F.LTIME_SRC_SRC = srcSoftware) ∧
    (performed sLt .device bLtime F.LTIME_RATE_RATE.off true 7 = true ∧ rd sLt bLtime F.LTIME_SRC_SRC ≠ srcSoftware) ∧
    ltSource (sSrc srcSyncIn) = srcSyncIn ∧ ltSource sLt ≠ srcSyncIn ∧
    (ltSource (sLate srcSyncIn) ≠ srcCrystal ∧ (sLate srcSyncIn).ltime.lastMeas + 1500000000 ≤ ltNow (sLate srcSyncIn)) := by decide +kernel

/-- The beat engine READY and enabled, in state `st`, with BEAT_LEN `len`. -/
def sBeat (st len : Nat) : State :=
  put' (up [bBeat]) [(bBeat, F.CONTROL_ENABLE, 1), (bBeat, F.BEAT_STATUS_STATE, st), (bBeat, F.BEAT_LEN_NS, len), (bBeat, F.BEAT_LAUNCH_LO_T0, 100000 / 2 ^ F.BEAT_LAUNCH_LO_T0.lo)]

theorem witness_BeatControl :
    (performed (sBeat stIdle 20000) .device bBeat F.BEAT_CTL_OP.off true (fldSet F.BEAT_CTL_OP 0 1) = true ∧
      rd (sBeat stIdle 20000) bBeat F.BEAT_LEN_NS = 20000 ∧
      ltNow (sBeat stIdle 20000) + 100000 ≤ rdPair (sBeat stIdle 20000) bBeat F.BEAT_LAUNCH_LO_T0 F.BEAT_LAUNCH_HI_T0) ∧
    (performed (sBeat stIdle 100) .device bBeat F.BEAT_CTL_OP.off true (fldSet F.BEAT_CTL_OP 0 1) = true ∧ rd (sBeat stIdle 100) bBeat F.BEAT_LEN_NS = 100) ∧
    (performed (sBeat stArmed 20000) .device bBeat F.BEAT_CTL_OP.off true (fldSet F.BEAT_CTL_OP 0 2) = true ∧ beatState (sBeat stArmed 20000) = stArmed) ∧
    ((sBeat stArmed 20000).beat.t0 ≤ ltNow (sBeat stArmed 20000) ∧ rd (sBeat stArmed 20000) bBeat F.BEAT_HOLD_HOLD = 0) ∧
    (inRun (sBeat stRunning 20000) = true ∧ (sBeat stRunning 20000).beat.isOpen = false) ∧
    (([0, 1] : List Word).all (fun v => performed (sBeat stRunning 20000) (.custody .lantern) bBeat F.BEAT_HOLD_HOLD.off true v) = true) := by decide +kernel

theorem witness_BeatControl_quiet : quiet (sBeat stArmed 20000) := quiet_of _ (by decide) (by decide)

/-- Loom 0 enabled, and beat 0 due at once. -/
theorem witness_BeatControl_open :
    let s := put' (sBeat stRunning 20000) [(bLoom 0, F.CONTROL_ENABLE, 1)]
    preparing s = false ∧ levelDue s = false ∧ rd s bPower F.POWER_STAT_STATE = 0 ∧ enabledLooms s = [0] ∧ replayMode s = false ∧ sched s 0 ≤ ltNow s := by
  decide +kernel

/-- Beat 3 is open in INTEGRATE on looms 0 and 1, which stand at hub 0. -/
def sTally : State := put' (sOpen .integrate) [(bBeat, F.BEAT_STATUS_PHASE, 2)]

theorem witness_BeatTallies :
    (sTally.beat.isOpen = true ∧ beatRound sTally = 0 ∧ 0 ∉ (hub sTally (loomHub 0)).tallied ∧ 0 ∈ sTally.beat.on ∧ loomHub 1 = loomHub 0) ∧
    (hubsDue sTally = [0] ∧ sTally.beat.localClosed = false ∧ beatState sTally = stRunning ∧ beatPhase sTally = 2 ∧ jobPeers sTally = [] ∧
      1 ∉ sTally.beat.settled ∧ beatRound sTally < rd sTally bBeat F.BEAT_RETRY_RETRYMAX) ∧
    (let s := modBeat (put' sTally [(bBeat, F.BEAT_STATUS_PHASE, 4)]) (fun q => { q with settled := [0, 1] })
     0 ∈ s.beat.settled ∧ 0 ∉ s.beat.emitted ∧ 4 ≤ beatPhase s ∧ 1 ∈ s.beat.on ∧ 1 ∉ s.beat.emitted) := by decide +kernel

def sRetry : State := put' sTally [(bBeat, F.BEAT_STATUS_STATE, stRetrying)]

/-- HELD in a job with package 5, whose CLOSED is overdue. -/
def sJob (st : Nat) : State :=
  modLt (modBeat (put' sTally [(bBeat, F.BEAT_STATUS_STATE, st), (bBeat, F.BEAT_STATUS_PHASE, 3), (bBeat, F.BEAT_JOB_PEERS, 32)])
    (fun q => { q with localClosed := true })) (fun t => { t with lt := 4000000000 })

theorem witness_BeatFaults :
    (sRetry.beat.keptAborts = [] ∧ sRetry.beat.heldRetry = false ∧ 0 ∈ hubsDue sRetry ∧ 0 ∉ sRetry.beat.hubs ∧ beatState sRetry = stRetrying) ∧
    (5 ∈ jobPeers (sJob stRunning) ∧ beatPhase (sJob stRunning) = 3 ∧ rd (sJob stRunning) bBeat F.BEAT_JOBWAIT_NS ≤ ltNow (sJob stRunning) ∧
      beatState (sJob stHeld) = stHeld ∧ jobPeers (sJob stHeld) ≠ [] ∧ (sJob stRunning).beat.isOpen = true ∧ (sJob stRunning).beat.localClosed = true ∧
      ((sJob stRunning).beat.n, 5) ∉ (sJob stRunning).beat.closedPeers ∧ max (sJob stRunning).beat.closeLt (tabGet 0 (sJob stRunning).beat.holdLt 5) = 0) ∧
    (sJob stRunning).beat.closedPeers = [] := by decide +kernel

/-- Beat 0 of 20,000 ns opened at its schedule; LT is 30,000. -/
def sLag : State :=
  modLt (modBeat (put' (sBeat stRunning 20000) [(bBeat, F.BEAT_LAGMAX_NS, 50)]) (fun q => { q with isOpen := true, anchors := [⟨0, 0, 20000⟩] }))
    (fun t => { t with lt := 30000 })

/-- Whatever the engine's copy of LT lags by, the lag is above BEAT_LAGMAX. -/
theorem witness_BeatFaults_lag : rd sLag bBeat F.BEAT_LAGMAX_NS = 50 ∧ 50 < beatLag sLag ∧ sLag.beat.lagAbove = false := by
  have h := ltNow_le_ltAt sLag bBeat
  have h0 : ltNow sLag = 30000 := by decide
  have h1 : sLag.beat.isOpen = true := by decide
  have h2 : lagSched sLag sLag.beat.n = some 0 := by decide +kernel
  have h3 : lagSched sLag (sLag.beat.n + 1) = some 20000 := by decide +kernel
  refine ⟨by decide +kernel, ?_, by decide⟩
  unfold beatLag beatLt
  rw [h1, h2, h3]
  show 50 < min 0xFFFFFFFF (max (sLag.beat.openLt - 0) (ltAt sLag bBeat - 20000))
  omega

theorem witness_BeatFaults_quiet : quiet sTally ∧ quiet sRetry ∧ quiet (sJob stRunning) :=
  ⟨quiet_of _ (by decide) (by decide), quiet_of _ (by decide) (by decide), quiet_of _ (by decide) (by decide)⟩

/-- Loom 0 lists the stream of endpoint 7, tag 2. -/
def sStream (st : StreamSt) : State :=
  modLoom (sLoom .integrate) 0 (fun m => { m with streams := [(streamKey 0 7 2, st)], latKeys := [streamKey 0 7 2] })

theorem witness_Streams :
    (logFull (sStream (.fresh 3)) 0 = false ∧ 0x1F = rd (sStream (.fresh 3)) (bLoom 0) F.OWNER_PART ∧ streamKey 0 7 2 ∈ (loom (sStream (.fresh 3)) 0).latKeys ∧
      (loom (sStream (.fresh 3)) 0).drain = false ∧ streamKey 0 7 3 ∉ (loom (sStream (.fresh 3)) 0).latKeys ∧ streamKey 0 7 3 ∉ (stagedTable (sStream (.fresh 3)) 0).2 ∧
      streamHeld (sStream (.fresh 3)) 0 = false ∧ isolated (sStream (.fresh 3)) 0 = false) ∧
    (streamGet (loom (sStream (.fresh 3)) 0) (streamKey 0 7 2) = .fresh 3 ∧ (StreamSt.fresh 3).x % 4096 = 0 ∧ (StreamSt.fresh 3).marker = none ∧
      (∃ e ∈ (loom (sStream (.fresh 3)) 0).streams, e.1 = streamKey 0 7 2)) ∧
    (([0x3000000000000000, 0x3000000000000005, 0x3000000000000800, 0x3000000000000FFF, 0xB000000000000000, 0xC000000000000000] : List W64).map
      (fun p => (p.toNat / 2 ^ 60, p.toNat % 4096))) = [(3, 0), (3, 5), (3, 2048), (3, 4095), (0xB, 0), (0xC, 0)] ∧
    (streamHeld (modLoom (sStream (.fresh 3)) 0 (fun m => { m with moving := [0] })) 0 = true ∨ streamHeld (modLoom (sStream (.fresh 3)) 0 (fun m => { m with logBuf := List.replicate 256 0 })) 0 = true) ∧
    isolated (wrI (sStream (.fresh 3)) (bHub 0) F.HUB_ROWISO_ISO 0 1) 0 = true := by decide +kernel

/-- A marker overdue, and one asked for twice. -/
def sMarker (tries : Nat) : State := modLt (sStream { StreamSt.fresh 2 with tries0 := tries }) (fun t => { t with lt := 4000000000 })

/-- Loom 0 retains epoch 3. -/
def sRet (closed : Bool) : State :=
  modLoom (sLoom .emit) 0 (fun m => { m with ret := ⟨some 3, 2, [(0, 0, 2)], [], closed, false⟩ })

theorem witness_Repicks :
    ((loom (sMarker 0) 0).beat = 3 ∧ waitFrom (sMarker 0) 0 (streamKey 0 7 2) + rd (sMarker 0) bBeat F.BEAT_CLOSEWAIT_NS ≤ ltNow (sMarker 0) ∧
      (streamGet (loom (sMarker 0) 0) (streamKey 0 7 2)).tries0 = 0) ∧
    ((streamGet (loom (sMarker 2) 0) (streamKey 0 7 2)).tries0 = 2 ∧ 2 < repickMax (sMarker 2) ∧ beatState (sMarker 2) ≠ stHeld) ∧
    repickMax (sMarker 9) ≤ 9 ∧
    ((loom (sRet true) 0).ret.epoch = some 3 ∧ (loom (sRet true) 0).ret.closed = true ∧ selfPkg (sRet true) = 0 ∧ (loom (sRet false) 0).heldReqs = [] ∧
      segRun (loom (sRet true) 0) 0 = (0, 2)) := by decide +kernel

/-! ## The warp fabric -/

/-- Hub 0 READY; site 4 of its row 0 is isolated; position 5 of that row has no site. -/
def sHub : State := modHub (wrI (up [bHub 0, bLoom 0]) (bHub 0) F.HUB_ROWISO_ISO 0 16) 0 (fun x => { x with map := x.map.set 5 0x1F })

/-- A row map staged for row 0 that names every site below 16 once. -/
def sMap : State :=
  let w := ((List.range 16).map (fun c => c * 32 ^ c)).sum
  let b := bHub 0
  wrI (wrI (wrI (up [b]) b F.HUB_ROWMAP0_MAP 0 (w % 2 ^ 30)) b F.HUB_ROWMAP1_MAP 0 (w / 2 ^ 30 % 2 ^ 30)) b F.HUB_ROWMAP2_MAP 0 (w / 2 ^ 60)

theorem witness_FabricAndRowMaps :
    (siteOf sHub 0 3 = 3 ∧ bit (rdI sHub (bHub 0) F.HUB_ROWISO_ISO 0) 3 = false) ∧ siteOf sHub 0 5 = 0x1F ∧
    (siteOf sHub 0 4 = 4 ∧ bit (rdI sHub (bHub 0) F.HUB_ROWISO_ISO 0) 4 = true) ∧
    bit (rd (put' (up [bSeam]) [(bSeam, F.SEAM_LINKUP_UP, 8)]) bSeam F.SEAM_LINKUP_UP) 3 = true ∧
    ((hub sHub 0).selvDown = false ∧ (hub sHub 0).selvFail < 16 ∧ 16 ≤ (hub (modHub sHub 0 (fun x => { x with selvFail := 16 })) 0).selvFail) ∧
    (([0x00020005, 0x00050002] : List Word).all (fun v => performed sHub .device (bLoom 0) F.LOOM_NITHROT_THRON.off true v) = true) ∧
    (performed sMap (.custody .lantern) (bHub 0) F.HUB_ROWGO_GO.off true (fldSet F.HUB_ROWGO_GO 0 1) = true ∧ stagedMap sMap 0 0 = List.range 16 ∧
      ((List.range 16).filter (fun c => c != 0x1F)).Nodup ∧ rdI sMap (bHub 0) F.HUB_ROWPASS_PASS 0 = 0) ∧
    ¬ ((stagedMap (wrI (up [bHub 0]) (bHub 0) F.HUB_ROWMAP0_MAP 0 0) 0 0).filter (fun c => c != 0x1F)).Nodup ∧
    1 ∈ (hub (modHub sHub 0 (fun x => { x with mapping := [1] })) 0).mapping ∧
    (performed sHub (.custody .lantern) (bHub 0) F.HUB_ROWISO_ISO.off true 24 = true ∧ loomAt sHub 0 0 3 = some 3) := by decide +kernel

/-- Queue 2 of hub 0 armed for loom 0, two contributions a round, with loom 0 at sequence 1 and round 0 half full. -/
def sPly : State :=
  let b := bHub 0
  setPlyQ (wrI (wrI (wrI (wrI (up [b, bLoom 0]) b F.HUB_PLYCTL_STATE 2 plyArmed) b F.HUB_PLYPART_PART 2 0x1F) b F.HUB_PLYCFG_EXPECT 2 2) b F.HUB_PLYDLOOM_LOOM 2 0)
    0 2 ⟨[⟨0, 1⟩], [⟨0, 1, 5⟩], [(7, 9)]⟩

theorem witness_PlyHub :
    (fieldPerformed sPly .device (bHub 0) F.HUB_PLYCTL_OP 1 = true ∧ rdI sPly (bHub 0) F.HUB_PLYDLOOM_LOOM 0 < 768 ∧
      rd sPly (bLoom 0) F.OWNER_PART = 0x1F) ∧
    768 ≤ rdI (wrI sPly (bHub 0) F.HUB_PLYDLOOM_LOOM 0 900) (bHub 0) F.HUB_PLYDLOOM_LOOM 0 ∧
    (fieldPerformed sPly .device (bHub 0) F.HUB_PLYCTL_OP 2 = true ∧ (plyQ sPly 0 0).rounds = [] ∧ (plyQ sPly 0 0).unconf = []) ∧
    (fieldPerformed sPly (.custody .lantern) (bHub 0) F.HUB_PLYCTL_OP 3 = true) ∧
    (rdI sPly (bHub 0) F.HUB_PLYCTL_STATE 3 ≠ plyArmed) ∧
    (0x1F = rdI sPly (bHub 0) F.HUB_PLYPART_PART 2 ∧ rdI sPly (bHub 0) F.HUB_PLYCTL_STATE 2 = plyArmed ∧
      (plyQ sPly 0 2).srcs.any (fun c => c.loom = 0) = true ∧ rdI sPly (bHub 0) F.HUB_PLYNEXT_ROUND 2 = 0 ∧ plyExpect sPly 0 2 = 2) ∧
    (∃ z ∈ (plyQ sPly 0 2).unconf, z.1 = 7) := by decide +kernel

/-- Loom 0 keeps contribution 4 of queue 3; bank 0 is the network interface's. -/
def sPlyWin : State := setPlyWin (put' (up [bLoom 0]) [(bLoom 0, F.LOOM_BANKOWN_OWNER0, ownNetif)]) 0 3 ⟨5, [(4, -9)]⟩

theorem witness_PlyLoom :
    (plyWin sPlyWin 0 3).kept.find? (fun c => c.1 = 4) = some (4, -9) ∧ (∀ c ∈ (plyWin sPlyWin 0 3).kept, c.1 ≠ 6) ∧
    tabGet 0 (loom sPlyWin 0).plyGot (plyKey 3 4) = 0 ∧ logFull sPlyWin 0 = false ∧
    ownedBy sPlyWin 0 ownNetif (0x100 + 8 * (4 % 2)) 8 = true ∧ ownedBy sPlyWin 0 ownNetif 0x10000 8 = false := by decide +kernel

/-! ## Channels and lamps -/

/-- Entry 2 of loom 0 is an end of channel 5 with endpoint 7 of package 0, in direction `dir`, generation 1, a ring of eight slots at 0x200. -/
def sChan (dir : Nat) (f : ChEnd → ChEnd) : State :=
  let b := bLoom 0
  let s := [(F.LOOM_CHDATA0_VALID, 1), (F.LOOM_CHDATA0_DIR, dir), (F.LOOM_CHDATA0_CHAN, 5), (F.LOOM_CHDATA0_PEER, 7), (F.LOOM_CHDATA1_GEN, 1),
    (F.LOOM_CHDATA1_RSIZE, 3), (F.LOOM_CHDATA1_RBASE, 8)].foldl (fun s x => wrI s b x.1 2 x.2) (up [b])
  modLoom (wr s b F.LOOM_CHSEL_INDEX 2) 0 (fun m => { m with ch := [(2, f ChEnd.reset)] })

/-- The header of message `seq` of channel 5, generation 1. -/
def chHdr (seq : Nat) : Nat := 0x100 + seq * 2 ^ 16 + 5 * 2 ^ 32 + 2 ^ 48

theorem witness_Channels :
    (logFull (sChan 1 id) 0 = false ∧ 0x1F = rd (sChan 1 id) (bLoom 0) F.OWNER_PART ∧ chFind (sChan 1 id) 0 5 1 = some 2 ∧ chFind (sChan 1 id) 0 6 1 = none ∧
      hdrChan (chHdr 0) = 5 ∧ rdI (sChan 1 id) (bLoom 0) F.LOOM_CHDATA0_PEER 2 = 7 ∧ hdrGen (chHdr 0) = 1) ∧
    (arrival (chSize (sChan 1 id) 0 2) (chEnd (sChan 1 id) 0 2) (hdrSeq (chHdr 0)) 1 = .take ∧
      arrival (chSize (sChan 1 id) 0 2) (chEnd (sChan 1 id) 0 2) (hdrSeq (chHdr 1)) 1 = .gap ∧
      arrival (chSize (sChan 1 id) 0 2) (chEnd (sChan 1 id) 0 2) (hdrSeq (chHdr 65535)) 1 = .dup ∧
      arrival (chSize (sChan 1 id) 0 2) (chEnd (sChan 1 id) 0 2) (hdrSeq (chHdr 0)) 9 = .overflow) ∧
    (chEnd (sChan 1 (fun e => { e with closed := true })) 0 2).closed = true ∧
    (chFind (sChan 0 id) 0 5 0 = some 2 ∧ (chEnd (sChan 0 id) 0 2).closed = false ∧ rdI (sChan 0 id) (bLoom 0) F.LOOM_CHDATA1_GEN 2 = 1) ∧
    ((chEnd (sChan 0 (fun e => { e with blocked := [true] })) 0 2).blocked ≠ [] ∧ rdI (sChan 0 id) (bLoom 0) F.LOOM_CHDATA0_PKG 2 = selfPkg (sChan 0 id)) ∧
    (performed (sChan 1 id) .device (bLoom 0) F.LOOM_CHCTL_CLOSE.off true (fldSet F.LOOM_CHCTL_CLOSE 0 1) = true ∧
      rd (sChan 1 id) (bLoom 0) F.LOOM_CHSEL_INDEX = 2) := by decide +kernel

/-- Entry 0 of the application cluster is an end of channel 5 of the device, with a ring of eight slots; region 0 covers all of HBM. -/
def sApc (dir : Nat) (f : ChEnd → ChEnd) : State :=
  let s := [(F.APC_CHDATA0_VALID, 1), (F.APC_CHDATA0_DIR, dir), (F.APC_CHDATA0_CHAN, 5), (F.APC_CHDATA0_PEER, 7), (F.APC_CHDATA1_GEN, 1),
    (F.APC_CHDATA1_RSIZE, 3), (F.APC_CHPART_PART, 0x1F)].foldl (fun s x => wrI s bApc x.1 0 x.2) (up [bApc])
  { s with apc := [(0, f ChEnd.reset)], mem := { s.mem with regions := [(0, ⟨0, 23040, 0x1F, 0, 0, true, false⟩)], hbm := [(0x101, 1)] } }

theorem witness_ApcChannels :
    (apcFind (sApc 1 id) 0x1F 5 1 = some 0 ∧ apcPeer (sApc 1 id) 0 = [0, 7] ∧ rdA (sApc 1 id) F.APC_CHDATA1_GEN 0 = 1 ∧ (apcEnd (sApc 1 id) 0).closed = false ∧
      arrival (apcSize (sApc 1 id) 0) (apcEnd (sApc 1 id) 0) (hdrSeq (chHdr 0)) (msgSlots 1) = .take) ∧
    apcFind (sApc 1 id) 0x1F 6 1 = none ∧ apcFind (sApc 0 id) 0x1F 5 0 = some 0 ∧
    (apcEnd (sApc 0 (fun e => { e with blocked := [true] })) 0).blocked ≠ [] ∧
    performed (sApc 0 id) .device bApc F.APC_CHSEND_HI_ADDR.off true 0 = true ∧
    (performed (sApc 1 (fun e => { e with ring := [⟨0, 1, 0, 1, false, false, 0⟩] })) .device bApc F.APC_CHDONE_DONE.off true (fldSet F.APC_CHDONE_DONE 0 1) = true ∧
      (apcEnd (sApc 1 (fun e => { e with ring := [⟨0, 1, 0, 1, false, false, 0⟩] })) 0).ring ≠ []) := by decide +kernel

/-- The device sends the message of one word at 0x100. -/
theorem witness_ApcChannels_send :
    let s := put' (sApc 0 id) [(bApc, F.APC_CHSEND_LO_ADDR, 0x20)]
    let y := wr (windowClose s) bApc F.APC_CHSEND_HI_ADDR 0
    let h := hbmReadRun y bApc 0x1F 0x100 8
    performed s .device bApc F.APC_CHSEND_HI_ADDR.off true 0 = true ∧ rd s bApc F.APC_CHSEND_LO_ADDR * 8 = 0x100 ∧ rd s bApc F.APC_CHSEL_INDEX = 0 ∧
      h.1 = hOk ∧ msgWords (bits (leNat (l2Over y 0x100 h.2.2.1)) 15 8) = 1 ∧ (hbmReadRun h.2.2.2 bApc 0x1F 0x100 8).1 = hOk ∧
      sendRoom (apcSize s 0) (apcEnd s 0) 1 = some 1 := by decide +kernel

/-- Hub 0 with lamp 3 at 10, a watch of loom 0's main program on it for 12 with a deadline, and window watch 0. -/
def sLamps : State := modHub (up [bHub 0, bLoom 0]) 0 (fun x => { x with lamps := [(3, 10)], watches := [⟨0, 3, 12, some 0, 7⟩, ⟨1536, 3, 20, none, 0⟩] })

theorem witness_Lamps :
    lampOk sLamps 0 3 4 = false ∧ (lampOk sLamps 0 3 0x1F = true ∧ lampVal sLamps 0 3 = 10) ∧
    (lampOk sLamps 0 3 (rd sLamps (bLoom 0) F.OWNER_PART) = true ∧ lampOk (put' sLamps [(bLoom 0, F.OWNER_PART, 4)]) 0 3 4 = false) ∧
    (hub sLamps 0).watches.find? (fun y => y.who = 0) = some ⟨0, 3, 12, some 0, 7⟩ ∧
    ((seqOf (seqWait (.lamp 3 5 7)) 0).wait = some (.lamp 3 5 7) ∧ usesMain (seqOf (seqWait (.lamp 3 5 7)) 0) = true ∧ logFull (seqWait (.lamp 3 5 7)) 0 = false) ∧
    watched sLamps 0 true 3 7 = false ∧ watched (seqWait (.lamp 3 5 8)) 0 true 3 7 = false ∧
    performed sLamps .device (bHub 0) F.HUB_LAMPADD_HI_ADD.off true 0 = true ∧ performed sLamps .device (bHub 0) F.HUB_LAMPFORCE_HI_VALUE.off true 0 = false ∧
    fieldPerformed sLamps .device (bHub 0) F.HUB_WATCHCTL_OP 1 = true ∧ fieldPerformed sLamps .device (bHub 0) F.HUB_WATCHCTL_OP 2 = true ∧
    ¬ (∀ j < 64, ∃ y ∈ (hub sLamps 0).watches, y.who = 1536 + j) ∧ lampOk sLamps 0 (rd sLamps (bHub 0) F.HUB_LAMPSEL_INDEX) (tagOf .device) = true := by decide +kernel

/-- In a TEST part the device may force a lamp. -/
theorem witness_Lamps_force :
    let s := { sLamps with nv := { sLamps.nv with fuse := [(0xC, 1)] } }
    performed s .device (bHub 0) F.HUB_LAMPFORCE_HI_VALUE.off true 0 = true := by decide +kernel

/-! ## Shuttles and memory -/

/-- A FILL of 16 bytes of loom 0's scratch, in 8-byte elements. -/
def dFill : ShDesc := ⟨0, mkLocal 0 0x100, 16, 1 + 3 * 2 ^ 5, 0, 0, 0, 0x1122334455667788, 0⟩

def sSh (f : Shuttle → Shuttle) : State :=
  modSh (put' (up [bShuttle 0, bLoom 0]) (([F.LOOM_BANKOWN_OWNER0, F.LOOM_BANKOWN_OWNER1, F.LOOM_BANKOWN_OWNER2, F.LOOM_BANKOWN_OWNER3,
    F.LOOM_BANKOWN_OWNER4, F.LOOM_BANKOWN_OWNER5, F.LOOM_BANKOWN_OWNER6, F.LOOM_BANKOWN_OWNER7] : List Fld).map (fun f => (bLoom 0, f, ownShuttle)))) 0 f

theorem witness_Shuttles :
    (fieldPerformed (sSh id) .device (bShuttle 0) F.SH_CTL_GO 1 = true ∧ (sh (sSh id) 0).armed = false ∧ (sh (sSh id) 0).page = none) ∧
    fieldPerformed (sSh (fun x => { x with armed := true })) .device (bShuttle 0) F.SH_CTL_GO 1 = true ∧
    (fieldPerformed (sSh (fun x => { x with page := some (.desc dFill none) })) .device (bShuttle 0) F.SH_CTL_ABORT 1 = true ∧ (sh (sSh id) 0).failed = false ∧
      (sh (sSh id) 0).wait = none ∧ (sh (sSh id) 0).redo = none ∧ (sh (sSh id) (sibling 0)).run = none ∧ (sh (sSh id) (sibling 0)).redo = none) ∧
    ((sh (sSh (fun x => { x with page := some (.desc dFill none) })) 0).page = some (.desc dFill none) ∧ (sh (sSh id) 0).run = none ∧
      (sh (sSh id) 0).job = none ∧ (sh (sSh id) 0).queue = [] ∧ shJobs (memMarks (sSh id) []) 0 = [] ∧ dFill.len ≠ 0 ∧
      (sh (sSh id) (sibling 0)).failed = false ∧ shCheck 0 dFill = scOk ∧ rd (sSh id) (bShuttle 0) F.OWNER_PART = 0x1F ∧ shCheck 0 { dFill with cfg := 3 } ≠ scOk) ∧
    (let s := memMarks (sSh (fun x => { x with run := some ⟨0, .page, dFill, none, 0x1F, none⟩ })) []
     (sh s 0).run = some ⟨0, .page, dFill, none, 0x1F, none⟩ ∧ shHeld s ⟨0, .page, 0x1F⟩ dFill = false ∧ shStoresHeld s dFill = false ∧
      isolated s (locLoom dFill.dst) = false) ∧
    (dFill.crypt = 0 ∧ dFill.wb = false ∧ shHeld (sSh id) ⟨0, .page, 0x1F⟩ dFill = false ∧ dFill.op = 1 ∧ dFill.wmode = 0 ∧ isLocal dFill.dst = true ∧ dFill.ds = dFill.dw ∧
      locAddr dFill.dst + dFill.len ≤ 0x80000 ∧ locLoom dFill.dst = 0 ∧ (∀ j, j < 8 → owner (sSh id) 0 j = ownShuttle) ∧ rd (sSh id) (bLoom 0) F.OWNER_PART = 0x1F) := by decide +kernel

/-- Every controller READY; region 0 covers HBM for the device, region 1 nothing; byte 0x100 is 7. -/
def sHbm : State :=
  let s := up [bHbmc 0, bHbmc 1, bHbmc 2, bHbmc 3, bMemcrypt]
  { s with mem := { s.mem with regions := [(0, ⟨0, 23040, 0x1F, 0, 0, true, false⟩)], hbm := [(0x100, 7)] } }

theorem witness_HbmRequests :
    (rdB State.reset (bHbmc (hbmCtl 0x100)) F.STATE_READY = false ∧ rdB sHbm (bHbmc (hbmCtl 0x100)) F.STATE_READY = true) ∧
    (tabGet 0 sHbm.mem.expect (hbmCtl 0x100 * 4096 + 9) = 0 ∧ hbmBytes 1 = 8 ∧ hbmCheck sHbm 0x1F 0x100 8 = hOk ∧ hbmCheck sHbm 4 0x100 8 = hPartition ∧
      sHbm.mem.poison = [] ∧ (List.range 8).all (fun i => !staleKey sHbm (0x100 + i)) = true) ∧
    ((3 + 4096 - 0) % 4096 ≤ 2047 ∧ 2048 ≤ (4095 + 4096 - 0) % 4096) ∧
    (∃ q ∈ (hbmTx (setHbmTx sHbm 9 0 ⟨1, [⟨0, false, 0x100, 1, [], false⟩], []⟩) 9 0).unans, q.rseq = 0) := by decide +kernel

def sRegion : State := { sHbm with mem := { sHbm.mem with regions := [(0, ⟨0, 1, 0x1F, 0, 0, true, false⟩)], rstate := [(3, 1)] } }

/-- A staged entry that leaves entry 5 not VALID is accepted; one that meets entry 0 is not. -/
theorem witness_Regions :
    fieldPerformed sRegion (.custody .lantern) bMemcrypt F.MC_REGCTL_OP 1 = true ∧
    regionOk sRegion 5 (regionStaged sRegion 5) = true ∧ regionOk sRegion 5 ⟨0, 1, 0x1F, 0, 0, true, false⟩ = false ∧
    fieldPerformed sRegion (.custody .lantern) bMemcrypt F.MC_REGCTL_OP 2 = true ∧ ((region sRegion 0).valid = true ∧ tabGet 0 sRegion.mem.rstate 0 ≠ 1) ∧
    (tabGet 0 sRegion.mem.rstate 3 = 1 ∧ 65536 + 3 ∉ sRegion.cust.releasing) ∧
    performed sRegion (.custody .lantern) (bHbmc 0) F.HBMC_POISONCLR_GO.off true (fldSet F.HBMC_POISONCLR_GO 0 1) = true ∧
    (rd sRegion (bHbmc 0) F.HBMC_SCRUB_HOURS ≠ 0 ∧ hbmCtl 0 = 0 ∧ rdB sRegion (bHbmc 0) F.STATE_READY = true ∧ staleKey sRegion 0 = false) := by decide +kernel

/-! ## Reed ports -/

/-- Reed port 0 READY and enabled, with source `src`, tile 0 valid; beat 3 began at LT 0, LT is 10; region 0 covers HBM for the device. -/
def sReed (src : Nat) : State :=
  let s := put' (wrI (up [bReed 0, bBeat]) (bReed 0) F.REED_TMDATA0_VALID 0 1)
    [(bReed 0, F.CONTROL_ENABLE, 1), (bReed 0, F.REED_CFG_SRC, src), (bReed 0, F.REED_CFG_TSMODE, 0), (bReed 0, F.REED_CFG_DECMODE, 0), (bReed 0, F.REED_GEOM_TILESX, 1),
      (bReed 0, F.REED_RECSIZE_PAGES, 1), (bReed 0, F.REED_RECCNT_LO_COUNT, 2), (bBeat, F.BEAT_STATUS_STATE, stRunning)]
  { s with
    beat := { s.beat with anchors := [⟨0, 3, 1000000⟩] }
    ltime := { s.ltime with lt := 10 }
    reeds := [(0, { Reed.reset with epoch := 3 })]
    mem := { s.mem with regions := [(0, ⟨0, 23040, 0x1F, 0, 0, true, false⟩)] } }

theorem witness_ReedPorts :
    (rdB (sReed srcLanes) (bReed 0) F.CONTROL_ENABLE = true ∧ rd (sReed srcLanes) (bReed 0) F.REED_CFG_SRC = srcLanes ∧
      rd (sReed srcLanes) (bReed 0) F.REED_CSI_VC < 32 ∧ rd (sReed srcLanes) (bReed 0) F.REED_CSI_DT < 64) ∧
    ((reed (sReed srcLanes) 0).lastV = none ∧ inRun (sReed srcLanes) = true ∧ reedTile (sReed srcLanes) 0 3 0 = some 0 ∧
      reedTile (sReed srcLanes) 0 3 0x400000 = none ∧ rdB (sReed srcLanes) (bReed 0) F.REED_RECCTL_CAPEN = false) ∧
    (rd (sReed srcReplay) (bReed 0) F.REED_CFG_SRC = srcReplay ∧ (reed (sReed srcReplay) 0).rdPos < recCnt (sReed srcReplay) 0 ∧
      (hbmReadRun (sReed srcReplay) (bReed 0) (reedTag (sReed srcReplay) 0) (recAddr (sReed srcReplay) 0 0) 16).1 = hOk ∧ epochOf (sReed srcReplay) 0 = some 3 ∧
      inRun (sReed srcReplay) = true ∧
      (hbmReadRun (put' (sReed srcReplay) [(bReed 0, F.OWNER_PART, 4)]) (bReed 0) 4 0 16).1 ≠ hOk) ∧
    (rd (sReed srcMirror) (bReed 0) F.REED_CFG_SRC = srcMirror ∧ (reed (sReed srcMirror) 0).mHeld = [] ∧ (reed (sReed srcMirror) 0).mNext = none) ∧
    (([0x1085, 0x1005] : List Word).all (fun v => performed (sReed srcLanes) .device (bReed 0) F.REED_I3CCMD_ADDR.off true v) = true ∧
      rdB (sReed srcLanes) (bReed 0) F.REED_I3CSTAT_BUSY = false) := by decide +kernel

/-- The configuration of reed port 0 is the one in force in every epoch, and every moment of the first beat lies in epoch 3, so the
packet clauses' conditions hold whatever the free value of the arrival is. -/
theorem witness_ReedPorts_arrival (t : Nat) (h : t < 1000000) :
    pktCfg (sReed srcLanes) 0 t F.REED_CFG_TSMODE 0 = 0 ∧ rd (sReed srcLanes) (bReed 0) ⟨F.REED_CFG_DECMODE.off, 7, 7⟩ = 0 ∧
    epochOf (sReed srcLanes) t = some 3 := by
  have hu : (reed (sReed srcLanes) 0).old = [] := by decide +kernel
  have h1 : rdI (sReed srcLanes) (bReed 0) F.REED_CFG_TSMODE 0 = 0 := by decide +kernel
  have h3 : (sReed srcLanes).beat.t0 = 0 := by decide +kernel
  have h4 : (sReed srcLanes).beat.anchors = [⟨0, 3, 1000000⟩] := by decide +kernel
  have he : epochOf (sReed srcLanes) t = some 3 := by
    have : t / 1000000 = 0 := by omega
    simp [epochOf, h3, h4, this]
  refine ⟨?_, by decide +kernel, he⟩
  unfold pktCfg reedCfg
  rw [he, hu]
  exact h1

/-- An arrival before the first anchor lies in no epoch, and an earlier one in a flushed epoch. -/
theorem witness_ReedPorts_idle :
    (let s := put' (sReed srcLanes) [(bBeat, F.BEAT_STATUS_STATE, stIdle)]
     inRun s = false) ∧
    (3 : Nat) < (reed { sReed srcLanes with reeds := [(0, { Reed.reset with epoch := 5 })] } 0).epoch ∧
    (rd (sReed srcReplay) (bReed 0) F.REED_CFG_SRC ≠ srcMirror ∧ flushOk (sReed srcLanes) 1 = false) := by decide +kernel

/-- Epoch 3 has ended and its guard time passed, whatever the port's copy of LT lags by. -/
def sReedLate : State := { modBeat (sReed srcLanes) (fun q => { q with n := 4 }) with ltime := { LtimeSt.reset with lt := 4000000000 } }

theorem witness_ReedPorts_flush : flushOk sReedLate 0 = true := by
  have h := ltNow_le_ltAt sReedLate (bReed 0)
  have h0 : ltNow sReedLate = 4000000000 := by decide
  have h1 : (rdB sReedLate (bReed 0) F.CONTROL_ENABLE && hasEpochs sReedLate && beatState sReedLate != stRetrying &&
    settledTo sReedLate (reed sReedLate 0).epoch && (reed sReedLate 0).mGap.isNone) = true := by decide +kernel
  have h2 : rdB sReedLate bBeat F.BEAT_CTL_MODE = false := by decide +kernel
  have h3 : sched sReedLate ((reed sReedLate 0).epoch + 1) + rd sReedLate (bReed 0) F.REED_GUARD_NS ≤ 3999999000 := by decide +kernel
  unfold flushOk
  simp only [h1, h2, Bool.true_and, Bool.false_eq_true, if_false, decide_eq_true_eq]
  generalize ltAt sReedLate (bReed 0) = y at *
  generalize sched sReedLate _ + rd sReedLate (bReed 0) F.REED_GUARD_NS = z at *
  omega

/-- A gap of a mirrored sensor before the record held has outlasted its wait; a transfer is under way. -/
theorem witness_ReedPorts_timers :
    let t := { sReedLate with reeds := [(0, { Reed.reset with mGap := some (0, 6), mNext := some 5, mHeld := [(6, ⟨9, 0⟩)], i3c := some 0x1005 })] }
    ((reed t 0).mGap = some (0, 6) ∧ (reed t 0).mNext = some 5 ∧ (reed t 0).mPort < 8 ∧ (reed t 0).mHeld ≠ [] ∧ (reed t 0).mHeld.length < 2 ^ 31 ∧
      6 = (5 + mirrorAhead (reed t 0) 5) % 2 ^ 32 ∧ mseqBefore 5 6 = true ∧ rd t (bGlimmer 0) F.GLIM_MIRWAIT_NS ≤ ltNow t) ∧
    (let u := { sReed srcLanes with reeds := [(0, { Reed.reset with mGap := some (5, 6) })] }
     ltNow u < 5 + rd u (bGlimmer (reed u 0).mPort) F.GLIM_MIRWAIT_NS) ∧
    (reed t 0).i3c = some 0x1005 := by decide +kernel

/-! ## The host port, vehicle interfaces, the warden port -/

def sHost : State := put' (up [bHostport, bLtime, bCustody]) [(bHostport, F.HOSTPORT_LINK_UP, 1), (bHostport, F.HOSTPORT_WINCTL_PART, 0x1F)]

theorem witness_HostPort :
    rdB State.reset bHostport F.HOSTPORT_LINK_UP = false ∧
    (rdB sHost bHostport F.HOSTPORT_LINK_UP = true ∧ cpResetting sHost = false ∧ inCompute bLtime = false ∧ viewOf (bLtime * 0x10000) = some .main ∧
      performed sHost (funReq 0) bLtime F.LTIME_SRC_SRC.off true 1 = true ∧ performed sHost (funReq 0) bLtime F.LTIME_SRC_SRC.off false 0 = true ∧
      performed sHost (funReq 3) bLtime F.LTIME_SRC_SRC.off false 0 = false) ∧
    (cpResetting (put' sHost [(bFuse, F.FUSE_BOOTSTAT_PATH, 2)]) = true ∧ inCompute (bLoom 0) = true) ∧
    performed sHost .device bHostport F.HOSTPORT_DOORBELL_VECTOR.off true 3 = true ∧
    (([0, 1] : List Word).all (fun v => performed sHost .device bHostport F.HOSTPORT_WINCTL_EN.off true v) = true ∧
      windowOk sHost (winSlot sHost (tagOf .device)) = true) ∧
    windowOk (put' sHost [(bHostport, F.HOSTPORT_WINDBASE_DBASE, 0xFFFFF), (bHostport, F.HOSTPORT_WINSIZE_SIZE, 2)]) 0 = false ∧
    rdB sHost bHostport F.STATE_READY = true := by decide +kernel

/-- Function 3 with an exchange that waits for FINISH, or a session. Whether a MAC verifies is a free value of the model, so either case of
FINISH holds in some machine. -/
theorem witness_SpdmSessions :
    let s := { sHost with host := ⟨[(3, ⟨true, false, [], [], 0⟩), (4, ⟨false, true, [], [], 0⟩)]⟩ }
    spdmUp s = true ∧ spdmUp State.reset = false ∧ s.cust.noEntropy = false ∧ (spdmSess s 3).pending = true ∧ (spdmSess s 4).active = true ∧
    (spdmSess s 3).active = false := by decide +kernel

/-- NETIO READY; every ring has two entries and one handed over, at address 0; the descriptor there has OWN, SOP, EOP and a buffer of 128
bytes at 0x1000; region 0 covers HBM for the device. -/
def sNet : State :=
  let s := ([ringIdx 1 2 true false, ringIdx 1 2 false false, ringIdx 1 2 true true, ringIdx 1 2 false true] : List Nat).foldl
    (fun s i => wrI (wrI s bNetio F.NETIO_RSIZE_ENTRIES i 2) bNetio F.NETIO_RTAIL_TAIL i 1) (up [bNetio])
  { s with
    mem := { s.mem with
      regions := [(0, ⟨0, 23040, 0x1F, 0, 0, true, false⟩)]
      hbm := [(1, 0x10), (8, 128), (10, 5)] }
    clu := { CluSt.reset with iommu := [(ioDdtp, 1)] } }

theorem witness_VehicleInterfaces :
    performed sNet .device bNetio F.NETIO_RTAIL_TAIL.off true 1 = true ∧
    (ringHas sNet (ringIdx 1 2 true false) = true ∧ ringHas sNet (ringIdx 1 2 false false) = true ∧ ringHas sNet (ringIdx 1 2 true true) = true ∧
      ringHas sNet (ringIdx 1 2 false true) = true ∧ ringHas sNet (ringIdx 0 0 true false) = false) ∧
    (let x := ((netRead sNet (ringAt sNet (ringIdx 1 2 true false) 32) 32).1).getD []
     fieldAt x 0 8 = 0x1000 ∧ bit (fieldAt x 10 2) 0 = true ∧ bit (fieldAt x 10 2) 2 = true ∧ bit (fieldAt x 10 2) 3 = false ∧ 64 ≤ fieldAt x 8 2) ∧
    (isPtp (List.replicate 64 0) = false ∧ (netWrite sNet 0x1000 (List.replicate 64 0)).1 = true) ∧
    (netWrite sNet (ringAt sNet (ringIdx 1 2 true true) 80) (List.replicate 80 0)).1 = true ∧
    ((netRead sNet (ringAt sNet (ringIdx 1 2 false true) 80) 80).1).isSome = true ∧
    (powered sNet bNetio = true ∧ powered State.reset bNetio = false) := by decide +kernel

/-- A TEST part, in which the warden may write anywhere; and a scrapped one. -/
def sWarden (fuse : Word) : State := { sLt with nv := { sLt.nv with fuse := [(0xC, fuse)] } }

theorem witness_WardenFrames :
    (wardenUp (sWarden 1) = true ∧ wardenUp { sLt with boot := { sLt.boot with active := true } } = false) ∧
    crc8 [0x20] = 0xE0 ∧ lifecycle (sWarden 1) = lcTest ∧ wardenScrapped (sWarden 1) = false ∧ wardenScrapped (sWarden 0x10) = true ∧
    (viewOf (bLtime * 0x10000 + F.LTIME_SRC_SRC.off) = some .main ∧ performed (wakeSource (sWarden 1) 1) wardenReq bLtime F.LTIME_SRC_SRC.off false 0 = true ∧
      wardenMay (wakeSource (sWarden 1) 1) bLtime F.LTIME_SRC_SRC.off = true ∧
      performed (wakeSource (sWarden 1) 1) wardenReq bLtime F.LTIME_SRC_SRC.off true 1 = true) ∧
    (gateError (wakeSource sLt 1) bLtime F.LTIME_SRC_SRC.off true = false ∧ wardenMay (wakeSource sLt 1) bLtime F.LTIME_SRC_SRC.off = false) ∧
    (sWarden 1).pw.enCmp = true := by decide +kernel

/-! ## Glimmer links and laser modules -/

/-- Port 0 READY in state `st`, enabled or not, with lit lasers and all lanes. -/
def sGlim (st en : Nat) : State :=
  put' (up [bGlimmer 0, bGlimmer 1, bLaser]) [(bLaser, F.LASER_CTL_LIGHT, 1), (bLaser, F.LASER_MOD_STATE0, lmLit), (bGlimmer 0, F.GLIM_STAT_STATE, st),
    (bGlimmer 0, F.GLIM_CFG_EN, en), (bGlimmer 0, F.GLIM_STAT_LANES, 255)]

theorem witness_GlimmerLinks :
    (performed (sGlim gsOff 0) .device (bGlimmer 0) F.GLIM_CFG_EN.off true (withField (sGlim gsOff 0) .device (bGlimmer 0) F.GLIM_CFG_EN 1) = true ∧
      fldGet F.GLIM_CFG_SENDWAKE (withField (sGlim gsOff 0) .device (bGlimmer 0) F.GLIM_CFG_EN 1) = rd (sGlim gsOff 0) (bGlimmer 0) F.GLIM_CFG_SENDWAKE ∧
      portFusedOff (sGlim gsOff 0) 0 = false ∧ laserLit (sGlim gsOff 0) = true ∧ glimState (sGlim gsOff 0) 0 = gsOff) ∧
    (performed (sGlim gsUp 1) .device (bGlimmer 0) F.GLIM_CFG_EN.off true (withField (sGlim gsUp 1) .device (bGlimmer 0) F.GLIM_CFG_EN 0) = true ∧
      rdB (sGlim gsUp 1) (bGlimmer 0) F.GLIM_CFG_EN = true) ∧
    portFusedOff { sGlim gsOff 0 with nv := { NvSt.reset with fuse := [(0x52, 1)] } } 0 = true ∧
    performed (sGlim gsUp 1) .device (bGlimmer 0) F.GLIM_CFG_SENDWAKE.off true (withField (sGlim gsUp 1) .device (bGlimmer 0) F.GLIM_CFG_SENDWAKE 1) = true ∧
    performed (sGlim gsUp 1) .device (bGlimmer 0) F.GLIM_PKGRT_ENTRY.off true 0x98 = true ∧
    (popcount 8 15 = 4 ∧ popcount 8 127 = 7 ∧ popcount 8 255 = 8 ∧ bit (glimLanes (sGlim gsUp 1) 0) 3 = true ∧ glimLive (sGlim gsUp 1) 0 = true ∧
      glimLive (sGlim gsDegraded 1) 0 = true ∧ glimLive (sGlim gsOff 0) 0 = false) ∧
    (glim (modGlim (sGlim gsDegraded 1) 0 (fun x => { x with switch := some (127, 9) })) 0).switch = some (127, 9) := by decide +kernel

theorem witness_GlimmerLinks_quiet : quiet (sGlim gsUp 1) := quiet_of _ (by decide) (by decide)

/-- Port 0 is a live link of the job to package 5; the beat is 3. -/
def sMarks : State :=
  modBeat (put' (sGlim gsUp 1) [(bGlimmer 0, F.GLIM_STAT_PEERPKG, 5), (bBeat, F.BEAT_JOB_PEERS, 32), (bBeat, F.BEAT_STATUS_STATE, stRunning),
    (bBeat, F.BEAT_STATUS_PHASE, 2), (bGlimmer 0, F.GLIM_PKGRT_ENTRY, 0x98000000)]) (fun q => { q with n := 3, isOpen := true, on := [0] })

theorem witness_GlimmerMarks :
    (glimLive sMarks 0 = true ∧ glimPeer sMarks 0 = 5 ∧ 5 ∈ jobPeers sMarks ∧ jobPorts sMarks = [0] ∧ inRun sMarks = true ∧ sMarks.gpkg.seen = []) ∧
    (markOrigin (mkMark mkClosed 5 false 3) = 5 ∧ markN (mkMark mkClosed 5 false 3) = 3 ∧ markOrigin (mkMark mkClosed 6 false 3) ∉ jobPeers sMarks ∧
      5 ≠ selfPkg sMarks) ∧
    (sMarks.beat.localClosed = false ∧ 0 ∈ hubsDue sMarks ∧ 0 ∉ sMarks.beat.hubs ∧ beatPhase sMarks < 4) ∧
    bit (mkMark mkAbort 5 false (3 + 2 ^ 67)) 76 = true ∧ refPort sMarks ≠ some 0 ∧
    (pkgRoute sMarks 7 = some 1 ∧ pkgRoute sMarks 4 = none ∧ bits (mkMark mkDigest 5 false (7 * 2 ^ 82)) 94 91 = 7) ∧
    (sMarks.gpkg.quarters = [] ∧ selfPkg sMarks = 0) ∧
    (let s := { sMarks with gpkg := { sMarks.gpkg with elect := [(5, some ⟨3, true, 0, false, 0⟩)] }, ltime := { LtimeSt.reset with lt := 4000000000 } }
     s.gpkg.elected = false ∧ s.gpkg.change + 1000000 ≤ ltNow s ∧ electWinner s = some 5) ∧
    (let s := { put' sMarks [(bGlimmer 0, F.GLIM_FMSTAT_VALID, 1), (bGlimmer 0, F.GLIM_FMSTAT_FM, 5)] with ltime := { LtimeSt.reset with lt := 4000000000 } }
     rdB s (bGlimmer 0) F.GLIM_FMSTAT_VALID = true ∧ rd s (bGlimmer 0) F.GLIM_FMSTAT_FM ≠ selfPkg s ∧ electView s 5 = none) ∧
    (∃ x ∈ (modBeat sMarks (fun q => { q with n := 100, partner := [(3, [])] })).beat.partner, x.1 = 3) ∧ 64 < (100 + 65536 - 3) % 65536 := by decide +kernel

theorem witness_GlimmerMarks_quiet : quiet sMarks := quiet_of _ (by decide) (by decide)

/-- Port 0 keeps 16 records of its own sensor in HBM, of which a peer that lost the last one asks for it. -/
theorem witness_GlimmerMarks_mirreq :
    let s := { sReed srcLanes with regs := (put' (sReed srcLanes) [(bGlimmer 0, F.GLIM_STAT_STATE, gsUp)]).regs }
    let m := mkMark mkMirreq 5 false (0 + 1 * 2 ^ 3 + 1 * 2 ^ 35)
    glimLive s 0 = true ∧ (recCnt s (bits m 11 9) + 2 ^ 32 - bits m 43 12) % 2 ^ 32 = 1 ∧ 1 ≤ recCap s 0 ∧ bits m 59 44 = 1 ∧
    (hbmReadRun s (bReed 0) (reedTag s 0) (recAddr s 0 (recCnt s 0 - 1)) 16).1 = hOk ∧ 1 ≤ recCnt s 0 ∧
    (glim s 0).tq = [] ∧ (glim s 0).slots = [] ∧ (glim s 0).recs = [] ∧ rdB s (bGlimmer 0) F.GLIM_CFG_SENDWAKE = false := by decide +kernel

/-- A packet of class 0 for package 7 is on the way through port 0, and class 1 has been cut. -/
def sFrame : State :=
  modGlim (put' sMarks [(bGlimmer 1, F.GLIM_STAT_STATE, gsUp)]) 0 (fun x => { x with last := some 9, pkt := [(0, some ⟨7 * 2 ^ 237, [1], false⟩)], cut := [1] })

theorem crc32Go_lt (x n i c : Nat) (h : c < 2 ^ 32) : crc32Go x n i c < 2 ^ 32 := by
  induction n generalizing i c with
  | zero => exact h
  | succ n ih =>
    unfold crc32Go
    refine ih _ _ ?_
    split
    · exact Nat.xor_lt_two_pow (by omega) (by decide)
    · show c / 2 < 2 ^ 32
      omega

/-- A body of 5,108 bits with its CRC-32 above it is a good payload whose fields are the body's. -/
theorem framePayload_good (g : GFrame) (h : frameBody g < 2 ^ 5108) :
    frameCrcOk (BitVec.ofNat 5140 (framePayload g)).toNat = true ∧ glimFrameOf (BitVec.ofNat 5140 (framePayload g)).toNat = glimFrameOf (frameBody g) := by
  have hc : crc32 5108 (frameBody g) < 2 ^ 32 := Nat.xor_lt_two_pow (crc32Go_lt _ _ _ _ (by decide)) (by decide)
  have hp : (2 : Nat) ^ 5140 = 2 ^ 32 * 2 ^ 5108 := by rw [← Nat.pow_add]
  have hw : framePayload g < 2 ^ 5140 := by
    rw [hp]
    unfold framePayload
    generalize (2 : Nat) ^ 5108 = M at *
    have : crc32 5108 (frameBody g) * M ≤ (2 ^ 32 - 1) * M := Nat.mul_le_mul_right _ (by omega)
    omega
  have hm : framePayload g % 2 ^ 5108 = frameBody g := by
    unfold framePayload
    rw [Nat.add_mul_mod_self_right, Nat.mod_eq_of_lt h]
  rw [BitVec.toNat_ofNat, Nat.mod_eq_of_lt hw]
  refine ⟨?_, ?_⟩
  · unfold frameCrcOk
    rw [hm]
    have : bits (framePayload g) 5139 5108 = crc32 5108 (frameBody g) := by
      unfold bits framePayload
      rw [Nat.add_mul_div_right _ _ (Nat.two_pow_pos _), Nat.div_eq_of_lt h, Nat.zero_add, Nat.mod_eq_of_lt hc]
    rw [this]
    exact decide_eq_true rfl
  · have e : ∀ hi lo, lo ≤ hi → hi < 5108 → bits (framePayload g) hi lo = bits (frameBody g) hi lo := by
      intro hi lo h1 h2
      have : ∀ x : Nat, bits x hi lo = bits (x % 2 ^ 5108) hi lo := by
        intro x
        unfold bits
        rw [show 5108 = lo + (5108 - lo) by omega, Nat.pow_add 2 lo (5108 - lo), Nat.mod_mul_right_div_self, Nat.mod_mod_of_dvd]
        exact Nat.pow_dvd_pow 2 (by omega)
      rw [this, hm]
    have e0 : ∀ x, bit x 0 = (bits x 0 0 == 1) := fun x => by simp [bit, bits]
    unfold glimFrameOf
    rw [e0, e0, e 0 0 (by decide) (by decide), e 8 1 (by decide) (by decide), e 22 11 (by decide) (by decide), e 34 23 (by decide) (by decide),
      e 44 40 (by decide) (by decide), e 167 48 (by decide) (by decide), e 39 35 (by decide) (by decide)]
    rw [List.map_congr_left (g := fun i => bits (frameBody g) (427 + 260 * i) (168 + 260 * i)) fun i hi => e _ _ (by omega) (by have := List.mem_range.1 hi; omega)]

/-- Frames of no slot, and of one slot that begins, continues, and ends a packet of class 0, or goes on in the one cut. -/
def gFrames : List GFrame :=
  [⟨false, 10, 5, 6, 0, [], 0⟩, ⟨false, 10, 5, 6, 0, [7 * 2 ^ 237], 0⟩, ⟨false, 10, 5, 6, 0, [9 + 2 ^ 258], 0⟩, ⟨false, 10, 5, 6, 0, [9 + 2 * 2 ^ 258], 0⟩,
    ⟨false, 10, 5, 6, 0, [9 + 2 ^ 256], 0⟩, ⟨false, 10, 5, 6, 0, [9 + 2 ^ 256 + 2 * 2 ^ 258], 0⟩, ⟨false, 12, 5, 6, 0, [], 0⟩]

theorem witness_GlimmerFrames :
    (glimLive State.reset 0 = false ∧ glimLive sFrame 0 = true) ∧ (glim sFrame 0).last = some 9 ∧
    gFrames.all (fun g => decide (frameBody g < 2 ^ 5108) && decide (glimFrameOf (frameBody g) = g)) = true ∧
    (10 = (9 + 1) % 256 ∧ 12 ≠ (9 + 1) % 256) ∧
    (tabGet none (glim sFrame 0).pkt 0 = some ⟨7 * 2 ^ 237, [1], false⟩ ∧ 0 ∉ (glim sFrame 0).cut ∧ 1 ∈ (glim sFrame 0).cut ∧
      hdrDpkg (7 * 2 ^ 237) ≠ selfPkg sFrame ∧ pkgRoute sFrame (hdrDpkg (7 * 2 ^ 237)) = some 1 ∧ glimLive sFrame 1 = true ∧
      rdB sFrame (bGlimmer 1) F.GLIM_CFG_SENDWAKE = false ∧ (glim sFrame 1).tq = [] ∧ (glim sFrame 1).slots = [] ∧ (glim sFrame 1).recs = [] ∧
      (tabGet 0 (glim sFrame 1).sent 0 + 4096 - tabGet 0 (glim sFrame 1).freed 0) % 4096 + 3 ≤ 2048) := by decide +kernel

/-- Of two payloads that differ in the CRC alone, one is bad. -/
theorem witness_GlimmerFrames_bad : ∃ w : BitVec 5140, frameCrcOk w.toNat = false := by
  have h1 : (BitVec.ofNat 5140 (2 ^ 5108)).toNat = 2 ^ 5108 := by rw [BitVec.toNat_ofNat, Nat.mod_eq_of_lt (Nat.pow_lt_pow_right (by decide) (by decide))]
  by_cases h : crc32 5108 0 = 0
  · refine ⟨BitVec.ofNat 5140 (2 ^ 5108), ?_⟩
    rw [h1]
    unfold frameCrcOk bits
    rw [Nat.mod_self, h, Nat.div_self (Nat.two_pow_pos _)]
    exact decide_eq_false (by decide)
  · refine ⟨BitVec.ofNat 5140 0, ?_⟩
    rw [BitVec.toNat_ofNat, Nat.zero_mod]
    unfold frameCrcOk bits
    rw [Nat.zero_mod, Nat.zero_div, Nat.zero_mod]
    exact decide_eq_false h

/-- Module 0 in state `st`, its counters at 5 and 2 hours. Whether its signatures verify is a free value of the model. -/
def sLaser (st : Nat) : State :=
  let s := put' (wrI (wrI (up [bLaser]) bLaser F.LASER_POWERED_HOURS 0 5) bLaser F.LASER_HOT_HOURS 0 2) [(bLaser, F.LASER_MOD_STATE0, st)]
  s

theorem witness_LaserModules :
    (lasState (sLaser lmAbsent) 0 = lmAbsent ∧ max 7 (tabGet (0, 0) (sLaser lmAbsent).nv.life 99).1 < 2 ^ 32) ∧
    lasState (sLaser lmVerifying) 0 = lmVerifying ∧ lasState (sLaser lmLit) 0 = lmLit ∧
    (rdI (sLaser lmLit) bLaser F.LASER_POWERED_HOURS 0 + 1 < 2 ^ 32 ∧ rdI (sLaser lmLit) bLaser F.LASER_POWERED_HOURS 0 + 1 + 2 < 40000 ∧
      sext 16 (rdI (sLaser lmLit) bLaser F.LASER_DRIFT_PERMILLE 0) < 100 ∧ (las (sLaser lmLit) 0).serial ∉ (sLaser lmLit).nv.worn ∧
        rdI (sLaser lmLit) bLaser F.LASER_HOT_HOURS 0 + 1 < 2 ^ 32 ∧ llRuns (up [bLamplighter]) = true) ∧
    (performed (sLaser lmLit) (.custody .lantern) bLaser F.LASER_CTL_LIGHT.off true 1 = true ∧ bits (fldGet F.LASER_CTL_RELEASE 1) 1 0 = 0) ∧
    (performed (sLaser lmLit) (.custody .lantern) bLaser F.LASER_CTL_RELEASE.off true
        (fldSet F.LASER_CTL_LIGHT 2 (rd (sLaser lmLit) bLaser F.LASER_CTL_LIGHT)) = true ∧ bits (fldGet F.LASER_CTL_RELEASE 2) 1 0 = 2 ^ 0) := by decide +kernel

/-! ## The timer block -/

/-- Channel 2 enabled with clock source `src`, RELOAD 9, at count `n`. -/
def sTim (src n : Nat) : State :=
  let s := put' (up [bTimer]) [(bTimer, tf F.TIMER_CTL_EN 2, 1), (bTimer, tf F.TIMER_CTL_CLKSRC 2, src), (bTimer, tf F.TIMER_COUNT_COUNT 2, n), (bTimer, tf F.TIMER_CTL_CAPEDGE 2, 3)]
  { s with tim := { s.tim with reload := [(2, 9)] } }

theorem witness_Timers :
    (rdT (sTim 1 9) 2 F.TIMER_CTL_CLKSRC = 1 ∧ timCounts (sTim 1 9) 2 = true ∧ gateOpen (sTim 1 9) 0 2 = true ∧ 2 ∉ (sTim 1 9).tim.imm ∧
      rdT (sTim 1 9) 3 F.TIMER_CTL_CLKSRC ≠ 3 ∧ rdT (sTim 1 9) 2 F.TIMER_COUNT_COUNT = reloadNow (sTim 1 9) 2 ∧
      rdT (sTim 1 4) 2 F.TIMER_COUNT_COUNT ≠ reloadNow (sTim 1 4) 2) ∧
    timCounts (up [bTimer]) 2 = false ∧ rdT (sTim 3 4) 2 F.TIMER_CTL_CLKSRC = 3 ∧
    (performed (up [bTimer]) .device bTimer (tf F.TIMER_CTL_EN 2).off true (fldSet F.TIMER_CTL_EN 0 1) = true ∧ rd (up [bTimer]) bTimer F.TXN_TSTATE = tsIdle ∧
      timCtlBad (fldSet F.TIMER_CTL_EN 0 1) = false ∧ rdT (up [bTimer]) 2 F.TIMER_CTL_EN = 0) ∧
    (performed (up [bTimer]) .device bTimer (tf F.TIMER_CTL_EN 2).off true (fldSet F.TIMER_CTL_EN 0x18 1) = true ∧ timCtlBad (fldSet F.TIMER_CTL_EN 0x18 1) = true) ∧
    performed (sTim 1 4) .device bTimer (tf F.TIMER_RELOAD_RELOAD 2).off true 7 = true ∧ performed (sTim 1 4) .device bTimer (tf F.TIMER_CMP_CMP 2).off true 7 = true ∧
    (capSelects (rdT (sTim 1 4) 2 F.TIMER_CTL_CAPEDGE) true = true ∧ capSelects (rdT (up [bTimer]) 2 F.TIMER_CTL_CAPEDGE) true = false ∧ ltNow (sTim 1 4) < 2 ^ 64) ∧
    performed (sTim 1 4) .device bTimer (tf F.TIMER_CAP_CAP 2).off false 0 = true ∧
    (performed (sTim 1 4) .device bTimer F.TIMER_STARTGO_MASK.off true 4 = true ∧ rdT (sTim 1 4) 2 F.TIMER_CTL_EN = 1 ∧
      timStartAt (sTim 1 4) ≤ ltNow (sTim 1 4)) := by decide +kernel

/-! ## Custody -/

/-- CUSTODY READY with arguments ARG0 to ARG3, fuses `fuse` of the lifecycle; region 0 covers HBM for the device. -/
def sCust (a0 a1 a2 a3 : Nat) (fuse : Word) : State :=
  let f := F.CUSTODY_ARG_ARG
  let s := put' (up [bCustody, bLtime, bFuse, bLoom 0, bHub 0, bHub 2, bHostport, bApc, bPartition, bMemcrypt, bBeat])
    [(bCustody, f, a0), (bCustody, fAt f 1, a1), (bCustody, fAt f 2, a2), (bCustody, fAt f 3, a3)]
  { s with
    nv := { s.nv with fuse := [(0xC, fuse)] }
    mem := { s.mem with regions := [(0, ⟨0, 23040, 0x1F, 0, 0, true, false⟩)] } }

/-- Whether the warden may write CUSTODY_CMD with a code, no command runs and the part is not scrapped. -/
def custMay (s : State) (code : Nat) : Bool :=
  performed s (.custody .warden) bCustody F.CUSTODY_CMD_CODE.off true (BitVec.ofNat 32 code) && !rdB s bCustody F.CUSTODY_CSTAT_BUSY && !s.ll.lanternGone
    && lifecycle s != lcScrapped

/-- Every command code, in a TEST part. That an image or a token is accepted rests on signatures, which are free values of the model. -/
theorem witness_CustodyCommands :
    ([0x01, 0x02, 0x03, 0x10, 0x11, 0x12, 0x13, 0x14, 0x15, 0x20, 0x21, 0x22, 0x23, 0x24, 0x25, 0x2F] : List Nat).all (fun c => custMay (sCust 2 0 0 0 1) c) = true ∧
    rdB (put' (sCust 2 0 0 0 1) [(bCustody, F.CUSTODY_CSTAT_BUSY, 1)]) bCustody F.CUSTODY_CSTAT_BUSY = true ∧ lifecycle (sCust 0 0 0 0 0x10) = lcScrapped ∧
    (imageCheck (windowClose (sCust 2 0 0 0 1)) (custBuf (sCust 2 0 0 0 1))).1 ≠ crOk ∧
    (custArg (sCust 2 0 0 0 1) 0 = 2 ∧ tabGet 0 ({ (sCust 2 0 0 0 1) with cust := { CustSt.reset with accepted := [(2, 6)] } } : State).cust.accepted 2 = 5 + 1) ∧
    ((custRead (windowClose (sCust 2 0 0 0 1)) (custBuf (sCust 2 0 0 0 1)) 32).1).isSome = true ∧
    (sCust 2 0 0 0 1).cust.noEntropy = false := by decide +kernel

/-- Nonces, moves and owner keys; the lifecycles that they need. -/
theorem witness_CustodyCommands_moves :
    (lifecycle (sCust 3 0 0 0 3) = lcProvisioned ∧ moveMay lcProvisioned (custArg (sCust 3 0 0 0 3) 0) = true ∧ moveMay lcProvisioned lcTest = false ∧
      bit (fuse (sCust 3 0 0 0 3) 0x15).toNat 0 = false ∧ custMay (sCust 3 0 0 0 0) 0x25 = true ∧ lifecycle (sCust 3 0 0 0 0) = lcBlank) ∧
    (let s := { sCust 0 0 0 0 7 with cust := { CustSt.reset with fieldDebug := true } }
     custMay s 0x23 = true ∧ lifecycle s = lcFieldDebug) ∧
    (custArg (sCust 0x53435250 0 0 0 1) 0 = 0x53435250 ∧ custArg (sCust 2 0 0 0 1) 0 ≠ 0x53435250) ∧
    performed (sCust 0 0 0 0 1) (.custody .lantern) bFuse F.FUSE_TRECINV_GO.off true (fldSet F.FUSE_TRECINV_GO 0 1) = true := by decide +kernel

/-- The parts that hold resources: partition 2 in state `st`. -/
def sPart (st a1 a2 a3 : Nat) : State := setPartState (sCust 2 a1 a2 a3 1) 2 st

theorem witness_Partitions :
    ([psFree, psSuspended, psActive] : List Nat).all (fun st => [0x10, 0x11, 0x12, 0x13, 0x14, 0x15].all (fun c => custMay (sPart st 0 0 0) c)) = true ∧
    (partState (sPart psFree 0 0 0) 2 = psFree ∧ partState (sPart psSuspended 0 0 0) 2 = psSuspended ∧ partState (sPart psActive 0 0 0) 2 = psActive) ∧
    (16 ≤ custArg (sCust 16 0 0 0 1) 0 ∧ custMay (sCust 16 0 0 0 1) 0x10 = true) ∧
    (resBlock (custArg (sPart psSuspended 0 0 0) 1) (custArg (sPart psSuspended 0 0 0) 2) = some (bLoom 0) ∧ rd (sPart psSuspended 0 0 0) (bLoom 0) F.OWNER_PART = 0x1F ∧
      beatState (sPart psSuspended 0 0 0) = stIdle) ∧
    (custArg (sPart psSuspended 3 2 4) 1 = 3 ∧ lampPart (sPart psSuspended 3 2 4) 2 4 = 0x1F) ∧
    (rdI (sPart psSuspended 4 2 0) (bHub 0) F.HUB_PLYPART_PART 2 = 0x1F ∧ rdI (sPart psSuspended 4 2 0) (bHub 0) F.HUB_PLYCTL_STATE 2 = plyIdle) ∧
    (rdI (sPart psSuspended 6 2 0) bHostport F.HOSTPORT_WINCTL_PART 2 = 0x1F ∧ rdI (sPart psSuspended 6 2 0) bHostport F.HOSTPORT_WINCTL_EN 2 = 0) := by decide +kernel

/-- Resources that partition 2 holds, for PRELEASE. -/
theorem witness_Partitions_release :
    (let s := put' (sPart psSuspended 0 0 0) [(bLoom 0, F.OWNER_PART, 2)]
     rd s (bLoom 0) F.OWNER_PART = 2 ∧ rdB s (bLoom 0) F.STATE_RESETTING = false ∧ s.boot.seen.contains (bLoom 0) = true ∧ custMay s 0x15 = true) ∧
    resOf (sPart psSuspended 8 0 0) 2 8 0 0 = none ∧ resOf (sPart psSuspended 0 0 0) 2 0 0 0 = some false ∧
    (let s := { sPart psSuspended 5 1 0 with mem := { MemSt.reset with regions := [(1, ⟨0, 1, 2, 3, 0, true, false⟩)] } }
     (region s 1).valid = true ∧ (region s 1).part = 2 ∧ tabGet 0 s.mem.rstate 1 ≠ 1 ∧ s.cust.noEntropy = false) ∧
    (sPart psSuspended 0 0 0).cust.releasing = [] := by decide +kernel

theorem witness_Partitions_quiet : quiet (sPart psSuspended 0 0 0) := quiet_of _ (by decide) (by decide)

/-- A suspended partition that holds nothing. -/
theorem witness_Partitions_destroy : resAll (sPart psSuspended 0 0 0) 2 = [] := by decide +kernel

/-! ## Reset and bring-up, Lamplighter -/

/-- A bring-up, or a compute-partition reset, whose steps below `k` have ended. -/
def sBoot (cpr : Bool) (k : Nat) : State :=
  let s := up []
  { s with boot := { s.boot with active := true, cpr := cpr, ended := (List.range (k - 1)).map (· + 1) } }

theorem witness_Bringup :
    ([1, 2, 3, 4, 5, 6, 7, 8, 9, 10] : List Nat).all (fun k => (sBoot false k).boot.active && decide (k ∉ (sBoot false k).boot.ended)
      && (k == 1 || (sBoot false k).boot.ended.contains (stepAfter k))) = true ∧
    ([2, 3, 4, 5, 6] : List Nat).all (fun k => (sBoot true k).boot.ended.contains (k - 1)) = true ∧
    (sBoot true 6).boot.ended = [1, 2, 3, 4, 5] ∧ ((sBoot true 6).boot.kept.map (·.1)).Nodup ∧ (sBoot false 1).ll.rungs = [] ∧
    (sLt.pw.enCmp = true ∧ sLt.decisions = []) ∧ State.reset.pw.enCmp = false := by decide +kernel

/-- Lamplighter READY with the blocks of `bs`. -/
def sLl (bs : List Nat) : State := up (bLamplighter :: bs)

theorem witness_ResetLadder :
    rdB State.reset bLamplighter F.STATE_READY = false ∧
    (rdB (sLl [bTimer, bBeat]) bLamplighter F.STATE_READY = true ∧ (sLl [bTimer, bBeat]).ll.absent = false ∧ (sLl [bTimer, bBeat]).boot.seen.contains bTimer = true ∧
      rdB (sLl [bTimer, bBeat]) bTimer F.STATE_RESETTING = false ∧ (sLl [bTimer, bBeat]).ll.rungs = [] ∧ kindOf bTimer = some .timer) ∧
    beatState (put' (sLl [bBeat]) [(bBeat, F.BEAT_STATUS_STATE, stFaulted)]) = stFaulted ∧
    (rungDomain (bHbmc 1) ≠ [] ∧ (([(bHbmc 1, 0), (bHbmc 1, 0), (bHbmc 1, 0)] : List (Nat × Nat)).filter (fun e => e.1 == bHbmc 1 && decide (0 < e.2 + 1000000000))).length = 3) ∧
    ((sh (sLl [bShuttle 2, bShuttle 3]) 2).failed = false ∧ (sh (sLl [bShuttle 2, bShuttle 3]) (sibling 2)).failed = false) ∧
    (sh (modSh (sLl [bShuttle 2]) (sibling 2) (fun x => { x with failed := true })) (sibling 2)).failed = true ∧
    kindOf bSeam = some .seam ∧
    (let s := modLt (modLl (sLl [bTimer]) (fun x => { x with rungs := [⟨1, bTimer, [bTimer], 0x8001, 0⟩] })) (fun t => { t with lt := 100000 })
     s.ll.rungs = [⟨1, bTimer, [bTimer], 0x8001, 0⟩] ∧ rungLimit 1 ≤ ltNow s) := by decide +kernel

theorem witness_ResetLadder_quiet : quiet (sLl [bTimer, bBeat]) := quiet_of _ (by decide) (by decide)

/-- An image of loom 0, written whole or not. -/
def snapOf (done : Bool) : SnapImg := ⟨0, 2, false, [], Loom.reset, [0], [], [], 0, done⟩

/-- Loom 0 is darned, its image loaded or not; site 16 stands in. -/
def sDarn (loaded : Bool) : State :=
  modLl (sLl [bLoom 0, bBeat, bHub 0]) (fun x => { x with darn := some ⟨0, 0, 16, none, 0, 0x0101, snapOf true, Loom.reset, loaded⟩ })

/-- A snapshot of loom 0 is being written, with the logs on; all of HBM is the device's. -/
def sSnap : State :=
  let s := modLl (put' (sLl [bLoom 0, bBeat, bHub 0, bHbmc 0, bHbmc 1, bHbmc 2, bHbmc 3]) [(bLamplighter, F.LL_LOGSIZE_SIZE, 1)])
    (fun x => { x with snaps := [(0, some (snapOf false))], snapSeq := [(0, 2)] })
  modSh { s with mem := { s.mem with regions := [(0, ⟨0, 23040, 0x1F, 0, 0, true, false⟩)], keys := [(0, 9)] } } (loomShuttle 0) (fun x => { x with job := some (.snap 0) })

theorem witness_Darning :
    (rdB (sLl [bLoom 0]) bLamplighter F.STATE_READY = true ∧ loomCause 0x0101 = true ∧ (sLl [bLoom 0]).ll.darn = none ∧ snapLatest (sLl [bLoom 0]) 0 = none) ∧
    ((sDarn false).ll.darn = some ⟨0, 0, 16, none, 0, 0x0101, snapOf true, Loom.reset, false⟩ ∧ (hub (sDarn false) (loomRow 0).1).mapping.contains (loomRow 0).2.1 = false ∧
      (sDarn false).ll.heldLooms = []) ∧
    (Loom.reset.phase ≠ .integrate ∧ Loom.reset.streams = [] ∧ beatState (sDarn true) ≠ stHeld) ∧
    (tabGet 0 sSnap.ll.snapSeq 0 % 2 = 0 ∧ snapImg sSnap 0 0 = some (snapOf false) ∧ (snapOf false).seq = tabGet 0 sSnap.ll.snapSeq 0 ∧ sSnap.mem.poison = [] ∧
      sSnap.mem.marks = [] ∧ shJobAt sSnap 0 (.snap 0) = some (loomShuttle 0) ∧ (loom sSnap 0).phase ≠ .opening ∧ regionKey sSnap 0 ≠ 0 ∧
      ((snapOf false).nmap ++ (snapOf false).smap ++ (snapOf false).xmap).all (· < 2048) = true) ∧
    (let s := modSh (modLoom sSnap 0 (fun m => { m with logBuf := [1, 2] })) (loomShuttle 0) (fun x => { x with job := some (.log 0) })
     min 64 (loom s 0).logBuf.length = 2 ∧ logOn s = true ∧ logKept s 0 + 2 ≤ logWords s ∧ logPending s 0 = true ∧ (shJobAt s 0 (.log 0)).isSome = true ∧
      memUp s (logAddr s 0 0) 8 = true ∧ memUp s (logAddr s 0 1) 8 = true) ∧
    (shJobAt (sLl [bLoom 0]) 0 (.snap 0) = none ∧ memUp (sLl [bLoom 0]) 0 0x200000 = false) ∧
    (let s := modLt (sDarn true) (fun t => { t with lt := 10000000000000 })
     10 * 0 + darnBoundOf s 0 Loom.reset (rd s bLamplighter F.LL_SNAPBEATS_BEATS) + 10000000 ≤ 10 * ltNow s) := by decide +kernel

/-- A spare site that the policy allows stands in for loom 0 of a row map without its isolated site. -/
theorem witness_Darning_standIn :
    let s := modLl (put' (sLl [bLoom 0, bBeat, bHub 0]) [(bLamplighter, F.LL_LOGSIZE_SIZE, 1), (bLamplighter, F.LL_POLICY_DARNCLASS, 1)])
      (fun x => { x with snaps := [(0, some (snapOf true))], snapSeq := [(0, 2)] })
    let v := holdWrite (watchesDrop (isolate s 0) 0) true
    snapLatest v 0 = some (snapOf true) ∧ logOn v = true ∧ standIn v 0 = some (16, none) ∧
    mapOk v (loomRow 0).1 (loomRow 0).2.1 (listSet (rowMapOf v (loomRow 0).1 (loomRow 0).2.1) 0 16) = true ∧
    (∀ x ∈ rowMapOf v (loomRow 0).1 (loomRow 0).2.1, x < 32) ∧ (rowMapOf v (loomRow 0).1 (loomRow 0).2.1).length = 16 := by decide +kernel

def sDump (pages : List Nat) : State := modLl (sLl [bTimer]) (fun x => { x with dump := some ⟨pages, 0, false, 0, 0, 0, none⟩ })

theorem witness_Lamplighter :
    ((sLl []).ll.lost = false ∧ (sOpen .integrate).beat.isOpen = true ∧ beatState (sOpen .integrate) = stRunning) ∧
    (F.LL_CTL_FAULTCLR.off = 0x044 ∧ performed (sLl []) (.custody .lantern) bLamplighter F.LL_CTL_FAULTCLR.off true (fldSet F.LL_CTL_FAULTCLR 0 1) = true ∧
      faultRemains (sLl []) = false ∧ faultRemains (modLl (sLl []) (fun x => { x with absent := true })) = true) ∧
    (performed (sLl []) (.custody .lantern) bLamplighter F.LL_CTL_DUMP.off true (fldSet F.LL_CTL_DUMP 0 1) = true ∧ (sLl []).ll.dump = none ∧ (sLl []).ll.absent = false) ∧
    ((sDump [bTimer, bLtime]).ll.dump = some ⟨[bTimer, bLtime], 0, false, 0, 0, 0, none⟩ ∧ 0 + 4 ≤ dumpRoom) ∧
    ((sLl []).ll.lanternGone = false ∧ rdB (sLl []) bLamplighter F.STATE_READY = true ∧ rdB (sLl []) bLamplighter F.LL_STAT_DMEXPIRED = false) ∧
    (fieldPerformed (sLl []) (.custody .lantern) bLamplighter F.LL_CKPTCTL_GO 1 = true ∧
      fldGet F.LL_CKPTCTL_ERR (withField (sLl []) (.custody .lantern) bLamplighter F.LL_CKPTCTL_GO 1) = 0 ∧ (sLl []).ll.ckpt = none ∧ (sLl []).ll.ckptLt = 0 ∧
      ckptLooms (sLl []) = []) ∧
    rd (put' (sLl []) [(bLamplighter, F.LL_CKPTAUTO_S, 9)]) bLamplighter F.LL_CKPTAUTO_S = 9 ∧
    (modLl (sLl []) (fun x => { x with ckpt := some ⟨0, some ⟨0, [], [], false, 0⟩⟩ })).ll.ckpt = some ⟨0, some ⟨0, [], [], false, 0⟩⟩ := by decide +kernel

/-! ## Power and supplies -/

/-- POWER READY in sleep state `st` and phase `ph`, towards `target`. -/
def sPower (st ph target : Nat) : State :=
  let s := put' (up [bPower, bApc, bBeat]) [(bPower, F.POWER_STAT_STATE, st), (bPower, F.POWER_STAT_PHASE, ph), (bPower, F.POWER_WAKEEN_EN, 0x7F)]
  { s with pw := { s.pw with target := target } }

theorem witness_Sleep :
    ([1, 2, 3] : List Nat).all (fun n => performed (sPower 0 phSteady 0) (.custody .lantern) bPower F.POWER_SLEEP_TARGET.off true (BitVec.ofNat 32 n)) = true ∧
    (sleepState (sPower 0 phSteady 0) = 0 ∧ sleepPhase (sPower 0 phSteady 0) = phSteady ∧ (sPower 0 phSteady 0).pw.railFault = false ∧ beatState (sPower 0 phSteady 0) = stIdle) ∧
    (performed (sPower 0 phSteady 0) .device bApc F.APC_PWRREQ_SLEEP.off true (fldSet F.APC_PWRREQ_SLEEP 0 2) = true ∧ rd (sPower 0 phSteady 0) bPower F.CONTROL_FREEZE = 0 ∧
      fldGet F.APC_PWRREQ_FREEZE (fldSet F.APC_PWRREQ_SLEEP 0 2) = 0 ∧ modePend (sPower 0 phSteady 0) bPower = false) ∧
    performed (sPower 0 phSteady 0) .device bApc F.APC_PWRBUDGET_W.off true 500 = true ∧
    performed (sPower 1 phSteady 0) (.custody .lantern) bPower F.POWER_SLEEP_TARGET.off true 0 = true ∧
    (sleepPhase (sPower 0 phEnter 2) = phEnter ∧ snapsOpen (sPower 0 phEnter 2) = false ∧ (sPower 0 phEnter 2).pw.target = 2) ∧
    (sleepState (sPower 2 phSteady 0) = 2 ∧ bit (rd (sPower 2 phSteady 0) bPower F.POWER_WAKEEN_EN) 4 = true) ∧
    (let s := modLt (put' (sPower 2 phSteady 0) [(bPower, F.POWER_WAKEAT_LO_LT, 5)]) (fun t => { t with lt := 9 })
     rdPair s bPower F.POWER_WAKEAT_LO_LT F.POWER_WAKEAT_HI_LT = 5) ∧
    (sleepPhase (sPower 2 phExit 0) = phExit ∧ (sPower 2 phExit 0).ll.snaps = []) := by decide +kernel

theorem witness_Sleep_quiet : quiet (sPower 0 phEnter 2) := quiet_of _ (by decide) (by decide)

theorem witness_PowerProtection :
    (let s := put' (up [bPower]) [(bPower, F.POWER_PLEVEL_P, 3)]
     (rd s bPower F.POWER_PLEVEL_P, rd s bPower F.POWER_PLEVEL_W) ≠ s.pw.level ∧ s.beat.isOpen = false) ∧
    ((List.replicate 54 (70 : Int)).length = 54 ∧ (List.replicate 54 (70 : Int))[0]? = some 70 ∧ ∀ x ∈ List.replicate 54 (70 : Int), x ≤ 70) ∧
    ((up [bPower]).pw.tripped = false ∧ (up [bPower]).pw.enHbm = true ∧ (up [bPower]).pw.rc = false ∧ rdB (up [bPower]) bPower F.POWER_STAT_THROTTLE = false) ∧
    ((sBoot false 5).boot.active = true ∧ 4 ∈ (sBoot false 5).boot.ended ∧ 5 ∉ (sBoot false 5).boot.ended) := by decide +kernel

/-! ## Further clauses -/

/-- LTIME_STEP, and LT, as aligned pairs. -/
theorem witness_RegisterAccesses_pairs :
    (F.LTIME_STEP_LO_STEP.off % 8 = 0 ∧ performed sLt .device bLtime F.LTIME_STEP_LO_STEP.off true 5 = true ∧
      performed (put (windowClose sLt) .device .main bLtime F.LTIME_STEP_LO_STEP.off 5) .device bLtime (F.LTIME_STEP_LO_STEP.off + 4) true 6 = true) ∧
    performed (get (windowClose sLt) .device .main bLtime F.LTIME_NOW_LO_LT.off).2 .device bLtime (F.LTIME_NOW_LO_LT.off + 4) false 0 = true ∧
    tagged .device = true := by decide +kernel

/-- An offset that is not aligned; a block behind a link that is down; a slot of another requester. -/
theorem witness_RefusedAccesses_others :
    (gateError (windowClose sLt) bLtime 0x42 true = true ∧ slotRefuses sLt .device bLtime 0x42 = false ∧ lampRefuses sLt .device bLtime 0x42 true = false) ∧
    selvCut (modHub (up [bLoom 0]) (loomHub 0) (fun x => { x with selvDown := true })) (bLoom 0) = true ∧
    slotRefuses (modSlot (up [bBeat]) 0 (fun g => { g with owner := some 3 })) .device bBeat F.BEAT_TGMID_BLOCK.off = true := by decide +kernel

/-- A transaction of LTIME that stages LTIME_PPSOFF 7, which its commit applies. -/
def sLtStaged : State := setCtl sLtOpen bLtime { BlockCtl.reset with staged := [⟨stKey F.LTIME_PPSOFF_NS.off 0, 0xFFFFFFFF, 7⟩] }

theorem witness_Transactions_applied :
    fieldPerformed sLtStaged .device bLtime F.TXN_OP 2 = true ∧ rd sLtStaged bLtime F.TXN_TSTATE = tsOpen ∧ rd sLtStaged bLtime F.TXN_OPENER = tagOf .device ∧
    commitCheck (windowClose sLtStaged) bLtime false = true ∧ kindOf bLtime = some .ltime ∧ ((ctl sLtStaged bLtime).staged.map (fun w => w.key)).Nodup ∧
    (ctl sLtStaged bLtime).staged.all (fun w => decide (w.key < 4096 * 65536) && w.key / 65536 != F.TXN_OP.off
      && w.mask &&& (waitBits bLtime (w.key / 65536) ||| modeBits (w.key / 65536)) == 0) = true := by decide +kernel

theorem witness_ResetsAndModes_release :
    let s := { sLtResetting with cust := { sLtResetting.cust with releasing := [bLtime] } }
    rdB s bLtime F.STATE_RESETTING = true ∧ readyOk s bLtime = true ∧ s.cust.releasing.contains bLtime = true ∧ rdB sLt bLtime F.STATE_RESETTING = false ∧
    sLt.ll.rungs = [] ∧ sLt.cust.releasing.contains bLtime = false := by decide +kernel

/-- A group of two members, the first of which answers; and one whose member's commit is refused. -/
theorem witness_GroupSlots_others :
    (let s := modSlot sSlotPrep 0 (fun g => { g with count := 2, members := [(0, bLtime), (1, bBeat)] })
     allAccepted (modSlot s 0 (fun x => { x with accepted := x.accepted ++ [bLtime] })) 0 = false ∧ commitCheck s bLtime true = true) ∧
    (let s := modSlot (setCtl (put' (sSlot .preparing) [(bLamplighter, F.TXN_TSTATE, tsPending)]) bLamplighter
       { BlockCtl.reset with staged := [⟨stKey F.LL_SNAPBEATS_BEATS.off 0, 0xFFFFFFFF, 65⟩] }) 0 (fun g => { g with members := [(0, bLamplighter)] })
     (slot s 0).state = .preparing ∧ (slot s 0).window = false ∧ bLamplighter ∈ (slot s 0).blocks ∧ bLamplighter ∉ (slot s 0).accepted ∧
      slotHead s 0 < 32 ∧ commitCheck s bLamplighter true = false) := by decide +kernel

/-- Hart 0 in VS-mode, with partition 2 in its APC_VMPART, at a loom of that partition. -/
theorem witness_VmpartAndTick_harts :
    (let s := setPartState (put' (up [bApc, bLoom 0]) [(bApc, F.APC_VMPART_PART, 2), (bApc, F.APC_VMPART_VALID, 1), (bLoom 0, F.OWNER_PART, 2)]) 2 psActive
     fldGet F.APC_VMPART_VALID (regGet s bApc F.APC_VMPART_PART.off 0) = 1 ∧ performed s (.part 2) (bLoom 0) F.FAULTMASK_MASK.off true 5 = true ∧
      (BitVec.ofNat 4 (fldGet F.APC_VMPART_PART (regGet s bApc F.APC_VMPART_PART.off 0))).toFin = 2) ∧
    (fldGet F.APC_VMPART_VALID (regGet sLt bApc F.APC_VMPART_PART.off 0) = 0 ∧ selvCut sLt bLtime = false ∧
      gateError (windowClose sLt) bLtime F.FAULTMASK_MASK.off true = false) ∧
    performed sLt .device bLtime F.FAULTMASK_MASK.off true 5 = true := by decide +kernel

/-- Loom 0's sequencer with what stands in the way of its accesses: a store of its own that waits, words that cannot be corrected, a bank that moves. -/
def seqStuck (s : State) : State := modLoom s 0 (fun m => { m with held := [⟨some true, 0x80000, [1]⟩] })
def seqUes (s : State) : State := modLoom s 0 (fun m => { m with xErr2 := [0x20] })

theorem witness_SequencerMemory_others :
    let w := kWord 0x14 5 6 0
    let v := pWord 0x1A 7 6 0
    (seqAt (seqStuck (seqG w 6 0x100)) 0 w = true ∧ ownStoreHeld (seqStuck (seqG w 6 0x100)) 0 = true) ∧
    (seqAt (seqUes (seqG w 6 0x100)) 0 w = true ∧ seqMay (seqUes (seqG w 6 0x100)) 0 0x100 4 = true ∧ scrBroken (seqUes (seqG w 6 0x100)) 0 0x100 4 = true) ∧
    (seqAt (seqStuck (seqG v 6 0x100)) 0 v = true ∧ ownStoreHeld (seqStuck (seqG v 6 0x100)) 0 = true) ∧
    (let s := modLoom (seqG v 6 0x80000) 0 (fun m => { m with phase := .settle })
     seqAt s 0 v = true ∧ storeHeld (loom s 0) 0x80000 = true) ∧
    (storeHeld (loom (seqG v 6 0x80000) 0) 0x80000 = false ∧ storeHeld (loom (seqG v 6 0x100000) 0) 0x100000 = false ∧
      ([] : List Nat).any (fun x => decide ((0x80000 - 0x80000) / 8 ≤ x)) = false) := by decide +kernel

theorem witness_SequencerSharedAccesses_others :
    let w := tWord 0x1C 5 6 7 0
    (([0x49, 0x80000, 0x70000] : List W64).all (fun a => seqAt (seqG w 6 a) 0 w) = true) ∧ (owner (seqG w 6 0x70000) 0 7 ≠ ownSeq ∧ owner (seqG w 6 0x70000) 0 7 ≠ ownShared) ∧
    (seqAt (seqStuck (seqS w)) 0 w = true ∧ ownStoreHeld (seqStuck (seqS w)) 0 = true ∧ ownStoreHeld (seqS w) 0 = false) := by decide +kernel

/-- The activation of `hookAct` works on slot 1 while bank 7, the neuron engine's, moves; the batten is at work with its queue empty, or full. -/
theorem witness_SequencerEngineUnits_others :
    let w := tWord 0x30 0 6 7 0
    let s := modLoom (seqHook w 1 9) 0 (fun m => { m with moving := [7], lat := { m.lat with accBase := 0x70000 } })
    let d := tWord 0x31 5 6 0 0
    let b := fun (q : List Nat) => modLoom (seqDop d) 0 (fun m => { m with bOp := some (1, true), bQueue := q })
    (seqAt s 0 w = true ∧ neuronHeld s 0 = true ∧ neuronHeld (seqHook w 1 9) 0 = false) ∧ (loom (seqHook w 1 9) 0).contrib + 1 < 2 ^ 32 ∧
    scrBroken (seqHook w 1 9) 0 ((loom (seqHook w 1 9) 0).lat.accBase + 8) 8 = false ∧
    (seqAt (b []) 0 d = true ∧ seqAt (b [1, 1, 1, 1]) 0 d = true) ∧
    (seqAt (put' (seqS (tWord 0x31 0 0 0 1)) [(bLoom 0, F.LOOM_BSTAT_BUSY, 1)]) 0 (tWord 0x31 0 0 0 1) = true) := by decide +kernel

/-- Eight tickets of loom 0, ended or not. -/
def seqFull (c : Option Nat) : State :=
  modSh (seqG (tWord 0x32 5 6 0 0) 6 0x40) (loomShuttle 0) (fun x => { x with queue := (List.range 8).map (fun n => ⟨n, 0, 0, .fetch 0x100, c, false⟩) })

theorem witness_SequencerShuttle_others :
    let w := tWord 0x32 5 6 0 0
    (let s := modLoom (put' (seqG w 6 0x10040) [(bLoom 0, F.LOOM_BANKOWN_OWNER1, ownSeq)]) 0 (fun m => { m with moving := [1] })
     seqAt s 0 w = true ∧ scrHeld s 0 0x10040 64 = true ∧ (owner s 0 1 = ownSeq ∨ owner s 0 1 = ownShared)) ∧
    (let s := modLoom (seqG w 6 0x40) 0 (fun m => { m with xErr2 := [8] })
     seqAt s 0 w = true ∧ seqMay s 0 0x40 64 = true ∧ scrBroken s 0 0x40 64 = true) ∧
    (seqAt (seqFull (some scOk)) 0 w = true ∧ (shOutstanding (seqFull (some scOk)) 0).length = 8 ∧
      (shOutstanding (seqFull (some scOk)) 0).all (fun e => e.code != none) = true) ∧
    (seqAt (seqFull none) 0 w = true ∧ (shOutstanding (seqFull none) 0).any (fun e => e.code == none) = true) := by decide +kernel

theorem witness_SequencerChannels_others :
    let w := tWord 0x33 5 6 7 0
    (seqAt (modLoom (seqChan w) 0 (fun m => { m with xErr2 := [9] })) 0 w = true ∧ scrBroken (modLoom (seqChan w) 0 (fun m => { m with xErr2 := [9] })) 0 0x48 8 = true ∧
      seqMay (modLoom (seqChan w) 0 (fun m => { m with xErr2 := [9] })) 0 0x48 8 = true) ∧
    seqAt (modSeq (seqChan w) 0 (fun q => gWrite q 7 0x49)) 0 w = true ∧
    (let d := tWord 0x33 5 6 0 3
     let s := modLoom (seqChan d) 0 (fun m => { m with ch := [(2, { ChEnd.reset with ring := [⟨0, 1, 0, 1, false, false, 0⟩] })] })
     seqAt s 0 d = true ∧ doneEntry s 0 5 = some 2 ∧ ringHeld s 0 2 = false) := by decide +kernel

/-- What keeps a loom from the next phase of its beat. -/
theorem witness_LoomBeat_others :
    (rdB (up [bLoom 0]) (bLoom 0) F.CONTROL_ENABLE = false) ∧
    (neuronHeld (sOpen .opening) 0 = false ∧ spillBusy (sLoom .opening) 0 = false) ∧
    (let s := modLoom (sLoom .close) 0 (fun m => { m with moving := [0], lat := { m.lat with nslots := 2 } })
     neuronHeld s 0 = true ∧ (loom s 0).phase = .close ∧ (loom s 0).beat = 3) ∧
    (neuronHeld (sLoom .close) 0 = false ∧ netifHeld (sLoom .close) 0 = false ∧ netifHeld (sLoom .emit) 0 = false ∧ isolated (sLoom .emit) 0 = false) ∧
    rdB (put' (sLoom .close) [(bLoom 0, F.LOOM_TSNAPCTL_BUSY, 1)]) (bLoom 0) F.LOOM_TSNAPCTL_BUSY = true ∧
    ((loom (sLoom .settle) 0).slotsDone = false ∧ (sh (sLoom .settle) (loomShuttle 0)).wait = none ∧ (sh (sLoom .settle) (sibling (loomShuttle 0))).wait = none) ∧
    (let s := modLoom (sLoom .settle) 0 (fun m => { m with bSettle := true })
     (loom s 0).slotsDone = false ∧ (loom s 0).bSettle = true) ∧
    (let s := setHbmTx (modLoom (sLoom .opening) 0 (fun m => { m with spillDue := true })) (bLoom 0) 0 ⟨1, [⟨0, true, 0x100, 4, [], true⟩], []⟩
     spillBusy s 0 = true) := by decide +kernel

theorem witness_RoutesAndRowCache_others :
    (isolated (wrI (sRoute none) (bHub 0) F.HUB_ROWISO_ISO 0 1) 0 = true ∧ isolated (sRoute none) 0 = false ∧ rd (sRoute none) (bLoom 0) F.OWNER_PART = 0x1F) ∧
    (∃ w ∈ (loom (sRoute none) 0).dirWait, w.pop = 5 ∧ w.addr = none) ∧ ((loom (sRoute none) 0).routes.length < 64 ∧ (loom (sRoute none) 0).lat.segs = []) ∧
    (let s := modLoom sLine 0 (fun m => { m with fills := [], deadFills := [9] })
     9 ∈ (loom s 0).deadFills ∧ neuronHeld s 0 = false) ∧
    (let s := modLoom sLine 0 (fun m => { m with moving := [0], lat := { m.lat with nslots := 2 } })
     neuronHeld s 0 = true) ∧ (neuronHeld sLine 0 = false ∧ 8 ∉ (loom sLine 0).fills ∧ 8 ∉ (loom sLine 0).deadFills) := by decide +kernel

theorem witness_LoomControl_operands :
    let s := modLoom (wrI (up [bLoom 0]) (bLoom 0) F.LOOM_DOPDATA0_BIASEN 1 1) 0 (fun m => { m with bOp := some (1, true) })
    let t := modLoom s 0 (fun m => { m with xErr2 := [0] })
    (operandsRead 0 (runReads s 0 (dop s 0 1)) s).1 = true ∧
    ((operandsRead 0 (runReads t 0 (dop t 0 1)) t).1 = false ∧ (loom t 0).bOp = some (1, true) ∧ (loom t 0).bSettle = false ∧ (loom t 0).bFold = false ∧
      (loom t 0).bQueue = []) := by decide +kernel

theorem witness_ScratchBanks_others :
    (let s := modLoom sDrain 0 (fun m => { m with drains := [(3, ⟨true, []⟩)], bOp := some (1, true) })
     (loom s 0).drains.find? (fun e => e.1 = 3) = some (3, ⟨true, []⟩) ∧ (loom s 0).bOp ≠ none) ∧
    (rdB sTest (bLoom 0) F.STATE_READY = true ∧ (loom sTest 0).bFold = false) ∧
    (3 ∉ (loom sTest 0).moving ∧ spareGone (put' sTest [(bLoom 0, F.LOOM_BANKSTAT_SPAREBAD, 1)]) 0 = true) ∧
    (∃ w ∈ (loom (modLoom sMove 0 (fun m => { m with xErr2 := [3 * 8192] })) 0).xErr2, w / 8192 = 3) := by decide +kernel

/-- ARM of a stopped engine, too late and in time; an engine that holds, between beats. -/
theorem witness_BeatControl_others :
    (let s := modLt (sBeat stStopped 20000) (fun t => { t with lt := 1 })
     beatState s = stStopped ∧ rdPair s bBeat F.BEAT_LAUNCH_LO_T0 F.BEAT_LAUNCH_HI_T0 < ltNow s + 100000) ∧
    (beatState (sBeat stHeld 20000) = stHeld ∧ (sBeat stHeld 20000).beat.isOpen = false ∧ (sBeat stHeld 20000).beat.keptAborts = []) ∧
    (rd (put' (sBeat stArmed 20000) [(bBeat, F.BEAT_HOLD_HOLD, 1)]) bBeat F.BEAT_HOLD_HOLD = 1) ∧
    (ltNow (sBeat stArmed 20000) < (modBeat (sBeat stArmed 20000) (fun q => { q with t0 := 7 })).beat.t0 ∧ replayMode (sBeat stArmed 20000) = false) := by decide +kernel

/-- The last hub's sums agree, or differ. -/
theorem witness_BeatTallies_last :
    let s := modBeat sTally (fun q => { q with hubs := [], expSum := 5, delSum := 5 })
    (hubsDue s).all (fun k => k == 0) = true ∧ (s.beat.expSum + 2 = s.beat.delSum + 2 ∧ s.beat.expSum + 2 ≠ s.beat.delSum + 1) := by decide +kernel

/-- A loom in a retry drain, whose stream is at the epoch before. -/
theorem witness_Streams_drain :
    let s := modLoom (sStream (.fresh 2)) 0 (fun m => { m with drain := true })
    (loom s 0).drain = true ∧ (streamGet (loom s 0) (streamKey 0 7 2)).ep < (loom s 0).beat ∧ streamHeld s 0 = false ∧ isolated s 0 = false := by decide +kernel

theorem witness_Repicks_others :
    (repickDue (sMarker 0) 4000000000 = false ∧ repickDue (sMarker 2) (streamGet (loom (sMarker 2) 0) (streamKey 0 7 2)).asked0 = true ∧
      beatState (put' (sMarker 2) [(bBeat, F.BEAT_STATUS_STATE, stHeld)]) = stHeld) ∧
    (netifHeld (sRet true) 0 = false ∧ isolated (sRet true) 0 = false ∧ rd (sRet true) (bLoom 0) F.OWNER_PART = 0x1F) ∧
    (let s := modLoom (sRet true) 0 (fun m => { m with moving := [0, 1, 2, 3, 4, 5, 6, 7] })
     netifHeld s 0 = true) ∧
    isolated (wrI (sRet true) (bHub 0) F.HUB_ROWISO_ISO 0 1) 0 = true ∧
    (let s := modLoom (sRet true) 0 (fun m => { m with drain := true })
     (loom s 0).drain = true ∧ 2 = ((loom s 0).beat + 65535) % 65536) ∧
    ((5 + 65536 - (3 + 1) % 65536) % 65536 < 32768 ∧ ¬ (2 + 65536 - (3 + 1) % 65536) % 65536 < 32768) := by decide +kernel

/-- A header of partition 0x1F from endpoint 7 with the hop codes `hops`, of which HEND is `e`; and its one flit on channel 0. -/
def exHead (hops e xsel : Nat) : Nat := headFlit ⟨hops, e, 7, 0, 2, 0x1F, 0, false, 1, 0, xsel⟩
def exFlit (h : Nat) (off : Nat) : LinkFlit :=
  let x := flit h 0 tyOnly false 0
  (BitVec.ofNat 256 x, BitVec.ofNat 26 ((x + off * 2 ^ 261) / 2 ^ 256))

/-- A sound flit and one whose CRC is wrong; LOCAL at a site, at an isolated one and where there is none; steps over the mesh and off it. -/
theorem witness_FabricAndRowMaps_router :
    ((exFlit (exHead 4 1 0) 0).valid = true ∧ (exFlit (exHead 4 1 0) 0).ok = true ∧ (exFlit (exHead 4 1 0) 1).ok = false ∧
      (transitOf [exFlit (exHead 4 1 0) 0] false).map (fun k => (hdrHptr k.head, hdrHend k.head, hopCode k.head 0)) = some (0, 1, 4) ∧
      classMax 0 (hdrClass (exHead 4 1 0)) = some 4 ∧ hdrFlits (exHead 4 1 0) = 1 ∧ classMax 0 2 = none) ∧
    sHub.cuts = [] ∧ (meshOf sHub 0 3 = some (meshCol 3 3) ∧ meshOf sHub 0 5 = none ∧ isolated sHub 3 = false ∧ isolated sHub 4 = true) ∧
    (meshOf sHub 0 0 = some 0 ∧ meshOf sHub 0 15 = some 15 ∧ meshOf sHub 0 16 ≠ none ∧ meshOf sHub 0 31 ≠ none) ∧
    ((hdrXsel (exHead 0 1 3) = 3 ∧ hdrXsel (exHead 0 1 9) = 9)) ∧ hopCode (exHead 5 2 0) 0 = 5 := by decide +kernel

/-- A queue that is not armed, another loom's turn, a full round, and a round before its last contribution. -/
theorem witness_PlyHub_others :
    (rdI sPly (bHub 0) F.HUB_PLYCTL_STATE 2 = plyArmed ∧ plySlots sPly 0 < 1024 ∧ rdI sPly (bHub 0) F.HUB_PLYPART_PART 2 ≠ 4) ∧
    (let s := setPlyQ sPly 0 2 ⟨(List.range 1024).map (fun i => ⟨i + 1, 0⟩), [], []⟩
     plySlots s 0 = 1024 ∧ (plyQ s 0 2).srcs.any (fun c => c.loom = 0) = false) ∧
    (((plyQ sPly 0 2).srcs.find? (fun c => c.loom = 0)).map (·.next) = some 1 ∧ (plyQ sPly 0 2).rounds = [⟨0, 1, 5⟩]) := by decide +kernel

theorem witness_PlyLoom_others :
    (isolated sPlyWin 0 = false ∧ rd sPlyWin (bLoom 0) F.OWNER_PART = 0x1F ∧ isolated (wrI sPlyWin (bHub 0) F.HUB_ROWISO_ISO 0 1) 0 = true) ∧
    scrHeld sPlyWin 0 (plySlot 4 0x100 2) 8 = false ∧
    scrHeld (modLoom sPlyWin 0 (fun m => { m with moving := [0] })) 0 (plySlot 4 0x100 2) 8 = true ∧
    tabGet 0 (loom (modLoom sPlyWin 0 (fun m => { m with plyGot := [(plyKey 3 4, 1)] })) 0).plyGot (plyKey 3 4) = 1 := by decide +kernel

theorem witness_Channels_others :
    (isolated (sChan 1 id) 0 = false ∧ isolated (wrI (sChan 1 id) (bHub 0) F.HUB_ROWISO_ISO 0 1) 0 = true) ∧
    (ringHeld (sChan 1 id) 0 2 = false ∧ ringHeld (modLoom (sChan 1 id) 0 (fun m => { m with moving := [0] })) 0 2 = true) ∧
    (rdI (sChan 1 id) (bLoom 0) F.LOOM_CHDATA0_PKG 2 = 0 ∧ rdI (sChan 1 id) (bLoom 0) F.LOOM_CHDATA1_GEN 2 ≠ 2) ∧
    rdI (put' (sChan 1 id) [(bLoom 0, F.LOOM_CHSEL_INDEX, 3)]) (bLoom 0) F.LOOM_CHDATA0_VALID 3 = 0 := by decide +kernel

/-- Every window watch of hub 0 in use; a deadline that has passed; a lamp of 10 and a goal of 5. -/
theorem witness_Lamps_others :
    (let s := modHub sLamps 0 (fun x => { x with watches := (List.range 64).map (fun j => ⟨1536 + j, 3, 20, none, 0⟩) })
     (List.range 64).all (fun j => (hub s 0).watches.any (fun y => y.who == 1536 + j)) = true) ∧
    0 + 6 ≤ ltNow (modLt sLamps (fun t => { t with lt := 6 })) ∧ (2 ^ 64 ≤ 10 + (2 ^ 64 - 1) ∧ (5 : Nat) ≤ lampVal sLamps 0 3) := by decide +kernel

/-- The running FILL waits at a bank, or for the end of SETTLE. -/
theorem witness_Shuttles_held :
    let c : ShCtx := ⟨0, .page, 0x1F⟩
    let f : Shuttle → Shuttle := fun x => { x with run := some ⟨0, .page, dFill, none, 0x1F, none⟩ }
    let d : ShDesc := { dFill with dst := mkLocal 0 0x80000 }
    shHeld (modLoom (sSh f) 0 (fun m => { m with moving := [0] })) c dFill = true ∧ (shStoresHeld (sSh f) dFill = false ∧ (sh (sSh f) 0).wait = none) ∧
    (let s := modLoom (sSh f) 0 (fun m => { m with phase := .settle })
     shStoresHeld s d = true ∧ shHeld s c d = false ∧ (shTransfer s c d []).1.bytes ≠ 0) := by decide +kernel

/-- A loom has asked for a byte, and has written one of its spill region. -/
theorem witness_HbmRequests_looms :
    let s := setHbmTx (put' sHbm [(bLoom 0, F.STATE_READY, 1)]) (bLoom 0) 0 ⟨2, [⟨0, false, 0x100, 1, [], false⟩, ⟨1, true, 0x200, 1, [1], true⟩], []⟩
    (isolated s 0 = false ∧ rd s (bLoom 0) F.OWNER_PART = 0x1F ∧ isolated (wrI s (bHub 0) F.HUB_ROWISO_ISO 0 1) 0 = true) ∧
    ((hbmTx s (bLoom 0) 0).unans.find? (fun q => q.rseq = 0) = some ⟨0, false, 0x100, 1, [], false⟩ ∧
      (hbmTx s (bLoom 0) 0).unans.find? (fun q => q.rseq = 1) = some ⟨1, true, 0x200, 1, [1], true⟩ ∧ (hbmTx s (bLoom 0) 0).held = []) ∧
    (∀ q ∈ (hbmTx s (bLoom 0) 0).unans, q.rseq ≠ 5) ∧ (hbmBytes 0 = 0 ∨ 0x101 % hbmBytes 1 ≠ 0) := by decide +kernel

/-- Whole lines of the device's region under a key; a write of a wrong length; a line that the stack holds wrong. -/
theorem witness_HbmRequests_lines :
    (let s := { sHbm with mem := { sHbm.mem with keys := [(0, 9)] } }
     regionAt s 0x100 = some 0 ∧ regionKey s 0 ≠ 0 ∧ hbmBytes 4 = 128 ∧ hbmCheck s 0x1F 0x100 128 = hOk ∧ staleKey s 0x100 = false) ∧
    payloadOk true 8 [] = false ∧ payloadOk false 8 [] = true ∧ payloadOk true 8 (List.replicate 8 0) = true ∧
    (lineMark (memMarks sHbm []) 0x100 = .clean ∧ lineMark (memMarks sHbm [(0x100, .corrected)]) 0x100 = .corrected ∧
      lineMark (memMarks sHbm [(0x100, .badTag)]) 0x100 = .badTag ∧ lineMark (memMarks sHbm [(0x100, .uncorrectable)]) 0x100 = .uncorrectable) ∧
    (tabGet 0 sHbm.mem.resent 0 = 0 ∧ ltNow sHbm < (tabGet 0 { sHbm.mem with resent := [(9, 1)] }.resent 9) - 1 + 1000) := by decide +kernel

/-- A request of a function for a register across the link of hub 0 that is down, and for a pair. -/
theorem witness_HostPort_others :
    (let s := modHub sHost (loomHub 0) (fun x => { x with selvDown := true })
     selvCut s (bLoom 0) = true ∧ cpResetting s = false ∧ rdB s bHostport F.HOSTPORT_LINK_UP = true) ∧
    (let s := put' sHost [(bLtime, F.STATE_READY, 1)]
     let o := F.LTIME_STEP_LO_STEP.off
     viewOf (bLtime * 0x10000 + o) = some .main ∧ viewOf (bLtime * 0x10000 + o + 4) = some .main ∧ o % 8 = 0 ∧ performed s (funReq 0) bLtime o true 5 = true ∧
      performed (putMain (windowClose s) (funReq 0) bLtime o 5) (funReq 0) bLtime (o + 4) true 6 = true ∧ performed s (funReq 0) bLtime o false 0 = true ∧
      performed (readMain (windowClose s) (funReq 0) bLtime o).2 (funReq 0) bLtime (o + 4) false 0 = true) := by decide +kernel

/-- HELD while an ABORT comes; a mark for a later beat; a digest of a beat ahead. -/
theorem witness_GlimmerMarks_others :
    beatState (put' sMarks [(bBeat, F.BEAT_STATUS_STATE, stHeld)]) = stHeld ∧ sMarks.beat.n < markN (mkMark mkClosed 5 false 4) ∧
    32768 ≤ (3 + 65536 - 9) % 65536 ∧ (3 + 65536 - 0) % 65536 ≤ 64 ∧ glimPeer sMarks 0 ≠ 6 := by decide +kernel

theorem witness_ResetLadder_others :
    (let s := put' (sLl [bSeam]) [(bSeam, F.STATE_RESETTING, 1)]
     s.ll.rungs = [] ∧ rdB s bSeam F.STATE_RESETTING = true ∧ kindOf bSeam = some .seam) ∧
    ([0, 1, 2, 3] : List Nat).all (fun n => decide ((modLl (sLl [bHbmc 1]) (fun x => { x with rungs := [⟨n, bHbmc 1, [bHbmc 1], 0x8001, 0⟩] })).ll.rungs
      = [⟨n, bHbmc 1, [bHbmc 1], 0x8001, 0⟩]) && decide (rungLimit n ≤ 10 ^ 13)) = true := by decide +kernel

/-- A loom whose image is loaded and whose beat had ended; a buffer of the logs that is full. -/
theorem witness_Darning_others :
    (Loom.reset.phase ≠ .opening ∧ Loom.reset.phase ≠ .close ∧ (∀ y ∈ Loom.reset.dq, dqForget Loom.reset.beat y = y) ∧ Loom.reset.dqWaits = []) ∧
    (modLl (sLl [bLoom 0]) (fun x => { x with absent := true })).ll.absent = true ∧
    (sDarn true).ll.darn.isSome = true := by decide +kernel

/-- A checkpoint that meets the snapshot of a loom, one that waits for its own, and one that is refused. -/
theorem witness_Lamplighter_checkpoints :
    (let s := modLl (sLl []) (fun x => { x with ckptLt := 1 })
     ltNow s + 1 < s.ll.ckptLt + 100000000 ∧ s.ll.ckptLt ≠ 0) ∧
    (let s := put' (sLl [bLoom 0]) [(bLoom 0, F.LOOM_TSNAPCTL_BUSY, 1), (bLoom 0, F.LOOM_TCTL_CKPTEN, 1)]
     noBoundary s = true ∧ ckptLooms s = [0] ∧ rdB s (bLoom 0) F.LOOM_TSNAPCTL_BUSY = true) ∧
    ckptCopying (sLl []) = false := by decide +kernel

theorem witness_PowerProtection_others :
    let s := { up [bPower] with pw := { (up [bPower]).pw with tripped := true } }
    s.pw.tripped = true ∧ s.pw.wake = false ∧ (up [bPower]).pw.railFault = false := by decide +kernel

/-- In `sSnap` every byte of HBM is the device's and no line stands under a key that is gone. -/
theorem witness_Darning_snapshot (j n : Nat) (h : j + n ≤ 23040 * 2 ^ 21) (h' : 1 ≤ n) : hbmCheck sSnap 0x1E j n = hOk ∧ staleKey sSnap j = false ∧ regionAt sSnap j = some 0 := by
  have r0 : region sSnap 0 = ⟨0, 23040, 0x1F, 0, 0, true, false⟩ := by decide +kernel
  have l0 : List.range 64 = 0 :: (List.range 63).map (· + 1) := by decide +kernel
  have h0 : regionAt sSnap j = some 0 := by
    unfold regionAt
    rw [l0, List.find?_cons_of_pos]
    have hb : (region sSnap 0).covers j = (decide (0 ≤ j) && decide (j < 23040 * 2 ^ 21)) := by rw [r0]; simp [Region.covers]
    rw [hb]
    simp only [Bool.and_eq_true, decide_eq_true_eq]
    omega
  have s0 : tabGet 0 sSnap.mem.rstate 0 = 0 := by decide +kernel
  have k0 : keyOfLine sSnap j = none := by
    have h1 : sSnap.mem.lineKey = [] := by decide +kernel
    have h2 : sSnap.mem.wiped = [] := by decide +kernel
    simp [keyOfLine, h1, h2]
  refine ⟨?_, ?_, h0⟩
  · unfold hbmCheck
    rw [h0, if_neg (by unfold hbmSize; omega)]
    simp only [r0, Region.reach, s0]
    decide
  · unfold staleKey
    rw [h0, k0]

/-- Where no region lies, no line can be stale. -/
theorem witness_Darning_beyond (j : Nat) : staleKey sSnap j = false := by
  have h1 : sSnap.mem.lineKey = [] := by decide +kernel
  have h2 : sSnap.mem.wiped = [] := by decide +kernel
  have k0 : keyOfLine sSnap j = none := by simp [keyOfLine, h1, h2]
  unfold staleKey
  rw [k0]
  cases regionAt sSnap j <;> rfl

/-! ## Clauses that meet a block's copy of LT, and other clauses -/

/-- Whatever the copy lags by, it has passed what LT passed more than 6 ns ago, and it has not passed what LT has not. -/
theorem copy_passed {s : State} {b n : Nat} (x : Nat) (h : ltNow s = n) (h' : x + 6 ≤ n) : x ≤ ltAt s b := by
  have := ltNow_le_ltAt s b
  omega

theorem copy_before {s : State} {b n : Nat} (x : Nat) (h : ltNow s = n) (h' : n < x) : ltAt s b < x := by
  have := ltAt_le s b
  omega

/-- ARM in time and too late, the launch, OPEN at its moment, each by the engine's copy of LT. -/
theorem witness_BeatControl_copy :
    (let s := sBeat stStopped 20000
     rdPair s bBeat F.BEAT_LAUNCH_LO_T0 F.BEAT_LAUNCH_HI_T0 = 100000 ∧ beatLt s + 100000 ≤ 100000) ∧
    (let s := modLt (sBeat stStopped 20000) (fun t => { t with lt := 7 })
     rdPair s bBeat F.BEAT_LAUNCH_LO_T0 F.BEAT_LAUNCH_HI_T0 = 100000 ∧ 100000 < beatLt s + 100000) ∧
    (sBeat stArmed 20000).beat.t0 ≤ beatLt (sBeat stArmed 20000) ∧
    (let s := modBeat (sBeat stArmed 20000) (fun q => { q with t0 := 7 })
     beatLt s < s.beat.t0) ∧
    (let s := put' (sBeat stRunning 20000) [(bLoom 0, F.CONTROL_ENABLE, 1)]
     sched s 0 ≤ beatLt s) := by
  refine ⟨⟨by decide +kernel, ?_⟩, ⟨by decide +kernel, ?_⟩, ?_, ?_, ?_⟩
  · have := ltAt_le (sBeat stStopped 20000) bBeat
    have h0 : ltNow (sBeat stStopped 20000) = 0 := by decide
    unfold beatLt
    generalize ltAt (sBeat stStopped 20000) bBeat = y at *
    omega
  · have := copy_passed (b := bBeat) 1 (show ltNow (modLt (sBeat stStopped 20000) (fun t => { t with lt := 7 })) = 7 from rfl) (by decide)
    unfold beatLt
    generalize ltAt _ bBeat = y at *
    omega
  · exact Nat.le_trans (by decide : _ ≤ 0) (Nat.zero_le _)
  · exact copy_before 7 (by decide : _ = 0) (by decide)
  · exact Nat.le_trans (by decide +kernel : _ ≤ 0) (Nat.zero_le _)

/-- A channel that counts cycles of LT, due or not; STARTGO late, in time; its time reached. -/
def sTimLt (lt start : Nat) : State :=
  let s := put' (sTim 0 4) [(bTimer, F.TIMER_START_LO_LT, start), (bTimer, tf F.TIMER_CTL_CAPPIN 2, 5)]
  { s with tim := { s.tim with last := [(2, 10)] }, ltime := { LtimeSt.reset with lt := lt } }

theorem witness_Timers_copy :
    rdT (sTimLt 100 50) 2 F.TIMER_CTL_CLKSRC = 0 ∧ tabGet 0 (sTimLt 100 50).tim.last 2 + (rdT (sTimLt 100 50) 2 F.TIMER_PRESCALE_DIV : Int) + 1 = 11 ∧
    timCounts (sTimLt 100 50) 2 = true ∧ gateOpen (sTimLt 100 50) 0 2 = true ∧ (11 : Int) ≤ (ltAt (sTimLt 100 50) bTimer : Int) ∧
    ((ltAt (sTimLt 9 50) bTimer : Int) < 11) ∧
    timStartAt (sTimLt 100 50) < ltAt (sTimLt 100 50) bTimer ∧ ltAt (sTimLt 9 50) bTimer < timStartAt (sTimLt 9 50) ∧
    (rdT (sTimLt 100 50) 2 F.TIMER_CTL_CAPPIN = 5 ∧ rdT (sTimLt 100 50) 3 F.TIMER_CTL_CAPPIN ≠ 5) := by
  have h1 : ltNow (sTimLt 100 50) = 100 := by decide
  have h2 : ltNow (sTimLt 9 50) = 9 := by decide
  have a := copy_passed (b := bTimer) 51 h1 (by decide)
  have b := copy_before (b := bTimer) 10 h2 (by decide)
  have e1 : timStartAt (sTimLt 100 50) = 50 := by decide +kernel
  have e2 : timStartAt (sTimLt 9 50) = 50 := by decide +kernel
  refine ⟨by decide +kernel, by decide +kernel, by decide +kernel, by decide +kernel, by omega, by omega, by omega, by omega, by decide +kernel, by decide +kernel⟩

/-- A source that pulses (the crystal, or a pin that the channel does not drive): not yet PRESCALE + 1 cycles, a tick, and one that the gate
stops. -/
theorem witness_Timers_pulse :
    let s := put' (sTim 1 4) [(bTimer, tf F.TIMER_PRESCALE_DIV 2, 3)]
    let full := { s with tim := { s.tim with presc := [(2, 3)] } }
    (rdT s 2 F.TIMER_CTL_EN = 1 ∧ maskBit s F.TIMER_WAITING_WAIT 2 = false ∧ tabGet 0 s.tim.presc 2 < rdT s 2 F.TIMER_PRESCALE_DIV) ∧
    (rdT full 2 F.TIMER_PRESCALE_DIV ≤ tabGet 0 full.tim.presc 2 ∧ timCounts full 2 = true) ∧
    (rdT (sTim 2 4) 2 F.TIMER_CTL_CLKSRC = 2 ∧ rdT (sTim 2 4) 2 F.TIMER_CTL_OUTEN = 0 ∧
      rdT (put' (sTim 2 4) [(bTimer, tf F.TIMER_CTL_OUTEN 2, 1)]) 2 F.TIMER_CTL_OUTEN = 1) ∧
    (let s := put' full [(bTimer, tf F.TIMER_CTL_GATE 2, 1)]
     rdT s 2 F.TIMER_CTL_EN = 1 ∧ gateOpen s 0 2 = false) ∧
    maskBit (put' (sTim 1 4) [(bTimer, F.TIMER_WAITING_WAIT, 4)]) F.TIMER_WAITING_WAIT 2 = true := by decide +kernel

/-- WAKEAT reached, and not yet. -/
theorem witness_Sleep_copy :
    (let s := modLt (put' (sPower 2 phSteady 0) [(bPower, F.POWER_WAKEAT_LO_LT, 5)]) (fun t => { t with lt := 11 })
     rdPair s bPower F.POWER_WAKEAT_LO_LT F.POWER_WAKEAT_HI_LT = 5 ∧ 5 ≤ ltAt s bPower) ∧
    (let s := put' (sPower 2 phSteady 0) [(bPower, F.POWER_WAKEAT_LO_LT, 5)]
     rdPair s bPower F.POWER_WAKEAT_LO_LT F.POWER_WAKEAT_HI_LT = 5 ∧ ltAt s bPower < 5) := by
  refine ⟨⟨by decide +kernel, copy_passed 5 (n := 11) (by decide) (by decide)⟩, ⟨by decide +kernel, copy_before 5 (n := 0) (by decide) (by decide)⟩⟩

theorem witness_VmpartAndTick_tick :
    (beatState (up [bLamplighter, bCustody]) ≠ stFaulted ∧ (up [bLamplighter, bCustody]).decisions = [] ∧ llRuns (up [bLamplighter, bCustody]) = true ∧
      rdB (up [bLamplighter, bCustody]) bCustody F.STATE_READY = true ∧ (up [bLamplighter, bCustody]).ll.lanternGone = false) ∧
    (beatState sLt ≠ stFaulted ∧ sLt.decisions = [] ∧ llRuns sLt = false ∧ rdB sLt bBeat F.STATE_READY = false) := by decide +kernel

/-- An AADD of a word that cannot be corrected. -/
theorem witness_SequencerSharedAccesses_broken :
    let w := tWord 0x1C 5 6 7 0
    let s := seqUes (seqG w 6 0x100)
    seqAt s 0 w = true ∧ ownStoreHeld s 0 = false ∧ seqMay s 0 0x100 8 = true ∧ scrBroken s 0 0x100 8 = true := by decide +kernel

/-- A handler's activation: its word at rest and VALID, in a bank that moves, and one that cannot be corrected. -/
def handAct : Act := ⟨4, 0, 0, 0, 2, 0, 0, false, false⟩

def sHand (f : Loom → Loom) : State :=
  modLoom (modSeq (modLoom (seqS 0) 0 (fun m => { m with scratch := memPut [] 8 4 0x41 })) 0 (fun q => { q with queue := [handAct] })) 0 f

theorem witness_SequencerEvents_handlers :
    ((seqOf (sHand id) 0).queue = [handAct] ∧ handAct.ctx = 4 ∧ (seqOf (sHand id) 0).act = none ∧ midRemote (seqOf (sHand id) 0) = false) ∧
    (scrHeld (sHand id) 0 (handlerWord (sHand id) 0 2) 4 = false ∧ scrBroken (sHand id) 0 (handlerWord (sHand id) 0 2) 4 = false ∧
      handlerEntry (sHand id) 0 2 = some 0x40) ∧
    (let s := sHand (fun m => { m with moving := [0] })
     scrHeld s 0 (handlerWord s 0 2) 4 = true) ∧
    (let s := sHand (fun m => { m with xErr2 := [1] })
     scrHeld s 0 (handlerWord s 0 2) 4 = false ∧ scrBroken s 0 (handlerWord s 0 2) 4 = true) := by decide +kernel

/-- A run whose banks are at rest, and one of whose banks moves. -/
theorem witness_LoomControl_busy :
    let s := modLoom (wrI (up [bLoom 0]) (bLoom 0) F.LOOM_DOPDATA0_BIASEN 1 1) 0 (fun m => { m with bOp := some (1, true) })
    let t := modLoom s 0 (fun m => { m with moving := [0] })
    ((loom s 0).bOp = some (1, true) ∧ (runRanges s 0 (dop s 0 1)).any (fun r => scrBusy s 0 r.1 r.2) = false) ∧
    (loom t 0).bOp = some (1, true) ∧ (runRanges t 0 (dop t 0 1)).any (fun r => scrBusy t 0 r.1 r.2) = true := by decide +kernel

theorem witness_ScratchBanks_rest :
    (loom sTest 0).netHeld = [] ∧ (loom sTest 0).openDue = none ∧ (loom sMove 0).openDue = none ∧ (loom sDrain 0).netHeld = [] := by decide +kernel

/-- A request of the epoch that a drain clears, and one by a link whose RESTART has not come. -/
theorem witness_Repicks_cut :
    let s := modLoom (sRet true) 0 (fun m => { m with noRestart := [4] })
    (some (4 : PortId)).any (fun p => (loom s 0).noRestart.contains p.val) = true ∧ ((loom s 0).beat + 65535) % 65536 = 2 ∧
    (some (5 : PortId)).any (fun p => (loom s 0).noRestart.contains p.val) = false ∧ (none : Option PortId).any (fun p => (loom s 0).noRestart.contains p.val) = false := by
  decide +kernel

/-- Routers with an edge port, at the ends of a row, at the seam and on the north edge, and one without. -/
theorem witness_FabricAndRowMaps_ports :
    (hasPort 3 0 5 = true ∧ hasPort 3 33 5 = true ∧ hasPort 3 16 5 = true ∧ hasPort 0 9 5 = true ∧ hasPort 3 9 5 = false ∧ hasPort 3 0 3 = false) ∧
    (edgeMesh .west 0 9 = 0 ∧ edgeMesh .seam 15 9 = 16 ∧ edgeMesh .seam 16 20 = 17 ∧ edgeMesh .north 7 9 = 9) ∧
    hdrDpkg (exHead 4 1 0) = selfPkg sHub ∧ findIdx? (fun f => !LinkFlit.ok f) [exFlit (exHead 4 1 0) 1] = some 0 := by decide +kernel

/-- A HBM region for partition 2, in entry 1, under its own slot. -/
theorem witness_Partitions_region :
    let s := { setPartState (sCust 2 5 (1 + 3 * 256) (2 + 2 * 65536) 1) 2 psSuspended with mem := { MemSt.reset with keys := [(3, 9)] } }
    let t := put' s [(bMemcrypt, F.MC_KEYLOADED_SLOTS, 8)]
    custArg t 0 = 2 ∧ custArg t 1 = 5 ∧ bits (custArg t 2) 12 8 = 1 + 2 ∧ (region t 1).valid = false ∧ partState t 2 = psSuspended ∧
    regionOk t (bits (custArg t 2) 5 0) ⟨bits (custArg t 3) 14 0, bits (custArg t 3) 30 16, 2, 3, 0, true, false⟩ = true := by decide +kernel

theorem witness_PowerProtection_crystal :
    (up [bPower]).pw.rc = false ∧ rdB (up [bPower]) bLtime F.LTIME_STAT_HOLDOVER = false ∧
    rdB (put' (up [bPower]) [(bLtime, F.LTIME_STAT_HOLDOVER, 1)]) bLtime F.LTIME_STAT_HOLDOVER = true := by decide +kernel

/-- A region of the device staged under a free pool slot, which Lantern assigns to it; requesters that are not Lantern. -/
theorem witness_Regions_lantern :
    (let s := put' (sRegion) [(bMemcrypt, F.MC_REGSEL_INDEX, 5), (bMemcrypt, F.MC_KEYLOADED_SLOTS, 2 ^ 20)]
     let s := [(F.MC_REGDATA0_BASE, 4), (F.MC_REGDATA0_SIZE, 1), (F.MC_REGDATA1_PART, 0x1F), (F.MC_REGDATA1_SLOT, 20), (F.MC_REGDATA1_VALID, 1)].foldl (fun s x => wrI s bMemcrypt x.1 5 x.2) s
     fieldPerformed s (.custody .lantern) bMemcrypt F.MC_REGCTL_OP 1 = true ∧ (regionStaged s 5).valid = true ∧ tabGet 0 s.mem.pool 20 = 0 ∧
      regionOk (deviceSlot (windowClose s) (regionStaged s 5)) 5 (regionStaged s 5) = true ∧ regionOk s 5 (regionStaged s 5) = false) ∧
    (fieldPerformed sRegion .device bMemcrypt F.MC_REGCTL_OP 1 = true ∧ fieldPerformed sRegion .device bMemcrypt F.MC_REGCTL_OP 2 = true ∧
      performed sRegion .device (bHbmc 0) F.HBMC_POISONCLR_GO.off true (fldSet F.HBMC_POISONCLR_GO 0 1) = true) ∧
    (let s := { sRegion with mem := { sRegion.mem with regions := [(0, ⟨0, 1, 0x1F, 0, 0, true, false⟩), (3, ⟨8, 1, 0x1F, 0, 0, true, false⟩)], keys := [(0, 9)] } }
     tabGet 0 s.mem.rstate 3 = 1 ∧ regionKey s 3 ≠ 0) ∧
    ([(.corrected, .corrected), (.badTag, .badTag), (.uncorrectable, .uncorrectable)] : List (LineRead × LineRead)).all
      (fun x => lineMark (memMarks sRegion [(0, x.1)]) 0 == x.2) = true ∧ lineMark (memMarks sRegion []) 0 = .clean := by decide +kernel

/-- Custody-lane work of the shuttle of loom 0: found, started, and in the way. -/
theorem witness_Shuttles_jobs :
    (let s := modSh sSnap (loomShuttle 0) (fun x => { x with job := none })
     (sh s (loomShuttle 0)).run = none ∧ (sh s (loomShuttle 0)).job = none ∧ (sh s (sibling (loomShuttle 0))).job = none ∧
      (sh s (loomShuttle 0)).failed = false ∧ (shJobs s (loomShuttle 0)).head? = some (.snap 0)) ∧
    (sh sSnap (loomShuttle 0)).job ≠ none ∧
    (let s := sSh (fun x => { x with page := some (.desc dFill none), run := some ⟨0, .page, dFill, none, 0x1F, none⟩ })
     (sh s 0).page ≠ none ∧ (sh s 0).run = some ⟨0, .page, dFill, none, 0x1F, none⟩ ∧ dFill.wb = false) := by decide +kernel

/-- An FLR of partition 3 with a transfer of its tag running, and with one whose result waits. -/
theorem witness_HostPort_flr :
    let r : ShRun := ⟨56, .page, dFill, none, 3, none⟩
    (sh (modSh sHost 56 (fun x => { x with run := some r })) 56).run = some r ∧ r.tag = 3 ∧
    (sh (modSh sHost 56 (fun x => { x with run := some r, wait := some (⟨scOk, 0, 0, none⟩, false) })) 56).wait = some (⟨scOk, 0, 0, none⟩, false) := by decide +kernel

/-- A transmit descriptor whose buffer cannot be read; edges of both directions; the line enabled. -/
theorem witness_VehicleInterfaces_others :
    (let s := { sNet with mem := { sNet.mem with regions := [(0, ⟨0, 1, 0x1F, 0, 0, true, false⟩)], hbm := [(5, 1), (8, 128), (10, 5)] } }
     ringHas s (ringIdx 1 2 false false) = true ∧
     (let x := ((netRead s (ringAt s (ringIdx 1 2 false false) 32) 32).1).getD []
      bit (fieldAt x 10 2) 0 = true ∧ bit (fieldAt x 10 2) 2 = true ∧ bit (fieldAt x 10 2) 3 = false ∧
      (netRead (netRead s (ringAt s (ringIdx 1 2 false false) 32) 32).2 (fieldAt x 0 8) (fieldAt x 8 2)).1 = none)) ∧
    (let x := ((netRead sNet (ringAt sNet (ringIdx 1 2 false false) 32) 32).1).getD []
     ((netRead (netRead sNet (ringAt sNet (ringIdx 1 2 false false) 32) 32).2 (fieldAt x 0 8) (fieldAt x 8 2)).1.map isPtp) = some false) ∧
    (bit (rd sNet bNetio F.NETIO_GPEDGE_RISE) 4 = false ∧ bit (rd sNet bNetio F.NETIO_GPIRQEN_EN) 4 = false ∧
      bit (rd (put' sNet [(bNetio, F.NETIO_GPIRQEN_EN, 16)]) bNetio F.NETIO_GPIRQEN_EN) 4 = true) := by decide +kernel

/-- A link that trains with all lanes that the fuses leave good, with seven of them, and with fewer. -/
theorem witness_GlimmerLinks_training :
    glimState (sGlim gsTrain 1) 0 = gsTrain ∧ popcount 8 (255 &&& (0xFF ^^^ badLanes (sGlim gsTrain 1) 0)) = 8 ∧
    popcount 8 (127 &&& (0xFF ^^^ badLanes (sGlim gsTrain 1) 0)) = 7 ∧ popcount 8 (63 &&& (0xFF ^^^ badLanes (sGlim gsTrain 1) 0)) < 7 ∧
    (glimState (sGlim gsProbe 1) 0 = gsProbe ∧ 4 ≤ popcount 8 15 ∧ popcount 8 7 < 4) ∧
    (bit (glimLanes (sGlim gsUp 1) 0) 3 = true ∧ glimState (sGlim gsUp 1) 0 = gsUp ∧ glimState (sGlim gsDegraded 1) 0 = gsDegraded) := by decide +kernel

/-- A HOLDING mark seen before, sent afresh and repeated. -/
theorem witness_GlimmerMarks_afresh :
    let m := mkMark mkHolding 5 false 3
    let s := { sMarks with gpkg := { sMarks.gpkg with seen := [markId m] } }
    markId m ∈ s.gpkg.seen ∧ bit m 8 = false ∧ bit (setBits m 8 8 1) 8 = true ∧ markN m = s.beat.n ∧ 5 ∈ jobPeers s ∧ inRun s = true := by decide +kernel

theorem witness_GlimmerMarks_afresh_quiet (x : List Nat) : quiet { sMarks with gpkg := { sMarks.gpkg with seen := x } } := quiet_of _ rfl rfl

/-- A module at the end of its life whose WEAR has not been latched, and one whose has. -/
theorem witness_LaserModules_wear :
    let s := wrI (sLaser lmLit) bLaser F.LASER_POWERED_HOURS 0 40000
    lasState s 0 = lmLit ∧ 40000 ≤ rdI s bLaser F.LASER_POWERED_HOURS 0 + 1 + rdI s bLaser F.LASER_HOT_HOURS 0 ∧ (las s 0).serial ∉ s.nv.worn ∧
    (las s 0).serial ∈ ({ s.nv with worn := [0] } : NvSt).worn := by decide +kernel

/-- The checkpoint's mode is the one of the last, or another. -/
theorem witness_Lamplighter_mode :
    rd (sLl []) bLamplighter F.LL_CKPTCTL_MODE = (sLl []).nv.ckptMode ∧
    rd (put' (sLl []) [(bLamplighter, F.LL_CKPTCTL_MODE, 1)]) bLamplighter F.LL_CKPTCTL_MODE ≠ (sLl []).nv.ckptMode := by decide +kernel

/-! ## Steps -/

/-- A state whose next step runs a command, and another whose queue is empty. -/
theorem witness_StepsKeepMemories :
    (∃ t, Runs { State.reset with pending := [.drbgReseed] } t) ∧ MemOk { State.reset with pending := [.drbgReseed] } ∧ (∃ t, Runs State.reset t) :=
  ⟨⟨_, rfl⟩, by unfold MemOk; decide, ⟨_, rfl⟩⟩

/-! ## Worked examples of the manual -/

/-- What holds of the state that a command answers. -/
def after (c : Instr) (s : State) (p : State → Bool) : Bool :=
  match exec c s with
  | .next t => p t
  | _ => false

/-- The example of chapter 03: θ = 1,000, GMAX 4, LEAKK 4, REFP 1; beats 7,300 to 7,302. -/
def exTh : ThEntry := ⟨1000, 4, false, 4, 1, 0, 0, 0, 0, -8388608⟩

def exSlot (n : Nat) : SlotOut :=
  let a := slotUpdate exTh 7300 (0x40 * 2 ^ 24 + 300) 5432
  let b := slotUpdate exTh 7301 a.slot 2000
  if n = 0 then a else if n = 1 then b else slotUpdate exTh 7302 b.slot 150

/-- Four spikes, clamped below θ: membrane 999, residue 0, SAT set, REFRAC 1. -/
theorem test_neuron_first_beat :
    (exSlot 0).payload = some 4 ∧ bits (exSlot 0).slot 23 0 = 999 ∧ bits (exSlot 0).slot 31 24 = 0 ∧ bits (exSlot 0).slot 43 40 = 1 ∧
    bit (exSlot 0).slot 114 = true := by decide +kernel

/-- The refractory beat drops its input and leaks; the next fires once. -/
theorem test_neuron_next_beats :
    (exSlot 1).payload = none ∧ (exSlot 1).refDrop = true ∧ bits (exSlot 1).slot 23 0 = 936 ∧ bits (exSlot 1).slot 31 24 = 144 ∧
    (exSlot 2).payload = some 1 ∧ bits (exSlot 2).slot 23 0 = 28 ∧ bits (exSlot 2).slot 31 24 = 7 := by decide +kernel

/-- The examples of chapter 06: alignment of exponents, requantisation of a row, of one that is bumped, and of a fold's. -/
theorem test_batten_align : align 120 (-11) (-14) = 960 ∧ align 12081 (-17) (-14) = 1510 ∧ align (-986) (-16) (-14) = -246 ∧ align (-1234) (-18) (-14) = -77 := by
  decide +kernel

theorem test_batten_requant :
    requant none (-14) 8 [2647, -3001, 12] = ([83, -94, 0], -9, 0) ∧ (requant none (-14) 8 [2647, -3001, 12, 4080]).2.1 = -8 ∧
    (requant none (-14) 8 [2647, -3001, 12, 4080]).1[3]? = some 64 ∧ requant none (-8) 8 [9856, -384] = ([77, -3], -1, 0) := by decide +kernel

/-- The example of chapter 07: rshift_rne(29,904, 12) = 7, and NORMF of target 400 and sum 437. -/
theorem test_tensioner : rshiftRne 29904 12 = 7 ∧ normf 400 437 = 29994 := by decide +kernel

/-- The example of chapter 13: the pseudo-channel, the controller and the offset of an address. -/
theorem test_hbm_address : hbmPc 0x24C3A5100 = 59 ∧ hbmCtl 0x24C3A5100 = 3 ∧ hbmOffset 0x24C3A5100 = 0x930E900 := by decide +kernel

/-- The example of chapter 09: banks 6 and 7 SHARED are interleaved. -/
theorem test_shared_banks : physOf [6, 7] 0x60008 = 7 * 65536 ∧ physOf [6, 7] 0x70000 = 6 * 65536 + 0x8000 := by decide +kernel

/-- The instruction words that chapter 08 writes out. -/
theorem test_sequencer_words :
    kWord 0x16 5 0 0x100 = 0x01000156 ∧ kWord 2 6 0 17 = 0x00110182 ∧ tWord 0x30 0 6 5 0 = 0x00053030 ∧ tWord 0x28 0 0 0 0 = 0x28 ∧
    tWord 0x30 0 6 5 3 = 0x00653030 := by decide +kernel

/-- The pick word of chapter 14's example: kind 3, payload 15, population 50,000, member 4,292. -/
theorem test_pick_word : pickWord 3 15 50000 4292 0 0 = 0x30F0C35010C40000 := by decide +kernel

/-- Loom 437: its block, its shuttle and that shuttle's sibling. -/
theorem test_loom_437 : bLoom 437 = 0x2B5 ∧ loomShuttle 437 = 27 ∧ sibling 27 = 26 := by decide +kernel

/-- R293, by hand: 0x48 + 9; 57 zero bits above bit 6 of 0x48; -7 quo 2 truncates; SHK by 0x43 shifts right by 3. -/
theorem test_sequencer_steps :
    after (.sum 0 5 6 7) (seqS (tWord 1 5 6 7 0)) (fun t => g t 0 5 == 0x51 && pcOf t 0 == 4) = true ∧
    after (.lzc 0 5 6) (seqS (tWord 1 5 6 0 0x11)) (fun t => g t 0 5 == 57) = true ∧
    after (.quos 0 5 6 7) (modSeq (seqG (tWord 1 5 6 7 0x15) 6 (-7)) 0 (fun q => gWrite q 7 2)) (fun t => g t 0 5 == -3) = true ∧
    after (.shk 0 5 6 0x43) (seqS (kWord 8 5 6 0x43)) (fun t => g t 0 5 == 9) = true := by decide +kernel

/-- R292, by hand: 0x48 and 9 differ, so IFEQ goes on and IFNE goes to PC + 4 × K16. -/
theorem test_sequencer_branches :
    after (.ifeq 0 7 6 0x10) (seqS (pWord 0x20 7 6 0x10)) (fun t => pcOf t 0 == 4) = true ∧
    after (.ifne 0 7 6 0x10) (seqS (pWord 0x21 7 6 0x10)) (fun t => pcOf t 0 == 0x40) = true := by decide +kernel

/-- R294: PUT32 writes the low bytes, the lowest address first; GET16U reads them back. -/
theorem test_sequencer_memory :
    after (.put32 0 7 6 8) (seqG (pWord 0x1A 7 6 8) 7 0x11223344) (fun t => bytesAt (scratchByte t 0) 0x50 4 == 0x11223344) = true ∧
    after (.get8 0 5 6 0) (modLoom (seqS (kWord 0x10 5 6 0)) 0 (fun m => { m with scratch := tabSet 0 m.scratch 0x48 0x80 })) (fun t => g t 0 5 == -128) = true := by
  decide +kernel

/-- R395: an ADD saturates at 2⁶⁴ − 1. -/
theorem test_lamp_saturates :
    after (.lampAdd 0 3 0x1F 0xFFFFFFFFFFFFFFFF) sLamps (fun t => lampVal t 0 3 == 2 ^ 64 - 1) = true ∧
    after (.lampAdd 0 3 4 1) sLamps (fun t => lampVal t 0 3 == 10) = true := by decide +kernel

/-- R48: a reset leaves the block RESETTING, and its end READY. -/
theorem test_reset :
    after (.resetReq .device bLtime) sLt (fun t => rdB t bLtime F.STATE_RESETTING && !rdB t bLtime F.STATE_READY) = true ∧
    after (.blockResetDone bLtime) sLtResetting (fun t => rdB t bLtime F.STATE_READY && !rdB t bLtime F.STATE_RESETTING) = true := by decide +kernel

/-- The front of the queue runs first, and nothing else does. -/
theorem test_step : after (.beatOpen) State.reset (fun t => t.pending == []) = true ∧
    (match step { State.reset with pending := [.drbgReseed, .beatOpen] } with | .next t => t.pending == [.beatOpen] | _ => false) = true := by decide +kernel

/-! ## Well-formedness -/

/-- One command for each check of `wellFormed`, with operands that the fields carry. -/
theorem test_wellFormed_accepts :
    ([.registerWrite .device bLtime 0x40 1, .resetReq .device bBeat, .groupPrepareAnswer 0 bLtime, .managementTick 500 [(bBeat, 1)], .loomOpenReceive 0 7,
       .hubTally 0 65535 7 1 1 0, .routeCacheFillDone 0 5 0 true (List.replicate 32 0), .rowCacheFillDone 0 9 true (List.replicate 256 0),
       .streamPacketReceive 0 ⟨0, 7, 2, 0x1F, none⟩ [], .seqBudgetExpiry 0 1000, .fabricPacketRoute 0 0 0 0 [(0, 0)] false, .plyResultReceive 0 0x1F 3 0 0 0x100 2 none,
       .hbmRequest 0 0 0 true 0 0 [1, 2, 3, 4] [], .reedPacketReceive 0 true false true 0 0 [1] 0, .i3cTransferDone 0 false [1], .challenge 0 0 (List.replicate 32 0),
       .finish 0 [1], .ethFrameReceive 0 0 [1] false, .canFrameReceive 0 0 0 0 [1], .glimmerFrameReceive 0 0 0, .glimmerPeerLight 0 255,
       .glimmerLaneFail 0 0 false 3, .laserModuleInsert 0 0 [1] [] [] 0 0 0, .faultReport bBeat 0x8001, .thermalSample (List.replicate 54 50),
       .selvedgeRequestTimeout (some bLtime)] : List Instr).all wellFormed = true := by decide +kernel

/-- One ill-formed command for each check. -/
theorem test_wellFormed_refuses :
    ([.registerWrite .device 4096 0x40 1, .registerWrite .device bLtime 0x1000 1, .resetReq .device 0xFFF,
       .groupPrepareAnswer 0 0xFFF, .managementTick 65536 [], .managementTick 500 [(bBeat, 2 ^ 32)], .loomOpenReceive 0 (2 ^ 64), .hubTally 0 65536 0 0 0 0,
       .hubTally 0 0 8 0 0 0, .beatHubSums 0 0 0 (2 ^ 64) 0 0, .routeCacheFillDone 0 5 0 true (List.replicate 65 0), .rowCacheFillDone 0 9 true (List.replicate 257 0),
       .streamPacketReceive 0 ⟨0, 7, 2, 32, none⟩ [], .seqBudgetExpiry 0 (2 ^ 32), .fabricPacketRoute 0 0 0 0 (List.replicate 129 (0, 0)) false,
       .plyResultReceive 0 0x1F 3 0 0 (2 ^ 32) 2 none, .plyResultReceive 0 0x1F 3 0 0 0 65536 none, .selvedgePacket 0 0x10000000 [] 0, .hbmRequest 0 0 0 true 0 0 (List.replicate 257 0) [],
       .reedPacketReceive 0 true false true 0 0 [] 65536, .i3cTransferDone 0 false (List.replicate 257 0), .challenge 0 0 [], .getMeasurements 0 [],
       .finish 0 (List.replicate 65 0), .ethFrameReceive 0 0 (List.replicate 9217 0) false, .canFrameReceive 0 0 0 0 (List.replicate 65 0),
       .glimmerPeerLight 0 256, .glimmerLaneFail 0 0 false (2 ^ 32),
       .laserModuleInsert 0 0 (List.replicate 257 0) [] [] 0 0 0, .faultReport 0xFFF 0x8001, .thermalSample [], .selvedgeRequestTimeout (some 0xFFF)] : List Instr).all (fun c => !wellFormed c) = true := by decide +kernel

end Sys2Proof.Machine
end

section
/-!
PROOFS. The compute-partition reset and the steps of a bring-up (chapter 18): what a block that comes up, a fault, a step and the reset of the
compute partition change and leave, and O52 from them.
-/

namespace Sys2Proof.Machine

/-! ## Fields that share no bit -/

/-- A write of `f` leaves the bits of `g`: the fields share no bit, and both lie inside a register of a page. -/
def fldsApart (f g : Fld) : Bool :=
  decide (f.off < 4096) && decide (g.off < 4096) && decide (g.lo + fldWidth g ≤ 32) &&
    (decide (g.off ≠ f.off) || decide (g.lo + fldWidth g ≤ f.lo) || decide (f.lo + fldWidth f ≤ g.lo))

theorem rd_wrI_apart {f g : Fld} (h : fldsApart f g = true) (s : State) (b b' v : Nat) {i : Nat} (hi : i < 65536) :
    rd (wrI s b f i v) b' g = rd s b' g := by
  simp only [fldsApart, Bool.and_eq_true, Bool.or_eq_true, decide_eq_true_eq] at h
  obtain ⟨⟨⟨hf, hg⟩, hw⟩, h⟩ := h
  by_cases hk : b' = b ∧ g.off = f.off ∧ 0 = i
  · obtain ⟨rfl, ho, rfl⟩ := hk
    exact rdI_wrI_same s b' f g 0 v ho (by tauto) hw
  · exact rdI_wrI_ne s b b' f g i 0 v (regKey_ne hg hf (by decide) hi (by tauto))

theorem rd_wr_apart {f g : Fld} (h : fldsApart f g = true) (s : State) (b b' v : Nat) :
    rd (wr s b f v) b' g = rd s b' g := rd_wrI_apart h s b b' v (by decide)

theorem rd_inc_apart {f g : Fld} (h : fldsApart f g = true) (s : State) (b b' : Nat) :
    rd (inc s b f) b' g = rd s b' g := rd_wr_apart h s b b' _

/-- A write reaches one block only. -/
theorem rd_wr_block {b b' : Nat} {f g : Fld} (s : State) (v : Nat) (hf : f.off < 4096) (hg : g.off < 4096) (h : b' ≠ b) :
    rd (wr s b f v) b' g = rd s b' g :=
  rd_wr_ne s b b' f g v (regKey_ne hg hf (by decide) (by decide) (.inl h))

/-- Sending changes no register. -/
theorem rd_send (s : State) (k : MsgKind) (d : Nat) (a : List Nat) (b : Nat) (g : Fld) : rd (send s k d a) b g = rd s b g :=
  rd_congr rfl b g

theorem rdB_wr_one (s : State) (b : Nat) {f : Fld} (h : f.lo + fldWidth f ≤ 32) : rdB (wr s b f 1) b f = true := by
  have : 1 < 2 ^ fldWidth f := Nat.one_lt_two_pow (Nat.succ_ne_zero _)
  simp [rdB, rd_wr_self s b f 1 h, Nat.mod_eq_of_lt this]

/-! ## Loops -/

theorem forEach_cons {α : Type} (a : α) (xs : List α) (f : α → State → State) (s : State) :
    forEach (a :: xs) f s = forEach xs f (f a s) := rfl

theorem forEach_map {α β : Type} (g : α → β) (xs : List α) (f : β → State → State) (s : State) :
    forEach (xs.map g) f s = forEach xs (fun a => f (g a)) s := List.foldl_map

/-- What every round of a loop keeps, the loop keeps. -/
theorem forEach_keeps {α β : Type} (φ : State → β) {f : α → State → State} (h : ∀ a s, φ (f a s) = φ s) (xs : List α)
    (s : State) : φ (forEach xs f s) = φ s := by
  unfold forEach
  induction xs generalizing s with
  | nil => rfl
  | cons a xs ih => exact (ih _).trans (h a s)

/-- A loop of rounds that do nothing. -/
theorem forEach_id {α : Type} {f : α → State → State} {s : State} (h : ∀ a, f a s = s) (xs : List α) : forEach xs f s = s := by
  unfold forEach
  induction xs with
  | nil => rfl
  | cons a xs ih => rw [List.foldl_cons, h, ih]

/-- What one round brings about under `P`, and every round keeps, holds after the loop. -/
theorem forEach_reaches {α : Type} (P Q : State → Prop) {f : α → State → State} (hP : ∀ a s, P s → P (f a s))
    (hQ : ∀ a s, Q s → Q (f a s)) {a : α} (ha : ∀ s, P s → Q (f a s)) {xs : List α} (hx : a ∈ xs) {s : State} (hs : P s) :
    Q (forEach xs f s) := by
  have keep : ∀ (ys : List α) (t : State), Q t → Q (forEach ys f t) := fun ys => by
    unfold forEach
    induction ys with
    | nil => exact fun _ h => h
    | cons y ys ih => exact fun t h => ih _ (hQ y t h)
  unfold forEach at keep ⊢
  induction xs generalizing s with
  | nil => cases hx
  | cons x xs ih =>
    rcases List.mem_cons.1 hx with rfl | hx
    · exact keep xs _ (ha s hs)
    · exact ih hx (hP x s hs)

/-! ## Faults -/

theorem latchCause_frame (s : State) (b code : Nat) : ∃ r o, latchCause s b code = { s with regs := r, out := o } := by
  unfold latchCause
  split
  · dsimp only
    obtain ⟨o, h⟩ := faultLine_frame (wr (wr (wr s b F.FAULTCAUSE_VALID 1) b F.FAULTCAUSE_CAUSE code) b F.FAULTCAUSE_REPEAT 0) b
      (rd s b F.FAULTMASK_MASK) code
    exact ⟨_, o, h⟩
  · exact ⟨_, s.out, rfl⟩

/-- Latching a fault touches FAULTCAUSE and what is sent. -/
theorem latchFault_frame (s : State) (b code : Nat) : ∃ r o, latchFault s b code = { s with regs := r, out := o } := by
  obtain ⟨r, o, h⟩ := latchCause_frame s b code
  rw [latchFault, h]
  exact ⟨r, _, rfl⟩

@[simp] theorem latchFault_boot (s : State) (b code : Nat) : (latchFault s b code).boot = s.boot := by
  obtain ⟨r, o, h⟩ := latchFault_frame s b code; rw [h]
@[simp] theorem latchFault_ll (s : State) (b code : Nat) : (latchFault s b code).ll = s.ll := by
  obtain ⟨r, o, h⟩ := latchFault_frame s b code; rw [h]
@[simp] theorem latchFault_mem (s : State) (b code : Nat) : (latchFault s b code).mem = s.mem := by
  obtain ⟨r, o, h⟩ := latchFault_frame s b code; rw [h]
@[simp] theorem latchFault_hubs (s : State) (b code : Nat) : (latchFault s b code).hubs = s.hubs := by
  obtain ⟨r, o, h⟩ := latchFault_frame s b code; rw [h]

/-- A field that no write of FAULTCAUSE of block `b` reaches. -/
theorem rd_latchFault {g : Fld} {b b' : Nat} (h : ∀ f ∈ [F.FAULTCAUSE_VALID, F.FAULTCAUSE_CAUSE, F.FAULTCAUSE_REPEAT],
    ∀ t v, rd (wr t b f v) b' g = rd t b' g) (s : State) (code : Nat) : rd (latchFault s b code) b' g = rd s b' g := by
  simp only [List.forall_mem_cons] at h
  obtain ⟨hv, hc, hr, -⟩ := h
  unfold latchFault latchCause
  split
  · calc rd _ b' g = rd (wr (wr (wr s b F.FAULTCAUSE_VALID 1) b F.FAULTCAUSE_CAUSE code) b F.FAULTCAUSE_REPEAT 0) b' g := rd_congr rfl _ _
      _ = rd s b' g := by rw [hr, hc, hv]
  · exact hr s _

theorem rd_latchFault_apart {g : Fld} (h : ∀ f ∈ [F.FAULTCAUSE_VALID, F.FAULTCAUSE_CAUSE, F.FAULTCAUSE_REPEAT], fldsApart f g = true)
    (s : State) (b code b' : Nat) : rd (latchFault s b code) b' g = rd s b' g :=
  rd_latchFault (fun f hf t v => rd_wr_apart (h f hf) t b b' v) s code

theorem rd_latchFault_block {g : Fld} (hg : g.off < 4096) (s : State) {b b' : Nat} (code : Nat) (h : b' ≠ b) :
    rd (latchFault s b code) b' g = rd s b' g := by
  have hf : ∀ f ∈ [F.FAULTCAUSE_VALID, F.FAULTCAUSE_CAUSE, F.FAULTCAUSE_REPEAT], f.off < 4096 := by decide
  exact rd_latchFault (fun f hm t v => rd_wr_block t v (hf f hm) hg h) s code

/-- A fault is latched of which FAULTCAUSE shows the first (R50). -/
theorem latchFault_shows (s : State) (b code : Nat) :
    rdB (latchFault s b code) b F.FAULTCAUSE_VALID = true ∧
      (rd s b F.FAULTCAUSE_VALID = 0 → rd (latchFault s b code) b F.FAULTCAUSE_CAUSE = code % 2 ^ 16) := by
  unfold latchFault latchCause
  split
  next h0 =>
    have e : ∀ (t : State) (k : MsgKind) (d m : Nat) (a : List Nat) (g : Fld), rd (send (faultLine t b m code) k d a) b g = rd t b g :=
      fun _ _ _ _ _ _ => rfl
    refine ⟨?_, fun _ => ?_⟩
    · rw [rdB, e, rd_wr_apart (by decide), rd_wr_apart (by decide)]
      exact rdB_wr_one s b (by decide)
    · rw [e, rd_wr_apart (by decide), rd_wr_self _ _ _ _ (by decide)]; rfl
  next h0 =>
    refine ⟨?_, fun h => absurd h h0⟩
    have hlt : rd s b F.FAULTCAUSE_VALID < 2 := fldGet_lt F.FAULTCAUSE_VALID _
    have hk : rd (send (wr s b F.FAULTCAUSE_REPEAT (min 0xFF (rd s b F.FAULTCAUSE_REPEAT + 1))) .fault b [code]) b F.FAULTCAUSE_VALID =
        rd s b F.FAULTCAUSE_VALID := rd_wr_apart (by decide) s b b _
    simp only [rdB, hk, beq_iff_eq]
    omega

/-! ## A block becomes READY -/

/-- Block `b` shows READY, and `sn` are the blocks seen. -/
def readyShown (s : State) (b : Nat) (sn : List Nat) : State :=
  let s := wr (wr s b F.STATE_RESETTING 0) b F.STATE_READY 1
  { s with boot := { s.boot with seen := sn } }

/-- A block that sets READY shows it, and MEMCRYPT may load slot 0. -/
theorem setReady_cases (s : State) (b : Nat) :
    ∃ sn, setReady s b = readyShown s b sn ∨ setReady s b = slotLoad (readyShown s b sn) 0 := by
  unfold setReady
  dsimp only
  split
  · by_cases h : slotLoaded (readyShown s b (if s.boot.seen.contains b then s.boot.seen else s.boot.seen ++ [b])) 0 = true
    · exact ⟨_, .inl (if_pos h)⟩
    · exact ⟨_, .inr (if_neg h)⟩
  · exact ⟨_, .inl rfl⟩

theorem bootReady_of_ready {s : State} {b : Nat} (h : rdB s b F.STATE_READY = true) : bootReady s b = s := if_pos h

theorem bootReady_of_not_ready {s : State} {b : Nat} (h : rdB s b F.STATE_READY = false) :
    bootReady s b = setReady (if bootEnables b then wr s b F.CONTROL_ENABLE 1 else s) b := if_neg (by simp [h])

theorem readyShown_frame (s : State) (b : Nat) (sn : List Nat) :
    ∃ r, readyShown s b sn = { s with regs := r, boot := { s.boot with seen := sn } } :=
  ⟨(wr (wr s b F.STATE_RESETTING 0) b F.STATE_READY 1).regs, rfl⟩

theorem slotLoad_frame (s : State) (k : Nat) : ∃ r f kg ks, slotLoad s k =
    { s with regs := r, free := f, mem := { s.mem with keygen := kg, keys := ks } } :=
  ⟨(slotLoad s k).regs, (slotLoad s k).free, (slotLoad s k).mem.keygen, (slotLoad s k).mem.keys, rfl⟩

theorem setReady_frame (s : State) (b : Nat) : ∃ r f kg ks sn, setReady s b =
    { s with regs := r, free := f, mem := { s.mem with keygen := kg, keys := ks }, boot := { s.boot with seen := sn } } := by
  obtain ⟨sn, h⟩ := setReady_cases s b
  obtain ⟨r, hr⟩ := readyShown_frame s b sn
  rw [hr] at h
  rcases h with h | h
  · exact ⟨_, _, _, _, _, h⟩
  · obtain ⟨r', f, kg, ks, hk⟩ := slotLoad_frame { s with regs := r, boot := { s.boot with seen := sn } } 0
    exact ⟨_, _, _, _, _, h.trans hk⟩

/-- What a block that announces itself touches besides its registers: MEMCRYPT's key of slot 0. -/
theorem bootReady_frame (s : State) (b : Nat) : ∃ r f kg ks sn, bootReady s b =
    { s with regs := r, free := f, mem := { s.mem with keygen := kg, keys := ks }, boot := { s.boot with seen := sn } } := by
  unfold bootReady
  split
  · exact ⟨_, _, _, _, _, rfl⟩
  · split
    · obtain ⟨r, f, kg, ks, sn, h⟩ := setReady_frame (wr s b F.CONTROL_ENABLE 1) b
      exact ⟨r, f, kg, ks, sn, h⟩
    · exact setReady_frame s b

@[simp] theorem bootReady_ll (s : State) (b : Nat) : (bootReady s b).ll = s.ll := by
  obtain ⟨_, _, _, _, _, h⟩ := bootReady_frame s b; rw [h]
@[simp] theorem bootReady_nv (s : State) (b : Nat) : (bootReady s b).nv = s.nv := by
  obtain ⟨_, _, _, _, _, h⟩ := bootReady_frame s b; rw [h]
@[simp] theorem bootReady_pw (s : State) (b : Nat) : (bootReady s b).pw = s.pw := by
  obtain ⟨_, _, _, _, _, h⟩ := bootReady_frame s b; rw [h]
@[simp] theorem bootReady_cust (s : State) (b : Nat) : (bootReady s b).cust = s.cust := by
  obtain ⟨_, _, _, _, _, h⟩ := bootReady_frame s b; rw [h]
@[simp] theorem bootReady_hubs (s : State) (b : Nat) : (bootReady s b).hubs = s.hubs := by
  obtain ⟨_, _, _, _, _, h⟩ := bootReady_frame s b; rw [h]
@[simp] theorem bootReady_hbm (s : State) (b : Nat) : (bootReady s b).mem.hbm = s.mem.hbm := by
  obtain ⟨_, _, _, _, _, h⟩ := bootReady_frame s b; rw [h]
@[simp] theorem bootReady_ended (s : State) (b : Nat) : (bootReady s b).boot.ended = s.boot.ended := by
  obtain ⟨_, _, _, _, _, h⟩ := bootReady_frame s b; rw [h]
@[simp] theorem bootReady_active (s : State) (b : Nat) : (bootReady s b).boot.active = s.boot.active := by
  obtain ⟨_, _, _, _, _, h⟩ := bootReady_frame s b; rw [h]
@[simp] theorem bootReady_wipe (s : State) (b : Nat) : (bootReady s b).boot.wipe = s.boot.wipe := by
  obtain ⟨_, _, _, _, _, h⟩ := bootReady_frame s b; rw [h]

theorem rd_readyShown (s : State) (b : Nat) (sn : List Nat) (x : Nat) (g : Fld) :
    rd (readyShown s b sn) x g = rd (wr (wr s b F.STATE_RESETTING 0) b F.STATE_READY 1) x g := rd_congr rfl x g

theorem rd_readyShown_apart {g : Fld} (hr : fldsApart F.STATE_RESETTING g = true) (hy : fldsApart F.STATE_READY g = true)
    (s : State) (b b' : Nat) (sn : List Nat) : rd (readyShown s b sn) b' g = rd s b' g := by
  rw [rd_readyShown, rd_wr_apart hy, rd_wr_apart hr]

/-- Loading a key slot writes MC_KEYLOADED. -/
theorem rd_slotLoad_apart {g : Fld} {b' : Nat} (h : fldsApart F.MC_KEYLOADED_SLOTS g = true ∨ g.off < 4096 ∧ b' ≠ bMemcrypt)
    (s : State) (k : Nat) : rd (slotLoad s k) b' g = rd s b' g := by
  obtain h | ⟨hg, hb⟩ := h
  · exact rd_wr_apart h s bMemcrypt b' _
  · exact rd_wr_block s _ (by decide) hg hb

theorem rd_setReady_apart {g : Fld} {b' : Nat} (h : ∀ f ∈ [F.STATE_RESETTING, F.STATE_READY], fldsApart f g = true)
    (hk : fldsApart F.MC_KEYLOADED_SLOTS g = true ∨ g.off < 4096 ∧ b' ≠ bMemcrypt) (s : State) (b : Nat) :
    rd (setReady s b) b' g = rd s b' g := by
  simp only [List.forall_mem_cons] at h
  obtain ⟨hr, hy, -⟩ := h
  obtain ⟨sn, e | e⟩ := setReady_cases s b <;> rw [e]
  · exact rd_readyShown_apart hr hy s b b' sn
  · rw [rd_slotLoad_apart hk, rd_readyShown_apart hr hy]

/-- A block that announces itself writes CONTROL.ENABLE, its STATE, and MC_KEYLOADED. -/
theorem rd_bootReady_apart {g : Fld} {b' : Nat} (h : ∀ f ∈ [F.CONTROL_ENABLE, F.STATE_RESETTING, F.STATE_READY], fldsApart f g = true)
    (hk : fldsApart F.MC_KEYLOADED_SLOTS g = true ∨ g.off < 4096 ∧ b' ≠ bMemcrypt) (s : State) (b : Nat) :
    rd (bootReady s b) b' g = rd s b' g := by
  rw [List.forall_mem_cons] at h
  obtain ⟨he, h⟩ := h
  unfold bootReady
  split
  · rfl
  · rw [rd_setReady_apart h hk]
    split
    · exact rd_wr_apart he s b b' 1
    · rfl

theorem rdB_readyShown (s : State) (b : Nat) (sn : List Nat) (x : Nat) :
    rdB (readyShown s b sn) x F.STATE_READY = if x = b then true else rdB s x F.STATE_READY := by
  rw [rdB, rd_readyShown]
  split
  next h => subst h; exact rdB_wr_one _ x (by decide)
  next h => rw [rd_wr_block _ 1 (by decide) (by decide) h, rd_wr_apart (by decide)]; rfl

theorem rdB_setReady (s : State) (b x : Nat) :
    rdB (setReady s b) x F.STATE_READY = if x = b then true else rdB s x F.STATE_READY := by
  rw [← rdB_readyShown s b []]
  obtain ⟨sn, e | e⟩ := setReady_cases s b <;> rw [e]
  · rfl
  · rw [rdB, rd_slotLoad_apart (.inl (by decide))]; rfl

/-- The block that announces itself is READY, and no other block's READY changes. -/
theorem rdB_bootReady (s : State) (b x : Nat) :
    rdB (bootReady s b) x F.STATE_READY = if x = b then true else rdB s x F.STATE_READY := by
  cases h : rdB s b F.STATE_READY with
  | true =>
    rw [bootReady_of_ready h]
    split
    next e => rw [e, h]
    next => rfl
  | false =>
    rw [bootReady_of_not_ready h, rdB_setReady]
    split
    · rfl
    · split
      · rw [rdB, rd_wr_apart (by decide)]; rfl
      · rfl

@[simp] theorem bootReady_ready (s : State) (b : Nat) : rdB (bootReady s b) b F.STATE_READY = true := by simp [rdB_bootReady]

/-- CONTROL.ENABLE of the block that announces itself for the first time is set where bring-up enables it (R595), and no other one
changes. -/
theorem rdB_bootReady_enable (s : State) (b x : Nat) : rdB (bootReady s b) x F.CONTROL_ENABLE =
    if x = b ∧ bootEnables b = true ∧ rdB s b F.STATE_READY = false then true else rdB s x F.CONTROL_ENABLE := by
  cases h : rdB s b F.STATE_READY with
  | true => rw [bootReady_of_ready h]; simp
  | false =>
    rw [bootReady_of_not_ready h, rdB, rd_setReady_apart (by decide) (.inl (by decide))]
    by_cases hb : bootEnables b = true
    · simp only [hb, if_true, and_true]
      split
      next e => subst e; exact rdB_wr_one s x (by decide)
      next e => rw [rd_wr_block s 1 (by decide) (by decide) e]; rfl
    · simp only [hb, false_and, and_false, Bool.false_eq_true, if_false]; rfl

/-! ## Blocks come up -/

/-- A write of `f` leaves READY, ENABLE and BOOTSTAT.STEP. -/
def bystander (f : Fld) : Bool := [F.STATE_READY, F.CONTROL_ENABLE, F.FUSE_BOOTSTAT_STEP].all (fldsApart f)

/-- From `s` to `t` blocks come up and none goes down: READY and ENABLE stay where they are set, a block that is READY for the first time
has ENABLE where bring-up gives it (R595), and the record of the bring-up's steps and the rungs in progress stand. -/
structure ComesUp (s t : State) : Prop where
  ended : t.boot.ended = s.boot.ended
  rungs : t.ll.rungs = s.ll.rungs
  step : rd t bFuse F.FUSE_BOOTSTAT_STEP = rd s bFuse F.FUSE_BOOTSTAT_STEP
  ready : ∀ b, rdB s b F.STATE_READY = true → rdB t b F.STATE_READY = true
  enable : ∀ b, rdB s b F.CONTROL_ENABLE = true → rdB t b F.CONTROL_ENABLE = true
  enabled : ∀ b, bootEnables b = true → rdB s b F.STATE_READY = false → rdB t b F.STATE_READY = true → rdB t b F.CONTROL_ENABLE = true

/-- Blocks come up while the bring-up goes on and HBM holds what it held. -/
structure ComesUpOnly (s t : State) : Prop extends ComesUp s t where
  active : t.boot.active = s.boot.active
  hbm : t.mem.hbm = s.mem.hbm

theorem ComesUp.trans {s t u : State} (h : ComesUp s t) (k : ComesUp t u) : ComesUp s u where
  ended := k.ended.trans h.ended
  rungs := k.rungs.trans h.rungs
  step := k.step.trans h.step
  ready b r := k.ready b (h.ready b r)
  enable b e := k.enable b (h.enable b e)
  enabled b hb hs hu := by
    cases ht : rdB t b F.STATE_READY with
    | true => exact k.enable b (h.enabled b hb hs ht)
    | false => exact k.enabled b hb ht hu

/-- Registers of which READY, ENABLE and the step read as they did. -/
theorem ComesUp.of_rd {s t : State} (he : t.boot.ended = s.boot.ended) (hl : t.ll.rungs = s.ll.rungs)
    (h : ∀ g ∈ [F.STATE_READY, F.CONTROL_ENABLE, F.FUSE_BOOTSTAT_STEP], ∀ b, rd t b g = rd s b g) : ComesUp s t := by
  simp only [List.forall_mem_cons] at h
  obtain ⟨hy, hn, hs, -⟩ := h
  exact { ended := he, rungs := hl, step := hs _
          ready := fun b r => by rw [rdB, hy]; exact r
          enable := fun b r => by rw [rdB, hn]; exact r
          enabled := fun b _ r t => by rw [rdB, hy] at t; rw [rdB, t] at r; cases r }

/-- Registers as they were, and the record of the bring-up. -/
theorem ComesUp.of_regs {s t : State} (hr : t.regs = s.regs) (he : t.boot.ended = s.boot.ended) (hl : t.ll.rungs = s.ll.rungs) :
    ComesUp s t := .of_rd he hl fun g _ b => rd_congr hr b g

namespace ComesUpOnly

variable {s t u : State}

theorem trans (h : ComesUpOnly s t) (k : ComesUpOnly t u) : ComesUpOnly s u :=
  ⟨h.toComesUp.trans k.toComesUp, k.active.trans h.active, k.hbm.trans h.hbm⟩

theorem of_regs (hr : t.regs = s.regs) (he : t.boot.ended = s.boot.ended) (hl : t.ll.rungs = s.ll.rungs)
    (ha : t.boot.active = s.boot.active) (hm : t.mem.hbm = s.mem.hbm) : ComesUpOnly s t := ⟨.of_regs hr he hl, ha, hm⟩

theorem refl (s : State) : ComesUpOnly s s := .of_regs rfl rfl rfl rfl rfl

theorem wrI (h : ComesUpOnly s t) {f : Fld} (hf : bystander f = true) (b v : Nat) {i : Nat} (hi : i < 65536) :
    ComesUpOnly s (wrI t b f i v) := by
  refine h.trans ⟨.of_rd rfl rfl fun g hg b' => rd_wrI_apart ?_ t b b' v hi, rfl, rfl⟩
  exact List.all_eq_true.1 hf g hg

theorem wr (h : ComesUpOnly s t) {f : Fld} (hf : bystander f = true) (b v : Nat) : ComesUpOnly s (wr t b f v) :=
  h.wrI hf b v (by decide)

theorem incBy (h : ComesUpOnly s t) {f : Fld} (hf : bystander f = true) (b n : Nat) : ComesUpOnly s (incBy t b f n) := h.wr hf b _

theorem inc (h : ComesUpOnly s t) {f : Fld} (hf : bystander f = true) (b : Nat) : ComesUpOnly s (inc t b f) := h.wr hf b _

theorem send (h : ComesUpOnly s t) (k : MsgKind) (d : Nat) (a : List Nat) : ComesUpOnly s (send t k d a) :=
  h.trans (.of_regs rfl rfl rfl rfl rfl)

theorem latchFault (h : ComesUpOnly s t) (b code : Nat) : ComesUpOnly s (latchFault t b code) := by
  refine h.trans ⟨.of_rd (by simp) (by simp) fun g hg b' => rd_latchFault_apart ?_ t b code b', by simp, by simp⟩
  revert g; decide

/-- A block takes CONTROL.ENABLE. -/
theorem enableOne (h : ComesUpOnly s t) (b : Nat) : ComesUpOnly s (Machine.wr t b F.CONTROL_ENABLE 1) := by
  have hy : ∀ x, rdB (Machine.wr t b F.CONTROL_ENABLE 1) x F.STATE_READY = rdB t x F.STATE_READY := fun x => by
    rw [rdB, rd_wr_apart (by decide)]; rfl
  refine h.trans ⟨⟨rfl, rfl, rd_wr_apart (by decide) t b _ 1, fun x hx => (hy x).trans hx, fun x hx => ?_, fun x _ h0 h1 => ?_⟩, rfl, rfl⟩
  · by_cases e : x = b
    · subst e; exact rdB_wr_one t x (by decide)
    · rw [rdB, rd_wr_block t 1 (by decide) (by decide) e]; exact hx
  · rw [hy, h0] at h1; cases h1

theorem bootReady (h : ComesUpOnly s t) (b : Nat) : ComesUpOnly s (bootReady t b) := by
  refine h.trans ⟨⟨by simp, by simp, rd_bootReady_apart (by decide) (by decide) t b, fun x hx => ?_, fun x hx => ?_, fun x hb h0 h1 => ?_⟩,
    by simp, by simp⟩
  · rw [rdB_bootReady, hx, ite_self]
  · rw [rdB_bootReady_enable, hx, ite_self]
  · rw [rdB_bootReady, h0] at h1
    have hx : x = b := by simpa using h1
    subst hx
    simp [rdB_bootReady_enable, hb, h0]

theorem foldl {α : Type} {f : State → α → State} (hf : ∀ a t, ComesUpOnly t (f t a)) (h : ComesUpOnly s t) (xs : List α) :
    ComesUpOnly s (xs.foldl f t) := by
  induction xs generalizing t with
  | nil => exact h
  | cons a xs ih => exact ih (h.trans (hf a t))

theorem forEach {α : Type} {f : α → State → State} (hf : ∀ a t, ComesUpOnly t (f a t)) (h : ComesUpOnly s t) (xs : List α) :
    ComesUpOnly s (forEach xs f t) := h.foldl hf xs

theorem bootReadyAll (h : ComesUpOnly s t) (bs : List Nat) :
    ComesUpOnly s (Machine.forEach bs (fun b s => Machine.bootReady s b) t) :=
  h.forEach (fun b _ => (refl _).bootReady b) bs

end ComesUpOnly

/-- Every block of a list that comes up is READY. -/
theorem forEach_bootReady_ready (s : State) {bs : List Nat} {b : Nat} (h : b ∈ bs) :
    rdB (forEach bs (fun b s => bootReady s b) s) b F.STATE_READY = true :=
  forEach_reaches (fun _ => True) (fun s => rdB s b F.STATE_READY = true) (fun _ _ _ => trivial)
    (fun a s hs => ((ComesUpOnly.refl s).bootReady a).ready b hs) (fun s _ => bootReady_ready s b) h trivial

/-- What a bring-up's blocks leave, a list of them leaves. -/
theorem forEach_bootReady_keeps {β : Type} (φ : State → β) (h : ∀ s b, φ (bootReady s b) = φ s) (bs : List Nat) (s : State) :
    φ (forEach bs (fun b s => bootReady s b) s) = φ s := forEach_keeps φ (fun b s => h s b) bs s

/-! ## The array and the fabric -/

theorem comesUpOnly_showMap (s : State) (h : Nat) {i : Nat} (hi : i < 65536) (m : List Nat) : ComesUpOnly s (showMap s h i m) := by
  unfold showMap
  exact (((ComesUpOnly.refl s).wrI (by decide) _ _ hi).wrI (by decide) _ _ hi).wrI (by decide) _ _ hi

theorem ComesUpOnly.forEach_range {s t : State} {n : Nat} {f : Nat → State → State} (hf : ∀ a < n, ∀ t, ComesUpOnly t (f a t))
    (h : ComesUpOnly s t) : ComesUpOnly s (Machine.forEach (List.range n) f t) := by
  induction n generalizing t with
  | zero => exact h
  | succ n ih =>
    have e : Machine.forEach (List.range (n + 1)) f t = f n (Machine.forEach (List.range n) f t) := by
      simp [Machine.forEach, List.range_succ]
    rw [e]
    exact (ih (fun a ha => hf a (by omega)) h).trans (hf n (by omega) _)

theorem comesUpOnly_hubMaps (s : State) (h : Nat) : ComesUpOnly s (hubMaps s h) := by
  refine (ComesUpOnly.refl s).forEach_range (fun i hi t => ?_)
  have hm : ∀ f, ComesUpOnly t (modHub t h f) := fun _ => .of_regs rfl rfl rfl rfl rfl
  exact ((hm _).wrI (by decide) _ _ (by omega)).trans (comesUpOnly_showMap _ h (by omega) _)

theorem comesUpOnly_allMaps (s : State) : ComesUpOnly s (allMaps s) :=
  (ComesUpOnly.refl s).forEach (fun h t => comesUpOnly_hubMaps t h) _

theorem comesUpOnly_showMaps (s : State) : ComesUpOnly s (showMaps s) :=
  (ComesUpOnly.refl s).forEach (fun h t => (ComesUpOnly.refl t).forEach_range fun i hi u =>
    comesUpOnly_showMap u h (by omega) _) _

theorem comesUpOnly_softBad (s : State) (k site : Nat) : ComesUpOnly s (softBad s k site) := by
  unfold softBad
  split
  · exact .refl s
  · have h : ComesUpOnly s { s with ll := { s.ll with soft := s.ll.soft ++ [k * 32 + site] } } := .of_regs rfl rfl rfl rfl rfl
    exact h.inc (by decide) _

theorem comesUpOnly_bankFails (s : State) (l k : Nat) : ComesUpOnly s (bankFails s l k) := by
  have h := ComesUpOnly.refl s
  unfold bankFails
  dsimp only
  split_ifs
  · exact h.wr (by decide) _ _
  · exact comesUpOnly_softBad s _ _
  · exact (((h.wr (by decide) _ _).wr (by decide) _ _).wr (by decide) _ _).latchFault _ _

/-- Bring-up assigns banks in LOOM_BANKSTAT. -/
theorem bankAssign_frame (s : State) (l : Nat) :
    bankAssign s l = s ∨ bankAssign s l = wr s (bLoom l) F.LOOM_BANKSTAT_SPAREBAD 1 ∨
      ∃ k, bankAssign s l = wr (wr (wr s (bLoom l) F.LOOM_BANKSTAT_SPAREYIELD 1) (bLoom l) F.LOOM_BANKSTAT_SPAREUSED 1) (bLoom l)
        F.LOOM_BANKSTAT_SPAREBANK k := by
  unfold bankAssign
  split
  · dsimp only
    split
    · exact .inr (.inl rfl)
    · exact .inr (.inr ⟨_, rfl⟩)
  · exact .inl rfl

theorem comesUpOnly_bankAssign (s : State) (l : Nat) : ComesUpOnly s (bankAssign s l) := by
  have h := ComesUpOnly.refl s
  obtain e | e | ⟨k, e⟩ := bankAssign_frame s l <;> rw [e]
  · exact h
  · exact h.wr (by decide) _ _
  · exact ((h.wr (by decide) _ _).wr (by decide) _ _).wr (by decide) _ _

@[simp] theorem bankAssign_hubs (s : State) (l : Nat) : (bankAssign s l).hubs = s.hubs := by
  obtain e | e | ⟨k, e⟩ := bankAssign_frame s l <;> rw [e] <;> rfl

theorem loomSite_congr {s t : State} (h : t.hubs = s.hubs) (l : Nat) : loomSite t l = loomSite s l := by
  simp only [loomSite, siteOf, hub, h]

/-- One loom in the loop over all of them. -/
def loomReady (test : Bool) (l : Nat) (s : State) : State :=
  if loomSite s l ≤ 16 then bootReady (bankAssign s l) (bLoom l)
  else if test then latchFault s (bLoom l) 0x0118 else s

theorem loomsReady_eq (s : State) (test : Bool) : loomsReady s test = forEach (List.range 768) (loomReady test) s := rfl

theorem comesUpOnly_loomReady (test : Bool) (l : Nat) (s : State) : ComesUpOnly s (loomReady test l s) := by
  unfold loomReady
  split_ifs
  · exact (comesUpOnly_bankAssign s l).bootReady _
  · exact (ComesUpOnly.refl s).latchFault _ _
  · exact .refl s

theorem loomReady_hubs (test : Bool) (l : Nat) (s : State) : (loomReady test l s).hubs = s.hubs := by
  unfold loomReady
  split_ifs <;> simp

theorem comesUpOnly_loomsReady (s : State) (test : Bool) : ComesUpOnly s (loomsReady s test) :=
  (ComesUpOnly.refl s).forEach (comesUpOnly_loomReady test) _

theorem loomsReady_hubs (s : State) (test : Bool) : (loomsReady s test).hubs = s.hubs :=
  forEach_keeps (·.hubs) (loomReady_hubs test) _ s

/-- Every loom whose column maps to a site is READY. -/
theorem loomsReady_ready (s : State) (test : Bool) {l : Nat} (hl : l < 768) (h : loomSite s l ≤ 16) :
    rdB (loomsReady s test) (bLoom l) F.STATE_READY = true := by
  rw [loomsReady_eq]
  refine forEach_reaches (fun t => t.hubs = s.hubs) (fun t => rdB t (bLoom l) F.STATE_READY = true) (a := l)
    (fun a t ht => (loomReady_hubs test a t).trans ht) (fun a t => (comesUpOnly_loomReady test a t).ready _) (fun t ht => ?_)
    (List.mem_range.2 hl) rfl
  rw [loomReady, if_pos (by rw [loomSite_congr ht]; exact h)]
  exact bootReady_ready _ _

/-- The blocks of the array and the fabric besides the looms. -/
def arrayBlocks : List Nat := (List.range 16).map bHub ++ [bSeam, bBeat] ++ (List.range 48).map bShuttle

theorem arrayReady_eq (s : State) (test : Bool) : arrayReady s test =
    bootReady (forEach ((List.range 48).map bShuttle) (fun b s => bootReady s b) (loomsReady (bootReady
      (forEach ((List.range 16).map bHub) (fun b s => bootReady s b) s) bSeam) test)) bBeat := by
  rw [forEach_map, forEach_map]; rfl

theorem comesUpOnly_arrayReady (s : State) (test : Bool) : ComesUpOnly s (arrayReady s test) := by
  rw [arrayReady_eq]
  exact (((((ComesUpOnly.refl s).bootReadyAll _).bootReady _).trans (comesUpOnly_loomsReady _ _)).bootReadyAll _).bootReady _

theorem arrayReady_ready (s : State) (test : Bool) {b : Nat} (h : b ∈ arrayBlocks) : rdB (arrayReady s test) b F.STATE_READY = true := by
  rw [arrayReady_eq]
  set s1 := forEach ((List.range 16).map bHub) (fun b s => bootReady s b) s
  set s2 := loomsReady (bootReady s1 bSeam) test
  have h12 : ComesUpOnly (bootReady s1 bSeam) s2 := comesUpOnly_loomsReady _ _
  have hlast := ((ComesUpOnly.refl s2).bootReadyAll ((List.range 48).map bShuttle)).bootReady bBeat
  simp only [arrayBlocks, List.mem_append, List.mem_cons, List.not_mem_nil, or_false] at h
  obtain (h | rfl | rfl) | h := h
  · exact hlast.ready _ (h12.ready _ (((ComesUpOnly.refl _).bootReady _).ready _ (forEach_bootReady_ready s h)))
  · exact hlast.ready _ (h12.ready _ (bootReady_ready _ _))
  · exact bootReady_ready _ _
  · exact ((ComesUpOnly.refl _).bootReady _).ready _ (forEach_bootReady_ready s2 h)

theorem arrayReady_looms (s : State) (test : Bool) {l : Nat} (hl : l < 768) (h : loomSite (arrayReady s test) l ≤ 16) :
    rdB (arrayReady s test) (bLoom l) F.STATE_READY = true := by
  rw [arrayReady_eq] at h ⊢
  have hk := fun bs s => forEach_bootReady_keeps (·.hubs) bootReady_hubs bs s
  refine (((ComesUpOnly.refl _).bootReadyAll _).bootReady _).ready _ (loomsReady_ready _ _ hl ?_)
  refine (loomSite_congr ?_ l).symm.trans_le h
  rw [bootReady_hubs, hk, loomsReady_hubs]

/-! ## The end of a bring-up -/

/-- A bring-up goes on, or is done: BOOTSTAT.DONE and BOOTTIME are written (R601). -/
theorem bootDone_cases (s : State) (last : Nat) : bootDone s last = s ∨ ∃ v, bootDone s last =
    { wr (wr s bFuse F.FUSE_BOOTSTAT_DONE 1) bFuse F.FUSE_BOOTTIME_MS v with boot := { s.boot with active := false, cpr := false } } := by
  unfold bootDone
  split
  · exact .inr ⟨_, rfl⟩
  · exact .inl rfl

/-- Every step has ended. -/
theorem bootDone_of_all {s : State} {last : Nat} (ha : s.boot.active = true) (h : ∀ i, 1 ≤ i → i ≤ last → i ∈ s.boot.ended) :
    rd (bootDone s last) bFuse F.FUSE_BOOTSTAT_DONE = 1 ∧ (bootDone s last).boot.active = false := by
  have hc : s.boot.active = true ∧ (List.range last).all (fun i => s.boot.ended.contains (i + 1)) = true := by
    refine ⟨ha, List.all_eq_true.2 fun i hi => ?_⟩
    rw [List.contains_iff_mem]
    exact h _ (by omega) (List.mem_range.1 hi)
  unfold bootDone
  rw [if_pos hc]
  refine ⟨?_, rfl⟩
  calc rd _ bFuse F.FUSE_BOOTSTAT_DONE
      = rd (wr (wr s bFuse F.FUSE_BOOTSTAT_DONE 1) bFuse F.FUSE_BOOTTIME_MS _) bFuse F.FUSE_BOOTSTAT_DONE := rd_congr rfl _ _
    _ = 1 := by rw [rd_wr_apart (by decide), rd_wr_self _ _ _ _ (by decide)]; rfl

theorem rd_bootDone_apart {g : Fld} (hd : fldsApart F.FUSE_BOOTSTAT_DONE g = true) (ht : fldsApart F.FUSE_BOOTTIME_MS g = true)
    (s : State) (last b : Nat) : rd (bootDone s last) b g = rd s b g := by
  obtain h | ⟨v, h⟩ := bootDone_cases s last <;> rw [h]
  calc rd _ b g = rd (wr (wr s bFuse F.FUSE_BOOTSTAT_DONE 1) bFuse F.FUSE_BOOTTIME_MS v) b g := rd_congr rfl _ _
    _ = rd s b g := by rw [rd_wr_apart ht, rd_wr_apart hd]

theorem bootDone_frame (s : State) (n : Nat) : ∃ r x, x.ended = s.boot.ended ∧ bootDone s n = { s with regs := r, boot := x } := by
  obtain h | ⟨v, h⟩ := bootDone_cases s n
  · exact ⟨s.regs, s.boot, rfl, h⟩
  · exact ⟨_, { s.boot with active := false, cpr := false }, rfl, h⟩

@[simp] theorem bootDone_ended (s : State) (n : Nat) : (bootDone s n).boot.ended = s.boot.ended := by
  obtain ⟨r, x, hx, h⟩ := bootDone_frame s n; rw [h, ← hx]
@[simp] theorem bootDone_ll (s : State) (n : Nat) : (bootDone s n).ll = s.ll := by
  obtain ⟨r, x, -, h⟩ := bootDone_frame s n; rw [h]
@[simp] theorem bootDone_pw (s : State) (n : Nat) : (bootDone s n).pw = s.pw := by
  obtain ⟨r, x, -, h⟩ := bootDone_frame s n; rw [h]
@[simp] theorem bootDone_cust (s : State) (n : Nat) : (bootDone s n).cust = s.cust := by
  obtain ⟨r, x, -, h⟩ := bootDone_frame s n; rw [h]
@[simp] theorem bootDone_mem (s : State) (n : Nat) : (bootDone s n).mem = s.mem := by
  obtain ⟨r, x, -, h⟩ := bootDone_frame s n; rw [h]
@[simp] theorem bootDone_hubs (s : State) (n : Nat) : (bootDone s n).hubs = s.hubs := by
  obtain ⟨r, x, -, h⟩ := bootDone_frame s n; rw [h]
@[simp] theorem bootDone_looms (s : State) (n : Nat) : (bootDone s n).looms = s.looms := by
  obtain ⟨r, x, -, h⟩ := bootDone_frame s n; rw [h]

theorem comesUp_bootDone (s : State) (n : Nat) : ComesUp s (bootDone s n) :=
  .of_rd (by simp) (by simp) (fun g hg b => by
    have h : ∀ g ∈ [F.STATE_READY, F.CONTROL_ENABLE, F.FUSE_BOOTSTAT_STEP],
      fldsApart F.FUSE_BOOTSTAT_DONE g = true ∧ fldsApart F.FUSE_BOOTTIME_MS g = true := by decide
    exact rd_bootDone_apart (h g hg).1 (h g hg).2 s n b)

/-! ## Pieces of the steps -/

theorem comesUpOnly_measure (s : State) (hdr : List Byte) : ComesUpOnly s (measure s hdr) := by
  have h : ∀ c, ComesUpOnly s { s with cust := c } := fun _ => .of_regs rfl rfl rfl rfl rfl
  exact (h _).inc (by decide) _

@[simp] theorem measure_meas_length (s : State) (hdr : List Byte) : (measure s hdr).cust.meas.length = s.cust.meas.length + 1 := by
  simp [measure]

theorem comesUpOnly_fallbackNote (s : State) (n : Nat) : ComesUpOnly s (fallbackNote s n) := by
  unfold fallbackNote
  split
  · exact .refl s
  · exact ((ComesUpOnly.refl s).incBy (by decide) _ _).wr (by decide) _ _

theorem comesUpOnly_stacksTrained (s : State) (up : BitVec 64) : ComesUpOnly s (stacksTrained s up) := by
  refine (ComesUpOnly.refl s).forEach (fun c t => ?_) _
  have h := (ComesUpOnly.refl t).wr (f := F.HBMC_PCSTAT_UP) (by decide) (bHbmc c) (bits up.toNat (16 * c + 15) (16 * c))
  dsimp only
  split
  · exact h
  · exact h.latchFault _ _

theorem comesUpOnly_trecWrite (s : State) : ComesUpOnly s (trecWrite s) := .of_regs rfl rfl rfl rfl rfl

theorem comesUpOnly_trecWarm (s : State) : ComesUpOnly s (trecWarm s) := by
  unfold trecWarm
  split
  · exact .of_regs rfl rfl rfl rfl rfl
  · exact .refl s

/-- A glimmer port is enabled: fused off, dark with light to probe, or else (R507). -/
theorem glimEn_cases (s : State) (p : Nat) (off : Bool) : glimEn s p true off = wr s (bGlimmer p) F.GLIM_CFG_EN 0 ∨
    glimEn s p true off = wr s (bGlimmer p) F.GLIM_CFG_EN 1 ∨
    glimEn s p true off =
      send (wr (wr s (bGlimmer p) F.GLIM_CFG_EN 1) (bGlimmer p) F.GLIM_STAT_STATE gsProbe) .light (bGlimmer p) [laProbe] := by
  cases off with
  | true => exact .inl rfl
  | false =>
    have e : glimEn s p true false = portProbe (wr s (bGlimmer p) F.GLIM_CFG_EN 1) p := rfl
    rw [e, portProbe]
    split
    · exact .inr (.inr rfl)
    · exact .inr (.inl rfl)

theorem comesUpOnly_glimEn (s : State) (p : Nat) (off : Bool) : ComesUpOnly s (glimEn s p true off) := by
  have h := ComesUpOnly.refl s
  obtain e | e | e := glimEn_cases s p off <;> rw [e]
  · exact h.wr (by decide) _ _
  · exact h.wr (by decide) _ _
  · exact ((h.wr (by decide) _ _).wr (by decide) _ _).send _ _ _

/-! ## The work of a step -/

/-- Step 1 wakes FUSE before it judges the fuses, and changes the bring-up's state last. -/
theorem stepWork_one (s : State) (e : StepEnd) : ∃ u x, ComesUpOnly s u ∧ rd u bFuse F.FUSE_CE_COUNT =
      (rd s bFuse F.FUSE_CE_COUNT + (s.nv.fuseErr.filter (fun x => x.2 == 1)).length) % 2 ^ 32 ∧
    rdB u bFuse F.STATE_READY = true ∧ x.ended = u.boot.ended ∧ stepWork s 1 e = { u with boot := x } := by
  unfold stepWork
  dsimp only
  set v := bootReady (incBy s bFuse F.FUSE_CE_COUNT (s.nv.fuseErr.filter (fun x => x.2 == 1)).length) bFuse with hv
  have h : ComesUpOnly s v := ((ComesUpOnly.refl s).incBy (by decide) _ _).bootReady _
  have hr : rdB v bFuse F.STATE_READY = true := bootReady_ready _ _
  have hc : rd v bFuse F.FUSE_CE_COUNT =
      (rd s bFuse F.FUSE_CE_COUNT + (s.nv.fuseErr.filter (fun x => x.2 == 1)).length) % 2 ^ 32 := by
    rw [hv, rd_bootReady_apart (by decide) (by decide)]
    exact rd_wr_self s bFuse F.FUSE_CE_COUNT _ (by decide)
  by_cases hu : v.nv.fuseErr.any (fun x => x.2 == 2) = true
  · rw [if_pos hu]
    set w := latchFault { v with boot := { v.boot with fuseUe := true } } bFuse 0x0C01 with hw
    have hue : ComesUpOnly v { v with boot := { v.boot with fuseUe := true } } := .of_regs rfl rfl rfl rfl rfl
    have hvw : ComesUpOnly v w := hue.latchFault _ _
    have hwc : rd w bFuse F.FUSE_CE_COUNT = rd v bFuse F.FUSE_CE_COUNT := rd_latchFault_apart (by decide) _ _ _ _
    by_cases hx : fuseUeIn w 0 0x36 = true
    · exact ⟨w, { w.boot with active := false }, h.trans hvw, hwc.trans hc, hvw.ready _ hr, rfl, if_pos hx⟩
    · exact ⟨w, w.boot, h.trans hvw, hwc.trans hc, hvw.ready _ hr, rfl, if_neg hx⟩
  · exact ⟨v, v.boot, h, hc, hr, rfl, if_neg hu⟩

theorem comesUpOnly_pathChoose (s : State) (tj : Int) : ComesUpOnly s (pathChoose s tj) := by
  have h : ComesUpOnly s { s with pw := { s.pw with enIo := true, enHbm := true, enCmp := true }, boot := { s.boot with tj := tj } } :=
    .of_regs rfl rfl rfl rfl rfl
  have h := (h.send .pin bPower [7]).bootReady bPower
  unfold pathChoose
  dsimp only
  split
  · exact ((h.wr (by decide) _ _).inc (by decide) _).trans (comesUpOnly_trecWarm _)
  · exact (h.wr (by decide) _ _).inc (by decide) _

/-- The blocks of HBM. -/
def hbmBlocks : List Nat := (List.range 4).map bHbmc ++ [bMemcrypt]

/-- The blocks that step 6 brings up. -/
def ioBlocks : List Nat := [bLtime, bTimer] ++ (List.range 8).map bReed ++ (List.range 8).map bGlimmer ++ [bHostport]

/-- Step 6 shows the trained host link. -/
def hostLinkUp (s : State) (e : StepEnd) : State :=
  let s := wr (wr (wr s bHostport F.HOSTPORT_LINK_UP 1) bHostport F.HOSTPORT_LINK_WIDTH (e.link.toNat % 16)) bHostport
    F.HOSTPORT_LINK_SPEED (e.link.toNat / 16)
  if s.boot.sleep = 3 then wr s bLtime F.LTIME_STAT_HOLDOVER 1 else s

/-- Step 6 enables one glimmer port. -/
def glimPortEnable (p : Nat) (s : State) : State :=
  glimEn (wr s (bGlimmer p) F.CONTROL_ENABLE 1) p true (bit (fuseByte s 0x52 0) p)

/-- Step 6 enables the glimmer ports that BOOTCFG names. -/
def glimPortsEnable (s : State) : State :=
  forEach ((List.range 8).filter (fun p => bit (rd s bFuse F.FUSE_BOOTCFG_GLIMEN) p)) glimPortEnable s

theorem stepWork_six (s : State) (e : StepEnd) : ∃ n, stepWork s 6 e =
    glimPortsEnable (hostLinkUp (forEach ioBlocks (fun b s => bootReady s b) (fallbackNote s n)) e) := ⟨_, rfl⟩

theorem comesUpOnly_hostLinkUp (s : State) (e : StepEnd) : ComesUpOnly s (hostLinkUp s e) := by
  have h := (((ComesUpOnly.refl s).wr (f := F.HOSTPORT_LINK_UP) (by decide) bHostport 1).wr (f := F.HOSTPORT_LINK_WIDTH) (by decide) bHostport
    (e.link.toNat % 16)).wr (f := F.HOSTPORT_LINK_SPEED) (by decide) bHostport (e.link.toNat / 16)
  unfold hostLinkUp
  dsimp only
  split
  · exact h.wr (by decide) _ _
  · exact h

theorem hostLinkUp_up (s : State) (e : StepEnd) : rd (hostLinkUp s e) bHostport F.HOSTPORT_LINK_UP = 1 := by
  have h : rd (wr (wr (wr s bHostport F.HOSTPORT_LINK_UP 1) bHostport F.HOSTPORT_LINK_WIDTH (e.link.toNat % 16)) bHostport
      F.HOSTPORT_LINK_SPEED (e.link.toNat / 16)) bHostport F.HOSTPORT_LINK_UP = 1 := by
    rw [rd_wr_apart (by decide), rd_wr_apart (by decide), rd_wr_self _ _ _ _ (by decide)]; rfl
  unfold hostLinkUp
  dsimp only
  split
  · exact (rd_wr_apart (by decide) _ _ _ _).trans h
  · exact h

theorem comesUpOnly_glimPortEnable (p : Nat) (s : State) : ComesUpOnly s (glimPortEnable p s) :=
  ((ComesUpOnly.refl s).enableOne _).trans (comesUpOnly_glimEn _ p _)

theorem comesUpOnly_glimPortsEnable (s : State) : ComesUpOnly s (glimPortsEnable s) :=
  (ComesUpOnly.refl s).forEach comesUpOnly_glimPortEnable _

theorem glimPortEnable_linkUp (p : Nat) (s : State) :
    rd (glimPortEnable p s) bHostport F.HOSTPORT_LINK_UP = rd s bHostport F.HOSTPORT_LINK_UP := by
  rw [glimPortEnable]
  obtain e | e | e := glimEn_cases (wr s (bGlimmer p) F.CONTROL_ENABLE 1) p (bit (fuseByte s 0x52 0) p) <;> rw [e]
  · rw [rd_wr_apart (by decide), rd_wr_apart (by decide)]
  · rw [rd_wr_apart (by decide), rd_wr_apart (by decide)]
  · rw [rd_send, rd_wr_apart (by decide), rd_wr_apart (by decide), rd_wr_apart (by decide)]

theorem stepWork_six_linkUp (s : State) (e : StepEnd) : rd (stepWork s 6 e) bHostport F.HOSTPORT_LINK_UP = 1 := by
  obtain ⟨n, h⟩ := stepWork_six s e
  rw [h]
  exact (forEach_keeps (fun s => rd s bHostport F.HOSTPORT_LINK_UP) glimPortEnable_linkUp _ _).trans (hostLinkUp_up _ e)

/-- The array as step 7 maps it, with what its tests find. -/
def arrayMapped (s : State) (e : StepEnd) : State :=
  let cold := rd s bFuse F.FUSE_BOOTSTAT_PATH = pathCold
  let test := cold || fuseUeIn s 0x40 0x4C || fuseUeIn s 0x100 0x300
  let s := allMaps s
  let s := if cold then e.badBanks.foldl (fun (s : State) x => bankFails s x.1.val x.2.val) s else s
  let s := if test then e.badSites.foldl (fun (s : State) x => softBad s x.1.val x.2.val) s else s
  wr (allMaps s) bSeam F.SEAM_LINKUP_UP e.seams.toNat

theorem stepWork_seven (s : State) (e : StepEnd) : stepWork s 7 e = arrayReady (arrayMapped s e) true := by
  simp only [stepWork, arrayMapped]

theorem comesUpOnly_arrayMapped (s : State) (e : StepEnd) : ComesUpOnly s (arrayMapped s e) := by
  have hbanks : ∀ t : State, ComesUpOnly t (e.badBanks.foldl (fun (s : State) x => bankFails s x.1.val x.2.val) t) :=
    fun t => (ComesUpOnly.refl t).foldl (fun x t => comesUpOnly_bankFails t _ _) _
  have hsites : ∀ t : State, ComesUpOnly t (e.badSites.foldl (fun (s : State) x => softBad s x.1.val x.2.val) t) :=
    fun t => (ComesUpOnly.refl t).foldl (fun x t => comesUpOnly_softBad t _ _) _
  have hite : ∀ (c : Prop) [Decidable c] (s t u : State), ComesUpOnly s t → ComesUpOnly t u → ComesUpOnly s (if c then u else t) :=
    fun c _ s t u h k => by split; exacts [h.trans k, h]
  exact ((hite _ _ _ _ (hite _ _ _ _ (comesUpOnly_allMaps s) (hbanks _)) (hsites _)).trans (comesUpOnly_allMaps _)).wr (by decide) _ _

/-- Step 9 leaves HBM as the package reset left it, and brings its blocks up. -/
def hbmBroughtUp (s : State) : State :=
  forEach hbmBlocks (fun b s => bootReady s b) { s with mem := MemSt.reset, ll := { s.ll with snaps := [], snapSeq := [] } }

theorem stepWork_nine (s : State) (e : StepEnd) : ∃ x, stepWork s 9 e = { hbmBroughtUp s with nv := x } := by
  simp only [stepWork, hbmBroughtUp, hbmBlocks]
  generalize forEach ((List.range 4).map bHbmc ++ [bMemcrypt]) (fun b s => bootReady s b)
    { s with mem := MemSt.reset, ll := { s.ll with snaps := [], snapSeq := [] } } = u
  split_ifs
  · exact ⟨_, rfl⟩
  · exact ⟨_, rfl⟩

/-- The blocks of the application cluster and its shuttles, in the order in which they come up. -/
def appBlocks : List Nat := bApc :: ((List.range 12).map (fun i => bShuttle (48 + i)) ++ [bNetio])

theorem stepWork_ten (s : State) (e : StepEnd) :
    stepWork s 10 e = forEach appBlocks (fun b s => bootReady s b) (measure s e.image) := by
  simp only [stepWork, appBlocks, forEach_cons]

/-- A step but the first and the ninth leaves the bring-up going on and HBM as it is. -/
theorem comesUpOnly_stepWork (s : State) (e : StepEnd) {k : Nat} (h1 : k ≠ 1) (h9 : k ≠ 9) : ComesUpOnly s (stepWork s k e) := by
  by_cases h6 : k = 6
  · obtain ⟨n, h⟩ := stepWork_six s e
    rw [h6, h]
    exact (((comesUpOnly_fallbackNote s n).bootReadyAll _).trans (comesUpOnly_hostLinkUp _ e)).trans (comesUpOnly_glimPortsEnable _)
  by_cases h7 : k = 7
  · rw [h7, stepWork_seven]
    exact (comesUpOnly_arrayMapped s e).trans (comesUpOnly_arrayReady _ true)
  unfold stepWork
  dsimp only
  split
  next => exact absurd rfl h1
  next => exact .of_regs rfl rfl rfl rfl rfl
  next => exact ((comesUpOnly_measure s _).bootReady _).bootReady _
  next =>
    have h := ((comesUpOnly_measure s e.image).bootReady bLamplighter).bootReady bLaser
    split
    · exact h.trans (.of_regs rfl rfl rfl rfl rfl)
    · exact h
  next => exact comesUpOnly_pathChoose s _
  next => exact absurd rfl h6
  next => exact absurd rfl h7
  next => exact (comesUpOnly_stacksTrained s _).trans (comesUpOnly_fallbackNote _ _)
  next => exact absurd rfl h9
  next => exact ((comesUpOnly_measure s _).bootReady _).bootReadyAll _
  next => exact .refl s

theorem comesUp_hbmBroughtUp (s : State) : ComesUp s (hbmBroughtUp s) := by
  have hv : ComesUp s { s with mem := MemSt.reset, ll := { s.ll with snaps := [], snapSeq := [] } } := .of_regs rfl rfl rfl
  exact hv.trans ((ComesUpOnly.refl _).bootReadyAll _).toComesUp

theorem hbmBroughtUp_hbm (s : State) : (hbmBroughtUp s).mem.hbm = [] :=
  forEach_bootReady_keeps (·.mem.hbm) bootReady_hbm hbmBlocks _

/-- Blocks come up in every step. -/
theorem comesUp_stepWork (s : State) (e : StepEnd) (k : Nat) : ComesUp s (stepWork s k e) := by
  by_cases h1 : k = 1
  · obtain ⟨u, x, hu, -, -, hx, h⟩ := stepWork_one s e
    rw [h1, h]
    exact hu.toComesUp.trans (.of_regs rfl hx rfl)
  by_cases h9 : k = 9
  · obtain ⟨x, h⟩ := stepWork_nine s e
    rw [h9, h]
    exact (comesUp_hbmBroughtUp s).trans (.of_regs rfl rfl rfl)
  exact (comesUpOnly_stepWork s e h1 h9).toComesUp

/-! ## What the steps bring about -/

/-- The blocks besides the looms that a step of a package bring-up makes READY (R589). -/
def bringupBlocks (i : Nat) : List Nat :=
  if i = 1 then [bFuse] else if i = 3 then [bCustody, bPartition] else if i = 4 then [bLamplighter, bLaser]
  else if i = 5 then [bPower] else if i = 6 then [bLtime, bTimer, bHostport] ++ (List.range 8).map bReed ++ (List.range 8).map bGlimmer
  else if i = 7 then arrayBlocks else if i = 9 then hbmBlocks
  else if i = 10 then [bApc, bNetio] ++ (List.range 12).map (fun i => bShuttle (48 + i)) else []

theorem pathChoose_ready (s : State) (tj : Int) : rdB (pathChoose s tj) bPower F.STATE_READY = true := by
  unfold pathChoose
  dsimp only
  split
  · exact (((ComesUpOnly.refl _).wr (f := F.FUSE_BOOTSTAT_PATH) (by decide) _ _).inc (f := F.FUSE_WARMBOOTS_COUNT) (by decide) _ |>.trans
      (comesUpOnly_trecWarm _)).ready _ (bootReady_ready _ _)
  · exact (((ComesUpOnly.refl _).wr (f := F.FUSE_BOOTSTAT_PATH) (by decide) _ _).inc (f := F.FUSE_COLDBOOTS_COUNT) (by decide) _).ready _
      (bootReady_ready _ _)

/-- Two blocks in turn. -/
theorem bootReady_two (s : State) {b c x : Nat} (h : x ∈ [b, c]) : rdB (bootReady (bootReady s b) c) x F.STATE_READY = true := by
  simp only [List.mem_cons, List.not_mem_nil, or_false] at h
  obtain rfl | rfl := h
  · exact ((ComesUpOnly.refl _).bootReady c).ready _ (bootReady_ready s _)
  · exact bootReady_ready _ _

theorem mem_appBlocks {b : Nat} : b ∈ appBlocks ↔ b ∈ [bApc, bNetio] ++ (List.range 12).map (fun i => bShuttle (48 + i)) := by
  simp only [appBlocks, List.mem_cons, List.mem_append, List.not_mem_nil, or_false]; tauto

theorem mem_ioBlocks {b : Nat} :
    b ∈ ioBlocks ↔ b ∈ [bLtime, bTimer, bHostport] ++ (List.range 8).map bReed ++ (List.range 8).map bGlimmer := by
  simp only [ioBlocks, List.mem_cons, List.mem_append, List.not_mem_nil, or_false]; tauto

/-- A step makes its blocks READY. -/
theorem stepWork_ready (s : State) (e : StepEnd) {k b : Nat} (h : b ∈ bringupBlocks k) : rdB (stepWork s k e) b F.STATE_READY = true := by
  unfold bringupBlocks at h
  split_ifs at h with h1 h3 h4 h5 h6 h7 h9 h10
  · obtain ⟨u, x, -, -, hr, -, he⟩ := stepWork_one s e
    rw [List.mem_singleton] at h
    rw [h1, he, h]
    exact hr
  · subst h3
    exact bootReady_two (measure s e.image) h
  · subst h4
    have hr := bootReady_two (measure s e.image) h
    simp only [stepWork]
    split
    · exact hr
    · exact hr
  · rw [List.mem_singleton] at h
    subst h5 h
    exact pathChoose_ready s e.tj
  · obtain ⟨n, he⟩ := stepWork_six s e
    rw [h6, he]
    exact ((comesUpOnly_hostLinkUp _ e).trans (comesUpOnly_glimPortsEnable _)).ready _ (forEach_bootReady_ready _ (mem_ioBlocks.2 h))
  · rw [h7, stepWork_seven]
    exact arrayReady_ready _ true h
  · obtain ⟨x, he⟩ := stepWork_nine s e
    rw [h9, he]
    exact forEach_bootReady_ready _ h
  · rw [h10, stepWork_ten]
    exact forEach_bootReady_ready _ (mem_appBlocks.2 h)
  · cases h

/-- Steps 3, 4 and 10 measure an image (R562). -/
theorem stepWork_measures (s : State) (e : StepEnd) {k : Nat} (h : k = 3 ∨ k = 4 ∨ k = 10) :
    (stepWork s k e).cust.meas.length = s.cust.meas.length + 1 := by
  obtain rfl | rfl | rfl := h
  · simp [stepWork]
  · simp only [stepWork]
    split <;> simp
  · rw [stepWork_ten, forEach_bootReady_keeps (·.cust.meas.length) (by simp), measure_meas_length]

/-- Step 4 takes FAULT_N back where no step has failed (R594). -/
theorem stepWork_four_faultN (s : State) (e : StepEnd) (h : rd s bFuse F.FUSE_BOOTSTAT_FAILSTEP = 0) :
    (stepWork s 4 e).ll.faultN = false := by
  have hm : rd (measure s e.image) bFuse F.FUSE_BOOTSTAT_FAILSTEP = 0 := (rd_inc_apart (by decide) _ _ _).trans h
  simp only [stepWork, rd_bootReady_apart (g := F.FUSE_BOOTSTAT_FAILSTEP) (b' := bFuse) (by decide) (by decide), hm, if_true, send_ll]

theorem warmOk_congr {s t : State} (hf : rd t bFuse F.FUSE_BOOTCFG_FAST = rd s bFuse F.FUSE_BOOTCFG_FAST) (hw : t.boot.wipe = s.boot.wipe)
    (hn : t.nv = s.nv) (tj : Int) : warmOk t tj = warmOk s tj := by
  simp only [warmOk, rdB, hf, hw, trecBest, dieNumber, fusedDclass, fuse, hn]

theorem trecWarm_regs (s : State) : (trecWarm s).regs = s.regs := by unfold trecWarm; split <;> rfl
theorem trecWarm_pw (s : State) : (trecWarm s).pw = s.pw := by unfold trecWarm; split <;> rfl

/-- Step 5 has the rails on, and BOOTSTAT.PATH tells the path chosen (R590). -/
theorem pathChoose_chooses (s : State) (tj : Int) :
    (pathChoose s tj).pw = { s.pw with enIo := true, enHbm := true, enCmp := true } ∧
      rd (pathChoose s tj) bFuse F.FUSE_BOOTSTAT_PATH = if warmOk s tj then pathWarm else pathCold := by
  unfold pathChoose
  dsimp only
  set u := bootReady (send { s with pw := { s.pw with enIo := true, enHbm := true, enCmp := true }, boot := { s.boot with tj := tj } }
    .pin bPower [7]) bPower with hu
  have hpw : u.pw = { s.pw with enIo := true, enHbm := true, enCmp := true } := by rw [hu, bootReady_pw]; rfl
  have hw : warmOk u tj = warmOk s tj := by
    refine warmOk_congr ?_ (by rw [hu, bootReady_wipe]; rfl) (by rw [hu, bootReady_nv]; rfl) tj
    rw [hu, rd_bootReady_apart (by decide) (by decide)]
    exact rd_congr rfl _ _
  rw [hw]
  split
  · refine ⟨by rw [trecWarm_pw, inc_pw, wr_pw, hpw], ?_⟩
    rw [rd_congr (trecWarm_regs _), rd_inc_apart (by decide), rd_wr_self _ _ _ _ (by decide)]; rfl
  · refine ⟨by rw [inc_pw, wr_pw, hpw], ?_⟩
    rw [rd_inc_apart (by decide), rd_wr_self _ _ _ _ (by decide)]; rfl

/-! ## A step that runs ends -/

/-- A step that runs: what it waits for has ended, and it has not. -/
structure StepDue (s : State) (waits : Nat → Nat) (k : Nat) : Prop where
  active : s.boot.active = true
  rungs : s.ll.rungs = []
  fresh : k ∉ s.boot.ended
  ready : k = 1 ∨ waits k ∈ s.boot.ended

/-- Step `k` counts as ended, its work not yet done. -/
def stepCounted (s : State) (k : Nat) : State :=
  let s := wr s bFuse F.FUSE_BOOTSTAT_STEP k
  { s with boot := { s.boot with ended := s.boot.ended ++ [k] } }

theorem rd_stepCounted_apart {g : Fld} (h : fldsApart F.FUSE_BOOTSTAT_STEP g = true) (s : State) (k b : Nat) :
    rd (stepCounted s k) b g = rd s b g :=
  (rd_congr rfl b g).trans (rd_wr_apart h s bFuse b k)

theorem stepCounted_step (s : State) {k : Nat} (h : k < 16) : rd (stepCounted s k) bFuse F.FUSE_BOOTSTAT_STEP = k := by
  calc rd (stepCounted s k) bFuse F.FUSE_BOOTSTAT_STEP = rd (wr s bFuse F.FUSE_BOOTSTAT_STEP k) bFuse F.FUSE_BOOTSTAT_STEP := rd_congr rfl _ _
    _ = k := by rw [rd_wr_self _ _ _ _ (by decide)]; exact Nat.mod_eq_of_lt h

theorem rungsCheck_of_no_rungs {s : State} (h : s.ll.rungs = []) : rungsCheck s = s := by
  simp only [rungsCheck, modLl, h, List.filter_nil, forEach, List.foldl_nil]
  rw [← h]

/-- The guard of a path on which no step runs. -/
theorem stepGuard_of_not_due {s : State} {waits : Nat → Nat} {k : Nat} (h : k = 0 ∨ k ∈ s.boot.ended ∨ (k ≠ 1 ∧ waits k ∉ s.boot.ended))
    (c : Bool) (top : Nat) :
    !s.boot.active ∨ c ∨ k = 0 ∨ top < k ∨ s.boot.ended.contains k ∨ (k ≠ 1 ∧ !s.boot.ended.contains (waits k)) := by
  simp only [List.contains_eq_mem, Bool.not_eq_true', decide_eq_true_eq, decide_eq_false_iff_not]
  tauto

/-- The guard of a path does not stop a step that is due. -/
theorem StepDue.not_guard {s : State} {waits : Nat → Nat} {k : Nat} (h : StepDue s waits k) {c : Bool} (hc : c = false) {top : Nat}
    (h1 : 1 ≤ k) (ht : k ≤ top) :
    ¬ (!s.boot.active ∨ c ∨ k = 0 ∨ top < k ∨ s.boot.ended.contains k ∨ (k ≠ 1 ∧ !s.boot.ended.contains (waits k))) := by
  obtain ⟨ha, -, hn, hw⟩ := h
  simp only [List.contains_eq_mem, Bool.not_eq_true', decide_eq_true_eq, decide_eq_false_iff_not, ha, hc]
  rintro (h | h | h | h | h | ⟨h, h'⟩)
  · cases h
  · cases h
  · omega
  · omega
  · exact hn h
  · exact hw.elim h h'

/-- Nothing runs that the step could end. -/
theorem stepEnds_of_not_due {s : State} {k : Nat} (e : StepEnd) (ha : s.boot.active = true)
    (h : k = 0 ∨ k ∈ s.boot.ended ∨ (k ≠ 1 ∧ (if s.boot.cpr then k - 1 else stepAfter k) ∉ s.boot.ended)) : stepEnds s k e = s := by
  unfold stepEnds
  cases hc : s.boot.cpr with
  | true =>
    have hg : cpStep s k e = some s := if_pos (stepGuard_of_not_due (waits := fun k => k - 1) (by simpa [hc] using h) _ 6)
    simp [ha, hg]
  | false =>
    have hg : bootStep s k e = s := if_pos (stepGuard_of_not_due (waits := stepAfter) (by simpa [hc] using h) _ 10)
    simp [ha, hg]

/-- A step of a package bring-up ends. -/
theorem stepEnds_boot {s : State} {k : Nat} (e : StepEnd) (h : StepDue s stepAfter k) (hc : s.boot.cpr = false) (h1 : 1 ≤ k)
    (h10 : k ≤ 10) : stepEnds s k e =
      if e.ok then bootDone (stepWork (stepCounted s k) k e) 10
      else stepFails (if k = 8 then stacksTrained (wr s bFuse F.FUSE_BOOTSTAT_STEP k) e.trained else wr s bFuse F.FUSE_BOOTSTAT_STEP k) k := by
  have hb : stepEnds s k e = bootStep s k e := by simp [stepEnds, h.active, hc]
  rw [hb, bootStep]
  dsimp only
  rw [if_neg (h.not_guard hc h1 h10)]
  cases e.ok
  · rfl
  · rfl

/-- A step of a compute-partition reset ends. -/
theorem stepEnds_cp {s : State} {k : Nat} (e : StepEnd) (h : StepDue s (fun k => k - 1) k) (hc : s.boot.cpr = true) (h1 : 1 ≤ k)
    (h6 : k ≤ 6) : stepEnds s k e =
      if e.ok then bootDone (cpWork (stepCounted s k) k e) 6
      else if k = 3 ∨ k = 4 then packageReset s false (selfPkg s) else stepFails (wr s bFuse F.FUSE_BOOTSTAT_STEP k) k := by
  unfold stepEnds cpStep
  rw [if_pos (by simp [h.active, hc])]
  dsimp only
  rw [if_neg (h.not_guard (c := !s.boot.cpr) (by simp [hc]) h1 h6)]
  cases e.ok
  · by_cases hk : k = 3 ∨ k = 4
    · simp [hk]
    · simp [hk]
  · rfl

/-! ## A step that fails -/

/-- One controller shows its pseudo-channels. -/
def stackTrained (up : BitVec 64) (c : Nat) (s : State) : State :=
  let u := bits up.toNat (16 * c + 15) (16 * c)
  let s := wr s (bHbmc c) F.HBMC_PCSTAT_UP u
  if u = 0xFFFF then s else latchFault s (bHbmc c) 0x0603

theorem stackTrained_boot (up : BitVec 64) (c : Nat) (s : State) : (stackTrained up c s).boot = s.boot := by
  unfold stackTrained
  dsimp only
  split
  · rfl
  · rw [latchFault_boot]; rfl

theorem stackTrained_ll (up : BitVec 64) (c : Nat) (s : State) : (stackTrained up c s).ll = s.ll := by
  unfold stackTrained
  dsimp only
  split
  · rfl
  · rw [latchFault_ll]; rfl

theorem rd_stackTrained_fuse {g : Fld} (hg : g.off < 4096) (up : BitVec 64) (c : Nat) (s : State) :
    rd (stackTrained up c s) bFuse g = rd s bFuse g := by
  have hne : bFuse ≠ bHbmc c := by unfold bFuse bHbmc; omega
  have hw : ∀ v, rd (wr s (bHbmc c) F.HBMC_PCSTAT_UP v) bFuse g = rd s bFuse g :=
    fun v => rd_wr_block s v (by decide) hg hne
  unfold stackTrained
  dsimp only
  split
  · exact hw _
  · exact (rd_latchFault_block hg _ _ hne).trans (hw _)

@[simp] theorem stacksTrained_boot (s : State) (up : BitVec 64) : (stacksTrained s up).boot = s.boot :=
  forEach_keeps (·.boot) (stackTrained_boot up) (List.range 4) s

@[simp] theorem stacksTrained_ll (s : State) (up : BitVec 64) : (stacksTrained s up).ll = s.ll :=
  forEach_keeps (·.ll) (stackTrained_ll up) (List.range 4) s

theorem rd_stacksTrained_fuse {g : Fld} (hg : g.off < 4096) (s : State) (up : BitVec 64) :
    rd (stacksTrained s up) bFuse g = rd s bFuse g :=
  forEach_keeps (fun s => rd s bFuse g) (rd_stackTrained_fuse hg up) (List.range 4) s

/-- What a failed step shows (R597). -/
structure StepFailed (s : State) (k : Nat) (t : State) : Prop where
  failstep : rd t bFuse F.FUSE_BOOTSTAT_FAILSTEP = k
  valid : rdB t bFuse F.FAULTCAUSE_VALID = true
  faultN : t.ll.faultN = true
  boot : t.boot = s.boot
  cause : rd s bFuse F.FAULTCAUSE_VALID = 0 → rd t bFuse F.FAULTCAUSE_CAUSE = 0x0C02
  rungs : t.ll.rungs = s.ll.rungs

theorem stepFails_failed (s : State) {k : Nat} (hk : k < 16) : StepFailed s k (stepFails s k) := by
  obtain ⟨hv, hc⟩ := latchFault_shows s bFuse 0x0C02
  have e : ∀ g, rd (stepFails s k) bFuse g = rd (wr (latchFault s bFuse 0x0C02) bFuse F.FUSE_BOOTSTAT_FAILSTEP k) bFuse g :=
    fun g => rd_congr rfl bFuse g
  refine ⟨?_, ?_, rfl, ?_, fun h0 => ?_, ?_⟩
  · rw [e, rd_wr_self _ _ _ _ (by decide)]
    exact Nat.mod_eq_of_lt hk
  · rw [rdB, e, rd_wr_apart (by decide)]
    exact hv
  · exact latchFault_boot s bFuse 0x0C02
  · rw [e, rd_wr_apart (by decide)]
    exact hc h0
  · change (latchFault s bFuse 0x0C02).ll.rungs = _
    rw [latchFault_ll]

/-- What happened before the failure shows as little of FUSE as the step's number. -/
theorem StepFailed.before {s u t : State} {k : Nat} (h : StepFailed u k t) (hb : u.boot = s.boot) (hl : u.ll = s.ll)
    (hv : rd u bFuse F.FAULTCAUSE_VALID = rd s bFuse F.FAULTCAUSE_VALID) : StepFailed s k t :=
  ⟨h.failstep, h.valid, h.faultN, h.boot.trans hb, fun h0 => h.cause (hv.trans h0), h.rungs.trans (congrArg LlSt.rungs hl)⟩

theorem stepEnds_boot_fails {s : State} {k : Nat} {e : StepEnd} (h : StepDue s stepAfter k) (hc : s.boot.cpr = false) (h1 : 1 ≤ k)
    (h10 : k ≤ 10) (he : e.ok = false) : StepFailed s k (stepEnds s k e) := by
  have hv : rd (wr s bFuse F.FUSE_BOOTSTAT_STEP k) bFuse F.FAULTCAUSE_VALID = rd s bFuse F.FAULTCAUSE_VALID :=
    rd_wr_apart (by decide) s _ _ k
  rw [stepEnds_boot e h hc h1 h10, he]
  refine (stepFails_failed _ (by omega)).before ?_ ?_ ?_
  · split
    · exact stacksTrained_boot _ _
    · rfl
  · split
    · exact stacksTrained_ll _ _
    · rfl
  · split
    · exact (rd_stacksTrained_fuse (by decide) _ _).trans hv
    · exact hv

theorem stepEnds_cp_fails {s : State} {k : Nat} {e : StepEnd} (h : StepDue s (fun k => k - 1) k) (hc : s.boot.cpr = true) (h1 : 1 ≤ k)
    (h6 : k ≤ 6) (he : e.ok = false) (h3 : k ≠ 3) (h4 : k ≠ 4) : StepFailed s k (stepEnds s k e) := by
  rw [stepEnds_cp e h hc h1 h6, he, if_neg (by decide), if_neg (by tauto)]
  exact (stepFails_failed _ (by omega)).before rfl rfl (rd_wr_apart (by decide) s _ _ k)

/-- A package reset starts a bring-up at LT 0 with no rung in progress. -/
theorem packageReset_starts (s : State) (self : Nat) :
    (packageReset s false self).boot = { BootSt.reset with active := true } ∧ ltNow (packageReset s false self) = 0 ∧
      (packageReset s false self).ll.rungs = [] := by
  have hk : ∀ {β : Type} (φ : State → β), (∀ b s, φ (txnAborted s b) = φ s) →
      ∀ xs s, φ (forEach xs (fun b t => txnAborted t b) s) = φ s :=
    fun φ h xs s => forEach_keeps φ h xs s
  unfold packageReset
  dsimp only
  refine ⟨?_, ?_, ?_⟩
  · simp only [send_boot, wr_boot]
    exact hk (·.boot) (fun _ _ => rfl) _ _
  · simp only [ltNow, send_ltime, wr_ltime]
    exact hk (·.ltime.lt) (fun _ _ => rfl) _ _
  · simp only [send_ll, wr_ll]
    exact hk (·.ll.rungs) (fun _ _ => rfl) _ _

/-! ## The steps of a compute-partition reset (R592) -/

/-- The blocks that a step of a compute-partition reset makes READY. -/
def computeBlocks (i : Nat) : List Nat :=
  if i = 2 then arrayBlocks else if i = 3 then hbmBlocks
  else if i = 6 then [bApc, bNetio] ++ (List.range 12).map (fun i => bShuttle (48 + i)) else []

theorem cpWork_two (s : State) (e : StepEnd) :
    cpWork s 2 e = arrayReady (wr (showMaps s) bSeam F.SEAM_LINKUP_UP e.seams.toNat) false := by simp only [cpWork]

theorem cpWork_three (s : State) (e : StepEnd) :
    cpWork s 3 e = trecWrite (forEach hbmBlocks (fun b s => bootReady s b) (stacksTrained s e.trained)) := by
  simp only [cpWork, hbmBlocks]

theorem cpWork_six (s : State) (e : StepEnd) :
    cpWork s 6 e = inc (forEach appBlocks (fun b s => bootReady s b) s) bFuse F.FUSE_CPRESETS_COUNT := by
  simp only [cpWork, appBlocks, List.cons_append, List.nil_append]

/-- One loom in the loop of step 5. -/
def loomRestore (x : Nat × Loom × Tab Word) (s : State) : State :=
  if rdB s (bLoom x.1) F.STATE_READY then loomBack s x.1 x.2.1 x.2.2 else s

theorem cpWork_five (s : State) (e : StepEnd) : cpWork s 5 e =
    (let t := forEach s.boot.kept loomRestore s; { t with boot := { t.boot with kept := [] } }) := by
  simp only [cpWork, forEach, loomRestore]

/-- A step but the fifth brings blocks up and leaves HBM. -/
theorem comesUpOnly_cpWork (s : State) (e : StepEnd) {k : Nat} (h5 : k ≠ 5) : ComesUpOnly s (cpWork s k e) := by
  by_cases h2 : k = 2
  · rw [h2, cpWork_two]
    exact ((comesUpOnly_showMaps s).wr (by decide) _ _).trans (comesUpOnly_arrayReady _ _)
  by_cases h3 : k = 3
  · rw [h3, cpWork_three]
    exact ((comesUpOnly_stacksTrained s _).bootReadyAll _).trans (comesUpOnly_trecWrite _)
  by_cases h6 : k = 6
  · rw [h6, cpWork_six]
    exact ((ComesUpOnly.refl s).bootReadyAll _).inc (by decide) _
  have h : cpWork s k e = s := by
    unfold cpWork
    split
    · exact absurd rfl h2
    · exact absurd rfl h3
    · exact absurd rfl h5
    · exact absurd rfl h6
    · rfl
  rw [h]
  exact .refl s

theorem cpWork_ready (s : State) (e : StepEnd) {k b : Nat} (h : b ∈ computeBlocks k) : rdB (cpWork s k e) b F.STATE_READY = true := by
  unfold computeBlocks at h
  split_ifs at h with h2 h3 h6
  · rw [h2, cpWork_two]
    exact arrayReady_ready _ _ h
  · rw [h3, cpWork_three]
    exact (comesUpOnly_trecWrite _).ready _ (forEach_bootReady_ready _ h)
  · rw [h6, cpWork_six]
    exact ((ComesUpOnly.refl _).inc (by decide) _).ready _ (forEach_bootReady_ready _ (mem_appBlocks.2 h))
  · cases h

/-! ## Looms are rebuilt (R592) -/

/-- Putting registers of a loom back touches registers. -/
theorem loomRegsPut_frame (s : State) (l : Nat) (rs : Tab Word) : ∃ r, loomRegsPut s l rs = { s with regs := r } := by
  unfold loomRegsPut
  induction rs generalizing s with
  | nil => exact ⟨s.regs, rfl⟩
  | cons e rs ih =>
    obtain ⟨r, h⟩ := ih (regSet s (bLoom l) (e.1 / 65536) (e.1 % 65536) e.2)
    exact ⟨r, h.trans rfl⟩

/-- Registers of another block stand, where the offsets put back lie in a page. -/
theorem rd_loomRegsPut_ne (s : State) {l b : Nat} (hb : b ≠ bLoom l) {rs : Tab Word} (h : ∀ y ∈ rs, y.1 / 65536 < 4096) {g : Fld}
    (hg : g.off < 4096) : rd (loomRegsPut s l rs) b g = rd s b g := by
  unfold loomRegsPut
  induction rs generalizing s with
  | nil => rfl
  | cons e rs ih =>
    rw [List.forall_mem_cons] at h
    have hi : e.1 % 65536 < 65536 := Nat.mod_lt _ (by decide)
    refine (ih _ h.2).trans ?_
    rw [rd, rdI, regGet_regSet_ne _ _ _ _ _ (regKey_ne hg h.1 (by decide) hi (.inl hb))]
    rfl

theorem bstatShow_frame (s : State) (l : Nat) : ∃ r, bstatShow s l = { s with regs := r } := by
  unfold bstatShow
  dsimp only
  split
  · exact ⟨_, rfl⟩
  · exact ⟨_, rfl⟩

theorem rd_bstatShow_ne (s : State) {l b : Nat} (hb : b ≠ bLoom l) {g : Fld} (hg : g.off < 4096) :
    rd (bstatShow s l) b g = rd s b g := by
  unfold bstatShow
  dsimp only
  split
  · rw [rd_wr_block _ _ (by decide) hg hb, rd_wr_block _ _ (by decide) hg hb, rd_wr_block _ _ (by decide) hg hb]
  · rw [rd_wr_block _ _ (by decide) hg hb, rd_wr_block _ _ (by decide) hg hb]

theorem loomBack_frame (s : State) (l : Nat) (m : Loom) (rs : Tab Word) :
    ∃ r, loomBack s l m rs = { setLoom s l (loomRebuilt m) with regs := r } := by
  obtain ⟨r, h⟩ := loomRegsPut_frame (setLoom s l (loomRebuilt m)) l rs
  obtain ⟨r', h'⟩ := bstatShow_frame { setLoom s l (loomRebuilt m) with regs := r } l
  exact ⟨_, by rw [loomBack, h, h']; rfl⟩

theorem rd_loomBack_ne (s : State) {l b : Nat} (m : Loom) (hb : b ≠ bLoom l) {rs : Tab Word} (h : ∀ y ∈ rs, y.1 / 65536 < 4096) {g : Fld}
    (hg : g.off < 4096) : rd (loomBack s l m rs) b g = rd s b g := by
  rw [loomBack, rd_wr_block _ _ (by decide) hg hb, rd_bstatShow_ne _ hb hg,
    rd_loomRegsPut_ne _ hb h hg]
  rfl

theorem loomRestore_frame (x : Nat × Loom × Tab Word) (s : State) :
    ∃ r ls, loomRestore x s = { s with regs := r, looms := ls } := by
  unfold loomRestore
  split
  · obtain ⟨r, h⟩ := loomBack_frame s x.1 x.2.1 x.2.2
    exact ⟨_, _, h⟩
  · exact ⟨s.regs, s.looms, rfl⟩

theorem loom_loomRestore_ne (x : Nat × Loom × Tab Word) (s : State) {j : Nat} (h : j ≠ x.1) : loom (loomRestore x s) j = loom s j := by
  unfold loomRestore
  split
  · obtain ⟨r, e⟩ := loomBack_frame s x.1 x.2.1 x.2.2
    rw [e]
    exact loom_setLoom_ne s x.1 _ h
  · rfl

theorem loom_loomRestore_self (x : Nat × Loom × Tab Word) {s : State} (h : rdB s (bLoom x.1) F.STATE_READY = true) :
    loom (loomRestore x s) x.1 = loomRebuilt x.2.1 := by
  obtain ⟨r, e⟩ := loomBack_frame s x.1 x.2.1 x.2.2
  rw [loomRestore, if_pos h, e]
  exact loom_setLoom_self s x.1 _

theorem ready_loomRestore_ne (x : Nat × Loom × Tab Word) (s : State) {j : Nat} (h : j ≠ x.1) (hx : ∀ y ∈ x.2.2, y.1 / 65536 < 4096) :
    rdB (loomRestore x s) (bLoom j) F.STATE_READY = rdB s (bLoom j) F.STATE_READY := by
  have hb : bLoom j ≠ bLoom x.1 := by unfold bLoom; omega
  unfold loomRestore
  split
  · rw [rdB, rd_loomBack_ne s _ hb hx (by decide)]; rfl
  · rfl

theorem loom_restore_out (xs : List (Nat × Loom × Tab Word)) (s : State) {j : Nat} (h : j ∉ xs.map (·.1)) :
    loom (forEach xs loomRestore s) j = loom s j := by
  induction xs generalizing s with
  | nil => rfl
  | cons x xs ih =>
    rw [List.map_cons, List.mem_cons, not_or] at h
    rw [forEach_cons, ih _ h.2, loom_loomRestore_ne x s h.1]

/-- Every loom of the list that is READY is rebuilt. -/
theorem loom_restore_in {xs : List (Nat × Loom × Tab Word)} (s : State) (hn : (xs.map (·.1)).Nodup)
    (ho : ∀ x ∈ xs, ∀ y ∈ x.2.2, y.1 / 65536 < 4096) {x : Nat × Loom × Tab Word} (hx : x ∈ xs)
    (hr : rdB s (bLoom x.1) F.STATE_READY = true) : loom (forEach xs loomRestore s) x.1 = loomRebuilt x.2.1 := by
  induction xs generalizing s with
  | nil => cases hx
  | cons a xs ih =>
    rw [List.map_cons, List.nodup_cons] at hn
    rw [List.forall_mem_cons] at ho
    rw [forEach_cons]
    rcases List.mem_cons.1 hx with rfl | hx
    · rw [loom_restore_out xs _ hn.1, loom_loomRestore_self x hr]
    · have hne : x.1 ≠ a.1 := fun e => hn.1 (e ▸ List.mem_map_of_mem hx)
      exact ih _ hn.2 ho.2 hx ((ready_loomRestore_ne a s hne ho.1).trans hr)

/-- Step 5 touches looms, registers, and the list of looms to restore. -/
theorem cpWork_five_keeps (s : State) (e : StepEnd) : (cpWork s 5 e).boot.ended = s.boot.ended ∧ (cpWork s 5 e).ll = s.ll ∧
    (cpWork s 5 e).mem = s.mem := by
  rw [cpWork_five]
  have hk : ∀ {β : Type} (φ : State → β), (∀ (s : State) r ls, φ { s with regs := r, looms := ls } = φ s) →
      φ (forEach s.boot.kept loomRestore s) = φ s := fun φ h => forEach_keeps φ (fun x s => by
        obtain ⟨r, ls, e⟩ := loomRestore_frame x s
        rw [e, h]) _ s
  exact ⟨hk (·.boot.ended) (fun _ _ _ => rfl), hk (·.ll) (fun _ _ _ => rfl), hk (·.mem) (fun _ _ _ => rfl)⟩

/-! ## The compute partition goes down (R12) -/

/-- From `s` to `t` only registers, Lamplighter and what is sent have changed, and no block's READY or OWNER. -/
structure HeaderKept (s t : State) : Prop where
  frame : ∃ r l o, t = { s with regs := r, ll := l, out := o }
  ready : ∀ b, rd t b F.STATE_READY = rd s b F.STATE_READY
  owner : ∀ b, rd t b F.OWNER_PART = rd s b F.OWNER_PART

namespace HeaderKept

variable {s t u : State}

theorem refl (s : State) : HeaderKept s s := ⟨⟨_, _, _, rfl⟩, fun _ => rfl, fun _ => rfl⟩

theorem trans (h : HeaderKept s t) (k : HeaderKept t u) : HeaderKept s u := by
  obtain ⟨r, l, o, e⟩ := h.frame
  obtain ⟨r', l', o', e'⟩ := k.frame
  exact ⟨⟨r', l', o', by rw [e', e]⟩, fun b => (k.ready b).trans (h.ready b), fun b => (k.owner b).trans (h.owner b)⟩

theorem wr (h : HeaderKept s t) {f : Fld} (hr : fldsApart f F.STATE_READY = true) (ho : fldsApart f F.OWNER_PART = true) (b v : Nat) :
    HeaderKept s (wr t b f v) :=
  h.trans ⟨⟨_, _, _, rfl⟩, fun b' => rd_wr_apart hr t b b' v, fun b' => rd_wr_apart ho t b b' v⟩

theorem send (h : HeaderKept s t) (k : MsgKind) (d : Nat) (a : List Nat) : HeaderKept s (send t k d a) :=
  h.trans ⟨⟨t.regs, t.ll, _, rfl⟩, fun b => rd_send t k d a b _, fun b => rd_send t k d a b _⟩

theorem forEach {α : Type} {f : α → State → State} (hf : ∀ a t, HeaderKept t (f a t)) (h : HeaderKept s t) (xs : List α) :
    HeaderKept s (forEach xs f t) := by
  unfold Machine.forEach
  induction xs generalizing t with
  | nil => exact h
  | cons a xs ih => exact ih (h.trans (hf a t))

end HeaderKept

theorem headerKept_handTake (s : State) : HeaderKept s (handTake s) := by
  unfold handTake
  split
  · have h : HeaderKept s { s with ll := { s.ll with faultN := true, handPend := false, lost := true } } :=
      ⟨⟨_, _, _, rfl⟩, fun _ => rfl, fun _ => rfl⟩
    have hw := (h.wr (f := F.LL_HANDBEAT_LO_N) (by decide) (by decide) bLamplighter (s.beat.n % 2 ^ 32 / 2 ^ F.LL_HANDBEAT_LO_N.lo)).wr
      (f := F.LL_HANDBEAT_HI_N) (by decide) (by decide) bLamplighter (s.beat.n / 2 ^ 32)
    exact hw.trans ⟨⟨_, _, _, rfl⟩, fun _ => rfl, fun _ => rfl⟩
  · exact .refl s

/-- Nothing waits for the boundary. -/
theorem boundaryApply_of_quiet {s : State} (h : quiet s) : boundaryApply s = s := by
  obtain ⟨hd, hm⟩ := h
  have e : decisionsApply s = s := by
    unfold decisionsApply forEach
    rw [hd, List.foldl_nil, ← hd]
  unfold boundaryApply
  dsimp only
  rw [e]
  exact forEach_id (fun b => by simp [when', hm b]) _

theorem modePend_congr {s t : State} (h : t.blk = s.blk) (b : Nat) : modePend t b = modePend s b := by
  simp only [modePend, ctl, h]

/-- The members that wait in an armed or preparing group slot return to OPEN. -/
def slotMembersOpen (e : Nat × GroupSlot) (s : State) : State :=
  if e.2.state = .armed ∨ e.2.state = .preparing then
    forEach e.2.blocks (fun m s =>
      if rd s m F.TXN_TSTATE = tsPending ∧ rd s m F.TXN_GROUP = e.1 then wr (wr s m F.TXN_TSTATE tsOpen) m F.TXN_GROUP 0
      else s) s
  else s

theorem headerKept_slotMembersOpen (e : Nat × GroupSlot) (s : State) : HeaderKept s (slotMembersOpen e s) := by
  unfold slotMembersOpen
  split
  · refine (HeaderKept.refl s).forEach (fun m t => ?_) _
    split
    · exact ((HeaderKept.refl t).wr (by decide) (by decide) _ _).wr (by decide) (by decide) _ _
    · exact .refl t
  · exact .refl s

/-- The beat engine's reset where nothing waits for a boundary. -/
theorem subReset_beat {s : State} (h : quiet s) : ∃ u, HeaderKept s u ∧ subReset s bBeat = { u with beat := BeatSt.reset } := by
  obtain ⟨hd, hm⟩ := h
  set u := forEach (handTake s).beat.slots slotMembersOpen (handTake s)
  have hu : HeaderKept s u := (headerKept_handTake s).forEach headerKept_slotMembersOpen _
  have hq : quiet { u with beat := BeatSt.reset } := by
    obtain ⟨r, l, o, e⟩ := hu.frame
    rw [e]
    exact ⟨hd, fun b => (modePend_congr rfl b).trans (hm b)⟩
  exact ⟨u, hu, boundaryApply_of_quiet hq⟩

/-! ## Registers that are dropped -/

theorem keyBlock_regKey {off i : Nat} (b : Nat) (ho : off < 4096) (hi : i < 65536) : keyBlock (regKey b off i) = b := by
  unfold keyBlock regKey; omega

theorem keyOff_regKey {off i : Nat} (b : Nat) (ho : off < 4096) (hi : i < 65536) : keyOff (regKey b off i) = off := by
  unfold keyOff regKey; omega

/-- A register that is dropped reads its reset value, another one as before. -/
theorem regGet_regsDrop (s : State) (p : Nat → Nat → Bool) (b : Nat) {off : Nat} (ho : off < 4096) :
    regGet (regsDrop s p) b off 0 = if p b off then resetWord b off else regGet s b off 0 := by
  unfold regGet regsDrop
  have hb := keyBlock_regKey b ho (i := 0) (by decide)
  have hf := keyOff_regKey b ho (i := 0) (by decide)
  split
  next h => exact tabGet_filter_neg _ (fun k => !p (keyBlock k) (keyOff k)) _ _ (by simp [hb, hf, h])
  next h => exact tabGet_filter_pos _ (fun k => !p (keyBlock k) (keyOff k)) _ _ (by simp [hb, hf, h])

theorem mapReset_ready (k : Kind) : fldGet F.STATE_READY (mapReset k F.STATE_READY.off) = 0 := by cases k <;> decide +kernel

/-- No block is READY at reset (R589). -/
theorem reset_ready (b : Nat) : fldGet F.STATE_READY (resetWord b F.STATE_READY.off) = 0 := by
  cases h : kindOf b with
  | none => simp [resetWord, h, fldGet]
  | some k =>
    have e : resetWord b F.STATE_READY.off = mapReset k F.STATE_READY.off := by simp [resetWord, h]
    rw [e, mapReset_ready]

theorem computeKeeps_ready (b : Nat) : computeKeeps b F.STATE_READY.off = false := by
  unfold computeKeeps
  cases kindOf b with
  | none => simp
  | some k => cases k <;> simp

theorem computeKeeps_owner (b : Nat) : computeKeeps b F.OWNER_PART.off = true := by simp [computeKeeps]

/-- From `s` to `t` the looms and the shuttles are lost, and HBM, its regions, LT, custody, what is fused and the bring-up's record are
not. -/
structure ComputeLost (s t : State) : Prop where
  looms : t.looms = []
  shs : t.shs = []
  hbm : t.mem.hbm = s.mem.hbm
  regions : t.mem.regions = s.mem.regions
  ltime : t.ltime = s.ltime
  cust : t.cust = s.cust
  nv : t.nv = s.nv
  active : t.boot.active = s.boot.active
  cpr : t.boot.cpr = s.boot.cpr
  ended : t.boot.ended = s.boot.ended

/-- The blocks of the compute partition are not READY, every other one is as it was, and every block has its owner. -/
structure ComputeDown (s t : State) : Prop extends ComputeLost s t where
  ready : ∀ b, rdB t b F.STATE_READY = (rdB s b F.STATE_READY && !inCompute b)
  owner : ∀ b, rd t b F.OWNER_PART = rd s b F.OWNER_PART

/-- The last steps of the compute-partition reset: registers return to their reset values, and transactions are discarded. -/
def computeDropped (s : State) (txns : List Nat) : State :=
  forEach txns (fun b s => txnAborted s b) (regsDrop s (fun b off => inCompute b && !computeKeeps b off))

theorem headerKept_txnAborted (b : Nat) (s : State) : HeaderKept s (txnAborted s b) :=
  ((HeaderKept.refl s).wr (f := F.TXN_RESULT) (by decide) (by decide) b resAbortedReset).wr (f := F.TXNROLLBACK_COUNT) (by decide)
    (by decide) b 1

theorem headerKept_txnsAborted (s : State) (txns : List Nat) : HeaderKept s (forEach txns (fun b s => txnAborted s b) s) :=
  (HeaderKept.refl s).forEach headerKept_txnAborted txns

theorem computeDropped_frame (s : State) (txns : List Nat) :
    ∃ r l o hl, computeDropped s txns = { s with regs := r, ll := l, out := o, hiLatch := hl } := by
  obtain ⟨r, l, o, h⟩ := (headerKept_txnsAborted (regsDrop s (fun b off => inCompute b && !computeKeeps b off)) txns).frame
  exact ⟨r, l, o, _, h⟩

theorem computeDropped_ready (s : State) (txns : List Nat) (b : Nat) :
    rdB (computeDropped s txns) b F.STATE_READY = (rdB s b F.STATE_READY && !inCompute b) := by
  rw [rdB, computeDropped, (headerKept_txnsAborted _ txns).ready, rd, rdI, regGet_regsDrop _ _ _ (by decide), computeKeeps_ready]
  cases inCompute b
  · simp [rdB, rd, rdI]
  · simp only [Bool.not_false, Bool.and_self, if_true, Bool.not_true, Bool.and_false]
    exact congrArg (· == 1) (reset_ready b)

theorem computeDropped_owner (s : State) (txns : List Nat) (b : Nat) :
    rd (computeDropped s txns) b F.OWNER_PART = rd s b F.OWNER_PART := by
  rw [computeDropped, (headerKept_txnsAborted _ txns).owner, rd, rdI, regGet_regsDrop _ _ _ (by decide), computeKeeps_owner]
  simp [rd, rdI]

/-- The blocks of the compute partition go down, and no other (R12). -/
theorem computeDown_downs {s : State} (h : quiet s) : ComputeDown s (computeDown s) := by
  obtain ⟨u, hu, he⟩ := subReset_beat h
  obtain ⟨r, l, o, hf⟩ := hu.frame
  have hd : forEach (s.decisions.map (·.block) |>.filter inCompute) (fun b s => decisionsDrop s b) s = s := by rw [h.1]; rfl
  have hv : ∃ v txns, computeDown s = computeDropped v txns ∧ v.regs = u.regs ∧ ComputeLost s v := by
    unfold computeDown
    dsimp only
    rw [hd, he, hf]
    exact ⟨_, _, rfl, rfl, ⟨rfl, rfl, rfl, rfl, rfl, rfl, rfl, rfl, rfl, rfl⟩⟩
  obtain ⟨v, txns, e, hr, hl⟩ := hv
  rw [e]
  refine ⟨?_, fun b => ?_, fun b => ?_⟩
  · obtain ⟨r, l, o, x, e⟩ := computeDropped_frame v txns
    rw [e]
    exact ⟨hl.looms, hl.shs, hl.hbm, hl.regions, hl.ltime, hl.cust, hl.nv, hl.active, hl.cpr, hl.ended⟩
  · rw [computeDropped_ready, rdB, rd_congr hr, hu.ready]; rfl
  · rw [computeDropped_owner, rd_congr hr, hu.owner]

/-- A compute-partition reset: what goes down, and the path that starts or starts again. -/
structure ComputeReset (s t : State) : Prop where
  active : t.boot.active = true
  looms : t.looms = []
  shs : t.shs = []
  hbm : t.mem.hbm = s.mem.hbm
  regions : t.mem.regions = s.mem.regions
  ltime : t.ltime = s.ltime
  cust : t.cust = s.cust
  nv : t.nv = s.nv
  ready : ∀ b, rdB t b F.STATE_READY = (rdB s b F.STATE_READY && !inCompute b)
  owner : ∀ b, rd t b F.OWNER_PART = rd s b F.OWNER_PART
  path : if s.boot.active ∧ ¬ s.boot.cpr ∧ 9 ∉ s.boot.ended then t.boot.cpr = false ∧ t.boot.ended = s.boot.ended.filter (· < 7)
    else t.boot.cpr = true ∧ t.boot.ended = [] ∧ rd t bFuse F.FUSE_BOOTSTAT_PATH = pathCp

theorem computeReset_resets {s : State} (h : quiet s) : ComputeReset s (computeReset s) := by
  have hd := computeDown_downs h
  have hiff : (s.boot.active ∧ !s.boot.cpr ∧ !s.boot.ended.contains 9) ↔ (s.boot.active ∧ ¬ s.boot.cpr ∧ 9 ∉ s.boot.ended) := by
    simp
  unfold computeReset
  dsimp only
  by_cases hc : s.boot.active ∧ !s.boot.cpr ∧ !s.boot.ended.contains 9
  · rw [if_pos hc]
    have hp := hiff.1 hc
    exact ⟨hd.active.trans hp.1, hd.looms, hd.shs, hd.hbm, hd.regions, hd.ltime, hd.cust, hd.nv, hd.ready, hd.owner, by
      rw [if_pos hp]
      exact ⟨hd.cpr.trans (Bool.eq_false_iff.2 hp.2.1), congrArg (List.filter (· < 7)) hd.ended⟩⟩
  · rw [if_neg hc]
    generalize (if s.boot.cpr then s.boot.kept else keepLooms s) = kept
    set d := computeDown s
    set v : State := { d with boot := { d.boot with active := true, cpr := true, ended := [], start := ltNow d, kept := kept, sleep := 0 } }
    set t := send (wr (wr (wr v bFuse F.FUSE_BOOTSTAT_PATH pathCp) bFuse F.FUSE_BOOTSTAT_STEP 1) bFuse F.FUSE_BOOTSTAT_DONE 0) .act 0 [3]
      with ht
    have hk : HeaderKept v t := ((((HeaderKept.refl v).wr (by decide) (by decide) _ _).wr (by decide) (by decide) _ _).wr (by decide)
      (by decide) _ _).send _ _ _
    have hp : rd t bFuse F.FUSE_BOOTSTAT_PATH = pathCp := by
      rw [ht, rd_send, rd_wr_apart (by decide), rd_wr_apart (by decide), rd_wr_self _ _ _ _ (by decide)]; rfl
    have hr : ∀ b, rdB t b F.STATE_READY = (rdB s b F.STATE_READY && !inCompute b) := fun b => by
      rw [rdB, hk.ready]; exact hd.ready b
    have ho : ∀ b, rd t b F.OWNER_PART = rd s b F.OWNER_PART := fun b => (hk.owner b).trans (hd.owner b)
    refine ⟨rfl, hd.looms, hd.shs, hd.hbm, hd.regions, hd.ltime, hd.cust, hd.nv, hr, ho, ?_⟩
    rw [if_neg (fun hp => hc (hiff.2 hp))]
    exact ⟨rfl, rfl, hp⟩

/-! ## A step that ends well -/

/-- What a step of a package bring-up that ends well has done (R589 to R597). -/
structure BringupStepDone (s : State) (k : Nat) (e : StepEnd) (t : State) : Prop where
  ended : t.boot.ended = s.boot.ended ++ [k]
  step : rd t bFuse F.FUSE_BOOTSTAT_STEP = k
  ready : ∀ b ∈ bringupBlocks k, rdB t b F.STATE_READY = true
  enabled : ∀ b ∈ bringupBlocks k, bootEnables b = true → rdB s b F.STATE_READY = false → rdB t b F.CONTROL_ENABLE = true
  fuses : k = 1 → rd t bFuse F.FUSE_CE_COUNT =
    (rd s bFuse F.FUSE_CE_COUNT + (s.nv.fuseErr.filter (fun x => x.2 == 1)).length) % 2 ^ 32
  measured : k = 3 ∨ k = 4 ∨ k = 10 → t.cust.meas.length = s.cust.meas.length + 1
  faultN : k = 4 → rd s bFuse F.FUSE_BOOTSTAT_FAILSTEP = 0 → t.ll.faultN = false
  path : k = 5 → t.pw.enIo = true ∧ t.pw.enHbm = true ∧ t.pw.enCmp = true ∧
    rd t bFuse F.FUSE_BOOTSTAT_PATH = if warmOk s e.tj then pathWarm else pathCold
  link : k = 6 → rd t bHostport F.HOSTPORT_LINK_UP = 1
  looms : k = 7 → ∀ l, l < 768 → loomSite t l ≤ 16 → rdB t (bLoom l) F.STATE_READY = true
  hbm : k = 9 → ∀ a, hbmByte t a = 0
  last : (∀ i, 1 ≤ i → i ≤ 10 → i ∈ s.boot.ended ++ [k]) → k ≠ 1 → rd t bFuse F.FUSE_BOOTSTAT_DONE = 1 ∧ t.boot.active = false
  rungs : t.ll.rungs = s.ll.rungs

theorem stepWork_active (s : State) (e : StepEnd) {k : Nat} (h1 : k ≠ 1) : (stepWork s k e).boot.active = s.boot.active := by
  by_cases h9 : k = 9
  · obtain ⟨x, h⟩ := stepWork_nine s e
    rw [h9, h]
    exact forEach_bootReady_keeps (·.boot.active) bootReady_active hbmBlocks _
  · exact (comesUpOnly_stepWork s e h1 h9).active

theorem bringupStepDone {s : State} {k : Nat} (e : StepEnd) (ha : s.boot.active = true) (hk : k ≤ 10) :
    BringupStepDone s k e (bootDone (stepWork (stepCounted s k) k e) 10) := by
  set c := stepCounted s k with hc
  set w := stepWork c k e with hw
  have hcw : ComesUp c w := comesUp_stepWork c e k
  have hwt : ComesUp w (bootDone w 10) := comesUp_bootDone w 10
  have hcr : ∀ b, rdB c b F.STATE_READY = rdB s b F.STATE_READY := fun b => by
    rw [rdB, hc, rd_stepCounted_apart (by decide)]; rfl
  have hended : w.boot.ended = s.boot.ended ++ [k] := hcw.ended
  have hready : ∀ b ∈ bringupBlocks k, rdB w b F.STATE_READY = true := fun b hb => stepWork_ready c e hb
  constructor
  case ended => rw [bootDone_ended, hended]
  case step => rw [hwt.step, hcw.step, hc, stepCounted_step s (by omega)]
  case ready => exact fun b hb => hwt.ready b (hready b hb)
  case enabled => exact fun b hb he h0 => hwt.enable b (hcw.enabled b he ((hcr b).trans h0) (hready b hb))
  case fuses =>
    intro h1
    obtain ⟨u, x, -, hu, -, -, he⟩ := stepWork_one c e
    rw [rd_bootDone_apart (by decide) (by decide), hw, h1, he]
    refine (rd_congr rfl bFuse F.FUSE_CE_COUNT).trans (hu.trans ?_)
    rw [hc, rd_stepCounted_apart (by decide)]
    rfl
  case measured =>
    intro h
    rw [bootDone_cust, hw, stepWork_measures c e h]
    rfl
  case faultN =>
    intro h4 h0
    have hf : rd c bFuse F.FUSE_BOOTSTAT_FAILSTEP = 0 := (rd_stepCounted_apart (by decide) s k bFuse).trans h0
    rw [bootDone_ll, hw, h4, stepWork_four_faultN c e hf]
  case path =>
    intro h5
    obtain ⟨hpw, hp⟩ := pathChoose_chooses c e.tj
    have e5 : w = pathChoose c e.tj := by rw [hw, h5]; rfl
    have hwarm : warmOk c e.tj = warmOk s e.tj := warmOk_congr (rd_stepCounted_apart (by decide) s k bFuse) rfl rfl e.tj
    rw [rd_bootDone_apart (by decide) (by decide), bootDone_pw, e5, hpw, hp, hwarm]
    exact ⟨rfl, rfl, rfl, rfl⟩
  case link =>
    intro h6
    rw [rd_bootDone_apart (by decide) (by decide), hw, h6, stepWork_six_linkUp]
  case looms =>
    intro h7 l hl hsite
    refine hwt.ready _ ?_
    rw [loomSite_congr (bootDone_hubs w 10)] at hsite
    have e7 : w = arrayReady (arrayMapped c e) true := by rw [hw, h7, stepWork_seven]
    rw [e7] at hsite ⊢
    exact arrayReady_looms _ _ hl hsite
  case hbm =>
    intro h9 a
    obtain ⟨x, he⟩ := stepWork_nine c e
    have hm : (bootDone w 10).mem.hbm = [] := by
      rw [bootDone_mem, hw, h9, he]
      exact hbmBroughtUp_hbm c
    rw [hbmByte, hm, tabGet_nil]
  case last =>
    intro hall h1
    refine bootDone_of_all ?_ (fun i hi hi' => hended ▸ hall i hi hi')
    rw [hw, stepWork_active c e h1]
    exact ha
  case rungs => rw [hwt.rungs, hcw.rungs]; rfl

/-- What a step of a compute-partition reset that ends well has done (R592). -/
structure ComputeStepDone (s : State) (k : Nat) (t : State) : Prop where
  ended : t.boot.ended = s.boot.ended ++ [k]
  ready : ∀ b ∈ computeBlocks k, rdB t b F.STATE_READY = true
  hbm : t.mem.hbm = s.mem.hbm
  looms : k = 5 → (s.boot.kept.map (·.1)).Nodup → (∀ x ∈ s.boot.kept, ∀ y ∈ x.2.2, y.1 / 65536 < 4096) →
    ∀ x ∈ s.boot.kept, rdB s (bLoom x.1) F.STATE_READY = true → loom t x.1 = loomRebuilt x.2.1
  last : k = 6 → s.boot.ended = [1, 2, 3, 4, 5] → rd t bFuse F.FUSE_BOOTSTAT_DONE = 1 ∧ t.boot.active = false ∧
    rd t bFuse F.FUSE_CPRESETS_COUNT = (rd s bFuse F.FUSE_CPRESETS_COUNT + 1) % 2 ^ 32
  rungs : t.ll.rungs = s.ll.rungs

/-- A step of a compute-partition reset leaves the record, the rungs and HBM. -/
theorem cpWork_keeps (s : State) (e : StepEnd) (k : Nat) : (cpWork s k e).boot.ended = s.boot.ended ∧
    (cpWork s k e).ll.rungs = s.ll.rungs ∧ (cpWork s k e).mem.hbm = s.mem.hbm := by
  by_cases h5 : k = 5
  · obtain ⟨he, hl, hm⟩ := cpWork_five_keeps s e
    rw [h5, he, hl, hm]
    exact ⟨rfl, rfl, rfl⟩
  · have h := comesUpOnly_cpWork s e h5
    exact ⟨h.ended, h.rungs, h.hbm⟩

theorem cpWork_six_count (s : State) (e : StepEnd) :
    rd (cpWork s 6 e) bFuse F.FUSE_CPRESETS_COUNT = (rd s bFuse F.FUSE_CPRESETS_COUNT + 1) % 2 ^ 32 := by
  have hk := forEach_bootReady_keeps (fun s => rd s bFuse F.FUSE_CPRESETS_COUNT)
    (fun s b => rd_bootReady_apart (by decide) (by decide) s b) appBlocks s
  rw [cpWork_six, rd_inc_self _ _ _ (by decide), hk]
  rfl

theorem computeStepDone {s : State} (k : Nat) (e : StepEnd) (ha : s.boot.active = true) :
    ComputeStepDone s k (bootDone (cpWork (stepCounted s k) k e) 6) := by
  set c := stepCounted s k with hc
  set w := cpWork c k e with hw
  obtain ⟨hended, hrungs, hhbm⟩ := cpWork_keeps c e k
  have hwt : ComesUp w (bootDone w 6) := comesUp_bootDone w 6
  constructor
  case ended => rw [bootDone_ended, hw, hended]; rfl
  case ready => exact fun b hb => hwt.ready b (cpWork_ready c e hb)
  case hbm => rw [bootDone_mem, hw, hhbm]; rfl
  case rungs => rw [bootDone_ll, hw, hrungs]; rfl
  case looms =>
    intro h5 hn ho x hx hr
    have hcr : rdB c (bLoom x.1) F.STATE_READY = true := by
      rw [rdB, hc, rd_stepCounted_apart (by decide)]; exact hr
    rw [loom_congr (bootDone_looms w 6), hw, h5, cpWork_five]
    exact loom_restore_in c hn ho hx hcr
  case last =>
    intro h6 h5
    have hend : w.boot.ended = [1, 2, 3, 4, 5, 6] := by
      rw [hw, hended]
      change s.boot.ended ++ [k] = _
      rw [h5, h6]; rfl
    have hact : w.boot.active = true := by
      rw [hw, (comesUpOnly_cpWork c e (by omega)).active]
      exact ha
    obtain ⟨hd, hoff⟩ := bootDone_of_all (last := 6) hact (fun i hi hi' => by rw [hend]; interval_cases i <;> decide)
    refine ⟨hd, hoff, ?_⟩
    rw [rd_bootDone_apart (by decide) (by decide), hw, h6, cpWork_six_count, hc, rd_stepCounted_apart (by decide)]

/-! ## The commands -/

/-- BRINGUP_STEP_DONE where no rung is left in progress. -/
theorem exec_bringupStepDone {n : BitVec 4} {e : StepEnd} {s : State} (h : (stepEnds s n.toNat e).ll.rungs = []) :
    exec (.bringupStepDone n e) s = .next (stepEnds s n.toNat e) := by
  change Host.Outcome.next (rungsCheck (stepEnds s n.toNat e)) = _
  rw [rungsCheck_of_no_rungs h]

theorem exec_computePartitionReset (s : State) : exec .computePartitionReset s = .next (computeResetAsked s) := rfl

theorem computeResetAsked_on {s : State} (h : s.pw.enCmp = true) : computeResetAsked s = computeReset s := by
  simp [computeResetAsked, h]

theorem computeResetAsked_off {s : State} (h : s.pw.enCmp = false) (hb : s.boot.active = false ∨ s.boot.cpr = true) :
    computeResetAsked s = s := by
  obtain hb | hb := hb <;> simp [computeResetAsked, h, hb]

/-- Settles O52: the reset by what goes down with the compute partition, and the steps, by the kind of path and the outcome, by what their
work brings about. -/
theorem bringup : Obligations.Bringup := by
  intro n e s k r run due first again hubs hbm app readyAt cpAt failed
  have hboot : due → r.cpr = false → StepDue s stepAfter k := fun ⟨ha, hl, hn, hw⟩ hc => ⟨ha, hl, hn, by simpa [hc] using hw⟩
  have hcp : due → r.cpr = true → StepDue s (fun k => k - 1) k := fun ⟨ha, hl, hn, hw⟩ hc => ⟨ha, hl, hn, by simpa [hc] using hw⟩
  have hfail : s.ll.rungs = [] → StepFailed s k (stepEnds s k e) → ∃ t, run = .next t ∧ failed t := fun hl h =>
    ⟨_, exec_bringupStepDone (h.rungs.trans hl), h.failstep, h.valid, h.faultN, h.boot, h.cause⟩
  refine ⟨?_, ?_, ?_, ?_, ?_, ?_, ?_, ?_⟩
  · intro hen hd hm
    have h := computeReset_resets ⟨hd, hm⟩
    refine ⟨computeReset s, ?_, h.active, h.looms, h.shs, h.hbm, h.regions, h.ltime, h.cust, h.nv, h.ready, h.owner, h.path⟩
    rw [exec_computePartitionReset, computeResetAsked_on hen]
  · intro hen h
    rw [exec_computePartitionReset, computeResetAsked_off hen h]
  · intro ha hl h
    have he : stepEnds s k e = s := stepEnds_of_not_due e ha h
    have hrun : run = .next (stepEnds s k e) := exec_bringupStepDone (by rw [he, hl])
    rw [hrun, he]
  · rintro ⟨hd, hc, h1, h10⟩ he
    have d := hboot hd hc
    exact hfail d.rungs (stepEnds_boot_fails d hc h1 h10 he)
  · rintro ⟨hd, hc, h1, h6⟩ he h3 h4
    have d := hcp hd hc
    exact hfail d.rungs (stepEnds_cp_fails d hc h1 h6 he h3 h4)
  · rintro ⟨hd, hc, h1, h6⟩ he h34
    have hs : stepEnds s k e = packageReset s false (selfPkg s) := by
      rw [stepEnds_cp e (hcp hd hc) hc h1 h6, he, if_neg (by decide), if_pos h34]
    obtain ⟨hb, hlt, hl⟩ := packageReset_starts s (selfPkg s)
    refine ⟨_, exec_bringupStepDone (by rw [hs, hl]), ?_⟩
    rw [hs, hb]
    exact ⟨rfl, rfl, rfl, hlt⟩
  · rintro ⟨hd, hc, h1, h10⟩ he
    have d := hboot hd hc
    have hs : stepEnds s k e = bootDone (stepWork (stepCounted s k) k e) 10 := by rw [stepEnds_boot e d hc h1 h10, he, if_pos rfl]
    have h := bringupStepDone e d.active h10
    refine ⟨_, exec_bringupStepDone (by rw [hs, h.rungs, d.rungs]), ?_⟩
    rw [hs]
    exact ⟨h.ended, h.step, h.ready, h.enabled, h.fuses, h.measured, h.faultN, h.path, h.link, h.looms, h.hbm, h.last⟩
  · rintro ⟨hd, hc, h1, h6⟩ he
    have d := hcp hd hc
    have hs : stepEnds s k e = bootDone (cpWork (stepCounted s k) k e) 6 := by rw [stepEnds_cp e d hc h1 h6, he, if_pos rfl]
    have h := computeStepDone k e d.active
    refine ⟨_, exec_bringupStepDone (by rw [hs, h.rungs, d.rungs]), ?_⟩
    rw [hs]
    exact ⟨h.ended, h.ready, h.hbm, h.looms, h.last⟩

end Sys2Proof.Machine
end

section
/-!
PROOFS. Steps and package resets (chapters 02, 18 and 22): the machine right after reset, what a package reset drops and keeps; O1, O51 and O58.
-/

namespace Sys2Proof.Machine

/-- Settles O1, by the definition of a step. -/
theorem stepRunsFront : Obligations.StepRunsFront := fun _ _ => rfl

/-! ## The reset state -/

theorem regGet_reset (b off i : Nat) : regGet State.reset b off i = resetWord b off := rfl

theorem rdB_reset_ready (b : Nat) : rdB State.reset b F.STATE_READY = false := by
  have h : rd State.reset b F.STATE_READY = 0 := reset_ready b
  rw [rdB, h]
  rfl

/-- Settles O58: every table of the reset state is empty, and what the register map gives a field is its reset value. -/
theorem resetState : Obligations.ResetState := by
  refine ⟨rfl, rfl, rdB_reset_ready, rfl, rfl, ?_, fun _ => rfl, ?_, fun _ _ => rfl, ⟨rfl, rfl⟩, rfl, ?_⟩
  · decide +kernel
  · decide +kernel
  · intro s h
    rw [step, h]

/-! ## What a package reset drops -/

/-- The state of a package reset before it records the transactions that it discards. -/
def packageDropped (s : State) (powerOn : Bool) (self : Nat) : State :=
  { State.reset with
    pending := s.pending, out := (syncsLow (tmrsRelease s)).out, free := s.free
    regs := s.regs.filter (fun e => packageKeeps powerOn (keyBlock e.1) (keyOff e.1))
    ll := if powerOn then LlSt.reset
      else { LlSt.reset with log := s.ll.log, window := s.ll.window, evNext := s.ll.evNext, dumpRam := s.ll.dumpRam,
                             dumpSeq := s.ll.dumpSeq }
    nv := s.nv
    tap := s.tap
    gpkg := { GlimPkg.reset with self := self }
    cust := { CustSt.reset with fieldDebug := s.cust.fieldDebug && s.cust.entry && !powerOn }
    boot := { BootSt.reset with active := true } }

/-- The registers of a package reset, its transactions discarded and step 1 shown. -/
def packageShown (s : State) (powerOn : Bool) (self : Nat) : State :=
  wr (forEach (txnBlocks s) (fun b t => txnAborted t b) (packageDropped s powerOn self)) bFuse F.FUSE_BOOTSTAT_STEP 1

theorem packageReset_eq (s : State) (powerOn : Bool) (self : Nat) :
    packageReset s powerOn self = send (send (packageShown s powerOn self) .pin 0 [1]) .act 0 [4] := rfl

theorem txnsAborted_frame (s : State) (txns : List Nat) : ∃ r, forEach txns (fun b t => txnAborted t b) s = { s with regs := r } := by
  unfold forEach
  induction txns generalizing s with
  | nil => exact ⟨s.regs, rfl⟩
  | cons b xs ih =>
    obtain ⟨r, h⟩ := ih (txnAborted s b)
    exact ⟨r, h.trans rfl⟩

/-- A package reset touches no more than registers and what is sent, once it has dropped what goes. -/
theorem packageReset_frame (s : State) (powerOn : Bool) (self : Nat) :
    ∃ r o, packageReset s powerOn self = { packageDropped s powerOn self with regs := r, out := o } := by
  obtain ⟨r, h⟩ := txnsAborted_frame (packageDropped s powerOn self) (txnBlocks s)
  rw [packageReset_eq, packageShown, h]
  exact ⟨_, _, rfl⟩

theorem rd_packageReset (s : State) (powerOn : Bool) (self b : Nat) (f : Fld) :
    rd (packageReset s powerOn self) b f = rd (packageShown s powerOn self) b f := rfl

/-- The record of discarded transactions takes RESULT and TXNROLLBACK. -/
theorem rd_txnsAborted_apart {g : Fld} (hr : fldsApart F.TXN_RESULT g = true) (hc : fldsApart F.TXNROLLBACK_COUNT g = true)
    (s : State) (txns : List Nat) (b : Nat) : rd (forEach txns (fun b t => txnAborted t b) s) b g = rd s b g :=
  forEach_keeps (fun s => rd s b g) (fun a s => by rw [txnAborted, rd_wr_apart hc, rd_wr_apart hr]) txns s

/-- A discarded transaction shows ABORTED_RESET and one rollback (R63). -/
theorem txnsAborted_shows (s : State) {txns : List Nat} {b : Nat} (h : b ∈ txns) :
    rd (forEach txns (fun b t => txnAborted t b) s) b F.TXN_RESULT = resAbortedReset ∧
      rd (forEach txns (fun b t => txnAborted t b) s) b F.TXNROLLBACK_COUNT = 1 := by
  have self : ∀ t, rd (txnAborted t b) b F.TXN_RESULT = resAbortedReset ∧ rd (txnAborted t b) b F.TXNROLLBACK_COUNT = 1 := fun t => by
    rw [txnAborted, rd_wr_apart (by decide), rd_wr_self _ _ _ _ (by decide), rd_wr_self _ _ _ _ (by decide)]
    exact ⟨rfl, rfl⟩
  refine forEach_reaches (fun _ => True)
    (fun t => rd t b F.TXN_RESULT = resAbortedReset ∧ rd t b F.TXNROLLBACK_COUNT = 1) (fun _ _ _ => trivial) (fun a t ht => ?_)
    (fun t _ => self t) h trivial
  by_cases e : b = a
  · rw [← e]
    exact self t
  · rw [txnAborted, rd_wr_block _ _ (by decide) (by decide) e, rd_wr_block _ _ (by decide) (by decide) e,
      rd_wr_block _ _ (by decide) (by decide) e, rd_wr_block _ _ (by decide) (by decide) e]
    exact ht

/-- A register that a package reset does not keep reads its reset value. -/
theorem regGet_packageDropped (s : State) {powerOn : Bool} (self : Nat) {b off : Nat} (ho : off < 4096)
    (h : packageKeeps powerOn b off = false) : regGet (packageDropped s powerOn self) b off 0 = resetWord b off := by
  refine tabGet_filter_neg _ (fun k => packageKeeps powerOn (keyBlock k) (keyOff k)) _ _ ?_
  rw [keyBlock_regKey b ho (by decide), keyOff_regKey b ho (by decide), h]

/-- No register of the header's first eight words is kept. -/
theorem packageKeeps_header (powerOn : Bool) (b : Nat) {off : Nat} (h : off < 0x40) : packageKeeps powerOn b off = false := by
  unfold packageKeeps
  have h1 : ¬ (b = bFuse ∧ off = F.FUSE_BOOTCFG_FAST.off) := by
    rintro ⟨-, e⟩
    have : off = 0x054 := e
    omega
  have h2 : ¬ 0x800 ≤ off := by omega
  simp [h1, h2]

/-- A field of the header reads its reset value after a package reset. -/
theorem rd_packageReset_header (s : State) (powerOn : Bool) (self b : Nat) {g : Fld} (hg : g.off < 0x40)
    (hr : fldsApart F.TXN_RESULT g = true) (hc : fldsApart F.TXNROLLBACK_COUNT g = true)
    (hs : fldsApart F.FUSE_BOOTSTAT_STEP g = true) :
    rd (packageReset s powerOn self) b g = fldGet g (resetWord b g.off) := by
  rw [rd_packageReset, packageShown, rd_wr_apart hs, rd_txnsAborted_apart hr hc]
  exact congrArg (fldGet g) (regGet_packageDropped s self (by omega) (packageKeeps_header powerOn b hg))

theorem reset_tstate (b : Nat) : fldGet F.TXN_TSTATE (resetWord b F.TXN_TSTATE.off) = tsIdle := by
  cases h : kindOf b with
  | none => simp [resetWord, h, fldGet]
  | some k =>
    have e : resetWord b F.TXN_TSTATE.off = mapReset k F.TXN_TSTATE.off := by simp [resetWord, h]
    rw [e]
    cases k <;> decide +kernel

/-- A key that a table does not list reads the default. -/
theorem tabGet_of_not_mem {α : Type} (d : α) {t : Tab α} {k : Nat} (h : k ∉ t.map (·.1)) : tabGet d t k = d := by
  induction t with
  | nil => rfl
  | cons p t ih =>
    rw [List.map_cons, List.mem_cons, not_or] at h
    rw [tabGet_cons, if_neg (Ne.symm h.1), ih h.2]

/-- A block with a transaction is one of those whose transactions a reset records. -/
theorem mem_txnBlocks {s : State} {b : Nat} (h : rd s b F.TXN_TSTATE ≠ tsIdle) : b ∈ txnBlocks s := by
  have hk : regKey b F.TXN_TSTATE.off 0 ∈ s.regs.map (·.1) := by
    by_contra hn
    refine h ?_
    rw [rd, rdI, regGet, tabGet_of_not_mem _ hn, reset_tstate]
  obtain ⟨e, he, hek⟩ := List.mem_map.1 hk
  refine List.mem_filter.2 ⟨List.mem_eraseDups.2 (List.mem_map.2 ⟨e, he, ?_⟩), by simpa using h⟩
  rw [hek]
  exact keyBlock_regKey b (by decide) (by decide)

theorem packageReset_ready (s : State) (powerOn : Bool) (self b : Nat) : rdB (packageReset s powerOn self) b F.STATE_READY = false := by
  rw [rdB, rd_packageReset_header s powerOn self b (by decide) (by decide) (by decide) (by decide), reset_ready]
  rfl

theorem packageReset_step (s : State) (powerOn : Bool) (self : Nat) :
    rd (packageReset s powerOn self) bFuse F.FUSE_BOOTSTAT_STEP = 1 := by
  rw [rd_packageReset, packageShown, rd_wr_self _ _ _ _ (by decide)]
  rfl

theorem packageReset_beatState (s : State) (powerOn : Bool) (self : Nat) : beatState (packageReset s powerOn self) = stIdle := by
  have hk : packageKeeps powerOn bBeat F.BEAT_STATUS_STATE.off = false := by cases powerOn <;> decide
  rw [beatState, rd_packageReset, packageShown, rd_wr_apart (by decide), rd_txnsAborted_apart (by decide) (by decide), rd, rdI,
    regGet_packageDropped s self (by decide) hk]
  decide +kernel

theorem packageReset_txn (s : State) (powerOn : Bool) (self : Nat) {b : Nat} (h : rd s b F.TXN_TSTATE ≠ tsIdle) :
    rd (packageReset s powerOn self) b F.TXN_TSTATE = tsIdle ∧ rd (packageReset s powerOn self) b F.TXN_RESULT = resAbortedReset ∧
      rd (packageReset s powerOn self) b F.TXNROLLBACK_COUNT = 1 := by
  obtain ⟨hr, hc⟩ := txnsAborted_shows (packageDropped s powerOn self) (mem_txnBlocks h)
  refine ⟨?_, ?_, ?_⟩
  · rw [rd_packageReset_header s powerOn self b (by decide) (by decide) (by decide) (by decide), reset_tstate]
  · rw [rd_packageReset, packageShown, rd_wr_apart (by decide), hr]
  · rw [rd_packageReset, packageShown, rd_wr_apart (by decide), hc]

/-- What a package reset with the straps of `pins` leaves, and what lives through it. -/
structure PackageGone (s : State) (powerOn : Bool) (pins : ResetPins) (t : State) : Prop where
  pending : t.pending = s.pending
  lt : ltNow t = 0
  ready : ∀ b, rdB t b F.STATE_READY = false
  boot : t.boot = { BootSt.reset with active := true }
  step : rd t bFuse F.FUSE_BOOTSTAT_STEP = 1
  faultN : t.ll.faultN = true
  alive : t.ll.alive = false
  self : t.gpkg.self = pins.pkgid.toNat
  looms : t.looms = []
  mem : t.mem = MemSt.reset
  meas : t.cust.meas = []
  beat : beatState t = stIdle
  fuse : t.nv.fuse = s.nv.fuse
  trec : t.nv.trec = s.nv.trec
  ckpt : t.nv.ckpt = s.nv.ckpt
  wipepend : t.nv.wipepend = s.nv.wipepend
  short : powerOn = false → t.nv = s.nv ∧ t.ll.log = s.ll.log
  long : powerOn = true → t.ll.log = [] ∧ t.cust.fieldDebug = false
  txn : ∀ b, rd s b F.TXN_TSTATE ≠ tsIdle →
    rd t b F.TXN_TSTATE = tsIdle ∧ rd t b F.TXN_RESULT = resAbortedReset ∧ rd t b F.TXNROLLBACK_COUNT = 1

/-- The straps and fuse errors that a reset with the always-on rail senses touch the fuse errors alone. -/
theorem resetWith_eq (s : State) (powerOn : Bool) (pins : ResetPins) : ∃ v x, v = { s with nv := { s.nv with fuseErr := x } } ∧
    (powerOn = false → v = s) ∧ resetWith s powerOn pins = packageReset v powerOn pins.pkgid.toNat := by
  cases powerOn
  · exact ⟨s, s.nv.fuseErr, rfl, fun _ => rfl, rfl⟩
  · exact ⟨_, _, rfl, nofun, rfl⟩

theorem resetWith_gone (s : State) (powerOn : Bool) (pins : ResetPins) : PackageGone s powerOn pins (resetWith s powerOn pins) := by
  obtain ⟨v, x, hv, hs, e⟩ := resetWith_eq s powerOn pins
  have hregs : v.regs = s.regs := by rw [hv]
  obtain ⟨r, o, hf⟩ := packageReset_frame v powerOn pins.pkgid.toNat
  rw [e]
  constructor
  case ready => exact packageReset_ready v powerOn _
  case step => exact packageReset_step v powerOn _
  case beat => exact packageReset_beatState v powerOn _
  case txn => exact fun b h => packageReset_txn v powerOn _ (by rwa [rd_congr hregs])
  case short =>
    rintro rfl
    rw [hf, hs rfl]
    exact ⟨rfl, rfl⟩
  case long =>
    rintro rfl
    rw [hf]
    exact ⟨rfl, by simp [packageDropped]⟩
  case faultN => rw [hf]; cases powerOn <;> rfl
  case alive => rw [hf]; cases powerOn <;> rfl
  all_goals rw [hf, hv]; rfl

/-- Settles O51: the four commands are one reset, with the always-on rail or without. -/
theorem packageResets : Obligations.PackageResets := by
  intro pins s gone
  have h : ∀ c powerOn, exec c s = .next (resetWith s powerOn pins) → gone c powerOn := fun c powerOn he => by
    have g := resetWith_gone s powerOn pins
    exact ⟨_, he, g.pending, g.lt, g.ready, by rw [g.boot], by rw [g.boot]; rfl, by rw [g.boot]; rfl, g.step, g.faultN, g.alive, g.self, g.looms,
      g.mem, g.meas, g.beat, g.fuse, g.trec, g.ckpt, g.wipepend, g.short, g.long, g.txn⟩
  exact ⟨h _ _ rfl, h _ _ rfl, h _ _ rfl, h _ _ rfl⟩

end Sys2Proof.Machine
end

section
/-!
PROOFS. Accesses that are refused or fail (R38, R39, R57, R365): what the gate answers, and O3.
-/

namespace Sys2Proof.Machine

/-! ## What a requester named by its tag is answered -/

theorem privFrame_tagged {r : Requester} (h : tagged r = true) (b : Nat) : privFrame r b = false := by
  cases r <;> simp_all [tagged, privFrame]

theorem busWriteW_tagged {r : Requester} (h : tagged r = true) (s : State) (w : View) (b off : Nat) (v : Word) (wd : Width) :
    busWriteW s r w b off v wd = busWriteB s r w b off v wd := by
  simp [busWriteW, privFrame_tagged h]

theorem busReadW_tagged {r : Requester} (h : tagged r = true) (s : State) (w : View) (b off : Nat) (wd : Width) :
    busReadW s r w b off wd = busReadB s r w b off wd := by
  simp [busReadW, privFrame_tagged h]

theorem anyAccess_tagged {r : Requester} (h : tagged r = true) (s : State) (b off : Nat) (w : Bool) (v : Word)
    (f : Requester → State → Word × State) : anyAccess s r b off w v f = blockAccess s r b off w v (f r) := by
  simp only [anyAccess, who_tagged h]

theorem busAnswer_tagged {r : Requester} (h : tagged r = true) {s : State} {b : Nat} (hc : selvCut s b = false) (w : Bool)
    (p : Bool × Word × State) : busAnswer s r b w p = send p.2.2 .resp (tagOf r) [p.1.toNat, p.2.1.toNat] := by
  simp [busAnswer, hc, asReq_tagged h, hartSees_tagged h, accessSend]

/-- Across a link that is down every access ends in SELVTIMEOUT (R365). -/
theorem busAnswer_cut {r : Requester} (h : tagged r = true) {s : State} {b : Nat} (hc : selvCut s b = true) (w : Bool)
    (p : Bool × Word × State) : busAnswer s r b w p = send (latchFault s (requestBlock r) 0x8002) .resp (tagOf r) [0, 0] := by
  simp [busAnswer, hc, asReq_tagged h, hartSees_tagged h, accessSend, cutAnswer]

/-! ## What the gate answers -/

/-- An access that no register answers changes nothing. -/
theorem access_error {s : State} {b off : Nat} {w : Bool} (h : gateError (windowClose s) b off w = true) (r : Requester) (v : Word)
    (f : State → Word × State) : access s r b off w v f = (false, 0, windowClose s) := by
  simp [access, h]

/-- An access that a register answers, and that the warden's lifecycle does not bar, is refused and counted or performed (R57). -/
theorem access_answered {s : State} {r : Requester} {b off : Nat} {w : Bool} (he : gateError (windowClose s) b off w = false)
    (hw : w = true → r = .custody .warden → wardenMay (windowClose s) b off = true) (v : Word) (f : State → Word × State) :
    access s r b off w v f = if gateRefuse (windowClose s) r b off w v then (false, 0, inc (windowClose s) b F.ACCVIOL_COUNT)
      else (true, (f (windowClose s)).1, (f (windowClose s)).2) := by
  have hbar : (w && decide (r = .custody .warden) && !wardenMay (windowClose s) b off) = false := by
    by_cases hb : w = true ∧ r = .custody .warden
    · simp [hw hb.1 hb.2]
    · cases w <;> simp_all
  unfold access
  dsimp only
  rw [if_neg (by simp [he]), if_neg (by simp [hbar])]

/-- A refusal, of the gate or of a group slot, is counted in ACCVIOL. -/
theorem blockAccess_refused {s : State} {r : Requester} {b off : Nat} {w : Bool} {v : Word} (he : gateError (windowClose s) b off w = false)
    (hw : w = true → r = .custody .warden → wardenMay (windowClose s) b off = true)
    (h : gateRefuse (windowClose s) r b off w v = true ∨ (w = true ∧ slotRefuses s r b off = true)) (f : State → Word × State) :
    blockAccess s r b off w v f = (false, 0, inc (windowClose s) b F.ACCVIOL_COUNT) := by
  unfold blockAccess
  cases hg : gateRefuse (windowClose s) r b off w v with
  | true =>
    simp only [access_answered he hw, hg, if_true]
    split_ifs <;> rfl
  | false =>
    obtain ⟨hwr, hs⟩ := h.resolve_left (by simp [hg])
    rw [if_pos (by simp [hwr, hs]), access_answered he hw, if_neg (by simp [hg])]

theorem blockAccess_error {s : State} {b off : Nat} {w : Bool} (h : gateError (windowClose s) b off w = true) (r : Requester) (v : Word)
    (f : State → Word × State) : blockAccess s r b off w v f = (false, 0, windowClose s) := by
  unfold blockAccess
  simp only [access_error h]
  split_ifs <;> rfl

/-! ## The six accesses -/

/-- The commands that write a register of one word, with the view of each. -/
def writeRows (r : Requester) (b off : Nat) (v : Word) (wd : Width) : List (Instr × View) :=
  [(.registerWrite r b off v wd, .main), (.bitSetAliasWrite r b off v wd, .bitSet), (.bitClearAliasWrite r b off v wd, .bitClear),
    (.shadowViewWrite r b off v wd, .shadow)]

theorem exec_writeRows {r : Requester} {b off : Nat} {v : Word} {wd : Width} {row : Instr × View} (h : row ∈ writeRows r b off v wd)
    (s : State) : exec row.1 s = .next (busWriteW s r row.2 b off v wd) := by
  simp only [writeRows, List.mem_cons, List.not_mem_nil, or_false] at h
  obtain rfl | rfl | rfl | rfl := h <;> rfl

theorem exec_reads {r : Requester} {b off : Nat} {wd : Width} {c : Instr} (h : c ∈ ([.rcCounterRead r b off wd, .latchingLoRead r b off wd] : List Instr))
    (s : State) : exec c s = .next (busReadW s r .main b off wd) := by
  simp only [List.mem_cons, List.not_mem_nil, or_false] at h
  obtain rfl | rfl := h <;> rfl

theorem busWrite_refused {s : State} {r : Requester} {b off : Nat} {v : Word} (ht : tagged r = true) (hc : selvCut s b = false)
    (he : gateError (windowClose s) b off true = false) (hw : r = .custody .warden → wardenMay (windowClose s) b off = true)
    (h : gateRefuse (windowClose s) r b off true v = true ∨ slotRefuses s r b off = true) (w : View) :
    busWriteW s r w b off v .word = send (inc (windowClose s) b F.ACCVIOL_COUNT) .resp (tagOf r) [0, 0] := by
  rw [busWriteW_tagged ht, busWriteB, busWrite, regWrite, anyAccess_tagged ht,
    blockAccess_refused he (fun _ => hw) (h.imp_right fun h => ⟨rfl, h⟩), busAnswer_tagged ht hc]
  rfl

theorem busRead_refused {s : State} {r : Requester} {b off : Nat} (ht : tagged r = true) (hc : selvCut s b = false)
    (he : gateError (windowClose s) b off false = false) (h : gateRefuse (windowClose s) r b off false 0 = true) (w : View) :
    busReadW s r w b off .word = send (inc (windowClose s) b F.ACCVIOL_COUNT) .resp (tagOf r) [0, 0] := by
  rw [busReadW_tagged ht, busReadB, busRead, regRead, anyAccess_tagged ht,
    blockAccess_refused he (fun h => absurd h (by decide)) (.inl h), busAnswer_tagged ht hc]
  rfl

/-- Settles O3, by what the gate answers. -/
theorem refusedAccesses : Obligations.RefusedAccesses := by
  intro r b off v s refused t
  have write : refused true v → ∀ row ∈ writeRows r b off v .word, exec row.1 s = .next t := by
    rintro ⟨ht, hc, he, hw, h⟩ row hrow
    rw [exec_writeRows hrow, busWrite_refused ht hc he (hw rfl) (h.imp_right (·.2))]
  have read : refused false 0 → ∀ c ∈ ([.rcCounterRead r b off, .latchingLoRead r b off] : List Instr), exec c s = .next t := by
    rintro ⟨ht, hc, he, -, h⟩ c hmem
    rw [exec_reads hmem, busRead_refused ht hc he (h.resolve_right (by simp))]
  refine ⟨fun h => ?_, fun h => ?_, fun ht hc _ _ he => ?_, fun ht hc => ?_⟩
  · simpa [writeRows] using write h
  · simpa using read h
  · have e : exec (.registerWrite r b off v) s = .next (busWriteB s r .main b off v .word) :=
      congrArg _ (busWriteW_tagged ht s .main b off v .word)
    rw [e, busWriteB, busWrite, regWrite, anyAccess_tagged ht, blockAccess_error he, busAnswer_tagged ht hc]
    rfl
  · have hw : ∀ row ∈ writeRows r b off v .word, exec row.1 s = .next (send (latchFault s (requestBlock r) 0x8002) .resp (tagOf r) [0, 0]) :=
      fun row hrow => by rw [exec_writeRows hrow, busWriteW_tagged ht, busWriteB, busWrite, busAnswer_cut ht hc]
    have hr : ∀ c ∈ ([.rcCounterRead r b off, .latchingLoRead r b off] : List Instr),
        exec c s = .next (send (latchFault s (requestBlock r) 0x8002) .resp (tagOf r) [0, 0]) :=
      fun c hmem => by rw [exec_reads hmem, busReadW_tagged ht, busReadB, busRead, busAnswer_cut ht hc]
    simpa [writeRows, and_assoc] using And.intro hw hr

end Sys2Proof.Machine
end

section
/-!
PROOFS. Laws of performed accesses and of the common header: which bits a write takes, and what a write of a header register does (R42 to R54).
-/

namespace Sys2Proof.Machine

/-! ## Performed accesses -/

theorem performed_split {s : State} {r : Requester} {b off : Nat} {w : Bool} {v : Word} (h : performed s r b off w v = true) :
    selvCut s b = false ∧ gateError (windowClose s) b off w = false := by
  simp only [performed, Bool.and_eq_true, Bool.not_eq_true'] at h
  exact ⟨h.1.1.1.1.1.2, h.1.1.2⟩

/-- What answers is a block. -/
theorem kindOf_of_gateError {s : State} {b off : Nat} {w : Bool} (h : gateError s b off w = false) : ∃ k, kindOf b = some k := by
  refine Option.ne_none_iff_exists'.1 fun hk => ?_
  simp [gateError, hk] at h

theorem kindOf_of_performed {s : State} {r : Requester} {b off : Nat} {w : Bool} {v : Word} (h : performed s r b off w v = true) :
    ∃ k, kindOf b = some k := kindOf_of_gateError (performed_split h).2

theorem okResp_mem_send (s : State) (r : Requester) (v : Nat) : okResp r v ∈ (send s .resp (tagOf r) [1, v]).out := by
  simp [send, outOf, selvOf, okResp]

@[simp] theorem windowClose_hiLatch (s : State) : (windowClose s).hiLatch = s.hiLatch := by
  obtain ⟨x, h⟩ := windowClose_frame s; rw [h]
@[simp] theorem windowClose_ltime (s : State) : (windowClose s).ltime = s.ltime := by
  obtain ⟨x, h⟩ := windowClose_frame s; rw [h]
@[simp] theorem windowClose_free (s : State) : (windowClose s).free = s.free := by
  obtain ⟨x, h⟩ := windowClose_frame s; rw [h]
@[simp] theorem rd_windowClose (s : State) (b : Nat) (f : Fld) : rd (windowClose s) b f = rd s b f := rd_congr (windowClose_regs s) b f
@[simp] theorem regGet_windowClose (s : State) (b off i : Nat) : regGet (windowClose s) b off i = regGet s b off i :=
  regGet_congr (windowClose_regs s) b off i
@[simp] theorem ctl_windowClose (s : State) (b : Nat) : ctl (windowClose s) b = ctl s b := by simp [ctl]

/-! ## Masks -/

theorem maskWhere_eq_zero {k : Kind} {off : Nat} {p : FldRow → Bool} (h : ∀ r ∈ rowsAt k off, p r = false) : maskWhere k off p = 0 := by
  unfold maskWhere
  have : ∀ (xs : List FldRow) (m : Word), (∀ r ∈ xs, p r = false) → xs.foldl (fun m r => if p r then m ||| fldMask r.fld else m) m = m := by
    intro xs
    induction xs with
    | nil => exact fun _ _ => rfl
    | cons x xs ih =>
      intro m hx
      rw [List.forall_mem_cons] at hx
      rw [List.foldl_cons, hx.1]
      exact ih m hx.2
  exact this _ 0 h

/-- No register with expert bits coded otherwise has bits coded RW, but of the timer. -/
theorem policy_rows_not_rw {k : Kind} (h : k ≠ .timer) : (commonMap ++ kindMap k).all (fun r => r.guard != .policy ||
    (List.range r.n).all (fun i => (rowsAt k (r.fld.off + i * r.stride)).all (fun x => x.acc != .rw))) = true := by
  cases k with
  | timer => exact absurd rfl h
  | _ => decide +kernel

/-- A row that stands at an offset is one of its block's map, repeated. -/
theorem mem_rowsAt {k : Kind} {off : Nat} {r : FldRow} (h : r ∈ rowsAt k off) :
    r ∈ commonMap ++ kindMap k ∧ ∃ i < r.n, off = r.fld.off + i * r.stride := by
  simp only [rowsAt, List.mem_filter, Bool.and_eq_true, decide_eq_true_eq, beq_iff_eq] at h
  obtain ⟨hm, ⟨hle, hmod⟩, hlt⟩ := h
  exact ⟨hm, _, hlt, by rw [Nat.div_mul_cancel (Nat.dvd_of_mod_eq_zero hmod)]; omega⟩

/-- No register but one of the timer has expert bits coded RW. -/
theorem expertRw_eq_zero {k : Kind} (h : k ≠ .timer) (s : State) (r : Requester) (b off : Nat) : expertRw s k r b off = 0 := by
  have hz : accMask s k r true off .rw &&& policyMask k off = 0 := by
    by_cases hp : ∃ x ∈ rowsAt k off, x.guard = .policy
    · obtain ⟨x, hx, hg⟩ := hp
      obtain ⟨hm, i, hi, rfl⟩ := mem_rowsAt hx
      have ha := List.all_eq_true.1 (policy_rows_not_rw h) x hm
      simp only [hg, bne_self_eq_false, Bool.false_or] at ha
      have hr := List.all_eq_true.1 (List.all_eq_true.1 ha i (List.mem_range.2 hi))
      have : accMask s k r true (x.fld.off + i * x.stride) .rw = 0 :=
        maskWhere_eq_zero fun y hy => by have := hr y hy; simp_all
      simp [this]
    · have : policyMask k off = 0 := maskWhere_eq_zero fun y hy => by
        simpa using fun hg => hp ⟨y, hy, hg⟩
      simp [this]
  unfold expertRw
  split_ifs
  · exact hz
  · rfl

/-! ## The header -/

theorem header_ne {off n : Nat} (h : off < 0x40) (hn : 0x40 ≤ n) : off ≠ n := by omega

theorem selIndex_header (s : State) (r : Requester) (b : Nat) {off : Nat} (h : off < 0x40 ∨ 0x800 ≤ off ∧ off ≤ 0x808) : selIndex s r b off = 0 := by
  unfold selIndex
  cases kindOf b with
  | none => rfl
  | some k => cases k <;> simp only [selFld] <;> grind

theorem reservedAt_header (b : Nat) {off : Nat} (h : off < 0x40) : reservedAt b off = false := by
  have : ¬ 0x080 ≤ off := by omega
  simp [reservedAt, this]

/-- Of the header, a main-page write of TXN alone does more than set bits. -/
theorem writeDo_header (s : State) (r : Requester) (b v : Nat) {off : Nat} (h : off < 0x40) (ht : off ≠ F.TXN_OP.off) :
    writeDo s r b off v = s := by
  unfold writeDo
  rw [if_neg ht]
  cases kindOf b with
  | none => rfl
  | some k => cases k <;> simp [llDo, shuttleDo, hubDo, loomDo, header_ne h]

/-- A direct write may leave any value in the header. -/
theorem mayBe_header (s : State) (b idx : Nat) (w : Word) {off : Nat} (h : off < 0x40) : mayBe s b off idx w = true := by
  have hle : ∀ n, 0x40 ≤ n → ¬ n ≤ off := fun n hn => by omega
  unfold mayBe
  cases kindOf b with
  | none => rfl
  | some k => cases k <;> simp [loomMayBe, hubMayBe, header_ne h, hle]

/-- A write of RW bits of the header sets them and does nothing else. -/
theorem rwWrite_header (s : State) (r : Requester) (b idx : Nat) (m v : Word) {off : Nat} (h : off < 0x40) :
    rwWrite s r b off idx m v = if m = 0 then s else regSet s b off idx (mergeBits m (regGet s b off idx) v) := by
  have hle : ∀ n, 0x40 ≤ n → ¬ n ≤ off := fun n hn => by omega
  unfold rwWrite
  simp only [mayBe_header s b idx _ h]
  cases kindOf b with
  | none => rfl
  | some k => cases k <;> simp [beatRw, ltimeRw, shuttleRw, glimmerRw, apcRw, netioRw, hubRw, header_ne h, hle]

theorem word_or_zero (a : Word) : a ||| 0 = a := by simp
theorem word_and_not_zero (a : Word) : a &&& ~~~0 = a := by
  rw [show (~~~0 : Word) = BitVec.allOnes 32 from rfl, BitVec.and_allOnes]
theorem mergeBits_zero (a b : Word) : mergeBits 0 a b = a := by
  rw [mergeBits, word_and_not_zero]
  simp
theorem mergeBits_set (m a : Word) : mergeBits m a (BitVec.allOnes 32) = a ||| m := by
  ext i hi
  rw [mergeBits, BitVec.allOnes_and]
  simp
  cases a[i] <;> simp
theorem mergeBits_clear (m a : Word) : mergeBits m a 0 = a &&& ~~~m := by simp [mergeBits]
theorem mergeBits_allOnes (a b : Word) : mergeBits (BitVec.allOnes 32) a b = b := by
  rw [mergeBits, BitVec.and_allOnes, BitVec.not_allOnes]
  simp

/-- Between two states: one register of block `b` takes a value, and nothing else changes but what is sent and which free values are drawn. -/
structure RegOnly (s t : State) (b off : Nat) (w : Word) : Prop where
  frame : t = { s with regs := t.regs, free := t.free, out := t.out }
  value : regGet t b off 0 = w
  rest : regsBut s t b [off]

theorem regsBut_regSet (s : State) (b : Nat) {off : Nat} (w : Word) (ho : off < 4096) : regsBut s (regSet s b off 0 w) b [off] := by
  intro b' off' idx hn ho' hi
  refine regGet_regSet_ne _ _ _ _ _ (regKey_ne ho' ho hi (by decide) ?_)
  simp only [List.mem_singleton] at hn
  tauto

theorem RegOnly.regSet (s : State) (b : Nat) {off : Nat} (w : Word) (ho : off < 4096) : RegOnly s (regSet s b off 0 w) b off w :=
  ⟨rfl, regGet_regSet_self _ _ _ _ _, regsBut_regSet s b w ho⟩

/-- Sending, and the line that follows a write, leave what the write did. -/
theorem RegOnly.out {s t : State} {b off : Nat} {w : Word} (h : RegOnly s t b off w) (o : List Out) : RegOnly s { t with out := o } b off w := by
  obtain ⟨hf, hv, hr⟩ := h
  refine ⟨?_, hv, hr⟩
  rw [hf]

theorem RegOnly.lineFollow {s t : State} {b off : Nat} {w : Word} (h : RegOnly s t b off w) (old : State) (b' : Nat) :
    RegOnly s (lineFollow old t b') b off w := by
  obtain ⟨o, e⟩ := lineFollow_frame old t b'
  rw [e]
  exact h.out o

theorem regOnly_rwWrite (s : State) (r : Requester) (b : Nat) (m v : Word) {off : Nat} (h : off < 0x40) :
    RegOnly s (rwWrite s r b off 0 m v) b off (mergeBits m (regGet s b off 0) v) := by
  rw [rwWrite_header s r b 0 m v h]
  split
  next hm => exact ⟨rfl, by rw [hm, mergeBits_zero], regsBut_of_regs _ _ rfl⟩
  next => exact .regSet s b _ (by omega)

/-! ## FAULTMASK -/

/-- The bits of a header register with an access code. -/
def hdrMask (off : Nat) (a : Acc) : Word := (hdr off).foldl (fun m x => if x.acc == a then m ||| fldMask x.fld else m) 0

/-- Offsets of the header that any requester may write, in either mode. -/
def hdrOffs : List Nat := [0x00C, 0x010, 0x014, 0x018, 0x024, 0x800, 0x804, 0x808]

theorem hdr_guards : hdrOffs.all (fun off => (hdr off).all (fun x => x.guard == .any)) = true := by decide +kernel

theorem rowsAt_hdrOffs (k : Kind) {off : Nat} (h : off ∈ hdrOffs) : rowsAt k off = hdr off :=
  rowsAt_hdr k off (by simp only [hdrOffs, List.mem_cons, List.not_mem_nil, or_false] at h ⊢; tauto)

theorem hdr_any {off : Nat} (h : off ∈ hdrOffs) {x : FldRow} (hx : x ∈ hdr off) : x.guard = .any := by
  simpa using List.all_eq_true.1 (List.all_eq_true.1 hdr_guards off h) x hx

/-- Masks of the header depend on the access code alone. -/
theorem accMask_hdr {off : Nat} (h : off ∈ hdrOffs) (s : State) (k : Kind) (r : Requester) (e : Bool) (a : Acc) :
    accMask s k r e off a = hdrMask off a := by
  unfold accMask maskWhere hdrMask
  rw [rowsAt_hdrOffs k h]
  refine List.foldl_ext _ _ _ fun m x hx => ?_
  simp [hdr_any h hx, guardOk]

theorem policyMask_hdr {off : Nat} (h : off ∈ hdrOffs) (k : Kind) : policyMask k off = 0 :=
  maskWhere_eq_zero fun x hx => by
    rw [rowsAt_hdrOffs k h] at hx
    simp [hdr_any h hx]

theorem rwsMask_hdr {off : Nat} (h : off ∈ hdrOffs) (s : State) (k : Kind) (r : Requester) (b : Nat) : rwsMask s k r b off = hdrMask off .rws :=
  accMask_hdr h ..

theorem expertRw_hdr {off : Nat} (h : off ∈ hdrOffs) (s : State) (k : Kind) (r : Requester) (b : Nat) : expertRw s k r b off = 0 := by
  unfold expertRw
  split_ifs
  · simp [policyMask_hdr h]
  · rfl

theorem rwsWrite_zero (s : State) (r : Requester) (b off idx : Nat) (v : Word) : rwsWrite s r b off idx 0 v = s := by simp [rwsWrite]
theorem w1cWrite_zero (s : State) (b off idx : Nat) (v : Word) : w1cWrite s b off idx 0 v = s := by simp [w1cWrite]
theorem w1sWrite_zero (s : State) (b off : Nat) (v : Word) : w1sWrite s b off 0 v = s := by simp [w1sWrite]

theorem hdrMask_w1s {off : Nat} (h : off ∈ hdrOffs) : hdrMask off .w1s = 0 := by
  have : hdrOffs.all (fun off => hdrMask off .w1s == 0) = true := by decide +kernel
  simpa using List.all_eq_true.1 this off h

/-- A main-page write of a header register that asks for no reset. -/
theorem putMain_hdr {b off : Nat} {k : Kind} {v : Word} (hk : kindOf b = some k) (hm : off ∈ hdrOffs) (h : off < 0x40)
    (hr : ¬ (off = F.CONTROL_RESETREQ.off ∧ fldGet F.CONTROL_RESETREQ v = 1)) (s : State) (r : Requester) :
    putMain s r b off v = lineFollow s (writeDo (w1cWrite (rwWrite (rwsWrite s r b off 0 (hdrMask off .rws) v) r b off 0 (hdrMask off .rw) v)
      b off 0 (hdrMask off .w1c) v) r b off v.toNat) b := by
  unfold putMain
  simp only [hk, reservedAt_header b h, if_neg hr, selIndex_header s r b (.inl h), rwsMask_hdr hm, expertRw_hdr hm, accMask_hdr hm,
    hdrMask_w1s hm, word_or_zero, word_and_not_zero, w1sWrite_zero]
  rfl

/-- A write of a header register through a bit-set or bit-clear view. -/
theorem putAlias_hdr {b off : Nat} {k : Kind} (hk : kindOf b = some k) (hm : off ∈ hdrOffs) (h : off < 0x40) (s : State) (r : Requester)
    (set : Bool) (v : Word) : putAlias s r b off set v =
      lineFollow s (rwWrite (rwsWrite s r b off 0 (hdrMask off .rws &&& v) (if set then BitVec.allOnes 32 else 0)) r b off 0
        (hdrMask off .rw &&& v) (if set then BitVec.allOnes 32 else 0)) b := by
  unfold putAlias
  simp only [hk, reservedAt_header b h, selIndex_header s r b (.inl h), rwsMask_hdr hm, expertRw_hdr hm, accMask_hdr hm, word_or_zero,
    word_and_not_zero]
  rfl

theorem hdrMask_faultmask : hdrMask F.FAULTMASK_MASK.off .rws = 0 ∧ hdrMask F.FAULTMASK_MASK.off .w1c = 0 ∧
    hdrMask F.FAULTMASK_MASK.off .rw = BitVec.allOnes 32 := by decide +kernel

/-- A main-page write sets FAULTMASK (R42). -/
theorem putMain_faultmask {b : Nat} {k : Kind} (hk : kindOf b = some k) (s : State) (r : Requester) (v : Word) :
    RegOnly s (putMain s r b F.FAULTMASK_MASK.off v) b F.FAULTMASK_MASK.off v := by
  obtain ⟨hs, hc, hw⟩ := hdrMask_faultmask
  rw [putMain_hdr hk (by decide) (by decide) (fun h => absurd h.1 (by decide)), hs, hc, hw, rwsWrite_zero, w1cWrite_zero,
    writeDo_header _ _ _ _ (by decide) (by decide)]
  exact (mergeBits_allOnes (regGet s b F.FAULTMASK_MASK.off 0) v ▸ regOnly_rwWrite s r b _ v (by decide)).lineFollow s b

/-- The aliases set and clear bits of FAULTMASK (R43). -/
theorem putAlias_faultmask {b : Nat} {k : Kind} (hk : kindOf b = some k) (s : State) (r : Requester) (set : Bool) (v : Word) :
    RegOnly s (putAlias s r b F.FAULTMASK_MASK.off set v) b F.FAULTMASK_MASK.off
      (if set then regGet s b F.FAULTMASK_MASK.off 0 ||| v else regGet s b F.FAULTMASK_MASK.off 0 &&& ~~~v) := by
  obtain ⟨hs, -, hw⟩ := hdrMask_faultmask
  rw [putAlias_hdr hk (by decide) (by decide), hs, hw, BitVec.allOnes_and, show (0 &&& v : Word) = 0 by simp, rwsWrite_zero]
  cases set
  · exact (mergeBits_clear v (regGet s b F.FAULTMASK_MASK.off 0) ▸ regOnly_rwWrite s r b v 0 (by decide)).lineFollow s b
  · exact (mergeBits_set v (regGet s b F.FAULTMASK_MASK.off 0) ▸ regOnly_rwWrite s r b v (BitVec.allOnes 32) (by decide)).lineFollow s b

end Sys2Proof.Machine
end

section
/-!
PROOFS. Writes through the shadow view, reads that latch or clear, and pairs (R7, R39, R41, R61, R165); O2.
-/

namespace Sys2Proof.Machine

/-! ## Staging -/

theorem stFind_append_self {st : Staged} {key : Nat} (h : stFind st key = none) (w : StagedWord) (hw : w.key = key) :
    stFind (st ++ [w]) key = some w := by
  unfold stFind at *
  rw [List.find?_append, h]
  simp [hw]

theorem stFind_map_self {st : Staged} {key : Nat} {x : StagedWord} (h : stFind st key = some x) (w : StagedWord) (hw : w.key = key) :
    stFind (st.map (fun y => if y.key = key then w else y)) key = some w := by
  unfold stFind at *
  induction st with
  | nil => cases h
  | cons y st ih =>
    rw [List.map_cons]
    by_cases hy : y.key = key
    · simp [hy, hw]
    · rw [List.find?_cons, decide_eq_false hy] at h
      rw [if_neg hy, List.find?_cons, decide_eq_false hy]
      exact ih h

/-- What is staged lies over what was staged before. -/
theorem mergeBits_mergeBits (m n w x v : Word) : mergeBits (n ||| m) w (mergeBits m x v) = mergeBits m (mergeBits n w x) v := by
  ext i hi
  simp only [mergeBits, BitVec.getElem_or, BitVec.getElem_and, BitVec.getElem_not]
  cases m[i] <;> cases n[i] <;> simp

theorem mergeBits_and_self (m w v : Word) : mergeBits m w (v &&& m) = mergeBits m w v := by
  simp [mergeBits, BitVec.and_assoc]

/-- A word with newly staged bits laid over it. -/
theorem stOver_stPut (st : Staged) (key : Nat) (m v w : Word) : stOver (stPut st key m v) key w = mergeBits m (stOver st key w) v := by
  cases h : stFind st key with
  | none =>
    simp only [stOver, stPut, h, stFind_append_self h ⟨key, m, v &&& m⟩ rfl]
    exact mergeBits_and_self m w v
  | some x =>
    simp only [stOver, stPut, h, stFind_map_self h ⟨key, x.mask ||| m, mergeBits m x.val v⟩ rfl]
    exact mergeBits_mergeBits m x.mask w x.val v

/-- The shadow view shows what is staged. -/
theorem shadowWord_stage (s : State) (b off idx : Nat) (m v : Word) :
    shadowWord (stage s b off idx m v) b off idx = mergeBits m (shadowWord s b off idx) v := by
  unfold stage
  dsimp only
  split
  next h => rw [h, mergeBits_zero]
  next =>
    unfold shadowWord
    simp only [ctl_setCtl_self]
    exact stOver_stPut ..

theorem stage_regs (s : State) (b off idx : Nat) (m v : Word) : (stage s b off idx m v).regs = s.regs := by
  unfold stage
  dsimp only
  split <;> rfl

/-- The reserved registers of the other ports have no RWS bits. -/
theorem rwsMask_reserved {b off : Nat} {k : Kind} (hk : kindOf b = some k) (h : reservedAt b off = true) (s : State) (r : Requester) :
    rwsMask s k r b off = 0 := by
  simp only [reservedAt, Bool.and_eq_true, decide_eq_true_eq] at h
  obtain ⟨⟨⟨h1, h2⟩, h3⟩, h4⟩ := h
  have hg : kindOf b = some .glimmer := by
    have h1 : 0x60 < b := h1
    have h2 : b ≤ 0x67 := h2
    interval_cases b <;> rfl
  obtain rfl : Kind.glimmer = k := Option.some.inj (hg.symm.trans hk)
  have hrows : (commonMap ++ kindMap .glimmer).all (fun x => x.acc != .rws || decide (x.fld.off + x.n * x.stride < 0x80)) = true := by
    decide +kernel
  refine maskWhere_eq_zero fun x hx => ?_
  obtain ⟨hm, i, hi, rfl⟩ := mem_rowsAt hx
  have hx := List.all_eq_true.1 hrows x hm
  simp only [Bool.or_eq_true, bne_iff_ne, decide_eq_true_eq] at hx
  obtain hx | hx := hx
  · simp [hx]
  · have : (i + 1) * x.stride ≤ x.n * x.stride := Nat.mul_le_mul_right _ hi
    rw [Nat.add_mul] at this
    omega

/-- The shadow view of a block without a transaction counts a refusal (R61). -/
theorem putShadow_idle {b off : Nat} {k : Kind} (hk : kindOf b = some k) {s : State} (h : rd s b F.TXN_TSTATE = tsIdle) (r : Requester)
    (v : Word) : putShadow s r b off v = txnRefuse s b := by
  simp [putShadow, hk, h]

/-- Inside its own transaction a requester stages RWS bits (R61). -/
theorem putShadow_own {b off : Nat} {k : Kind} (hk : kindOf b = some k) (ht : k ≠ .timer) {s : State} {r : Requester}
    (h : rd s b F.TXN_TSTATE = tsOpen) (ho : rd s b F.TXN_OPENER = tagOf r) (v : Word) :
    putShadow s r b off v = stage s b off (selIndex s r b off) (rwsMask s k r b off) v := by
  have hz : ∀ i, stage s b off i 0 v = s := fun i => by simp [stage]
  unfold putShadow
  simp only [hk, h, expertRw_eq_zero ht, word_or_zero]
  rw [if_neg (by decide)]
  split
  next hr => rw [rwsMask_reserved hk hr, hz]
  next =>
    unfold rwsWrite
    dsimp only
    split
    next hm => rw [hm, hz]
    next => simp [h, ho, hk, ht]

/-! ## Reads -/

theorem viewFuse_off (s : State) (tag : Nat) : ∀ x ∈ viewFuse s tag, x.1.off < 0x800 := by
  unfold viewFuse
  cases trecBest s <;> simp

/-- Fields that follow from the rest of the state show in no counter of the header. -/
theorem viewFields_off (s : State) (tag b : Nat) {off : Nat} (h : off ∈ [F.ACCVIOL_COUNT.off, F.TXNREFUSE_COUNT.off, F.TXNROLLBACK_COUNT.off]) :
    ∀ x ∈ viewFields s tag b, x.1.off ≠ off := by
  have hlow : ∀ n, n < 0x800 → n ≠ off := by
    simp only [List.mem_cons, List.not_mem_nil, or_false] at h
    obtain rfl | rfl | rfl := h <;> exact fun n hn => ne_of_lt (lt_of_lt_of_le hn (by decide))
  have hpeak : F.BEAT_LAGPEAK_COUNT.off ≠ off := by
    rintro rfl
    revert h
    decide
  have hfuse : ∀ x ∈ viewFuse s tag, x.1.off ≠ off := fun x hx => hlow _ (viewFuse_off s tag x hx)
  unfold viewFields viewHeader
  cases kindOf b with
  | none => simp [hlow]
  | some k =>
    cases k <;> simp [hlow, hpeak, viewCustody, viewLl, viewBeat, viewLoom, halves, fAt, tf, fStep, or_imp, forall_and]
    case lamplighter => exact fun a _ => hlow _ (by omega)
    case fuse => exact fun a b hm => hfuse (a, b) hm
    case timer =>
      constructor <;> rintro a b x hx rfl -
      · exact hlow _ (by dsimp only; omega)
      · exact hlow _ (by dsimp only; omega)
    case partition => exact fun a _ => hlow _ (by omega)

theorem mem_counters {off : Nat} (h : off ∈ [F.ACCVIOL_COUNT.off, F.TXNREFUSE_COUNT.off, F.TXNROLLBACK_COUNT.off]) :
    off ∈ hdrOffs ∧ 0x800 ≤ off ∧ off ≤ 0x808 := by
  simp only [List.mem_cons, List.not_mem_nil, or_false] at h
  obtain rfl | rfl | rfl := h <;> decide

theorem maskWhere_hdr {off : Nat} (h : off ∈ hdrOffs) (k : Kind) (a : Acc) : maskWhere k off (fun row => row.acc == a) = hdrMask off a := by
  rw [maskWhere, rowsAt_hdrOffs k h]
  rfl

/-- A counter of the header reads as it stands. -/
theorem viewWord_counter {b off : Nat} {k : Kind} (hk : kindOf b = some k)
    (h : off ∈ [F.ACCVIOL_COUNT.off, F.TXNREFUSE_COUNT.off, F.TXNROLLBACK_COUNT.off]) (s : State) (r : Requester) :
    viewWord s r b off = regGet s b off 0 := by
  obtain ⟨hm, hr⟩ := mem_counters h
  have hw : writeOnly b off = 0 := by
    have hc : [F.ACCVIOL_COUNT.off, F.TXNREFUSE_COUNT.off, F.TXNROLLBACK_COUNT.off].all (fun off => hdrMask off .wo == 0) = true := by
      decide +kernel
    rw [writeOnly, hk]
    exact (maskWhere_hdr hm k .wo).trans (by simpa using List.all_eq_true.1 hc off h)
  have hf : (viewFields s (tagOf r) b).filter (fun x => x.1.off = off) = [] :=
    List.filter_eq_nil_iff.2 fun x hx => by simpa using viewFields_off s (tagOf r) b h x hx
  rw [viewWord, hf, hw, selIndex_header s r b (.inr hr), word_and_not_zero]
  rfl

/-- A counter of the header latches no half and counts no cycles. -/
theorem counter_plain (b : Nat) {off : Nat} (h : off ∈ [F.ACCVIOL_COUNT.off, F.TXNREFUSE_COUNT.off, F.TXNROLLBACK_COUNT.off]) :
    latchHi b off = none ∧ freeCount b off = false := by
  simp only [List.mem_cons, List.not_mem_nil, or_false] at h
  unfold latchHi freeCount
  obtain rfl | rfl | rfl := h
  all_goals
    cases kindOf b with
    | none => exact ⟨rfl, rfl⟩
    | some k => cases k <;> exact ⟨rfl, rfl⟩

/-- A read of a counter has no effect of its own. -/
theorem readEffect_counter {b off : Nat} (h : off ∈ [F.ACCVIOL_COUNT.off, F.TXNREFUSE_COUNT.off, F.TXNROLLBACK_COUNT.off]) {s : State}
    {r : Requester} (hl : tabGet 0 s.hiLatch (hiKey b off (tagOf r)) = 0) (w : Word) : readEffect s r b off w = (w, s) := by
  obtain ⟨h1, h2⟩ := counter_plain b h
  obtain ⟨-, h3, h4⟩ := mem_counters h
  have hc : ¬ (off - 0x40) / 32 < 24 := by omega
  have hn : off ≠ F.LTIME_NOW_HI_LT.off ∧ off ≠ F.REED_I3CDATA_DATA.off := by
    constructor <;> (rintro rfl; revert h3; decide)
  unfold readEffect
  simp only [h1, hl, h2]
  cases kindOf b with
  | none => rfl
  | some k => cases k <;> simp [hn.1, hn.2, hc]

/-- A read through the main page answers a counter and clears it (R7). -/
theorem readMain_counter {b off : Nat} {k : Kind} (hk : kindOf b = some k)
    (h : off ∈ [F.ACCVIOL_COUNT.off, F.TXNREFUSE_COUNT.off, F.TXNROLLBACK_COUNT.off]) {s : State} {r : Requester}
    (hl : tabGet 0 s.hiLatch (hiKey b off (tagOf r)) = 0) : readMain s r b off = (regGet s b off 0, regSet s b off 0 0) := by
  have hm : maskWhere k off (fun row => row.acc == .rc) = BitVec.allOnes 32 := by
    have hc : [F.ACCVIOL_COUNT.off, F.TXNREFUSE_COUNT.off, F.TXNROLLBACK_COUNT.off].all (fun off => hdrMask off .rc == BitVec.allOnes 32) = true := by
      decide +kernel
    exact (maskWhere_hdr (mem_counters h).1 k .rc).trans (by simpa using List.all_eq_true.1 hc off h)
  have hz : ∀ w : Word, w &&& ~~~BitVec.allOnes 32 = 0 := fun w => by rw [BitVec.not_allOnes]; simp
  unfold readMain
  simp only [hk, hm, readEffect_counter h hl, viewWord_counter hk h, hz]
  rw [if_neg (by decide)]

/-! ## LT (R165) -/

theorem fldSet_word {f : Fld} (hlo : f.lo = 0) (hhi : f.hi = 31) (w : Word) (v : Nat) : (fldSet f w v).toNat = v % 2 ^ 32 := by
  have hw : fldWidth f = 32 := by simp [fldWidth, hlo, hhi]
  have h := fldGet_fldSet_self f w v (by simp [hlo, hw])
  rw [hw, fldGet, hlo, hw, Nat.pow_zero, Nat.div_one, Nat.mod_eq_of_lt (fldSet f w v).isLt] at h
  exact h

theorem viewWord_ltime (s : State) (r : Requester) {f : Fld} {v : Nat} (hlo : f.lo = 0) (hhi : f.hi = 31)
    (h : (viewFields s (tagOf r) bLtime).filter (fun x => x.1.off = f.off) = [(f, v)]) : (viewWord s r bLtime f.off).toNat = v % 2 ^ 32 := by
  rw [viewWord, h]
  exact fldSet_word hlo hhi _ v

/-- What LTIME_NOW shows: LT as it reaches the reader (R24). -/
theorem viewWord_lt (s : State) (r : Requester) :
    (viewWord s r bLtime F.LTIME_NOW_LO_LT.off).toNat = (ltLagged s).1 % 2 ^ 32 ∧
      (viewWord s r bLtime F.LTIME_NOW_HI_LT.off).toNat = (ltLagged s).1 / 2 ^ 32 % 2 ^ 32 := by
  constructor
  · rw [viewWord_ltime s r (f := F.LTIME_NOW_LO_LT) rfl rfl rfl, Nat.mod_mod]
  · rw [viewWord_ltime s r (f := F.LTIME_NOW_HI_LT) rfl rfl rfl, Nat.mod_mod]

theorem ltLagged_bounds (s : State) : ltNow s - 6 ≤ (ltLagged s).1 ∧ (ltLagged s).1 ≤ ltNow s := by
  have : Config.freeNat s.free % 7 < 7 := Nat.mod_lt _ (by decide)
  unfold ltLagged
  dsimp only
  omega

theorem lagDraw_keeps (b : Nat) (s : State) : (lagDraw b s).hiLatch = s.hiLatch ∧ (lagDraw b s).regs = s.regs := by
  unfold lagDraw
  split <;> exact ⟨rfl, rfl⟩

/-- The low half holds the high half for the requester. -/
theorem readMain_ltLo (s : State) (r : Requester) : ∃ t, readMain s r bLtime F.LTIME_NOW_LO_LT.off = (viewWord s r bLtime F.LTIME_NOW_LO_LT.off, t) ∧
    t.regs = s.regs ∧ tabGet 0 t.hiLatch (hiKey bLtime F.LTIME_NOW_HI_LT.off (tagOf r)) = (ltLagged s).1 / 2 ^ 32 % 2 ^ 32 + 1 := by
  have hm : maskWhere .ltime F.LTIME_NOW_LO_LT.off (fun row => row.acc == .rc) = 0 := by decide +kernel
  have hk : kindOf bLtime = some .ltime := rfl
  have hl : latchHi bLtime F.LTIME_NOW_LO_LT.off = some F.LTIME_NOW_HI_LT.off := rfl
  unfold readMain readEffect
  simp only [hk, hm, hl, (viewWord_lt s r).2]
  refine ⟨_, rfl, (lagDraw_keeps bLtime _).2, ?_⟩
  rw [(lagDraw_keeps bLtime _).1]
  exact tabGet_tabSet_self 0 ((ltLagged s).1 / 2 ^ 32 % 2 ^ 32 + 1) s.hiLatch _

/-- The high half answers what is held (R165). -/
theorem readMain_ltHi {s : State} {r : Requester} {v : Nat} (h : tabGet 0 s.hiLatch (hiKey bLtime F.LTIME_NOW_HI_LT.off (tagOf r)) = v + 1) :
    (readMain s r bLtime F.LTIME_NOW_HI_LT.off).1 = BitVec.ofNat 32 v := by
  have hm : maskWhere .ltime F.LTIME_NOW_HI_LT.off (fun row => row.acc == .rc) = 0 := by decide +kernel
  have hk : kindOf bLtime = some .ltime := rfl
  have hl : latchHi bLtime F.LTIME_NOW_HI_LT.off = none := rfl
  unfold readMain readEffect
  simp only [hk, hm, hl, h]
  rfl

/-! ## Widths (R39) -/

theorem regWrite_performed {s : State} {r : Requester} {b off : Nat} {v : Word} (w : View) (h : performed s r b off true v = true) :
    regWrite s r w b off v = (true, 0, put (windowClose s) r w b off v) := by
  rw [regWrite, anyAccess_performed _ h]

theorem regRead_performed {s : State} {r : Requester} {b off : Nat} (w : View) (h : performed s r b off false 0 = true) :
    regRead s r w b off = (true, (get (windowClose s) r w b off).1, (get (windowClose s) r w b off).2) := by
  rw [regRead, anyAccess_performed _ h]

theorem pairAnswer_performed {s : State} {r : Requester} {b : Nat} (ht : tagged r = true) (hc : selvCut s b = false) (isWrite : Bool)
    (x y : Word) (t u : State) :
    pairAnswer s r b isWrite (true, x, t) (true, y, u) = send u .resp (tagOf r) [1, x.toNat, y.toNat] := by
  simp [pairAnswer, hc, asReq_tagged ht, hartSees_tagged ht]

theorem widthError_tagged {r : Requester} (ht : tagged r = true) (s : State) (w : Bool) : widthError s r w = send s .resp (tagOf r) [0, 0] := by
  rw [widthError, hartSees_tagged ht, asReq_tagged ht]
  rfl

/-- A width that is neither a word nor an aligned pair. -/
theorem oddWidth_cases {wd : Width} {off : Nat} (h1 : wd ≠ .word) (h2 : off % 8 = 0 → wd = .other) :
    wd = .other ∨ (off % 8 ≠ 0 ∧ ∃ x, wd = .pair x) := by
  cases wd with
  | word => exact absurd rfl h1
  | pair x => exact .inr ⟨fun h => Width.noConfusion (h2 h), x, rfl⟩
  | other => exact .inl rfl

theorem busWriteB_oddWidth {r : Requester} (ht : tagged r = true) (s : State) (w : View) {b off : Nat} {wd : Width} (v : Word)
    (h1 : wd ≠ .word) (h2 : off % 8 = 0 → wd = .other) : busWriteB s r w b off v wd = send s .resp (tagOf r) [0, 0] := by
  obtain rfl | ⟨h, x, rfl⟩ := oddWidth_cases h1 h2
  · exact widthError_tagged ht s true
  · rw [busWriteB, if_pos h, widthError_tagged ht]

theorem busReadB_oddWidth {r : Requester} (ht : tagged r = true) (s : State) (w : View) {b off : Nat} {wd : Width}
    (h1 : wd ≠ .word) (h2 : off % 8 = 0 → wd = .other) : busReadB s r w b off wd = send s .resp (tagOf r) [0, 0] := by
  obtain rfl | ⟨h, x, rfl⟩ := oddWidth_cases h1 h2
  · exact widthError_tagged ht s false
  · rw [busReadB, if_pos h, widthError_tagged ht]

/-! ## The commands -/

/-- A performed write of one word through any view. -/
theorem exec_write_performed {s : State} {r : Requester} {b off : Nat} {v : Word} (h : performed s r b off true v = true) {row : Instr × View}
    (hrow : row ∈ writeRows r b off v .word) :
    exec row.1 s = .next (send (put (windowClose s) r row.2 b off v) .resp (tagOf r) [1, 0]) := by
  rw [exec_writeRows hrow, busWriteW_tagged (performed_tagged h), busWriteB, busWrite_performed _ h]

/-- A performed read of one word. -/
theorem exec_read_performed {s : State} {r : Requester} {b off : Nat} (h : performed s r b off false 0 = true) {c : Instr}
    (hc : c ∈ ([.rcCounterRead r b off, .latchingLoRead r b off] : List Instr)) :
    exec c s = .next (send (readMain (windowClose s) r b off).2 .resp (tagOf r) [1, (readMain (windowClose s) r b off).1.toNat]) := by
  rw [exec_reads hc, busReadW_tagged (performed_tagged h), busReadB, busRead_performed _ h]
  rfl

theorem selIndex_windowClose (s : State) (r : Requester) (b off : Nat) : selIndex (windowClose s) r b off = selIndex s r b off := by
  unfold selIndex rdI rd rdI
  simp only [regGet_windowClose]

theorem shadowWord_windowClose (s : State) (b off i : Nat) : shadowWord (windowClose s) b off i = shadowWord s b off i := by
  unfold shadowWord
  simp only [ctl_windowClose, regGet_windowClose]

theorem rwsMask_windowClose (s : State) (k : Kind) (r : Requester) (b off : Nat) : rwsMask (windowClose s) k r b off = rwsMask s k r b off := by
  unfold rwsMask accMask stagedExpert liveExpert rdB
  simp only [rd_windowClose, shadowWord_windowClose]
  congr 1
  funext row
  cases row.guard <;> simp [guardOk]

/-- What a performed write of FAULTMASK has done. -/
theorem faultmask_written {s : State} {r : Requester} {b : Nat} {v : Word} (h : performed s r b F.FAULTMASK_MASK.off true v = true)
    {row : Instr × View} (hrow : row ∈ writeRows r b F.FAULTMASK_MASK.off v .word) {w : Word}
    (hw : RegOnly (windowClose s) (put (windowClose s) r row.2 b F.FAULTMASK_MASK.off v) b F.FAULTMASK_MASK.off w) :
    ∃ t, exec row.1 s = .next t ∧ regGet t b F.FAULTMASK_MASK.off 0 = w ∧ regsBut s t b [F.FAULTMASK_MASK.off] ∧
      t = { windowClose s with regs := t.regs, free := t.free, out := t.out } := by
  refine ⟨_, exec_write_performed h hrow, ?_⟩
  obtain ⟨hf, hv, hr⟩ := hw.out (send (put (windowClose s) r row.2 b F.FAULTMASK_MASK.off v) .resp (tagOf r) [1, 0]).out
  exact ⟨hv, regsBut_trans (regsBut_of_regs _ _ (windowClose_regs s)) hr, hf⟩

/-- The writes of O2. -/
theorem registerWrites (r : Requester) (b off : Nat) (v : Word) (s : State) :
    (performed s r b off true v = true → ∀ row ∈ writeRows r b off v .word, ∃ t, exec row.1 s = .next t ∧ okResp r 0 ∈ t.out) ∧
    (performed s r b off true v = true → rd s b F.TXN_TSTATE = tsIdle →
      ∃ t, exec (.shadowViewWrite r b off v) s = .next t ∧ ctl t b = ctl s b ∧ regsBut s t b [F.TXNREFUSE_COUNT.off] ∧
        rd t b F.TXNREFUSE_COUNT = (rd s b F.TXNREFUSE_COUNT + 1) % 2 ^ 32) ∧
    (∀ k, kindOf b = some k → k ≠ .timer → performed s r b off true v = true → rd s b F.TXN_TSTATE = tsOpen →
      rd s b F.TXN_OPENER = tagOf r → off < 4096 →
      ∃ t, exec (.shadowViewWrite r b off v) s = .next t ∧ t.regs = s.regs ∧
        shadowWord t b off (selIndex s r b off) =
          mergeBits (rwsMask s k r b off) (shadowWord s b off (selIndex s r b off)) v) := by
  have hshadow : (Instr.shadowViewWrite r b off v, View.shadow) ∈ writeRows r b off v .word := by simp [writeRows]
  refine ⟨fun h row hrow => ⟨_, exec_write_performed h hrow, okResp_mem_send ..⟩, fun h hi => ?_, fun k hk ht h ho hr _ => ?_⟩
  · obtain ⟨k, hk⟩ := kindOf_of_performed h
    have hp : put (windowClose s) r .shadow b off v = txnRefuse (windowClose s) b := putShadow_idle hk (by rw [rd_windowClose, hi]) r v
    refine ⟨_, exec_write_performed h hshadow, ?_⟩
    rw [hp]
    refine ⟨ctl_windowClose s b, ?_, ?_⟩
    · exact regsBut_trans (regsBut_of_regs _ _ (windowClose_regs s)) (regsBut_regSet _ b _ (by decide))
    · rw [rd_send, txnRefuse, rd_inc_self _ _ _ (by decide), rd_windowClose]
      rfl
  · have hp : put (windowClose s) r .shadow b off v = stage (windowClose s) b off (selIndex s r b off) (rwsMask s k r b off) v := by
      rw [← selIndex_windowClose, ← rwsMask_windowClose]
      exact putShadow_own hk ht (by rw [rd_windowClose, ho]) (by rw [rd_windowClose, hr]) v
    refine ⟨_, exec_write_performed h hshadow, ?_⟩
    rw [hp]
    refine ⟨(stage_regs ..).trans (windowClose_regs s), ?_⟩
    exact (shadowWord_stage ..).trans (by rw [shadowWord_windowClose])

/-- The reads of O2. -/
theorem registerReads (r : Requester) (b off : Nat) (s : State) :
    (performed s r b off false 0 = true → ∀ c ∈ ([.rcCounterRead r b off, .latchingLoRead r b off] : List Instr),
      ∃ t v, exec c s = .next t ∧ okResp r v ∈ t.out) ∧
    (off ∈ [F.ACCVIOL_COUNT.off, F.TXNREFUSE_COUNT.off, F.TXNROLLBACK_COUNT.off] → performed s r b off false 0 = true →
      tabGet 0 s.hiLatch (hiKey b off (tagOf r)) = 0 →
      ∃ t, exec (.rcCounterRead r b off) s = .next t ∧ okResp r (regGet s b off 0).toNat ∈ t.out ∧ regGet t b off 0 = 0 ∧
        regsBut s t b [off]) ∧
    (performed s r bLtime F.LTIME_NOW_LO_LT.off false 0 = true →
      ∃ t x, ltNow s - 6 ≤ x ∧ x ≤ ltNow s ∧
        exec (.latchingLoRead r bLtime F.LTIME_NOW_LO_LT.off) s = .next t ∧ okResp r (x % 2 ^ 32) ∈ t.out ∧ t.regs = s.regs ∧
        ∀ u, u.hiLatch = t.hiLatch → performed u r bLtime F.LTIME_NOW_HI_LT.off false 0 = true →
          ∃ w, exec (.rcCounterRead r bLtime F.LTIME_NOW_HI_LT.off) u = .next w ∧ okResp r (x / 2 ^ 32 % 2 ^ 32) ∈ w.out) := by
  refine ⟨fun h c hc => ⟨_, _, exec_read_performed h hc, okResp_mem_send ..⟩, fun ho h hl => ?_, fun h => ?_⟩
  · obtain ⟨k, hk⟩ := kindOf_of_performed h
    have hm : readMain (windowClose s) r b off = (regGet s b off 0, regSet (windowClose s) b off 0 0) := by
      rw [readMain_counter hk ho (by simpa using hl), regGet_windowClose]
    refine ⟨_, exec_read_performed h (by simp), ?_⟩
    rw [hm]
    refine ⟨okResp_mem_send .., regGet_regSet_self _ _ _ _ _, ?_⟩
    exact regsBut_trans (regsBut_of_regs _ _ (windowClose_regs s)) (regsBut_regSet _ b _ (by have := (mem_counters ho).2.2; omega))
  · obtain ⟨t, ht, hregs, hlatch⟩ := readMain_ltLo (windowClose s) r
    obtain ⟨hlo, hhi⟩ := ltLagged_bounds (windowClose s)
    set x := (ltLagged (windowClose s)).1 with hx
    have hnow : ltNow (windowClose s) = ltNow s := by simp [ltNow]
    rw [hnow] at hlo hhi
    refine ⟨_, x, hlo, hhi, exec_read_performed h (by simp), ?_, ?_, fun u hu hp => ⟨_, exec_read_performed hp (by simp), ?_⟩⟩
    · rw [ht, ← (viewWord_lt (windowClose s) r).1]
      exact okResp_mem_send ..
    · rw [ht]
      exact hregs.trans (windowClose_regs s)
    · rw [ht] at hu
      have hl : tabGet 0 (windowClose u).hiLatch (hiKey bLtime F.LTIME_NOW_HI_LT.off (tagOf r)) = x / 2 ^ 32 % 2 ^ 32 + 1 := by
        rw [windowClose_hiLatch, hu]
        exact hlatch
      rw [readMain_ltHi hl, BitVec.toNat_ofNat, Nat.mod_mod]
      exact okResp_mem_send ..

/-- The widths of O2. -/
theorem registerWidths (r : Requester) (b off : Nat) (v x : Word) (s : State) :
    (∀ row ∈ writeRows r b off v (.pair x),
      let t := put (windowClose s) r row.2 b off v
      off % 8 = 0 → performed s r b off true v = true → performed t r b (off + 4) true x = true →
      exec row.1 s = .next (send (put (windowClose t) r row.2 b (off + 4) x) .resp (tagOf r) [1, 0, 0])) ∧
    (∀ c ∈ ([.rcCounterRead r b off (.pair x), .latchingLoRead r b off (.pair x)] : List Instr),
      let y := get (windowClose s) r .main b off
      let z := get (windowClose y.2) r .main b (off + 4)
      off % 8 = 0 → performed s r b off false 0 = true → performed y.2 r b (off + 4) false 0 = true →
      exec c s = .next (send z.2 .resp (tagOf r) [1, y.1.toNat, z.1.toNat])) := by
  refine ⟨fun row hrow => ?_, fun c hc => ?_⟩
  · intro t h8 h1 h2
    have ht := performed_tagged h1
    rw [exec_writeRows hrow, busWriteW_tagged ht, busWriteB, if_neg (by omega)]
    dsimp only
    rw [regWrite_performed _ h1, regWrite_performed _ h2, pairAnswer_performed ht (performed_split h1).1]
    rfl
  · intro y z h8 h1 h2
    have ht := performed_tagged h1
    rw [exec_reads hc, busReadW_tagged ht, busReadB, if_neg (by omega)]
    dsimp only
    rw [regRead_performed _ h1, regRead_performed _ h2, pairAnswer_performed ht (performed_split h1).1]

/-- Settles O2: writes, reads and widths. -/
theorem registerAccesses : Obligations.RegisterAccesses := by
  refine ⟨fun r b off v s => ?_, registerReads, fun r b off v x s => ⟨(registerWidths r b off v x s).1, (registerWidths r b off v x s).2, ?_⟩⟩
  · obtain ⟨h1, h3, h4⟩ := registerWrites r b off v s
    refine ⟨fun h c hc => ?_, fun h row hrow => ?_, h3, h4⟩
    · simp only [List.mem_cons, List.not_mem_nil, or_false] at hc
      obtain rfl | rfl | rfl | rfl := hc
      · exact h1 h (.registerWrite r b off v, .main) (by simp [writeRows])
      · exact h1 h (.bitSetAliasWrite r b off v, .bitSet) (by simp [writeRows])
      · exact h1 h (.bitClearAliasWrite r b off v, .bitClear) (by simp [writeRows])
      · exact h1 h (.shadowViewWrite r b off v, .shadow) (by simp [writeRows])
    · obtain ⟨k, hk⟩ := kindOf_of_performed h
      simp only [List.mem_cons, List.not_mem_nil, or_false] at hrow
      obtain rfl | rfl | rfl := hrow
      · exact faultmask_written h (row := (_, .main)) (by simp [writeRows]) (putMain_faultmask hk _ r v)
      · exact faultmask_written h (row := (_, .bitSet)) (by simp [writeRows])
          (regGet_windowClose s b F.FAULTMASK_MASK.off 0 ▸ putAlias_faultmask hk (windowClose s) r true v)
      · exact faultmask_written h (row := (_, .bitClear)) (by simp [writeRows])
          (regGet_windowClose s b F.FAULTMASK_MASK.off 0 ▸ putAlias_faultmask hk (windowClose s) r false v)
  · intro wd h1 h2 ht c hc
    have hw : ∀ row ∈ writeRows r b off v wd, exec row.1 s = .next (send s .resp (tagOf r) [0, 0]) := fun row hrow => by
      rw [exec_writeRows hrow, busWriteW_tagged ht, busWriteB_oddWidth ht s _ v h1 h2]
    simp only [List.mem_cons, List.not_mem_nil, or_false] at hc
    obtain rfl | rfl | rfl | rfl | rfl | rfl := hc
    · exact hw (_, .main) (by simp [writeRows])
    · exact hw (_, .bitSet) (by simp [writeRows])
    · exact hw (_, .bitClear) (by simp [writeRows])
    · exact hw (_, .shadow) (by simp [writeRows])
    · rw [exec_reads (r := r) (b := b) (off := off) (wd := wd) (by simp), busReadW_tagged ht, busReadB_oddWidth ht s _ h1 h2]
    · rw [exec_reads (r := r) (b := b) (off := off) (wd := wd) (by simp), busReadW_tagged ht, busReadB_oddWidth ht s _ h1 h2]

end Sys2Proof.Machine
end

section
/-!
PROOFS. Transactions (R59 to R64, R68): what the operations of TXN leave, how staged words are applied, and O4.
-/

namespace Sys2Proof.Machine

/-! ## Registers of one block -/

theorem regsBut_mono {s t : State} {b : Nat} {o p : List Nat} (h : regsBut s t b o) (hs : o ⊆ p) : regsBut s t b p :=
  fun b' off idx hn => h b' off idx fun ⟨hb, ho⟩ => hn ⟨hb, hs ho⟩

theorem regsBut_wr (s : State) (b : Nat) (f : Fld) (v : Nat) (h : f.off < 4096) : regsBut s (wr s b f v) b [f.off] :=
  regsBut_regSet s b _ h

theorem regsBut_inc (s : State) (b : Nat) (f : Fld) (h : f.off < 4096) : regsBut s (inc s b f) b [f.off] := regsBut_wr s b f _ h

/-! ## A write of one field -/

/-- A performed write of one field answers success and leaves what the write of the register does. -/
theorem fieldWrite_performed {s : State} {r : Requester} {b v : Nat} {f : Fld} (h : fieldPerformed s r b f v = true) :
    fieldWrite s r b f v = send (putMain (windowClose s) r b f.off (withField s r b f v)) .resp (tagOf r) [1, 0] := by
  rw [fieldWrite, asReq_tagged (performed_tagged h), busWrite_performed _ h]
  rfl

theorem fldGet_withField (s : State) (r : Requester) (b : Nat) (f : Fld) (v : Nat) (h : f.lo + fldWidth f ≤ 32) :
    fldGet f (withField s r b f v) = v % 2 ^ fldWidth f := fldGet_fldSet_self f _ v h

theorem kindOf_of_fieldPerformed {s : State} {r : Requester} {b v : Nat} {f : Fld} (h : fieldPerformed s r b f v = true) :
    ∃ k, kindOf b = some k := kindOf_of_performed h

/-- A performed operation of TXN does what `txnOp` says and answers success; the interrupt line may follow. -/
theorem fieldWrite_txn {s : State} {r : Requester} {b op : Nat} (h : fieldPerformed s r b F.TXN_OP op = true) (ho : op < 4) :
    ∃ o, fieldWrite s r b F.TXN_OP op = { txnOp (windowClose s) r b op with out := o } ∧ okResp r 0 ∈ o := by
  obtain ⟨k, hk⟩ := kindOf_of_fieldPerformed h
  have hop : (withField s r b F.TXN_OP op).toNat % 4 = op := by
    have := fldGet_withField s r b F.TXN_OP op (by decide)
    rw [show 2 ^ fldWidth F.TXN_OP = 4 from rfl, Nat.mod_eq_of_lt ho] at this
    simpa [fldGet, fldWidth] using this
  rw [fieldWrite_performed h, putMain_txn _ r b k _ hk, hop]
  obtain ⟨u, hu⟩ := lineFollow_frame (windowClose s) (txnOp (windowClose s) r b op) b
  exact ⟨_, by rw [hu]; rfl, okResp_mem_send _ r 0⟩

/-! ## TXN -/

theorem rd_setTxn (s : State) (b : Nat) {ts res : Nat} (ht : ts < 4) (hr : res < 256) :
    rd (setTxn s b ts res) b F.TXN_TSTATE = ts ∧ rd (setTxn s b ts res) b F.TXN_RESULT = res := by
  constructor
  · rw [setTxn, rd_wr_apart (by decide), rd_wr_self _ _ _ _ (by decide)]
    exact Nat.mod_eq_of_lt ht
  · rw [setTxn, rd_wr_self _ _ _ _ (by decide)]
    exact Nat.mod_eq_of_lt hr

theorem regsBut_setTxn (s : State) (b ts res : Nat) : regsBut s (setTxn s b ts res) b [F.TXN_OP.off] :=
  regsBut_trans (regsBut_wr s b F.TXN_TSTATE ts (by decide)) (regsBut_wr _ b F.TXN_RESULT res (by decide))

theorem rd_setCtl (s : State) (b : Nat) (c : BlockCtl) (b' : Nat) (f : Fld) : rd (setCtl s b c) b' f = rd s b' f := rfl

theorem tagOf_lt (r : Requester) : tagOf r < 32 := by
  cases r <;> simp only [tagOf] <;> omega

/-- What BEGIN leaves on an IDLE block (R60). -/
theorem txnBegin_idle {s : State} {b : Nat} (r : Requester) (h : rd s b F.TXN_TSTATE = tsIdle) :
    let t := txnBegin s r b
    rd t b F.TXN_TSTATE = tsOpen ∧ rd t b F.TXN_OPENER = tagOf r ∧ rd t b F.TXN_RESULT = resOk ∧ (ctl t b).staged = [] ∧
      regsBut s t b [F.TXN_OP.off] := by
  rw [txnBegin, if_pos h]
  obtain ⟨ht, hr⟩ := rd_setTxn s b (ts := tsOpen) (res := resOk) (by decide) (by decide)
  dsimp only
  rw [rd_setCtl, rd_setCtl, rd_setCtl, ctl_setCtl_self, rd_wr_apart (g := F.TXN_TSTATE) (by decide), ht,
    rd_wr_apart (g := F.TXN_RESULT) (by decide), hr, rd_wr_self _ _ _ _ (by decide)]
  refine ⟨rfl, Nat.mod_eq_of_lt (tagOf_lt r), rfl, rfl, ?_⟩
  have h := regsBut_trans (regsBut_setTxn s b tsOpen resOk)
    (regsBut_wr (setTxn s b tsOpen resOk) b F.TXN_OPENER (tagOf r) (by decide))
  exact regsBut_trans h (regsBut_of_regs b _ (setCtl_regs _ b _))

/-- A refused operation of TXN (R54, R59). -/
theorem txnRefused_spec (s : State) (b : Nat) {code : Nat} (hc : code < 256) :
    let t := txnRefused s b code
    rd t b F.TXN_RESULT = code ∧ rd t b F.TXN_TSTATE = rd s b F.TXN_TSTATE ∧ rd t b F.TXN_OPENER = rd s b F.TXN_OPENER ∧
      rd t b F.TXNREFUSE_COUNT = (rd s b F.TXNREFUSE_COUNT + 1) % 2 ^ 32 ∧ ctl t b = ctl s b ∧
      regsBut s t b [F.TXN_OP.off, F.TXNREFUSE_COUNT.off] := by
  refine ⟨?_, ?_, ?_, ?_, rfl, ?_⟩
  · rw [txnRefused, txnRefuse, rd_inc_apart (by decide), rd_wr_self _ _ _ _ (by decide)]
    exact Nat.mod_eq_of_lt hc
  · rw [txnRefused, txnRefuse, rd_inc_apart (by decide), rd_wr_apart (by decide)]
  · rw [txnRefused, txnRefuse, rd_inc_apart (by decide), rd_wr_apart (by decide)]
  · rw [txnRefused, txnRefuse, rd_inc_self _ _ _ (by decide), rd_wr_apart (by decide)]
    rfl
  · exact regsBut_trans (regsBut_mono (regsBut_wr s b F.TXN_RESULT _ (by decide)) (by decide))
      (regsBut_mono (regsBut_inc _ b F.TXNREFUSE_COUNT (by decide)) (by decide))

/-- The opener of an open transaction may commit and roll back. -/
theorem txnGate_open {s : State} {r : Requester} {b : Nat} (ho : rd s b F.TXN_TSTATE = tsOpen) (hr : rd s b F.TXN_OPENER = tagOf r) :
    txnGate s r b = none := by
  simp [txnGate, ho, hr]

/-- What a rollback leaves (R63). -/
theorem discardTxn_spec (s : State) (b : Nat) :
    let t := discardTxn s b resOk
    rd t b F.TXN_TSTATE = tsIdle ∧ rd t b F.TXN_RESULT = resOk ∧ rd t b F.TXNROLLBACK_COUNT = (rd s b F.TXNROLLBACK_COUNT + 1) % 2 ^ 32 ∧
      (ctl t b).staged = [] ∧ regsBut s t b [F.TXN_OP.off, F.TXNROLLBACK_COUNT.off] := by
  have keep : ∀ f, fldsApart F.TXNROLLBACK_COUNT f = true → fldsApart F.TXN_GROUP f = true →
      rd (discardTxn s b resOk) b f = rd (setTxn (setCtl s b { ctl s b with staged := [] }) b tsIdle resOk) b f := fun f h g => by
    rw [discardTxn, rd_inc_apart h, rd_wr_apart g]
  obtain ⟨ht, hr⟩ := rd_setTxn (setCtl s b { ctl s b with staged := [] }) b (ts := tsIdle) (res := resOk) (by decide) (by decide)
  refine ⟨(keep _ (by decide) (by decide)).trans ht, (keep _ (by decide) (by decide)).trans hr, ?_, ?_, ?_⟩
  · rw [discardTxn, rd_inc_self _ _ _ (by decide), rd_wr_apart (by decide), setTxn, rd_wr_apart (by decide), rd_wr_apart (by decide)]
    rfl
  · exact congrArg BlockCtl.staged (ctl_setCtl_self s b { ctl s b with staged := [] })
  · have h1 := regsBut_setTxn (setCtl s b { ctl s b with staged := [] }) b tsIdle resOk
    have h2 := regsBut_wr (setTxn (setCtl s b { ctl s b with staged := [] }) b tsIdle resOk) b F.TXN_GROUP 0 (by decide)
    exact regsBut_trans (regsBut_mono (regsBut_trans h1 h2) (by decide))
      (regsBut_mono (regsBut_inc _ b F.TXNROLLBACK_COUNT (by decide)) (by decide))

/-! ## Staged words -/

/-- The key of a staged word names its register. -/
theorem stKey_div {off idx : Nat} (h : idx < 65536) : stKey off idx / 65536 = off ∧ stKey off idx % 65536 = idx := by
  unfold stKey
  omega

theorem stOver_cons_self (w : StagedWord) (ws : Staged) (x : Word) : stOver (w :: ws) w.key x = mergeBits w.mask x w.val := by
  simp [stOver, stFind]

theorem stOver_cons_ne {w : StagedWord} {k : Nat} (h : w.key ≠ k) (ws : Staged) (x : Word) : stOver (w :: ws) k x = stOver ws k x := by
  simp [stOver, stFind, h]

theorem stOver_of_not_mem {st : Staged} {k : Nat} (h : k ∉ st.map (·.key)) (x : Word) : stOver st k x = x := by
  have : stFind st k = none := List.find?_eq_none.2 fun w hw => by
    simpa using fun e => h (List.mem_map.2 ⟨w, hw, e⟩)
  rw [stOver, this]

/-- Applied words stand in the live registers. -/
theorem regGet_setWords {off idx : Nat} (ho : off < 4096) (hi : idx < 65536) (b : Nat) (st : Staged) (hn : (st.map (·.key)).Nodup)
    (hk : ∀ w ∈ st, w.key < 4096 * 65536) (s : State) :
    regGet (setWords s b st) b off idx = stOver st (stKey off idx) (regGet s b off idx) := by
  induction st generalizing s with
  | nil => rfl
  | cons w ws ih =>
    rw [List.map_cons, List.nodup_cons] at hn
    rw [List.forall_mem_cons] at hk
    rw [setWords, forEach_cons, ← setWords, ih hn.2 hk.2]
    by_cases h : w.key = stKey off idx
    · obtain ⟨hd, hm⟩ := stKey_div (off := off) hi
      rw [← h] at hd hm ⊢
      rw [stOver_of_not_mem hn.1, stOver_cons_self, hd, hm, regGet_regSet_self]
    · rw [stOver_cons_ne h, regGet_regSet_ne]
      refine regKey_ne ho (by omega) hi (Nat.mod_lt _ (by decide)) ?_
      unfold stKey at h
      omega

theorem ctl_regSet (s : State) (b off i : Nat) (w : Word) (b' : Nat) : ctl (regSet s b off i w) b' = ctl s b' := by simp [ctl]

theorem ctl_setWords (s : State) (b : Nat) (st : Staged) (b' : Nat) : ctl (setWords s b st) b' = ctl s b' :=
  forEach_keeps (fun s => ctl s b') (fun _ _ => ctl_regSet _ _ _ _ _ _) st s

/-- Words without a bit add nothing. -/
theorem stOver_filter (st : Staged) (hn : (st.map (·.key)).Nodup) (k : Nat) (x : Word) :
    stOver (st.filter (fun w => w.mask != 0)) k x = stOver st k x := by
  induction st with
  | nil => rfl
  | cons w ws ih =>
    rw [List.map_cons, List.nodup_cons] at hn
    by_cases hm : w.mask = 0
    · rw [List.filter_cons_of_neg (by simp [hm]), ih hn.2]
      by_cases hk : w.key = k
      · subst hk
        rw [stOver_of_not_mem hn.1, stOver_cons_self, hm, mergeBits_zero]
      · rw [stOver_cons_ne hk]
    · rw [List.filter_cons_of_pos (by simpa using hm)]
      by_cases hk : w.key = k
      · subst hk
        rw [stOver_cons_self, stOver_cons_self]
      · rw [stOver_cons_ne hk, stOver_cons_ne hk, ih hn.2]

/-! ## COMMIT -/

/-- Staged words with no bit of the mode, and none that waits for one. -/
def plainWords (b : Nat) (st : Staged) : Prop :=
  ∀ w ∈ st, w.mask &&& (waitBits b (w.key / 65536) ||| modeBits (w.key / 65536)) = 0

theorem and_eq_zero_of_or {m p q : Word} (h : m &&& (p ||| q) = 0) : m &&& p = 0 ∧ m &&& q = 0 := by
  have e : (m &&& (p ||| q)) = (m &&& p) ||| (m &&& q) := BitVec.and_or_distrib_left
  rw [e] at h
  exact BitVec.or_eq_zero_iff.1 h

theorem and_not_of_and_eq_zero {m p : Word} (h : m &&& p = 0) : m &&& ~~~p = m := by
  ext i hi
  have := congrArg (fun w : Word => w.getLsbD i) h
  simp [hi] at this ⊢
  cases hm : m[i] <;> simp_all

theorem cutWords_wait {b : Nat} {st : Staged} (h : plainWords b st) : cutWords st (waitBits b) = [] := by
  refine List.filter_eq_nil_iff.2 fun w hw => ?_
  obtain ⟨x, hx, rfl⟩ := List.mem_map.1 hw
  simpa using (and_eq_zero_of_or (h x hx)).1

theorem cutWords_rest {b : Nat} {st : Staged} (h : plainWords b st) :
    cutWords st (fun off => ~~~(waitBits b off ||| modeBits off)) = st.filter (fun w => w.mask != 0) := by
  refine congrArg _ ((List.map_congr_left fun w hw => ?_).trans (List.map_id st))
  simp only [and_not_of_and_eq_zero (h w hw), id]

/-- A field of the mode is not staged. -/
theorem stagedMode_none {s : State} {b : Nat} (h : plainWords b (ctl s b).staged) {f : Fld} (hf : f.off = F.CONTROL_EXPERT.off)
    (hb : modeBits F.CONTROL_EXPERT.off &&& fldMask f = fldMask f) : stagedMode s b f = none := by
  have hs : isStaged s b f 0 = false := by
    unfold isStaged
    cases hx : stFind (ctl s b).staged (stKey f.off 0) with
    | none => rfl
    | some x =>
      have hkey : x.key = stKey f.off 0 := by simpa using List.find?_some hx
      have hm := (and_eq_zero_of_or (h x (List.mem_of_find?_eq_some hx))).2
      rw [hkey, (stKey_div (by decide)).1, hf] at hm
      have : x.mask &&& fldMask f = 0 := by
        rw [← hb, ← BitVec.and_assoc, hm]
        exact BitVec.zero_and
      simp [this]
  simp [stagedMode, hs]

/-- COMMIT of words that wait for no mode change applies them at once. -/
theorem commitApply_plain {s : State} {b : Nat} (h : plainWords b (ctl s b).staged) (hu : ungrouped s b = s) :
    commitApply s b = applyWords (setCtl s b { ctl s b with staged := [] }) b ((ctl s b).staged.filter (fun w => w.mask != 0)) false := by
  have he : stagedMode s b F.CONTROL_EXPERT = none := stagedMode_none h rfl (by decide)
  have hf : stagedMode s b F.CONTROL_FREEZE = none := stagedMode_none h rfl (by decide)
  have hw : when' (!(ctl s b).staged.isEmpty) (fun s => ungrouped s b) s = s := by
    unfold when'
    split
    · exact hu
    · rfl
  unfold commitApply
  simp [he, hf, hw, cutWords_wait h, cutWords_rest h]

/-- A block whose values do nothing but stand in its registers. -/
theorem applyWords_plain {b : Nat} {k : Kind} (hk : kindOf b = some k) (hn : k ∉ [.loom, .apc, .hub, .beat, .timer, .reed]) (s : State)
    (st : Staged) (grp : Bool) : applyWords s b st grp = setWords s b st := by
  have hr : kindOf b ≠ some .reed := by
    rw [hk]
    rintro ⟨⟩
    simp at hn
  unfold applyWords applied
  simp only [hk]
  cases k <;> simp_all

theorem ungrouped_plain {b : Nat} {k : Kind} (hk : kindOf b = some k) (hn : k ∉ [.loom, .apc, .hub, .beat, .timer, .reed]) (s : State) :
    ungrouped s b = s := by
  unfold ungrouped
  rw [hk]
  cases k <;> simp_all

/-- A commit that applies plain words: the live registers take them, and none is staged. -/
theorem commitApply_regs {s : State} {b : Nat} {k : Kind} (hk : kindOf b = some k) (hkn : k ∉ [.loom, .apc, .hub, .beat, .timer, .reed])
    (hn : ((ctl s b).staged.map (·.key)).Nodup) (hw : ∀ w ∈ (ctl s b).staged, w.key < 4096 * 65536) (hp : plainWords b (ctl s b).staged) :
    (ctl (commitApply s b) b).staged = [] ∧ ∀ off idx, off < 4096 → idx < 65536 →
      regGet (commitApply s b) b off idx = stOver (ctl s b).staged (stKey off idx) (regGet s b off idx) := by
  rw [commitApply_plain hp (ungrouped_plain hk hkn s), applyWords_plain hk hkn]
  refine ⟨by rw [ctl_setWords, ctl_setCtl_self], fun off idx ho hi => ?_⟩
  rw [regGet_setWords ho hi b _ ((List.filter_sublist.map _).nodup hn) (fun w h => hw w (List.mem_of_mem_filter h)), stOver_filter _ hn]
  rfl

/-- What COMMIT of values that the block accepts leaves (R62). -/
theorem txnCommit_ok {s : State} {r : Requester} {b : Nat} (ho : rd s b F.TXN_TSTATE = tsOpen) (hr : rd s b F.TXN_OPENER = tagOf r)
    (hc : commitCheck s b false = true) : txnCommit s r b = setTxn (commitApply s b) b tsIdle resOk := by
  rw [txnCommit, txnGate_open ho hr]
  simp [hc]

/-- Values that the block rejects stay staged (R62). -/
theorem txnCommit_rejected {s : State} {r : Requester} {b : Nat} (ho : rd s b F.TXN_TSTATE = tsOpen)
    (hr : rd s b F.TXN_OPENER = tagOf r) (hc : commitCheck s b false = false) : txnCommit s r b = wr s b F.TXN_RESULT resInvalid := by
  rw [txnCommit, txnGate_open ho hr]
  simp [hc]

theorem txnOp_refused {s : State} {r : Requester} {b op code : Nat}
    (h : (op = 1 ∧ rd s b F.TXN_TSTATE ≠ tsIdle ∧ code = resAlreadyOpen) ∨
      ((op = 2 ∨ op = 3) ∧ ((rd s b F.TXN_TSTATE = tsIdle ∧ code = resNotOpen) ∨ (rd s b F.TXN_TSTATE = tsPending ∧ code = resInGroup) ∨
        (rd s b F.TXN_TSTATE = tsOpen ∧ rd s b F.TXN_OPENER ≠ tagOf r ∧ code = resNotOpener)))) :
    txnOp s r b op = txnRefused s b code ∧ op < 4 ∧ code < 256 := by
  obtain ⟨rfl, hts, rfl⟩ | ⟨hop, hgate⟩ := h
  · exact ⟨by simp [txnOp, txnBegin, hts], by decide, by decide⟩
  · have hg : txnGate s r b = some code := by
      obtain ⟨h, rfl⟩ | ⟨h, rfl⟩ | ⟨h, ho, rfl⟩ := hgate
      · simp [txnGate, h]
      · simp [txnGate, h]
      · simp [txnGate, h, ho]
    have hc : code < 256 := by
      obtain ⟨-, rfl⟩ | ⟨-, rfl⟩ | ⟨-, -, rfl⟩ := hgate <;> decide
    obtain rfl | rfl := hop
    · exact ⟨by simp [txnOp, txnCommit, hg], by decide, hc⟩
    · exact ⟨by simp [txnOp, txnRollback, hg], by decide, hc⟩

/-- What stands outside a list of registers before `windowClose` stands after it. -/
theorem regsBut_windowClose {s t : State} {b : Nat} {o : List Nat} (h : regsBut (windowClose s) t b o) : regsBut s t b o :=
  regsBut_trans (regsBut_of_regs b o (windowClose_regs s)) h

theorem txn_begin {s : State} {r : Requester} {b : Nat} (h : fieldPerformed s r b F.TXN_OP 1 = true) (hi : rd s b F.TXN_TSTATE = tsIdle) :
    ∃ t, exec (.begin r b) s = .next t ∧ rd t b F.TXN_TSTATE = tsOpen ∧ rd t b F.TXN_OPENER = tagOf r
      ∧ rd t b F.TXN_RESULT = resOk ∧ (ctl t b).staged = [] ∧ regsBut s t b [F.TXN_OP.off] ∧ okResp r 0 ∈ t.out := by
  obtain ⟨o, ht, hok⟩ := fieldWrite_txn h (by decide)
  obtain ⟨h1, h2, h3, h4, h5⟩ := txnBegin_idle (s := windowClose s) (b := b) r (by rw [rd_windowClose, hi])
  exact ⟨_, congrArg Host.Outcome.next ht, h1, h2, h3, h4, regsBut_windowClose h5, hok⟩

theorem txn_commit {s : State} {r : Requester} {b : Nat} (h : fieldPerformed s r b F.TXN_OP 2 = true) (ho : rd s b F.TXN_TSTATE = tsOpen)
    (hr : rd s b F.TXN_OPENER = tagOf r) (hc : commitCheck (windowClose s) b false = true) :
    ∃ t, exec (.commit r b) s = .next t ∧ rd t b F.TXN_TSTATE = tsIdle ∧ rd t b F.TXN_RESULT = resOk ∧ okResp r 0 ∈ t.out ∧
      (∀ k, kindOf b = some k → k ∉ [.loom, .apc, .hub, .beat, .timer, .reed] →
        ((ctl s b).staged.map (fun w => w.key)).Nodup →
        (∀ w ∈ (ctl s b).staged, w.key < 4096 * 65536 ∧ w.key / 65536 ≠ F.TXN_OP.off ∧
          w.mask &&& (waitBits b (w.key / 65536) ||| modeBits (w.key / 65536)) = 0) →
        (ctl t b).staged = [] ∧ ∀ off idx, off < 4096 → idx < 65536 → off ≠ F.TXN_OP.off →
          regGet t b off idx = stOver (ctl s b).staged (stKey off idx) (regGet s b off idx)) := by
  obtain ⟨o, ht, hok⟩ := fieldWrite_txn h (by decide)
  have hcommit : txnOp (windowClose s) r b 2 = setTxn (commitApply (windowClose s) b) b tsIdle resOk :=
    txnCommit_ok (by rw [rd_windowClose, ho]) (by rw [rd_windowClose, hr]) hc
  rw [hcommit] at ht
  obtain ⟨hts, hres⟩ := rd_setTxn (commitApply (windowClose s) b) b (ts := tsIdle) (res := resOk) (by decide) (by decide)
  refine ⟨_, congrArg Host.Outcome.next ht, hts, hres, hok, fun k hk hkn hn hw => ?_⟩
  have hst := ctl_windowClose s b
  obtain ⟨hstaged, hregs⟩ := commitApply_regs (s := windowClose s) hk hkn (by rwa [hst]) (by rw [hst]; exact fun w h => (hw w h).1)
    (by rw [hst]; exact fun w h => (hw w h).2.2)
  refine ⟨hstaged, fun off idx hoff hidx hne => ?_⟩
  simp only [hst, regGet_windowClose] at hregs
  exact (regsBut_setTxn (commitApply (windowClose s) b) b tsIdle resOk b off idx (by simpa using hne) hoff hidx).trans (hregs off idx hoff hidx)

theorem txn_rejected {s : State} {r : Requester} {b : Nat} (h : fieldPerformed s r b F.TXN_OP 2 = true) (ho : rd s b F.TXN_TSTATE = tsOpen)
    (hr : rd s b F.TXN_OPENER = tagOf r) (hc : commitCheck (windowClose s) b false = false) :
    ∃ t, exec (.commit r b) s = .next t ∧ rd t b F.TXN_TSTATE = tsOpen ∧ rd t b F.TXN_RESULT = resInvalid ∧ ctl t b = ctl s b
      ∧ regsBut s t b [F.TXN_OP.off] := by
  obtain ⟨o, ht, -⟩ := fieldWrite_txn h (by decide)
  have hcommit : txnOp (windowClose s) r b 2 = wr (windowClose s) b F.TXN_RESULT resInvalid :=
    txnCommit_rejected (by rw [rd_windowClose, ho]) (by rw [rd_windowClose, hr]) hc
  rw [hcommit] at ht
  refine ⟨_, congrArg Host.Outcome.next ht, ?_, ?_, ctl_windowClose s b, regsBut_windowClose (regsBut_wr _ b F.TXN_RESULT _ (by decide))⟩
  · exact (rd_wr_apart (by decide) _ b b _).trans ((rd_windowClose s b _).trans ho)
  · exact rd_wr_self _ b F.TXN_RESULT _ (by decide)

theorem txn_rollback {s : State} {r : Requester} {b : Nat} (h : fieldPerformed s r b F.TXN_OP 3 = true) (ho : rd s b F.TXN_TSTATE = tsOpen)
    (hr : rd s b F.TXN_OPENER = tagOf r) :
    ∃ t, exec (.rollback r b) s = .next t ∧ rd t b F.TXN_TSTATE = tsIdle ∧ rd t b F.TXN_RESULT = resOk
      ∧ rd t b F.TXNROLLBACK_COUNT = (rd s b F.TXNROLLBACK_COUNT + 1) % 2 ^ 32 ∧ (ctl t b).staged = []
      ∧ regsBut s t b [F.TXN_OP.off, F.TXNROLLBACK_COUNT.off] ∧ okResp r 0 ∈ t.out := by
  obtain ⟨o, ht, hok⟩ := fieldWrite_txn h (by decide)
  have hroll : txnOp (windowClose s) r b 3 = discardTxn (windowClose s) b resOk := by
    have := txnGate_open (s := windowClose s) (r := r) (b := b) (by rw [rd_windowClose, ho]) (by rw [rd_windowClose, hr])
    simp [txnOp, txnRollback, this]
  rw [hroll] at ht
  obtain ⟨h1, h2, h3, h4, h5⟩ := discardTxn_spec (windowClose s) b
  exact ⟨_, congrArg Host.Outcome.next ht, h1, h2, h3.trans (by rw [rd_windowClose]), h4, regsBut_windowClose h5, hok⟩

theorem txn_refused {s : State} {r : Requester} {b op code : Nat} (h : fieldPerformed s r b F.TXN_OP op = true)
    (hc : (op = 1 ∧ rd s b F.TXN_TSTATE ≠ tsIdle ∧ code = resAlreadyOpen) ∨
      ((op = 2 ∨ op = 3) ∧ ((rd s b F.TXN_TSTATE = tsIdle ∧ code = resNotOpen) ∨ (rd s b F.TXN_TSTATE = tsPending ∧ code = resInGroup) ∨
        (rd s b F.TXN_TSTATE = tsOpen ∧ rd s b F.TXN_OPENER ≠ tagOf r ∧ code = resNotOpener)))) :
    ∃ o, fieldWrite s r b F.TXN_OP op = { txnRefused (windowClose s) b code with out := o } ∧ code < 256 := by
  obtain ⟨hop, h4, h256⟩ := txnOp_refused (s := windowClose s) (r := r) (b := b) (op := op) (code := code) (by simpa using hc)
  obtain ⟨o, ht, -⟩ := fieldWrite_txn h h4
  exact ⟨o, by rw [ht, hop], h256⟩

/-- Settles O4: BEGIN, COMMIT and ROLLBACK, performed and refused. -/
theorem transactions : Obligations.Transactions := by
  refine ⟨fun r b s => ⟨txn_begin, txn_commit, txn_rejected, txn_rollback⟩, fun r b op code c s h hc => ?_⟩
  have hcmd : exec c s = .next (fieldWrite s r b F.TXN_OP op) := by
    obtain ⟨rfl, rfl, -⟩ | ⟨⟨rfl, rfl⟩ | ⟨rfl, rfl⟩, -⟩ := hc <;> rfl
  obtain ⟨o, ht, h256⟩ := txn_refused (code := code) h (hc.imp (fun ⟨h, _, h'⟩ => ⟨h, h'⟩) (And.imp_left (Or.imp And.left And.left)))
  obtain ⟨h1, h2, h3, h4, h5, h6⟩ := txnRefused_spec (windowClose s) b h256
  rw [rd_windowClose] at h2 h3 h4
  exact ⟨_, hcmd.trans (congrArg Host.Outcome.next ht), h1, h2, h3, h4, h5.trans (ctl_windowClose s b), regsBut_windowClose h6⟩

end Sys2Proof.Machine
end

section
/-!
PROOFS. Registers without a guard, and the vehicle interfaces (R76, R494 to R497): what a main-page write of a register does that any
requester may write in either mode, and O42.
-/

namespace Sys2Proof.Machine

/-! ## Registers without a guard -/

/-- The bits of a register with an access code. -/
def codeMask (k : Kind) (off : Nat) (a : Acc) : Word := maskWhere k off (fun x => x.acc == a)

/-- No field of a register is guarded, by a requester or by the mode. -/
def unguarded (k : Kind) (off : Nat) : Bool := (rowsAt k off).all (fun x => x.guard == .any)

theorem accMask_unguarded {k : Kind} {off : Nat} (h : unguarded k off = true) (s : State) (r : Requester) (e : Bool) (a : Acc) :
    accMask s k r e off a = codeMask k off a := by
  unfold accMask codeMask maskWhere
  refine List.foldl_ext _ _ _ fun m x hx => ?_
  have : x.guard = .any := by simpa using List.all_eq_true.1 h x hx
  simp [this, guardOk]

theorem expertRw_unguarded {k : Kind} {off : Nat} (h : unguarded k off = true) (s : State) (r : Requester) (b : Nat) :
    expertRw s k r b off = 0 := by
  have : policyMask k off = 0 := maskWhere_eq_zero fun x hx => by
    have : x.guard = .any := by simpa using List.all_eq_true.1 h x hx
    simp [this]
  unfold expertRw
  split_ifs
  · simp [this]
  · rfl

/-- A main-page write of a register without a guard. -/
theorem putMain_unguarded {b off : Nat} {k : Kind} (hk : kindOf b = some k) (hg : unguarded k off = true) (hr : reservedAt b off = false)
    (hc : off ≠ F.CONTROL_RESETREQ.off) (s : State) (r : Requester) (v : Word) :
    let i := selIndex s r b off
    putMain s r b off v = lineFollow s (writeDo (w1sWrite (w1cWrite (rwWrite (rwsWrite s r b off i (codeMask k off .rws) v) r b off i
      (codeMask k off .rw) v) b off i (codeMask k off .w1c) v) b off (codeMask k off .w1s) v) r b off v.toNat) b := by
  unfold putMain
  simp only [hk, hr, hc, false_and, if_false, expertRw_unguarded hg, accMask_unguarded hg, rwsMask, word_or_zero, word_and_not_zero]
  rfl

theorem rd_wr_off {f g : Fld} (hf : f.off < 4096) (hg : g.off < 4096) (h : g.off ≠ f.off) (s : State) (b b' v : Nat) :
    rd (wr s b f v) b' g = rd s b' g := by
  rw [rd_wr _ _ _ _ _ _ hf hg, if_neg fun e => h e.2]

/-! ## RTAIL -/

/-- Bits that a write takes. -/
theorem fldGet_mergeBits {f : Fld} {m : Word} (h : m &&& fldMask f = fldMask f) (w v : Word) : fldGet f (mergeBits m w v) = fldGet f v := by
  apply Nat.eq_of_testBit_eq
  intro i
  rw [fldGet_testBit, fldGet_testBit]
  by_cases hi : i < fldWidth f ∧ f.lo + i < 32
  · have hm : m.getLsbD (f.lo + i) = true := by
      have := congrArg (fun w : Word => w.getLsbD (f.lo + i)) h
      simpa [fldMask_bit, hi] using this
    rw [BitVec.getLsbD_eq_getElem hi.2] at hm
    simp [mergeBits, hm, hi.2]
  · by_cases hw : i < fldWidth f
    · have hl : 32 ≤ f.lo + i := by omega
      simp [BitVec.getLsbD_of_ge _ _ hl]
    · simp [hw]

theorem rtail_masks : codeMask .netio F.NETIO_RTAIL_TAIL.off .rws = 0 ∧ codeMask .netio F.NETIO_RTAIL_TAIL.off .w1c = 0 ∧
    codeMask .netio F.NETIO_RTAIL_TAIL.off .w1s = 0 ∧ codeMask .netio F.NETIO_RTAIL_TAIL.off .rw = 0xFFFF := by decide +kernel

theorem putMain_rtail (s : State) (r : Requester) (v : Word) : ∃ w o, putMain s r bNetio F.NETIO_RTAIL_TAIL.off v =
    { regSet s bNetio F.NETIO_RTAIL_TAIL.off (selIndex s r bNetio F.NETIO_RTAIL_TAIL.off) w with out := o } ∧
      fldGet F.NETIO_RTAIL_TAIL w = fldGet F.NETIO_RTAIL_TAIL v := by
  obtain ⟨hs, hc, h1, hw⟩ := rtail_masks
  rw [putMain_unguarded (k := .netio) rfl (by decide +kernel) rfl (by decide), hs, hc, h1, hw, rwsWrite_zero, w1cWrite_zero, w1sWrite_zero]
  obtain ⟨o, e⟩ := lineFollow_frame s (writeDo (rwWrite s r bNetio F.NETIO_RTAIL_TAIL.off
    (selIndex s r bNetio F.NETIO_RTAIL_TAIL.off) 0xFFFF v) r bNetio F.NETIO_RTAIL_TAIL.off v.toNat) bNetio
  exact ⟨_, o, e, fldGet_mergeBits (by decide) _ v⟩

theorem rdI_regSet_ne (s : State) (b : Nat) (f : Fld) {i j : Nat} (h : i ≠ j) (w : Word) : rdI (regSet s b f.off j w) b f i = rdI s b f i := by
  have : regKey b f.off i ≠ regKey b f.off j := by
    unfold regKey
    omega
  simp only [rdI, regGet_regSet_ne _ _ _ _ _ this]

theorem netio_rtail {r : Requester} {v : Word} {s : State} (h : performed s r bNetio F.NETIO_RTAIL_TAIL.off true v = true) :
    let j := selIndex s r bNetio F.NETIO_RTAIL_TAIL.off
    ∃ t, exec (.netioRtailWrite r v) s = .next t ∧ okResp r 0 ∈ t.out ∧
      rdI t bNetio F.NETIO_RTAIL_TAIL j = fldGet F.NETIO_RTAIL_TAIL v ∧
      ∀ i, i ≠ j → i < 65536 → rdI t bNetio F.NETIO_RTAIL_TAIL i = rdI s bNetio F.NETIO_RTAIL_TAIL i := by
  obtain ⟨w, o, e, hw⟩ := putMain_rtail (windowClose s) r v
  rw [selIndex_windowClose] at e
  refine ⟨_, congrArg Host.Outcome.next (busWrite_performed .main h), okResp_mem_send _ r 0, ?_, fun i hi _ => ?_⟩
  · rw [put, e]
    exact (congrArg (fldGet F.NETIO_RTAIL_TAIL) (regGet_regSet_self _ _ _ _ w)).trans hw
  · rw [put, e]
    exact (rdI_regSet_ne (windowClose s) bNetio F.NETIO_RTAIL_TAIL hi w).trans (rdI_congr (windowClose_regs s) ..)

/-! ## Ethernet

What memory answers is replaced by a variable before a match on it is opened: else the kernel would run the memory. -/

theorem ethPut_step (i : Nat) (err : Bool) (stamp : Option Nat) (n : Nat) (d : List Byte) (first : Bool) (s : State) :
    ethPut i err stamp n d first s = ethPut._f i err stamp n (Nat.brecOn.go n (ethPut._f i err stamp)).2 d first s := by
  delta ethPut
  exact congrFun (congrFun (congrFun (Nat.brecOn.eq n (ethPut._f i err stamp)) d) first) s

/-- A descriptor that takes the whole frame. -/
theorem ethPut_whole {i n : Nat} {err : Bool} {d x : List Byte} {s u : State} (hr : ringHas s i = true) (hd : d ≠ [])
    (hx : netRead s (ringAt s i 32) 32 = (some x, u)) (hb : bit (fieldAt x 10 2) 0 = true) (hl : d.length ≤ fieldAt x 8 2) :
    let w := netWrite u (fieldAt x 0 8) d
    ethPut i err none (n + 1) d true s =
      ringNext (descBack w.2 (ringAt s i 32) d.length (dSop + dEop + if err || !w.1 then dErr else 0) none) i := by
  have hsize : fieldAt x 8 2 ≠ 0 := by
    have := List.length_pos_of_ne_nil hd
    omega
  dsimp only
  rw [ethPut_step]
  generalize (Nat.brecOn.go (n + 1) (ethPut._f i err none)).2 = g
  change ite _ _ _ = _
  rw [if_neg (by simp [hr])]
  extract_lets +onlyGivenNames a r
  have hread : r = (some x, u) := hx
  clear_value r
  subst hread
  dsimp only
  have ha : a = ringAt s i 32 := rfl
  clear_value a
  rw [List.take_of_length_le hl, List.drop_of_length_le hl, if_neg (by simp [hb, hsize]), ha]
  simp

theorem ethReceive_empty {s : State} {m ring : Nat} (h : ringHas s (ringIdx ring m true false) = false) (d : List Byte) (err : Bool) :
    ethReceive s m ring d err = s := by
  change ite _ _ _ = _
  rw [if_pos (by simp [h])]

theorem ethReceive_whole {s u : State} {m ring : Nat} {d x : List Byte} {err : Bool} (hr : ringHas s (ringIdx ring m true false) = true)
    (hd : d ≠ []) (hp : isPtp d = false) (hx : netRead s (ringAt s (ringIdx ring m true false) 32) 32 = (some x, u))
    (hb : bit (fieldAt x 10 2) 0 = true) (hl : d.length ≤ fieldAt x 8 2) {w : Bool × State} (hw : netWrite u (fieldAt x 0 8) d = w) :
    let i := ringIdx ring m true false
    ethReceive s m ring d err = ringNext (descBack w.2 (ringAt s i 32) d.length
      (dSop + dEop + if (err || decide (d.length < 64) || decide (9216 < d.length)) || !w.1 then dErr else 0) none) i := by
  dsimp only
  change ite _ _ _ = _
  rw [if_neg (by simp [hd, hr]), if_neg (by simp [hp]), ethPut_whole hr hd hx hb hl, hw]

theorem ethTake_step (i n : Nat) (s : State) : ethTake i n s = ethTake._f i n (Nat.brecOn.go n (ethTake._f i)).2 s := by
  delta ethTake
  exact congrFun (Nat.brecOn.eq n (ethTake._f i)) s

theorem ethTake_empty {i : Nat} {s : State} (h : ringHas s i = false) (n : Nat) : ethTake i n s = ([], [], s) := by
  rw [ethTake_step]
  cases n with
  | zero => rfl
  | succ n =>
    change ite _ _ _ = _
    rw [if_pos (by simp [h])]

theorem ethSent_empty {s : State} {m ring : Nat} (h : ringHas s (ringIdx ring m false false) = false) (err : Bool) :
    ethSent s m ring err = s := by
  have e := ethTake_empty h (rdI s bNetio F.NETIO_RSIZE_ENTRIES (ringIdx ring m false false))
  unfold ethSent
  dsimp only
  rw [e]
  rfl

/-- A frame in one descriptor. -/
theorem ethTake_last {i : Nat} {s u : State} {x : List Byte} (hr : ringHas s i = true) (hx : netRead s (ringAt s i 32) 32 = (some x, u))
    (h0 : bit (fieldAt x 10 2) 0 = true) (h2 : bit (fieldAt x 10 2) 2 = true) :
    let q := netRead u (fieldAt x 0 8) (fieldAt x 8 2)
    ethTake i (rdI s bNetio F.NETIO_RSIZE_ENTRIES i) s =
      ([(ringAt s i 32, fieldAt x 8 2, fieldAt x 10 2, q.1.isSome)], q.1.getD [], ringNext q.2 i) := by
  have hn : rdI s bNetio F.NETIO_RSIZE_ENTRIES i ≠ 0 := by
    simp only [ringHas, Bool.and_eq_true, bne_iff_ne] at hr
    exact hr.1.2
  obtain ⟨n, hn⟩ := Nat.exists_eq_add_one_of_ne_zero hn
  dsimp only
  rw [hn, ethTake_step]
  generalize (Nat.brecOn.go (n + 1) (ethTake._f i)).2 = g
  change ite _ _ _ = _
  rw [if_neg (by simp [hr])]
  extract_lets +onlyGivenNames a r
  have hread : r = (some x, u) := hx
  clear_value r
  subst hread
  dsimp only
  generalize netRead u _ _ = q
  rw [if_neg (by simp [h0]), if_pos h2]

theorem forEach_zipIdx_one {α : Type} (a : α) (f : α × Nat → State → State) (s : State) : forEach [a].zipIdx f s = f (a, 0) s := rfl

/-- The end of a frame in one descriptor: it leaves where its buffer could be read. -/
theorem ethSent_last {s u : State} {m ring : Nat} {x : List Byte} {err : Bool} (hr : ringHas s (ringIdx ring m false false) = true)
    (hx : netRead s (ringAt s (ringIdx ring m false false) 32) 32 = (some x, u)) (h0 : bit (fieldAt x 10 2) 0 = true)
    (h2 : bit (fieldAt x 10 2) 2 = true) (h3 : bit (fieldAt x 10 2) 3 = false) {q : Option (List Byte) × State}
    (hq : netRead u (fieldAt x 0 8) (fieldAt x 8 2) = q) :
    let i := ringIdx ring m false false
    (∀ y, q.1 = some y → isPtp y = false → ethSent s m ring err =
      descBack (send (ringNext q.2 i) .eth m (y.map (·.toNat))) (ringAt s i 32) (fieldAt x 8 2)
        (fieldAt x 10 2 % 16 / 2 * 2 + (if err then dErr else 0)) none) ∧
    (q.1 = none → ethSent s m ring err =
      descBack (ringNext q.2 i) (ringAt s i 32) (fieldAt x 8 2) (fieldAt x 10 2 % 16 / 2 * 2 + dErr) none) := by
  have ht := ethTake_last hr hx h0 h2
  dsimp only at ht ⊢
  rw [hq] at ht
  unfold ethSent
  dsimp only
  rw [ht, forEach_zipIdx_one]
  refine ⟨fun y hy hp => ?_, fun hq => ?_⟩
  · simp [hy, hp, h3]
  · simp [hq]

/-! ## CAN -/

theorem canReceive_empty {s : State} {m ring : Nat} (h : ringHas s (ringIdx ring m true true) = false) (idf dlc : Nat) (d : List Byte) :
    canReceive s m ring idf dlc d = s := by
  change ite _ _ _ = _
  rw [if_pos (by simp [h])]

theorem canReceive_written {s : State} {m ring : Nat} {idf dlc : Nat} {d : List Byte} (hr : ringHas s (ringIdx ring m true true) = true) :
    let i := ringIdx ring m true true
    let l := ltLagged s
    let w := netWrite l.2 (ringAt s i 80) (leBytes 4 idf ++ leBytes 4 dlc ++ leBytes 8 l.1 ++ padTo 64 d)
    w.1 = true → canReceive s m ring idf dlc d = ringNext w.2 i := by
  dsimp only
  intro hw
  change ite _ _ _ = _
  rw [if_neg (by simp [hr]), if_pos hw]

theorem canSent_empty {s : State} {m ring : Nat} (h : ringHas s (ringIdx ring m false true) = false) : canSent s m ring = s := by
  change ite _ _ _ = _
  rw [if_pos (by simp [h])]

theorem canSent_read {s u : State} {m ring : Nat} {x : List Byte} (hr : ringHas s (ringIdx ring m false true) = true)
    (hx : netRead s (ringAt s (ringIdx ring m false true) 80) 80 = (some x, u)) :
    let i := ringIdx ring m false true
    let l := ltLagged (send u .can m ((x.take 8 ++ x.drop 16).map (·.toNat)))
    canSent s m ring = ringNext (netWrite l.2 (ringAt s i 80 + 8) (leBytes 8 l.1)).2 i := by
  dsimp only
  change ite _ _ _ = _
  rw [if_neg (by simp [hr])]
  rw [hx]

/-! ## GPIO -/

/-- The bit of a pin in a register of the GPIO. -/
def pinFld (f : Fld) (pin : Fin 32) : Fld := ⟨f.off, pin, pin⟩

theorem rd_wr_pinFld {f g : Fld} (hf : f.off < 4096) (hg : g.off < 4096) (h : g.off ≠ f.off) (s : State) (pin : Fin 32) (v : Nat) :
    rd (wr s bNetio (pinFld f pin) v) bNetio g = rd s bNetio g := rd_wr_off (f := pinFld f pin) hf hg h s bNetio bNetio v

theorem rd_pinFld_self (s : State) (f : Fld) (pin : Fin 32) {v : Nat} (h : v < 2) :
    rd (wr s bNetio (pinFld f pin) v) bNetio (pinFld f pin) = v := by
  have hw : fldWidth (pinFld f pin) = 1 := by simp [fldWidth, pinFld]
  have hp : (pinFld f pin).lo = pin := rfl
  rw [rd_wr_self _ _ _ _ (by omega), hw]
  omega

theorem gpioEdge_unpowered {s : State} (h : powered s bNetio = false) (pin : Nat) (rising : Bool) : gpioEdge s pin rising = s := by
  simp [gpioEdge, h]

/-- An edge in the direction that does not count moves the level alone. -/
theorem gpioEdge_other {s : State} {pin : Fin 32} {rising : Bool} (hp : powered s bNetio = true)
    (h : bit (rd s bNetio F.NETIO_GPEDGE_RISE) pin ≠ rising) :
    gpioEdge s pin rising = wr s bNetio (pinFld F.NETIO_GPIN_IN pin) rising.toNat := by
  have hr := rd_wr_pinFld (f := F.NETIO_GPIN_IN) (g := F.NETIO_GPEDGE_RISE) (by decide) (by decide) (by decide) s pin rising.toNat
  unfold gpioEdge
  rw [if_neg (by simp [hp])]
  exact if_neg (hr ▸ h)

/-- An edge that counts sets the event, which asserts the line while it is enabled. -/
theorem gpioEdge_event {s : State} {pin : Fin 32} {rising : Bool} (hp : powered s bNetio = true)
    (h : bit (rd s bNetio F.NETIO_GPEDGE_RISE) pin = rising) :
    let t := wr (wr s bNetio (pinFld F.NETIO_GPIN_IN pin) rising.toNat) bNetio (pinFld F.NETIO_GPEVENT_EVENT pin) 1
    gpioEdge s pin rising = if bit (rd s bNetio F.NETIO_GPIRQEN_EN) pin then send t .apc bNetio [1] else t := by
  intro t
  have hr := rd_wr_pinFld (f := F.NETIO_GPIN_IN) (g := F.NETIO_GPEDGE_RISE) (by decide) (by decide) (by decide) s pin rising.toNat
  have hi : rd t bNetio F.NETIO_GPIRQEN_EN = rd s bNetio F.NETIO_GPIRQEN_EN :=
    (rd_wr_pinFld (f := F.NETIO_GPEVENT_EVENT) (by decide) (by decide) (by decide) _ pin 1).trans
      (rd_wr_pinFld (f := F.NETIO_GPIN_IN) (by decide) (by decide) (by decide) s pin _)
  rw [← hi]
  unfold gpioEdge
  rw [if_neg (by simp [hp])]
  exact if_pos (hr ▸ h)

theorem ite_send_regs (c : Prop) [Decidable c] (t : State) (k : MsgKind) (b : Nat) (a : List Nat) :
    (if c then send t k b a else t).regs = t.regs := by
  split <;> rfl

/-- The GPIO part of O42. -/
theorem gpio_edge (pin : Fin 32) (rising : Bool) {s : State} (hp : powered s bNetio = true) :
    ∃ t, exec (.gpioEdge pin rising) s = .next t ∧ rd t bNetio (pinFld F.NETIO_GPIN_IN pin) = rising.toNat ∧
      (bit (rd s bNetio F.NETIO_GPEDGE_RISE) pin = rising → rd t bNetio (pinFld F.NETIO_GPEVENT_EVENT pin) = 1 ∧
        (bit (rd s bNetio F.NETIO_GPIRQEN_EN) pin = true → ⟨.apc, bNetio, [1]⟩ ∈ t.out) ∧
        (bit (rd s bNetio F.NETIO_GPIRQEN_EN) pin = false → t.out = s.out)) ∧
      (bit (rd s bNetio F.NETIO_GPEDGE_RISE) pin ≠ rising → t.out = s.out ∧ regsBut s t bNetio [F.NETIO_GPIN_IN.off]) := by
  refine ⟨gpioEdge s pin rising, rfl, ?_⟩
  by_cases h : bit (rd s bNetio F.NETIO_GPEDGE_RISE) pin = rising
  · rw [gpioEdge_event hp h]
    dsimp only
    rw [rd_congr (ite_send_regs _ _ _ _ _), rd_congr (ite_send_regs _ _ _ _ _)]
    refine ⟨?_, fun _ => ⟨rd_pinFld_self _ F.NETIO_GPEVENT_EVENT pin (by decide), fun he => ?_, fun he => ?_⟩, fun hn => absurd h hn⟩
    · exact (rd_wr_pinFld (f := F.NETIO_GPEVENT_EVENT) (g := pinFld F.NETIO_GPIN_IN pin) (by decide) (by decide : F.NETIO_GPIN_IN.off < 4096)
        (by decide : F.NETIO_GPIN_IN.off ≠ F.NETIO_GPEVENT_EVENT.off) _ pin 1).trans
          (rd_pinFld_self s F.NETIO_GPIN_IN pin (Bool.toNat_lt rising))
    · rw [if_pos he]
      exact List.mem_append_right _ (by simp [outOf, selvOf])
    · rw [if_neg (by simp [he])]
      rfl
  · rw [gpioEdge_other hp h]
    exact ⟨rd_pinFld_self s F.NETIO_GPIN_IN pin (Bool.toNat_lt rising), fun hn => absurd hn h, fun _ =>
      ⟨rfl, regsBut_wr s bNetio (pinFld F.NETIO_GPIN_IN pin) _ (by decide : F.NETIO_GPIN_IN.off < 4096)⟩⟩

/-! ## O42 -/

theorem pair_of_fst {α β : Type} {p : α × β} {a : α} (h : p.1 = a) : p = (a, p.2) := by
  obtain ⟨_, _⟩ := p
  exact congrArg (·, _) h

/-- Settles O42: rings entry by entry, and GPIO. -/
theorem vehicleInterfaces : Obligations.VehicleInterfaces := by
  intro r m ring d v idf dlc pin rising err s b rx tx crx ctx desc j bad
  refine ⟨netio_rtail, fun h => ?_, fun h hd hp x hx hb hl => ?_, fun h => ?_, fun h x hx h0 h2 h3 => ?_,
    fun h => ?_, fun h => ⟨(ltLagged_bounds s).1, (ltLagged_bounds s).2, fun hw => ?_⟩, fun h => ?_, fun h x hx => ?_,
    fun h => gpio_edge pin rising h, fun h => ?_⟩
  · exact congrArg Host.Outcome.next (ethReceive_empty h d err)
  · generalize hdesc : desc rx = p at hx ⊢
    intro w
    have whole := ethReceive_whole (err := err) (w := w) h hd hp (hdesc.trans (pair_of_fst hx)) hb hl rfl
    clear_value w
    have hb : (err || decide (d.length < 64) || decide (9216 < d.length)) = true ↔ bad := by simp [bad, or_assoc]
    refine ⟨fun hbad hw => congrArg Host.Outcome.next (whole.trans ?_), fun hbad => congrArg Host.Outcome.next (whole.trans ?_)⟩
    · rw [if_neg (by simp [hw, Bool.eq_false_iff.2 (mt hb.1 hbad)]), Nat.add_zero]
    · rw [if_pos (by rw [hb.2 hbad, Bool.true_or])]
  · exact congrArg Host.Outcome.next (ethSent_empty h err)
  · generalize hdesc : desc tx = p at hx ⊢
    intro q
    obtain ⟨hy, hn⟩ := ethSent_last (err := err) (q := q) h (hdesc.trans (pair_of_fst hx)) h0 h2 h3 rfl
    clear_value q
    exact ⟨fun y h1 h2 => congrArg Host.Outcome.next (hy y h1 h2), fun h1 => congrArg Host.Outcome.next (hn h1)⟩
  · exact congrArg Host.Outcome.next (canReceive_empty h _ _ d)
  · exact congrArg Host.Outcome.next (canReceive_written h hw)
  · exact congrArg Host.Outcome.next (canSent_empty h)
  · exact congrArg Host.Outcome.next (canSent_read h (pair_of_fst hx))
  · exact congrArg Host.Outcome.next (gpioEdge_unpowered h pin rising)

end Sys2Proof.Machine
end

section
/-!
PROOFS. What a block reset does to the OWNER registers (R48): the memory, the cluster's space, the shuttles and the group slots write none of
them.
-/

namespace Sys2Proof.Machine

/-- From `s` to `t` no block's OWNER changes. -/
def OwnerKept (s t : State) : Prop := ∀ b, rd t b F.OWNER_PART = rd s b F.OWNER_PART

namespace OwnerKept

variable {s t u : State}

theorem refl (s : State) : OwnerKept s s := fun _ => rfl

theorem trans (h : OwnerKept s t) (k : OwnerKept t u) : OwnerKept s u := fun b => (k b).trans (h b)

theorem of_regs (h : t.regs = s.regs) : OwnerKept s t := fun b => rd_congr h b _

theorem wrI {f : Fld} (h : OwnerKept s t) (hf : fldsApart f F.OWNER_PART = true) (b v : Nat) {i : Nat} (hi : i < 65536) :
    OwnerKept s (wrI t b f i v) := fun b' => (rd_wrI_apart hf t b b' v hi).trans (h b')

theorem wr {f : Fld} (h : OwnerKept s t) (hf : fldsApart f F.OWNER_PART = true) (b v : Nat) : OwnerKept s (wr t b f v) :=
  h.wrI hf b v (by decide)

theorem inc {f : Fld} (h : OwnerKept s t) (hf : fldsApart f F.OWNER_PART = true) (b : Nat) : OwnerKept s (inc t b f) := h.wr hf b _

theorem wrPair {f g : Fld} (h : OwnerKept s t) (hf : fldsApart f F.OWNER_PART = true) (hg : fldsApart g F.OWNER_PART = true) (b v : Nat) :
    OwnerKept s (wrPair t b f g v) := (h.wr hf b _).wr hg b _

theorem latchFault (h : OwnerKept s t) (b code : Nat) : OwnerKept s (latchFault t b code) :=
  h.trans fun b' => rd_latchFault_apart (by decide) t b code b'

theorem regs (h : OwnerKept s t) (hr : u.regs = t.regs) : OwnerKept s u := h.trans (of_regs hr)

theorem ite {c : Prop} [Decidable c] (ht : OwnerKept s t) (hu : OwnerKept s u) : OwnerKept s (if c then t else u) := by
  split
  · exact ht
  · exact hu

theorem ite_snd {β : Type} {c : Prop} [Decidable c] {p q : β × State} (hp : OwnerKept s p.2) (hq : OwnerKept s q.2) :
    OwnerKept s (if c then p else q).2 := by
  split
  · exact hp
  · exact hq

/-- What every round of a fold keeps, the fold keeps: `π` gives the state that the fold carries. -/
theorem foldl {α γ : Type} (π : γ → State) {f : γ → α → γ} (hf : ∀ p a, OwnerKept (π p) (π (f p a))) (xs : List α) {p : γ}
    (h : OwnerKept s (π p)) : OwnerKept s (π (xs.foldl f p)) := by
  induction xs generalizing p with
  | nil => exact h
  | cons a xs ih => exact ih (h.trans (hf p a))

theorem forEach {α : Type} {f : α → State → State} (hf : ∀ a t, OwnerKept t (f a t)) (xs : List α) (h : OwnerKept s t) :
    OwnerKept s (forEach xs f t) := h.foldl (fun s => s) (fun t a => hf a t) xs

end OwnerKept

/-! ## HBM -/

theorem ownerKept_securityEvent (s : State) (b code : Nat) : OwnerKept s (securityEvent s b code) :=
  ((OwnerKept.refl s).inc (f := F.CUSTODY_SECEVENTS_COUNT) (by decide) bCustody).regs rfl

theorem ownerKept_lineUe (s : State) (a : Nat) : OwnerKept s (lineUe s a) :=
  ((((OwnerKept.of_regs rfl : OwnerKept s (poisonSet s a)).inc (by decide) _).wrPair (by decide) (by decide) _ _)).latchFault _ _

theorem ownerKept_lineInteg (s : State) (a : Nat) : OwnerKept s (lineInteg s a) :=
  ((((OwnerKept.of_regs rfl : OwnerKept s (poisonSet s a)).inc (by decide) _).wrPair (by decide) (by decide) _ _).latchFault _ _).trans
    (ownerKept_securityEvent _ _ _)

theorem ownerKept_lineCe (s : State) (a : Nat) (scrub : Bool) : OwnerKept s (lineCe s a scrub) :=
  ((OwnerKept.refl s).inc (by cases scrub <;> decide) _).wrPair (by decide) (by decide) _ _

theorem ownerKept_lineTagged (s : State) (a : Nat) (bad : Bool) : OwnerKept s (lineTagged s a bad).2 := by
  unfold lineTagged
  split
  · exact ownerKept_lineInteg s a
  · exact .refl s

theorem ownerKept_tagTouch (s : State) (a : Nat) : OwnerKept s (tagTouch s a) := by
  unfold tagTouch
  exact (OwnerKept.of_regs (s := s) rfl).inc (by split <;> decide) _

theorem ownerKept_setMark (s : State) (a : Nat) (x : LineRead) : OwnerKept s (setMark s a x) := .of_regs rfl

theorem ownerKept_lineRead (s : State) (a : Nat) (scrub : Bool) : OwnerKept s (lineRead s a scrub).2 := by
  have ht : OwnerKept s (tagTouch (if scrub then s else inc s (hbmBlk a) F.HBMC_READS_COUNT) a) :=
    (OwnerKept.ite (.refl s) ((OwnerKept.refl s).inc (by decide) _)).trans (ownerKept_tagTouch _ _)
  unfold lineRead
  split
  · exact .refl s
  · generalize tagTouch (if scrub then s else inc s (hbmBlk a) F.HBMC_READS_COUNT) a = t at ht ⊢
    dsimp only
    split
    · exact ht.trans (ownerKept_lineUe t a)
    · exact ht.trans (ownerKept_lineTagged t a true)
    · exact (ht.trans ((ownerKept_lineCe t a scrub).trans (ownerKept_setMark _ a .clean))).trans (ownerKept_lineTagged _ a false)
    · exact (ht.trans ((ownerKept_lineCe t a scrub).trans (ownerKept_setMark _ a .badTag))).trans (ownerKept_lineTagged _ a true)
    · exact ht.trans (ownerKept_lineTagged t a false)

theorem ownerKept_lineStore (s : State) (i a : Nat) (d : List Byte) : OwnerKept s (lineStore s i a d) :=
  (OwnerKept.of_regs (s := s) rfl).inc (f := F.HBMC_WRITES_COUNT) (by decide) _

theorem ownerKept_lineWrite (s : State) (a : Nat) (d : List Byte) : OwnerKept s (lineWrite s a d).2 := by
  unfold lineWrite
  split
  · exact .refl s
  · next i _ =>
    split
    · exact ((OwnerKept.of_regs rfl).trans (ownerKept_lineStore _ i a d)).trans (ownerKept_tagTouch _ a)
    · have hr := ownerKept_lineRead s a false
      generalize lineRead s a false = r at hr ⊢
      dsimp only
      split
      · exact hr.trans (ownerKept_lineStore r.2 i a d)
      · exact hr

theorem ownerKept_hbmRefused (s : State) (a st : Nat) : OwnerKept s (hbmRefused s a st) :=
  .ite ((OwnerKept.refl s).inc (by decide) _) (.refl s)

theorem ownerKept_hbmWrite (s : State) (tag a : Nat) (d : List Byte) : OwnerKept s (hbmWrite s tag a d).2 := by
  unfold hbmWrite
  dsimp only
  split
  · exact ownerKept_hbmRefused s a _
  · refine (OwnerKept.refl s).foldl (fun p : Nat × State => p.2) (fun p x => ?_) _
    split
    · exact .refl p.2
    · exact ownerKept_lineWrite p.2 _ _

theorem ownerKept_hbmRead (s : State) (tag a n : Nat) : OwnerKept s (hbmRead s tag a n).2.2 := by
  unfold hbmRead
  dsimp only
  split
  · exact ownerKept_hbmRefused s a _
  · refine (OwnerKept.refl s).foldl (fun p : Nat × State => p.2) (fun p x => ?_) _
    split
    · exact .refl p.2
    · exact ownerKept_lineRead p.2 _ _

theorem ownerKept_hbmTurn (s : State) (req a : Nat) : OwnerKept s (hbmTurn s req a) := by
  unfold hbmTurn
  exact .ite (.of_regs rfl) (.refl s)

theorem ownerKept_hbmReadRun (s : State) (req tag a n : Nat) : OwnerKept s (hbmReadRun s req tag a n).2.2.2 := by
  refine (OwnerKept.refl s).foldl (fun p : Nat × Nat × List Byte × State => p.2.2.2) (fun p x => ?_) _
  split
  · exact .refl p.2.2.2
  · have hr := (ownerKept_hbmTurn p.2.2.2 req x.1).trans (ownerKept_hbmRead _ tag x.1 x.2)
    generalize hbmRead (hbmTurn p.2.2.2 req x.1) tag x.1 x.2 = r at hr ⊢
    dsimp only
    split <;> exact hr

theorem ownerKept_hbmWriteRun (s : State) (req tag a : Nat) (d : List Byte) : OwnerKept s (hbmWriteRun s req tag a d).2.2 := by
  refine (OwnerKept.refl s).foldl (fun p : Nat × Nat × State => p.2.2) (fun p x => ?_) _
  split
  · exact .refl p.2.2
  · have hr := (ownerKept_hbmTurn p.2.2 req x.1).trans (ownerKept_hbmWrite _ tag x.1 ((d.drop (x.1 - a)).take x.2))
    generalize hbmWrite (hbmTurn p.2.2 req x.1) tag x.1 ((d.drop (x.1 - a)).take x.2) = r at hr ⊢
    dsimp only
    split <;> exact hr

/-! ## The cluster's space: but for the debug module's halt line and what the IOMMU writes to HBM, it is state of the cluster -/

@[simp] theorem setIo_regs (s : State) (o : Nat) (w : Word) : (setIo s o w).regs = s.regs := rfl
@[simp] theorem setDm_regs (s : State) (n : Nat) (w : Word) : (setDm s n w).regs = s.regs := rfl
@[simp] theorem setDmArg_regs (s : State) (k size v : Nat) : (setDmArg s k size v).regs = s.regs := by
  unfold setDmArg
  dsimp only
  split <;> rfl
@[simp] theorem dmErr_regs (s : State) (e : Nat) : (dmErr s e).regs = s.regs := rfl
@[simp] theorem modHart_regs (s : State) (h : Nat) (f : Hart → Hart) : (modHart s h f).regs = s.regs := rfl
@[simp] theorem setCsr_regs (s : State) (h n v : Nat) : (setCsr s h n v).regs = s.regs := rfl
@[simp] theorem setApReg_regs (s : State) (d o : Nat) (w : Word) : (setApReg s d o w).regs = s.regs := rfl
@[simp] theorem l2Put_regs (s : State) (a : Nat) (bs : List Byte) : (l2Put s a bs).regs = s.regs := rfl
@[simp] theorem l2Drop_regs (s : State) (a n : Nat) : (l2Drop s a n).regs = s.regs := rfl

@[simp] theorem setFileReg_regs (s : State) (h f n v : Nat) : (setFileReg s h f n v).regs = s.regs := by
  unfold setFileReg
  dsimp only
  split_ifs <;> rfl

@[simp] theorem fileClaim_regs (s : State) (h f : Nat) : (fileClaim s h f).regs = s.regs := by
  unfold fileClaim
  dsimp only
  split <;> rfl

theorem ownerKept_csrPut (s : State) (h n v : Nat) : OwnerKept s (csrPut s h n v).2 := by
  unfold csrPut
  dsimp only
  repeat' with_reducible refine OwnerKept.ite_snd ?_ ?_
  all_goals exact .of_regs (by simp)

theorem ownerKept_setHartReg (s : State) (h n v : Nat) : OwnerKept s (setHartReg s h n v).2 := by
  unfold setHartReg
  refine .ite_snd (ownerKept_csrPut s h n v) (.ite_snd (.ite (.refl s) (.of_regs rfl)) (.ite_snd (.of_regs rfl) (.refl s)))

@[simp] theorem setEip_regs (s : State) (file id : Nat) : (setEip s file id).regs = s.regs := by
  unfold setEip
  split <;> rfl

@[simp] theorem fileWrite_regs (s : State) (file o : Nat) (w : Word) : (fileWrite s file o w).regs = s.regs := by
  unfold fileWrite
  split_ifs <;> simp

@[simp] theorem msiWrite_regs (s : State) (p id : Nat) : (msiWrite s p id).regs = s.regs := by
  unfold msiWrite
  split <;> simp

@[simp] theorem aplicForward_regs (s : State) (d i : Nat) : (aplicForward s d i).regs = s.regs := by
  unfold aplicForward
  split <;> simp

@[simp] theorem aplicFlush_regs (s : State) (d : Nat) : (aplicFlush s d).regs = s.regs :=
  forEach_keeps (·.regs) (f := fun x s => aplicForward s d (x % 1024)) (fun _ _ => aplicForward_regs _ _ _) _ s

@[simp] theorem pendWrite_regs (s : State) (d i : Nat) (on : Bool) : (pendWrite s d i on).regs = s.regs := by
  unfold pendWrite
  dsimp only
  split <;> simp

@[simp] theorem enabWrite_regs (s : State) (d i : Nat) (on : Bool) : (enabWrite s d i on).regs = s.regs := by
  unfold enabWrite
  split <;> simp

@[simp] theorem sourceWrite_regs (s : State) (d i : Nat) (w : Word) : (sourceWrite s d i w).regs = s.regs := by
  unfold sourceWrite
  dsimp only
  split_ifs <;> simp

theorem eachBit_regs (k : Nat) (w : Word) {f : Nat → State → State} (hf : ∀ i s, (f i s).regs = s.regs) (s : State) :
    (eachBit k w f s).regs = s.regs := forEach_keeps (·.regs) (f := fun j s => f (32 * k + j) s) (fun _ _ => hf _ _) _ s

theorem ownerKept_aplicWrite (s : State) (d o : Nat) (w : Word) : OwnerKept s (aplicWrite s d o w) := by
  unfold aplicWrite
  dsimp only
  repeat' with_reducible refine OwnerKept.ite ?_ ?_
  all_goals exact .of_regs (by simp [eachBit_regs])

@[simp] theorem mtWrite_regs (s : State) (o : Nat) (w : Word) : (mtWrite s o w).regs = s.regs := by
  unfold mtWrite
  split <;> rfl

theorem ownerKept_dmHalt (s : State) (h : Nat) (on : Bool) : OwnerKept s (dmHalt s h on) :=
  (OwnerKept.of_regs rfl).wr (f := F.TIMER_FROZEN_HALT) (by decide) bTimer _

theorem ownerKept_dmCommand (s : State) (w : Nat) : OwnerKept s (dmCommand' s w) := by
  unfold dmCommand'
  dsimp only
  refine .ite (.refl s) (.ite (.of_regs rfl) (.ite (.ite (.refl s) (.ite (.of_regs rfl) (.ite (.ite ?_ (.of_regs rfl)) ?_)))
    (.ite (.ite (.of_regs rfl) (.ite (.of_regs rfl) ?_)) (.of_regs rfl))))
  · exact ownerKept_setHartReg s _ _ _
  · split
    · exact .of_regs (by simp)
    · exact .of_regs rfl
  · have hread := ownerKept_hbmReadRun s bApc 0x1F (dmArg s 1) (2 ^ bits w 22 20)
    generalize hbmReadRun s bApc 0x1F (dmArg s 1) (2 ^ bits w 22 20) = r at hread ⊢
    have hdata : OwnerKept s (if r.1 = hOk then setDmArg r.2.2.2 0 (bits w 22 20) (leNat (l2Over s (dmArg s 1) r.2.2.1)) else dmErr r.2.2.2 5) :=
      .ite (hread.regs (by simp)) (hread.regs (by simp))
    have hmove : OwnerKept s (if bit w 16 then l2Put s (dmArg s 1) (leBytes (2 ^ bits w 22 20) (dmArg s 0)) else
        if r.1 = hOk then setDmArg r.2.2.2 0 (bits w 22 20) (leNat (l2Over s (dmArg s 1) r.2.2.1)) else dmErr r.2.2.2 5) :=
      .ite (.of_regs rfl) hdata
    exact .ite (hmove.regs (by simp)) hmove

theorem ownerKept_dmWrite (s : State) (n : Nat) (w : Word) : OwnerKept s (dmWrite s n w) := by
  have hart : ∀ c h, OwnerKept s (if c = true then modHart (setDm s dmControl (w &&& 0x03FFFFC1)) h (fun _ => Hart.reset)
      else setDm s dmControl (w &&& 0x03FFFFC1)) := fun _ _ => .ite (.of_regs rfl) (.of_regs rfl)
  unfold dmWrite
  dsimp only
  refine .ite (.ite (.of_regs rfl) (.ite (.of_regs rfl) (.ite ?_ (.ite ?_ (hart _ _))))) (.ite (.refl s) (.ite (.of_regs rfl)
    (.ite (.of_regs rfl) (.ite (ownerKept_dmCommand s _) (.refl s)))))
  · exact (hart _ _).trans (ownerKept_dmHalt _ _ _)
  · exact ((hart _ _).trans (ownerKept_dmHalt _ _ _)).regs (setDm_regs _ _ _)

theorem ownerKept_ioStop (s : State) (b : Word) : OwnerKept s (ioStop s b) := by
  unfold ioStop
  exact .ite (.of_regs rfl) (.of_regs rfl)

theorem ownerKept_ioStore (s : State) (a : Nat) (d : List Byte) : OwnerKept s (ioStore s a d) := ownerKept_hbmWriteRun s _ _ a d

theorem ownerKept_faultRecord (s : State) (cause tval2 did va : Nat) (write : Bool) :
    OwnerKept s (faultRecord s cause tval2 did va write) := by
  have note : ∀ t : State, OwnerKept s t →
      OwnerKept s (if bit (ioReg t ioFqcsr).toNat 1 then setIo t ioIpsr (ioReg t ioIpsr ||| 2) else t) :=
    fun t h => .ite (h.regs rfl) h
  unfold faultRecord
  dsimp only
  refine .ite (.refl s) (.ite (note _ (.of_regs rfl)) (.ite (note _ (.of_regs rfl)) (note _ ?_)))
  exact (ownerKept_ioStore s _ _).regs (setIo_regs _ _ _)

/-- A match on what memory answers is opened with the answer as a variable, as in `ethTake_last`. -/
theorem ownerKept_translate (s : State) (did va : Nat) (write : Bool) : OwnerKept s (translate s did va write).2 := by
  obtain ⟨f, hf⟩ : ∃ f, f = translate := ⟨_, rfl⟩
  rw [← hf]
  delta translate at hf
  have e := congrFun (congrFun (congrFun (congrFun hf s) did) va) write
  beta_reduce at e
  rw [e]
  clear e hf
  generalize ioWalk s did va write = r
  obtain ⟨report, _ | ⟨c, t⟩⟩ := r
  · exact .refl s
  · exact .ite (ownerKept_faultRecord s _ _ did va write) (.refl s)
theorem ioCommands_step (n : Nat) (s : State) : ioCommands n s = ioCommands._f n (Nat.brecOn.go n ioCommands._f).2 s := by
  delta ioCommands
  exact congrFun (Nat.brecOn.eq n ioCommands._f) s

theorem ownerKept_ioCommands (n : Nat) (s : State) : OwnerKept s (ioCommands n s) := by
  induction n generalizing s with
  | zero => exact .refl s
  | succ n ih =>
    have hg : ioCommands n = (Nat.brecOn.go (n + 1) ioCommands._f).2.1 := by
      delta ioCommands
      rfl
    rw [ioCommands_step]
    generalize (Nat.brecOn.go (n + 1) ioCommands._f).2 = g at hg ⊢
    change OwnerKept s (ite _ _ _)
    refine .ite (.refl s) ?_
    extract_lets +onlyGivenNames a
    generalize ioLoad s a = x
    generalize ioLoad s (a + 8) = y
    obtain _ | c := x
    · exact ownerKept_ioStop s _
    obtain _ | v := y
    · exact ownerKept_ioStop s _
    refine .ite (ownerKept_ioStop s _) ?_
    have next : ∀ t, OwnerKept t (g.1 t) := fun t => congrFun hg t ▸ ih t
    extract_lets s1 s2
    have h1 : OwnerKept s s1 := .ite (ownerKept_ioStore s _ _) (.refl s)
    have h2 : OwnerKept s s2 := .ite (h1.regs rfl) h1
    exact (h2.regs (setIo_regs _ _ _)).trans (next _)

theorem ownerKept_ioWrite (s : State) (o : Nat) (w : Word) : OwnerKept s (ioWrite s o w) := by
  have csr : ∀ errs, OwnerKept s (ioCsr s o w errs) := fun _ => .of_regs rfl
  unfold ioWrite
  dsimp only
  repeat' with_reducible refine OwnerKept.ite ?_ ?_
  · exact .of_regs rfl
  · exact .of_regs rfl
  · exact .of_regs rfl
  · exact .of_regs rfl
  · exact (OwnerKept.of_regs rfl).trans (ownerKept_ioCommands _ _)
  · exact .of_regs rfl
  · exact (csr _).trans (ownerKept_ioCommands _ _)
  · exact (csr 0xF00).regs rfl
  · exact csr _
  · exact (csr 0x300).regs rfl
  · exact .of_regs rfl
  · exact .refl s

theorem ownerKept_privSet (s : State) (p : Nat) (w : Word) : OwnerKept s (privSet s p w).2 := by
  unfold privSet
  split
  · exact .refl s
  · exact .ite_snd (ownerKept_dmWrite s _ w) (.refl s)
  · exact ownerKept_aplicWrite s _ _ w
  · exact .of_regs (mtWrite_regs s _ w)
  · exact .of_regs (fileWrite_regs s _ _ w)
  · exact ownerKept_ioWrite s _ w

theorem ownerKept_privWrite (s : State) (p : Nat) (d : List Byte) : OwnerKept s (privWrite s p d).2 := by
  unfold privWrite
  refine .ite_snd (.refl s) ((OwnerKept.refl s).foldl (fun r : Bool × State => r.2) (fun r i => ?_) _)
  exact .ite_snd (ownerKept_privSet r.2 _ _) (.refl r.2)

/-! ## Looms -/

theorem ownerKept_moveStart (s : State) (l k : Nat) : OwnerKept s (moveStart s l k) := by
  unfold moveStart
  exact .ite (.refl s) (.ite ((OwnerKept.refl s).latchFault _ _) (.of_regs rfl))

theorem ownerKept_bankCorrected (s : State) (l k n : Nat) : OwnerKept s (bankCorrected s l k n) := by
  unfold bankCorrected
  refine .ite (.refl s) ?_
  have h := (OwnerKept.of_regs (modLoom_regs s l fun m => { m with bankCe := tabSet 0 m.bankCe k (tabGet 0 (loom s l).bankCe k + n) })).wr
    (f := F.LOOM_BSCE_COUNT) (by decide) (bLoom l) (rd (modLoom s l fun m => { m with bankCe := tabSet 0 m.bankCe k (tabGet 0 (loom s l).bankCe k + n) })
      (bLoom l) F.LOOM_BSCE_COUNT + n)
  exact .ite (h.trans (ownerKept_moveStart _ l k)) h

theorem ownerKept_scratchMend (s : State) (l : Nat) (ps : List Nat) : OwnerKept s (scratchMend s l ps) :=
  (OwnerKept.of_regs (modLoom_regs s l _)).forEach (fun _ t => ownerKept_bankCorrected t l _ _) _

theorem ownerKept_scrCheck (s : State) (l a n code : Nat) : OwnerKept s (scrCheck s l a n code).2 := by
  unfold scrCheck
  exact .ite_snd ((OwnerKept.refl s).latchFault _ _) (.ite_snd (.refl s) (ownerKept_scratchMend s l _))

theorem ownerKept_localOk (s : State) (x : ShCtx) (l a n : Nat) : OwnerKept s (localOk s x l a n).2 := by
  unfold localOk
  dsimp only
  refine .ite_snd ((OwnerKept.refl s).inc (f := F.HUB_ISODROP_COUNT) (by decide) _) (.ite_snd ?_ (.ite_snd (.ite_snd (.refl s) ?_)
    (.ite_snd (.refl s) (.ite_snd (.ite_snd ?_ (.refl s)) (.refl s)))))
  · exact ((OwnerKept.refl s).inc (by decide) _).latchFault _ _
  · exact (OwnerKept.refl s).inc (by decide) _
  · exact (OwnerKept.refl s).inc (by decide) _

theorem ownerKept_localWrite (s : State) (x : ShCtx) (l a wmode : Nat) (d : List Byte) : OwnerKept s (localWrite s x l a wmode d).2 := by
  have ho := ownerKept_localOk s x l a d.length
  unfold localWrite
  dsimp only
  generalize localOk s x l a d.length = r at ho ⊢
  refine .ite_snd ho (.ite_snd ?_ (ho.regs (modLoom_regs r.2 l _)))
  have hc : OwnerKept s (if wmode = 0 then (true, r.2) else scratchCheck r.2 l a d.length).2 :=
    .ite_snd ho (ho.trans (ownerKept_scrCheck r.2 l a _ _))
  generalize (if wmode = 0 then (true, r.2) else scratchCheck r.2 l a d.length) = c at hc ⊢
  exact .ite_snd (hc.regs (setLoom_regs c.2 l _)) hc

/-! ## Shuttles -/

theorem ownerKept_physTarget (s : State) (k a : Nat) (write : Bool) : OwnerKept s (physTarget s k a write).2 := by
  have ht := ownerKept_translate s (bShuttle k) a write
  unfold physTarget
  refine .ite_snd ?_ (.refl s)
  generalize translate s (bShuttle k) a write = t at ht ⊢
  obtain ⟨_, u⟩ := t
  exact ht

theorem ownerKept_shWrite (s : State) (x : ShCtx) (a wmode : Nat) (d : List Byte) : OwnerKept s (shWrite s x a wmode d).2 := by
  have ht := ownerKept_physTarget s x.k a true
  unfold shWrite
  refine .ite_snd (ownerKept_localWrite s x _ _ wmode d) ?_
  generalize physTarget s x.k a true = t at ht ⊢
  obtain ⟨_ | _ | _ | _, u⟩ := t
  · next p =>
    have hw := (ht.trans (ownerKept_hbmTurn u (bShuttle x.k) p)).trans (ownerKept_hbmWrite _ x.tag p d)
    dsimp only at hw ⊢
    generalize hbmWrite (hbmTurn u (bShuttle x.k) p) x.tag p d = r at hw ⊢
    obtain ⟨_, v⟩ := r
    exact .ite (hw.regs (l2Drop_regs _ _ _)) hw
  · next p =>
    have hw := ht.trans (ownerKept_privWrite u p d)
    dsimp only at hw ⊢
    generalize privWrite u p d = r at hw ⊢
    obtain ⟨_, v⟩ := r
    exact hw
  · exact ht
  · exact ht

end Sys2Proof.Machine
end

section
/-!
PROOFS. What a block reset does to the OWNER registers, continued (R48): the shuttles' completions, the state of each kind of block, the
groups that a reset ends.
-/

namespace Sys2Proof.Machine

/-! ## Shuttles -/

theorem ownerKept_shStatus (s : State) (x : ShCtx) (r : ShRun) (res : ShRes) : OwnerKept s (shStatus s x r res) := by
  unfold shStatus
  split
  · exact ownerKept_shWrite s _ _ _ _
  · exact .refl s

theorem ownerKept_shEvent (s : State) (h tag : Nat) (irq err : Bool) : OwnerKept s (shEvent s h tag irq err) := by
  unfold shEvent
  extract_lets b s1 s2 w s3
  have h1 : OwnerKept s s1 := .ite ((OwnerKept.refl s).wr (by decide) _ _) (.refl s)
  have h2 : OwnerKept s s2 := .ite (h1.wr (by decide) _ _) h1
  have h3 : OwnerKept s s3 := .ite (h2.regs rfl) h2
  exact .ite (h3.regs rfl) h3

theorem ownerKept_shPageEnd (s : State) (h : Nat) : OwnerKept s (shPageEnd s h) := by
  unfold shPageEnd
  exact .ite ((OwnerKept.of_regs (modSh_regs s h _)).wr (by decide) _ _) ((OwnerKept.of_regs (modSh_regs s h _)).wr (by decide) _ _)

theorem ownerKept_shLaneNext (s : State) (h : Nat) (lane : ShLane) (ticket : Option Nat) (nx : Option ShNext) (code : Nat) :
    OwnerKept s (shLaneNext s h lane ticket nx code) := by
  unfold shLaneNext
  cases lane with
  | page =>
    cases nx with
    | some n => exact .of_regs (modSh_regs s h _)
    | none => exact ownerKept_shPageEnd s h
  | queue =>
    cases ticket with
    | none => exact .refl s
    | some t => exact .of_regs (modSh_regs s h _)

theorem ownerKept_shMoved (s : State) (k h n : Nat) : OwnerKept s (shMoved s k h n) :=
  ((OwnerKept.of_regs (modSh_regs s h _)).wr (f := F.SH_BYTES_COUNT) (by decide) _ _).wr (f := F.PROGRESS_COUNT) (by decide) _ _

theorem ownerKept_shDone (s : State) (k : Nat) (r : ShRun) (res : ShRes) : OwnerKept s (shDone s k r res) := by
  unfold shDone
  extract_lets h b d page err s1 s2 e1 e2 s3 s4 s5 s6 s7 s8
  have h1 : OwnerKept s s1 := .ite (.of_regs rfl) (.refl s)
  have h2 : OwnerKept s s2 := h1.inc (by decide) _
  have he1 : OwnerKept s e1 := h2.inc (by decide) _
  have he2 : OwnerKept s e2 := .ite (he1.wrPair (by decide) (by decide) _ _) he1
  have h3 : OwnerKept s s3 := .ite (he2.wrPair (by decide) (by decide) _ _) h2
  have h4 : OwnerKept s s4 := .ite ((h3.inc (by decide) _).trans (ownerKept_securityEvent _ _ _)) h3
  have h5 : OwnerKept s s5 := by
    unfold s5
    split
    · exact .ite ((h4.wr (by decide) _ _).wr (by decide) _ _) h4
    · exact h4
  have h6 : OwnerKept s s6 := .ite ((h5.wr (by decide) _ _).wr (by decide) _ _) h5
  have h7 : OwnerKept s s7 := h6.trans (ownerKept_shMoved _ _ _ _)
  have h8 : OwnerKept s s8 := .ite (h7.trans (ownerKept_shEvent _ _ _ _ _)) h7
  exact h8.trans (ownerKept_shLaneNext _ _ _ _ _ _)

theorem ownerKept_shUndrain (s : State) (k : Nat) (d : ShDesc) : OwnerKept s (shUndrain s k d) :=
  (OwnerKept.refl s).forEach (fun l t => .of_regs (modLoom_regs t l _)) _

theorem ownerKept_shAbortNow (s : State) (k : Nat) (r : ShRun) : OwnerKept s (shAbortNow s k r) := by
  unfold shAbortNow
  exact ((ownerKept_shUndrain s k r.desc).trans (.ite (.refl _) (ownerKept_shStatus _ _ r _))).trans (ownerKept_shDone _ k r _)

theorem ownerKept_shReset (s : State) (k : Nat) : OwnerKept s (shReset s k) := by
  unfold shReset
  split
  · next r _ =>
    exact (((OwnerKept.of_regs (modSh_regs s k _)).trans (ownerKept_shAbortNow (shFreed s k) k r))).regs (modSh_regs _ k _)
  · exact .of_regs (modSh_regs s k _)

/-! ## What each kind of block loses -/

theorem ownerKept_glimStop (s : State) (p st : Nat) : OwnerKept s (glimStop s p st) :=
  (((OwnerKept.refl s).wr (f := F.GLIM_STAT_STATE) (by decide) _ _).wr (f := F.GLIM_STAT_LANES) (by decide) _ _).regs (modGlim_regs _ p _)

theorem ownerKept_glimLight (s : State) (p act : Nat) : OwnerKept s (glimLight s p act) := .of_regs rfl

theorem ownerKept_portProbe (s : State) (p : Nat) : OwnerKept s (portProbe s p) :=
  .ite (((OwnerKept.refl s).wr (f := F.GLIM_STAT_STATE) (by decide) _ _).trans (ownerKept_glimLight _ p _)) (.refl s)

theorem ownerKept_lightFollow (s : State) : OwnerKept s (lightFollow s) :=
  (OwnerKept.refl s).forEach (fun p t => .ite (ownerKept_portProbe t p) (.ite (.refl t)
    ((ownerKept_glimStop t p gsOff).trans (ownerKept_glimLight _ p laDark)))) _

theorem ownerKept_setLas (s : State) (m v : Nat) : OwnerKept s (setLas s m v) :=
  (OwnerKept.refl s).wr (by unfold modField; split <;> decide) _ _

theorem ownerKept_syncFollow (old s : State) : OwnerKept s (syncFollow old s) := by
  unfold syncFollow
  refine (OwnerKept.refl s).forEach (fun _ t => ?_) _
  exact .ite (.refl t) (.of_regs rfl)

theorem ownerKept_tmrsRelease (s : State) : OwnerKept s (tmrsRelease s) := by
  unfold tmrsRelease
  refine (OwnerKept.refl s).forEach (fun _ t => ?_) _
  exact .ite (.of_regs rfl) (.refl t)

theorem ownerKept_waitCancel (s : State) (l : Nat) : OwnerKept s (waitCancel s l) := by
  unfold waitCancel
  extract_lets q t
  have ht : OwnerKept s t := by
    unfold t
    split
    · exact .of_regs rfl
    · exact .refl s
  exact ht.regs rfl

theorem ownerKept_showMap (s : State) (h m : Nat) (w : List Nat) (hm : m < 65536) : OwnerKept s (showMap s h m w) :=
  (((OwnerKept.refl s).wrI (f := F.HUB_ROWMAP0_MAP) (by decide) _ _ hm).wrI (f := F.HUB_ROWMAP1_MAP) (by decide) _ _ hm).wrI
    (f := F.HUB_ROWMAP2_MAP) (by decide) _ _ hm

theorem forEach_range_keeps (P : State → Prop) (n : Nat) {f : Nat → State → State} (hf : ∀ i < n, ∀ t, P t → P (f i t)) {s : State} (h : P s) :
    P (forEach (List.range n) f s) := by
  unfold forEach
  induction n with
  | zero => exact h
  | succ n ih =>
    rw [List.range_succ, List.foldl_append]
    exact hf n (Nat.lt_succ_self n) _ (ih fun i hi => hf i (hi.trans (Nat.lt_succ_self n)))

theorem ownerKept_hubMaps (s : State) (h : Nat) : OwnerKept s (hubMaps s h) := by
  unfold hubMaps
  refine forEach_range_keeps (OwnerKept s) 3 (fun i hi t ht => ?_) (.refl s)
  exact (((ht.regs (modHub_regs t h _)).wrI (f := F.HUB_ROWPASS_PASS) (by decide) _ _ (by omega)).trans
      (ownerKept_showMap _ h i _ (by omega)))

theorem ite_some_ne {c : Prop} [Decidable c] {k k' : Kind} {o : Option Kind} (hk : k ≠ k') (h : (if c then some k else o) = some k') :
    o = some k' := by
  split at h
  · exact absurd (Option.some.inj h) hk
  · exact h

theorem kindOf_beat {b : Nat} (h : kindOf b = some .beat) : b = bBeat := by
  by_contra hb
  unfold kindOf at h
  iterate 4 replace h := ite_some_ne (by decide) h
  rw [if_neg hb] at h
  iterate 15 replace h := ite_some_ne (by decide) h
  cases h

theorem ownerKept_subReset (s : State) {b : Nat} (hb : b ≠ bBeat) : OwnerKept s (subReset s b) := by
  unfold subReset
  cases hk : kindOf b with
  | none => exact .refl s
  | some k =>
    cases k with
    | loom =>
      dsimp only
      exact ((ownerKept_waitCancel s _).regs (setLoom_regs _ _ _)).regs (modSh_regs _ _ _)
    | hub =>
      dsimp only
      refine OwnerKept.trans ?_ (ownerKept_hubMaps _ _)
      exact .of_regs rfl
    | shuttle => exact ownerKept_shReset s _
    | glimmer =>
      dsimp only
      exact .ite (.refl s) ((ownerKept_glimStop s _ gsOff).trans (ownerKept_glimLight _ _ laDark))
    | laser =>
      dsimp only
      have h : OwnerKept s { s with lasers := [] } := .of_regs rfl
      exact (h.trans ((ownerKept_setLas _ 0 lmAbsent).trans (ownerKept_setLas _ 1 lmAbsent))).trans
        (ownerKept_lightFollow _)
    | reed => exact .ite (.of_regs rfl) (.of_regs rfl)
    | memcrypt => exact .of_regs rfl
    | ltime => exact .of_regs rfl
    | timer => exact ((ownerKept_tmrsRelease s).regs rfl).trans (ownerKept_syncFollow s _)
    | apc => exact .of_regs rfl
    | hostport => exact .of_regs rfl
    | custody => exact .of_regs rfl
    | lamplighter => exact .of_regs rfl
    | beat => exact absurd (kindOf_beat hk) hb
    | _ => exact .refl s

/-! ## The groups that a reset ends -/

theorem ownerKept_modSlot (s : State) (i : Nat) (f : GroupSlot → GroupSlot) : OwnerKept s (modSlot s i f) := .of_regs rfl

theorem ownerKept_discardTxn (s : State) (b res : Nat) : OwnerKept s (discardTxn s b res) :=
  ((((OwnerKept.of_regs (setCtl_regs s b _)).wr (f := F.TXN_TSTATE) (by decide) _ _).wr (f := F.TXN_RESULT) (by decide) _ _).wr
    (f := F.TXN_GROUP) (by decide) _ _).inc (f := F.TXNROLLBACK_COUNT) (by decide) _

theorem ownerKept_slotRollback (s : State) (i code blk : Nat) (keep : Option Nat) : OwnerKept s (slotRollback s i code blk keep) :=
  ((OwnerKept.refl s).forEach (fun b t => .ite (ownerKept_discardTxn t b _) (.refl t)) _).trans (ownerKept_modSlot _ i _)

theorem ownerKept_groupFail (s : State) (i code blk : Nat) (keep : Option Nat) : OwnerKept s (groupFail s i code blk keep) :=
  (OwnerKept.refl s).forEach (fun j t => .ite (ownerKept_slotRollback t j _ _ _) (ownerKept_slotRollback t j _ _ _)) _

theorem ownerKept_prepareHit (s : State) (b : Nat) : OwnerKept s (prepareHit s b) := by
  unfold prepareHit
  split
  · exact ownerKept_groupFail s _ _ _ _
  · exact .refl s

theorem ownerKept_windowHit (s : State) (b : Nat) : OwnerKept s (windowHit s b) := by
  unfold windowHit
  dsimp only
  split
  · exact .refl s
  · exact ((OwnerKept.refl s).forEach (fun j t => ownerKept_modSlot t j _) _).latchFault _ _

theorem ownerKept_decisionsDrop (s : State) (b : Nat) : OwnerKept s (decisionsDrop s b) := by
  have h : OwnerKept s (forEach (s.decisions.filter (fun d => d.block = b)) (fun d s => flagEntry s d.ev efSuperseded) s) := by
    refine (OwnerKept.refl s).forEach (fun d t => ?_) _
    exact .of_regs rfl
  exact h.regs rfl

end Sys2Proof.Machine
end

section
/-!
PROOFS. Block resets and the mode latch (R31, R48, R64, R593, R693), and O5.
-/

namespace Sys2Proof.Machine

/-! ## The block reset -/

/-- What a block reset shows in registers once they have been dropped. -/
def resetShows : List Fld := [F.GLIM_STAT_STATE, F.HUB_ROWPASS_PASS, F.HUB_ROWMAP0_MAP, F.HUB_ROWMAP1_MAP, F.HUB_ROWMAP2_MAP,
  F.LOOM_BANKSTAT_SPAREBAD, F.LOOM_BANKSTAT_SPAREYIELD, F.LOOM_BANKSTAT_SPAREUSED, F.LOOM_BANKSTAT_SPAREBANK]

theorem rd_hubMaps_apart {g : Fld} (hg : ∀ f ∈ resetShows, fldsApart f g = true) (s : State) (h b : Nat) :
    rd (hubMaps s h) b g = rd s b g := by
  unfold hubMaps
  refine forEach_range_keeps (fun t => rd t b g = rd s b g) 3 (fun i hi t ht => ?_) rfl
  have hi' : i < 65536 := by omega
  have ap := fun (f : Fld) (hf : f ∈ resetShows) (s : State) (b' v : Nat) => rd_wrI_apart (hg f hf) s b' b v hi'
  dsimp only
  rw [showMap, ap F.HUB_ROWMAP2_MAP (by simp [resetShows]), ap F.HUB_ROWMAP1_MAP (by simp [resetShows]),
    ap F.HUB_ROWMAP0_MAP (by simp [resetShows]), ap F.HUB_ROWPASS_PASS (by simp [resetShows])]
  exact ht

theorem hubMaps_blk (s : State) (h : Nat) : (hubMaps s h).blk = s.blk := by
  unfold hubMaps
  refine forEach_range_keeps (fun t => t.blk = s.blk) 3 (fun i _ t ht => ?_) rfl
  simpa [showMap] using ht

theorem rd_bankAssign_apart {g : Fld} (hg : ∀ f ∈ resetShows, fldsApart f g = true) (s : State) (l b : Nat) :
    rd (bankAssign s l) b g = rd s b g := by
  have ap := fun (f : Fld) (hf : f ∈ resetShows) (s : State) (b' v : Nat) => rd_wr_apart (hg f hf) s b' b v
  unfold bankAssign
  split
  · dsimp only
    split
    · rw [ap F.LOOM_BANKSTAT_SPAREBAD (by simp [resetShows])]
    · rw [ap F.LOOM_BANKSTAT_SPAREBANK (by simp [resetShows]), ap F.LOOM_BANKSTAT_SPAREUSED (by simp [resetShows]),
        ap F.LOOM_BANKSTAT_SPAREYIELD (by simp [resetShows])]
  · rfl

theorem bankAssign_blk (s : State) (l : Nat) : (bankAssign s l).blk = s.blk := by
  unfold bankAssign
  split
  · dsimp only
    split <;> rfl
  · rfl

/-- The maps that a hub or a loom shows after its reset. -/
def resetMaps (s : State) (b : Nat) : State :=
  match kindOf b with
  | some .hub => hubMaps s (b - 0x80)
  | some .loom => bankAssign s (b - 0x100)
  | _ => s

theorem rd_resetMaps_apart {g : Fld} (hg : ∀ f ∈ resetShows, fldsApart f g = true) (s : State) (b b' : Nat) :
    rd (resetMaps s b) b' g = rd s b' g := by
  unfold resetMaps
  split
  · exact rd_hubMaps_apart hg s _ b'
  · exact rd_bankAssign_apart hg s _ b'
  · rfl

theorem resetMaps_blk (s : State) (b : Nat) : (resetMaps s b).blk = s.blk := by
  unfold resetMaps
  split
  · exact hubMaps_blk s _
  · exact bankAssign_blk s _
  · rfl

theorem resetWord_eq {b : Nat} {k : Kind} (h : kindOf b = some k) {off : Nat} (h0 : off ≠ 0) (hh : off < 0x40) :
    resetWord b off = mapReset k off := by
  have hne : ∀ n, 0x40 ≤ n → off ≠ n := fun n hn => by omega
  simp [resetWord, h, h0, hne]

/-- The header's reset values that a block reset shows. -/
theorem resetWord_header {b : Nat} {k : Kind} (h : kindOf b = some k) : fldGet F.FAULTCAUSE_VALID (resetWord b F.FAULTCAUSE_VALID.off) = 0 ∧
    fldGet F.FAULTMASK_MASK (resetWord b F.FAULTMASK_MASK.off) = 0 ∧ fldGet F.TXN_TSTATE (resetWord b F.TXN_TSTATE.off) = tsIdle := by
  rw [resetWord_eq h (by decide) (by decide), resetWord_eq h (by decide) (by decide), resetWord_eq h (by decide) (by decide)]
  cases k <;> decide +kernel

/-- No register of the header's first eight words is kept but OWNER. -/
theorem keepReg_header (b : Nat) {off : Nat} (h : off < 0x40) : keepReg b off = decide (off = F.OWNER_PART.off) := by
  have hne : ∀ n, 0x40 ≤ n → off ≠ n := fun n hn => by omega
  have hle : ∀ n, 0x40 ≤ n → ¬ n ≤ off := fun n hn => by omega
  unfold keepReg
  simp [hne, hle]

theorem laneReg_header {off : Nat} (h : off < 0x40) (hs : off ≠ F.STATE_READY.off) : laneReg off = false := by
  have : ¬ 0x40 ≤ off := by omega
  simp [laneReg, this, hs]

/-- What a reset that begins leaves in the header of its block (R48). -/
structure ResetBegun (s t : State) (b : Nat) : Prop where
  ready : rd t b F.STATE_READY = 0
  resetting : rd t b F.STATE_RESETTING = 1
  fault : rd t b F.FAULTCAUSE_VALID = 0
  mask : rd t b F.FAULTMASK_MASK = 0
  tstate : rd t b F.TXN_TSTATE = tsIdle
  owner : b ≠ bBeat → rd t b F.OWNER_PART = rd s b F.OWNER_PART
  ctl : ctl t b = BlockCtl.reset
  aborted : rd s b F.TXN_TSTATE ≠ tsIdle → rd t b F.TXN_RESULT = resAbortedReset ∧ rd t b F.TXNROLLBACK_COUNT = 1

/-- A register of the header after a reset has dropped the block's registers. -/
theorem rd_regsDrop_header (s : State) {b : Nat} {lanes : Bool} {g : Fld} (hg : g.off < 0x40) (hs : g.off ≠ F.STATE_READY.off) :
    rd (regsDrop s (fun x off => x = b && !keepReg b off && !(lanes && laneReg off))) b g =
      if g.off = F.OWNER_PART.off then rd s b g else fldGet g (resetWord b g.off) := by
  rw [rd, rdI, regGet_regsDrop _ _ _ (by omega)]
  simp only [keepReg_header b hg, laneReg_header hg hs]
  by_cases h : g.off = F.OWNER_PART.off
  · simp [h, rd, rdI]
  · simp [h]

theorem blockReset_begun {s : State} {b : Nat} {k : Kind} (hr : rdB s b F.STATE_RESETTING = false) (hk : kindOf b = some k)
    (hs : s.boot.seen.contains b = true) : ResetBegun s (blockReset s b) b := by
  have hmem : b ∈ s.boot.seen := by simpa using hs
  unfold blockReset
  rw [if_neg (by simp [hr, hk, hmem])]
  extract_lets txn s1 lanes s2 lost s3 s4 s5 s6 s7
  obtain ⟨hfault, hmask, htst⟩ := resetWord_header hk
  have hown : b ≠ bBeat → OwnerKept s s2 := fun hb => by
    have h := ((ownerKept_decisionsDrop s b).trans (ownerKept_windowHit _ b)).trans (ownerKept_prepareHit _ b)
    exact .ite h (h.trans (ownerKept_subReset _ hb))
  have h3 : ∀ g : Fld, g.off < 0x40 → g.off ≠ F.STATE_READY.off →
      rd s3 b g = if g.off = F.OWNER_PART.off then rd s2 b g else fldGet g (resetWord b g.off) :=
    fun g hg hs => rd_regsDrop_header s2 hg hs
  have h4 : ∀ g, (∀ f ∈ resetShows, fldsApart f g = true) → rd s4 b g = rd s3 b g := fun g hg => by
    unfold s4
    split
    · exact rd_wr_apart (hg F.GLIM_STAT_STATE (by simp [resetShows])) s3 _ b _
    · rfl
  have h5 : ∀ g, fldsApart F.STATE_READY g = true → rd s5 b g = rd s4 b g := fun g hg => rd_wr_apart hg s4 b b 0
  have h6 : ∀ g, (∀ f ∈ resetShows, fldsApart f g = true) → rd s6 b g = rd s5 b g := fun g hg => rd_resetMaps_apart hg s5 b b
  have h7 : ∀ g, fldsApart F.TXN_TSTATE g = true → fldsApart F.TXN_RESULT g = true → fldsApart F.TXNROLLBACK_COUNT g = true →
      rd s7 b g = rd s6 b g := fun g ht hr hc => by
    unfold s7
    split
    · rw [rd_wr_apart hc, setTxn, rd_wr_apart hr, rd_wr_apart ht]
    · rfl
  have h36 : ∀ g, (∀ f ∈ resetShows, fldsApart f g = true) → fldsApart F.STATE_READY g = true → rd s6 b g = rd s3 b g :=
    fun g hg hr => (h6 g hg).trans ((h5 g hr).trans (h4 g hg))
  constructor
  case ready =>
    rw [rd_wr_apart (by decide), h7 _ (by decide) (by decide) (by decide), h6 _ (by decide)]
    exact rd_wr_self s4 b F.STATE_READY 0 (by decide)
  case resetting => exact rd_wr_self s7 b F.STATE_RESETTING 1 (by decide)
  case fault =>
    rw [rd_wr_apart (by decide), h7 _ (by decide) (by decide) (by decide), h36 _ (by decide) (by decide), h3 _ (by decide) (by decide)]
    exact hfault
  case mask =>
    rw [rd_wr_apart (by decide), h7 _ (by decide) (by decide) (by decide), h36 _ (by decide) (by decide), h3 _ (by decide) (by decide)]
    exact hmask
  case tstate =>
    rw [rd_wr_apart (by decide)]
    unfold s7
    split
    · rw [rd_wr_apart (by decide)]
      exact (rd_setTxn s6 b (by decide) (by decide)).1
    · rw [h36 _ (by decide) (by decide), h3 _ (by decide) (by decide)]
      exact htst
  case owner =>
    intro hb
    rw [rd_wr_apart (by decide), h7 _ (by decide) (by decide) (by decide), h36 _ (by decide) (by decide), h3 _ (by decide) (by decide)]
    exact hown hb b
  case ctl =>
    have hblk : s7.blk = s6.blk := by
      unfold s7
      split <;> rfl
    have hctl : Machine.ctl s6 b = Machine.ctl s5 b := by simp only [Machine.ctl, show s6.blk = s5.blk from resetMaps_blk s5 b]
    have : Machine.ctl s7 b = Machine.ctl s6 b := by simp only [Machine.ctl, hblk]
    exact this.trans (hctl.trans (ctl_setCtl_self _ b _))
  case aborted =>
    intro ht
    have htxn : txn = true := by simpa [txn] using ht
    have hs7 : s7 = wr (setTxn s6 b tsIdle resAbortedReset) b F.TXNROLLBACK_COUNT 1 := if_pos htxn
    rw [rd_wr_apart (by decide), rd_wr_apart (by decide), hs7, rd_wr_apart (by decide), rd_wr_self _ _ _ _ (by decide)]
    exact ⟨(rd_setTxn s6 b (by decide) (by decide)).2, rfl⟩

end Sys2Proof.Machine
end

section
/-!
PROOFS. RESET_REQ, BLOCK_RESET_DONE and the mode latch (R31, R48, R64, R593, R624, R693): O5.
-/

namespace Sys2Proof.Machine

/-! ## RESET_REQ -/

/-- What a rung of the ladder shows when it begins. -/
def rungShows : List Fld := [F.LL_STAT_LASTRUNG, fAt F.LL_RUNG1_COUNT 0]

theorem rd_rungBegun {g : Fld} (hg : ∀ f ∈ rungShows, fldsApart f g = true) (s : State) (r : RungSt) (b : Nat) :
    rd (rungAdd (rungCount s 1) r) b g = rd s b g := by
  refine (rd_congr (modLl_regs (rungCount s 1) _) b g).trans ?_
  rw [rungCount, rd_inc_apart (hg (fAt F.LL_RUNG1_COUNT 0) (by simp [rungShows])), rd_wr_apart (hg F.LL_STAT_LASTRUNG (by simp [rungShows]))]

/-- The rung that a RESET_REQ may be changes nothing of the reset. -/
theorem resetAsked_cases (s : State) (b : Nat) : resetAsked s b = blockReset s b ∨
    ∃ f r, resetAsked s b = rungAdd (rungCount (modLl (blockReset s b) f) 1) r := by
  unfold resetAsked
  extract_lets t u
  split
  · exact .inl rfl
  · exact .inr ⟨_, _, rfl⟩

theorem ResetBegun.congr {s t u : State} {b : Nat} (h : ResetBegun s t b)
    (hr : ∀ g, (∀ f ∈ rungShows, fldsApart f g = true) → rd u b g = rd t b g) (hc : Machine.ctl u b = Machine.ctl t b) : ResetBegun s u b where
  ready := (hr _ (by decide)).trans h.ready
  resetting := (hr _ (by decide)).trans h.resetting
  fault := (hr _ (by decide)).trans h.fault
  mask := (hr _ (by decide)).trans h.mask
  tstate := (hr _ (by decide)).trans h.tstate
  owner := fun hb => (hr _ (by decide)).trans (h.owner hb)
  ctl := hc.trans h.ctl
  aborted := fun ht => ⟨(hr _ (by decide)).trans (h.aborted ht).1, (hr _ (by decide)).trans (h.aborted ht).2⟩

theorem resetAsked_begun {s : State} {b : Nat} {k : Kind} (hr : rdB s b F.STATE_RESETTING = false) (hk : kindOf b = some k)
    (hs : s.boot.seen.contains b = true) : ResetBegun s (resetAsked s b) b := by
  have h := blockReset_begun hr hk hs
  obtain e | ⟨f, r, e⟩ := resetAsked_cases s b
  · rw [e]
    exact h
  · rw [e]
    exact h.congr (fun g hg => (rd_rungBegun hg _ r b).trans (rd_congr (modLl_regs _ f) b g)) rfl

theorem resetAsked_resetting {s : State} {b : Nat} (hr : rdB s b F.STATE_RESETTING = true) : resetAsked s b = s := by
  have h : blockReset s b = s := if_pos (.inl hr)
  unfold resetAsked
  rw [h]
  exact if_pos (.inl hr)

/-- A main-page write of RESET_REQ. -/
theorem putMain_resetReq {s : State} {r : Requester} {b : Nat} {k : Kind} (hk : kindOf b = some k) {v : Word}
    (hv : fldGet F.CONTROL_RESETREQ v = 1) : putMain s r b F.CONTROL_RESETREQ.off v = resetAsked s b := by
  unfold putMain
  rw [hk]
  simp [reservedAt_header b (off := F.CONTROL_RESETREQ.off) (by decide), hv]

/-- A write reaches only a block that has been READY (R593). -/
theorem seen_of_gateError {s : State} {b off : Nat} (h : gateError s b off true = false) : s.boot.seen.contains b = true := by
  simp only [gateError, Bool.or_eq_false_iff, Bool.and_eq_false_iff, Bool.not_eq_false'] at h
  exact h.2.resolve_right (by simp)

theorem exec_resetReq {s : State} {r : Requester} {b : Nat} (h : fieldPerformed s r b F.CONTROL_RESETREQ 1 = true) :
    exec (.resetReq r b) s = .next (send (resetAsked (windowClose s) b) .resp (tagOf r) [1, 0]) := by
  obtain ⟨k, hk⟩ := kindOf_of_fieldPerformed h
  have hv : fldGet F.CONTROL_RESETREQ (withField s r b F.CONTROL_RESETREQ 1) = 1 := fldGet_withField s r b _ 1 (by decide)
  exact congrArg Host.Outcome.next ((fieldWrite_performed h).trans (by rw [putMain_resetReq hk hv]))

theorem resetReq_begins {s : State} {r : Requester} {b : Nat} (h : fieldPerformed s r b F.CONTROL_RESETREQ 1 = true)
    (hr : rdB s b F.STATE_RESETTING = false) :
    ∃ t, exec (.resetReq r b) s = .next t ∧ okResp r 0 ∈ t.out ∧ rd t b F.STATE_READY = 0 ∧ rd t b F.STATE_RESETTING = 1 ∧
      rd t b F.FAULTCAUSE_VALID = 0 ∧ regGet t b F.FAULTMASK_MASK.off 0 = 0 ∧ rd t b F.TXN_TSTATE = tsIdle ∧
      (b ≠ bBeat → rd t b F.OWNER_PART = rd s b F.OWNER_PART) ∧ modePend t b = false ∧ (ctl t b).staged = [] ∧
      (rd s b F.TXN_TSTATE ≠ tsIdle → rd t b F.TXN_RESULT = resAbortedReset ∧ rd t b F.TXNROLLBACK_COUNT = 1) := by
  obtain ⟨k, hk⟩ := kindOf_of_fieldPerformed h
  have hseen : (windowClose s).boot.seen.contains b = true := seen_of_gateError (performed_split h).2
  have hb := resetAsked_begun (s := windowClose s) (by rwa [rdB, rd_windowClose]) hk hseen
  refine ⟨_, exec_resetReq h, okResp_mem_send _ r 0, hb.ready, hb.resetting, hb.fault, ?_, hb.tstate, fun hne => ?_, ?_, ?_, fun ht => ?_⟩
  · have hm : (regGet (resetAsked (windowClose s) b) b F.FAULTMASK_MASK.off 0).toNat / 1 % 2 ^ 32 = 0 := hb.mask
    rw [Nat.div_one, Nat.mod_eq_of_lt (BitVec.isLt _)] at hm
    exact BitVec.eq_of_toNat_eq hm
  · exact (hb.owner hne).trans (rd_windowClose s b _)
  · have : modePend (resetAsked (windowClose s) b) b = false := by
      simp [modePend, hb.ctl, BlockCtl.reset]
    exact this
  · exact congrArg BlockCtl.staged hb.ctl
  · exact hb.aborted (by rwa [rd_windowClose])

theorem resetReq_ignored {s : State} {r : Requester} {b : Nat} (h : fieldPerformed s r b F.CONTROL_RESETREQ 1 = true)
    (hr : rdB s b F.STATE_RESETTING = true) : ∃ t, exec (.resetReq r b) s = .next t ∧ answered r (windowClose s) t := by
  refine ⟨_, exec_resetReq h, ?_⟩
  rw [resetAsked_resetting (by rwa [rdB, rd_windowClose])]
  exact ⟨⟨(windowClose s).free, _, rfl⟩, okResp_mem_send _ r 0⟩

/-! ## BLOCK_RESET_DONE -/

/-- What rungs that end show. -/
def rungEndShows : List Fld := [F.STATE_DEGRADED, F.SH_STAT_TAKEOVER, F.LL_LADDER0_BLOCK, F.LL_LADDER0_RUNG, F.LL_LADDER0_OUTCOME,
  F.LL_LADDER1_CAUSE]

/-- From `s` to `t` the fields that no end of a rung shows, and the bring-up, stay. -/
structure RungEndKept (s t : State) : Prop where
  regs : ∀ g, (∀ f ∈ rungEndShows, fldsApart f g = true) → ∀ b, rd t b g = rd s b g
  boot : t.boot = s.boot

namespace RungEndKept

variable {s t u : State}

theorem refl (s : State) : RungEndKept s s := ⟨fun _ _ _ => rfl, rfl⟩

theorem trans (h : RungEndKept s t) (k : RungEndKept t u) : RungEndKept s u :=
  ⟨fun g hg b => (k.regs g hg b).trans (h.regs g hg b), k.boot.trans h.boot⟩

theorem wr {f : Fld} (hf : f ∈ rungEndShows) (h : RungEndKept s t) (b v : Nat) : RungEndKept s (wr t b f v) :=
  h.trans ⟨fun _ hg b' => rd_wr_apart (hg f hf) t b b' v, rfl⟩

theorem of_regs (hr : t.regs = s.regs) (hb : t.boot = s.boot) : RungEndKept s t := ⟨fun g _ b => rd_congr hr b g, hb⟩

theorem ite {c : Prop} [Decidable c] (ht : RungEndKept s t) (hu : RungEndKept s u) : RungEndKept s (if c then t else u) := by
  split
  · exact ht
  · exact hu

theorem forEach {α : Type} {f : α → State → State} (hf : ∀ a t, RungEndKept t (f a t)) (xs : List α) (h : RungEndKept s t) :
    RungEndKept s (forEach xs f t) := by
  unfold Machine.forEach
  induction xs generalizing t with
  | nil => exact h
  | cons a xs ih => exact ih (h.trans (hf a t))

theorem shReturn (s : State) (k : Nat) : RungEndKept s (shReturn s k) := by
  unfold Machine.shReturn
  refine ite (refl s) ?_
  exact wr (by simp [rungEndShows]) (wr (by simp [rungEndShows]) (wr (by simp [rungEndShows]) (of_regs (modSh_regs s k _) rfl) _ _) _ _) _ _

theorem tenantEvent (s : State) (e : Nat) : RungEndKept s (tenantEvent s e) := by
  unfold Machine.tenantEvent
  exact ite (of_regs rfl rfl) (refl s)

theorem rungNote (s : State) (b rung cause out : Nat) : RungEndKept s (rungNote s b rung cause out) := by
  have h := wr (f := F.LL_LADDER1_CAUSE) (by simp [rungEndShows]) (wr (f := F.LL_LADDER0_OUTCOME) (by simp [rungEndShows])
    (wr (f := F.LL_LADDER0_RUNG) (by simp [rungEndShows]) (wr (f := F.LL_LADDER0_BLOCK) (by simp [rungEndShows]) (refl s)
      bLamplighter b) bLamplighter rung) bLamplighter out) bLamplighter cause
  exact h.trans (of_regs rfl rfl)

theorem rungsCheck (s : State) : RungEndKept s (rungsCheck s) := by
  unfold Machine.rungsCheck
  extract_lets done ends s1
  refine forEach (fun r t => ?_) _ (of_regs rfl rfl)
  extract_lets t1
  have h1 : RungEndKept t t1 := ite (shReturn t _) (refl t)
  exact ite (h1.trans (tenantEvent t1 _)) (ite (h1.trans (rungNote t1 _ _ _ _)) h1)

end RungEndKept

theorem releaseDone_none {s : State} {b : Nat} (h : s.cust.releasing.contains b = false) : releaseDone s b = s := by
  unfold releaseDone
  rw [if_pos (by rw [h]; rfl)]

theorem setReady_releasing (s : State) (b : Nat) : (setReady s b).cust = s.cust := by
  obtain ⟨r, f, kg, ks, sn, h⟩ := setReady_frame s b
  rw [h]

/-- The blocks that have been READY, with `b`. -/
def seenWith (s : State) (b : Nat) : List Nat := if s.boot.seen.contains b then s.boot.seen else s.boot.seen ++ [b]

theorem mem_seenWith (s : State) (b : Nat) : b ∈ seenWith s b := by
  unfold seenWith
  split
  next h => simpa using h
  next => simp

theorem setReady_boot (s : State) (b : Nat) : (setReady s b).boot.seen = seenWith s b := by
  unfold setReady
  dsimp only
  split
  · by_cases h : slotLoaded (readyShown s b (seenWith s b)) 0 = true
    · exact congrArg (fun t : State => t.boot.seen) (if_pos h)
    · exact congrArg (fun t : State => t.boot.seen) (if_neg h)
  · rfl

theorem rd_setReady_resetting (s : State) (b : Nat) : rd (setReady s b) b F.STATE_RESETTING = 0 := by
  have h : ∀ sn, rd (readyShown s b sn) b F.STATE_RESETTING = 0 := fun sn => by
    rw [rd_readyShown, rd_wr_apart (by decide), rd_wr_self _ _ _ _ (by decide)]
    rfl
  obtain ⟨sn, e | e⟩ := setReady_cases s b <;> rw [e]
  · exact h sn
  · rw [rd_slotLoad_apart (.inl (by decide)), h]

theorem blockReady_usable {s : State} {b : Nat} (hr : rdB s b F.STATE_RESETTING = true) (ho : readyOk s b = true) :
    blockReady s b = setReady s b := if_pos ⟨hr, ho⟩

theorem resetDone_ready {s : State} {b : Nat} (hr : rdB s b F.STATE_RESETTING = true) (ho : readyOk s b = true)
    (hc : s.cust.releasing.contains b = false) :
    ∃ t, exec (.blockResetDone b) s = .next t ∧ rd t b F.STATE_READY = 1 ∧ rd t b F.STATE_RESETTING = 0 ∧
      rd t b F.OWNER_PART = rd s b F.OWNER_PART ∧ b ∈ t.boot.seen := by
  have hrel : releaseDone (setReady s b) b = setReady s b := releaseDone_none (by rw [setReady_releasing, hc])
  have he : exec (.blockResetDone b) s = .next (rungsCheck (setReady s b)) :=
    congrArg Host.Outcome.next (by rw [blockReady_usable hr ho, hrel])
  have hk := RungEndKept.rungsCheck (setReady s b)
  refine ⟨_, he, ?_, ?_, ?_, ?_⟩
  · rw [hk.regs _ (by decide)]
    have := rdB_setReady s b b
    simpa [rdB] using this
  · rw [hk.regs _ (by decide)]
    exact rd_setReady_resetting s b
  · rw [hk.regs _ (by decide)]
    exact rd_setReady_apart (by decide) (.inl (by decide)) s b
  · rw [hk.boot]
    exact setReady_boot s b ▸ mem_seenWith s b

theorem resetDone_released {s : State} {b : Nat} (hr : rdB s b F.STATE_RESETTING = true) (ho : readyOk s b = true) :
    exec (.blockResetDone b) s = .next (rungsCheck (releaseDone (setReady s b) b)) :=
  congrArg Host.Outcome.next (by rw [blockReady_usable hr ho])

theorem resetDone_ignored {s : State} {b : Nat} (h : rdB s b F.STATE_RESETTING = false ∨ readyOk s b = false) (hl : s.ll.rungs = [])
    (hc : s.cust.releasing.contains b = false) : ∃ t, exec (.blockResetDone b) s = .next t ∧ t.regs = s.regs ∧ t.boot = s.boot := by
  have hb : blockReady s b = s := by
    refine if_neg ?_
    rintro ⟨hr, ho⟩
    rw [hr, ho] at h
    simp at h
  exact ⟨s, congrArg Host.Outcome.next (by rw [hb, releaseDone_none hc, rungsCheck_of_no_rungs hl]), rfl, rfl⟩

end Sys2Proof.Machine
end

section
/-!
PROOFS. The mode of a block (R31, R64): direct writes of CONTROL, and O5.
-/

namespace Sys2Proof.Machine

/-! ## Words of the header -/

/-- Words for registers of the header. -/
def headerWords (st : Staged) : Prop := ∀ w ∈ st, w.key / 65536 < 0x40

section
variable {st : Staged} (h : headerWords st)
include h

theorem idxIn_header {lo : Nat} (hl : 0x40 ≤ lo) (hi : Nat) : idxIn st lo hi = [] := by
  have : st.filter (fun w => lo ≤ w.key / 65536 && w.key / 65536 ≤ hi) = [] := List.filter_eq_nil_iff.2 fun w hw => by
    have := h w hw
    simp
    omega
  rw [idxIn, this]
  rfl

theorem loomApplied_header (old s : State) (l : Nat) :
    (loomApplied old s l st false).regs = s.regs ∧ (loomApplied old s l st false).blk = s.blk := by
  unfold loomApplied
  rw [idxIn_header h (by decide)]
  extract_lets b own moved s1 s2 ch
  have h1 : s1.regs = s.regs ∧ s1.blk = s.blk := by
    simp only [s1]
    split
    · exact ⟨rfl, rfl⟩
    · exact ⟨rfl, rfl⟩
  have h2 : s2.regs = s1.regs ∧ s2.blk = s1.blk := by
    simp only [s2, ownApply]
    split
    · exact ⟨rfl, rfl⟩
    · exact ⟨rfl, rfl⟩
  exact ⟨h2.1.trans h1.1, h2.2.trans h1.2⟩

theorem timApplied_header (old s : State) : timApplied old s st = s := by
  unfold timApplied forEach
  induction st with
  | nil => rfl
  | cons w ws ih =>
    have hw : w.key / 65536 < 0x40 := h w (by simp)
    refine (congrArg (fun t => List.foldl _ t ws) (if_pos (Or.inl hw))).trans ?_
    exact ih fun x hx => h x (List.mem_cons_of_mem _ hx)

/-- Values of the header do nothing but stand in its registers. -/
theorem applied_header (old s : State) (b : Nat) : (applied old s b st false).regs = s.regs ∧ (applied old s b st false).blk = s.blk := by
  unfold applied
  split
  · exact loomApplied_header h old s _
  · rw [apcApplied, idxIn_header h (by decide)]
    exact ⟨rfl, rfl⟩
  · exact ⟨rfl, rfl⟩
  · exact ⟨rfl, rfl⟩
  · rw [timApplied_header h]
    exact ⟨rfl, rfl⟩
  · exact ⟨rfl, rfl⟩

theorem reedTouches_header (s : State) (b : Nat) : reedTouches s b st = false := by
  unfold reedTouches
  refine List.any_eq_false.2 fun w hw => ?_
  have h0 : reedCfgBits (w.key / 65536) = 0 := by
    have := h w hw
    simp [reedCfgBits, header_ne this]
  simp [h0]

theorem applyWords_header (s : State) (b : Nat) :
    (applyWords s b st false).regs = (setWords s b st).regs ∧ (applyWords s b st false).blk = (setWords s b st).blk := by
  unfold applyWords
  simp only [reedTouches_header h, Bool.and_false, Bool.false_eq_true, if_false]
  exact applied_header h s _ b

end

/-! ## Values that leave the promise -/

/-- What a value shows that leaves the promise (R670). -/
def detShows : List Fld := [F.BEAT_DETBEAT_LO_N, F.BEAT_DETBEAT_HI_N, F.BEAT_DETSTAT_UNGROUPED]

theorem rd_detSet_apart {g : Fld} (hg : ∀ f ∈ detShows, fldsApart f g = true) (s : State) (b : Nat) :
    rd (detSet s F.BEAT_DETSTAT_UNGROUPED) b g = rd s b g := by
  simp only [detShows, List.forall_mem_cons] at hg
  obtain ⟨hl, hh, hu, -⟩ := hg
  unfold detSet
  dsimp only
  split
  · rw [rd_wr_apart hu]
    split
    · rw [wrPair, rd_wr_apart hh, rd_wr_apart hl]
    · rfl
  · rfl

theorem rd_ungrouped_apart {g : Fld} (hg : ∀ f ∈ detShows, fldsApart f g = true) (s : State) (b b' : Nat) :
    rd (ungrouped s b) b' g = rd s b' g := by
  unfold ungrouped
  split
  · exact rd_detSet_apart hg s b'
  · exact rd_detSet_apart hg s b'
  · exact rd_detSet_apart hg s b'
  · rfl

theorem detSet_blk (s : State) (f : Fld) : (detSet s f).blk = s.blk := by
  unfold detSet
  dsimp only
  split
  · split <;> rfl
  · rfl

theorem ungrouped_blk (s : State) (b : Nat) : (ungrouped s b).blk = s.blk := by
  unfold ungrouped
  split
  · exact detSet_blk s _
  · exact detSet_blk s _
  · exact detSet_blk s _
  · rfl

/-! ## The latch -/

theorem noBoundary_congr {s t : State} (h : beatState t = beatState s) : noBoundary t = noBoundary s := by
  unfold noBoundary
  rw [h]

theorem rdB_wr_bool (s : State) (b : Nat) {f : Fld} (h : f.lo + fldWidth f ≤ 32) (e : Bool) : rdB (wr s b f e.toNat) b f = e := by
  cases e with
  | true => exact rdB_wr_one s b h
  | false => simp [rdB, rd_wr_self s b f 0 h]

/-- A bit of the mode as latched, where it is. -/
def latchedBit (s : State) (b : Nat) (f : Fld) (e : Option Bool) : State := e.elim s fun x => wr s b f x.toNat

theorem rdB_latchedBit (s : State) (b : Nat) {f : Fld} (h : f.lo + fldWidth f ≤ 32) (e : Option Bool) :
    rdB (latchedBit s b f e) b f = e.getD (rdB s b f) := by
  cases e with
  | none => rfl
  | some x => exact rdB_wr_bool s b h x

theorem rd_latchedBit_apart {f g : Fld} (h : fldsApart f g = true) (s : State) (b b' : Nat) (e : Option Bool) :
    rd (latchedBit s b f e) b' g = rd s b' g := by
  cases e with
  | none => rfl
  | some x => exact rd_wr_apart h s b b' _

/-- A latch of the mode alone. -/
theorem applyLatch_eq {s : State} {b : Nat} (h : (ctl s b).latchVals = []) : ∃ c, applyLatch s b =
    setCtl (latchedBit (latchedBit s b F.CONTROL_EXPERT (ctl s b).latchExpert) b F.CONTROL_FREEZE (ctl s b).latchFreeze) b c := by
  unfold applyLatch
  dsimp only
  rw [h]
  cases (ctl s b).latchExpert <;> cases (ctl s b).latchFreeze <;> exact ⟨_, rfl⟩

/-- What the latch of a mode change alone puts in force. -/
theorem applyLatch_mode {s : State} {b : Nat} (h : (ctl s b).latchVals = []) :
    rd (applyLatch s b) b F.CONTROL_ENABLE = rd s b F.CONTROL_ENABLE ∧
      rdB (applyLatch s b) b F.CONTROL_EXPERT = (ctl s b).latchExpert.getD (rdB s b F.CONTROL_EXPERT) ∧
      rdB (applyLatch s b) b F.CONTROL_FREEZE = (ctl s b).latchFreeze.getD (rdB s b F.CONTROL_FREEZE) := by
  obtain ⟨c, e⟩ := applyLatch_eq h
  rw [e]
  refine ⟨?_, ?_, ?_⟩
  · rw [rd_setCtl, rd_latchedBit_apart (by decide), rd_latchedBit_apart (by decide)]
  · rw [rdB, rd_setCtl, rd_latchedBit_apart (by decide)]
    exact rdB_latchedBit s b (by decide) _
  · rw [rdB, rd_setCtl]
    refine (rdB_latchedBit _ b (by decide) _).trans ?_
    rw [rdB, rd_latchedBit_apart (by decide), rdB]

/-- From `s` to `t` block `b` takes the mode EXPERT = `e`, FREEZE = `f`: at once where no boundary is to come, else at it. -/
structure ModeTaken (s t : State) (b : Nat) (e f : Bool) : Prop where
  enable : rd t b F.CONTROL_ENABLE = rd s b F.CONTROL_ENABLE
  now : noBoundary s = true → rdB t b F.CONTROL_EXPERT = e ∧ rdB t b F.CONTROL_FREEZE = f
  live : noBoundary s = false → rd t b F.CONTROL_EXPERT = rd s b F.CONTROL_EXPERT ∧ rd t b F.CONTROL_FREEZE = rd s b F.CONTROL_FREEZE
  latched : noBoundary s = false → (ctl t b).latchExpert.getD (rdB s b F.CONTROL_EXPERT) = e ∧
    (ctl t b).latchFreeze.getD (rdB s b F.CONTROL_FREEZE) = f

/-- The bits that the latch holds once a change to `e` enters it. -/
def latchWith (old e : Option Bool) : Option Bool := if e.isSome then e else old

theorem latchMode_taken {s : State} {b : Nat} (e f : Option Bool) (h : (ctl s b).latchVals = []) :
    ModeTaken s (latchMode s b e f []) b ((latchWith (ctl s b).latchExpert e).getD (rdB s b F.CONTROL_EXPERT))
      ((latchWith (ctl s b).latchFreeze f).getD (rdB s b F.CONTROL_FREEZE)) := by
  unfold latchMode
  extract_lets c c1 t
  have hc : ctl t b = c1 := ctl_setCtl_self s b c1
  have hn : noBoundary t = noBoundary s := rfl
  obtain ⟨he, hx, hf⟩ := applyLatch_mode (s := t) (b := b) (by rw [hc]; exact h)
  rw [hc] at hx hf
  cases hb : noBoundary s with
  | true =>
    rw [if_pos (hn.trans hb)]
    exact ⟨he, fun _ => ⟨hx, hf⟩, fun hf => (Bool.noConfusion (hb.symm.trans hf)), fun hf => (Bool.noConfusion (hb.symm.trans hf))⟩
  | false =>
    rw [if_neg (by rw [hn, hb]; simp)]
    refine ⟨rfl, fun hf => (Bool.noConfusion (hb.symm.trans hf)), fun _ => ⟨rfl, rfl⟩, fun _ => ?_⟩
    rw [hc]
    exact ⟨rfl, rfl⟩

/-- A write that names a bit of the mode latches it where it changes it. -/
theorem latchWith_change (old x : Bool) : (latchWith none (if some x = some old then none else some x)).getD old = x := by
  unfold latchWith
  split
  next h => simpa using h.symm
  next => rfl

theorem modeWrite_taken {s : State} {b : Nat} {names v : Word} (he : fldGet F.CONTROL_EXPERT names = 1) (hf : fldGet F.CONTROL_FREEZE names = 1)
    (h : (ctl s b).latchVals = []) :
    ModeTaken s (modeWrite s b names v) b (decide (fldGet F.CONTROL_EXPERT v = 1)) (decide (fldGet F.CONTROL_FREEZE v = 1)) := by
  unfold modeWrite
  simp only [he, hf, if_true]
  generalize decide (fldGet F.CONTROL_EXPERT v = 1) = x
  generalize decide (fldGet F.CONTROL_FREEZE v = 1) = y
  split
  next => exact latchMode_taken (some x) (some y) h
  next hp =>
    simp only [modePend, h, Bool.or_eq_true, Option.isSome_iff_ne_none, not_or, not_not] at hp
    obtain ⟨⟨hpe, hpf⟩, -⟩ := hp
    have hx := latchWith_change (rdB s b F.CONTROL_EXPERT) x
    have hy := latchWith_change (rdB s b F.CONTROL_FREEZE) y
    generalize (if some x = some (rdB s b F.CONTROL_EXPERT) then none else some x) = e at hx ⊢
    generalize (if some y = some (rdB s b F.CONTROL_FREEZE) then none else some y) = f at hy ⊢
    split
    next hn =>
      simp only [Bool.and_eq_true, Option.isNone_iff_eq_none] at hn
      obtain ⟨rfl, rfl⟩ := hn
      refine ⟨rfl, fun _ => ⟨hx, hy⟩, fun _ => ⟨rfl, rfl⟩, fun _ => ?_⟩
      rw [hpe, hpf]
      exact ⟨hx, hy⟩
    next =>
      have := latchMode_taken e f h
      rwa [hpe, hpf, hx, hy] at this

/-! ## A direct write of CONTROL -/

/-- The state in which the mode of a direct write of CONTROL is taken: ENABLE has its value already. -/
def enableSet (s : State) (b : Nat) (w : Word) : State :=
  applyWords (ungrouped s b) b [⟨stKey F.CONTROL_EXPERT.off 0, fldMask F.CONTROL_ENABLE, w⟩] false

theorem putMain_control {s : State} {r : Requester} {b : Nat} {k : Kind} {w : Word} (hk : kindOf b = some k)
    (hi : rd s b F.TXN_TSTATE = tsIdle) (hw : fldGet F.CONTROL_RESETREQ w = 0) :
    putMain s r b F.CONTROL_EXPERT.off w = lineFollow s (modeWrite (enableSet s b w) b (modeBits F.CONTROL_EXPERT.off) w) b := by
  have hm : hdrMask F.CONTROL_EXPERT.off .rws = fldMask F.CONTROL_ENABLE ||| modeBits F.CONTROL_EXPERT.off := by decide +kernel
  have hr : hdrMask F.CONTROL_EXPERT.off .rw = 0 := by decide +kernel
  have hc : hdrMask F.CONTROL_EXPERT.off .w1c = 0 := by decide +kernel
  have hz : rwWrite (rwsWrite s r b F.CONTROL_EXPERT.off 0 (hdrMask F.CONTROL_EXPERT.off .rws) w) r b F.CONTROL_EXPERT.off 0 0 w =
    rwsWrite s r b F.CONTROL_EXPERT.off 0 (hdrMask F.CONTROL_EXPERT.off .rws) w := if_pos rfl
  rw [putMain_hdr hk (by decide) (by decide) (by rw [hw]; simp), hr, hc, w1cWrite_zero, hz, writeDo_header _ _ _ _ (by decide) (by decide), hm,
    rwsWrite, if_neg (by decide), if_pos hi]
  dsimp only
  rw [mayBe_header s b 0 _ (by decide),
    show (fldMask F.CONTROL_ENABLE ||| modeBits F.CONTROL_EXPERT.off) &&& modeBits F.CONTROL_EXPERT.off = modeBits F.CONTROL_EXPERT.off by decide,
    show (fldMask F.CONTROL_ENABLE ||| modeBits F.CONTROL_EXPERT.off) &&& ~~~modeBits F.CONTROL_EXPERT.off = fldMask F.CONTROL_ENABLE by decide]
  rfl

theorem enableSet_regs (s : State) (b : Nat) (w : Word) : (enableSet s b w).blk = s.blk ∧ (enableSet s b w).regs =
    (regSet (ungrouped s b) b F.CONTROL_EXPERT.off 0
      (mergeBits (fldMask F.CONTROL_ENABLE) (regGet (ungrouped s b) b F.CONTROL_EXPERT.off 0) w)).regs := by
  have hh : headerWords [⟨stKey F.CONTROL_EXPERT.off 0, fldMask F.CONTROL_ENABLE, w⟩] := fun x hx => by
    rw [List.mem_singleton.1 hx, (stKey_div (by decide)).1]
    decide
  obtain ⟨hr, hb⟩ := applyWords_header hh (ungrouped s b) b
  refine ⟨hb.trans (ungrouped_blk s b), hr.trans ?_⟩
  obtain ⟨hd, hm⟩ := stKey_div (off := F.CONTROL_EXPERT.off) (idx := 0) (by decide)
  rw [setWords, forEach_cons]
  simp only [hd, hm]
  rfl

/-- ENABLE takes its value, and every other field that leaving the promise does not show stays. -/
theorem rd_enableSet_self (s : State) (b : Nat) (w : Word) : rd (enableSet s b w) b F.CONTROL_ENABLE = fldGet F.CONTROL_ENABLE w := by
  rw [rd_congr (enableSet_regs s b w).2, rd, rdI, show F.CONTROL_ENABLE.off = F.CONTROL_EXPERT.off from rfl, regGet_regSet_self]
  exact fldGet_mergeBits (by decide) _ w

theorem fldGet_mergeBits_apart {f : Fld} {m : Word} (h : m &&& fldMask f = 0) (w v : Word) : fldGet f (mergeBits m w v) = fldGet f w := by
  apply Nat.eq_of_testBit_eq
  intro i
  rw [fldGet_testBit, fldGet_testBit]
  by_cases hi : i < fldWidth f ∧ f.lo + i < 32
  · have hm : m.getLsbD (f.lo + i) = false := by
      have : (m &&& fldMask f).getLsbD (f.lo + i) = false := by
        rw [h]
        exact BitVec.getLsbD_zero
      rw [BitVec.getLsbD_and, fldMask_bit] at this
      simpa [hi] using this
    rw [BitVec.getLsbD_eq_getElem hi.2] at hm
    simp [mergeBits, hm, hi.2]
  · by_cases hw : i < fldWidth f
    · have hl : 32 ≤ f.lo + i := by omega
      simp [BitVec.getLsbD_of_ge _ _ hl]
    · simp [hw]

theorem rd_enableSet_apart {g : Fld} (hg : ∀ f ∈ F.CONTROL_ENABLE :: detShows, fldsApart f g = true)
    (hm : g.off = F.CONTROL_EXPERT.off → fldMask F.CONTROL_ENABLE &&& fldMask g = 0) (s : State) (b b' : Nat) (w : Word) :
    rd (enableSet s b w) b' g = rd s b' g := by
  rw [List.forall_mem_cons] at hg
  rw [rd_congr (enableSet_regs s b w).2, ← rd_ungrouped_apart hg.2 s b b', rd, rdI, rd, rdI]
  by_cases h : b' = b ∧ g.off = F.CONTROL_EXPERT.off
  · obtain ⟨rfl, ho⟩ := h
    rw [ho, regGet_regSet_self]
    exact fldGet_mergeBits_apart (hm ho) _ w
  · have : g.off < 4096 := by
      have := hg.1
      simp only [fldsApart, Bool.and_eq_true, decide_eq_true_eq] at this
      exact this.1.1.2
    rw [regGet_regSet_ne]
    exact regKey_ne this (by decide) (by decide) (by decide) (by tauto)

/-- A bit that a write of the mode takes has the value written. -/
theorem rd_of_rdB {s : State} {b : Nat} {f : Fld} {w : Word} (hf : fldWidth f = 1) (h : rdB s b f = decide (fldGet f w = 1)) :
    rd s b f = fldGet f w := by
  have h1 : rd s b f < 2 ^ fldWidth f := fldGet_lt f _
  have h2 := fldGet_lt f w
  rw [hf] at h1 h2
  rw [rdB, Bool.eq_iff_iff, beq_iff_eq, decide_eq_true_eq] at h
  omega

/-- A direct write of CONTROL outside a transaction (R31, R64). -/
theorem modeChange_written {r : Requester} {b : Nat} {v : Word} {s : State}
    (hp : performed s r b F.CONTROL_EXPERT.off true (fldSet F.CONTROL_RESETREQ v 0) = true) (hi : rd s b F.TXN_TSTATE = tsIdle)
    (hl : (ctl s b).latchVals = []) : ∃ t, exec (.modeChangeWrite r b v) s = .next t ∧ okResp r 0 ∈ t.out ∧
      rd t b F.CONTROL_ENABLE = fldGet F.CONTROL_ENABLE v ∧
      (noBoundary s = true → rd t b F.CONTROL_EXPERT = fldGet F.CONTROL_EXPERT v ∧ rd t b F.CONTROL_FREEZE = fldGet F.CONTROL_FREEZE v) ∧
      (noBoundary s = false → rd t b F.CONTROL_EXPERT = rd s b F.CONTROL_EXPERT ∧ rd t b F.CONTROL_FREEZE = rd s b F.CONTROL_FREEZE ∧
        (ctl t b).latchExpert.getD (rdB s b F.CONTROL_EXPERT) = decide (fldGet F.CONTROL_EXPERT v = 1) ∧
        (ctl t b).latchFreeze.getD (rdB s b F.CONTROL_FREEZE) = decide (fldGet F.CONTROL_FREEZE v = 1)) := by
  obtain ⟨k, hk⟩ := kindOf_of_performed hp
  have hex : exec (.modeChangeWrite r b v) s = .next (send (putMain (windowClose s) r b F.CONTROL_EXPERT.off (fldSet F.CONTROL_RESETREQ v 0))
    .resp (tagOf r) [1, 0]) := congrArg Host.Outcome.next (busWrite_performed .main hp)
  have hv : ∀ f ∈ [F.CONTROL_ENABLE, F.CONTROL_EXPERT, F.CONTROL_FREEZE], fldGet f (fldSet F.CONTROL_RESETREQ v 0) = fldGet f v := by
    intro f hf
    refine fldGet_fldSet_disjoint _ f v 0 ?_ ?_ <;> revert f <;> decide
  simp only [List.forall_mem_cons] at hv
  obtain ⟨hve, hvx, hvf, -⟩ := hv
  have hw : fldGet F.CONTROL_RESETREQ (fldSet F.CONTROL_RESETREQ v 0) = 0 := fldGet_fldSet_self _ v 0 (by decide)
  generalize fldSet F.CONTROL_RESETREQ v 0 = w at hex hve hvx hvf hw
  rw [putMain_control hk (by rwa [rd_windowClose]) hw] at hex
  set u := enableSet (windowClose s) b w with hu
  have hc : ctl u b = ctl s b := by rw [ctl, (enableSet_regs (windowClose s) b w).1, windowClose_blk, ctl]
  have apart : ∀ g ∈ [F.CONTROL_EXPERT, F.CONTROL_FREEZE, F.BEAT_STATUS_STATE], ∀ b', rd u b' g = rd s b' g := by
    intro g hg b'
    refine (rd_enableSet_apart ?_ ?_ (windowClose s) b b' w).trans (rd_windowClose s b' g) <;> revert g <;> decide
  simp only [List.forall_mem_cons] at apart
  obtain ⟨hux, huf, hus, -⟩ := apart
  have hn : noBoundary u = noBoundary s := noBoundary_congr (hus bBeat)
  have hx : rdB u b F.CONTROL_EXPERT = rdB s b F.CONTROL_EXPERT := by rw [rdB, rdB, hux]
  have hf : rdB u b F.CONTROL_FREEZE = rdB s b F.CONTROL_FREEZE := by rw [rdB, rdB, huf]
  have ht : ModeTaken u (modeWrite u b (modeBits F.CONTROL_EXPERT.off) w) b _ _ := modeWrite_taken (by decide) (by decide) (by rw [hc, hl])
  obtain ⟨he, hnow, hlive, hlat⟩ := ht
  rw [hn] at hnow hlive hlat
  obtain ⟨o, e⟩ := lineFollow_frame (windowClose s) (modeWrite u b (modeBits F.CONTROL_EXPERT.off) w) b
  rw [e] at hex
  refine ⟨_, hex, okResp_mem_send _ r 0, ?_, fun h => ⟨?_, ?_⟩, fun h => ⟨?_, ?_, ?_, ?_⟩⟩
  · exact (he.trans (rd_enableSet_self (windowClose s) b w)).trans hve
  · exact (rd_of_rdB rfl (hnow h).1).trans hvx
  · exact (rd_of_rdB rfl (hnow h).2).trans hvf
  · exact (hlive h).1.trans (hux b)
  · exact (hlive h).2.trans (huf b)
  · rw [← hx, ← hvx]
    exact (hlat h).1
  · rw [← hf, ← hvf]
    exact (hlat h).2

/-- Settles O5: RESET_REQ, BLOCK_RESET_DONE and the mode. -/
theorem resetsAndModes : Obligations.ResetsAndModes := by
  refine ⟨fun r b s => ⟨resetReq_begins, resetReq_ignored, resetDone_ready, fun hr ho _ => resetDone_released hr ho, resetDone_ignored⟩, ?_⟩
  intro r b v s w hp hi hl
  exact modeChange_written hp hi hl

end Sys2Proof.Machine
end

section
/-!
PROOFS. Group slots (R65 to R70): OP of TGCTL, the answers of the members, and O6.
-/

namespace Sys2Proof.Machine

/-! ## Slots -/

theorem slot_modSlot_self (s : State) (i : Nat) (f : GroupSlot → GroupSlot) : slot (modSlot s i f) i = f (slot s i) :=
  tabGet_tabSet_self GroupSlot.reset (f (slot s i)) s.beat.slots i

theorem slot_modSlot_ne (s : State) {i j : Nat} (f : GroupSlot → GroupSlot) (h : j ≠ i) : slot (modSlot s i f) j = slot s j :=
  tabGet_tabSet_ne _ _ _ _ h

/-- A change that leaves `φ` of a slot leaves it of every slot. -/
theorem slot_modSlot_keeps {α : Type} (φ : GroupSlot → α) {f : GroupSlot → GroupSlot} (h : ∀ g, φ (f g) = φ g) (s : State) (i j : Nat) :
    φ (slot (modSlot s i f) j) = φ (slot s j) := by
  by_cases hj : j = i
  · rw [hj, slot_modSlot_self, h]
  · rw [slot_modSlot_ne s f hj]

theorem slot_congr {s t : State} (h : t.beat = s.beat) (i : Nat) : slot t i = slot s i := by rw [slot, h, slot]

/-! ## OP of TGCTL -/

/-- `t` has the registers, the controls and the beat of `s`, and slots that read the same. -/
structure SlotsAs (s t : State) : Prop where
  regs : t.regs = s.regs
  blk : t.blk = s.blk
  num : t.beat.n = s.beat.n
  slots : ∀ i, slot t i = slot s i

theorem slotsAs_modSlot {s : State} {i : Nat} {f : GroupSlot → GroupSlot} (h : f (slot s i) = slot s i) : SlotsAs s (modSlot s i f) where
  regs := rfl
  blk := rfl
  num := rfl
  slots := fun j => by
    by_cases hj : j = i
    · rw [hj, slot_modSlot_self, h]
    · exact slot_modSlot_ne s f hj

/-- A write of COUNT by the owner that leaves the count. -/
theorem slotsAs_slotWrite {s : State} {tag n : Nat} (ho : (slot s (slotSel s)).owner = some tag) (hs : (slot s (slotSel s)).state ≠ .free)
    (hn : (slot s (slotSel s)).count = n) : SlotsAs s (slotWrite s tag true (fun g => { g with count := n })) := by
  refine slotsAs_modSlot ?_
  generalize slot s (slotSel s) = g at ho hs hn
  obtain ⟨state, owner, count⟩ := g
  subst hn ho
  cases state with
  | free => exact absurd rfl hs
  | building => rfl
  | armed => rfl
  | preparing => rfl
  | committed => rfl
  | rolledBack => rfl
  | partly => rfl

/-- TGCTL shows the count of the selected slot. -/
theorem viewWord_tgctl (s : State) (r : Requester) :
    fldGet F.BEAT_TGCTL_COUNT (viewWord s r bBeat F.BEAT_TGCTL_COUNT.off) = (slot s (slotSel s)).count % 128 := by
  have h : (viewFields s (tagOf r) bBeat).filter (fun x => x.1.off = F.BEAT_TGCTL_COUNT.off) =
      [(F.BEAT_TGCTL_COUNT, (slot s (slotSel s)).count)] := rfl
  rw [viewWord, h]
  exact fldGet_fldSet_self F.BEAT_TGCTL_COUNT _ _ (by decide)

theorem tgctl_masks : codeMask .beat F.BEAT_TGCTL_OP.off .rws = 0 ∧ codeMask .beat F.BEAT_TGCTL_OP.off .w1c = 0 ∧
    codeMask .beat F.BEAT_TGCTL_OP.off .w1s = 0 ∧ codeMask .beat F.BEAT_TGCTL_OP.off .rw = fldMask F.BEAT_TGCTL_COUNT := by decide +kernel

/-- A main-page write of TGCTL writes COUNT and does what OP says. -/
theorem putMain_tgctl (s : State) (r : Requester) (v : Word) (hc : fldGet F.BEAT_TGCTL_COUNT v ≤ 64) : putMain s r bBeat F.BEAT_TGCTL_OP.off v =
    lineFollow s (slotOp (slotWrite s (tagOf r) true (fun g => { g with count := fldGet F.BEAT_TGCTL_COUNT v })) (v.toNat % 4)) bBeat := by
  obtain ⟨hs, h1, h2, hw⟩ := tgctl_masks
  rw [putMain_unguarded (k := .beat) rfl (by decide +kernel) rfl (by decide), hs, h1, h2, hw, rwsWrite_zero, w1cWrite_zero, w1sWrite_zero]
  have hv : fldGet F.BEAT_TGCTL_COUNT (mergeBits (fldMask F.BEAT_TGCTL_COUNT) (viewWord s r bBeat F.BEAT_TGCTL_OP.off) v) =
      fldGet F.BEAT_TGCTL_COUNT v := fldGet_mergeBits (by decide) _ v
  have hrw : rwWrite s r bBeat F.BEAT_TGCTL_OP.off (selIndex s r bBeat F.BEAT_TGCTL_OP.off) (fldMask F.BEAT_TGCTL_COUNT) v =
      slotWrite s (tagOf r) true (fun g => { g with count := fldGet F.BEAT_TGCTL_COUNT v }) := by
    unfold rwWrite
    rw [if_neg (by decide)]
    have hb : beatRw s (tagOf r) F.BEAT_TGCTL_OP.off (mergeBits (fldMask F.BEAT_TGCTL_COUNT) (viewWord s r bBeat F.BEAT_TGCTL_OP.off) v) =
        some (slotWrite s (tagOf r) true (fun g => { g with count := fldGet F.BEAT_TGCTL_COUNT v })) := by
      unfold beatRw
      rw [if_pos (by rfl)]
      dsimp only
      rw [hv, if_pos hc]
    simp only [show kindOf bBeat = some .beat from rfl, hb]
  rw [hrw]
  rfl

theorem slot_windowClose_keeps {α : Type} (φ : GroupSlot → α) (h : ∀ g, φ { g with state := .committed, window := false } = φ g) (s : State)
    (j : Nat) : φ (slot (windowClose s) j) = φ (slot s j) :=
  forEach_keeps (fun s => φ (slot s j)) (fun i s => slot_modSlot_keeps φ h s i j) _ s

theorem slotSel_congr {s t : State} (h : t.regs = s.regs) : slotSel t = slotSel s := rd_congr h _ _

theorem slotSel_lt (s : State) : slotSel s < 32 := fldGet_lt F.BEAT_TGSEL_SLOT _

/-- OP of TGCTL by the owner of the selected slot. -/
theorem fieldWrite_tgctl {s : State} {r : Requester} {op : Nat} (h : fieldPerformed s r bBeat F.BEAT_TGCTL_OP op = true) (ho : op < 4)
    (hown : (slot (windowClose s) (slotSel s)).owner = some (tagOf r)) (hc : (slot (windowClose s) (slotSel s)).count ≤ 64)
    (hst : (slot (windowClose s) (slotSel s)).state ≠ .free) : ∃ u o, SlotsAs (windowClose s) u ∧ okResp r 0 ∈ o ∧
      fieldWrite s r bBeat F.BEAT_TGCTL_OP op = { slotOp u op with out := o } := by
  have hcount : (slot (windowClose s) (slotSel s)).count = (slot s (slotSel s)).count :=
    slot_windowClose_keeps GroupSlot.count (fun _ => rfl) s _
  have hsel : slotSel (windowClose s) = slotSel s := slotSel_congr (windowClose_regs s)
  have hop : (withField s r bBeat F.BEAT_TGCTL_OP op).toNat % 4 = op := by
    have := fldGet_withField s r bBeat F.BEAT_TGCTL_OP op (by decide)
    rw [show 2 ^ fldWidth F.BEAT_TGCTL_OP = 4 from rfl, Nat.mod_eq_of_lt ho] at this
    simpa [fldGet, fldWidth] using this
  have hv : fldGet F.BEAT_TGCTL_COUNT (withField s r bBeat F.BEAT_TGCTL_OP op) = (slot (windowClose s) (slotSel s)).count := by
    rw [withField, fldGet_fldSet_disjoint _ _ _ _ (by decide) (by decide), hcount]
    exact (viewWord_tgctl s r).trans (Nat.mod_eq_of_lt (by omega))
  rw [fieldWrite_performed h, putMain_tgctl _ r _ (by rw [hv]; exact hc), hop, hv]
  have hu := slotsAs_slotWrite (s := windowClose s) (tag := tagOf r) (n := (slot (windowClose s) (slotSel s)).count)
    (by rwa [hsel]) (by rwa [hsel]) (by rw [hsel])
  generalize slotWrite (windowClose s) (tagOf r) true _ = u at hu ⊢
  obtain ⟨o, e⟩ := lineFollow_frame (windowClose s) (slotOp u op) bBeat
  exact ⟨u, _, hu, okResp_mem_send _ r 0, by rw [e]; rfl⟩

/-! ## ARM, CANCEL, RELEASE -/

/-- A write of TXN of one block leaves those of the others. -/
theorem rd_wr_pair_block {b b' : Nat} (h : b' ≠ b) {s : State} {v w : Nat} {g : Fld} (hg : g.off < 4096 := by decide) :
    rd (wr (wr s b F.TXN_TSTATE v) b F.TXN_GROUP w) b' g = rd s b' g := by
  rw [rd_wr_block _ _ (by decide) hg h, rd_wr_block _ _ (by decide) hg h]

theorem armFail_congr {s t : State} (h : SlotsAs s t) (i : Nat) : armFail t i = armFail s i := by
  unfold armFail armedMates groupOf slotHead tagMayWrite
  simp only [h.slots, h.num, rd_congr h.regs]

/-- A slot that fails a check of ARM records it. -/
theorem slotArm_fails {s : State} {i c x : Nat} (hs : (slot s i).state = .building) (h : armFail s i = some (c, x)) :
    (slot (slotArm s i) i).state = .building ∧ (slot (slotArm s i) i).code = c ∧ (slot (slotArm s i) i).block = x ∧
      (slotArm s i).regs = s.regs := by
  have e : slotArm s i = modSlot s i (fun g => { g with code := c, block := x }) := by
    unfold slotArm
    rw [if_neg (not_not.2 hs), h]
  rw [e, slot_modSlot_self]
  exact ⟨hs, rfl, rfl, rfl⟩

/-- A slot that passes every check of ARM is ARMED, and its members PENDING. -/
theorem slotArm_passes {s : State} {i : Nat} (hi : i < 32) (hs : (slot s i).state = .building) (h : armFail s i = none) :
    (slot (slotArm s i) i).state = .armed ∧ (slot (slotArm s i) i).code = 0 ∧ (slot (slotArm s i) i).blocks = (slot s i).blocks ∧
      ∀ b ∈ (slot s i).blocks, rd (slotArm s i) b F.TXN_TSTATE = tsPending ∧ rd (slotArm s i) b F.TXN_GROUP = i := by
  have e : slotArm s i = modSlot (forEach (slot s i).blocks (fun b s => wr (wr s b F.TXN_TSTATE tsPending) b F.TXN_GROUP i) s) i
      (fun g => { g with state := .armed, code := 0, block := 0 }) := by
    unfold slotArm
    rw [if_neg (not_not.2 hs), h]
  have hb : (forEach (slot s i).blocks (fun b s => wr (wr s b F.TXN_TSTATE tsPending) b F.TXN_GROUP i) s).beat = s.beat :=
    forEach_keeps (f := fun b s => wr (wr s b F.TXN_TSTATE tsPending) b F.TXN_GROUP i) (fun s => s.beat) (fun _ _ => rfl) _ s
  rw [e, slot_modSlot_self, slot_congr hb]
  refine ⟨rfl, rfl, rfl, fun b hm => ?_⟩
  have self : ∀ s, rd (wr (wr s b F.TXN_TSTATE tsPending) b F.TXN_GROUP i) b F.TXN_TSTATE = tsPending ∧
      rd (wr (wr s b F.TXN_TSTATE tsPending) b F.TXN_GROUP i) b F.TXN_GROUP = i := fun s => by
    rw [rd_wr_apart (g := F.TXN_TSTATE) (by decide), rd_wr_self _ _ _ _ (by decide), rd_wr_self _ _ _ _ (by decide)]
    exact ⟨rfl, Nat.mod_eq_of_lt (lt_of_lt_of_le hi (by decide))⟩
  refine forEach_reaches (fun _ => True) (fun s => rd s b F.TXN_TSTATE = tsPending ∧ rd s b F.TXN_GROUP = i)
    (fun _ _ h => h) (fun a s h => ?_) (fun s _ => self s) hm trivial
  by_cases hab : b = a
  · rw [← hab]
    exact self s
  · rw [rd_wr_pair_block hab, rd_wr_pair_block hab]
    exact h

/-- What CANCEL does to a member of slot `i`. -/
def memberFree (s : State) (i b : Nat) : State :=
  if rd s b F.TXN_TSTATE = tsPending ∧ rd s b F.TXN_GROUP = i then wr (wr s b F.TXN_TSTATE tsOpen) b F.TXN_GROUP 0 else s

theorem memberFree_frame (s : State) (i b : Nat) : (memberFree s i b).beat = s.beat ∧ (memberFree s i b).blk = s.blk := by
  unfold memberFree
  split <;> exact ⟨rfl, rfl⟩

theorem rd_memberFree_ne (s : State) (i : Nat) {b b' : Nat} (h : b' ≠ b) {g : Fld} (hg : g.off < 4096) :
    rd (memberFree s i b) b' g = rd s b' g := by
  unfold memberFree
  split
  · exact rd_wr_pair_block h hg
  · rfl

/-- Member `b` waits in the group of slot `i`, or is open again. -/
def waitsOrOpen (i b : Nat) (s : State) : Prop :=
  (rd s b F.TXN_TSTATE = tsPending ∧ rd s b F.TXN_GROUP = i) ∨ rd s b F.TXN_TSTATE = tsOpen

theorem memberFree_open {s : State} {i b : Nat} (h : waitsOrOpen i b s) : rd (memberFree s i b) b F.TXN_TSTATE = tsOpen := by
  unfold memberFree
  obtain h | h := h
  · rw [if_pos h, rd_wr_apart (by decide), rd_wr_self _ _ _ _ (by decide)]
    rfl
  · rw [if_neg fun hp => absurd (h.symm.trans hp.1) (by decide)]
    exact h

/-- CANCEL of an ARMED slot. -/
theorem slotCancel_armed {s : State} {i : Nat} (hs : (slot s i).state = .armed) : (slot (slotCancel s i) i).state = .building ∧
    (slotCancel s i).blk = s.blk ∧ ∀ b ∈ (slot s i).blocks, rd s b F.TXN_TSTATE = tsPending → rd s b F.TXN_GROUP = i →
      rd (slotCancel s i) b F.TXN_TSTATE = tsOpen := by
  have e : slotCancel s i = modSlot (forEach (slot s i).blocks (fun b s => memberFree s i b) s) i
      (fun g => { g with state := .building, code := 0, block := 0 }) := by
    unfold slotCancel
    rw [hs]
    rfl
  have hb : (forEach (slot s i).blocks (fun b s => memberFree s i b) s).blk = s.blk :=
    forEach_keeps (fun s => s.blk) (fun b s => (memberFree_frame s i b).2) _ s
  rw [e, slot_modSlot_self]
  refine ⟨rfl, hb, fun b hm ht hg => ?_⟩
  refine forEach_reaches (waitsOrOpen i b) (fun s => rd s b F.TXN_TSTATE = tsOpen) (fun a s h => ?_) (fun a s h => ?_)
    (fun s h => memberFree_open h) hm (.inl ⟨ht, hg⟩)
  · by_cases hab : b = a
    · rw [← hab]
      exact .inr (memberFree_open h)
    · rwa [waitsOrOpen, rd_memberFree_ne s i hab (by decide), rd_memberFree_ne s i hab (by decide)]
  · by_cases hab : b = a
    · rw [← hab]
      exact memberFree_open (.inr h)
    · rwa [rd_memberFree_ne s i hab (by decide)]

/-- CANCEL is refused while PREPARING. -/
theorem slotCancel_preparing {s : State} {i : Nat} (hs : (slot s i).state = .preparing) :
    (slot (slotCancel s i) i).state = .preparing ∧ (slot (slotCancel s i) i).code = 0x30 := by
  have e : slotCancel s i = modSlot s i (fun g => { g with code := 0x30 }) := by
    unfold slotCancel
    rw [hs]
  rw [e, slot_modSlot_self]
  exact ⟨hs, rfl⟩

/-- RELEASE frees a slot that has ended. -/
theorem slotRelease_ended {s : State} {i : Nat} (hs : (slot s i).state = .committed ∨ (slot s i).state = .rolledBack ∨ (slot s i).state = .partly) :
    slot (slotRelease s i) i = GroupSlot.reset := by
  have e : slotRelease s i = modSlot s i (fun _ => GroupSlot.reset) := by
    unfold slotRelease
    obtain h | h | h := hs <;> rw [h]
  rw [e, slot_modSlot_self]

/-! ## The answers of the members -/

theorem groupOf_congr {s t : State} (h : ∀ i, (slot t i).state = (slot s i).state ∧ (slot t i).linked = (slot s i).linked ∧
    (slot t i).head = (slot s i).head) (i : Nat) (st : SlotState) : groupOf t (slotHead t i) st = groupOf s (slotHead s i) st := by
  have h1 := fun i => (h i).1
  have h2 := fun i => (h i).2.1
  have h3 := fun i => (h i).2.2
  unfold groupOf slotHead
  simp only [h1, h2, h3]

/-- The slot notes the answer of member `b`. -/
def answerNoted (s : State) (i b : Nat) : State := modSlot s i (fun x => { x with accepted := x.accepted ++ [b] })

theorem slot_answerNoted {α : Type} (φ : GroupSlot → α) (h : ∀ g xs, φ { g with accepted := xs } = φ g) (s : State) (i b j : Nat) :
    φ (slot (answerNoted s i b) j) = φ (slot s j) := slot_modSlot_keeps φ (fun g => h g _) s i j

theorem groupOf_answerNoted (s : State) (i b : Nat) (st : SlotState) :
    groupOf (answerNoted s i b) (slotHead (answerNoted s i b) i) st = groupOf s (slotHead s i) st := by
  refine groupOf_congr (fun j => ⟨?_, ?_, ?_⟩) i st
  · exact slot_answerNoted GroupSlot.state (fun _ _ => rfl) s i b j
  · exact slot_answerNoted GroupSlot.linked (fun _ _ => rfl) s i b j
  · exact slot_answerNoted GroupSlot.head (fun _ _ => rfl) s i b j

/-- Once every member has accepted, the apply window of the group is open. -/
theorem groupApply_window (s : State) (i : Nat) {j : Nat} (hj : j ∈ groupOf s (slotHead s i) .preparing) :
    (slot (groupApply s i) j).window = true := by
  unfold groupApply
  refine forEach_reaches (fun _ => True) (fun s => (slot s j).window = true) (fun _ _ h => h) (fun a s h => ?_) (fun s _ => ?_) hj trivial
  · by_cases ha : j = a
    · rw [ha, slot_modSlot_self]
    · rwa [slot_modSlot_ne _ _ ha]
  · rw [slot_modSlot_self]

theorem slotDiscard_beat (s : State) (i : Nat) (keep : Option Nat) : (slotDiscard s i keep).beat = s.beat := by
  unfold slotDiscard
  refine forEach_keeps (fun s => s.beat) (fun b s => ?_) _ s
  split <;> rfl

theorem slot_slotRollback_self (s : State) (i code blk : Nat) (keep : Option Nat) : (slot (slotRollback s i code blk keep) i).state = .rolledBack := by
  rw [slotRollback, slot_modSlot_self]

theorem slot_slotRollback_ne (s : State) {i j : Nat} (code blk : Nat) (keep : Option Nat) (h : j ≠ i) :
    slot (slotRollback s i code blk keep) j = slot s j := by
  rw [slotRollback, slot_modSlot_ne _ _ h, slot_congr (slotDiscard_beat s i keep)]

/-- One round of a group that fails. -/
theorem groupFail_round (s : State) (i j code blk : Nat) (keep : Option Nat) : ∃ c x,
    (if j = i then slotRollback s j code blk keep else slotRollback s j 0x24 0 keep) = slotRollback s j c x keep := by
  split
  · exact ⟨_, _, rfl⟩
  · exact ⟨_, _, rfl⟩

/-- A group that fails is rolled back. -/
theorem groupFail_rolledBack (s : State) (i code blk : Nat) (keep : Option Nat) {j : Nat} (hj : j ∈ groupOf s (slotHead s i) .preparing) :
    (slot (groupFail s i code blk keep) j).state = .rolledBack := by
  unfold groupFail
  refine forEach_reaches (fun _ => True) (fun s => (slot s j).state = .rolledBack) (fun _ _ h => h) (fun a s h => ?_) (fun s _ => ?_) hj trivial
  · obtain ⟨c, x, e⟩ := groupFail_round s i a code blk keep
    rw [e]
    by_cases ha : j = a
    · rw [ha, slot_slotRollback_self]
    · rwa [slot_slotRollback_ne _ _ _ _ ha]
  · obtain ⟨c, x, e⟩ := groupFail_round s i j code blk keep
    rw [e, slot_slotRollback_self]

section
variable {s : State} {i b : Nat} (hs : (slot s i).state = .preparing) (hw : (slot s i).window = false) (hb : b ∈ (slot s i).blocks)
  (ha : b ∉ (slot s i).accepted)
include hs hw hb ha

theorem prepareAnswer_awaited : prepareAnswer s i b =
    if rd s b F.TXN_TSTATE = tsPending ∧ rd s b F.TXN_GROUP = i ∧ commitCheck s b true then
      if allAccepted (answerNoted s i b) i then groupApply (answerNoted s i b) i else answerNoted s i b
    else groupFail s i 0x20 b (some b) := by
  unfold prepareAnswer
  exact if_neg (by simp [hs, hw, hb, ha])

theorem prepareTimeout_awaited : prepareTimeout s i b = groupFail s i 0x21 b none := by
  unfold prepareTimeout
  exact if_pos (by simp [hs, hw, hb, ha])

/-- A member that accepts while others have yet to. -/
theorem prepareAnswer_noted (ht : rd s b F.TXN_TSTATE = tsPending) (hg : rd s b F.TXN_GROUP = i) (hc : commitCheck s b true = true)
    (hn : allAccepted (answerNoted s i b) i = false) : prepareAnswer s i b = answerNoted s i b := by
  rw [prepareAnswer_awaited hs hw hb ha, if_pos ⟨ht, hg, hc⟩, if_neg (by simp [hn])]

/-- The last member that accepts opens the apply window. -/
theorem prepareAnswer_last (ht : rd s b F.TXN_TSTATE = tsPending) (hg : rd s b F.TXN_GROUP = i) (hc : commitCheck s b true = true)
    (hn : allAccepted (answerNoted s i b) i = true) {j : Nat} (hj : j ∈ groupOf s (slotHead s i) .preparing) :
    (slot (prepareAnswer s i b) j).window = true := by
  rw [prepareAnswer_awaited hs hw hb ha, if_pos ⟨ht, hg, hc⟩, if_pos hn]
  exact groupApply_window _ i (by rwa [groupOf_answerNoted])

/-- A member that refuses rolls the group back. -/
theorem prepareAnswer_refused (hc : commitCheck s b true = false) {j : Nat} (hj : j ∈ groupOf s (slotHead s i) .preparing) :
    (slot (prepareAnswer s i b) j).state = .rolledBack := by
  rw [prepareAnswer_awaited hs hw hb ha, if_neg (by simp [hc])]
  exact groupFail_rolledBack s i _ _ _ hj

/-- A member that is late rolls the group back. -/
theorem prepareTimeout_rolledBack {j : Nat} (hj : j ∈ groupOf s (slotHead s i) .preparing) :
    (slot (prepareTimeout s i b) j).state = .rolledBack := by
  rw [prepareTimeout_awaited hs hw hb ha]
  exact groupFail_rolledBack s i _ _ _ hj

end

/-! ## The commands -/

section
variable {r : Requester} {s : State} (hown : (slot (windowClose s) (slotSel s)).owner = some (tagOf r))
  (hcount : (slot (windowClose s) (slotSel s)).count ≤ 64)
include hown hcount

theorem exec_arm (h : fieldPerformed s r bBeat F.BEAT_TGCTL_OP 1 = true) (hs : (slot (windowClose s) (slotSel s)).state = .building) :
    (armFail (windowClose s) (slotSel s) = none → ∃ t, exec (.arm r) s = .next t ∧ okResp r 0 ∈ t.out ∧ (slot t (slotSel s)).state = .armed ∧
      (slot t (slotSel s)).code = 0 ∧ (slot t (slotSel s)).blocks = (slot (windowClose s) (slotSel s)).blocks ∧
      ∀ b ∈ (slot (windowClose s) (slotSel s)).blocks, rd t b F.TXN_TSTATE = tsPending ∧ rd t b F.TXN_GROUP = slotSel s) ∧
    (∀ c x, armFail (windowClose s) (slotSel s) = some (c, x) → ∃ t, exec (.arm r) s = .next t ∧ (slot t (slotSel s)).state = .building ∧
      (slot t (slotSel s)).code = c ∧ (slot t (slotSel s)).block = x ∧ ∀ b, rd t b F.TXN_TSTATE = rd s b F.TXN_TSTATE) := by
  obtain ⟨u, o, hu, ho, e⟩ := fieldWrite_tgctl h (by decide) hown hcount (by rw [hs]; simp)
  have he : exec (.arm r) s = .next { slotOp u 1 with out := o } := congrArg Host.Outcome.next e
  have hop : slotOp u 1 = slotArm u (slotSel s) := by
    rw [← (slotSel_congr hu.regs).trans (slotSel_congr (windowClose_regs s))]
    rfl
  rw [hop] at he
  rw [← armFail_congr hu, ← hu.slots] at *
  refine ⟨fun ha => ?_, fun c x ha => ?_⟩
  · obtain ⟨h1, h2, h3, h4⟩ := slotArm_passes (slotSel_lt s) hs ha
    exact ⟨_, he, ho, h1, h2, h3, h4⟩
  · obtain ⟨h1, h2, h3, h4⟩ := slotArm_fails hs ha
    exact ⟨_, he, h1, h2, h3, fun b => (rd_congr (h4.trans hu.regs) b _).trans (rd_windowClose s b _)⟩

theorem exec_cancel (h : fieldPerformed s r bBeat F.BEAT_TGCTL_OP 2 = true) :
    ((slot (windowClose s) (slotSel s)).state = .armed → ∃ t, exec (.cancel r) s = .next t ∧ okResp r 0 ∈ t.out ∧
      (slot t (slotSel s)).state = .building ∧ ∀ b ∈ (slot (windowClose s) (slotSel s)).blocks, rd s b F.TXN_TSTATE = tsPending →
        rd s b F.TXN_GROUP = slotSel s → rd t b F.TXN_TSTATE = tsOpen ∧ ctl t b = ctl s b) ∧
    ((slot (windowClose s) (slotSel s)).state = .preparing → ∃ t, exec (.cancel r) s = .next t ∧ (slot t (slotSel s)).state = .preparing ∧
      (slot t (slotSel s)).code = 0x30) := by
  have key : (slot (windowClose s) (slotSel s)).state ≠ .free → ∃ u o, SlotsAs (windowClose s) u ∧ okResp r 0 ∈ o ∧
      exec (.cancel r) s = .next { slotCancel u (slotSel s) with out := o } := fun hs => by
    obtain ⟨u, o, hu, ho, e⟩ := fieldWrite_tgctl h (by decide) hown hcount hs
    refine ⟨u, o, hu, ho, ?_⟩
    rw [← (slotSel_congr hu.regs).trans (slotSel_congr (windowClose_regs s))]
    exact congrArg Host.Outcome.next e
  refine ⟨fun hs => ?_, fun hs => ?_⟩
  · obtain ⟨u, o, hu, ho, he⟩ := key (by rw [hs]; simp)
    rw [← hu.slots] at hs
    obtain ⟨h1, h2, h3⟩ := slotCancel_armed hs
    refine ⟨_, he, ho, h1, fun b hb ht hg => ⟨?_, ?_⟩⟩
    · rw [← hu.slots] at hb
      refine h3 b hb ?_ ?_ <;> rwa [rd_congr hu.regs, rd_windowClose]
    · have hc : ctl (slotCancel u (slotSel s)) b = ctl s b := by rw [ctl, h2, hu.blk, windowClose_blk, ctl]
      exact hc
  · obtain ⟨u, o, hu, ho, he⟩ := key (by rw [hs]; simp)
    rw [← hu.slots] at hs
    exact ⟨_, he, slotCancel_preparing hs⟩

theorem exec_release (h : fieldPerformed s r bBeat F.BEAT_TGCTL_OP 3 = true) (hs : (slot (windowClose s) (slotSel s)).state = .committed ∨
    (slot (windowClose s) (slotSel s)).state = .rolledBack ∨ (slot (windowClose s) (slotSel s)).state = .partly) :
    ∃ t, exec (.release r) s = .next t ∧ okResp r 0 ∈ t.out ∧ slot t (slotSel s) = GroupSlot.reset := by
  obtain ⟨u, o, hu, ho, e⟩ := fieldWrite_tgctl h (by decide) hown hcount (by obtain h | h | h := hs <;> rw [h] <;> simp)
  rw [← hu.slots] at hs
  have hsel := (slotSel_congr hu.regs).trans (slotSel_congr (windowClose_regs s))
  refine ⟨_, congrArg Host.Outcome.next e, ho, ?_⟩
  rw [← hsel] at hs ⊢
  exact slotRelease_ended hs

end

/-- Settles O6: OP of TGCTL, and the answers of the members. -/
theorem groupSlots : Obligations.GroupSlots := by
  intro r i b s w k g mine
  refine ⟨fun h hm hs => exec_arm hm.1 hm.2 h hs, fun h hm => exec_cancel hm.1 hm.2 h, fun h hm hs => exec_release hm.1 hm.2 h hs, ?_⟩
  intro x hs hw hb ha _
  refine ⟨fun ht hg hc hn => congrArg Host.Outcome.next (prepareAnswer_noted hs hw hb ha ht hg hc hn), fun ht hg hc hn => ?_, fun hc => ?_, ?_⟩
  · exact ⟨_, rfl, fun j hj => prepareAnswer_last hs hw hb ha ht hg hc hn hj⟩
  · exact ⟨_, rfl, fun j hj => prepareAnswer_refused hs hw hb ha hc hj⟩
  · exact ⟨_, rfl, fun j hj => prepareTimeout_rolledBack hs hw hb ha hj⟩

end Sys2Proof.Machine
end

section
/-!
PROOFS. The application cluster's accesses (R75), and what a management tick leaves (R25, R605, R632): O7.
-/

namespace Sys2Proof.Machine

/-! ## Accesses of harts -/

theorem kindOf_lt {b : Nat} {k : Kind} (h : kindOf b = some k) : b < 0x400 := by
  by_contra hb
  have hn : kindOf b = none := by
    unfold kindOf
    repeat rw [if_neg (by omega)]
  simp [hn] at h

/-- No block lies in the frame of the cluster's own space. -/
theorem privFrame_block (r : Requester) {b : Nat} {k : Kind} (h : kindOf b = some k) : privFrame r b = false := by
  have := kindOf_lt h
  unfold privFrame
  split
  · simp
    omega
  · rfl

theorem hartSees_ok (r : Requester) (w : Bool) (s : State) : hartSees r w true s = s := by
  unfold hartSees
  split <;> rfl

/-- A write that is performed as one of `q` is the write of `q`. -/
theorem busWrite_who {s : State} {r q : Requester} {b o : Nat} {v : Word} (hq : who s r = some q) (h : performed s q b o true v = true) :
    busWrite s r .main b o v = busWrite s q .main b o v := by
  have ht := performed_tagged h
  have hr : regWrite s r .main b o v = regWrite s q .main b o v := by
    rw [regWrite, regWrite, anyAccess, anyAccess, hq, who_tagged ht]
  have ha : asReq s r = q := by rw [asReq, hq, Option.getD_some]
  have hc : ¬ selvCut s b = true := by simp [(performed_split h).1]
  rw [busWrite, busWrite, hr, regWrite_performed .main h, busAnswer, busAnswer]
  simp only [if_neg hc, ha, asReq_tagged ht, hartSees_ok]

theorem exec_hartWrite {s : State} {h : Fin 16} {mode : HartMode} {b o : Nat} {v : Word} {k : Kind} (hk : kindOf b = some k) :
    exec (.registerWrite (.hart h mode) b o v) s = .next (busWrite s (.hart h mode) .main b o v) := by
  have hrow : (Instr.registerWrite (.hart h mode) b o v, View.main) ∈ writeRows (.hart h mode) b o v .word := by simp [writeRows]
  rw [exec_writeRows hrow, busWriteW, privFrame_block _ hk]
  rfl

/-- A hart's write that is performed as one of `q` (R75). -/
theorem exec_hartWrite_who {s : State} {h : Fin 16} {mode : HartMode} {q : Requester} {b o : Nat} {v : Word}
    (hq : who s (.hart h mode) = some q) (hp : performed s q b o true v = true) :
    exec (.registerWrite (.hart h mode) b o v) s = exec (.registerWrite q b o v) s := by
  obtain ⟨k, hk⟩ := kindOf_of_gateError (performed_split hp).2
  have hrow : (Instr.registerWrite q b o v, View.main) ∈ writeRows q b o v .word := by simp [writeRows]
  rw [exec_hartWrite hk, busWrite_who hq hp, exec_writeRows hrow, busWriteW_tagged (performed_tagged hp)]
  rfl

/-- A guest's write while its APC_VMPART is not VALID (R75, R57). -/
theorem exec_hartWrite_refused {s : State} {h : Fin 16} {mode : HartMode} {b o : Nat} {v : Word} (hw : who s (.hart h mode) = none)
    (hc : selvCut s b = false) (hg : gateError (windowClose s) b o true = false) : exec (.registerWrite (.hart h mode) b o v) s =
      .next (hartFault (send (inc (windowClose s) b F.ACCVIOL_COUNT) .resp (tagOf .device) [0, 0]) h mode true) := by
  have hr : regWrite s (.hart h mode) .main b o v = (false, 0, inc (windowClose s) b F.ACCVIOL_COUNT) := by
    rw [regWrite, anyAccess, hw]
    exact if_neg (by rw [hg]; simp)
  obtain ⟨k, hk⟩ := kindOf_of_gateError hg
  rw [exec_hartWrite hk, busWrite, hr, busAnswer, if_neg (by rw [hc]; simp), asReq, hw]
  rfl

/-! ## APC_VMPART -/

/-- The offset of APC_VMPART of hart `h`. -/
def vmpartOff (h : Fin 16) : Nat := F.APC_VMPART_PART.off + 8 * h.val

/-- The bits of APC_VMPART. -/
def vmpartMask : Word := fldMask F.APC_VMPART_PART ||| fldMask F.APC_VMPART_VALID

theorem vmpart_rows (h : Fin 16) : unguarded .apc (vmpartOff h) = true ∧ codeMask .apc (vmpartOff h) .rws = 0 ∧
    codeMask .apc (vmpartOff h) .w1c = 0 ∧ codeMask .apc (vmpartOff h) .w1s = 0 ∧ codeMask .apc (vmpartOff h) .rw = vmpartMask := by
  revert h
  decide +kernel

/-- APC_VMPART has no write-only bit. -/
theorem writeDo_vmpart (s : State) (r : Requester) (h : Fin 16) (v : Nat) : writeDo s r bApc (vmpartOff h) v = s := by
  have hr : 0x044 ≤ vmpartOff h ∧ vmpartOff h < 0x0C0 := by
    simp only [vmpartOff]
    omega
  unfold writeDo
  rw [if_neg (ne_of_gt (lt_of_lt_of_le (by decide) hr.1))]
  simp only [show kindOf bApc = some .apc from rfl]
  rw [if_neg (ne_of_lt (lt_of_lt_of_le hr.2 (by decide))), if_neg (ne_of_lt (lt_of_lt_of_le hr.2 (by decide))),
    if_neg (ne_of_lt (lt_of_lt_of_le hr.2 (by decide))), if_neg (fun h => absurd h.1 (ne_of_lt (lt_of_lt_of_le hr.2 (by decide))))]

/-- What a write of APC_VMPART leaves of the registers: the value, where the hart may run the partition, or an access violation. -/
def vmpartWritten (s : State) (h : Fin 16) (w : Word) : State :=
  if bit (regGet s bApc (vmpartOff h - 4) 0).toNat (fldGet F.APC_VMPART_PART w) then regSet s bApc (vmpartOff h) 0 w
  else inc s bApc F.ACCVIOL_COUNT

theorem putMain_vmpart (s : State) (r : Requester) (h : Fin 16) (v : Word) : ∃ w, fldGet F.APC_VMPART_PART w = fldGet F.APC_VMPART_PART v ∧
    fldGet F.APC_VMPART_VALID w = fldGet F.APC_VMPART_VALID v ∧
    putMain s r bApc (vmpartOff h) v = lineFollow s (vmpartWritten s h w) bApc := by
  obtain ⟨hg, hs, h1, h2, hw⟩ := vmpart_rows h
  have hc : vmpartOff h ≠ F.CONTROL_RESETREQ.off := by
    simp only [vmpartOff]
    omega
  refine ⟨mergeBits vmpartMask (viewWord s r bApc (vmpartOff h)) v, fldGet_mergeBits (by decide) _ v, fldGet_mergeBits (by decide) _ v, ?_⟩
  rw [putMain_unguarded (k := .apc) rfl hg rfl hc, hs, h1, h2, hw, rwsWrite_zero, w1cWrite_zero, w1sWrite_zero, writeDo_vmpart]
  have ha : ∀ w, apcRw s (vmpartOff h) vmpartMask w = some (vmpartWritten s h w) := fun w => by
    have hoff : 0x040 ≤ vmpartOff h ∧ vmpartOff h < 0x0C0 ∧ vmpartOff h % 8 = 4 := by
      simp only [vmpartOff]
      omega
    have hm : vmpartMask &&& fldMask F.APC_VMPART_PART ≠ 0 := by decide
    unfold apcRw
    rw [if_pos hoff]
    simp only [hm, false_or]
    rfl
  unfold rwWrite
  rw [if_neg (by decide)]
  simp only [show kindOf bApc = some .apc from rfl, ha]

/-- A performed write of APC_VMPART (R75). -/
theorem exec_vmpartWrite {r : Requester} {h : Fin 16} {v : Word} {s : State} (hp : performed s r bApc (vmpartOff h) true v = true) :
    ∃ w o, fldGet F.APC_VMPART_PART w = fldGet F.APC_VMPART_PART v ∧ fldGet F.APC_VMPART_VALID w = fldGet F.APC_VMPART_VALID v ∧
      okResp r 0 ∈ o ∧ exec (.apcVmpartWrite r h v) s = .next { vmpartWritten (windowClose s) h w with out := o } := by
  obtain ⟨w, hpart, hvalid, e⟩ := putMain_vmpart (windowClose s) r h v
  obtain ⟨o, eo⟩ := lineFollow_frame (windowClose s) (vmpartWritten (windowClose s) h w) bApc
  have he : exec (.apcVmpartWrite r h v) s = .next (send (putMain (windowClose s) r bApc (vmpartOff h) v) .resp (tagOf r) [1, 0]) :=
    congrArg Host.Outcome.next (busWrite_performed .main hp)
  refine ⟨w, _, hpart, hvalid, okResp_mem_send (putMain (windowClose s) r bApc (vmpartOff h) v) r 0, ?_⟩
  rw [he, e, eo]
  rfl

/-- The writes of APC_VMPART of O7. -/
theorem vmpart_written {r : Requester} {h : Fin 16} {v : Word} {s : State} (hp : performed s r bApc (vmpartOff h) true v = true) :
    (bit (regGet s bApc (vmpartOff h - 4) 0).toNat (fldGet F.APC_VMPART_PART v) = true →
      ∃ t, exec (.apcVmpartWrite r h v) s = .next t ∧ okResp r 0 ∈ t.out ∧
        fldGet F.APC_VMPART_PART (regGet t bApc (vmpartOff h) 0) = fldGet F.APC_VMPART_PART v ∧
        fldGet F.APC_VMPART_VALID (regGet t bApc (vmpartOff h) 0) = fldGet F.APC_VMPART_VALID v ∧ regsBut s t bApc [vmpartOff h]) ∧
    (bit (regGet s bApc (vmpartOff h - 4) 0).toNat (fldGet F.APC_VMPART_PART v) = false → ∃ t, exec (.apcVmpartWrite r h v) s = .next t ∧
      rd t bApc F.ACCVIOL_COUNT = (rd s bApc F.ACCVIOL_COUNT + 1) % 2 ^ 32 ∧ regsBut s t bApc [F.ACCVIOL_COUNT.off]) := by
  obtain ⟨w, o, hpart, hvalid, ho, he⟩ := exec_vmpartWrite hp
  have hlt : vmpartOff h < 4096 := by
    simp only [vmpartOff]
    omega
  have hclose := regsBut_of_regs (s := s) bApc [vmpartOff h] (windowClose_regs s)
  refine ⟨fun hb => ⟨_, he, ho, ?_⟩, fun hb => ⟨_, he, ?_⟩⟩
  · have e : vmpartWritten (windowClose s) h w = regSet (windowClose s) bApc (vmpartOff h) 0 w :=
      if_pos (by rw [regGet_windowClose, hpart, hb])
    rw [e]
    have hw : regGet (regSet (windowClose s) bApc (vmpartOff h) 0 w) bApc (vmpartOff h) 0 = w := regGet_regSet_self ..
    refine ⟨(congrArg _ hw).trans hpart, (congrArg _ hw).trans hvalid, ?_⟩
    exact regsBut_trans hclose (regsBut_regSet _ bApc w hlt)
  · have e : vmpartWritten (windowClose s) h w = inc (windowClose s) bApc F.ACCVIOL_COUNT :=
      if_neg (by rw [regGet_windowClose, hpart, hb]; simp)
    rw [e]
    refine ⟨?_, ?_⟩
    · exact (rd_inc_self (windowClose s) bApc F.ACCVIOL_COUNT (by decide)).trans (by rw [rd_windowClose]; rfl)
    · exact regsBut_trans (regsBut_of_regs (s := s) bApc _ (windowClose_regs s)) (regsBut_inc (windowClose s) bApc F.ACCVIOL_COUNT (by decide))

end Sys2Proof.Machine
end

section
/-!
PROOFS. What a management tick leaves (R25, R605, R632), and O7.
-/

namespace Sys2Proof.Machine

/-! ## What the rules of a tick keep -/

/-- Fields that the rules of a tick do not write. -/
def tickFlds : List Fld := [F.STATE_READY, F.CONTROL_ENABLE, F.BEAT_STATUS_STATE, F.LL_HEART_LL, F.LL_HEART_LANTERN, F.POWER_MEAS_W]

/-- A field that shares no bits with those. -/
def tickApart (f : Fld) : Bool := tickFlds.all (fun g => fldsApart f g)

/-- The fields that the rules of a tick decide. -/
def ruleFlds : List Fld := [fldLevels, F.BEAT_COARSEN_LEVEL, F.LL_SNAPBEATS_BEATS]

/-- The decisions that wait are those rules'. -/
def RuleDecisions (s : State) : Prop := ∀ d ∈ s.decisions, d.fld ∈ ruleFlds ∧ d.idx < 65536

/-- From `s` to `t` those fields stay, and so does what LAMPLIGHTER knows of itself and Lantern. -/
structure TickFree (s t : State) : Prop where
  flds : ∀ g ∈ tickFlds, ∀ b, rd t b g = rd s b g
  absent : t.ll.absent = s.ll.absent
  gone : t.ll.lanternGone = s.ll.lanternGone
  rules : RuleDecisions s → RuleDecisions t

/-- The samples of PROGRESS stay too. -/
structure TickKept (s t : State) : Prop extends TickFree s t where
  watch : t.ll.watch = s.ll.watch

namespace TickFree

variable {s t u : State}

theorem refl (s : State) : TickFree s s := ⟨fun _ _ _ => rfl, rfl, rfl, id⟩

theorem trans (h : TickFree s t) (k : TickFree t u) : TickFree s u :=
  ⟨fun g hg b => (k.flds g hg b).trans (h.flds g hg b), k.absent.trans h.absent, k.gone.trans h.gone, fun hr => k.rules (h.rules hr)⟩

theorem rdB_eq (h : TickFree s t) {g : Fld} (hg : g ∈ tickFlds) (b : Nat) : rdB t b g = rdB s b g := by rw [rdB, rdB, h.flds g hg b]

end TickFree

namespace TickKept

variable {s t u : State}

theorem refl (s : State) : TickKept s s := ⟨.refl s, rfl⟩

theorem trans (h : TickKept s t) (k : TickKept t u) : TickKept s u := ⟨h.toTickFree.trans k.toTickFree, k.watch.trans h.watch⟩

/-- A change outside the registers, LAMPLIGHTER and the decisions. -/
theorem of_regs (hr : t.regs = s.regs) (hl : t.ll = s.ll) (hd : t.decisions = s.decisions) : TickKept s t where
  flds := fun g _ b => rd_congr hr b g
  absent := by rw [hl]
  gone := by rw [hl]
  rules := fun h d hm => h d (hd ▸ hm)
  watch := by rw [hl]

theorem of_wrI {f : Fld} (hf : tickApart f = true) (s : State) (b v : Nat) {i : Nat} (hi : i < 65536) : TickKept s (wrI s b f i v) where
  flds := fun g hg b' => rd_wrI_apart (List.all_eq_true.1 hf g hg) s b b' v hi
  absent := rfl
  gone := rfl
  rules := id
  watch := rfl

theorem of_wr {f : Fld} (hf : tickApart f = true) (s : State) (b v : Nat) : TickKept s (wr s b f v) := of_wrI hf s b v (by decide)

theorem wr {f : Fld} (h : TickKept s t) (hf : tickApart f = true) (b v : Nat) : TickKept s (wr t b f v) := h.trans (of_wr hf t b v)

theorem inc {f : Fld} (h : TickKept s t) (hf : tickApart f = true) (b : Nat) : TickKept s (inc t b f) := h.wr hf b _

/-- A change of LAMPLIGHTER's that leaves what it knows of itself and Lantern, and the samples. -/
theorem of_ll (hr : t.regs = s.regs) (hd : t.decisions = s.decisions) (ha : t.ll.absent = s.ll.absent)
    (hg : t.ll.lanternGone = s.ll.lanternGone) (hw : t.ll.watch = s.ll.watch) : TickKept s t :=
  ⟨⟨fun g _ b => rd_congr hr b g, ha, hg, fun h d hm => h d (hd ▸ hm)⟩, hw⟩

theorem ite {c : Prop} [Decidable c] (ht : TickKept s t) (hu : TickKept s u) : TickKept s (if c then t else u) := by
  split
  · exact ht
  · exact hu

theorem forEach_mem {α : Type} {f : α → State → State} {xs : List α} (hf : ∀ a ∈ xs, ∀ t, TickKept t (f a t)) (h : TickKept s t) :
    TickKept s (forEach xs f t) := by
  unfold Machine.forEach
  induction xs generalizing t with
  | nil => exact h
  | cons a xs ih => exact ih (fun b hb => hf b (List.mem_cons_of_mem _ hb)) (h.trans (hf a (by simp) t))

theorem forEach {α : Type} {f : α → State → State} (hf : ∀ a t, TickKept t (f a t)) (xs : List α) (h : TickKept s t) :
    TickKept s (forEach xs f t) := forEach_mem (fun a _ => hf a) h

end TickKept

theorem tickKept_latchFault (s : State) (b code : Nat) : TickKept s (latchFault s b code) := by
  unfold latchFault latchCause
  refine TickKept.trans (t := if rd s b F.FAULTCAUSE_VALID = 0 then _ else _) (.ite ?_ ?_) (.of_regs rfl rfl rfl)
  · refine (((TickKept.refl s).wr (f := F.FAULTCAUSE_VALID) (by decide) b 1).wr (f := F.FAULTCAUSE_CAUSE) (by decide) b code).wr
      (f := F.FAULTCAUSE_REPEAT) (by decide) b 0 |>.trans (.of_regs rfl rfl rfl)
  · exact .of_wr (by decide) s b _

theorem tickKept_logEntry (s : State) (b kind flags cause v : Nat) : TickKept s (logEntry s b kind flags cause v).2 := by
  unfold logEntry
  refine .of_ll rfl rfl ?_ ?_ ?_
  all_goals
    dsimp only
    split <;> rfl

theorem tickKept_logEvent (s : State) (b kind flags cause v : Nat) : TickKept s (logEvent s b kind flags cause v) :=
  tickKept_logEntry s b kind flags cause v

theorem tickKept_flagEntry (s : State) (id flags : Nat) : TickKept s (flagEntry s id flags) :=
  .of_ll rfl rfl rfl rfl rfl

theorem tickKept_detSet (s : State) : TickKept s (detSet s F.BEAT_DETSTAT_POLICY) := by
  unfold detSet
  dsimp only
  refine .ite (.wr (.ite ?_ (.refl s)) (by decide) _ _) (.refl s)
  exact ((TickKept.refl s).wr (f := F.BEAT_DETBEAT_LO_N) (by decide) _ _).wr (f := F.BEAT_DETBEAT_HI_N) (by decide) _ _

/-! ## Decisions -/

theorem tickApart_rule {f : Fld} (h : f ∈ ruleFlds) : tickApart f = true := by
  revert f
  decide

theorem tickKept_decisionApply {d : Decision} (hd : d.fld ∈ ruleFlds ∧ d.idx < 65536) (s : State) : TickKept s (decisionApply d s) := by
  unfold decisionApply
  refine .ite (tickKept_flagEntry s _ _) ?_
  have h : TickKept s (flagEntry (wrI s d.block d.fld d.idx d.value) d.ev efApplied) :=
    (TickKept.of_wrI (tickApart_rule hd.1) s d.block d.value hd.2).trans (tickKept_flagEntry _ _ _)
  exact .ite (h.trans (tickKept_detSet _)) h

theorem tickKept_decisionsApply {s : State} (h : RuleDecisions s) : TickKept s (decisionsApply s) := by
  have h0 : TickKept s { s with decisions := [] } := ⟨⟨fun _ _ _ => rfl, rfl, rfl, fun _ _ hm => absurd hm List.not_mem_nil⟩, rfl⟩
  exact .forEach_mem (fun d hd t => tickKept_decisionApply (h d hd) t) h0

theorem tickKept_decide {s : State} (h : RuleDecisions s) (b : Nat) {f : Fld} (hf : f ∈ ruleFlds) {idx : Nat} (hi : idx < 65536) (v : Nat) :
    TickKept s (decide' s b f idx v) := by
  unfold decide'
  extract_lets s1 old s2 e s3 s4
  have h1 : TickKept s s1 := (TickKept.refl s).inc (by decide) b
  have h2 : TickKept s s2 := .forEach (fun d t => tickKept_flagEntry t _ _) old h1
  have h3 : TickKept s s3 := h2.trans (tickKept_logEntry s2 _ _ _ _ _)
  have hr : RuleDecisions s4 := fun d hd => by
    rcases List.mem_append.1 hd with hd | hd
    · exact h3.rules h d (List.mem_of_mem_filter hd)
    · rw [List.mem_singleton.1 hd]
      exact ⟨hf, hi⟩
  have h4 : TickKept s s4 := ⟨⟨h3.flds, h3.absent, h3.gone, fun _ => hr⟩, h3.watch⟩
  exact .ite (h1.trans (tickKept_logEvent s1 _ _ _ _ _)) (.ite (h4.trans (tickKept_decisionsApply hr)) h4)

theorem tickKept_coarsenDecide {s : State} (h : RuleDecisions s) (v : Nat) : TickKept s (coarsenDecide s v) := by
  refine (tickKept_decide h bBeat (f := F.BEAT_COARSEN_LEVEL) (idx := 0) (by simp [ruleFlds]) (by decide) v).trans ?_
  exact .forEach (fun p t => .ite (tickKept_logEvent t _ _ _ _ _) (.refl t)) _ (.refl _)

/-! ## The rules -/

theorem tickKept_coarsenTick {s : State} (h : RuleDecisions s) : TickKept s (coarsenTick s) := by
  unfold coarsenTick
  extract_lets m lag s1 rest
  have h1 : TickKept s s1 := .ite (.of_regs rfl rfl rfl) (.refl s)
  have hrest : TickKept s rest := h1.trans (.of_regs rfl rfl rfl)
  have dec : ∀ {t : State} (v : Nat), TickKept s t → TickKept s (coarsenDecide t v) := fun v ht =>
    ht.trans (tickKept_coarsenDecide (ht.rules h) v)
  have low : ∀ n, TickKept s (modBeat s1 fun x => { x with lowTicks := n }) := fun n => h1.trans (.of_regs rfl rfl rfl)
  exact .ite hrest (.ite (.ite hrest (dec 0 hrest)) (.ite (.ite (dec _ hrest) hrest) (.ite (.ite (h1.trans (.of_regs rfl rfl rfl))
    (.ite hrest (dec _ hrest))) (low 0))))

/-- POWER's rule, after the power measured is shown. -/
theorem tickKept_powerTick {s : State} (h : RuleDecisions s) (watts : Nat) :
    TickKept (wr s bPower F.POWER_MEAS_W (min watts 65535)) (powerTick s watts) := by
  unfold powerTick
  extract_lets s1 s2 s3 old s4
  have h2 : TickKept s1 s2 := .of_regs rfl rfl rfl
  have h3 : TickKept s1 s3 := .ite (h2.wr (by decide) _ _) h2
  refine .ite h3 ?_
  split
  · exact h3
  · extract_lets v
    have h4 : TickKept s1 s4 := .ite (h3.trans (.of_regs rfl rfl rfl)) h3
    exact .ite h4 (h4.trans (tickKept_decide (h4.rules h) bPower (f := fldLevels) (idx := 0) (by simp [ruleFlds]) (by decide) v))

theorem tickKept_incBy (s : State) (b n : Nat) : TickKept s (incBy s b F.PROGRESS_COUNT n) :=
  .of_wr (f := F.PROGRESS_COUNT) (by decide) s b _

theorem tickKept_linkTick (s : State) (h : Nat) : TickKept s (linkTick s h) := by
  unfold linkTick
  extract_lets b n lim old s1
  have h1 : TickKept s s1 := .of_regs rfl rfl rfl
  exact .ite (h1.trans (tickKept_latchFault s1 b 0x0302)) h1

theorem tickKept_linkWatch (h : Nat) (s : State) : TickKept s (linkWatch h s) :=
  (tickKept_linkTick s h).trans (.of_ll rfl rfl rfl rfl rfl)

theorem tickKept_boundTick {s : State} (h : RuleDecisions s) : TickKept s (boundTick s) := by
  unfold boundTick
  extract_lets w ns slack slow was s1 s2 s3 v
  have h1 : TickKept s s1 := ((TickKept.refl s).wr (f := F.LL_DARNBOUND_NS) (by decide) _ _).wr (f := F.LL_DARNWORST_LOOM) (by decide) _ _
  have h2 : TickKept s s2 := h1.wr (f := F.LL_STAT_DARNSLOW) (by decide) _ _
  have h3 : TickKept s s3 := .ite (h2.trans (tickKept_logEvent _ _ _ _ _ _)) h2
  exact .ite h3 (.ite h3 (h3.trans (tickKept_decide (h3.rules h) bLamplighter (f := F.LL_SNAPBEATS_BEATS) (idx := 0) (by simp [ruleFlds]) (by decide) v)))

/-! ## The samples of PROGRESS (R632) -/

/-- The sample of block `b` is `w`. -/
def sampled (s : State) (b : Nat) (w : Nat × Nat) : State := modLl s (fun x => { x with watch := tabSet (0, 0) x.watch b w })

theorem tickFree_sampled (s : State) (b : Nat) (w : Nat × Nat) : TickFree s (sampled s b w) := ⟨fun _ _ _ => rfl, rfl, rfl, id⟩

theorem watch_sampled (s : State) (b : Nat) (w : Nat × Nat) : (sampled s b w).ll.watch = tabSet (0, 0) s.ll.watch b w := rfl

/-- A block that is not judged. -/
def notJudged (s : State) (b : Nat) : Prop := rdB s b F.STATE_READY = false ∨ rdB s b F.CONTROL_ENABLE = false

theorem notJudged_congr {s t : State} (h : TickFree s t) (b : Nat) : notJudged t b ↔ notJudged s b := by
  rw [notJudged, notJudged, h.rdB_eq (by simp [tickFlds]), h.rdB_eq (by simp [tickFlds])]

/-- The watch of one block takes a sample, which is none for a block that is not judged. -/
theorem progressWatch_sampled (b : Nat) (s : State) : ∃ w, TickKept (sampled s b w) (progressWatch b s) ∧ (notJudged s b → w = (0, 0)) := by
  unfold progressWatch
  split
  next => exact ⟨(0, 0), .refl _, fun _ => rfl⟩
  next h =>
    extract_lets p w n win s1
    have hs : TickKept s1 (inc (latchFault s1 b 0x8001) bLamplighter F.LL_STALLS_COUNT) := (tickKept_latchFault s1 b 0x8001).inc (by decide) _
    refine ⟨(p + 1, n), .ite hs (.refl s1), fun hj => absurd ?_ h⟩
    obtain hj | hj := hj <;> simp [hj]

theorem tickFree_progressWatch (b : Nat) (s : State) : TickFree s (progressWatch b s) := by
  obtain ⟨w, h, -⟩ := progressWatch_sampled b s
  exact (tickFree_sampled s b w).trans h.toTickFree

theorem watch_progressWatch_ne {a b : Nat} (h : b ≠ a) (s : State) :
    tabGet (0, 0) (progressWatch a s).ll.watch b = tabGet (0, 0) s.ll.watch b := by
  obtain ⟨w, hk, -⟩ := progressWatch_sampled a s
  rw [hk.watch, watch_sampled, tabGet_tabSet_ne _ _ _ _ h]

theorem watch_progressWatch_self {b : Nat} {s : State} (h : notJudged s b) : tabGet (0, 0) (progressWatch b s).ll.watch b = (0, 0) := by
  obtain ⟨w, hk, hw⟩ := progressWatch_sampled b s
  rw [hk.watch, watch_sampled, hw h, tabGet_tabSet_self]

theorem tickFree_forEach {α : Type} {f : α → State → State} (hf : ∀ a t, TickFree t (f a t)) (xs : List α) (s : State) :
    TickFree s (forEach xs f s) := by
  unfold forEach
  induction xs generalizing s with
  | nil => exact .refl s
  | cons a xs ih => exact (hf a s).trans (ih (f a s))

/-- After the watch of a list of blocks, one of them that is not judged has no sample. -/
theorem watch_forEach {b : Nat} {xs : List Nat} (hb : b ∈ xs) {s : State} (h : notJudged s b) :
    tabGet (0, 0) (forEach xs progressWatch s).ll.watch b = (0, 0) := by
  refine (forEach_reaches (TickFree s) (fun t => notJudged t b ∧ tabGet (0, 0) t.ll.watch b = (0, 0)) (fun a t ht => ht.trans
    (tickFree_progressWatch a t)) (fun a t ht => ⟨(notJudged_congr (tickFree_progressWatch a t) b).2 ht.1, ?_⟩) (fun t ht => ?_) hb (.refl s)).2
  · by_cases hab : b = a
    · rw [← hab]
      exact watch_progressWatch_self ht.1
    · rw [watch_progressWatch_ne hab]
      exact ht.2
  · have hj := (notJudged_congr ht b).2 h
    exact ⟨(notJudged_congr (tickFree_progressWatch b t) b).2 hj, watch_progressWatch_self hj⟩

/-! ## The tick -/

/-- The state of a tick before the heartbeats. -/
def tickJudged (s : State) (watts : Nat) (work : List (Nat × Nat)) : State :=
  forEach allBlocks progressWatch
    (forEach (List.range 16) linkWatch (powerTick (coarsenTick (forEach work (fun p s => incBy s p.1 F.PROGRESS_COUNT p.2) s)) watts))

/-- Lamplighter's heartbeat. -/
def tickLamplighter (s : State) : State :=
  if llRuns s then
    let s := boundTick (beatDown (inc s bLamplighter F.LL_HEART_LL) 0)
    if s.ll.faultN && s.ll.lost && rdB s bLamplighter F.LL_STAT_DMEXPIRED then s
    else send (modLl s (fun x => { x with alive := !x.alive })) .pin 1 [(!s.ll.alive).toNat]
  else s

/-- Lantern's heartbeat. -/
def tickLantern (s : State) : State :=
  if rdB s bCustody F.STATE_READY ∧ !s.ll.lanternGone then inc s bLamplighter F.LL_HEART_LANTERN else s

/-- The tick's list of faults ends. -/
def faultsEnded (s : State) : State := modLl s (fun x => { x with tickFaults := [] })

theorem faultsEnded_keeps (s : State) : (faultsEnded s).ll.tickFaults = [] ∧ (faultsEnded s).ll.watch = s.ll.watch ∧
    ∀ b g, rd (faultsEnded s) b g = rd s b g := ⟨rfl, rfl, fun _ _ => rfl⟩

theorem managementTick_eq (s : State) (watts : Nat) (work : List (Nat × Nat)) : managementTick s watts work =
    faultsEnded (tickLantern (tickLamplighter (tickJudged s watts work))) := rfl

/-- A tick before the heartbeats shows the power measured, judges the blocks, and leaves the rest. -/
structure TickJudged (s t : State) (watts : Nat) : Prop where
  meas : rd t bPower F.POWER_MEAS_W = min watts 65535
  flds : ∀ g ∈ tickFlds, fldsApart F.POWER_MEAS_W g = true → ∀ b, rd t b g = rd s b g
  absent : t.ll.absent = s.ll.absent
  gone : t.ll.lanternGone = s.ll.lanternGone
  rules : RuleDecisions t
  watch : ∀ b ∈ allBlocks, notJudged s b → tabGet (0, 0) t.ll.watch b = (0, 0)

theorem TickJudged.rdB_eq {s t : State} {watts : Nat} (h : TickJudged s t watts) {g : Fld} (hg : g ∈ tickFlds)
    (ha : fldsApart F.POWER_MEAS_W g = true) (b : Nat) : rdB t b g = rdB s b g := by rw [rdB, rdB, h.flds g hg ha b]

theorem tickJudged_spec {s : State} (h : RuleDecisions s) (watts : Nat) (work : List (Nat × Nat)) :
    TickJudged s (tickJudged s watts work) watts := by
  unfold tickJudged
  have h1 := TickKept.forEach (f := fun (p : Nat × Nat) s => incBy s p.1 F.PROGRESS_COUNT p.2) (fun p t => tickKept_incBy t p.1 p.2) work (.refl s)
  generalize forEach work (fun p s => incBy s p.1 F.PROGRESS_COUNT p.2) s = s1 at h1 ⊢
  have hu : TickKept s (coarsenTick s1) := h1.trans (tickKept_coarsenTick (h1.rules h))
  generalize coarsenTick s1 = u at hu ⊢
  have hv := TickKept.forEach tickKept_linkWatch (List.range 16) (tickKept_powerTick (hu.rules h) watts)
  generalize forEach (List.range 16) linkWatch (powerTick u watts) = v at hv ⊢
  have hw := tickFree_forEach tickFree_progressWatch allBlocks v
  have flds : ∀ g ∈ tickFlds, fldsApart F.POWER_MEAS_W g = true → ∀ b, rd v b g = rd s b g := fun g hg ha b => by
    rw [hv.flds g hg, rd_wr_apart ha, hu.flds g hg]
  refine ⟨?_, fun g hg ha b => (hw.flds g hg b).trans (flds g hg ha b), hw.absent.trans (hv.absent.trans hu.absent),
    hw.gone.trans (hv.gone.trans hu.gone), hw.rules (hv.rules (hu.rules h)), fun b hb hj => watch_forEach hb ?_⟩
  · rw [hw.flds _ (by simp [tickFlds]), hv.flds _ (by simp [tickFlds]), rd_wr_self _ _ _ _ (by decide)]
    exact Nat.mod_eq_of_lt (lt_of_le_of_lt (Nat.min_le_right watts 65535) (by decide))
  · rwa [notJudged, rdB, rdB, flds _ (by simp [tickFlds]) (by decide), flds _ (by simp [tickFlds]) (by decide)]

theorem beatDown_none {s : State} (h : beatState s ≠ stFaulted) (cause : Nat) : beatDown s cause = s := if_pos h

/-- Lamplighter's heartbeat counts while Lamplighter runs, and what follows it keeps the rest. -/
theorem tickLamplighter_kept {s : State} (h : RuleDecisions s) (hb : beatState s ≠ stFaulted) :
    TickKept (if llRuns s then inc s bLamplighter F.LL_HEART_LL else s) (tickLamplighter s) := by
  unfold tickLamplighter
  split
  · have hb' : beatState (inc s bLamplighter F.LL_HEART_LL) ≠ stFaulted := by
      rwa [beatState, rd_inc_apart (by decide)]
    rw [beatDown_none hb']
    have ht := tickKept_boundTick (s := inc s bLamplighter F.LL_HEART_LL) h
    exact .ite ht (ht.trans (.of_ll rfl rfl rfl rfl rfl))
  · exact .refl s

/-- A field that is none of Lamplighter's heartbeat stays through it. -/
theorem rd_tickLamplighter {s : State} (h : RuleDecisions s) (hb : beatState s ≠ stFaulted) {g : Fld} (hg : g ∈ tickFlds)
    (ha : fldsApart F.LL_HEART_LL g = true) (b : Nat) : rd (tickLamplighter s) b g = rd s b g := by
  rw [(tickLamplighter_kept h hb).flds g hg b]
  split
  · exact rd_inc_apart ha s bLamplighter b
  · rfl

theorem rd_tickLantern {g : Fld} (ha : fldsApart F.LL_HEART_LANTERN g = true) (s : State) (b : Nat) : rd (tickLantern s) b g = rd s b g := by
  unfold tickLantern
  split
  · exact rd_inc_apart ha s bLamplighter b
  · rfl

theorem heart_tickLantern {s : State} (hr : rdB s bCustody F.STATE_READY = true) (hg : s.ll.lanternGone = false) :
    rd (tickLantern s) bLamplighter F.LL_HEART_LANTERN = (rd s bLamplighter F.LL_HEART_LANTERN + 1) % 2 ^ 16 := by
  rw [tickLantern, if_pos ⟨hr, by rw [hg]; rfl⟩, rd_inc_self _ _ _ (by decide)]
  rfl

theorem heart_tickLamplighter {s : State} (h : RuleDecisions s) (hb : beatState s ≠ stFaulted) : rd (tickLamplighter s) bLamplighter F.LL_HEART_LL =
    if llRuns s then (rd s bLamplighter F.LL_HEART_LL + 1) % 2 ^ 16 else rd s bLamplighter F.LL_HEART_LL := by
  rw [(tickLamplighter_kept h hb).flds _ (by simp [tickFlds])]
  split
  · rw [rd_inc_self _ _ _ (by decide)]
    rfl
  · rfl

theorem tickLantern_ll (s : State) : (tickLantern s).ll = s.ll := by
  unfold tickLantern
  split <;> rfl

theorem tickLamplighter_ll {s : State} (h : RuleDecisions s) (hb : beatState s ≠ stFaulted) :
    (tickLamplighter s).ll.watch = s.ll.watch ∧ (tickLamplighter s).ll.lanternGone = s.ll.lanternGone := by
  have hk := tickLamplighter_kept h hb
  rw [hk.watch, hk.gone]
  split <;> exact ⟨rfl, rfl⟩

/-- What a tick leaves. -/
theorem managementTick_leaves {s : State} (hb : beatState s ≠ stFaulted) (hd : s.decisions = []) (watts : Nat) (work : List (Nat × Nat)) :
    ∃ t, exec (.managementTick watts work) s = .next t ∧ t.ll.tickFaults = [] ∧ rd t bPower F.POWER_MEAS_W = min watts 65535 ∧
      (∀ b ∈ allBlocks, rdB s b F.STATE_READY = false ∨ rdB s b F.CONTROL_ENABLE = false → tabGet (0, 0) t.ll.watch b = (0, 0)) ∧
      (llRuns s = true → rd t bLamplighter F.LL_HEART_LL = (rd s bLamplighter F.LL_HEART_LL + 1) % 2 ^ 16) ∧
      (llRuns s = false → rd t bLamplighter F.LL_HEART_LL = rd s bLamplighter F.LL_HEART_LL) ∧
      (rdB s bCustody F.STATE_READY = true → s.ll.lanternGone = false →
        rd t bLamplighter F.LL_HEART_LANTERN = (rd s bLamplighter F.LL_HEART_LANTERN + 1) % 2 ^ 16) := by
  have hr : RuleDecisions s := fun d hm => absurd (hd ▸ hm) List.not_mem_nil
  have hj := tickJudged_spec hr watts work
  have he : exec (.managementTick watts work) s =
      .next (faultsEnded (tickLantern (tickLamplighter (tickJudged s watts work)))) :=
    congrArg Host.Outcome.next (managementTick_eq s watts work)
  generalize tickJudged s watts work = v at hj he
  have hbv : beatState v ≠ stFaulted := by rwa [beatState, hj.flds _ (by simp [tickFlds]) (by decide)]
  have hruns : llRuns v = llRuns s := by rw [llRuns, llRuns, hj.rdB_eq (by simp [tickFlds]) (by decide), hj.absent]
  have hheart := heart_tickLamplighter hj.rules hbv
  rw [hruns, hj.flds _ (by simp [tickFlds]) (by decide)] at hheart
  have hkeep : ∀ g ∈ tickFlds, fldsApart F.LL_HEART_LL g = true → ∀ b, rd (tickLamplighter v) b g = rd v b g :=
    fun g hg ha b => rd_tickLamplighter hj.rules hbv hg ha b
  obtain ⟨hwatch, hgone⟩ := tickLamplighter_ll hj.rules hbv
  generalize tickLamplighter v = y at he hheart hkeep hwatch hgone
  have hready : rdB y bCustody F.STATE_READY = rdB s bCustody F.STATE_READY := by
    rw [rdB, rdB, hkeep _ (by simp [tickFlds]) (by decide), hj.flds _ (by simp [tickFlds]) (by decide)]
  have hlantern : rd y bLamplighter F.LL_HEART_LANTERN = rd s bLamplighter F.LL_HEART_LANTERN :=
    (hkeep _ (by simp [tickFlds]) (by decide) _).trans (hj.flds _ (by simp [tickFlds]) (by decide) _)
  have hmeas : rd y bPower F.POWER_MEAS_W = min watts 65535 := (hkeep _ (by simp [tickFlds]) (by decide) _).trans hj.meas
  have hw : (tickLantern y).ll.watch = v.ll.watch := by rw [tickLantern_ll, hwatch]
  have hx : ∀ g, fldsApart F.LL_HEART_LANTERN g = true → ∀ b, rd (tickLantern y) b g = rd y b g := fun g ha b => rd_tickLantern ha y b
  have hself : rdB y bCustody F.STATE_READY = true → y.ll.lanternGone = false →
      rd (tickLantern y) bLamplighter F.LL_HEART_LANTERN = (rd y bLamplighter F.LL_HEART_LANTERN + 1) % 2 ^ 16 := heart_tickLantern
  obtain ⟨x, ex⟩ : ∃ x, x = tickLantern y := ⟨_, rfl⟩
  rw [← ex] at he hw hx hself
  obtain ⟨hfaults, hll, hregs⟩ := faultsEnded_keeps x
  refine ⟨_, he, hfaults, ?_, fun b hb hn => ?_, fun hrun => ?_, fun hrun => ?_, fun hr hg => ?_⟩
  · rw [hregs, hx _ (by decide), hmeas]
  · rw [hll, hw, hj.watch b hb hn]
  · rw [hregs, hx _ (by decide), hheart, if_pos hrun]
  · rw [hregs, hx _ (by decide), hheart, if_neg (by rw [hrun]; simp)]
  · rw [hregs, hself (hready.trans hr) ((hgone.trans hj.gone).trans hg), hlantern]

/-- Settles O7: APC_VMPART, the management tick, and the accesses of harts. -/
theorem vmpartAndTick : Obligations.VmpartAndTick := by
  intro r h v watts work s off p
  refine ⟨fun hp => vmpart_written hp, fun hb hd => managementTick_leaves hb hd watts work, fun b o mode => ?_⟩
  intro reg q guest
  have hw : who s (.hart h mode) = if guest then (if fldGet F.APC_VMPART_VALID reg = 1 then some q else none) else some .device := rfl
  refine ⟨fun hg hp => exec_hartWrite_who (hw.trans (if_neg hg)) hp, fun hg hv hp => ?_, fun hg hv hc hgate => ?_⟩
  · exact exec_hartWrite_who (hw.trans ((if_pos hg).trans (if_pos hv))) hp
  · exact exec_hartWrite_refused (hw.trans ((if_pos hg).trans (if_neg (by rw [hv]; decide)))) hc hgate

end Sys2Proof.Machine
end

section
/-!
PROOFS. What an access to lines of HBM may touch (chapter 13), the answers of a controller, and the lines that an access that goes well reads and
writes.
-/

namespace Sys2Proof.Machine

/-! ## Packets read the maps of the hubs and the package's own number -/

theorem siteOf_congr {s t : State} (h : t.hubs = s.hubs) : siteOf t = siteOf s := by
  funext row col
  rw [siteOf, siteOf, hub, h]
  rfl

theorem entryAt_congr {s t : State} (h : t.hubs = s.hubs) : entryAt t = entryAt s := by
  have hm : meshOf t = meshOf s := by
    funext row col
    rw [meshOf, meshOf, siteOf_congr h]
  funext src pos
  rw [entryAt, entryAt, entryMesh, entryMesh, hm]

theorem genPath_congr {s t : State} (h : t.gpkg = s.gpkg) : genPath t = genPath s := by
  funext src dpkg ep
  rw [genPath, genPath, selfPkg, selfPkg, h]

/-- A header for the own package reads no more of the state than that package's number. -/
theorem headOf_congr {s t : State} (h : t.gpkg = s.gpkg) (src part cls tag len : Nat) (path : Nat × Nat × Nat) :
    headOf t src part cls tag (selfPkg t) len path = headOf s src part cls tag (selfPkg s) len path := by
  unfold headOf
  rw [if_pos rfl, if_pos rfl, selfPkg, selfPkg, h]

def answerOut (s : State) (req tag : Nat) (write : Bool) (c rseq st a size : Nat) (d : List Byte) : Out :=
  ⟨.hbmRsp, bHbmc c, entryAt s (blockEp (bHbmc c)) (entryPos (blockEp (bHbmc c)) (blockEp req)) ++
    packetFlits 3 0 (headFlit (headOf s (blockEp (bHbmc c)) tag write.toNat 0 (selfPkg s) (byteFlits d).length
      (memPath (genPath s (blockEp (bHbmc c)) (selfPkg s) (blockEp req)) (memWord a size st rseq)))) (byteFlits d) false⟩

theorem hbmAnswer_eq (s : State) (req tag : Nat) (write : Bool) (c rseq st a size : Nat) (d : List Byte) :
    hbmAnswer s req tag write c rseq st a size d = { s with out := s.out ++ [answerOut s req tag write c rseq st a size d] } := by
  unfold hbmAnswer edgeSend
  rw [if_neg (fun h => h.1 rfl), if_pos rfl]
  rfl

theorem answerOut_congr {s t : State} (hh : t.hubs = s.hubs) (hg : t.gpkg = s.gpkg) : answerOut t = answerOut s := by
  funext req tag write c rseq st a size d
  have hs : selfPkg t = selfPkg s := by rw [selfPkg, selfPkg, hg]
  rw [answerOut, answerOut, headOf_congr hg, entryAt_congr hh, genPath_congr hg, hs]

/-! ## What an access to lines of HBM may touch -/

/-- The fields that an access to lines of HBM writes. -/
def lineShows : List Fld := [F.HBMC_READS_COUNT, F.HBMC_WRITES_COUNT, F.HBMC_TAGHIT_COUNT, F.HBMC_TAGMISS_COUNT, F.HBMC_UE_COUNT,
  F.HBMC_INTEG_COUNT, F.HBMC_CE_COUNT, F.HBMC_SCRUBCE_COUNT, F.HBMC_PARTREFUSE_COUNT, F.HBMC_UEADDR_LO_ADDR, F.HBMC_UEADDR_HI_ADDR,
  F.HBMC_CEADDR_LO_ADDR, F.HBMC_CEADDR_HI_ADDR, F.FAULTCAUSE_VALID, F.FAULTCAUSE_CAUSE, F.FAULTCAUSE_REPEAT, F.CUSTODY_SECEVENTS_COUNT]

/-- From `s` to `t` the turns of the requesters and the looms stand, and every field that no access to a line writes. -/
structure TurnKept (s t : State) : Prop where
  expect : t.mem.expect = s.mem.expect
  looms : t.looms = s.looms
  flds : ∀ g, (∀ f ∈ lineShows, fldsApart f g = true) → ∀ b, rd t b g = rd s b g

/-- No byte of HBM changes either. -/
structure ReadKept (s t : State) : Prop extends TurnKept s t where
  hbm : t.mem.hbm = s.mem.hbm

theorem latchFault_looms (s : State) (b code : Nat) : (latchFault s b code).looms = s.looms := by
  obtain ⟨r, o, h⟩ := latchFault_frame s b code
  rw [h]

namespace TurnKept

variable {s t u : State}

theorem refl (s : State) : TurnKept s s := ⟨rfl, rfl, fun _ _ _ => rfl⟩

theorem trans (h : TurnKept s t) (k : TurnKept t u) : TurnKept s u :=
  ⟨k.expect.trans h.expect, k.looms.trans h.looms, fun g hg b => (k.flds g hg b).trans (h.flds g hg b)⟩

theorem inc {f : Fld} (hf : f ∈ lineShows) (s : State) (b : Nat) : TurnKept s (inc s b f) :=
  ⟨rfl, rfl, fun _ hg b' => rd_inc_apart (hg f hf) s b b'⟩

end TurnKept

namespace ReadKept

variable {s t u : State}

theorem refl (s : State) : ReadKept s s := ⟨.refl s, rfl⟩

theorem trans (h : ReadKept s t) (k : ReadKept t u) : ReadKept s u := ⟨h.toTurnKept.trans k.toTurnKept, k.hbm.trans h.hbm⟩

theorem wr {f : Fld} (h : ReadKept s t) (hf : f ∈ lineShows) (b v : Nat) : ReadKept s (wr t b f v) :=
  h.trans ⟨⟨rfl, rfl, fun _ hg b' => rd_wr_apart (hg f hf) t b b' v⟩, rfl⟩

theorem wrPair {f g : Fld} (h : ReadKept s t) (hf : f ∈ lineShows) (hg : g ∈ lineShows) (b v : Nat) : ReadKept s (wrPair t b f g v) :=
  (h.wr hf b _).wr hg b _

theorem of_regs (hr : t.regs = s.regs) (hl : t.looms = s.looms) (he : t.mem.expect = s.mem.expect) (hh : t.mem.hbm = s.mem.hbm) :
    ReadKept s t :=
  ⟨⟨he, hl, fun g _ b => rd_congr hr b g⟩, hh⟩

theorem latchFault (h : ReadKept s t) (b code : Nat) : ReadKept s (latchFault t b code) :=
  h.trans ⟨⟨by rw [latchFault_mem], latchFault_looms t b code, fun g hg b' => rd_latchFault_apart (fun f hf => hg f (by
    revert hf; simp only [lineShows, List.mem_cons, List.not_mem_nil, or_false]; tauto)) t b code b'⟩, by rw [latchFault_mem]⟩

end ReadKept

theorem readKept_lineUe (s : State) (a : Nat) : ReadKept s (lineUe s a) :=
  (((ReadKept.of_regs rfl rfl rfl rfl : ReadKept s (poisonSet s a)).wr (by decide) _ _).wrPair (by decide) (by decide) _ _).latchFault _ _

theorem readKept_securityEvent (s : State) (b code : Nat) : ReadKept s (securityEvent s b code) :=
  ((ReadKept.refl s).wr (f := F.CUSTODY_SECEVENTS_COUNT) (by decide) bCustody _).trans (.of_regs rfl rfl rfl rfl)

theorem readKept_lineInteg (s : State) (a : Nat) : ReadKept s (lineInteg s a) :=
  ((((ReadKept.of_regs rfl rfl rfl rfl : ReadKept s (poisonSet s a)).wr (by decide) _ _).wrPair (by decide) (by decide) _ _).latchFault _ _).trans
    (readKept_securityEvent _ _ _)

theorem readKept_lineCe (s : State) (a : Nat) (scrub : Bool) : ReadKept s (lineCe s a scrub) :=
  ((ReadKept.refl s).wr (by cases scrub <;> decide) _ _).wrPair (by decide) (by decide) _ _

theorem readKept_lineTagged (s : State) (a : Nat) (bad : Bool) : ReadKept s (lineTagged s a bad).2 := by
  unfold lineTagged
  split
  · exact readKept_lineInteg s a
  · exact .refl s

theorem readKept_tagTouch (s : State) (a : Nat) : ReadKept s (tagTouch s a) := by
  refine ⟨⟨rfl, rfl, fun g hg b => rd_inc_apart (hg _ ?_) _ _ b⟩, rfl⟩
  split <;> decide

theorem readKept_setMark (s : State) (a : Nat) (x : LineRead) : ReadKept s (setMark s a x) := .of_regs rfl rfl rfl rfl

theorem readKept_lineRead (s : State) (a : Nat) (scrub : Bool) : ReadKept s (lineRead s a scrub).2 := by
  have hc : ReadKept s (if scrub then s else inc s (hbmBlk a) F.HBMC_READS_COUNT) := by
    split
    · exact .refl s
    · exact (ReadKept.refl s).wr (by decide) _ _
  have ht := hc.trans (readKept_tagTouch _ a)
  unfold lineRead
  split
  · exact .refl s
  · generalize tagTouch (if scrub then s else inc s (hbmBlk a) F.HBMC_READS_COUNT) a = t at ht ⊢
    dsimp only
    split
    · exact ht.trans (readKept_lineUe t a)
    · exact ht.trans (readKept_lineTagged t a true)
    · exact (ht.trans ((readKept_lineCe t a scrub).trans (readKept_setMark _ a .clean))).trans (readKept_lineTagged _ a false)
    · exact (ht.trans ((readKept_lineCe t a scrub).trans (readKept_setMark _ a .badTag))).trans (readKept_lineTagged _ a true)
    · exact ht.trans (readKept_lineTagged t a false)

theorem turnKept_lineStore (s : State) (i a : Nat) (d : List Byte) : TurnKept s (lineStore s i a d) :=
  ⟨rfl, rfl, fun _ hg b => rd_inc_apart (f := F.HBMC_WRITES_COUNT) (hg _ (by decide)) _ _ b⟩

theorem turnKept_lineWrite (s : State) (a : Nat) (d : List Byte) : TurnKept s (lineWrite s a d).2 := by
  unfold lineWrite
  split
  · exact .refl s
  · next i _ =>
    split
    · have hp : TurnKept s (modMem s fun m => { m with poison := m.poison.filter (fun x => x != a / 128) }) :=
        ⟨rfl, rfl, fun _ _ _ => rd_congr rfl _ _⟩
      exact (hp.trans (turnKept_lineStore _ i a d)).trans (readKept_tagTouch _ a).toTurnKept
    · have hr := (readKept_lineRead s a false).toTurnKept
      generalize lineRead s a false = r at hr ⊢
      dsimp only
      split
      · exact hr.trans (turnKept_lineStore r.2 i a d)
      · exact hr

/-- What every round of a fold that carries a status and a state keeps, the fold keeps. -/
theorem foldl_status_keeps {α : Type} {R : State → State → Prop} (hr : ∀ s, R s s) (ht : ∀ {s t u}, R s t → R t u → R s u)
    {f : State → α → Nat × State} (hf : ∀ s a, R s (f s a).2) (xs : List α) (p : Nat × State) :
    R p.2 (xs.foldl (fun p x => if p.1 ≠ hOk then p else f p.2 x) p).2 := by
  induction xs generalizing p with
  | nil => exact hr p.2
  | cons a xs ih =>
    refine ht ?_ (ih _)
    dsimp only
    split
    · exact hr p.2
    · exact hf p.2 a

theorem readKept_hbmRefused (s : State) (a st : Nat) : ReadKept s (hbmRefused s a st) := by
  unfold hbmRefused
  split
  · exact (ReadKept.refl s).wr (by decide) _ _
  · exact .refl s

theorem readKept_hbmRead (s : State) (tag a n : Nat) : ReadKept s (hbmRead s tag a n).2.2 := by
  unfold hbmRead
  dsimp only
  split
  · exact readKept_hbmRefused s a _
  · exact foldl_status_keeps .refl .trans (fun t (x : Nat × Nat) => readKept_lineRead t x.1 false) _ (hOk, s)

theorem turnKept_hbmWrite (s : State) (tag a : Nat) (d : List Byte) : TurnKept s (hbmWrite s tag a d).2 := by
  unfold hbmWrite
  dsimp only
  split
  · exact (readKept_hbmRefused s a _).toTurnKept
  · exact foldl_status_keeps .refl .trans (fun t (x : Nat × Nat) => turnKept_lineWrite t x.1 ((d.drop (x.1 - a)).take x.2)) _ (hOk, s)

/-! ## Accesses that go well -/

/-- The line at `a` reads well: it holds what was written, under its region's key, and is not poisoned. -/
structure LineGood (s : State) (a : Nat) : Prop where
  mark : lineMark s a = .clean
  poison : a / 128 ∉ s.mem.poison
  key : staleKey s a = false

/-- From `s` to `t` nothing is sent, and what a packet and the key of a region depend on stands. -/
structure Quiet (s t : State) : Prop where
  out : t.out = s.out
  hubs : t.hubs = s.hubs
  gpkg : t.gpkg = s.gpkg
  regions : t.mem.regions = s.mem.regions
  keys : t.mem.keys = s.mem.keys

theorem Quiet.refl (s : State) : Quiet s s := ⟨rfl, rfl, rfl, rfl, rfl⟩

theorem Quiet.trans {s t u : State} (h : Quiet s t) (k : Quiet t u) : Quiet s u :=
  ⟨k.out.trans h.out, k.hubs.trans h.hubs, k.gpkg.trans h.gpkg, k.regions.trans h.regions, k.keys.trans h.keys⟩

/-- A line that reads well costs a look-up of its tag and a count. -/
theorem lineRead_good {s : State} {a : Nat} (h : LineGood s a) :
    lineRead s a false = (hOk, tagTouch (inc s (hbmBlk a) F.HBMC_READS_COUNT) a) := by
  have hm : lineMark (tagTouch (inc s (hbmBlk a) F.HBMC_READS_COUNT) a) a = .clean := h.mark
  have hk : staleKey (tagTouch (inc s (hbmBlk a) F.HBMC_READS_COUNT) a) a = false := h.key
  unfold lineRead
  rw [if_neg (by simpa using h.poison)]
  dsimp only
  rw [if_neg Bool.false_ne_true, hm]
  exact if_neg (by rw [hk]; decide)

theorem quiet_tagTouch (s : State) (a : Nat) : Quiet s (tagTouch s a) := ⟨rfl, rfl, rfl, rfl, rfl⟩

theorem mem_linePieces {a n : Nat} {x : Nat × Nat} (h : x ∈ linePieces a n) : a ≤ x.1 ∧ x.1 < a + n := by
  unfold linePieces at h
  split at h
  · cases h
  · obtain ⟨k, hk, rfl⟩ := List.mem_map.1 h
    rw [List.mem_range] at hk
    dsimp only
    omega

/-- Lines that read well, one after the other. -/
theorem linesRead_good (xs : List (Nat × Nat)) {s : State} (h : ∀ x ∈ xs, LineGood s x.1) :
    ∃ t, xs.foldl (fun (p : Nat × State) x => if p.1 ≠ hOk then p else lineRead p.2 x.1 false) (hOk, s) = (hOk, t) ∧
      Quiet s t ∧ t.mem.hbm = s.mem.hbm := by
  induction xs generalizing s with
  | nil => exact ⟨s, rfl, .refl s, rfl⟩
  | cons x xs ih =>
    rw [List.forall_mem_cons] at h
    obtain ⟨hx, hxs⟩ := h
    have hg : ∀ y ∈ xs, LineGood (tagTouch (inc s (hbmBlk x.1) F.HBMC_READS_COUNT) x.1) y.1 :=
      fun y hy => ⟨(hxs y hy).mark, (hxs y hy).poison, (hxs y hy).key⟩
    obtain ⟨t, ht, hq, hb⟩ := ih hg
    have hq1 : Quiet s (tagTouch (inc s (hbmBlk x.1) F.HBMC_READS_COUNT) x.1) := ⟨rfl, rfl, rfl, rfl, rfl⟩
    refine ⟨t, ?_, hq1.trans hq, hb⟩
    rw [List.foldl_cons, if_neg (not_not_intro rfl), lineRead_good hx, ht]

/-- A read that the checks let through, of lines that read well. -/
theorem hbmRead_good {s : State} {tag a n : Nat} (hc : hbmCheck s tag a n = hOk) (h : ∀ i, a ≤ i → i < a + n → LineGood s i) :
    ∃ t, hbmRead s tag a n = (hOk, tabGetRun 0 s.mem.hbm a n, t) ∧ Quiet s t := by
  obtain ⟨t, ht, hq, hb⟩ := linesRead_good (linePieces a n) (fun x hx => h x.1 (mem_linePieces hx).1 (mem_linePieces hx).2)
  refine ⟨t, ?_, hq⟩
  unfold hbmRead
  dsimp only
  rw [if_neg (not_not_intro hc), ht]
  simp only [if_true, hb]

/-- Bytes `d` of one line at `a`, in region `i`, have been stored. -/
structure LineStored (s : State) (i a : Nat) (d : List Byte) (t : State) : Prop extends Quiet s t where
  hbm : t.mem.hbm = tabSetRun 0 s.mem.hbm a d
  lineKey : t.mem.lineKey = tabSet 0 s.mem.lineKey (a / 128) (regionKey s i)

theorem lineStored_lineStore (s : State) (i a : Nat) (d : List Byte) : LineStored s i a d (lineStore s i a d) :=
  ⟨⟨rfl, rfl, rfl, rfl, rfl⟩, rfl, rfl⟩

/-- What leaves the plaintext and its keys may come before a store and after it. -/
theorem LineStored.congr {s s' t t' : State} {i a : Nat} {d : List Byte} (h : LineStored s' i a d t') (hs : Quiet s s')
    (hh : s'.mem.hbm = s.mem.hbm) (hl : s'.mem.lineKey = s.mem.lineKey) (ht : Quiet t' t) (hh' : t.mem.hbm = t'.mem.hbm)
    (hl' : t.mem.lineKey = t'.mem.lineKey) : LineStored s i a d t where
  toQuiet := (hs.trans h.toQuiet).trans ht
  hbm := by rw [hh', h.hbm, hh]
  lineKey := by rw [hl', h.lineKey, hl, regionKey, regionKey, hs.keys, region, region, hs.regions]

theorem lineWrite_good {s : State} {i a : Nat} {d : List Byte} (hr : regionAt s a = some i)
    (h : LineGood s a ∨ d.length = 128 ∧ a % 128 = 0) : ∃ t, lineWrite s a d = (hOk, t) ∧ LineStored s i a d t := by
  unfold lineWrite
  rw [hr]
  dsimp only
  split
  · have hs := lineStored_lineStore (modMem s fun m => { m with poison := m.poison.filter (fun x => x != a / 128) }) i a d
    exact ⟨_, rfl, hs.congr ⟨rfl, rfl, rfl, rfl, rfl⟩ rfl rfl (quiet_tagTouch _ a) rfl rfl⟩
  · next hw =>
    have hg := h.resolve_right hw
    rw [lineRead_good hg, if_pos rfl]
    have hs := lineStored_lineStore (tagTouch (inc s (hbmBlk a) F.HBMC_READS_COUNT) a) i a d
    exact ⟨_, rfl, hs.congr ⟨rfl, rfl, rfl, rfl, rfl⟩ rfl rfl (.refl _) rfl rfl⟩

theorem linePieces_line {a n : Nat} (h0 : n ≠ 0) (h : a % 128 + n ≤ 128) : linePieces a n = [(a, n)] := by
  unfold linePieces
  rw [if_neg h0, show (a + n - 1) / 128 + 1 - a / 128 = 1 by omega]
  simp only [List.range_one, List.map_cons, List.map_nil, List.cons.injEq, Prod.mk.injEq, and_true]
  omega

theorem linePieces_pair {a : Nat} (h : a % 128 = 0) : linePieces a 256 = [(a, 128), (a + 128, 128)] := by
  unfold linePieces
  rw [if_neg (by decide), show (a + 256 - 1) / 128 + 1 - a / 128 = 2 by omega]
  simp only [List.range_succ, List.range_zero, List.nil_append, List.cons_append, List.map_cons, List.map_nil, List.cons.injEq, Prod.mk.injEq,
    and_true]
  omega

/-- A run of writes in two parts. -/
theorem tabSetRun_append {α : Type} [DecidableEq α] (d : α) (xs ys : List α) (t : Tab α) (k : Nat) :
    tabSetRun d t k (xs ++ ys) = tabSetRun d (tabSetRun d t k xs) (k + xs.length) ys := by
  induction xs generalizing t k with
  | nil => rfl
  | cons x xs ih =>
    rw [List.cons_append, tabSetRun, ih, tabSetRun, List.length_cons, Nat.add_assoc, Nat.add_comm 1]

/-- A region covers whole granules. -/
theorem regionAt_add {s : State} {a : Nat} (h : a % 256 = 0) : regionAt s (a + 128) = regionAt s a := by
  unfold regionAt Region.covers
  congr 1
  funext i
  congr 1
  · congr 1
    exact decide_eq_decide.2 (by omega)
  · exact decide_eq_decide.2 (by omega)

theorem regionAt_congr {s t : State} (h : t.mem.regions = s.mem.regions) : regionAt t = regionAt s := by
  funext a
  unfold regionAt region
  rw [h]

theorem regionAt_of_check {s : State} {tag a n : Nat} (h : hbmCheck s tag a n = hOk) : ∃ i, regionAt s a = some i := by
  unfold hbmCheck at h
  split at h
  · cases h
  · split at h
    · cases h
    · exact ⟨_, by assumption⟩

/-- A write that the checks let through, of a run that one request may have: its bytes stand, and a whole line is under its region's key. -/
theorem hbmWrite_good {s : State} {tag a i : Nat} {d : List Byte} (hc : hbmCheck s tag a d.length = hOk) (hr : regionAt s a = some i)
    (hd : d.length ≠ 0 ∧ a % 128 + d.length ≤ 128 ∨ d.length = 256 ∧ a % 256 = 0) (h : ∀ j, a ≤ j → j < a + d.length → LineGood s j) :
    ∃ t, hbmWrite s tag a d = (hOk, t) ∧ Quiet s t ∧ t.mem.hbm = tabSetRun 0 s.mem.hbm a d ∧
      (d.length = 128 → t.mem.lineKey = tabSet 0 s.mem.lineKey (a / 128) (regionKey s i)) := by
  unfold hbmWrite
  dsimp only
  rw [if_neg (not_not_intro hc)]
  rcases hd with ⟨h0, hd⟩ | ⟨hl, ha⟩
  · obtain ⟨t, ht, hs⟩ := lineWrite_good hr (.inl (h a le_rfl (by omega)))
    refine ⟨t, ?_, hs.toQuiet, hs.hbm, fun _ => hs.lineKey⟩
    rw [linePieces_line h0 hd, List.foldl_cons, if_neg (not_not_intro rfl), Nat.sub_self, List.drop_zero, List.take_length, ht]
    rfl
  · have hl1 : (d.take 128).length = 128 := by rw [List.length_take]; omega
    have hl2 : ((d.drop 128).take 128).length = 128 := by rw [List.length_take, List.length_drop]; omega
    obtain ⟨t, ht, hs⟩ := lineWrite_good hr (.inr ⟨hl1, by omega⟩)
    obtain ⟨u, hu, hv⟩ := lineWrite_good (s := t) (a := a + 128) (d := (d.drop 128).take 128)
      (by rw [regionAt_add ha, regionAt_congr hs.regions, hr]) (.inr ⟨hl2, by omega⟩)
    refine ⟨u, ?_, hs.toQuiet.trans hv.toQuiet, ?_, fun hn => by omega⟩
    · rw [hl, linePieces_pair (by omega), List.foldl_cons, if_neg (not_not_intro rfl), Nat.sub_self, List.drop_zero, ht, List.foldl_cons,
        if_neg (not_not_intro rfl), Nat.add_sub_cancel_left, hu]
      rfl
    · have hd2 : (d.drop 128).take 128 = d.drop 128 := List.take_of_length_le (by rw [List.length_drop]; omega)
      have happ := tabSetRun_append 0 (d.take 128) (d.drop 128) s.mem.hbm a
      rw [List.take_append_drop, hl1] at happ
      rw [hv.hbm, hs.hbm, hd2, happ]

end Sys2Proof.Machine
end

section
/-!
PROOFS. The ciphertext of a line, and what a controller does with a request by the number it has (R437 to R439, R446).
-/

namespace Sys2Proof.Machine

/-! ## XTS block by block -/

theorem padTo_length (n : Nat) (bs : List Byte) : (padTo n bs).length = n := by
  rw [padTo, List.length_take, List.length_append, List.length_replicate]
  omega

theorem padTo_self {n : Nat} {bs : List Byte} (h : bs.length = n) : padTo n bs = bs := by
  subst h
  simp [padTo]

/-- One block of XTS under tweak `t`. -/
def xtsBlock (key : List Byte) (t : Nat) (d : List Byte) : List Byte :=
  List.zipWith (· ^^^ ·) (aes256 (key.take 32) (List.zipWith (· ^^^ ·) (d.take 16) (leBytes 16 t))) (leBytes 16 t)

theorem xtsBlock_length (key : List Byte) (t : Nat) (d : List Byte) : (xtsBlock key t d).length = 16 := by
  rw [xtsBlock, List.length_zipWith, aes256, padTo_length, leBytes_length]
  rfl

theorem xtsBlocks_succ (key : List Byte) (n t : Nat) (d : List Byte) :
    xtsBlocks key (n + 1) t d = xtsBlock key t d ++ xtsBlocks key n (tweakNext t) (d.drop 16) := rfl

theorem xtsBlocks_length (key : List Byte) (n t : Nat) (d : List Byte) : (xtsBlocks key n t d).length = 16 * n := by
  induction n generalizing t d with
  | zero => rfl
  | succ n ih => rw [xtsBlocks_succ, List.length_append, xtsBlock_length, ih]; omega

/-- Block `j` stands under the tweak that `j` steps give. -/
theorem xtsBlocks_block (key : List Byte) {n j : Nat} (hj : j < n) (t : Nat) (d : List Byte) :
    ((xtsBlocks key n t d).drop (16 * j)).take 16 = xtsBlock key (tweakNext^[j] t) (d.drop (16 * j)) := by
  induction n generalizing j t d with
  | zero => omega
  | succ n ih =>
    rw [xtsBlocks_succ]
    cases j with
    | zero => exact List.take_left' (xtsBlock_length key t d)
    | succ j =>
      have hd : 16 * (j + 1) = (xtsBlock key t d).length + 16 * j := by rw [xtsBlock_length]; omega
      rw [hd, List.drop_length_add_append, ih (by omega), List.drop_drop, xtsBlock_length, Function.iterate_succ_apply]

/-! ## What the stack holds of a whole line -/

theorem tabGetRun_tabSetRun {α : Type} [DecidableEq α] (d : α) (vs : List α) (t : Tab α) (k : Nat) :
    tabGetRun d (tabSetRun d t k vs) k vs.length = vs := by
  apply List.ext_getElem
  · rw [tabGetRun, List.length_map, List.length_range]
  · intro i _ hi
    simp only [tabGetRun, List.getElem_map, List.getElem_range, tabGet_tabSetRun_in d vs t k i hi]

theorem tabGet_tabSetRun {α : Type} [DecidableEq α] (d : α) (vs : List α) (t : Tab α) (k i : Nat) :
    tabGet d (tabSetRun d t k vs) i = if k ≤ i ∧ i < k + vs.length then (vs[i - k]?).getD d else tabGet d t i := by
  split
  · next h =>
    obtain ⟨j, rfl⟩ : ∃ j, i = k + j := ⟨i - k, by omega⟩
    have hj : j < vs.length := by omega
    rw [tabGet_tabSetRun_in d vs t k j hj, Nat.add_sub_cancel_left, List.getElem?_eq_getElem hj, Option.getD_some]
  · exact tabGet_tabSetRun_out d vs t k i (by omega)

/-- A line that has been written whole under key `key`. -/
theorem lineCipher_stored {t : State} {a key : Nat} {d : List Byte} {h : Tab Byte} {k : Tab Nat} (ha : a % 128 = 0) (hk : key ≠ 0)
    (hl : d.length = 128) (hh : t.mem.hbm = tabSetRun 0 h a d) (hkey : t.mem.lineKey = tabSet 0 k (a / 128) key) :
    lineCipher t a = some (xts ((memKey key).take 64) (a / 128) d) := by
  have hline : keyOfLine t a = some key := by
    unfold keyOfLine
    rw [hkey, tabGet_tabSet_self]
    cases key with
    | zero => exact absurd rfl hk
    | succ n => rfl
  have hd : tabGetRun 0 t.mem.hbm (a / 128 * 128) 128 = d := by
    rw [show a / 128 * 128 = a by omega, hh, ← hl, tabGetRun_tabSetRun]
  rw [lineCipher, hline, Option.map_some, hd]

/-- The ciphertext of a line, as the statement O37 spells it. -/
theorem xts_line (key : List Byte) (unit : Nat) {d : List Byte} (hl : d.length = 128) :
    (xts (key.take 64) unit d).length = 128 ∧ ∃ T : Nat → Nat, T 0 = leNat (aes256 (key.drop 32 |>.take 32) (leBytes 16 unit)) ∧
      ∀ j, j < 8 → T (j + 1) = tweakNext (T j) ∧ ((xts (key.take 64) unit d).drop (16 * j)).take 16 =
        List.zipWith (· ^^^ ·) (aes256 (key.take 32) (List.zipWith (· ^^^ ·) ((d.drop (16 * j)).take 16) (leBytes 16 (T j))))
          (leBytes 16 (T j)) := by
  have h1 : ((key.take 64).drop 32).take 32 = (key.drop 32).take 32 := by rw [List.drop_take, List.take_take]; rfl
  have h2 : (key.take 64).take 32 = key.take 32 := by rw [List.take_take]; rfl
  unfold xts
  rw [hl, h1]
  refine ⟨xtsBlocks_length _ _ _ _, fun j => tweakNext^[j] _, rfl, fun j hj => ⟨Function.iterate_succ_apply' _ _ _, ?_⟩⟩
  rw [xtsBlocks_block _ hj, xtsBlock, h2]

/-! ## Requests at a controller -/

/-- The controller expects number `v` under key `key` from now on. -/
def expecting (s : State) (key v : Nat) : State := modMem s (fun m => { m with expect := tabSet 0 m.expect key v })

theorem memMarks_frame (s : State) (marks : LineMarks) : ∃ x, memMarks s marks = { s with mem := { s.mem with marks := x } } := by
  unfold memMarks forEach
  induction marks generalizing s with
  | nil => exact ⟨s.mem.marks, rfl⟩
  | cons x xs ih =>
    rw [List.foldl_cons]
    dsimp only
    split
    · obtain ⟨y, h⟩ := ih (setMark s x.1.toNat x.2)
      exact ⟨y, h.trans rfl⟩
    · exact ih s

section
variable {s : State} {req tag rseq a size : Nat} {write : Bool} {d : List Byte}

theorem readKept_hbmAnswer (s : State) (req tag : Nat) (write : Bool) (c rseq st a size : Nat) (d : List Byte) :
    ReadKept s (hbmAnswer s req tag write c rseq st a size d) := by
  rw [hbmAnswer_eq]
  exact .of_regs rfl rfl rfl rfl

theorem turnKept_hbmPerform (s : State) (req tag rseq : Nat) (write : Bool) (a size : Nat) (d : List Byte) :
    TurnKept s (hbmPerform s req tag rseq write a size d) := by
  unfold hbmPerform
  dsimp only
  split
  · exact (readKept_hbmAnswer ..).toTurnKept
  · split
    · exact (turnKept_hbmWrite s tag a _).trans (readKept_hbmAnswer ..).toTurnKept
    · exact (readKept_hbmRead s tag a _).toTurnKept.trans (readKept_hbmAnswer ..).toTurnKept

theorem readKept_hbmPerform (s : State) (req tag rseq a size : Nat) (d : List Byte) :
    ReadKept s (hbmPerform s req tag rseq false a size d) := by
  unfold hbmPerform
  dsimp only
  split
  · exact readKept_hbmAnswer ..
  · exact (readKept_hbmRead s tag a _).trans (readKept_hbmAnswer ..)

theorem hbmPerform_decode (h : hbmBytes size = 0 ∨ a % hbmBytes size ≠ 0 ∨ payloadOk write (hbmBytes size) d = false) :
    hbmPerform s req tag rseq write a size d = { s with out := s.out ++ [answerOut s req tag write (hbmCtl a) rseq hDecode a size []] } := by
  unfold hbmPerform
  dsimp only
  rw [if_pos (by simpa using h), hbmAnswer_eq]

/-- A request that passes the checks of its form. -/
theorem hbmPerform_formed (h0 : hbmBytes size ≠ 0) (ha : a % hbmBytes size = 0) (hp : payloadOk write (hbmBytes size) d = true) :
    hbmPerform s req tag rseq write a size d =
      if write then
        let r := hbmWrite s tag a (padTo (hbmBytes size) d)
        hbmAnswer r.2 req tag write (hbmCtl a) rseq r.1 a size []
      else
        let r := hbmRead s tag a (hbmBytes size)
        hbmAnswer r.2.2 req tag write (hbmCtl a) rseq r.1 a size r.2.1 := by
  unfold hbmPerform
  dsimp only
  rw [if_neg (by simp [h0, ha, hp])]

theorem quiet_hbmRefused (s : State) (a st : Nat) : Quiet s (hbmRefused s a st) := by
  unfold hbmRefused
  split
  · exact ⟨rfl, rfl, rfl, rfl, rfl⟩
  · exact .refl s

/-- A request that the checks of its address refuse: its answer, and the count of a refusal by partition. -/
theorem hbmPerform_refused (h0 : hbmBytes size ≠ 0) (ha : a % hbmBytes size = 0) (hp : payloadOk write (hbmBytes size) d = true)
    (hc : hbmCheck s tag a (hbmBytes size) ≠ hOk) :
    let st := hbmCheck s tag a (hbmBytes size)
    let t := hbmPerform s req tag rseq write a size d
    t.out = s.out ++ [answerOut s req tag write (hbmCtl a) rseq st a size []] ∧ t.mem.hbm = s.mem.hbm ∧
      (st = hPartition → rd t (hbmBlk a) F.HBMC_PARTREFUSE_COUNT = (rd s (hbmBlk a) F.HBMC_PARTREFUSE_COUNT + 1) % 2 ^ 32) := by
  intro st t
  have ht : t = hbmAnswer (hbmRefused s a st) req tag write (hbmCtl a) rseq st a size [] := by
    refine (hbmPerform_formed h0 ha hp).trans ?_
    cases write
    · rw [if_neg Bool.false_ne_true, hbmRead]
      dsimp only
      rw [if_pos hc]
    · rw [if_pos rfl, hbmWrite]
      dsimp only
      rw [padTo_length, if_pos hc]
  have hq := quiet_hbmRefused s a st
  rw [ht, hbmAnswer_eq, answerOut_congr hq.hubs hq.gpkg]
  dsimp only
  refine ⟨by rw [hq.out], (readKept_hbmRefused s a st).hbm, fun hst => ?_⟩
  rw [hbmRefused, if_pos hst]
  exact rd_inc_self s _ _ (by decide)

/-- The sizes of a request. -/
theorem hbmBytes_cases (size : Nat) : hbmBytes size ∈ [4, 8, 32, 64, 128, 256, 0] := by
  unfold hbmBytes
  split_ifs <;> decide

theorem hbmBytes_aligned (h0 : hbmBytes size ≠ 0) (ha : a % hbmBytes size = 0) :
    hbmBytes size ≠ 0 ∧ a % 128 + hbmBytes size ≤ 128 ∨ hbmBytes size = 256 ∧ a % 256 = 0 := by
  have h := hbmBytes_cases size
  generalize hbmBytes size = n at *
  simp only [List.mem_cons, List.not_mem_nil, or_false] at h
  rcases h with rfl | rfl | rfl | rfl | rfl | rfl | rfl <;> omega

/-! ### By the number of the request -/

theorem hbmRequest_off (h : rdB s (bHbmc (hbmCtl a)) F.STATE_READY = false) : hbmRequest s req tag rseq write a size d = s :=
  if_pos (by rw [h]; rfl)

/-- What a READY controller does with a request, by how far it is from the number expected. -/
theorem hbmRequest_on (h : rdB s (bHbmc (hbmCtl a)) F.STATE_READY = true) (req tag rseq : Nat) (write : Bool) (size : Nat) (d : List Byte) :
    hbmRequest s req tag rseq write a size d =
      let key := hbmCtl a * 4096 + req
      let want := tabGet 0 s.mem.expect key
      let delta := (rseq + 4096 - want) % 4096
      if delta = 0 then hbmPerform (expecting s key ((want + 1) % 4096)) req tag rseq write a size d
      else if delta ≤ 2047 then
        if tabGet 0 s.mem.resent key ≠ 0 ∧ ltNow s < tabGet 0 s.mem.resent key - 1 + 1000 then s
        else hbmAnswer (modMem s (fun m => { m with resent := tabSet 0 m.resent key (ltNow s + 1) })) req tag write (hbmCtl a) want hResend a
          size []
      else
        let t := inc s (bHbmc (hbmCtl a)) F.HBMC_DUPREQ_COUNT
        if write then hbmAnswer t req tag write (hbmCtl a) rseq hOk a size [] else hbmPerform t req tag rseq false a size d :=
  if_neg (by rw [h]; decide)

/-- The number expected goes up by 1 with every request that is performed. -/
theorem expect_performed (s : State) (key v req tag rseq : Nat) (write : Bool) (a size : Nat) (d : List Byte) :
    tabGet 0 (hbmPerform (expecting s key v) req tag rseq write a size d).mem.expect key = v := by
  rw [(turnKept_hbmPerform (expecting s key v) req tag rseq write a size d).expect]
  exact tabGet_tabSet_self 0 v s.mem.expect key

theorem answerOut_expecting (s : State) (key v : Nat) : answerOut (expecting s key v) = answerOut s := answerOut_congr rfl rfl

theorem lineGood_expecting {key v : Nat} (h : LineGood s a) : LineGood (expecting s key v) a := ⟨h.mark, h.poison, h.key⟩

/-- A read that goes well answers the bytes. -/
theorem hbmPerform_read (h0 : hbmBytes size ≠ 0) (ha : a % hbmBytes size = 0) (hp : payloadOk false (hbmBytes size) d = true)
    (hc : hbmCheck s tag a (hbmBytes size) = hOk) (hg : ∀ i, a ≤ i → i < a + hbmBytes size → LineGood s i) :
    (hbmPerform s req tag rseq false a size d).out =
      s.out ++ [answerOut s req tag false (hbmCtl a) rseq hOk a size (tabGetRun 0 s.mem.hbm a (hbmBytes size))] := by
  obtain ⟨t, ht, hq⟩ := hbmRead_good hc hg
  rw [hbmPerform_formed h0 ha hp, if_neg Bool.false_ne_true, ht]
  dsimp only
  rw [hbmAnswer_eq, answerOut_congr hq.hubs hq.gpkg]
  dsimp only
  rw [hq.out]

/-- A write that goes well: its answer, its bytes, and the key of a whole line. -/
theorem hbmPerform_write {i : Nat} (h0 : hbmBytes size ≠ 0) (ha : a % hbmBytes size = 0) (hl : d.length = hbmBytes size)
    (hp : payloadOk true (hbmBytes size) d = true) (hc : hbmCheck s tag a (hbmBytes size) = hOk) (hr : regionAt s a = some i)
    (hg : ∀ j, a ≤ j → j < a + hbmBytes size → LineGood s j) :
    (hbmPerform s req tag rseq true a size d).out = s.out ++ [answerOut s req tag true (hbmCtl a) rseq hOk a size []] ∧
      (hbmPerform s req tag rseq true a size d).mem.hbm = tabSetRun 0 s.mem.hbm a d ∧
      (hbmBytes size = 128 →
        (hbmPerform s req tag rseq true a size d).mem.lineKey = tabSet 0 s.mem.lineKey (a / 128) (regionKey s i)) := by
  rw [← hl] at hc hg
  obtain ⟨t, ht, hq, hb, hk⟩ := hbmWrite_good hc hr (by rw [hl]; exact hbmBytes_aligned h0 ha) hg
  rw [hbmPerform_formed h0 ha hp, if_pos rfl, padTo_self hl, ht]
  dsimp only
  rw [hbmAnswer_eq, answerOut_congr hq.hubs hq.gpkg]
  dsimp only
  exact ⟨by rw [hq.out], hb, fun hn => hk (hl.trans hn)⟩

end

section
variable {s : State} {req tag rseq a size : Nat} {write : Bool} {d : List Byte}

/-- A request that has the number expected, performed: the clauses of O37. -/
theorem hbmRequest_performed (hr : rdB s (bHbmc (hbmCtl a)) F.STATE_READY = true)
    (hd : (rseq + 4096 - tabGet 0 s.mem.expect (hbmCtl a * 4096 + req)) % 4096 = 0) :
    let n := hbmBytes size
    let key := hbmCtl a * 4096 + req
    let t := hbmRequest s req tag rseq write a size d
    tabGet 0 t.mem.expect key = (tabGet 0 s.mem.expect key + 1) % 4096 ∧
    (n = 0 ∨ a % n ≠ 0 ∨ payloadOk write n d = false → t.out = s.out ++ [answerOut s req tag write (hbmCtl a) rseq hDecode a size []] ∧ t.mem.hbm = s.mem.hbm) ∧
    (n ≠ 0 → a % n = 0 → payloadOk write n d = true → hbmCheck s tag a n ≠ hOk →
      t.out = s.out ++ [answerOut s req tag write (hbmCtl a) rseq (hbmCheck s tag a n) a size []] ∧ t.mem.hbm = s.mem.hbm ∧
      (hbmCheck s tag a n = hPartition → rd t (bHbmc (hbmCtl a)) F.HBMC_PARTREFUSE_COUNT =
        (rd s (bHbmc (hbmCtl a)) F.HBMC_PARTREFUSE_COUNT + 1) % 2 ^ 32)) ∧
    (n ≠ 0 → a % n = 0 → hbmCheck s tag a n = hOk → (∀ i, a ≤ i → i < a + n → LineGood s i) →
      (write = false → d = [] → t.mem.hbm = s.mem.hbm ∧ t.out = s.out ++ [answerOut s req tag write (hbmCtl a) rseq hOk a size (tabGetRun 0 s.mem.hbm a n)]) ∧
      (write = true → d.length = n → t.out = s.out ++ [answerOut s req tag write (hbmCtl a) rseq hOk a size []] ∧ t.mem.hbm = tabSetRun 0 s.mem.hbm a d ∧
        (n = 128 → ∀ i, regionAt s a = some i → regionKey s i ≠ 0 →
          lineCipher t a = some (xts ((memKey (regionKey s i)).take 64) (a / 128) d)))) := by
  intro n key t
  have ht : t = hbmPerform (expecting s key ((tabGet 0 s.mem.expect key + 1) % 4096)) req tag rseq write a size d := by
    refine (hbmRequest_on hr req tag rseq write size d).trans ?_
    exact if_pos hd
  rw [ht]
  generalize (tabGet 0 s.mem.expect key + 1) % 4096 = v
  refine ⟨expect_performed s key v .., fun hn => ?_, fun h0 ha hp hc => ?_, fun h0 ha hc hg => ⟨fun hw hdata => ?_, fun hw hdata => ?_⟩⟩
  · rw [hbmPerform_decode hn, answerOut_expecting]
    exact ⟨rfl, rfl⟩
  · have h := hbmPerform_refused (s := expecting s key v) (req := req) (rseq := rseq) h0 ha hp hc
    rw [answerOut_expecting] at h
    exact h
  · subst hw hdata
    have hp : payloadOk false n [] = true := by simp [payloadOk]
    refine ⟨(readKept_hbmPerform (expecting s key v) req tag rseq a size []).hbm, ?_⟩
    rw [hbmPerform_read (s := expecting s key v) h0 ha hp hc fun i h1 h2 => lineGood_expecting (hg i h1 h2), answerOut_expecting]
    rfl
  · subst hw
    have hp : payloadOk true n d = true := by simp [payloadOk, hdata]
    obtain ⟨i, hi⟩ := regionAt_of_check hc
    obtain ⟨ho, hb, hk⟩ := hbmPerform_write (s := expecting s key v) (req := req) (rseq := rseq) h0 ha hdata hp hc hi
      fun i h1 h2 => lineGood_expecting (hg i h1 h2)
    rw [answerOut_expecting] at ho
    refine ⟨ho, hb, fun hn i' hi' hkey => ?_⟩
    obtain rfl : i = i' := Option.some.inj (hi.symm.trans hi')
    exact lineCipher_stored (by rw [hn] at ha; exact ha) hkey (hdata.trans hn) hb (hk hn)

end

end Sys2Proof.Machine
end

section
/-!
PROOFS. Memory requests: a controller's answers and a loom's interface that takes them (R117, R352, R438, R439), and O37 from them.
-/

namespace Sys2Proof.Machine

/-! ## Responses at a loom's interface -/

/-- The packet that loom `l` sends for request `q`. -/
def askOut (s : State) (l : Nat) (q : HbmReq) : Out :=
  ⟨if q.write then .hbmWrite else .hbmRead, bLoom l, niFlits s l 2 q.write.toNat 0 (selfPkg s)
    (memPath (genPath s l (selfPkg s) (blockEp (hbmBlk q.addr))) (memWord q.addr q.size 0 q.rseq)) (byteFlits q.data)⟩

/-- From `s` to `t` loom `l` has sent `os`; what its packets depend on stands. -/
structure AskKept (l : Nat) (s t : State) : Prop where
  mem : t.mem = s.mem
  looms : t.looms = s.looms
  hubs : t.hubs = s.hubs
  gpkg : t.gpkg = s.gpkg
  iso : isolated t l = isolated s l
  owner : rd t (bLoom l) F.OWNER_PART = rd s (bLoom l) F.OWNER_PART

theorem isolated_inc (s : State) (l b : Nat) {f : Fld} (hf : f.off < 4096) (hn : f.off ≠ F.HUB_ROWISO_ISO.off) : isolated (inc s b f) l = isolated s l := by
  have hs : siteOf (inc s b f) = siteOf s := siteOf_congr rfl
  have hi : (rowHalfOf (l / 32) (l % 32)).2 < 65536 := lt_trans (Nat.mod_lt _ (by decide)) (by decide : 3 < 65536)
  unfold isolated
  dsimp only
  rw [hs, inc, incBy, wr, rdI_wrI_ne _ _ _ _ _ _ _ _ (regKey_ne (by decide) hf hi (by decide) (.inr (.inl (Ne.symm hn))))]

theorem askKept_inc {s : State} {l : Nat} {f : Fld} (b : Nat) (hf : fldsApart f F.OWNER_PART = true) (hn : f.off ≠ F.HUB_ROWISO_ISO.off) :
    AskKept l s (inc s b f) := by
  refine ⟨rfl, rfl, rfl, rfl, isolated_inc s l b ?_ hn, rd_inc_apart hf s b _⟩
  simp only [fldsApart, Bool.and_eq_true, decide_eq_true_eq] at hf
  exact hf.1.1.1

theorem AskKept.trans {l : Nat} {s t u : State} (h : AskKept l s t) (k : AskKept l t u) : AskKept l s u :=
  ⟨k.mem.trans h.mem, k.looms.trans h.looms, k.hubs.trans h.hubs, k.gpkg.trans h.gpkg, k.iso.trans h.iso, k.owner.trans h.owner⟩

theorem askOut_congr {l : Nat} {s t : State} (h : AskKept l s t) : askOut t l = askOut s l := by
  funext q
  have hs : selfPkg t = selfPkg s := by rw [selfPkg, selfPkg, h.gpkg]
  have ho : niOff t l = niOff s l := by rw [niOff, niOff, loom_congr h.looms]
  rw [askOut, askOut, niFlits, niFlits, ho, h.owner, headOf_congr h.gpkg, genPath_congr h.gpkg, hs]

theorem hbmEmit_sends {l : Nat} {s : State} (h : isolated s l = false) (q : HbmReq) :
    (hbmEmit s (bLoom l) q).out = s.out ++ [askOut s l q] ∧ AskKept l s (hbmEmit s (bLoom l) q) := by
  have hk : AskKept l s (inc s (bLoom l) F.LOOM_NIPKTTX_COUNT) := askKept_inc _ (by decide) (by decide)
  have he : hbmEmit s (bLoom l) q = { inc s (bLoom l) F.LOOM_NIPKTTX_COUNT with out := s.out ++ [askOut s l q] } := by
    unfold hbmEmit niSend
    dsimp only
    rw [Nat.add_sub_cancel_left, if_neg (fun h => h.1 rfl), if_neg (by rw [h]; decide)]
    cases hq : q.write <;> simp [send, outOf, selvOf, askOut, hq]
  rw [he]
  exact ⟨rfl, hk.mem, hk.looms, hk.hubs, hk.gpkg, hk.iso, hk.owner⟩

/-- A loom that is not isolated sends its requests again, one packet each. -/
theorem hbmEmits_send {l : Nat} {s : State} (h : isolated s l = false) (qs : List HbmReq) :
    (forEach qs (fun q t => hbmEmit t (bLoom l) q) s).out = s.out ++ qs.map (askOut s l) ∧
      AskKept l s (forEach qs (fun q t => hbmEmit t (bLoom l) q) s) := by
  induction qs generalizing s with
  | nil => exact ⟨by rw [List.map_nil, List.append_nil]; rfl, rfl, rfl, rfl, rfl, rfl, rfl⟩
  | cons q qs ih =>
    obtain ⟨ho, hk⟩ := hbmEmit_sends h q
    obtain ⟨ho', hk'⟩ := ih (hk.iso.trans h)
    rw [forEach_cons]
    refine ⟨?_, hk.trans hk'⟩
    rw [ho', ho, askOut_congr hk, List.map_cons, List.append_assoc]
    rfl

section
variable {s : State} {l c rseq st part : Nat}

theorem loomResponse_isolated (h : isolated s l = true) : loomResponse s l part c rseq st = isoDrop s l := if_pos h

theorem loomResponse_foreign (h : isolated s l = false)
    (hp : ¬ (part = rd s (bLoom l) F.OWNER_PART ∨ part = 0x1E ∨ part = 0x1F)) : loomResponse s l part c rseq st =
      latchFault (inc (inc s (bLoom l) F.LOOM_NIPKTRX_COUNT) (bLoom l) F.LOOM_PARTDROP_COUNT) (bLoom l) 0x0115 := by
  unfold loomResponse
  dsimp only
  rw [if_neg (by rw [h]; decide), rd_inc_apart (by decide), if_pos (by tauto)]

/-- A response that its interface takes in. -/
theorem loomResponse_mine (h : isolated s l = false) (hp : part = rd s (bLoom l) F.OWNER_PART ∨ part = 0x1E ∨ part = 0x1F) :
    loomResponse s l part c rseq st =
      let u := inc s (bLoom l) F.LOOM_NIPKTRX_COUNT
      let t := hbmResponse u (bLoom l) c rseq st
      match (hbmTx s (bLoom l) c).unans.find? (fun q => q.rseq = rseq) with
      | some q => if q.spill then spillAnswered t l q st else t
      | none => t := by
  unfold loomResponse
  dsimp only
  rw [if_neg (by rw [h]; decide), rd_inc_apart (by decide), if_neg (by tauto)]
  rfl

theorem hbmResponse_unknown (hst : st ≠ hResend) (b : Nat) (hn : ∀ q ∈ (hbmTx s b c).unans, q.rseq ≠ rseq) : hbmResponse s b c rseq st = s := by
  unfold hbmResponse
  dsimp only
  rw [if_neg hst, if_neg (by simpa using hn)]

/-- The requester drops what was answered; with nothing held, no other request follows. -/
theorem hbmResponse_answered (hst : st ≠ hResend) {b : Nat} {q : HbmReq} (hq : (hbmTx s b c).unans.find? (fun q => q.rseq = rseq) = some q)
    (hh : (hbmTx s b c).held = []) : hbmResponse s b c rseq st =
      setHbmTx s b c { hbmTx s b c with unans := (hbmTx s b c).unans.filter (fun q => q.rseq != rseq) } := by
  have hany : (hbmTx s b c).unans.any (fun q => q.rseq = rseq) = true :=
    List.any_eq_true.2 ⟨q, List.mem_of_find?_eq_some hq, by simpa using List.find?_some hq⟩
  have hx : ∀ x, hbmTx (setHbmTx s b c x) b c = x := fun x => by simp [hbmTx, setHbmTx, modMem]
  unfold hbmResponse
  dsimp only
  rw [if_neg hst, if_pos hany, hbmFeed]
  dsimp only
  rw [hx]
  dsimp only
  rw [hh]

theorem hbmResponse_resend (b : Nat) : hbmResponse s b c rseq hResend =
    forEach ((hbmTx s b c).unans.filter (fun q => (q.rseq + 4096 - rseq) % 4096 < 2048)) (fun q t => hbmEmit t b q) s := by
  unfold hbmResponse
  exact if_pos rfl

end

theorem rd_modLoom (s : State) (l : Nat) (f : Loom → Loom) (b : Nat) (g : Fld) : rd (modLoom s l f) b g = rd s b g := rd_congr rfl b g

theorem rd_modDq {g : Fld} (hg : fldsApart F.LOOM_DQCOUNT_COUNT g = true) (s : State) (l k : Nat) (f : DqSlot → DqSlot) (b : Nat) :
    rd (modDq s l k f) b g = rd s b g := by
  rw [modDq, dqRecount, rd_wr_apart hg, rd_modLoom]

/-- A write that the spill region refused latches the fault; what follows is work of the delay queues. -/
theorem rd_spillRefused {g : Fld} (hg : fldsApart F.LOOM_DQCOUNT_COUNT g = true) (s : State) (l a : Nat) (x : W64) (b : Nat) :
    rd (spillRefused s l a x) b g = rd (latchFault s (bLoom l) 0x0103) b g := by
  unfold spillRefused
  refine forEach_keeps (fun t => rd t b g) (fun k s => forEach_keeps (fun t => rd t b g) (fun i s => ?_) _ s) _ _
  dsimp only
  split
  · rfl
  · split
    · rfl
    · rw [rd_modLoom, rd_modDq hg]

/-- The end of a request of the spill region that was not refused. -/
theorem spillAnswered_ok (s : State) (l : Nat) (q : HbmReq) : spillAnswered s l q hOk =
    if q.write ∧ q.addr % 256 ≠ linkAt then inc s (bLoom l) F.LOOM_DQSPILL_COUNT else s := if_pos rfl

theorem spillAnswered_refused {st : Nat} (h0 : st ≠ hOk) (h6 : st ≠ hResend) {q : HbmReq} (hw : q.write = true) (s : State) (l : Nat) :
    spillAnswered s l q st = spillRefused s l q.addr (BitVec.ofNat 64 (leNat q.data)) := by
  rw [spillAnswered, if_neg h0, if_neg h6, if_pos hw]

/-! ## O37 -/

/-- A loom's block number fits the requester field. -/
theorem bLoom_toNat (l : LoomId) : (BitVec.ofNat 12 (bLoom l)).toNat = bLoom l := by
  rw [BitVec.toNat_ofNat]
  exact Nat.mod_eq_of_lt (by unfold bLoom; omega)

theorem kindOf_bLoom (l : LoomId) : kindOf (bLoom l) = some .loom := by
  have hl := l.isLt
  unfold kindOf bLoom
  repeat rw [if_neg (by omega)]
  exact if_pos (by omega)

theorem exec_hbmResponse_loom (l : LoomId) (part : BitVec 5) (c : HbmcId) (rseq : BitVec 12) (st : BitVec 3) (s : State) :
    exec (.hbmResponse (.ofNat 12 (bLoom l)) part c rseq st) s = .next (loomResponse s l part.toNat c rseq.toNat st.toNat) := by
  have he : exec (.hbmResponse (.ofNat 12 (bLoom l)) part c rseq st) s = execHbmResponse (.ofNat 12 (bLoom l)) part c rseq st s := rfl
  rw [he, execHbmResponse, bLoom_toNat, kindOf_bLoom]
  dsimp only
  rw [Nat.add_sub_cancel_left]

/-- From `s` to `m` marks of lines have come, and nothing else. -/
def Marked (s m : State) : Prop := ∃ x, m = { s with mem := { s.mem with marks := x } }

/-- What a request and its answer read of a state, but for the marks of lines, is the same after marks have come. -/
theorem Marked.same {s m : State} (h : Marked s m) : m.out = s.out ∧ m.regs = s.regs ∧ m.mem.hbm = s.mem.hbm ∧ m.mem.expect = s.mem.expect ∧
    m.mem.resent = s.mem.resent ∧ m.mem.poison = s.mem.poison ∧ ltNow m = ltNow s ∧ answerOut m = answerOut s ∧ hbmCheck m = hbmCheck s ∧
    regionAt m = regionAt s ∧ regionKey m = regionKey s ∧ staleKey m = staleKey s := by
  obtain ⟨x, rfl⟩ := h
  exact ⟨rfl, rfl, rfl, rfl, rfl, rfl, rfl, answerOut_congr rfl rfl, rfl, rfl, rfl, rfl⟩

/-- Marks are part of the memory. -/
theorem Marked.withMem {s m : State} (h : Marked s m) (x : MemSt) (o : List Out) : { m with mem := x, out := o } = { s with mem := x, out := o } := by
  obtain ⟨y, rfl⟩ := h
  rfl

section
variable {s : State} {req tag rseq a size : Nat} {write : Bool} {d : List Byte}

/-- A request ahead of the number expected, less than 1,000 ns after the last answer RESEND. -/
theorem hbmRequest_ahead_quiet (hr : rdB s (bHbmc (hbmCtl a)) F.STATE_READY = true)
    (h1 : 1 ≤ (rseq + 4096 - tabGet 0 s.mem.expect (hbmCtl a * 4096 + req)) % 4096)
    (h2 : (rseq + 4096 - tabGet 0 s.mem.expect (hbmCtl a * 4096 + req)) % 4096 ≤ 2047)
    (hl : tabGet 0 s.mem.resent (hbmCtl a * 4096 + req) ≠ 0 ∧ ltNow s < tabGet 0 s.mem.resent (hbmCtl a * 4096 + req) - 1 + 1000) :
    hbmRequest s req tag rseq write a size d = s := by
  rw [hbmRequest_on hr]
  exact (if_neg (Nat.one_le_iff_ne_zero.1 h1)).trans ((if_pos h2).trans (if_pos hl))

/-- A request ahead of the number expected is answered RESEND with that number. -/
theorem hbmRequest_ahead (hr : rdB s (bHbmc (hbmCtl a)) F.STATE_READY = true)
    (h1 : 1 ≤ (rseq + 4096 - tabGet 0 s.mem.expect (hbmCtl a * 4096 + req)) % 4096)
    (h2 : (rseq + 4096 - tabGet 0 s.mem.expect (hbmCtl a * 4096 + req)) % 4096 ≤ 2047)
    (hl : ¬ (tabGet 0 s.mem.resent (hbmCtl a * 4096 + req) ≠ 0 ∧ ltNow s < tabGet 0 s.mem.resent (hbmCtl a * 4096 + req) - 1 + 1000)) :
    hbmRequest s req tag rseq write a size d =
      { s with
        mem := { s.mem with resent := tabSet 0 s.mem.resent (hbmCtl a * 4096 + req) (ltNow s + 1) }
        out := s.out ++ [answerOut s req tag write (hbmCtl a) (tabGet 0 s.mem.expect (hbmCtl a * 4096 + req)) hResend a size []] } := by
  rw [hbmRequest_on hr]
  refine ((if_neg (Nat.one_le_iff_ne_zero.1 h1)).trans ((if_pos h2).trans (if_neg hl))).trans ?_
  rw [hbmAnswer_eq, answerOut_congr (s := s) rfl rfl]
  rfl

/-- A request behind the number expected is counted as a duplicate. -/
theorem hbmRequest_duplicate (hr : rdB s (bHbmc (hbmCtl a)) F.STATE_READY = true)
    (hd : 2048 ≤ (rseq + 4096 - tabGet 0 s.mem.expect (hbmCtl a * 4096 + req)) % 4096) :
    hbmRequest s req tag rseq write a size d =
      if write then hbmAnswer (inc s (bHbmc (hbmCtl a)) F.HBMC_DUPREQ_COUNT) req tag write (hbmCtl a) rseq hOk a size []
      else hbmPerform (inc s (bHbmc (hbmCtl a)) F.HBMC_DUPREQ_COUNT) req tag rseq false a size d := by
  rw [hbmRequest_on hr]
  exact (if_neg (by omega)).trans (if_neg (by omega))

/-- It is answered again, a read with the bytes and a write as done, and no byte changes. -/
theorem hbmRequest_behind (hr : rdB s (bHbmc (hbmCtl a)) F.STATE_READY = true)
    (hd : 2048 ≤ (rseq + 4096 - tabGet 0 s.mem.expect (hbmCtl a * 4096 + req)) % 4096) :
    ReadKept (inc s (bHbmc (hbmCtl a)) F.HBMC_DUPREQ_COUNT) (hbmRequest s req tag rseq write a size d) ∧
      (write = true → (hbmRequest s req tag rseq write a size d).out = s.out ++ [answerOut s req tag write (hbmCtl a) rseq hOk a size []]) := by
  have hc : answerOut (inc s (bHbmc (hbmCtl a)) F.HBMC_DUPREQ_COUNT) = answerOut s := answerOut_congr rfl rfl
  rw [hbmRequest_duplicate hr hd]
  generalize hu : inc s (bHbmc (hbmCtl a)) F.HBMC_DUPREQ_COUNT = u at hc ⊢
  have ho : u.out = s.out := by rw [← hu, inc_out]
  split
  · refine ⟨readKept_hbmAnswer u req tag write _ rseq hOk a size [], fun _ => ?_⟩
    rw [hbmAnswer_eq, hc, ho]
  · next h => exact ⟨readKept_hbmPerform u req tag rseq a size d, fun hw => absurd hw h⟩

end

/-- A fault that a refused write of the spill region latches. -/
theorem spillRefused_shows (s : State) (l a : Nat) (x : W64) : rd (spillRefused s l a x) (bLoom l) F.FAULTCAUSE_VALID = 1 ∧
    (rd s (bLoom l) F.FAULTCAUSE_VALID = 0 → rd (spillRefused s l a x) (bLoom l) F.FAULTCAUSE_CAUSE = 0x0103) := by
  obtain ⟨hv, hc⟩ := latchFault_shows s (bLoom l) 0x0103
  rw [rd_spillRefused (by decide), rd_spillRefused (by decide)]
  exact ⟨beq_iff_eq.1 hv, hc⟩

/-- What a loom does with the response to its request `q`: the clauses of O37. -/
theorem loomResponse_answered {s : State} {l c rseq st part : Nat} {q : HbmReq} (hi : isolated s l = false)
    (hp : part = rd s (bLoom l) F.OWNER_PART ∨ part = 0x1E ∨ part = 0x1F)
    (hq : (hbmTx s (bLoom l) c).unans.find? (fun q => q.rseq = rseq) = some q) (hst : st ≠ hResend) (hh : (hbmTx s (bLoom l) c).held = []) :
    let x := hbmTx s (bLoom l) c
    let t := setHbmTx (inc s (bLoom l) F.LOOM_NIPKTRX_COUNT) (bLoom l) c { x with unans := x.unans.filter (fun q => q.rseq != rseq) }
    loomResponse s l part c rseq st = if q.spill then spillAnswered t l q st else t := by
  intro x t
  rw [loomResponse_mine hi hp, hq]
  have ht : hbmResponse (inc s (bLoom l) F.LOOM_NIPKTRX_COUNT) (bLoom l) c rseq st = t := hbmResponse_answered hst hq hh
  dsimp only
  rw [ht]

theorem loomResponse_unknown {s : State} {l c rseq st part : Nat} (hi : isolated s l = false)
    (hp : part = rd s (bLoom l) F.OWNER_PART ∨ part = 0x1E ∨ part = 0x1F) (hst : st ≠ hResend)
    (hn : ∀ q ∈ (hbmTx s (bLoom l) c).unans, q.rseq ≠ rseq) :
    loomResponse s l part c rseq st = inc s (bLoom l) F.LOOM_NIPKTRX_COUNT := by
  rw [loomResponse_mine hi hp, List.find?_eq_none.2 (by simpa using hn)]
  exact hbmResponse_unknown hst (bLoom l) hn

/-- RESEND sends every open request from the number expected on. -/
theorem loomResponse_resend {s : State} {l c rseq part : Nat} (hi : isolated s l = false)
    (hp : part = rd s (bLoom l) F.OWNER_PART ∨ part = 0x1E ∨ part = 0x1F) :
    let t := loomResponse s l part c rseq hResend
    t.mem = s.mem ∧ t.looms = s.looms ∧ t.out = s.out ++
      ((hbmTx s (bLoom l) c).unans.filter (fun q => (q.rseq + 4096 - rseq) % 4096 < 2048)).map (askOut s l) := by
  intro t
  have hu : AskKept l s (inc s (bLoom l) F.LOOM_NIPKTRX_COUNT) := askKept_inc _ (by decide) (by decide)
  have ht : t = hbmResponse (inc s (bLoom l) F.LOOM_NIPKTRX_COUNT) (bLoom l) c rseq hResend := by
    refine (loomResponse_mine hi hp).trans ?_
    dsimp only
    split
    · exact ite_self _
    · rfl
  obtain ⟨ho, hk⟩ := hbmEmits_send (hu.iso.trans hi) ((hbmTx s (bLoom l) c).unans.filter (fun q => (q.rseq + 4096 - rseq) % 4096 < 2048))
  rw [ht, hbmResponse_resend]
  rw [askOut_congr hu] at ho
  exact ⟨hk.mem, hk.looms, ho⟩

/-- Settles O37: a request by how far its number is from the one expected, and a response by what it finds open. -/
theorem hbmRequests : Obligations.HbmRequests := by
  intro req rseq tag write addr size st data marks c l part s a n k b want last Δ m run rsp lb x ask answer mine u
  have hrun : run = .next (hbmRequest m req.toNat tag.toNat rseq.toNat write a size.toNat data) := rfl
  have hans : answer = .next (loomResponse s l part.toNat c rseq.toNat st.toNat) := exec_hbmResponse_loom l part c rseq st s
  obtain ⟨hout, hregs, hhbm, hexp, hres, hpoi, hlt, hansw, hchk, hreg, hkey, hstale⟩ := Marked.same (memMarks_frame s marks : Marked s m)
  have hrd : ∀ b f, rd m b f = rd s b f := rd_congr hregs
  have hready : rdB m b F.STATE_READY = rdB s b F.STATE_READY := by rw [rdB, rdB, hrd]
  have hrsp : ∀ q st d, answerOut m req.toNat tag.toNat write k q st a size.toNat d = rsp q st d := by rw [hansw]; intros; rfl
  have hwant : tabGet 0 m.mem.expect (k * 4096 + req.toNat) = want := by rw [hexp]
  have hlast : tabGet 0 m.mem.resent (k * 4096 + req.toNat) = last := by rw [hres]
  rw [hrun, hans]
  refine ⟨fun h => ?_, fun h => ⟨fun hd => ?_, fun h1 h2 => ?_, fun h1 => ?_⟩, fun h => ?_, fun hi hp => ?_, fun q hq hf hst hh => ?_,
    fun hq hst hn => ?_, fun hq hst => ?_, fun hi => ?_⟩
  · rw [hbmRequest_off (hready.trans h)]
  · obtain ⟨he, hdec, href, hok⟩ := hbmRequest_performed (write := write) (d := data) (tag := tag.toNat) (size := size.toNat)
      (hready.trans h) (by rw [hwant]; exact hd)
    have hbytes : ∀ {t : State}, t.mem.hbm = m.mem.hbm → ∀ i, hbmByte t i = hbmByte s i :=
      fun ht i => congrArg (fun h => tabGet 0 h i) (ht.trans hhbm)
    refine ⟨_, rfl, by rw [he, hwant], fun hn => ?_, fun h0 ha hp hc => ?_, fun h0 ha hc hg hpo hst => ?_⟩
    · obtain ⟨ho, hb⟩ := hdec hn
      exact ⟨by rw [ho, hrsp, hout], hbytes hb⟩
    · obtain ⟨ho, hb, hcount⟩ := href h0 ha hp (by rw [hchk]; exact hc)
      exact ⟨by rw [ho, hrsp, hout, hchk], hbytes hb, fun hpart => by rw [hcount (by rw [hchk]; exact hpart), hrd]⟩
    · have hgood : ∀ i, a ≤ i → i < a + n → LineGood m i := fun i h1 h2 =>
        ⟨hg i h1 h2, by rw [hpoi]; exact hpo (i / 128) (by omega) (by omega), by rw [hstale]; exact hst i h1 h2⟩
      obtain ⟨hread, hwrite⟩ := hok h0 ha (by rw [hchk]; exact hc) hgood
      refine ⟨fun hw hdata => ?_, fun hw hdata => ?_⟩
      · obtain ⟨hb, ho⟩ := hread hw hdata
        exact ⟨hbytes hb, by rw [ho, hrsp, hout, hhbm]; rfl⟩
      · obtain ⟨ho, hb, hcip⟩ := hwrite hw hdata
        refine ⟨by rw [ho, hrsp, hout], fun i => ?_, fun hn e hr hk => ?_⟩
        · rw [hbmByte, hb, hhbm, tabGet_tabSetRun, hdata]
          rfl
        · rw [hkey] at hcip
          obtain ⟨hlen, T, hT⟩ := xts_line (memKey (regionKey s e)) (a / 128) (hdata.trans hn)
          exact ⟨_, T, hcip hn e (by rw [hreg]; exact hr) hk, hlen, hT⟩
  · split
    · next hl => rw [hbmRequest_ahead_quiet (hready.trans h) (by rw [hwant]; exact h1) (by rw [hwant]; exact h2) (by rw [hlast, hlt]; exact hl)]
    · next hl =>
      have he := hbmRequest_ahead (write := write) (d := data) (tag := tag.toNat) (size := size.toNat) (hready.trans h) (by rw [hwant]; exact h1)
        (by rw [hwant]; exact h2) (by rw [hlast, hlt]; exact hl)
      rw [he, hrsp, hwant, hout, Marked.withMem (memMarks_frame s marks)]
      exact ⟨_, rfl, rfl, rfl⟩
  · obtain ⟨hk, hw⟩ := hbmRequest_behind (write := write) (d := data) (tag := tag.toNat) (size := size.toNat) (hready.trans h)
      (by rw [hwant]; exact h1)
    refine ⟨_, rfl, ?_, fun i => ?_, ?_, fun hwr => ?_⟩
    · rw [hk.flds _ (by decide), rd_inc_self _ _ _ (by decide), hrd]
      rfl
    · exact congrArg (fun h => tabGet 0 h i) (hk.hbm.trans hhbm)
    · rw [hk.expect]
      exact hwant
    · rw [hw hwr, hrsp, hout]
  · rw [loomResponse_isolated h]
  · rw [loomResponse_foreign hi fun h => hp ⟨hi, h⟩]
  · have he := loomResponse_answered hq.1 hq.2 hf hst hh
    intro answered
    refine ⟨fun h => ?_, fun hs hw ha h0 => ?_, fun hs hw h0 => ?_⟩
    · rw [he]
      rcases h with hs | ⟨h0, ha⟩
      · rw [if_neg (by rw [hs]; decide)]
      · have hn : ¬ (q.write = true ∧ q.addr % 256 ≠ linkAt) := by rcases ha with h | h <;> simp [h]
        rw [h0, spillAnswered_ok, if_neg hn, ite_self]
    · rw [he, if_pos hs, h0, spillAnswered_ok, if_pos ⟨hw, ha⟩]
    · rw [he, if_pos hs, spillAnswered_refused h0 hst hw]
      obtain ⟨hv, hc⟩ := spillRefused_shows answered l q.addr (BitVec.ofNat 64 (leNat q.data))
      refine ⟨_, rfl, hv, fun hz => hc ?_⟩
      exact (rd_inc_apart (by decide) s lb lb).trans hz
  · rw [loomResponse_unknown hq.1 hq.2 hst hn]
  · rw [hst]
    exact ⟨_, rfl, loomResponse_resend hq.1 hq.2⟩
  · obtain ⟨ho, hk⟩ := hbmEmits_send hi (hbmTx s (bLoom l) c).unans
    have he : exec (.hbmRequestTimeout (.ofNat 12 lb) c) s = .next (hbmTimeout s (BitVec.ofNat 12 lb).toNat c) := rfl
    rw [he, bLoom_toNat]
    exact ⟨_, rfl, hk.mem, hk.looms, ho⟩

end Sys2Proof.Machine
end

section
/-!
PROOFS. What the engines of a loom leave (chapters 03, 04, 06 and 07): `kept` is what no work of the neuron engine, the fetch unit, the tensioner
or the batten on a beat's data changes, one equation for each function of the model.
-/

namespace Sys2Proof.Machine

/-! ## What the engines of a loom leave -/

/-- A loom without what its engines work on: the stores and the marks of their words, the queues, rows, routes and streams, the log's
staging buffer, the counts of the beat, and the entries of the retention ring. -/
def Loom.lasting (m : Loom) : Loom :=
  { m with
    nstore := [], sstore := [], scratch := [], nErr1 := [], nErr2 := [], sErr1 := [], sErr2 := [], xErr1 := [], xErr2 := []
    dq := [], dqWaits := [], contrib := 0, satNow := 0, openRoutes := [], dirWait := [], rowCache := [], rowWaits := []
    fills := [], deadFills := [], streams := [], latKeys := [], openDue := none, logBuf := [], logBeats := [], badSegs := []
    modAcc := [], frHits := [], tmap := [], moving := [], bankCe := [], netHeld := []
    ret := { m.ret with count := 0, first := [], full := false } }

/-- What the engines of loom `l` leave as it is: the other looms, what lasts of `l` itself, the beat engine with its phase, and the count of
the batten's operations. -/
def kept (l : Nat) (s : State) : (Nat → Loom) × BeatSt × Nat × Nat :=
  (fun j => if j = l then (loom s j).lasting else loom s j, s.beat, beatPhase s, rd s (bLoom l) F.LOOM_DOPRUNS_COUNT)

/-- A field that the engines write: not the count of the batten's operations. -/
abbrev engineFld (f : Fld) : Prop := fldsApart f F.LOOM_DOPRUNS_COUNT = true

theorem engineFld.off {f : Fld} (h : engineFld f) : f.off < 4096 := by
  simp only [engineFld, fldsApart, Bool.and_eq_true, decide_eq_true_eq] at h
  exact h.1.1.1

theorem kept_eq {l : Nat} {s t : State} (ho : ∀ j, j ≠ l → loom t j = loom s j) (hl : (loom t l).lasting = (loom s l).lasting)
    (hb : t.beat = s.beat) (hp : beatPhase t = beatPhase s)
    (hr : rd t (bLoom l) F.LOOM_DOPRUNS_COUNT = rd s (bLoom l) F.LOOM_DOPRUNS_COUNT) : kept l t = kept l s := by
  simp only [kept, hb, hp, hr, Prod.mk.injEq, and_true]
  funext j
  by_cases h : j = l
  · simp only [h, if_true, hl]
  · simp only [h, if_false, ho j h]

theorem kept_of_looms {l : Nat} {s t : State} (hl : t.looms = s.looms) (hb : t.beat = s.beat) (hp : beatPhase t = beatPhase s)
    (hr : rd t (bLoom l) F.LOOM_DOPRUNS_COUNT = rd s (bLoom l) F.LOOM_DOPRUNS_COUNT) : kept l t = kept l s :=
  kept_eq (fun j _ => loom_congr hl j) (by rw [loom_congr hl]) hb hp hr

theorem other_of_kept {l : Nat} {s t : State} (h : kept l t = kept l s) {j : Nat} (hj : j ≠ l) : loom t j = loom s j := by
  have := congrFun (congrArg (·.1) h) j
  simpa [kept, hj] using this

theorem lasting_of_kept {l : Nat} {s t : State} (h : kept l t = kept l s) : (loom t l).lasting = (loom s l).lasting := by
  have := congrFun (congrArg (·.1) h) l
  simpa [kept] using this

theorem beat_of_kept {l : Nat} {s t : State} (h : kept l t = kept l s) : t.beat = s.beat := congrArg (·.2.1) h

theorem beatPhase_of_kept {l : Nat} {s t : State} (h : kept l t = kept l s) : beatPhase t = beatPhase s := congrArg (·.2.2.1) h

theorem runs_of_kept {l : Nat} {s t : State} (h : kept l t = kept l s) :
    rd t (bLoom l) F.LOOM_DOPRUNS_COUNT = rd s (bLoom l) F.LOOM_DOPRUNS_COUNT := congrArg (·.2.2.2) h

theorem bBeat_ne_bLoom (l : Nat) : bBeat ≠ bLoom l := by simp only [bBeat, bLoom]; omega

theorem kept_wrI (l : Nat) (s : State) {f : Fld} (hf : engineFld f) {i : Nat} (hi : i < 65536) (v : Nat) :
    kept l (wrI s (bLoom l) f i v) = kept l s :=
  kept_of_looms rfl rfl (rdI_wrI_ne _ _ _ _ _ _ _ _ (regKey_ne (by decide) hf.off (by decide) hi (Or.inl (bBeat_ne_bLoom l))))
    (rd_wrI_apart hf _ _ _ _ hi)

theorem kept_wr (l : Nat) (s : State) {f : Fld} (hf : engineFld f) (v : Nat) : kept l (wr s (bLoom l) f v) = kept l s :=
  kept_wrI l s hf (by decide) v

theorem kept_inc (l : Nat) (s : State) {f : Fld} (hf : engineFld f) : kept l (inc s (bLoom l) f) = kept l s := kept_wr l s hf _

theorem kept_incBy (l : Nat) (s : State) {f : Fld} (hf : engineFld f) (n : Nat) : kept l (incBy s (bLoom l) f n) = kept l s :=
  kept_wr l s hf _

theorem kept_incIf (l : Nat) (s : State) {f : Fld} (hf : engineFld f) (c : Prop) [Decidable c] :
    kept l (if c then inc s (bLoom l) f else s) = kept l s := by
  split
  · exact kept_inc l s hf
  · rfl

theorem kept_incUnless (l : Nat) (s : State) {f : Fld} (hf : engineFld f) (c : Prop) [Decidable c] :
    kept l (if c then s else inc s (bLoom l) f) = kept l s := by
  split
  · rfl
  · exact kept_inc l s hf

@[simp] theorem kept_send (l : Nat) (s : State) (k : MsgKind) (d : Nat) (a : List Nat) : kept l (send s k d a) = kept l s := rfl

@[simp] theorem kept_drawFree (l : Nat) (s : State) : kept l (drawFree s).2 = kept l s := rfl

@[simp] theorem kept_latchFault (l : Nat) (s : State) (code : Nat) : kept l (latchFault s (bLoom l) code) = kept l s := by
  obtain ⟨r, o, h⟩ := latchFault_frame s (bLoom l) code
  exact kept_of_looms (by rw [h]) (by rw [h]) (rd_latchFault_block (by decide) s code (bBeat_ne_bLoom l))
    (rd_latchFault_apart (g := F.LOOM_DOPRUNS_COUNT) (by decide) s _ code _)

theorem kept_setLoom {l : Nat} {s : State} {x : Loom} (h : x.lasting = (loom s l).lasting) : kept l (setLoom s l x) = kept l s :=
  kept_eq (fun _ hj => loom_setLoom_ne s l x hj) (by rw [loom_setLoom_self, h]) rfl rfl rfl

theorem kept_modLoom {l : Nat} {s : State} {f : Loom → Loom} (h : (f (loom s l)).lasting = (loom s l).lasting) :
    kept l (modLoom s l f) = kept l s := kept_setLoom h

theorem kept_modLoom_each (l : Nat) (s : State) {f : Loom → Loom} (h : ∀ m, (f m).lasting = m.lasting) : kept l (modLoom s l f) = kept l s :=
  kept_setLoom (h _)

theorem kept_ite {l : Nat} {s t u : State} {c : Prop} [Decidable c] (ht : kept l t = kept l s) (hu : kept l u = kept l s) :
    kept l (if c then t else u) = kept l s := by
  split
  · exact ht
  · exact hu

theorem kept_forEach {α : Type} {l : Nat} {f : α → State → State} (h : ∀ a s, kept l (f a s) = kept l s) (as : List α) (s : State) :
    kept l (forEach as f s) = kept l s := forEach_keeps (kept l) h as s

theorem kept_forEach_mem {α : Type} {l : Nat} {f : α → State → State} {as : List α} (h : ∀ a ∈ as, ∀ s, kept l (f a s) = kept l s)
    (s : State) : kept l (forEach as f s) = kept l s := by
  induction as generalizing s with
  | nil => rfl
  | cons a as ih =>
    rw [forEach_cons, ih (fun x hx => h x (List.mem_cons_of_mem a hx)), h a List.mem_cons_self]

theorem kept_foldl {α β : Type} {l : Nat} {g : β → State} {f : β → α → β} (h : ∀ p a, kept l (g (f p a)) = kept l (g p))
    (as : List α) (p : β) : kept l (g (as.foldl f p)) = kept l (g p) := by
  induction as generalizing p with
  | nil => rfl
  | cons a as ih => exact (ih _).trans (h p a)

theorem Loom.lasting_nstore (m : Loom) (x : Tab Byte) : Loom.lasting { m with nstore := x } = m.lasting := rfl

theorem Loom.lasting_scrMend (s : State) (l a n : Nat) (m : Loom) : (scrMend s l a n m).lasting = m.lasting := by
  unfold scrMend
  split <;> rfl

@[simp] theorem kept_scrPut (l : Nat) (s : State) (a n x : Nat) : kept l (scrPut s l a n x) = kept l s :=
  kept_modLoom (Loom.lasting_scrMend ..)

@[simp] theorem kept_scrClear (l : Nat) (s : State) (lo hi : Nat) : kept l (scrClear s l lo hi) = kept l s :=
  kept_modLoom (Loom.lasting_scrMend ..)

@[simp] theorem kept_moveStart (l : Nat) (s : State) (k : Nat) : kept l (moveStart s l k) = kept l s := by
  unfold moveStart
  dsimp only
  split
  · rfl
  · split
    · exact kept_latchFault ..
    · exact kept_setLoom rfl

/-! ## The scratch, the log and the memory requests of a loom -/

@[simp] theorem kept_bankCorrected (l : Nat) (s : State) (k n : Nat) : kept l (bankCorrected s l k n) = kept l s := by
  unfold bankCorrected
  dsimp only
  split
  · rfl
  · split
    · exact (kept_moveStart ..).trans ((kept_incBy _ _ (by decide) _).trans (kept_modLoom rfl))
    · exact (kept_incBy _ _ (by decide) _).trans (kept_modLoom rfl)

@[simp] theorem kept_scratchMend (l : Nat) (s : State) (ps : List Nat) : kept l (scratchMend s l ps) = kept l s :=
  (kept_forEach (fun _ _ => kept_bankCorrected ..) _ _).trans (kept_modLoom rfl)

@[simp] theorem kept_scrCheck (l : Nat) (s : State) (a n code : Nat) : kept l (scrCheck s l a n code).2 = kept l s := by
  unfold scrCheck
  split
  · exact kept_latchFault ..
  · split
    · rfl
    · exact kept_scratchMend ..

@[simp] theorem kept_scratchCheck (l : Nat) (s : State) (a n : Nat) : kept l (scratchCheck s l a n).2 = kept l s := kept_scrCheck ..

@[simp] theorem kept_scrLoad (l : Nat) (s : State) (a n : Nat) : kept l (scrLoad s l a n).2 = kept l s := by
  unfold scrLoad
  dsimp only
  split
  · exact kept_scratchCheck ..
  · exact kept_scratchCheck ..

@[simp] theorem kept_scrBytes (l : Nat) (s : State) (a n : Nat) : kept l (scrBytes s l a n).2 = kept l s := kept_scrLoad ..

@[simp] theorem kept_scrUnknown (l : Nat) (s : State) (a n : Nat) : kept l (scrUnknown s l a n) = kept l s := by
  unfold scrUnknown
  split
  · exact kept_forEach (fun _ _ => (kept_modLoom rfl).trans (kept_drawFree ..)) _ _
  · rfl

@[simp] theorem kept_logPut (l : Nat) (s : State) (ws : List W64) : kept l (logPut s l ws) = kept l s := by
  unfold logPut
  split
  · exact kept_modLoom rfl
  · rfl

@[simp] theorem kept_logBeat (l : Nat) (s : State) (n r : Nat) : kept l (logBeat s l n r) = kept l s := by
  unfold logBeat
  dsimp only
  split
  · exact (kept_logPut ..).trans (kept_modLoom rfl)
  · exact kept_logPut ..

@[simp] theorem kept_niSend (l : Nat) (s : State) (d : Nat) (k : MsgKind) (args : List Nat) : kept l (niSend s l d k args) = kept l s := by
  unfold niSend
  split
  · exact kept_inc _ _ (by decide)
  · split
    · rfl
    · exact (kept_send ..).trans (kept_inc _ _ (by decide))

theorem bLoom_site (l : Nat) : bLoom l - bLoom 0 = l := by simp only [bLoom]; omega

@[simp] theorem kept_hbmEmit (l : Nat) (s : State) (q : HbmReq) : kept l (hbmEmit s (bLoom l) q) = kept l s := by
  unfold hbmEmit
  rw [bLoom_site]
  exact kept_niSend ..

@[simp] theorem kept_hbmFeed (l c n : Nat) (s : State) : kept l (hbmFeed (bLoom l) c n s) = kept l s := by
  induction n generalizing s with
  | zero => rfl
  | succ n ih =>
    unfold hbmFeed
    dsimp only
    split
    · rfl
    · split
      · rfl
      · exact (ih _).trans (kept_hbmEmit ..)

@[simp] theorem kept_hbmAskAs (l : Nat) (s : State) (w : Bool) (a size : Nat) (d : List Byte) (sp : Bool) :
    kept l (hbmAskAs s (bLoom l) w a size d sp) = kept l s := kept_hbmFeed ..

@[simp] theorem kept_hbmAsk (l : Nat) (s : State) (w : Bool) (a size : Nat) (d : List Byte) :
    kept l (hbmAsk s (bLoom l) w a size d) = kept l s := kept_hbmAskAs ..

/-! ## The neuron engine -/

@[simp] theorem kept_emitPick (l : Nat) (s : State) (i p : Nat) (fr v : Bool) (g : Nat) : kept l (emitPick s l i p fr v g) = kept l s := by
  unfold emitPick
  dsimp only
  split
  · split
    · rfl
    · exact (kept_latchFault ..).trans (kept_setLoom rfl)
  · exact (kept_modLoom rfl).trans (kept_scrPut ..)

@[simp] theorem kept_accGet (l : Nat) (s : State) (n : Nat) : kept l (accGet s l n).2 = kept l s := kept_scrLoad ..

@[simp] theorem kept_accPut (l : Nat) (s : State) (n : Nat) (x : Int) : kept l (accPut s l n x) = kept l s := kept_scrPut ..

theorem kept_contribRoom {l : Nat} {s t : State} (h : contribRoom s l = some t) : kept l t = kept l s := by
  unfold contribRoom at h
  dsimp only at h
  split at h
  · cases h
    exact kept_setLoom rfl
  · cases h

@[simp] theorem kept_accAdd (l : Nat) (s : State) (n : Nat) (c : Int) (counted : Bool) : kept l (accAdd s l n c counted) = kept l s := by
  unfold accAdd
  split
  · exact kept_inc _ _ (by decide)
  · split
    · exact kept_latchFault ..
    · next t ht =>
      have hput : kept l (accPut (accGet t l n).2 l n ((accGet t l n).1 + c)) = kept l s := by
        rw [kept_accPut, kept_accGet, kept_contribRoom ht]
      dsimp only
      split
      · exact (kept_inc _ _ (by decide)).trans hput
      · exact hput

theorem kept_grow {l : Nat} {put : State → Nat → Nat → State} (hput : ∀ s a x, kept l (put s a x) = kept l s) (c : DqChain) (a : Nat)
    (s : State) : kept l (c.grow a put s).2 = kept l s := by
  unfold DqChain.grow
  dsimp only
  split
  · rfl
  · exact hput ..

@[simp] theorem kept_modDq (l : Nat) (s : State) (k : Nat) (f : DqSlot → DqSlot) : kept l (modDq s l k f) = kept l s :=
  (kept_wr _ _ (by decide) _).trans (kept_modLoom rfl)

theorem kept_dqPut {l : Nat} {s t : State} {k : Nat} {w : W64} {e : DqMark} (h : dqPut s l k w e = some t) : kept l t = kept l s := by
  have harea : ∀ s a x, kept l (scrPut s l a 8 x) = kept l s := fun s a x => kept_scrPut ..
  have hspill : ∀ s a x, kept l (spillWrite s l a x) = kept l s := fun s a x => kept_hbmAskAs ..
  unfold dqPut at h
  dsimp only at h
  split at h
  · cases h
    exact (kept_modDq ..).trans (harea ..)
  · split at h
    · cases h
      exact (kept_modDq ..).trans ((harea ..).trans (kept_grow harea ..))
    · split at h
      · cases h
        exact (kept_modDq ..).trans (hspill ..)
      · split at h
        · cases h
          exact (kept_modDq ..).trans ((hspill ..).trans (kept_grow hspill ..))
        · cases h

@[simp] theorem kept_dqCounted (l : Nat) (s : State) (w : W64) (e : DqMark) : kept l (dqCounted s l w e) = kept l s := by
  unfold dqCounted
  split
  · exact kept_inc _ _ (by decide)
  · rfl

theorem kept_dqEnter {l : Nat} {s t : State} {k : Nat} {w : W64} {e : DqMark} (h : dqEnter s l k w e = some t) : kept l t = kept l s := by
  obtain ⟨u, hu, rfl⟩ := Option.map_eq_some_iff.mp h
  exact (kept_dqCounted ..).trans (kept_dqPut hu)

@[simp] theorem kept_dqAppend (l : Nat) (s : State) (k : Nat) (w : W64) (e : Option Nat) : kept l (dqAppend s l k w e) = kept l s := by
  unfold dqAppend
  dsimp only
  split
  · next t ht => exact kept_dqEnter ht
  · exact (kept_latchFault ..).trans (kept_modLoom rfl)

@[simp] theorem kept_dqContrib (l : Nat) (s : State) (n : Nat) (c : Int) (e : Nat) : kept l (dqContrib s l n c e) = kept l s := kept_dqAppend ..

@[simp] theorem kept_dqDrain (l : Nat) (s : State) : kept l (dqDrain s l) = kept l s := by
  refine (kept_forEach (fun x t => ?_) _ _).trans (kept_modLoom rfl)
  split
  · next u hu => exact kept_dqEnter hu
  · exact kept_modLoom rfl

theorem kept_entries {l : Nat} {get : State → Nat → Nat × State} (hget : ∀ s a, kept l (get s a).2 = kept l s) (c : DqChain)
    (keep : DqMark → Bool) (s : State) : kept l (c.entries keep get s).2 = kept l s := by
  refine kept_foldl (g := fun p : List W64 × State => p.2) (fun p e => ?_) _ _
  dsimp only
  split
  · rfl
  · exact hget ..

@[simp] theorem kept_nstoreCheck (l : Nat) (s : State) (a n : Nat) : kept l (nstoreCheck s l a n).2 = kept l s := by
  unfold nstoreCheck
  dsimp only
  split
  · exact kept_latchFault ..
  · exact (kept_incBy _ _ (by decide) _).trans (kept_setLoom rfl)

@[simp] theorem kept_nstoreLoad (l : Nat) (s : State) (a n : Nat) : kept l (nstoreLoad s l a n).2 = kept l s := by
  unfold nstoreLoad
  dsimp only
  split
  · exact kept_nstoreCheck ..
  · exact kept_nstoreCheck ..

@[simp] theorem kept_slotRead (l : Nat) (s : State) (j : Nat) : kept l (slotRead s l j).2 = kept l s := kept_nstoreLoad ..

/-- Slot `n` written back with what its update gives, its accumulator cleared, and what it counts. -/
def slotBack (s : State) (l n : Nat) (o : SlotOut) : State :=
  let b := bLoom l
  let s := modLoom (accPut s l n 0) l (fun m => { m with
    nstore := memPut m.nstore (16 * n) 16 o.slot, satNow := m.satNow + o.sat.toNat })
  incBy (incBy (incBy (incBy s b F.LOOM_OFFHIT_COUNT o.offHit.toNat) b F.LOOM_REFDROP_COUNT o.refDrop.toNat) b F.LOOM_MEMSAT_COUNT
    o.memSat.toNat) b F.LOOM_SATCOUNT_COUNT o.sat.toNat

@[simp] theorem kept_slotBack (l n : Nat) (s : State) (o : SlotOut) : kept l (slotBack s l n o) = kept l s :=
  (kept_incBy _ _ (by decide) _).trans ((kept_incBy _ _ (by decide) _).trans ((kept_incBy _ _ (by decide) _).trans
    ((kept_incBy _ _ (by decide) _).trans ((kept_modLoom rfl).trans (kept_accPut ..)))))

/-- The pick of slot `n` leaves, where it has one. -/
def slotFires (s : State) (l n : Nat) (t : ThEntry) : Option Nat → State
  | none => s
  | some p => match segOf (loom s l).lat.segs n with
    | none => inc s (bLoom l) F.LOOM_NOSEG_COUNT
    | some g => emitPick (if 32768 ≤ (loom s l).ret.count then s else inc s (bLoom l) F.LOOM_EMITTED_COUNT) l n p false t.value g.idx

@[simp] theorem kept_slotFires (l n : Nat) (s : State) (t : ThEntry) (p : Option Nat) : kept l (slotFires s l n t p) = kept l s := by
  unfold slotFires
  split
  · rfl
  · split
    · exact kept_inc _ _ (by decide)
    · rw [kept_emitPick]
      split
      · rfl
      · exact kept_inc _ _ (by decide)

/-- A slot that can be read is updated, written back, and fires. -/
theorem settleSlot_eq (l nb n : Nat) (s : State) : settleSlot l nb n s =
    (let c := nstoreCheck s l (16 * n) 16
     let slot := slotNat (loom c.2 l) n
     let t := thEntry c.2 l (bits slot 37 32)
     let a := accGet c.2 l n
     let o := slotUpdate t nb slot a.1
     if !c.1 then c.2 else slotFires (slotBack a.2 l n o) l n t o.payload) := rfl

@[simp] theorem kept_settleSlot (l nb n : Nat) (s : State) : kept l (settleSlot l nb n s) = kept l s := by
  rw [settleSlot_eq]
  dsimp only
  split
  · exact kept_nstoreCheck ..
  · rw [kept_slotFires, kept_slotBack, kept_accGet, kept_nstoreCheck]

@[simp] theorem kept_neuronSettle (l nb : Nat) (s : State) : kept l (neuronSettle s l nb) = kept l s :=
  (kept_forEach (fun _ _ => kept_settleSlot ..) _ _).trans (kept_modLoom rfl)

/-! ## The synapse fetch unit -/

@[simp] theorem kept_sstoreCheck (l : Nat) (s : State) (a n : Nat) : kept l (sstoreCheck s l a n).2 = kept l s := by
  unfold sstoreCheck
  dsimp only
  split
  · exact kept_latchFault ..
  · exact (kept_incBy _ _ (by decide) _).trans (kept_setLoom rfl)

@[simp] theorem kept_ptrRead (l : Nat) (s : State) (r i : Nat) : kept l (ptrRead s l r i).2 = kept l s := by
  unfold ptrRead
  dsimp only
  split
  · rfl
  · split
    · exact kept_sstoreCheck ..
    · exact kept_sstoreCheck ..

@[simp] theorem kept_affRow (l : Nat) (s : State) (e m : Nat) : kept l (affRow s l e m).2 = kept l s := by
  unfold affRow
  dsimp only
  split
  · rfl
  · split
    · rfl
    · split
      · exact kept_ptrRead ..
      · rfl
    · split
      · rfl
      · rfl
    · rfl

@[simp] theorem kept_affProbe (l base n pop member fuel h : Nat) (s : State) :
    kept l (affProbe l base n pop member fuel h s).2 = kept l s := by
  induction fuel generalizing h s with
  | zero => rfl
  | succ fuel ih =>
    have hcheck := kept_sstoreCheck l s (base + 16 * (h % n)) 16
    unfold affProbe
    dsimp only
    split
    · exact hcheck
    · split
      · exact hcheck
      · split
        · exact (kept_affRow ..).trans hcheck
        · exact (ih ..).trans hcheck

@[simp] theorem kept_lookup (l : Nat) (s : State) (pop member : Nat) : kept l (lookup s l pop member).2 = kept l s := by
  unfold lookup
  dsimp only
  split
  · rfl
  · exact kept_affProbe ..

@[simp] theorem kept_preEvent (l : Nat) (s : State) (a f : Nat) : kept l (preEvent s l a f) = kept l s := by
  unfold preEvent
  dsimp only
  rw [kept_scrPut]
  split
  · exact (kept_inc _ _ (by decide)).trans (kept_scrLoad ..)
  · exact kept_scrLoad ..

@[simp] theorem kept_plasticRead (l : Nat) (s : State) (j : Nat) : kept l (plasticRead s l j).2 = kept l s := by
  unfold plasticRead
  split
  · rfl
  · exact kept_nstoreCheck ..

@[simp] theorem kept_readWeight (l : Nat) (s : State) (n : Nat) (w : Int) : kept l (readWeight s l n w).2 = kept l s := by
  unfold readWeight
  dsimp only
  split
  · rfl
  · exact kept_inc _ _ (by decide)

@[simp] theorem kept_plasticWeight (l : Nat) (s : State) (j : Nat) (w : Int) : kept l (plasticWeight s l j w).2 = kept l s := by
  unfold plasticWeight
  dsimp only
  split
  · exact kept_slotRead ..
  · split
    · exact (kept_readWeight ..).trans (kept_slotRead ..)
    · exact (kept_inc _ _ (by decide)).trans (kept_slotRead ..)

@[simp] theorem kept_frameAdd (l : Nat) (s : State) (f t : Nat) (c : Int) : kept l (frameAdd s l f t c) = kept l s := by
  unfold frameAdd
  dsimp only
  split
  · exact kept_inc _ _ (by decide)
  · split
    · exact kept_latchFault ..
    · next u hu =>
      exact (kept_inc _ _ (by decide)).trans ((kept_modLoom rfl).trans ((kept_scrPut ..).trans ((kept_scrLoad ..).trans (kept_contribRoom hu))))

@[simp] theorem kept_modAdd (l : Nat) (s : State) (t : Nat) (c : Int) : kept l (modAdd s l t c) = kept l s := by
  unfold modAdd
  split
  · exact kept_latchFault ..
  · next u hu => exact (kept_inc _ _ (by decide)).trans ((kept_modLoom rfl).trans (kept_contribRoom hu))

/-- What an entry of a row does once its type is known to be one of the first three. -/
def entryGo (l : Nat) (h : RowHdr) (plastic : Bool) (payload : Nat) (e : SynEntry) (s : State) : State :=
  let contrib := fun (w : Int) => w * (payload : Nat) * 2 ^ h.shift
  if 65536 ≤ e.target then inc s (bLoom l) F.LOOM_TGTRANGE_COUNT
  else if e.typ = 1 then frameAdd s l h.frame e.target (contrib e.weight)
  else if e.typ = 2 then modAdd s l e.target (contrib e.weight)
  else if (loom s l).lat.nslots ≤ e.target then inc s (bLoom l) F.LOOM_TGTRANGE_COUNT
  else
    let ws := if plastic then plasticWeight s l e.target e.weight else (e.weight, s)
    if e.delay = 0 then accAdd ws.2 l e.target (contrib ws.1) true
    else dqContrib ws.2 l e.target (contrib ws.1) e.delay

theorem entryApply_eq (l : Nat) (h : RowHdr) (plastic : Bool) (payload : Nat) (e : SynEntry) (s : State) :
    entryApply l h plastic payload e s =
      if e.typ = 3 then s else if 4 ≤ e.typ then inc s (bLoom l) F.LOOM_BADSYN_COUNT
      else entryGo l h plastic payload e (if e.typ ≠ 0 ∧ e.delay ≠ 0 then inc s (bLoom l) F.LOOM_BADSYN_COUNT else s) := rfl

@[simp] theorem kept_entryGo (l : Nat) (h : RowHdr) (plastic : Bool) (payload : Nat) (e : SynEntry) (s : State) :
    kept l (entryGo l h plastic payload e s) = kept l s := by
  have hw : kept l (if plastic then plasticWeight s l e.target e.weight else (e.weight, s)).2 = kept l s := by
    split
    · exact kept_plasticWeight ..
    · rfl
  unfold entryGo
  dsimp only
  split
  · exact kept_inc _ _ (by decide)
  · split
    · exact kept_frameAdd ..
    · split
      · exact kept_modAdd ..
      · split
        · exact kept_inc _ _ (by decide)
        · split
          · exact (kept_accAdd ..).trans hw
          · exact (kept_dqContrib ..).trans hw

@[simp] theorem kept_entryApply (l : Nat) (h : RowHdr) (plastic : Bool) (payload : Nat) (e : SynEntry) (s : State) :
    kept l (entryApply l h plastic payload e s) = kept l s := by
  rw [entryApply_eq]
  split
  · rfl
  · split
    · exact kept_inc _ _ (by decide)
    · rw [kept_entryGo]
      split
      · exact kept_inc _ _ (by decide)
      · rfl

@[simp] theorem kept_rowApply (l : Nat) (s : State) (a : Option Nat) (row : Nat) (w : W64) : kept l (rowApply s l a row w) = kept l s := by
  unfold rowApply
  dsimp only
  refine (kept_forEach (fun _ _ => kept_entryApply ..) _ _).trans ?_
  have hrow := kept_inc l s (f := F.LOOM_ROWS_COUNT) (by decide)
  split
  · exact hrow
  · cases a with
    | none => exact (kept_inc _ _ (by decide)).trans hrow
    | some x =>
      dsimp only
      split
      · exact (kept_preEvent ..).trans hrow
      · exact (kept_inc _ _ (by decide)).trans hrow

@[simp] theorem kept_rowStore (l : Nat) (s : State) (a : Nat) (w : W64) : kept l (rowStore s l a w) = kept l s := by
  have hcheck := kept_sstoreCheck l s a 8
  unfold rowStore
  dsimp only
  split
  · exact kept_latchFault ..
  · split
    · exact hcheck
    · split
      · exact (kept_latchFault ..).trans hcheck
      · split
        · exact (kept_rowApply ..).trans ((kept_sstoreCheck ..).trans hcheck)
        · exact (kept_sstoreCheck ..).trans hcheck

@[simp] theorem kept_waitLine (l k : Nat) (p : RowWait × State) : kept l (waitLine l k p).2 = kept l p.2 := by
  unfold waitLine
  dsimp only
  split
  · rfl
  · split
    · exact (kept_inc _ _ (by decide)).trans ((kept_modLoom rfl).trans (kept_scrBytes ..))
    · split
      · rfl
      · exact (kept_inc _ _ (by decide)).trans ((kept_hbmAsk ..).trans (kept_setLoom rfl))

@[simp] theorem kept_waitFeed (l : Nat) (s : State) (w : RowWait) : kept l (waitFeed s l w).2 = kept l s :=
  (kept_foldl (g := fun p : RowWait × State => p.2) (fun p _ => kept_waitLine l _ p) _ _).trans (kept_waitLine ..)

@[simp] theorem kept_hbmRowGo (l : Nat) (s : State) (w : RowWait) : kept l (hbmRowGo s l w) = kept l s := by
  unfold hbmRowGo
  dsimp only
  split
  · split
    · exact (kept_latchFault ..).trans (kept_waitFeed ..)
    · exact (kept_rowApply ..).trans (kept_waitFeed ..)
  · exact (kept_modLoom rfl).trans (kept_waitFeed ..)

@[simp] theorem kept_ptrTake (l : Nat) (s : State) (w : W64) (x : Nat) : kept l (ptrTake s l w x) = kept l s := by
  unfold ptrTake
  split
  · exact kept_inc _ _ (by decide)
  · exact kept_rowStore ..
  · exact kept_hbmRowGo ..
  · exact kept_latchFault ..

@[simp] theorem kept_waitGo (l : Nat) (s : State) (w : RowWait) : kept l (waitGo s l w) = kept l s := by
  unfold waitGo
  dsimp only
  split
  · split
    · exact (kept_ptrTake ..).trans (kept_waitFeed ..)
    · exact (kept_modLoom rfl).trans (kept_waitFeed ..)
  · exact kept_hbmRowGo ..

@[simp] theorem kept_integratePick (l : Nat) (s : State) (w : W64) : kept l (integratePick s l w) = kept l s := by
  unfold integratePick
  dsimp only
  split
  · exact (kept_inc _ _ (by decide)).trans (kept_lookup ..)
  · exact (kept_inc _ _ (by decide)).trans (kept_lookup ..)
  · exact (kept_latchFault ..).trans (kept_lookup ..)
  · exact kept_lookup ..
  · exact (kept_rowStore ..).trans (kept_lookup ..)
  · exact (kept_waitGo ..).trans (kept_lookup ..)
  · exact (kept_waitGo ..).trans (kept_lookup ..)

@[simp] theorem kept_integrateEntry (l : Nat) (w : W64) (s : State) : kept l (integrateEntry l w s) = kept l s := by
  unfold integrateEntry
  dsimp only
  split
  · exact kept_accAdd ..
  · exact kept_integratePick ..

@[simp] theorem kept_integrateSpill (l : Nat) (s : State) (ep : Option Nat) : kept l (integrateSpill s l ep) = kept l s :=
  (kept_forEach (fun _ _ => kept_integrateEntry ..) _ _).trans (kept_entries (fun _ _ => rfl) _ _ _)

@[simp] theorem kept_integrateReleased (l : Nat) (s : State) (ep : Option Nat) : kept l (integrateReleased s l ep) = kept l s := by
  have hread : ∀ ws, kept l (forEach ws (integrateEntry l) ((loom s l).released.area.entries (keeps ep) (fun s a => scrLoad s l a 8) s).2)
      = kept l s := fun ws =>
    (kept_forEach (fun _ _ => kept_integrateEntry ..) _ _).trans (kept_entries (fun _ _ => kept_scrLoad ..) _ _ _)
  unfold integrateReleased
  dsimp only
  split
  · exact hread _
  · exact (kept_integrateSpill ..).trans (hread _)

/-! ## Route records -/

@[simp] theorem kept_dirAsk (l : Nat) (s : State) (pop : Nat) : kept l (dirAsk s l pop) = kept l s := kept_niSend ..

@[simp] theorem kept_routeFetch (l : Nat) (s : State) (pop idx : Nat) : kept l (routeFetch s l pop idx) = kept l s := by
  unfold routeFetch
  dsimp only
  split
  · rfl
  · exact (kept_dirAsk ..).trans ((kept_inc _ _ (by decide)).trans (kept_setLoom rfl))

@[simp] theorem kept_routeBad (l : Nat) (s : State) (is : List Nat) : kept l (routeBad s l is) = kept l s :=
  (kept_latchFault ..).trans (kept_modLoom rfl)

@[simp] theorem kept_segGather (l : Nat) (g : Seg) (s : State) : kept l (segGather l g s) = kept l s := by
  unfold segGather
  dsimp only
  split
  · rfl
  · split
    · exact (kept_routeBad ..).trans (kept_setLoom rfl)
    · split
      · exact (kept_routeFetch ..).trans (kept_setLoom rfl)
      · exact kept_setLoom rfl

@[simp] theorem kept_routeFetchAll (l : Nat) (s : State) : kept l (routeFetchAll s l) = kept l s :=
  kept_forEach (fun _ _ => kept_segGather ..) _ _

/-! ## The tensioner -/

theorem Loom.lasting_tenByte (m : Loom) (a v : Nat) : (tenByte m a v).lasting = m.lasting := rfl

theorem Loom.lasting_tenLastpre (m : Loom) (a n : Nat) : (tenLastpre m a n).lasting = m.lasting := by
  unfold tenLastpre
  rw [Loom.lasting_tenByte, Loom.lasting_tenByte]

theorem Loom.lasting_tenSlot (m : Loom) (j x : Nat) : (tenSlot m j x).lasting = m.lasting := by
  unfold tenSlot
  split
  · rfl
  · exact Loom.lasting_nstore ..

theorem Loom.lasting_renorm (m : Loom) (j : Nat) : (renorm m j).lasting = m.lasting := by
  unfold renorm
  split
  · rfl
  · split
    · rfl
    · dsimp only
      split
      · rfl
      · exact Loom.lasting_tenSlot ..

theorem Loom.lasting_renormChanged (old m : Loom) : (renormChanged old m).lasting = m.lasting := by
  unfold renormChanged
  generalize List.filter _ _ = js
  induction js generalizing m with
  | nil => rfl
  | cons j js ih => exact (ih _).trans (Loom.lasting_renorm m j)

@[simp] theorem kept_modulators (l : Nat) (s : State) : kept l (modulators s l) = kept l s := by
  unfold modulators
  refine (kept_modLoom_each l _ ?_).trans (kept_forEach_mem ?_ s)
  · exact fun _ => rfl
  intro c hc t
  exact (kept_wrI l _ (by decide) ((List.mem_range.mp hc).trans (by decide)) _).trans (kept_incUnless l _ (by decide) _)

@[simp] theorem kept_pairEntry (l n row aP fac : Nat) (e : SynEntry) (s : State) : kept l (pairEntry l n row aP fac e s) = kept l s := by
  have hread : kept l (if e.typ ≠ 0 then (none, s) else plasticRead s l e.target).2 = kept l s := by
    split
    · rfl
    · exact kept_plasticRead ..
  unfold pairEntry
  dsimp only
  generalize (if e.typ ≠ 0 then (none, s) else plasticRead s l e.target) = p at hread ⊢
  split
  · exact hread
  · exact hread
  · split
    · exact hread
    · refine (kept_inc _ _ (by decide)).trans ((kept_modLoom_each l _ (fun m => ?_)).trans ((kept_incIf _ _ (by decide) _).trans
        ((kept_incUnless _ _ (by decide) _).trans hread)))
      rw [Loom.lasting_tenByte, Loom.lasting_tenSlot]

/-- The row at `a`, which could be read (`c`), takes the pre-event of factor `fac`. -/
def preGo (l n a fac : Nat) (h : RowHdr) (c : Bool × State) : State :=
  let s := inc c.2 (bLoom l) F.LOOM_TPRE_COUNT
  if !c.1 then s
  else
    modLoom (if (loom s l).lat.tens.learn then
        forEach (rowEntries h (sstoreNat s l a (rowLen h))) (pairEntry l n a ((n + 65536 - h.lastpre) % 65536) fac) s
      else s) l (fun m => tenLastpre m a n)

theorem preRow_eq (l n a fac : Nat) (s : State) : preRow l n a fac s =
    (let c := sstoreCheck s l a 8
     let h := rowHdr (sstoreNat c.2 l a 8)
     preGo l n a fac h (if c.1 then sstoreCheck c.2 l a (rowSize h) else c)) := rfl

theorem kept_preGo (l n a fac : Nat) (h : RowHdr) (c : Bool × State) : kept l (preGo l n a fac h c) = kept l c.2 := by
  unfold preGo
  dsimp only
  split
  · exact kept_inc _ _ (by decide)
  · refine (kept_modLoom_each l _ (fun m => Loom.lasting_tenLastpre m _ _)).trans ?_
    split
    · exact (kept_forEach (fun _ _ => kept_pairEntry ..) _ _).trans (kept_inc _ _ (by decide))
    · exact kept_inc _ _ (by decide)

@[simp] theorem kept_preRow (l n a fac : Nat) (s : State) : kept l (preRow l n a fac s) = kept l s := by
  rw [preRow_eq]
  refine (kept_preGo ..).trans ?_
  split
  · exact (kept_sstoreCheck ..).trans (kept_sstoreCheck ..)
  · exact kept_sstoreCheck ..

@[simp] theorem kept_preEvents (l : Nat) (s : State) (n : Nat) : kept l (preEvents s l n) = kept l s := by
  unfold preEvents
  dsimp only
  refine (kept_forEach (fun _ _ => kept_preRow ..) _ _).trans ((kept_scrClear ..).trans
    ((kept_foldl (g := fun p : List (Nat × Nat) × State => p.2) (fun _ _ => kept_scrLoad ..) _ _).trans ?_))
  dsimp only
  split
  · rfl
  · exact kept_scratchCheck ..

@[simp] theorem kept_sweepEntry (l row : Nat) (e : SynEntry) (p : Tab Nat × State) : kept l (sweepEntry l row e p).2 = kept l p.2 := by
  have hread : kept l (if e.typ ≠ 0 then (none, p.2) else plasticRead p.2 l e.target).2 = kept l p.2 := by
    split
    · rfl
    · exact kept_plasticRead ..
  unfold sweepEntry
  dsimp only
  generalize (if e.typ ≠ 0 then (none, p.2) else plasticRead p.2 l e.target) = q at hread ⊢
  split
  · exact hread
  · exact hread
  · dsimp only
    split
    · exact (kept_modLoom rfl).trans ((kept_incIf _ _ (by decide) _).trans hread)
    · exact (kept_incIf _ _ (by decide) _).trans hread

@[simp] theorem kept_sweepRow (l n a : Nat) (h : RowHdr) (p : Tab Nat × State) : kept l (sweepRow l n a h p).2 = kept l p.2 := by
  unfold sweepRow
  split
  · rfl
  · dsimp only
    refine (kept_foldl (g := fun p : Tab Nat × State => p.2) (fun p e => kept_sweepEntry l a e p) _ _).trans ?_
    dsimp only
    split
    · exact (kept_inc _ _ (by decide)).trans (kept_modLoom_each l _ (fun m => Loom.lasting_tenLastpre m _ _))
    · rfl

@[simp] theorem kept_sweepWalk (l n stop fuel a : Nat) (p : Tab Nat × State) : kept l (sweepWalk l n stop fuel a p).2.2 = kept l p.2 := by
  induction fuel generalizing a p with
  | zero => rfl
  | succ fuel ih =>
    have hcheck := kept_sstoreCheck l p.2 a 8
    unfold sweepWalk
    dsimp only
    split
    · rfl
    · split
      · exact hcheck
      · split
        · exact hcheck
        · split
          · exact (ih ..).trans ((kept_sweepRow ..).trans ((kept_sstoreCheck ..).trans hcheck))
          · exact (kept_sstoreCheck ..).trans hcheck

theorem Loom.lasting_swept (m : Loom) (j x : Nat) (c : Prop) [Decidable c] :
    (if c then tenSlot m j x else renorm (tenSlot m j x) j).lasting = m.lasting := by
  split
  · exact Loom.lasting_tenSlot ..
  · rw [Loom.lasting_renorm, Loom.lasting_tenSlot]

@[simp] theorem kept_sweepSlot (l n : Nat) (sums : Tab Nat) (j : Nat) (s : State) : kept l (sweepSlot l n sums j s) = kept l s := by
  have hread := kept_plasticRead l s j
  unfold sweepSlot
  dsimp only
  split
  · exact hread
  · refine kept_ite ((kept_incIf l _ (by decide) _).trans ((kept_incIf l _ (by decide) _).trans hread))
      ((kept_modLoom_each l _ (fun m => ?_)).trans ((kept_incIf l _ (by decide) _).trans ((kept_incIf l _ (by decide) _).trans hread)))
    exact Loom.lasting_swept ..

@[simp] theorem kept_sweep (l : Nat) (s : State) (n : Nat) : kept l (sweep s l n) = kept l s := by
  have hwalk : ∀ stop fuel a, kept l (sweepWalk l n stop fuel a ([], s)).2.2 = kept l s := fun _ _ _ => kept_sweepWalk ..
  have hslots : ∀ js sums stop fuel a, kept l (forEach js (sweepSlot l n sums) (sweepWalk l n stop fuel a ([], s)).2.2) = kept l s :=
    fun _ _ _ _ _ => (kept_forEach (fun _ _ => kept_sweepSlot ..) _ _).trans (hwalk ..)
  unfold sweep
  dsimp only
  split
  · exact (kept_inc _ _ (by decide)).trans (hslots ..)
  · exact (kept_latchFault ..).trans (hslots ..)
  · exact hwalk ..

@[simp] theorem kept_tensionerSettle (l : Nat) (s : State) (n : Nat) : kept l (tensionerSettle s l n) = kept l s := by
  have hpre : kept l (modLoom (preEvents (modulators s l) l n) l (renormChanged (loom (modulators s l) l))) = kept l s :=
    (kept_modLoom (Loom.lasting_renormChanged ..)).trans ((kept_preEvents ..).trans (kept_modulators ..))
  unfold tensionerSettle
  dsimp only
  split
  · exact (kept_sweep ..).trans hpre
  · exact hpre

/-! ## The batten's work on scratch -/

@[simp] theorem kept_emitElem (l : Nat) (th : Nat × Nat × Bool × Nat) (e i : Nat) (x : Int) (s : State) :
    kept l (emitElem l th e i x s) = kept l s := by
  unfold emitElem
  dsimp only
  refine kept_ite rfl ?_
  generalize (if th.2.2.1 = true then _ else _ : Bool) = clips
  have hsat := kept_incIf l s (f := F.LOOM_TESAT_COUNT) (by decide) (clips = true)
  split
  · exact (kept_inc _ _ (by decide)).trans hsat
  · exact (kept_emitPick ..).trans ((kept_incUnless _ _ (by decide) _).trans hsat)

@[simp] theorem kept_runsMend (l : Nat) (rs : List (Nat × Nat)) (s : State) : kept l (runsMend l rs s) = kept l s := by
  unfold runsMend
  refine kept_forEach (fun r t => ?_) rs s
  exact kept_modLoom_each l t (Loom.lasting_scrMend t l r.1 r.2)

/-- The counts and the bytes of a matrix product, before what it emits. -/
def matmulPut (s : State) (l sat tiles skipped : Nat) (out : Tab Byte × Nat) (rs : List (Nat × Nat)) : State :=
  let b := bLoom l
  let s := incBy (incBy (incBy s b F.LOOM_ALIGNSAT_COUNT sat) b F.LOOM_BTILES_COUNT tiles) b F.LOOM_ZSKIP_COUNT skipped
  runsMend l rs (incBy (modLoom s l (fun m => { m with scratch := out.1 })) b F.LOOM_REQSAT_COUNT out.2)

theorem kept_matmulPut (l sat tiles skipped : Nat) (s : State) (out : Tab Byte × Nat) (rs : List (Nat × Nat)) :
    kept l (matmulPut s l sat tiles skipped out rs) = kept l s :=
  (kept_runsMend ..).trans ((kept_incBy _ _ (by decide) _).trans ((kept_modLoom rfl).trans
    ((kept_incBy _ _ (by decide) _).trans ((kept_incBy _ _ (by decide) _).trans (kept_incBy _ _ (by decide) _)))))

/-- A matrix product counts, writes its output, and emits its rows. -/
theorem runMatmul_shape (s : State) (l : Nat) (d : Dop) : ∃ sat tiles skipped out es,
    let t := matmulPut s l sat tiles skipped out (dopWrites d (d.M / 16 * 16))
    runMatmul s l d = if d.emit then
      forEach es (fun (vi : Int × Nat) s => emitElem l (((loom t l).thCopy[d.thidx]?).getD (0, 0, false, 0)) d.eshift (d.outidx + vi.2) vi.1 s) t
    else t := ⟨_, _, _, _, _, rfl⟩

@[simp] theorem kept_runMatmul (l : Nat) (s : State) (d : Dop) : kept l (runMatmul s l d) = kept l s := by
  obtain ⟨sat, tiles, skipped, out, es, h⟩ := runMatmul_shape s l d
  rw [h]
  exact kept_ite ((kept_forEach (fun _ _ => kept_emitElem ..) _ _).trans (kept_matmulPut ..)) (kept_matmulPut ..)

@[simp] theorem kept_mxGroup (l : Nat) (d : Dop) (m g : Nat) (s : State) : kept l (mxGroup l d m g s) = kept l s := by
  unfold mxGroup
  dsimp only
  refine kept_ite ?_ (kept_ite ?_ ?_)
  · exact (kept_inc _ _ (by decide)).trans (kept_modLoom rfl)
  · exact (kept_inc _ _ (by decide)).trans (kept_modLoom rfl)
  · exact kept_modLoom rfl

@[simp] theorem kept_runMx (l : Nat) (s : State) (d : Dop) : kept l (runMx s l d) = kept l s :=
  (kept_runsMend ..).trans (kept_forEach (fun _ _ => kept_forEach (fun _ _ => kept_mxGroup ..) _ _) _ _)

@[simp] theorem kept_frameClear (l : Nat) (s : State) (f : Nat) : kept l (frameClear s l f) = kept l s := kept_scrClear ..

@[simp] theorem kept_frameFold (l : Nat) (s : State) (f : Nat) : kept l (frameFold s l f) = kept l s := by
  unfold frameFold
  dsimp only
  rw [kept_frameClear]
  refine (?_ : kept l _ = kept l (scrUnknown (scratchCheck s l (frame s l f).base (8 * (frame s l f).rows * (frame s l f).klen)).2 l
    (frame s l f).base (8 * (frame s l f).rows * (frame s l f).klen))).trans ((kept_scrUnknown ..).trans (kept_scratchCheck ..))
  have hput : ∀ x n t, kept l (incBy (modLoom t l (fun m => { m with scratch := x })) (bLoom l) F.LOOM_REQSAT_COUNT n) = kept l t :=
    fun x n t => (kept_incBy _ _ (by decide) _).trans (kept_modLoom rfl)
  exact kept_ite ((kept_runsMend ..).trans (hput ..)) (hput ..)

@[simp] theorem kept_foldStage (l : Nat) (s : State) (due : List Nat) : kept l (foldStage s l due) = kept l s := by
  unfold foldStage
  dsimp only
  refine (kept_modLoom rfl).trans ((kept_forEach (fun f t => ?_) _ _).trans
    ((kept_forEach (fun _ _ => kept_frameFold ..) _ _).trans (kept_forEach_mem (fun f hf t => ?_) s)))
  · exact kept_ite ((kept_inc _ _ (by decide)).trans (kept_frameClear ..)) (kept_frameClear ..)
  · exact kept_wrI _ _ (by decide) ((List.mem_range.mp hf).trans (by decide)) _

/-! ## The course of a beat at a loom -/

/-- Where loom `l` stands in its beat: phase, beat, retry round, whether its tally is sent, the queue slot that OPEN released, the epoch
of its retention, and whether spilled entries are due. -/
def Loom.course (m : Loom) : LPhase × Nat × Nat × Bool × DqSlot × Option Nat × Bool :=
  (m.phase, m.beat, m.round, m.tallySent, m.released, m.ret.epoch, m.spillDue)

/-- The other looms, where loom `l` stands in its beat, and the beat engine with its phase. -/
def coursed (l : Nat) (s : State) : (Nat → Option Loom) × (LPhase × Nat × Nat × Bool × DqSlot × Option Nat × Bool) × BeatSt × Nat :=
  (fun j => if j = l then none else some (loom s j), (loom s l).course, s.beat, beatPhase s)

theorem Loom.course_of_lasting {m m' : Loom} (h : m.lasting = m'.lasting) : m.course = m'.course := by
  change m.lasting.course = m'.lasting.course
  rw [h]

theorem coursed_eq {l : Nat} {s t : State} (ho : ∀ j, j ≠ l → loom t j = loom s j) (hl : (loom t l).course = (loom s l).course)
    (hb : t.beat = s.beat) (hp : beatPhase t = beatPhase s) : coursed l t = coursed l s := by
  simp only [coursed, hb, hp, hl, Prod.mk.injEq, and_true]
  funext j
  by_cases h : j = l
  · simp only [h, if_true]
  · simp only [h, if_false, ho j h]

theorem coursed_of_kept {l : Nat} {s t : State} (h : kept l t = kept l s) : coursed l t = coursed l s :=
  coursed_eq (fun _ hj => other_of_kept h hj) (Loom.course_of_lasting (lasting_of_kept h)) (beat_of_kept h) (beatPhase_of_kept h)

theorem course_of_coursed {l : Nat} {s t : State} (h : coursed l t = coursed l s) : (loom t l).course = (loom s l).course :=
  congrArg (·.2.1) h

theorem beat_of_coursed {l : Nat} {s t : State} (h : coursed l t = coursed l s) : t.beat = s.beat := congrArg (·.2.2.1) h

theorem beatPhase_of_coursed {l : Nat} {s t : State} (h : coursed l t = coursed l s) : beatPhase t = beatPhase s := congrArg (·.2.2.2) h

theorem coursed_setLoom {l : Nat} {s : State} {x : Loom} (h : x.course = (loom s l).course) : coursed l (setLoom s l x) = coursed l s :=
  coursed_eq (fun _ hj => loom_setLoom_ne s l x hj) (by rw [loom_setLoom_self, h]) rfl rfl

theorem coursed_mod {l : Nat} {s : State} {f : Loom → Loom} (h : (f (loom s l)).course = (loom s l).course) :
    coursed l (modLoom s l f) = coursed l s := coursed_setLoom h

theorem coursed_forEach {α : Type} {l : Nat} {f : α → State → State} (h : ∀ a s, coursed l (f a s) = coursed l s) (as : List α) (s : State) :
    coursed l (forEach as f s) = coursed l s := forEach_keeps (coursed l) h as s

theorem coursed_ite {l : Nat} {s t u : State} {c : Prop} [Decidable c] (ht : coursed l t = coursed l s) (hu : coursed l u = coursed l s) :
    coursed l (if c then t else u) = coursed l s := by
  split
  · exact ht
  · exact hu

/-! ## The batten's turn in SETTLE -/

theorem kept_bstatShow (l : Nat) (s : State) : kept l (bstatShow s l) = kept l s := by
  unfold bstatShow
  dsimp only
  refine (kept_wr _ _ (by decide) _).trans ?_
  split
  · exact (kept_wr _ _ (by decide) _).trans (kept_wr _ _ (by decide) _)
  · exact kept_wr _ _ (by decide) _

theorem coursed_startOp (l : Nat) (s : State) (i : Nat) (settle : Bool) : coursed l (startOp s l i settle).2 = coursed l s := by
  unfold startOp
  dsimp only
  split
  · exact coursed_of_kept (kept_inc _ _ (by decide))
  · split
    · exact coursed_of_kept ((kept_latchFault ..).trans (kept_inc _ _ (by decide)))
    · split
      · rfl
      · exact coursed_mod rfl

theorem coursed_startFirst (l : Nat) (settle : Bool) (is : List Nat) (s : State) : coursed l (startFirst l settle is s).2 = coursed l s := by
  induction is generalizing s with
  | nil => rfl
  | cons i is ih =>
    unfold startFirst
    dsimp only
    split
    · exact coursed_startOp ..
    · exact coursed_startOp ..
    · exact (ih _).trans (coursed_startOp ..)

theorem coursed_battenNext (l : Nat) (s : State) : coursed l (battenNext s l) = coursed l s := by
  unfold battenNext
  dsimp only
  refine coursed_ite rfl ((coursed_of_kept (kept_bstatShow ..)).trans ?_)
  have hfold : coursed l (if (loom s l).bFold then foldStage (setLoom s l { loom s l with bFold := false }) l (loom s l).bDue else s)
      = coursed l s :=
    coursed_ite ((coursed_of_kept (kept_foldStage ..)).trans (coursed_setLoom rfl)) rfl
  generalize (if (loom s l).bFold then foldStage (setLoom s l { loom s l with bFold := false }) l (loom s l).bDue else s) = t at hfold ⊢
  have hdue : coursed l (if (loom t l).bSettle then modLoom (startFirst l true (loom t l).bDue t).2 l (fun m => { m with
      bDue := (startFirst l true (loom t l).bDue t).1, bSettle := m.bOp.isSome || !(startFirst l true (loom t l).bDue t).1.isEmpty }) else t)
      = coursed l s :=
    coursed_ite ((coursed_mod rfl).trans ((coursed_startFirst ..).trans hfold)) hfold
  exact coursed_ite ((coursed_mod rfl).trans ((coursed_startFirst ..).trans hdue)) hdue

theorem coursed_battenSettle (l : Nat) (s : State) (n : Nat) : coursed l (battenSettle s l n) = coursed l s := by
  unfold battenSettle
  dsimp only
  refine coursed_ite ((coursed_battenNext ..).trans ?_) ((coursed_of_kept (kept_bstatShow ..)).trans ?_)
  · exact coursed_mod rfl
  · exact coursed_mod rfl

end Sys2Proof.Machine
end

section
/-!
PROOFS. The course of a beat at a loom up to SETTLE (chapters 03 and 08): what OPEN sets up, that an acknowledgement leaves OPEN, and where a SETTLE
stands once every engine has had its turn.
-/

namespace Sys2Proof.Machine

/-! ## The sequencer and the channel ends, as the course of a beat sees them -/

theorem beatPhase_wr_apart {f : Fld} (hf : fldsApart f F.BEAT_STATUS_PHASE = true) (s : State) (b v : Nat) :
    beatPhase (wr s b f v) = beatPhase s := rd_wr_apart hf s b bBeat v

theorem coursed_wr_beat (l : Nat) (s : State) {f : Fld} (hf : fldsApart f F.BEAT_STATUS_PHASE = true) (v : Nat) :
    coursed l (wr s bBeat f v) = coursed l s :=
  coursed_eq (fun _ _ => rfl) rfl rfl (beatPhase_wr_apart hf s bBeat v)

theorem coursed_detSet (l : Nat) (s : State) {f : Fld} (hf : fldsApart f F.BEAT_STATUS_PHASE = true) :
    coursed l (detSet s f) = coursed l s := by
  unfold detSet
  dsimp only
  refine coursed_ite ((coursed_wr_beat l _ hf 1).trans (coursed_ite ?_ rfl)) rfl
  exact (coursed_wr_beat l _ (by decide) _).trans (coursed_wr_beat l _ (by decide) _)

theorem coursed_setCh (l : Nat) (s : State) (i : Nat) (e : ChEnd) : coursed l (setCh s l i e) = coursed l s := coursed_mod rfl

theorem coursed_modSeq (l : Nat) (s : State) (f : Seq → Seq) : coursed l (modSeq s l f) = coursed l s := coursed_mod rfl

theorem coursed_actQueue (l : Nat) (s : State) (a : Act) : coursed l (actQueue s l a) = coursed l s := by
  unfold actQueue chQueued
  dsimp only
  split
  · split
    · exact coursed_mod rfl
    · exact (coursed_setCh ..).trans (coursed_mod rfl)
  · exact coursed_mod rfl

theorem coursed_chOffer (l i : Nat) (s : State) : coursed l (chOffer l i s) = coursed l s := by
  unfold chOffer
  dsimp only
  split
  · rfl
  · exact coursed_ite rfl ((coursed_actQueue ..).trans (coursed_setCh ..))

theorem coursed_chOfferAll (l : Nat) (s : State) : coursed l (chOfferAll s l) = coursed l s := by
  unfold chOfferAll
  exact coursed_forEach (fun (x : Nat × Nat) t => coursed_chOffer l x.1 t) _ s

theorem coursed_waitCancel (l : Nat) (s : State) : coursed l (waitCancel s l) = coursed l s := by
  unfold waitCancel sendUnblock
  dsimp only
  refine (coursed_modSeq ..).trans ((coursed_mod rfl).trans ?_)
  split
  · exact coursed_of_kept (kept_send ..)
  · rfl

theorem coursed_mainStart (l : Nat) (s : State) : coursed l (mainStart s l) = coursed l s :=
  (coursed_modSeq ..).trans (coursed_waitCancel ..)

theorem coursed_seqOpenAck (l : Nat) (s : State) : coursed l (seqOpenAck s l) = coursed l s := by
  have hfree : coursed l (if (seqOf s l).running && (seqOf s l).main && !(seqOf s l).halted then
      detSet (inc (modSeq s l (fun q => { q with freerun := true })) (bLoom l) F.LOOM_SEQFREERUN_COUNT) F.BEAT_DETSTAT_FREERUN
    else s) = coursed l s :=
    coursed_ite ((coursed_detSet l _ (by decide)).trans ((coursed_of_kept (kept_inc _ _ (by decide))).trans (coursed_modSeq ..))) rfl
  unfold seqOpenAck
  dsimp only
  exact coursed_ite ((coursed_chOfferAll ..).trans ((coursed_mainStart ..).trans hfree)) hfree

theorem coursed_snapSequencer (l : Nat) (s : State) : coursed l (snapSequencer s l) = coursed l s := by
  unfold snapSequencer
  dsimp only
  split
  · rfl
  · exact coursed_ite rfl rfl

/-! ## The tally and the hooks -/

/-- A tally leaves where the beat engine stands and the spilled entries of the loom as they are, and no loom in OPEN. -/
theorem tryTally_eq (s : State) (l : Nat) : tryTally s l = s ∨
    ∃ a, tryTally s l = send (setLoom s l { loom s l with tallySent := true, phase := .close }) .tally (bHub (loomHub l)) a := by
  unfold tryTally
  dsimp only
  split
  · exact Or.inr ⟨_, rfl⟩
  · exact Or.inl rfl

theorem coursed_hookTrigger_settle (l n : Nat) (s : State) {c : Nat} (hc : c ≠ 1) : coursed l (hookTrigger s l c n) = coursed l s := by
  have hyield : ∀ t, coursed l (hookYielded t l c) = coursed l t := fun t => by
    unfold hookYielded
    rw [if_neg hc]
    exact coursed_ite (coursed_mod rfl) rfl
  unfold hookTrigger
  dsimp only
  refine coursed_ite (hyield s) (coursed_ite ((hyield _).trans (coursed_of_kept (kept_inc _ _ (by decide)))) ?_)
  exact (coursed_actQueue ..).trans (coursed_mod rfl)

/-- The INTEGRATE hook is queued, or counts as yielded at once, and the tally follows. -/
theorem hookTrigger_integrate (l n : Nat) (s : State) :
    ∃ u, coursed l u = coursed l s ∧ (hookTrigger s l 1 n = u ∨ hookTrigger s l 1 n = tryTally u l) := by
  unfold hookTrigger
  dsimp only
  split
  · exact ⟨modLoom s l (fun m => { m with hookI := false }), coursed_mod rfl, Or.inr rfl⟩
  · split
    · exact ⟨modLoom (inc s (bLoom l) F.LOOM_SEQSKIP_COUNT) l (fun m => { m with hookI := false }),
        (coursed_mod rfl).trans (coursed_of_kept (kept_inc _ _ (by decide))), Or.inr rfl⟩
    · exact ⟨_, (coursed_actQueue ..).trans (coursed_mod rfl), Or.inl rfl⟩

/-- Loom `l` has left OPEN, and the beat engine stands as in `s`. -/
def LeftOpen (l : Nat) (s t : State) : Prop := (loom t l).phase ≠ .opening ∧ t.beat = s.beat ∧ beatPhase t = beatPhase s

theorem leftOpen_of_coursed {l : Nat} {s t u : State} (h : coursed l u = coursed l t) (ht : LeftOpen l s t) : LeftOpen l s u := by
  obtain ⟨hp, hb, hs⟩ := ht
  have hphase : (loom u l).phase = (loom t l).phase := congrArg (·.1) (course_of_coursed h)
  exact ⟨hphase ▸ hp, (beat_of_coursed h).trans hb, (beatPhase_of_coursed h).trans hs⟩

theorem leftOpen_tryTally {l : Nat} {s t : State} (ht : LeftOpen l s t) : LeftOpen l s (tryTally t l) := by
  obtain h | ⟨a, h⟩ := tryTally_eq t l
  · rwa [h]
  · obtain ⟨-, hb, hs⟩ := ht
    rw [h]
    refine ⟨?_, hb, hs⟩
    change (loom (setLoom t l _) l).phase ≠ _
    rw [loom_setLoom_self]
    change LPhase.close ≠ _
    decide

theorem spillDue_tryTally (l : Nat) (s : State) : (loom (tryTally s l) l).spillDue = (loom s l).spillDue := by
  obtain h | ⟨a, h⟩ := tryTally_eq s l
  · rw [h]
  · rw [h]
    change (loom (setLoom s l _) l).spillDue = _
    rw [loom_setLoom_self]

theorem leftOpen_integrate {l : Nat} {s t : State} (h : coursed l t = coursed l s) :
    LeftOpen l s (modLoom t l (fun m => { m with phase := .integrate })) := by
  have hb := beat_of_coursed h
  have hp := beatPhase_of_coursed h
  refine ⟨?_, hb, hp⟩
  rw [loom_modLoom_self]
  change LPhase.integrate ≠ _
  decide

/-- A loom that acknowledges leaves OPEN. -/
theorem leftOpen_loomAck (l : Nat) (s : State) : LeftOpen l s (loomAck s l) := by
  have hseq : coursed l (snapSequencer (seqOpenAck s l) l) = coursed l s := (coursed_snapSequencer ..).trans (coursed_seqOpenAck ..)
  have hint := leftOpen_integrate hseq
  have hrel := leftOpen_of_coursed (coursed_of_kept (kept_integrateReleased l _ none)) hint
  obtain ⟨u, hu, hhook⟩ := hookTrigger_integrate l
    (loom (modLoom (snapSequencer (seqOpenAck s l) l) l (fun m => { m with phase := .integrate })) l).beat
    (integrateReleased (modLoom (snapSequencer (seqOpenAck s l) l) l (fun m => { m with phase := .integrate })) l none)
  refine leftOpen_tryTally ?_
  rcases hhook with hhook | hhook
  · rw [hhook]
    exact leftOpen_of_coursed hu hrel
  · rw [hhook]
    exact leftOpen_tryTally (leftOpen_of_coursed hu hrel)

/-- The beat engine notes an acknowledgement; while another loom's is due, that is all. -/
theorem beatAck_waits {l : Nat} {s : State} (hopen : s.beat.isOpen = true) (hph : beatPhase s = 1) (hon : l ∈ s.beat.on)
    (hack : l ∉ s.beat.acked) (hother : ∃ k ∈ s.beat.on, k ≠ l ∧ k ∉ s.beat.acked) :
    beatAck s l = modBeat s (fun x => { x with acked := x.acked ++ [l] }) := by
  obtain ⟨k, hk, hkl, hka⟩ := hother
  have hall : s.beat.on.all (fun k => k = l || s.beat.acked.contains k) = false := by
    rw [List.all_eq_false]
    exact ⟨k, hk, by simp [hkl, hka]⟩
  unfold beatAck
  dsimp only
  rw [if_neg (by simp [hopen, hph, hon, hack]), hall]
  rfl

/-! ## OPEN -/

/-- The snapshots of a boundary leave the other looms, and the queues of the loom. -/
theorem snapTake_looms (l n : Nat) (all : Bool) (s : State) :
    (∀ j, j ≠ l → loom (snapTake s l n all) j = loom s j) ∧ (loom (snapTake s l n all) l).dq = (loom s l).dq := by
  unfold snapTake setSnap modLl
  dsimp only
  refine ⟨fun j hj => loom_setLoom_ne s l _ hj, ?_⟩
  change (loom (setLoom s l _) l).dq = _
  rw [loom_setLoom_self]
  rfl

theorem boundary_looms (l n : Nat) (s : State) :
    (∀ j, j ≠ l → loom (snapCapture (snapAt s l n) l n) j = loom s j) ∧ (loom (snapCapture (snapAt s l n) l n) l).dq = (loom s l).dq := by
  have hat : (∀ j, j ≠ l → loom (snapAt s l n) j = loom s j) ∧ (loom (snapAt s l n) l).dq = (loom s l).dq := by
    unfold snapAt
    split
    · exact snapTake_looms l n false s
    · exact ⟨fun _ _ => rfl, rfl⟩
  generalize snapAt s l n = t at hat ⊢
  obtain ⟨ho, hq⟩ := hat
  unfold snapCapture
  dsimp only
  split
  · refine ⟨fun j hj => (loom_setLoom_ne t l _ hj).trans (ho j hj), ?_⟩
    change (loom (setLoom t l _) l).dq = _
    rw [loom_setLoom_self]
    exact hq
  · exact ⟨ho, hq⟩

theorem rcInvalidate_dq (m : Loom) : (rcInvalidate m).dq = m.dq := by
  unfold rcInvalidate
  split <;> rfl

theorem kept_tableLatch (l : Nat) (s : State) (n : Nat) : kept l (tableLatch s l n) = kept l s := by
  unfold tableLatch
  dsimp only
  refine (kept_setLoom ?_).trans ((kept_scrUnknown ..).trans (kept_scratchCheck ..))
  rfl

theorem kept_openGo (l : Nat) (s : State) : kept l (openGo s l) = kept l s := by
  unfold openGo
  dsimp only
  split
  · rfl
  · exact kept_ite rfl ((kept_dqDrain ..).trans (kept_tableLatch ..))

theorem kept_spillRead (l : Nat) (s : State) : kept l (spillRead s l) = kept l s :=
  kept_forEach (fun _ _ => kept_hbmAskAs ..) _ _

/-- A loom as OPEN of beat `n` sets it up: from what the boundary's snapshots leave, with layout `lat`, `k` entries of the stream table to read, at `t`. -/
def openLoom (m : Loom) (n : Nat) (lat : Latched) (k t : Nat) : Loom :=
  { dqOpen (rcInvalidate m) n with
    phase := .opening, beat := n, lat := lat, openDue := some k, round := 0, slotsDone := false, openRoutes := [], contrib := 0
    tallySent := false, noRestart := [], drain := false, badSegs := [], logStall := false, waitStart := t }

/-- What follows at OPEN leaves that. -/
theorem loomOpen_kept {l n : Nat} {s : State} (he : rdB s (bLoom l) F.CONTROL_ENABLE = true) (hp : (loom s l).phase = .idle) :
    ∃ lat k t, let u := snapCapture (snapAt s l n) l n
      kept l (loomOpen s l n) = kept l (setLoom u l (openLoom (loom u l) n lat k t)) := by
  unfold loomOpen
  dsimp only
  rw [if_neg (by simp [he, hp])]
  refine ⟨latchLayout (snapCapture (snapAt s l n) l n) l,
    min 4096 (rd (snapCapture (snapAt s l n) l n) (bLoom l) F.LOOM_INSTCOUNT_COUNT), ltNow (snapCapture (snapAt s l n) l n), ?_⟩
  refine (kept_openGo ..).trans ((kept_routeFetchAll ..).trans ((kept_spillRead ..).trans
    ((kept_forEach (fun (x : DqWait) t => kept_dqCounted l t x.word x.mark) _ _).trans ((kept_wr _ _ (f := F.LOOM_NISTAT_RETRY) (by decide) _).trans
      ((kept_logBeat ..).trans (kept_wr _ _ (f := F.LOOM_DQCOUNT_COUNT) (by decide) _))))))

theorem loomOpen_opens {l n : Nat} {s : State} (he : rdB s (bLoom l) F.CONTROL_ENABLE = true) (hp : (loom s l).phase = .idle) :
    let t := loomOpen s l n
    (loom t l).phase = .opening ∧ (loom t l).beat = n ∧ (loom t l).round = 0 ∧ (loom t l).tallySent = false ∧
      (loom t l).released = (((loom s l).dq[n % 16]?).getD DqSlot.reset).noted ∧ ∀ j, j ≠ l → loom t j = loom s j := by
  obtain ⟨lat, k, at', h⟩ := loomOpen_kept (n := n) he hp
  obtain ⟨ho, hq⟩ := boundary_looms l n s
  have hc := Loom.course_of_lasting (lasting_of_kept h)
  rw [loom_setLoom_self] at hc
  have hr : (loom (loomOpen s l n) l).released = _ := congrArg (·.2.2.2.2.1) hc
  refine ⟨congrArg (·.1) hc, congrArg (·.2.1) hc, congrArg (·.2.2.1) hc, congrArg (·.2.2.2.1) hc, hr.trans ?_, fun j hj => ?_⟩
  · change (((rcInvalidate _).dq[n % 16]?).getD DqSlot.reset).noted = _
    rw [rcInvalidate_dq, hq]
  · exact ((other_of_kept h hj).trans (loom_setLoom_ne _ l _ hj)).trans (ho j hj)

/-! ## The acknowledgement, and spilled entries that are back -/

theorem openAckOk_true {l : Nat} {s : State} (hp : (loom s l).phase = .opening) (hd : (loom s l).openDue = none)
    (hs : seqOpenOk (loom s l).seq = true) (hdr : (loom s l).drains = []) (hn : neuronHeld s l = false) : openAckOk s l = true := by
  simp [openAckOk, hp, hd, hs, hdr, hn]

theorem openAckOk_false {l : Nat} {s : State} (h : (loom s l).phase ≠ .opening ∨ (loom s l).openDue ≠ none ∨
    seqOpenOk (loom s l).seq = false ∨ (loom s l).drains ≠ [] ∨ neuronHeld s l = true) : openAckOk s l = false := by
  simp only [openAckOk, Bool.and_eq_false_iff, decide_eq_false_iff_not, Bool.not_eq_false', List.isEmpty_eq_false_iff,
    Option.isNone_eq_false_iff, Option.isSome_iff_ne_none]
  tauto

theorem loomAck_acks {l : Nat} {s : State} (hopen : s.beat.isOpen = true) (hph : beatPhase s = 1) (hon : l ∈ s.beat.on)
    (hack : l ∉ s.beat.acked) (hother : ∃ k ∈ s.beat.on, k ≠ l ∧ k ∉ s.beat.acked) :
    l ∈ (beatAck (loomAck s l) l).beat.acked ∧ (loom (beatAck (loomAck s l) l) l).phase ≠ .opening := by
  obtain ⟨hp, hb, hs⟩ := leftOpen_loomAck l s
  rw [beatAck_waits (by rwa [hb]) (hs.trans hph) (by rwa [hb]) (by rwa [hb]) (by rwa [hb])]
  exact ⟨List.mem_append_right _ List.mem_cons_self, hp⟩

theorem spillBack_clears {l : Nat} {s : State} (hd : (loom s l).spillDue = true) (hb : spillBusy s l = false)
    (hh : (loom s l).phase = .opening ∨ neuronHeld s l = false) : (loom (spillBack s l) l).spillDue = false := by
  unfold spillBack
  dsimp only
  rw [if_neg (by simp [hd, hb])]
  split
  · rw [loom_setLoom_self]
  · next hp =>
    rw [if_neg (by simp [hh.resolve_left hp]), spillDue_tryTally]
    have hc := Loom.course_of_lasting (lasting_of_kept
      (kept_integrateSpill l (setLoom s l { loom s l with spillDue := false }) (roundEpoch (loom s l))))
    rw [loom_setLoom_self] at hc
    exact congrArg (·.2.2.2.2.2.2) hc

theorem spillBack_rests {l : Nat} {s : State} (h : (loom s l).spillDue = false ∨ spillBusy s l = true) : spillBack s l = s := by
  unfold spillBack
  dsimp only
  rw [if_pos (by rcases h with h | h <;> simp [h])]

/-! ## SETTLE -/

theorem loomSettle_settles {l n : Nat} {s : State} (hp : (loom s l).phase = .close) (hn : (loom s l).beat = n)
    (hb : rdB s (bLoom l) F.LOOM_TSNAPCTL_BUSY = false) (hh : neuronHeld s l = false) (hi : netifHeld s l = false) :
    (loom (loomSettle s l n) l).phase = .settle ∧ (loom (loomSettle s l n) l).ret.epoch = some n := by
  unfold loomSettle
  dsimp only
  rw [if_neg (by simp [hp, hn]), if_neg (by simp [hb]), if_neg (by simp [hh, hi])]
  generalize hu : setLoom s l _ = u
  have hc : coursed l (hookTrigger (battenSettle (neuronSettle (tensionerSettle (dqDrain u l) l n) l n) l n) l 2 n) = coursed l u :=
    (coursed_hookTrigger_settle l n _ (by decide)).trans ((coursed_battenSettle ..).trans (coursed_of_kept ((kept_neuronSettle ..).trans
      ((kept_tensionerSettle ..).trans (kept_dqDrain ..)))))
  have hcourse := course_of_coursed hc
  rw [← hu, loom_setLoom_self, hu] at hcourse
  exact ⟨congrArg (·.1) hcourse, congrArg (·.2.2.2.2.2.1) hcourse⟩

theorem loomSettle_other {l n : Nat} {s : State} (h : (loom s l).phase ≠ .close ∨ (loom s l).beat ≠ n) : loomSettle s l n = s := by
  unfold loomSettle
  dsimp only
  rw [if_pos h]

theorem loomSettle_held {l n : Nat} {s : State} (hp : (loom s l).phase = .close) (hn : (loom s l).beat = n)
    (hb : rdB s (bLoom l) F.LOOM_TSNAPCTL_BUSY = false) (hh : neuronHeld s l = true ∨ netifHeld s l = true) :
    loomSettle s l n = send s .hold (bLoom l) [] := by
  unfold loomSettle
  dsimp only
  rw [if_neg (by simp [hp, hn]), if_neg (by simp [hb]), if_pos (by rcases hh with h | h <;> simp [h])]

theorem loomSettle_stalls {l n : Nat} {s : State} (hp : (loom s l).phase = .close) (hn : (loom s l).beat = n)
    (hb : rdB s (bLoom l) F.LOOM_TSNAPCTL_BUSY = true) : loomSettle s l n = settleStall s l := by
  unfold loomSettle
  dsimp only
  rw [if_neg (by simp [hp, hn]), if_pos hb]

theorem settleStall_counts (l : Nat) (s : State) : (settleStall s l).looms = s.looms ∧
    regsBut s (settleStall s l) (bLoom l) [F.LOOM_TSNAPSTALL_COUNT.off] ∧ ∃ x,
      rd (settleStall s l) (bLoom l) F.LOOM_TSNAPSTALL_COUNT = (rd s (bLoom l) F.LOOM_TSNAPSTALL_COUNT + x) % 2 ^ 32 :=
  ⟨rfl, regsBut_wr s (bLoom l) F.LOOM_TSNAPSTALL_COUNT _ (by decide), _, rd_wr_self s (bLoom l) F.LOOM_TSNAPSTALL_COUNT _ (by decide)⟩

end Sys2Proof.Machine
end

section
/-!
PROOFS. The end of SETTLE and EMIT (chapters 03 and 05): what the packets of a loom depend on (`net`), that the close markers leave, and O20.
-/

namespace Sys2Proof.Machine

/-! ## What a loom's packets depend on -/

/-- What the packets that loom `l` sends depend on: the package numbers and the map of the fabric, whether the loom is isolated, the credits
that it withholds, its owner, and the package route table. -/
def net (l : Nat) (s : State) : GlimPkg × Tab Hub × Bool × Nat × Nat × (Fin 16 → Option Nat) :=
  (s.gpkg, s.hubs, isolated s l, niOff s l, rd s (bLoom l) F.OWNER_PART, fun d => pkgRoute s d)

/-- From `s` to `t` what loom `l`'s packets depend on stands, and what has been sent is sent. -/
structure NetKept (l : Nat) (s t : State) : Prop where
  net : net l t = net l s
  out : s.out <+: t.out

theorem NetKept.refl (l : Nat) (s : State) : NetKept l s s := ⟨rfl, List.prefix_rfl⟩

theorem NetKept.trans {l : Nat} {s t u : State} (h : NetKept l s t) (k : NetKept l t u) : NetKept l s u :=
  ⟨k.net.trans h.net, h.out.trans k.out⟩

theorem NetKept.ite {l : Nat} {s t u : State} {c : Prop} [Decidable c] (ht : NetKept l s t) (hu : NetKept l s u) :
    NetKept l s (if c then t else u) := by
  split
  · exact ht
  · exact hu

theorem NetKept.forEach {α : Type} {l : Nat} {f : α → State → State} (h : ∀ a s, NetKept l s (f a s)) (as : List α) (s : State) :
    NetKept l s (forEach as f s) := by
  induction as generalizing s with
  | nil => exact .refl l s
  | cons a as ih => exact (h a s).trans (ih _)

/-- Registers of the loom's page that its packets do not depend on. -/
abbrev netQuiet (offs : List Nat) : Prop := F.HUB_ROWISO_ISO.off ∉ offs ∧ F.OWNER_PART.off ∉ offs

theorem isolated_regsBut {l b : Nat} {s t : State} {offs : List Nat} (h : regsBut s t b offs) (ho : F.HUB_ROWISO_ISO.off ∉ offs)
    (hh : t.hubs = s.hubs) : isolated t l = isolated s l := by
  have hi : (rowHalfOf (l / 32) (l % 32)).2 < 65536 := lt_trans (Nat.mod_lt _ (by decide)) (by decide : 3 < 65536)
  unfold isolated
  dsimp only
  rw [siteOf_congr hh, rdI, rdI, h _ _ _ (fun k => ho k.2) (by decide) hi]

theorem pkgRoute_regsBut {l : Nat} {s t : State} {offs : List Nat} (h : regsBut s t (bLoom l) offs) {d : Nat} (hd : d < 16) :
    pkgRoute t d = pkgRoute s d := by
  have hb : bGlimmer 0 ≠ bLoom l := by simp only [bGlimmer, bLoom]; omega
  have ho : F.GLIM_PKGRT_ENTRY.off + 4 * (d / 8) < 4096 := by
    have h0 : F.GLIM_PKGRT_ENTRY.off ≤ 4000 := by decide
    omega
  unfold pkgRoute
  dsimp only
  rw [h _ _ _ (fun k => hb k.1) ho (by decide)]

theorem net_regsBut {l : Nat} {s t : State} {offs : List Nat} (h : regsBut s t (bLoom l) offs) (hq : netQuiet offs) (hg : t.gpkg = s.gpkg)
    (hh : t.hubs = s.hubs) (hw : (loom t l).dqWaits = (loom s l).dqWaits) : net l t = net l s := by
  have hr : (fun d : Fin 16 => pkgRoute t d) = fun d : Fin 16 => pkgRoute s d := funext fun d => pkgRoute_regsBut h d.isLt
  have howner : rd t (bLoom l) F.OWNER_PART = rd s (bLoom l) F.OWNER_PART :=
    congrArg (fldGet F.OWNER_PART) (h _ _ _ (fun k => hq.2 k.2) (by decide) (by decide))
  rw [Machine.net, Machine.net, hg, hh, isolated_regsBut h hq.1 hh, niOff, niOff, hw, hr, howner]

theorem netKept_inc (l : Nat) (s : State) {f : Fld} (hf : f.off < 4096) (hq : netQuiet [f.off]) : NetKept l s (inc s (bLoom l) f) :=
  ⟨net_regsBut (regsBut_inc s _ f hf) hq rfl rfl rfl, List.prefix_rfl⟩

theorem netKept_send (l : Nat) (s : State) (k : MsgKind) (d : Nat) (a : List Nat) : NetKept l s (send s k d a) :=
  ⟨rfl, List.prefix_append _ _⟩

theorem netKept_setLoom {l : Nat} {s : State} {x : Loom} (h : x.dqWaits = (loom s l).dqWaits) : NetKept l s (setLoom s l x) :=
  ⟨net_regsBut (regsBut_of_regs _ [] rfl) (by decide) rfl rfl (by rw [loom_setLoom_self, h]), List.prefix_rfl⟩

theorem netKept_modLoom {l : Nat} {s : State} {f : Loom → Loom} (h : (f (loom s l)).dqWaits = (loom s l).dqWaits) :
    NetKept l s (modLoom s l f) := netKept_setLoom h

theorem netKept_fetchOnly {l : Nat} {s t : State} (h : fetchOnly l s t) (ho : s.out <+: t.out) : NetKept l s t := by
  obtain ⟨ht, -, ⟨_, _, _, _, hl⟩, hr⟩ := h
  exact ⟨net_regsBut hr (by decide) (by rw [ht]) (by rw [ht]) (by rw [hl]), ho⟩

theorem out_latchFault (s : State) (b code : Nat) : s.out <+: (latchFault s b code).out := by
  unfold latchFault latchCause
  dsimp only
  split
  · exact (List.prefix_append _ _).trans (List.prefix_append _ _)
  · exact List.prefix_append _ _

theorem netKept_latchFault (l : Nat) (s : State) (code : Nat) : NetKept l s (latchFault s (bLoom l) code) :=
  netKept_fetchOnly (fetchOnly_latchFault l s code) (out_latchFault ..)

theorem out_moveStart (l : Nat) (s : State) (k : Nat) : s.out <+: (moveStart s l k).out := by
  unfold moveStart
  dsimp only
  split
  · exact List.prefix_rfl
  · split
    · exact out_latchFault ..
    · exact List.prefix_rfl

theorem netKept_bankCorrected (l : Nat) (s : State) (k n : Nat) : NetKept l s (bankCorrected s l k n) := by
  refine netKept_fetchOnly (fetchOnly_bankCorrected l s k n) ?_
  unfold bankCorrected
  dsimp only
  split
  · exact List.prefix_rfl
  · split
    · refine (?_ : s.out <+: _).trans (out_moveStart ..)
      exact List.prefix_rfl
    · exact List.prefix_rfl

theorem netKept_scratchMend (l : Nat) (s : State) (ps : List Nat) : NetKept l s (scratchMend s l ps) :=
  (netKept_modLoom rfl).trans (.forEach (fun _ _ => netKept_bankCorrected ..) _ _)

theorem fetchOnly_scrCheck (l : Nat) (s : State) (a n code : Nat) : fetchOnly l s (scrCheck s l a n code).2 := by
  unfold scrCheck
  split
  · exact fetchOnly_latchFault ..
  · split
    · exact fetchOnly_refl ..
    · exact fetchOnly_scratchMend ..

theorem netKept_scratchCheck (l : Nat) (s : State) (a n : Nat) : NetKept l s (scratchCheck s l a n).2 := by
  unfold scratchCheck scrCheck
  split
  · exact netKept_latchFault ..
  · split
    · exact .refl l s
    · exact netKept_scratchMend ..

theorem netKept_niSend (l : Nat) (s : State) (d : Nat) (k : MsgKind) (a : List Nat) : NetKept l s (niSend s l d k a) := by
  unfold niSend
  refine .ite (netKept_inc l s (by decide) (by decide)) (.ite (.refl l s) ?_)
  exact (netKept_inc l s (by decide) (by decide)).trans (netKept_send ..)

/-! ## The words of a stream -/

theorem selfPkg_of_net {l : Nat} {s t : State} (h : net l t = net l s) : selfPkg t = selfPkg s := congrArg (fun x => x.1.self) h

theorem pkgRoute_of_net {l : Nat} {s t : State} (h : net l t = net l s) {d : Nat} (hd : d < 16) : pkgRoute t d = pkgRoute s d :=
  congrFun (congrArg (·.2.2.2.2.2) h) ⟨d, hd⟩

theorem recDpkg_of_net {l : Nat} {s t : State} (h : net l t = net l s) (w : Nat) : recDpkg t w = recDpkg s w := by
  rw [recDpkg, recDpkg, selfPkg_of_net h]

theorem recPkg_lt (w : Nat) : recPkg w < 16 := Nat.mod_lt _ (by decide)

/-- A record leads to the own package or to one that the package route table has. -/
theorem recDpkg_cases (s : State) (w : Nat) : recDpkg s w = selfPkg s ∨ recDpkg s w < 16 := by
  unfold recDpkg
  split
  · exact Or.inr (recPkg_lt w)
  · exact Or.inl rfl

theorem headOf_of_net {l : Nat} {s t : State} (h : net l t = net l s) {dpkg : Nat} (hd : dpkg = selfPkg s ∨ dpkg < 16) (part cls tag len : Nat)
    (path : Nat × Nat × Nat) : headOf t l part cls tag dpkg len path = headOf s l part cls tag dpkg len path := by
  have hx : (if dpkg = selfPkg s then path.2.2 else (pkgRoute t dpkg).getD 0 % 4) = if dpkg = selfPkg s then path.2.2 else (pkgRoute s dpkg).getD 0 % 4 := by
    split
    · rfl
    · next hne => rw [pkgRoute_of_net h (hd.resolve_left hne)]
  rw [headOf, headOf, selfPkg_of_net h, hx]

theorem niFlits_of_net {l : Nat} {s t : State} (h : net l t = net l s) {dpkg : Nat} (hd : dpkg = selfPkg s ∨ dpkg < 16) (vc cls tag : Nat)
    (path : Nat × Nat × Nat) (p : List Nat) : niFlits t l vc cls tag dpkg path p = niFlits s l vc cls tag dpkg path p := by
  have ho : rd t (bLoom l) F.OWNER_PART = rd s (bLoom l) F.OWNER_PART := congrArg (·.2.2.2.2.1) h
  have hn : niOff t l = niOff s l := congrArg (·.2.2.2.1) h
  rw [niFlits, niFlits, ho, hn, headOf_of_net h hd]

theorem niSend_mem {l d : Nat} {s : State} (k : MsgKind) (a : List Nat) (hi : isolated s l = false)
    (hd : d = selfPkg s ∨ (pkgRoute s d).isSome = true) : outOf k (bLoom l) a ∈ (niSend s l d k a).out := by
  have hr : ¬ (d ≠ selfPkg s ∧ (pkgRoute s d).isNone = true) := by
    rintro ⟨h1, h2⟩
    rcases hd with hd | hd
    · exact h1 hd
    · rw [Option.isNone_iff_eq_none] at h2
      rw [h2] at hd
      cases hd
  unfold niSend
  rw [if_neg hr, if_neg (by simp [hi])]
  exact List.mem_append_right _ List.mem_cons_self

theorem netKept_sendWords (l tag d : Nat) (s : State) (path : Nat × Nat × Nat) (ws : List W64) : NetKept l s (sendWords s l tag d path ws) :=
  .forEach (fun _ _ => netKept_niSend ..) _ _

theorem netKept_sendChain (l : Nat) (s : State) (g : Seg) (ch : List (Nat × RouteRec)) (ws : List W64) :
    NetKept l s (sendChain s l g ch ws) := .forEach (fun _ _ => netKept_sendWords ..) _ _

/-- The packet of one word `w` on the stream of record `r` of segment `g`. -/
def wordPacket (s : State) (l : Nat) (g : Seg) (r : Nat × RouteRec) (w : W64) : Out :=
  ⟨.stream, bLoom l, niFlits s l 0 0 (g.idx * 32 + r.1) (recDpkg s r.2.word) (recPath r.2.word) (wordFlits [w.toNat] padWord)⟩

theorem wordPacket_of_net {l : Nat} {s t : State} (h : net l t = net l s) (g : Seg) (r : Nat × RouteRec) (w : W64) :
    wordPacket t l g r w = wordPacket s l g r w := by
  rw [wordPacket, wordPacket, recDpkg_of_net h, niFlits_of_net h (recDpkg_cases s _)]

theorem sendWords_one (s : State) (l tag d : Nat) (path : Nat × Nat × Nat) (w : W64) :
    sendWords s l tag d path [w] = niSend s l d .stream (niFlits s l 0 0 tag d path (wordFlits [w.toNat] padWord)) := by
  have h1 : List.range (([w].length + 15) / 16) = [0] := by simp
  rw [sendWords, h1]
  rfl

/-- A word on the streams of a segment leaves on each of them that leads to the own package or to one with a route. -/
theorem sendChain_mem {l : Nat} {s : State} (g : Seg) {ch : List (Nat × RouteRec)} (w : W64) (hi : isolated s l = false)
    {r : Nat × RouteRec} (hr : r ∈ ch) (hd : recDpkg s r.2.word = selfPkg s ∨ (pkgRoute s (recDpkg s r.2.word)).isSome = true) :
    wordPacket s l g r w ∈ (sendChain s l g ch [w]).out := by
  refine (forEach_reaches (NetKept l s) (fun t => NetKept l s t ∧ wordPacket s l g r w ∈ t.out) ?_ ?_ ?_ hr (.refl l s)).2
  · exact fun x t ht => ht.trans (netKept_sendWords ..)
  · rintro x t ⟨ht, hm⟩
    have hx := netKept_sendWords l (g.idx * 32 + x.1) (recDpkg t x.2.word) t (recPath x.2.word) [w]
    exact ⟨ht.trans hx, hx.out.subset hm⟩
  · intro t ht
    refine ⟨ht.trans (netKept_sendWords ..), ?_⟩
    have hit : isolated t l = false := (congrArg (·.2.2.1) ht.net : isolated t l = isolated s l).trans hi
    have hdt : recDpkg t r.2.word = selfPkg t ∨ (pkgRoute t (recDpkg t r.2.word)).isSome = true := by
      rw [recDpkg_of_net ht.net, selfPkg_of_net ht.net]
      refine (recDpkg_cases s r.2.word).elim Or.inl (fun hlt => ?_)
      rwa [pkgRoute_of_net ht.net hlt]
    rw [← wordPacket_of_net ht.net, sendWords_one]
    exact niSend_mem .stream _ hit hdt

/-! ## EMIT -/

/-- Every stream of a segment that injects takes its close marker. -/
theorem injectAll_closes {l : Nat} {s : State} {ep : Nat} (hi : isolated s l = false) (he : (loom s l).ret.epoch = some ep) {g : Seg}
    (hg : g ∈ injectable (loom s l)) {r : Nat × RouteRec} (hr : r ∈ segChain (loom s l) g)
    (hd : recDpkg s r.2.word = selfPkg s ∨ (pkgRoute s (recDpkg s r.2.word)).isSome = true) :
    wordPacket s l g r (closeWord ep (segRun (loom s l) g.idx).2) ∈ (injectAll s l).out := by
  have hc := netKept_scratchCheck l s (retBase s l) (4 * (loom s l).ret.count)
  obtain ⟨-, -, ⟨b, x, y, z, hl⟩, -⟩ := fetchOnly_scrCheck l s (retBase s l) (4 * (loom s l).ret.count) 0x0112
  change loom (scratchCheck s l (retBase s l) (4 * (loom s l).ret.count)).2 l = _ at hl
  unfold injectAll retCheck
  dsimp only
  generalize (scratchCheck s l (retBase s l) (4 * (loom s l).ret.count)).2 = u at hc hl ⊢
  have hep : (loom u l).ret.epoch = some ep := by rw [hl]; exact he
  have hinj : injectable (loom u l) = injectable (loom s l) := by rw [hl]; rfl
  have hseg : segChain (loom u l) = segChain (loom s l) := by rw [hl]; rfl
  have hrun : segRun (loom u l) = segRun (loom s l) := by rw [hl]; rfl
  rw [hep, hinj, hseg, hrun]
  dsimp only [modLoom_out]
  generalize hv : forEach (List.range (loom u l).ret.count) _ u = v
  have hkeep : NetKept l s v := by
    rw [← hv]
    refine hc.trans (.forEach (fun k t => .ite (.refl l t) ?_) _ _)
    split
    · exact netKept_sendChain ..
    · exact .refl l t
  refine (forEach_reaches (NetKept l s) (fun t => NetKept l s t ∧ wordPacket s l g r (closeWord ep (segRun (loom s l) g.idx).2) ∈ t.out)
    ?_ ?_ ?_ hg hkeep).2
  · exact fun g t ht => ht.trans (netKept_sendChain ..)
  · rintro g' t ⟨ht, hm⟩
    have hx := netKept_sendChain l t g' (segChain (loom s l) g') [closeWord ep (segRun (loom s l) g'.idx).2]
    exact ⟨ht.trans hx, hx.out.subset hm⟩
  · intro t ht
    have hit : isolated t l = false := (congrArg (·.2.2.1) ht.net : isolated t l = isolated s l).trans hi
    refine ⟨ht.trans (netKept_sendChain ..), ?_⟩
    rw [← wordPacket_of_net ht.net]
    refine sendChain_mem g _ hit hr ?_
    rw [recDpkg_of_net ht.net, selfPkg_of_net ht.net]
    refine (recDpkg_cases s r.2.word).elim Or.inl (fun hlt => ?_)
    rwa [pkgRoute_of_net ht.net hlt]

theorem netKept_repickServe (l : Nat) (s : State) (ep tag first num pkg dst : Nat) :
    NetKept l s (repickServe s l ep tag first num pkg dst) := by
  have hq : ∀ t, NetKept l t (inc t (bLoom l) F.LOOM_REPICKSRV_COUNT) := fun t => netKept_inc l t (by decide) (by decide)
  unfold repickServe
  dsimp only
  refine .ite ((netKept_sendWords ..).trans (hq _)) (.ite (netKept_inc l s (by decide) (by decide)) ?_)
  exact (netKept_scratchCheck ..).trans ((netKept_sendWords ..).trans (hq _))

theorem netKept_answerHeld (l : Nat) (s : State) : NetKept l s (answerHeld s l) := by
  unfold answerHeld
  dsimp only
  split
  · exact .refl l s
  · refine NetKept.trans (netKept_setLoom ?_) (.forEach (fun q t => netKept_repickServe ..) _ _)
    rfl

theorem netKept_actQueue (l : Nat) (s : State) (a : Act) : NetKept l s (actQueue s l a) := by
  unfold actQueue chQueued
  dsimp only
  split
  · split
    · exact netKept_modLoom rfl
    · exact NetKept.trans (netKept_modLoom rfl) (netKept_modLoom rfl)
  · exact netKept_modLoom rfl

theorem netKept_hookTrigger_emit (l n : Nat) (s : State) : NetKept l s (hookTrigger s l 3 n) := by
  unfold hookTrigger
  dsimp only
  refine .ite (.refl l s) (.ite (netKept_inc l s (by decide) (by decide)) ?_)
  exact NetKept.trans (netKept_modLoom rfl) (netKept_actQueue ..)

theorem netKept_modBeat (l : Nat) (s : State) (f : BeatSt → BeatSt) : NetKept l s (modBeat s f) := ⟨rfl, List.prefix_rfl⟩

theorem netKept_digest (l k : Nat) (s : State) (d : Nat × List Byte) :
    NetKept l s (modBeat (modLoom s l (fun m => { m with digest := d })) (fun x => { x with digs := tabSet [] x.digs k d.2 })) :=
  NetKept.trans (netKept_modLoom rfl) (netKept_modBeat ..)

/-- The loom injects, answers, keeps its digest, and ends its beat with the EMIT hook. -/
theorem loomEmitted_shape (s : State) (l : Nat) : ∃ u, NetKept l (injectAll s l) u ∧
    loomEmitted s l = hookTrigger (modLoom u l (fun m => { m with phase := .idle })) l 3 (loom s l).beat := by
  refine ⟨_, ?_, rfl⟩
  refine (netKept_answerHeld l (injectAll s l)).trans (.ite (.refl ..) ?_)
  exact netKept_digest l ((loom s l).beat * 1024 + l) (answerHeld (injectAll s l) l)
    ((loom s l).beat, loomDigest (answerHeld (injectAll s l) l) l (loom s l).beat)

theorem loomEmitted_idle (l : Nat) (s : State) : (loom (loomEmitted s l) l).phase = .idle := by
  obtain ⟨u, -, h⟩ := loomEmitted_shape s l
  have hc := course_of_coursed (coursed_hookTrigger_settle l (loom s l).beat (modLoom u l (fun m => { m with phase := .idle })) (c := 3) (by decide))
  rw [loom_modLoom_self] at hc
  rw [h]
  exact congrArg (·.1) hc

theorem loomEmitted_sends {l : Nat} {s : State} {o : Out} (h : o ∈ (injectAll s l).out) : o ∈ (loomEmitted s l).out := by
  obtain ⟨u, hu, he⟩ := loomEmitted_shape s l
  rw [he]
  exact (netKept_hookTrigger_emit ..).out.subset (hu.out.subset h)

theorem emitDoneOk_eq (s : State) (l : Nat) :
    emitDoneOk s l = (decide ((loom s l).phase = .emit) && routesReady (loom s l) && !netifHeld s l) := rfl

/-! ## The end of SETTLE -/

/-- What a write to the stores does not touch: the phase, what SETTLE still waits for, and its count of clipped slots. -/
def Loom.settling (m : Loom) : LPhase × Bool × Bool × Nat := (m.phase, m.bSettle, m.hookS, m.satNow)

theorem Loom.settling_nstore (m : Loom) (x y : List Nat) (z : Tab Byte) :
    Loom.settling { m with nErr1 := x, nErr2 := y, nstore := z } = m.settling := rfl

theorem Loom.settling_sstore (m : Loom) (x y : List Nat) (z : Tab Byte) :
    Loom.settling { m with sErr1 := x, sErr2 := y, sstore := z } = m.settling := rfl

theorem Loom.settling_storePut (m : Loom) (a : Nat) (d : List Byte) : (storePut m a d).settling = m.settling := by
  unfold storePut nstorePut sstorePut
  dsimp only
  split
  · exact Loom.settling_nstore ..
  · exact Loom.settling_sstore ..

theorem Loom.settling_heldApply (m : Loom) : (heldApply m).settling = m.settling := by
  have h : ∀ ws m, (List.foldl (fun (m : Loom) (w : HeldWrite) => storePut m w.addr w.data) m ws).settling = m.settling := by
    intro ws
    induction ws with
    | nil => exact fun _ => rfl
    | cons w ws ih => exact fun m => (ih _).trans (Loom.settling_storePut ..)
  exact h m.held m

theorem shResume_rests {s : State} {k : Nat} (h : (sh s k).wait = none) : shResume s k = s := by
  unfold shResume
  rw [h]
  split
  · next heq => cases heq
  · rfl

/-- With no shuttle of the row waiting, the held writes of the loom take effect and nothing else does. -/
theorem slotsWritten_eq {l : Nat} {s : State} (h : (sh s (loomShuttle l)).wait = none) (hs : (sh s (sibling (loomShuttle l))).wait = none) :
    slotsWritten s l = modLoom s l heldApply := by
  change shResume (shResume (modLoom s l heldApply) (loomShuttle l)) (sibling (loomShuttle l)) = _
  rw [shResume_rests (s := modLoom s l heldApply) h, shResume_rests (s := modLoom s l heldApply) hs]

/-- The state in which SETTLE asks whether everything has finished. -/
def slotsEnd (s : State) (l : Nat) : State := if (loom s l).slotsDone then s else modLoom s l heldApply

theorem settleStep_settle {l : Nat} {s : State} (hp : (loom s l).phase = .settle)
    (hw : (loom s l).slotsDone = false → (sh s (loomShuttle l)).wait = none ∧ (sh s (sibling (loomShuttle l))).wait = none) :
    settleStep s l = if settleDoneOk (slotsEnd s l) l then beatSettled (loomSettled (slotsEnd s l) l) l else slotsEnd s l := by
  have hs : (if (loom s l).phase = .settle ∧ !(loom s l).slotsDone then slotsWritten s l else s) = slotsEnd s l := by
    unfold slotsEnd
    cases hd : (loom s l).slotsDone with
    | true => exact if_neg (fun h => by cases h.2)
    | false => exact (if_pos ⟨hp, rfl⟩).trans (slotsWritten_eq (hw hd).1 (hw hd).2)
  unfold settleStep
  rw [hs]

theorem settleStep_other {l : Nat} {s : State} (hp : (loom s l).phase ≠ .settle) : settleStep s l = s := by
  have hs : (if (loom s l).phase = .settle ∧ !(loom s l).slotsDone then slotsWritten s l else s) = s := if_neg (fun h => hp h.1)
  have hok : settleDoneOk s l = false := by simp [settleDoneOk, hp]
  unfold settleStep
  rw [hs]
  dsimp only
  rw [hok]
  rfl

theorem settling_slotsEnd (l : Nat) (s : State) : (loom (slotsEnd s l) l).settling = (loom s l).settling := by
  unfold slotsEnd
  split
  · rfl
  · rw [loom_modLoom_self, Loom.settling_heldApply]

theorem slotsDone_slotsEnd (l : Nat) (s : State) : (loom (slotsEnd s l) l).slotsDone = true := by
  unfold slotsEnd
  split
  · assumption
  · rw [loom_modLoom_self]
    rfl

theorem settleDoneOk_slotsEnd (l : Nat) (s : State) : settleDoneOk (slotsEnd s l) l =
    (decide ((loom s l).phase = .settle) && !(loom s l).bSettle && !(loom s l).hookS) := by
  have h := settling_slotsEnd l s
  have hp : (loom (slotsEnd s l) l).phase = (loom s l).phase := congrArg (·.1) h
  have hb : (loom (slotsEnd s l) l).bSettle = (loom s l).bSettle := congrArg (·.2.1) h
  have hk : (loom (slotsEnd s l) l).hookS = (loom s l).hookS := congrArg (·.2.2.1) h
  rw [settleDoneOk, hp, hb, hk, slotsDone_slotsEnd, Bool.and_true]

theorem emitCheck_waits {l : Nat} {s : State} (hon : l ∈ s.beat.on) (he : l ∉ s.beat.emitted) : emitCheck s = s := by
  have hall : s.beat.on.all (fun l => s.beat.settled.contains l && s.beat.emitted.contains l) = false := by
    rw [List.all_eq_false]
    exact ⟨l, hon, by simp [he]⟩
  unfold emitCheck
  dsimp only
  rw [hall, Bool.and_false]
  rfl

/-- A loom that has not emitted reports SETTLE done: the beat engine notes it, and the beat goes on. -/
theorem beatSettled_eq {l : Nat} {s : State} (he : l ∉ s.beat.emitted) :
    beatSettled s l = if !s.beat.isOpen ∨ !s.beat.on.contains l ∨ s.beat.settled.contains l then s
      else setPhase (modBeat s (fun x => { x with settled := x.settled ++ [l] })) 5 := by
  unfold beatSettled
  dsimp only
  split
  · rfl
  · next h =>
    have hon : l ∈ s.beat.on := by
      simp only [not_or] at h
      simpa using h.2.1
    exact emitCheck_waits hon he

/-- Where the report leaves the looms, the registers of this one, and the beat. -/
theorem beatSettled_report {l : Nat} {s : State} (he : l ∉ s.beat.emitted) :
    (beatSettled s l).looms = s.looms ∧ rd (beatSettled s l) (bLoom l) F.LOOM_SATLAST_COUNT = rd s (bLoom l) F.LOOM_SATLAST_COUNT ∧
      (s.beat.isOpen = true → l ∈ s.beat.on → l ∈ (beatSettled s l).beat.settled) := by
  rw [beatSettled_eq he]
  split
  · next h =>
    refine ⟨rfl, rfl, fun ho hon => ?_⟩
    simpa [ho, hon] using h
  · refine ⟨rfl, ?_, fun _ _ => List.mem_append_right _ List.mem_cons_self⟩
    exact rd_wr_block _ 5 (by decide) (by decide) (bBeat_ne_bLoom l).symm

theorem loomSettled_shows (l : Nat) (s : State) :
    (loom (loomSettled s l) l) = { loom s l with phase := .emit } ∧ (loomSettled s l).beat = s.beat ∧
      rd (loomSettled s l) (bLoom l) F.LOOM_SATLAST_COUNT = (loom s l).satNow % 2 ^ 32 := by
  have hs : rd (wr (modLoom s l (fun m => { m with phase := .emit })) (bLoom l) F.LOOM_SATLAST_COUNT (loom s l).satNow) (bLoom l)
      F.LOOM_SATLAST_COUNT = (loom s l).satNow % 2 ^ 32 := rd_wr_self _ _ _ _ (by decide)
  have hn : (loom (modLoom s l (fun m => { m with phase := .emit })) l).satNow = (loom s l).satNow := by rw [loom_modLoom_self]
  have hl : loom (modLoom s l (fun m => { m with phase := .emit })) l = { loom s l with phase := .emit } := loom_modLoom_self ..
  unfold loomSettled progress
  dsimp only
  rw [hn, rd_inc_apart (by decide)]
  generalize hv : wr (modLoom s l (fun m => { m with phase := .emit })) (bLoom l) F.LOOM_SATLAST_COUNT (loom s l).satNow = v at hs
  have hlv : loom v l = { loom s l with phase := .emit } := by rw [← hv]; exact hl
  have hbv : v.beat = s.beat := by rw [← hv]; rfl
  split
  · exact ⟨hlv, hbv, hs⟩
  · exact ⟨hlv, hbv, hs⟩

theorem settleStep_ends {l : Nat} {s : State} (hp : (loom s l).phase = .settle) (hb : (loom s l).bSettle = false)
    (hk : (loom s l).hookS = false) (he : l ∉ s.beat.emitted)
    (hw : (loom s l).slotsDone = false → (sh s (loomShuttle l)).wait = none ∧ (sh s (sibling (loomShuttle l))).wait = none) :
    (loom (settleStep s l) l).phase = .emit ∧ ((loom s l).slotsDone = false → (loom (settleStep s l) l).held = []) ∧
      rd (settleStep s l) (bLoom l) F.LOOM_SATLAST_COUNT = (loom s l).satNow % 2 ^ 32 ∧
      (s.beat.isOpen = true → l ∈ s.beat.on → l ∈ (settleStep s l).beat.settled) := by
  have hok : settleDoneOk (slotsEnd s l) l = true := by rw [settleDoneOk_slotsEnd, hp, hb, hk]; rfl
  have hbeat : (slotsEnd s l).beat = s.beat := by
    unfold slotsEnd
    split <;> rfl
  have hsat : (loom (slotsEnd s l) l).satNow = (loom s l).satNow := congrArg (·.2.2.2) (settling_slotsEnd l s)
  obtain ⟨hl, hlb, hr⟩ := loomSettled_shows l (slotsEnd s l)
  have he' : l ∉ (loomSettled (slotsEnd s l) l).beat.emitted := by rwa [hlb, hbeat]
  obtain ⟨hlooms, hreg, hset⟩ := beatSettled_report he'
  rw [settleStep_settle hp hw, if_pos hok, loom_congr hlooms, hl, hreg, hr, hsat]
  rw [hlb, hbeat] at hset
  refine ⟨rfl, fun hd => ?_, rfl, hset⟩
  change (loom (slotsEnd s l) l).held = []
  rw [slotsEnd, if_neg (by simp [hd]), loom_modLoom_self]
  rfl

theorem settleStep_waits {l : Nat} {s : State} (hp : (loom s l).phase = .settle) (hd : (loom s l).slotsDone = false)
    (hb : (loom s l).bSettle = true ∨ (loom s l).hookS = true)
    (hw : (sh s (loomShuttle l)).wait = none ∧ (sh s (sibling (loomShuttle l))).wait = none) :
    settleStep s l = modLoom s l heldApply := by
  have hok : settleDoneOk (slotsEnd s l) l = false := by rw [settleDoneOk_slotsEnd, hp]; rcases hb with h | h <;> simp [h]
  rw [settleStep_settle hp (fun _ => hw), hok]
  change slotsEnd s l = _
  rw [slotsEnd, hd]
  rfl

theorem settleStep_rests {l : Nat} {s : State}
    (h : (loom s l).phase ≠ .settle ∨ ((loom s l).slotsDone = true ∧ ((loom s l).bSettle = true ∨ (loom s l).hookS = true))) :
    settleStep s l = s := by
  by_cases hp : (loom s l).phase = .settle
  · obtain ⟨hd, hb⟩ := h.resolve_left (not_not_intro hp)
    have hok : settleDoneOk (slotsEnd s l) l = false := by rw [settleDoneOk_slotsEnd, hp]; rcases hb with h | h <;> simp [h]
    rw [settleStep_settle hp (fun h => absurd (h.symm.trans hd) (by decide)), hok, slotsEnd, if_pos hd]
    rfl
  · exact settleStep_other hp


theorem loomOpen_rests {l n : Nat} {s : State} (h : rdB s (bLoom l) F.CONTROL_ENABLE = false ∨ (loom s l).phase ≠ .idle) : loomOpen s l n = s := by
  unfold loomOpen
  dsimp only
  rw [if_pos (by rcases h with h | h <;> simp [h])]

/-- Settles O20: what the engines of a loom leave (`kept`) and where it stands in its beat (`coursed`) carry each step of OPEN, SETTLE and EMIT
to what it sets; the close markers leave since no packet before them changes what theirs depend on. -/
theorem loomBeat : Obligations.LoomBeat := by
  unfold Obligations.LoomBeat
  intro l n s b m noneWaits
  refine ⟨fun he hp => ⟨_, rfl, loomOpen_opens he hp⟩, fun h => ?_, ?_, fun h => ?_, fun hd hb hh => ⟨_, rfl, spillBack_clears hd hb hh⟩,
    fun h => ?_, fun hp hn hb hh hi => ⟨_, rfl, loomSettle_settles hp hn hb hh hi⟩, fun h => ?_, fun hp hn hb => ?_, fun hp hn hb hh => ?_,
    fun hp hb hk he hw => ⟨_, rfl, settleStep_ends hp hb hk he hw⟩, fun hp hd hb hw => ?_, fun h => ?_, fun hp hr hn => ?_, fun h => ?_⟩
  · exact congrArg Host.Outcome.next (loomOpen_rests h)
  · intro hp hd hs hdr hn hopen hph hon hack hother
    refine ⟨_, congrArg Host.Outcome.next (if_pos (openAckOk_true hp hd hs hdr hn)), loomAck_acks hopen hph hon hack hother⟩
  · exact congrArg Host.Outcome.next (if_neg (by rw [openAckOk_false h]; decide))
  · exact congrArg Host.Outcome.next (spillBack_rests h)
  · exact congrArg Host.Outcome.next (loomSettle_other h)
  · obtain ⟨hl, hr, x, hx⟩ := settleStall_counts l s
    exact ⟨_, x, congrArg Host.Outcome.next (loomSettle_stalls hp hn hb), hl, hr, hx⟩
  · exact congrArg Host.Outcome.next (loomSettle_held hp hn hb hh)
  · exact congrArg Host.Outcome.next (settleStep_waits hp hd hb hw)
  · exact congrArg Host.Outcome.next (settleStep_rests h)
  · have hok : emitDoneOk s l = true := by
      rw [emitDoneOk_eq]
      change (decide (m.phase = .emit) && routesReady m && !netifHeld s l) = true
      rw [hp, hr, hn]
      rfl
    refine ⟨_, congrArg Host.Outcome.next (if_pos hok), loomEmitted_idle l s, List.mem_append_right (loomEmitted s l).out List.mem_cons_self, ?_⟩
    intro hi ep he g hg r hr hd
    exact List.mem_append_left _ (loomEmitted_sends (injectAll_closes hi he hg hr hd))
  · refine congrArg Host.Outcome.next (if_neg ?_)
    rw [emitDoneOk_eq]
    rcases h with h | h | h <;> simp [h, m]

end Sys2Proof.Machine
end

section
/-!
PROOFS. Registers of a loom that control it (chapters 03, 06 and 08): threshold words, a start of the batten, and RUN and RESTART of the sequencer,
with what its queues leave (`unqueued`).
-/

namespace Sys2Proof.Machine

/-! ## Threshold words (R85) -/

/-- The offset of a threshold word. -/
def thOff (word : Fin 4) : Nat := F.LOOM_THDATA0_THETA.off + 4 * word.val

theorem thOff_bounds (word : Fin 4) : 100 ≤ thOff word ∧ thOff word ≤ 112 := by
  revert word
  decide

theorem thOff_masks : ∀ word, unguarded .loom (thOff word) = true ∧ codeMask .loom (thOff word) .rws ≠ 0 ∧
    codeMask .loom (thOff word) .rw = 0 ∧ codeMask .loom (thOff word) .w1c = 0 ∧ codeMask .loom (thOff word) .w1s = 0 := by decide +kernel

theorem thOff_ne_control : ∀ word, thOff word ≠ F.CONTROL_EXPERT.off := by decide

theorem thOff_ne_resetReq : ∀ word, thOff word ≠ F.CONTROL_RESETREQ.off := by decide

theorem ownApply_same (s : State) (l : Nat) (w : Word) (f : Nat → Bool) (g : Nat → List Nat) : ownApply s l w w f g = s := by
  simp [ownApply]

/-- A word of a loom below the row cache's registers does nothing but stand in its register. -/
theorem applyWords_below {off i : Nat} (ho : off < F.LOOM_RCBASE_BASE.off) (hi : i < 65536) (s : State) (l : LoomId) (m v : Word) :
    applyWords s (bLoom l) [⟨stKey off i, m, v⟩] false =
      regSet s (bLoom l) off i (mergeBits m (regGet s (bLoom l) off i) v) := by
  replace ho : off < 156 := ho
  have hset : setWords s (bLoom l) [⟨stKey off i, m, v⟩] = regSet s (bLoom l) off i (mergeBits m (regGet s (bLoom l) off i) v) := by
    unfold setWords forEach
    simp only [List.foldl_cons, List.foldl_nil, stKey_div hi]
  have hreg : ∀ f : Fld, 156 ≤ f.off → f.off < 4096 → ∀ w,
      regGet (regSet s (bLoom l) off i w) (bLoom l) f.off 0 = regGet s (bLoom l) f.off 0 := fun f h1 h2 w =>
    regGet_regSet_ne _ _ _ _ _ (regKey_ne h2 (by omega) (by decide) hi (Or.inr (Or.inl (by omega))))
  have hrd : ∀ f : Fld, 156 ≤ f.off → f.off < 4096 → ∀ w, rd (regSet s (bLoom l) off i w) (bLoom l) f = rd s (bLoom l) f :=
    fun f h1 h2 w => by rw [rd, rdI, hreg f h1 h2, rd, rdI]
  have hidx : idxIn [⟨stKey off i, m, v⟩] F.LOOM_CHDATA0_CHAN.off F.LOOM_CHDATA7_HOPS5.off = [] := by
    have hlo : ¬ F.LOOM_CHDATA0_CHAN.off ≤ off := by
      show ¬ 676 ≤ off
      omega
    simp [idxIn, stKey_div hi, hlo]
  unfold applyWords applied
  rw [kindOf_bLoom]
  dsimp only
  rw [if_neg (by simp), hset, bLoom_site]
  unfold loomApplied
  dsimp only
  rw [hidx, if_neg (by rw [hrd F.LOOM_RCBASE_BASE (by decide) (by decide), hrd F.LOOM_RCSIZE_SIZE (by decide) (by decide)]; simp),
    hreg F.LOOM_BANKOWN_OWNER0 (by decide) (by decide), ownApply_same]
  rfl

theorem reservedAt_bLoom (l : LoomId) (off : Nat) : reservedAt (bLoom l) off = false := by
  have : ¬ bLoom l ≤ bGlimmer 7 := by
    simp only [bLoom, bGlimmer]
    omega
  simp [reservedAt, this]

/-- No RW bit is written. -/
theorem rwWrite_none (s : State) (r : Requester) (b off i : Nat) (v : Word) : rwWrite s r b off i 0 v = s := if_pos rfl

theorem selIndex_thOff (s : State) (r : Requester) (l : LoomId) (word : Fin 4) : selIndex s r (bLoom l) (thOff word) < 65536 := by
  have h : selFld .loom (thOff word) = some F.LOOM_THSEL_INDEX := by
    revert word
    decide
  unfold selIndex
  rw [kindOf_bLoom]
  simp only [h]
  exact (fldGet_lt _ _).trans (by decide)

/-- What a threshold word may be: no 0 in THETA or GMAX. -/
theorem mayBe_thOff (s : State) (l : LoomId) (word : Fin 4) (i : Nat) (x : Word) : mayBe s (bLoom l) (thOff word) i x =
    (decide (word ≠ 0) || fldGet F.LOOM_THDATA0_THETA x != 0 && fldGet F.LOOM_THDATA0_GMAX x != 0) := by
  unfold mayBe
  rw [kindOf_bLoom]
  dsimp only
  obtain rfl | h := eq_or_ne word 0
  · simp [loomMayBe, thOff]
  · have : ∀ word : Fin 4, word ≠ 0 → ∀ c ∈ [F.LOOM_THDATA0_THETA.off, F.LOOM_DQBASE_BASE.off, F.LOOM_DQSIZE_SIZE.off, F.LOOM_AFFCFG_AFFBITS.off,
        F.LOOM_RCSIZE_SIZE.off, F.LOOM_BANKOWN_OWNER0.off, F.LOOM_BTESTINT_CYCLES.off, F.LOOM_NITHROT_THRON.off], thOff word ≠ c := by
      decide
    have hb := thOff_bounds word
    have hc : ¬ F.LOOM_CHDATA0_CHAN.off ≤ thOff word := by
      show ¬ 676 ≤ thOff word
      omega
    obtain ⟨h0, h1, h2, h3, h4, h5, h6, h7⟩ := List.forall_mem_cons.1 (this word h) |>.imp id fun k => by
      simpa only [List.forall_mem_cons, List.not_mem_nil, false_imp_iff, implies_true, and_true] using k
    simp only [loomMayBe, h0, h1, h2, h3, h4, h5, h6, h7, hc, false_or, false_and, if_false, ne_eq, h, not_false_eq_true, decide_true, Bool.true_or]

theorem writeDo_thOff (s : State) (r : Requester) (l : LoomId) (word : Fin 4) (v : Nat) : writeDo s r (bLoom l) (thOff word) v = s := by
  have : ∀ word : Fin 4, ∀ c ∈ [F.TXN_OP.off, F.LOOM_RCINV_INV.off, F.LOOM_BRUN_INDEX.off, F.LOOM_SEQCTL_RESTART.off, F.LOOM_BREMAP_BANK.off,
      F.LOOM_CHCTL_CLOSE.off], thOff word ≠ c := by decide
  have h := this word
  simp only [List.forall_mem_cons] at h
  obtain ⟨h0, h1, h2, h3, h4, h5, -⟩ := h
  unfold writeDo
  rw [if_neg h0, kindOf_bLoom]
  unfold loomDo
  dsimp only
  rw [if_neg h1, if_neg h2, if_neg h3, if_neg h4, if_neg h5]

theorem regGet_ungrouped (s : State) (l : LoomId) {off i : Nat} (ho : off < 4096) (hi : i < 65536) :
    regGet (ungrouped s (bLoom l)) (bLoom l) off i = regGet s (bLoom l) off i := by
  have hw : ∀ (t : State) {f : Fld} (v : Nat), f.off < 4096 → regGet (wr t bBeat f v) (bLoom l) off i = regGet t (bLoom l) off i :=
    fun t f v hf => regGet_regSet_ne _ _ _ _ _ (regKey_ne ho hf hi (by decide) (Or.inl (bBeat_ne_bLoom l).symm))
  unfold ungrouped
  rw [kindOf_bLoom]
  unfold detSet
  dsimp only
  split
  · rw [hw _ _ (by decide)]
    split
    · unfold wrPair
      rw [hw _ _ (by decide), hw _ _ (by decide)]
    · rfl
  · rfl

theorem ungrouped_looms (s : State) (l : LoomId) : (ungrouped s (bLoom l)).looms = s.looms := by
  unfold ungrouped
  rw [kindOf_bLoom]
  unfold detSet
  dsimp only
  split
  · split <;> rfl
  · rfl

/-- A direct write of a threshold word outside a transaction. -/
theorem rwsWrite_thOff {s : State} {l : LoomId} (hi : rd s (bLoom l) F.TXN_TSTATE = tsIdle) (r : Requester) (word : Fin 4) {i : Nat}
    (h : i < 65536) (v : Word) :
    rwsWrite s r (bLoom l) (thOff word) i (codeMask .loom (thOff word) .rws) v =
      if mayBe s (bLoom l) (thOff word) i (mergeBits (codeMask .loom (thOff word) .rws) (regGet s (bLoom l) (thOff word) i) v) then
        regSet (ungrouped s (bLoom l)) (bLoom l) (thOff word) i
          (mergeBits (codeMask .loom (thOff word) .rws) (regGet s (bLoom l) (thOff word) i) v)
      else txnRefuse s (bLoom l) := by
  have hb := thOff_bounds word
  have hs := (thOff_masks word).2.1
  have hm : modeBits (thOff word) = 0 := if_neg (thOff_ne_control word)
  generalize codeMask .loom (thOff word) .rws = m at hs ⊢
  unfold rwsWrite
  dsimp only
  rw [if_neg hs, if_pos hi, hm, word_and_not_zero, show m &&& 0 = 0 from BitVec.and_zero, if_pos rfl,
    if_neg hs, applyWords_below (by show thOff word < 156; omega) h, regGet_ungrouped s l (by omega) h]
  cases mayBe s (bLoom l) (thOff word) i (mergeBits m (regGet s (bLoom l) (thOff word) i) v) <;> simp

theorem putMain_thOff {s : State} {l : LoomId} (hi : rd s (bLoom l) F.TXN_TSTATE = tsIdle) (r : Requester) (word : Fin 4) (v : Word) :
    let i := selIndex s r (bLoom l) (thOff word)
    let x := mergeBits (rwsMask s .loom r (bLoom l) (thOff word)) (regGet s (bLoom l) (thOff word) i) v
    ∃ o, putMain s r (bLoom l) (thOff word) v = { (if mayBe s (bLoom l) (thOff word) i x then
      regSet (ungrouped s (bLoom l)) (bLoom l) (thOff word) i x else txnRefuse s (bLoom l)) with out := o } := by
  obtain ⟨ho, -, hw, hc, h1⟩ := thOff_masks word
  intro i x
  have hx : mergeBits (codeMask .loom (thOff word) .rws) (regGet s (bLoom l) (thOff word) i) v = x := by
    simp only [x, rwsMask, accMask_unguarded ho]
  obtain ⟨o, e⟩ := lineFollow_frame s (rwsWrite s r (bLoom l) (thOff word) i (codeMask .loom (thOff word) .rws) v) (bLoom l)
  refine ⟨o, ?_⟩
  rw [putMain_unguarded (k := .loom) (kindOf_bLoom l) ho (reservedAt_bLoom l _) (thOff_ne_resetReq word)]
  dsimp only
  rw [hw, hc, h1, rwWrite_none, w1cWrite_zero, w1sWrite_zero, writeDo_thOff, e, rwsWrite_thOff hi r word (selIndex_thOff s r l word), hx]

theorem exec_thdataWrite {s : State} {r : Requester} {l : LoomId} {word : Fin 4} {v : Word}
    (h : performed s r (bLoom l) (thOff word) true v = true) (hi : rd s (bLoom l) F.TXN_TSTATE = tsIdle) :
    let i := selIndex s r (bLoom l) (thOff word)
    let x := mergeBits (rwsMask s .loom r (bLoom l) (thOff word)) (regGet s (bLoom l) (thOff word) i) v
    ∃ t, exec (.thdataWrite r l word v) s = .next t ∧ okResp r 0 ∈ t.out ∧
      (mayBe (windowClose s) (bLoom l) (thOff word) i x = true →
        t.regs = (regSet (ungrouped (windowClose s) (bLoom l)) (bLoom l) (thOff word) i x).regs ∧ t.looms = s.looms) ∧
      (mayBe (windowClose s) (bLoom l) (thOff word) i x = false → t.regs = (txnRefuse (windowClose s) (bLoom l)).regs) := by
  obtain ⟨o, e⟩ := putMain_thOff (s := windowClose s) (l := l) (by rw [rd_windowClose, hi]) r word v
  rw [selIndex_windowClose, rwsMask_windowClose, regGet_windowClose] at e
  intro i x
  refine ⟨_, congrArg Host.Outcome.next (busWrite_performed .main h), okResp_mem_send _ _ _, fun hm => ?_, fun hm => ?_⟩
  · rw [send_regs, send_looms]
    show (putMain (windowClose s) r (bLoom l) (thOff word) v).regs = _ ∧ (putMain (windowClose s) r (bLoom l) (thOff word) v).looms = _
    rw [e, if_pos hm]
    exact ⟨rfl, (ungrouped_looms _ l).trans (windowClose_looms s)⟩
  · rw [send_regs]
    show (putMain (windowClose s) r (bLoom l) (thOff word) v).regs = _
    rw [e, if_neg (by rw [hm]; decide)]

theorem thdata_taken {s : State} {r : Requester} {l : LoomId} {word : Fin 4} {v : Word}
    (h : performed s r (bLoom l) (thOff word) true v = true) (hi : rd s (bLoom l) F.TXN_TSTATE = tsIdle) :
    let i := selIndex s r (bLoom l) (thOff word)
    let x := mergeBits (rwsMask s .loom r (bLoom l) (thOff word)) (regGet s (bLoom l) (thOff word) i) v
    (word = 0 → fldGet F.LOOM_THDATA0_THETA x ≠ 0 ∧ fldGet F.LOOM_THDATA0_GMAX x ≠ 0) →
      ∃ t, exec (.thdataWrite r l word v) s = .next t ∧ okResp r 0 ∈ t.out ∧ regGet t (bLoom l) (thOff word) i = x ∧ t.looms = s.looms ∧
        ∀ o j, o < 4096 → j < 65536 → (o ≠ thOff word ∨ j ≠ i) → regGet t (bLoom l) o j = regGet s (bLoom l) o j := by
  intro i x hx
  obtain ⟨t, ht, hok, htaken, -⟩ := exec_thdataWrite h hi
  obtain ⟨hr, hl⟩ := htaken (by
    rw [mayBe_thOff]
    obtain rfl | hw := eq_or_ne word 0
    · simpa using hx rfl
    · simp [hw])
  have hb := thOff_bounds word
  refine ⟨t, ht, hok, (regGet_congr hr _ _ _).trans (regGet_regSet_self ..), hl, fun o j ho hj hne => ?_⟩
  rw [regGet_congr hr, regGet_regSet_ne _ _ _ _ _ (regKey_ne ho (by omega) hj (selIndex_thOff s r l word) (Or.inr hne)),
    regGet_ungrouped _ l ho hj, regGet_windowClose]

theorem thdata_refused {s : State} {r : Requester} {l : LoomId} {word : Fin 4} {v : Word}
    (h : performed s r (bLoom l) (thOff word) true v = true) (hi : rd s (bLoom l) F.TXN_TSTATE = tsIdle) (hw : word = 0) :
    let i := selIndex s r (bLoom l) (thOff word)
    let x := mergeBits (rwsMask s .loom r (bLoom l) (thOff word)) (regGet s (bLoom l) (thOff word) i) v
    fldGet F.LOOM_THDATA0_THETA x = 0 ∨ fldGet F.LOOM_THDATA0_GMAX x = 0 →
      ∃ t, exec (.thdataWrite r l word v) s = .next t ∧
        rd t (bLoom l) F.TXNREFUSE_COUNT = (rd s (bLoom l) F.TXNREFUSE_COUNT + 1) % 2 ^ 32 ∧
        regsBut s t (bLoom l) [F.TXNREFUSE_COUNT.off] := by
  intro i x hx
  obtain ⟨t, ht, -, -, hrefused⟩ := exec_thdataWrite h hi
  have hr := hrefused (by
    rw [mayBe_thOff]
    show (decide (word ≠ 0) || fldGet F.LOOM_THDATA0_THETA x != 0 && fldGet F.LOOM_THDATA0_GMAX x != 0) = false
    obtain h0 | h0 := hx <;> simp [hw, h0])
  refine ⟨t, ht, ?_, regsBut_windowClose (regsBut_trans (regsBut_inc _ _ F.TXNREFUSE_COUNT (by decide)) (regsBut_of_regs _ _ hr))⟩
  rw [rd_congr hr, txnRefuse, rd_inc_self _ _ _ (by decide), rd_windowClose]
  rfl

/-! ## A start of the batten by register (R224) -/

/-- A field of one bit is that bit. -/
theorem bit_lo {f : Fld} (hf : f.hi = f.lo) (w : Word) : bit w.toNat f.lo = (fldGet f w == 1) := by
  have hw : fldWidth f = 1 := by simp [fldWidth, hf]
  rw [fldGet, hw, bit, pow_one]

/-- A performed write that leaves `u` but for its messages is answered with success. -/
theorem busWrite_answered {s u : State} {r : Requester} {b off : Nat} {v : Word} (h : performed s r b off true v = true)
    (hp : ∃ o, putMain (windowClose s) r b off v = { u with out := o }) : answered r u (busWrite s r .main b off v) := by
  obtain ⟨o, ho⟩ := hp
  rw [busWrite_performed .main h]
  refine ⟨⟨u.free, (send { u with out := o } .resp (tagOf r) [1, 0]).out, ?_⟩, okResp_mem_send _ _ _⟩
  show send (putMain (windowClose s) r b off v) _ _ _ = _
  rw [ho]
  rfl

theorem brun_masks : unguarded .loom F.LOOM_BRUN_GO.off = true ∧ codeMask .loom F.LOOM_BRUN_GO.off .rws = 0 ∧
    codeMask .loom F.LOOM_BRUN_GO.off .rw = 0 ∧ codeMask .loom F.LOOM_BRUN_GO.off .w1c = 0 ∧ codeMask .loom F.LOOM_BRUN_GO.off .w1s = 0 := by
  decide +kernel

/-- What a write of LOOM_BRUN with GO leaves. -/
def brunned (s : State) (l i : Nat) : State :=
  if (brunStart s l i).1 then (brunStart s l i).2 else wr (brunStart s l i).2 (bLoom l) F.LOOM_BSTAT_REFUSED 1

theorem writeDo_brun (s : State) (r : Requester) (l : LoomId) (v : Word) :
    writeDo s r (bLoom l) F.LOOM_BRUN_GO.off (fldSet F.LOOM_BRUN_GO v 1).toNat = brunned s l (fldGet F.LOOM_BRUN_INDEX v) := by
  have hgo : bit (fldSet F.LOOM_BRUN_GO v 1).toNat 31 = true :=
    (bit_lo (f := F.LOOM_BRUN_GO) rfl _).trans (by rw [fldGet_fldSet_self _ _ _ (by decide)]; rfl)
  have hi : (fldSet F.LOOM_BRUN_GO v 1).toNat % 32 = fldGet F.LOOM_BRUN_INDEX v := by
    rw [← fldGet_fldSet_disjoint F.LOOM_BRUN_GO F.LOOM_BRUN_INDEX v 1 (by decide) (by decide)]
    simp [fldGet, fldWidth]
  unfold writeDo
  rw [if_neg (by decide), kindOf_bLoom]
  unfold loomDo
  dsimp only
  rw [if_neg (by decide), if_pos rfl, if_pos hgo, hi, bLoom_site]
  rfl

theorem brun_answered {s : State} {r : Requester} {l : LoomId} {v : Word}
    (h : performed s r (bLoom l) F.LOOM_BRUN_GO.off true (fldSet F.LOOM_BRUN_GO v 1) = true) :
    ∃ t, exec (.loomBrun r l v) s = .next t ∧ answered r (brunned (windowClose s) l (fldGet F.LOOM_BRUN_INDEX v)) t := by
  obtain ⟨hg, hs, hw, hc, h1⟩ := brun_masks
  have hp : putMain (windowClose s) r (bLoom l) F.LOOM_BRUN_GO.off (fldSet F.LOOM_BRUN_GO v 1) =
      lineFollow (windowClose s) (brunned (windowClose s) l (fldGet F.LOOM_BRUN_INDEX v)) (bLoom l) := by
    rw [putMain_unguarded (k := .loom) (kindOf_bLoom l) hg (reservedAt_bLoom l _) (by decide), hs, hw, hc, h1]
    dsimp only
    rw [rwsWrite_zero, rwWrite_none, w1cWrite_zero, w1sWrite_zero, writeDo_brun]
  exact ⟨_, rfl, busWrite_answered h (hp ▸ lineFollow_frame _ _ _)⟩

/-! ## What a sequencer's queues leave (R277, R385) -/

/-- The sequencer of loom `l` but for its queued activations, and the registers: what offering messages leaves. -/
def unqueued (l : Nat) (s : State) : Seq × Tab Word := ({ seqOf s l with queue := [] }, s.regs)

section

variable {l : Nat} {s t : State} (h : unqueued l t = unqueued l s)
include h

theorem regs_of_unqueued : t.regs = s.regs := congrArg Prod.snd h
theorem running_of_unqueued : (seqOf t l).running = (seqOf s l).running := congrArg (·.1.running) h
theorem main_of_unqueued : (seqOf t l).main = (seqOf s l).main := congrArg (·.1.main) h
theorem halted_of_unqueued : (seqOf t l).halted = (seqOf s l).halted := congrArg (·.1.halted) h
theorem act_of_unqueued : (seqOf t l).act = (seqOf s l).act := congrArg (·.1.act) h
theorem trap_of_unqueued : (seqOf t l).trap = (seqOf s l).trap := congrArg (·.1.trap) h
theorem mpc_of_unqueued : (seqOf t l).mpc = (seqOf s l).mpc := congrArg (·.1.mpc) h
theorem mfile_of_unqueued : (seqOf t l).mfile = (seqOf s l).mfile := congrArg (·.1.mfile) h

end

theorem unqueued_modLoom (l : Nat) (s : State) {f : Loom → Loom}
    (h : ({ (f (loom s l)).seq with queue := [] } : Seq) = { (loom s l).seq with queue := [] }) : unqueued l (modLoom s l f) = unqueued l s := by
  simp only [unqueued, seqOf, loom_modLoom_self, modLoom_regs, h]

theorem unqueued_setCh (l : Nat) (s : State) (i : Nat) (e : ChEnd) : unqueued l (setCh s l i e) = unqueued l s := unqueued_modLoom l s rfl

theorem unqueued_actQueue (l : Nat) (s : State) (a : Act) : unqueued l (actQueue s l a) = unqueued l s := by
  unfold actQueue chQueued
  dsimp only
  split
  · split
    · exact unqueued_modLoom l s rfl
    · exact (unqueued_setCh ..).trans (unqueued_modLoom l s rfl)
  · exact unqueued_modLoom l s rfl

theorem unqueued_chOffer (l i : Nat) (s : State) : unqueued l (chOffer l i s) = unqueued l s := by
  unfold chOffer
  dsimp only
  split
  · rfl
  · split
    · rfl
    · exact (unqueued_actQueue ..).trans (unqueued_setCh ..)

theorem unqueued_chOfferAll (l : Nat) (s : State) : unqueued l (chOfferAll s l) = unqueued l s := by
  unfold chOfferAll
  exact forEach_keeps (unqueued l) (fun (x : Nat × Nat) t => unqueued_chOffer l x.1 t) _ s

theorem unqueued_chRenumber (l i n : Nat) (s : State) : unqueued l (chRenumber s l i n) = unqueued l s := by
  unfold chRenumber
  dsimp only
  split
  · rfl
  · exact unqueued_setCh ..

theorem unqueued_send (l : Nat) (s : State) (k : MsgKind) (b : Nat) (a : List Nat) : unqueued l (send s k b a) = unqueued l s := rfl

theorem unqueued_tryTally (l : Nat) (s : State) : unqueued l (tryTally s l) = unqueued l s := by
  obtain h | ⟨a, h⟩ := tryTally_eq s l
  · rw [h]
  · rw [h, unqueued_send]
    exact unqueued_modLoom (f := fun m => { m with tallySent := true, phase := .close }) l s rfl

theorem unqueued_hookYielded (l c : Nat) (s : State) : unqueued l (hookYielded s l c) = unqueued l s := by
  unfold hookYielded
  split
  · exact (unqueued_tryTally ..).trans (unqueued_modLoom l s rfl)
  · split
    · exact unqueued_modLoom l s rfl
    · rfl

/-! ## The end of an activation, and a start of the main program -/

theorem waitCancel_regs (s : State) (l : Nat) : (waitCancel s l).regs = s.regs := by
  unfold waitCancel
  dsimp only
  split <;> rfl

theorem seqOf_waitCancel (s : State) (l : Nat) : seqOf (waitCancel s l) l = { seqOf s l with wait := none } := by
  unfold waitCancel sendUnblock
  dsimp only
  rw [seqOf_modSeq]
  split
  · rw [seqOf, loom_modLoom_self]
    rfl
  · rw [seqOf, loom_modLoom_self]
    rfl

/-- An activation that is dropped is over, and so is its trap. -/
theorem actDrop_ended (s : State) (l : Nat) :
    (seqOf (actDrop s l) l).act = none ∧ (seqOf (actDrop s l) l).trap = none ∧ (actDrop s l).regs = s.regs := by
  unfold actDrop
  split
  · rename_i ha
    refine ⟨?_, by rw [seqOf_modSeq], waitCancel_regs s l⟩
    rw [seqOf_modSeq, seqOf_waitCancel]
    exact ha
  · rename_i a ha
    have hc : (seqOf (actClear s l) l).act = none ∧ (seqOf (actClear s l) l).trap = none ∧ (actClear s l).regs = s.regs := by
      unfold actClear
      rw [seqOf_modSeq]
      exact ⟨rfl, rfl, waitCancel_regs s l⟩
    generalize actClear s l = u at hc
    suffices h : ∀ t, unqueued l t = unqueued l u → (seqOf t l).act = none ∧ (seqOf t l).trap = none ∧ t.regs = s.regs by
      apply h
      dsimp only
      split
      · split
        · exact (unqueued_actQueue ..).trans ((unqueued_chRenumber ..).trans (unqueued_modLoom l _ rfl))
        · rfl
      · exact unqueued_hookYielded ..
    intro t ht
    exact ⟨(act_of_unqueued ht).trans hc.1, (trap_of_unqueued ht).trans hc.2.1, (regs_of_unqueued ht).trans hc.2.2⟩

/-- The main program stands at its entry with its registers cleared. -/
structure MainStarted (s t : State) (l : Nat) : Prop where
  running : (seqOf t l).running = true
  main : (seqOf t l).main = true
  halted : (seqOf t l).halted = false
  act : (seqOf t l).act = none
  pc : pcOf t l = rd s (bLoom l) F.LOOM_SEQENTRY_ADDR * 4
  cleared : ∀ k, g t l k = 0
  regs : t.regs = s.regs

theorem mainStarted {s : State} {l : Nat} (ha : (seqOf s l).act = none) : MainStarted s (chOfferAll (mainStart s l) l) l := by
  have hu := unqueued_chOfferAll l (mainStart s l)
  have hq : seqOf (mainStart s l) l = { seqOf s l with
      running := true, main := true, halted := false, mfile := [], efile := [],
      mpc := rd s (bLoom l) F.LOOM_SEQENTRY_ADDR * 4, trap := none, wait := none, mwait := none, freerun := false, restart := false } := by
    rw [mainStart, seqOf_modSeq, seqOf_waitCancel]
  have hact : (seqOf (chOfferAll (mainStart s l) l) l).act = none := by rw [act_of_unqueued hu, hq, ha]
  have htrap : (seqOf (chOfferAll (mainStart s l) l) l).trap = none := by rw [trap_of_unqueued hu, hq]
  refine ⟨by rw [running_of_unqueued hu, hq], by rw [main_of_unqueued hu, hq], by rw [halted_of_unqueued hu, hq], hact, ?_, fun k => ?_,
    (regs_of_unqueued hu).trans (waitCancel_regs s l)⟩
  · simp only [pcOf, seqPc, htrap, hact, Option.isSome_none, Bool.false_eq_true, if_false]
    rw [mpc_of_unqueued hu, hq]
  · have hmain : usesMain (seqOf (chOfferAll (mainStart s l) l) l) = true := by simp [usesMain, seqAct, htrap, hact]
    rw [g, gRead, hmain, if_pos rfl, mfile_of_unqueued hu, hq]
    split <;> rfl

/-! ## RUN and RESTART (R279, R302) -/

theorem seqctl_masks : unguarded .loom F.LOOM_SEQCTL_RUN.off = true ∧ codeMask .loom F.LOOM_SEQCTL_RUN.off .rws = 0 ∧
    codeMask .loom F.LOOM_SEQCTL_RUN.off .rw = fldMask F.LOOM_SEQCTL_RUN ∧ codeMask .loom F.LOOM_SEQCTL_RUN.off .w1c = 0 ∧
    codeMask .loom F.LOOM_SEQCTL_RUN.off .w1s = 0 := by
  decide +kernel

theorem rwWrite_seqctl (s : State) (r : Requester) (l : LoomId) (i : Nat) (w : Word) :
    rwWrite s r (bLoom l) F.LOOM_SEQCTL_RUN.off i (fldMask F.LOOM_SEQCTL_RUN) w = seqRunWrite s l (fldGet F.LOOM_SEQCTL_RUN w = 1) := by
  unfold rwWrite
  rw [if_neg (by decide), kindOf_bLoom]
  dsimp only
  rw [if_pos rfl]
  dsimp only
  rw [fldGet_mergeBits (by decide), bLoom_site]

theorem writeDo_seqctl (s : State) (r : Requester) (l : LoomId) (w : Word) :
    writeDo s r (bLoom l) F.LOOM_SEQCTL_RUN.off w.toNat = if fldGet F.LOOM_SEQCTL_RESTART w = 1 then seqRestart s l else s := by
  have hb : bit w.toNat 1 = (fldGet F.LOOM_SEQCTL_RESTART w == 1) := bit_lo (f := F.LOOM_SEQCTL_RESTART) rfl w
  unfold writeDo
  rw [if_neg (by decide), kindOf_bLoom]
  unfold loomDo
  dsimp only
  rw [if_neg (by decide), if_neg (by decide), if_pos rfl, hb, bLoom_site]
  simp only [beq_iff_eq]

/-- A performed write of LOOM_SEQCTL: RUN takes its value, then RESTART. -/
theorem seqctl_answered {s : State} {r : Requester} {l : LoomId} {w : Word} (h : performed s r (bLoom l) F.LOOM_SEQCTL_RUN.off true w = true) :
    let x := seqRunWrite (windowClose s) l (fldGet F.LOOM_SEQCTL_RUN w = 1)
    answered r (if fldGet F.LOOM_SEQCTL_RESTART w = 1 then seqRestart x l else x) (busWrite s r .main (bLoom l) F.LOOM_SEQCTL_RUN.off w) := by
  obtain ⟨hg, hs, hw, hc, h1⟩ := seqctl_masks
  intro x
  refine busWrite_answered h ?_
  have hp : putMain (windowClose s) r (bLoom l) F.LOOM_SEQCTL_RUN.off w =
      lineFollow (windowClose s) (if fldGet F.LOOM_SEQCTL_RESTART w = 1 then seqRestart x l else x) (bLoom l) := by
    rw [putMain_unguarded (k := .loom) (kindOf_bLoom l) hg (reservedAt_bLoom l _) (by decide), hs, hw, hc, h1]
    dsimp only
    rw [rwsWrite_zero, rwWrite_seqctl, w1cWrite_zero, w1sWrite_zero, writeDo_seqctl]
  exact hp ▸ lineFollow_frame _ _ _

theorem answered_frame {r : Requester} {u t : State} (h : answered r u t) : t.looms = u.looms ∧ t.regs = u.regs ∧ okResp r 0 ∈ t.out := by
  obtain ⟨⟨n, o, e⟩, hok⟩ := h
  exact ⟨by rw [e], by rw [e], hok⟩

theorem seqOf_congr {s t : State} (h : t.looms = s.looms) (l : Nat) : seqOf t l = seqOf s l := congrArg Loom.seq (loom_congr h l)

theorem MainStarted.congr {s t u : State} {l : Nat} (h : MainStarted s t l) (hl : u.looms = t.looms) (hr : u.regs = t.regs) :
    MainStarted s u l := by
  have hq := seqOf_congr hl l
  exact ⟨by rw [hq, h.running], by rw [hq, h.main], by rw [hq, h.halted], by rw [hq, h.act], by rw [pcOf, hq]; exact h.pc,
    fun k => by rw [g, hq]; exact h.cleared k, hr.trans h.regs⟩

/-- RUN = 1 at a stopped sequencer whose entry and table are in its banks. -/
theorem seqRunWrite_start {s : State} {l : Nat} (hr : (seqOf s l).running = false)
    (he : ownedBy s l ownSeq (rd s (bLoom l) F.LOOM_SEQENTRY_ADDR * 4) 4 = true)
    (ht : ownedBy s l ownSeq (rd s (bLoom l) F.LOOM_SEQHTBASE_BASE * 1024) 1024 = true) :
    seqRunWrite s l true = chOfferAll (mainStart (wr s (bLoom l) F.LOOM_SEQCTL_RUN 1) l) l := by
  unfold seqRunWrite
  dsimp only
  rw [if_pos rfl, hr, he, ht]
  rfl

theorem seqRunWrite_running {s : State} {l : Nat} (hr : (seqOf s l).running = true) : seqRunWrite s l true = s := by
  unfold seqRunWrite
  dsimp only
  rw [if_pos rfl, hr, if_pos rfl]

/-- RUN = 0 at a sequencer that runs. -/
theorem seqRunWrite_stop {s : State} {l : Nat} (hr : (seqOf s l).running = true) :
    let t := seqRunWrite s l false
    (seqOf t l).running = false ∧ (seqOf t l).act = none ∧ (seqOf t l).trap = none ∧ t.regs = (wr s (bLoom l) F.LOOM_SEQCTL_RUN 0).regs := by
  obtain ⟨ha, -, hregs⟩ := actDrop_ended (wr s (bLoom l) F.LOOM_SEQCTL_RUN 0) l
  unfold seqRunWrite
  dsimp only
  rw [if_neg (by decide), hr, if_neg (by decide)]
  generalize (seqOf s l).queue.filter (fun a => a.ctx != 4) = hooks
  generalize actDrop (wr s (bLoom l) F.LOOM_SEQCTL_RUN 0) l = u at ha hregs
  have hu := forEach_keeps (unqueued l) (fun (a : Act) t => unqueued_hookYielded l a.ctx t) hooks (modSeq u l (fun q => { q with
    running := false, main := false, halted := false, trap := none, wait := none, freerun := false, restart := false
    queue := q.queue.filter (fun a => a.ctx = 4) }))
  refine ⟨(running_of_unqueued hu).trans ?_, (act_of_unqueued hu).trans ?_, (trap_of_unqueued hu).trans ?_, (regs_of_unqueued hu).trans hregs⟩
  · rw [seqOf_modSeq]
  · rw [seqOf_modSeq]
    exact ha
  · rw [seqOf_modSeq]

/-- RESTART in a run waits for the OPEN acknowledgement. -/
theorem seqRestart_inRun {s : State} {l : Nat} (hr : (seqOf s l).running = true) (hi : inRun s = true) :
    seqRestart s l = modSeq s l (fun q => { q with restart := true }) := by
  unfold seqRestart
  rw [hr, if_neg (by decide), if_pos (by simpa [inRun, or_assoc] using hi)]

theorem seqRestart_idle {s : State} {l : Nat} (hr : (seqOf s l).running = true) (hi : inRun s = false) :
    seqRestart s l = chOfferAll (restartNow s l) l := by
  unfold seqRestart
  rw [hr, if_neg (by decide), if_neg (by simpa [inRun, and_assoc] using hi)]

theorem restarted (s : State) (l : Nat) : ∃ u, (∀ f, fldsApart F.LOOM_SEQABANDON_COUNT f = true → ∀ b, rd u b f = rd s b f) ∧
    MainStarted u (chOfferAll (restartNow s l) l) l := by
  unfold restartNow
  dsimp only
  split
  · obtain ⟨ha, -, hr⟩ := actDrop_ended s l
    exact ⟨_, fun f hf b => (rd_inc_apart hf _ _ _).trans (rd_congr hr b f), mainStarted ha⟩
  · rename_i ha
    exact ⟨s, fun _ _ _ => rfl, mainStarted (by simpa using ha)⟩

theorem inRun_windowClose (s : State) : inRun (windowClose s) = inRun s := by
  have : beatState (windowClose s) = beatState s := by
    unfold beatState
    rw [rd_windowClose]
  simp only [inRun, this]

theorem ownedBy_windowClose (s : State) (l c a n : Nat) : ownedBy (windowClose s) l c a n = ownedBy s l c a n := by
  have : owner (windowClose s) l = owner s l := by
    funext k
    rw [owner, bankOwn, regGet_windowClose, owner, bankOwn]
  simp only [ownedBy, this]

theorem run_fields (v : Word) : fldGet F.LOOM_SEQCTL_RUN (fldSet F.LOOM_SEQCTL_RESTART v 0) = fldGet F.LOOM_SEQCTL_RUN v ∧
    fldGet F.LOOM_SEQCTL_RESTART (fldSet F.LOOM_SEQCTL_RESTART v 0) = 0 :=
  ⟨fldGet_fldSet_disjoint _ _ _ _ (by decide) (by decide), by rw [fldGet_fldSet_self _ _ _ (by decide)]; rfl⟩

theorem seqctl_run {s : State} {r : Requester} {l : LoomId} {v : Word}
    (h : performed s r (bLoom l) F.LOOM_SEQCTL_RUN.off true (fldSet F.LOOM_SEQCTL_RESTART v 0) = true) :
    ∃ t, exec (.loomSeqctlRun r l v) s = .next t ∧ answered r (seqRunWrite (windowClose s) l (fldGet F.LOOM_SEQCTL_RUN v = 1)) t := by
  obtain ⟨h1, h2⟩ := run_fields v
  have ha := seqctl_answered h
  dsimp only at ha
  rw [h1, h2, if_neg (by decide)] at ha
  exact ⟨_, rfl, ha⟩

theorem seqctl_run_start {s : State} {r : Requester} {l : LoomId} {v : Word}
    (h : performed s r (bLoom l) F.LOOM_SEQCTL_RUN.off true (fldSet F.LOOM_SEQCTL_RESTART v 0) = true)
    (hv : fldGet F.LOOM_SEQCTL_RUN v = 1) (hr : (loom s l).seq.running = false) (ha : (loom s l).seq.act = none)
    (he : ownedBy s l ownSeq (rd s (bLoom l) F.LOOM_SEQENTRY_ADDR * 4) 4 = true)
    (ht : ownedBy s l ownSeq (rd s (bLoom l) F.LOOM_SEQHTBASE_BASE * 1024) 1024 = true) :
    ∃ t, exec (.loomSeqctlRun r l v) s = .next t ∧ okResp r 0 ∈ t.out ∧ (seqOf t l).running = true ∧ (seqOf t l).main = true ∧
      (seqOf t l).halted = false ∧ pcOf t l = rd s (bLoom l) F.LOOM_SEQENTRY_ADDR * 4 ∧ (∀ k, g t l k = 0) ∧
      rd t (bLoom l) F.LOOM_SEQCTL_RUN = 1 := by
  obtain ⟨t, hx, hans⟩ := seqctl_run h
  have hq : seqOf (windowClose s) l = (loom s l).seq := seqOf_congr (windowClose_looms s) l
  obtain ⟨hl, hregs, hok⟩ := answered_frame hans
  rw [decide_eq_true hv, seqRunWrite_start (by rw [hq, hr]) (by rw [ownedBy_windowClose, rd_windowClose, he])
    (by rw [ownedBy_windowClose, rd_windowClose, ht])] at hl hregs
  have hm := (mainStarted (s := wr (windowClose s) (bLoom l) F.LOOM_SEQCTL_RUN 1) (l := l)
    ((congrArg Seq.act hq).trans ha)).congr hl hregs
  exact ⟨t, hx, hok, hm.running, hm.main, hm.halted, by rw [hm.pc, rd_wr_apart (by decide), rd_windowClose], hm.cleared,
    by rw [rd_congr hm.regs, rd_wr_self _ _ _ _ (by decide)]; rfl⟩

theorem seqctl_run_stop {s : State} {r : Requester} {l : LoomId} {v : Word}
    (h : performed s r (bLoom l) F.LOOM_SEQCTL_RUN.off true (fldSet F.LOOM_SEQCTL_RESTART v 0) = true)
    (hv : fldGet F.LOOM_SEQCTL_RUN v = 0) (hr : (loom s l).seq.running = true) :
    ∃ t, exec (.loomSeqctlRun r l v) s = .next t ∧ okResp r 0 ∈ t.out ∧ (seqOf t l).running = false ∧ (seqOf t l).act = none ∧
      (seqOf t l).trap = none ∧ rd t (bLoom l) F.LOOM_SEQCTL_RUN = 0 := by
  obtain ⟨t, hx, hans⟩ := seqctl_run h
  have hq : seqOf (windowClose s) l = (loom s l).seq := seqOf_congr (windowClose_looms s) l
  obtain ⟨hl, hregs, hok⟩ := answered_frame hans
  rw [decide_eq_false (by omega)] at hl hregs
  obtain ⟨hrun, hact, htrap, hw⟩ := seqRunWrite_stop (s := windowClose s) (l := l) (by rw [hq, hr])
  have ht := seqOf_congr hl l
  exact ⟨t, hx, hok, by rw [ht, hrun], by rw [ht, hact], by rw [ht, htrap],
    by rw [rd_congr (hregs.trans hw), rd_wr_self _ _ _ _ (by decide)]; rfl⟩

theorem restart_fields (v : Word) : fldGet F.LOOM_SEQCTL_RUN (fldSet F.LOOM_SEQCTL_RUN (fldSet F.LOOM_SEQCTL_RESTART v 1) 1) = 1 ∧
    fldGet F.LOOM_SEQCTL_RESTART (fldSet F.LOOM_SEQCTL_RUN (fldSet F.LOOM_SEQCTL_RESTART v 1) 1) = 1 :=
  ⟨by rw [fldGet_fldSet_self _ _ _ (by decide)]; rfl,
    (fldGet_fldSet_disjoint _ _ _ _ (by decide) (by decide)).trans (by rw [fldGet_fldSet_self _ _ _ (by decide)]; rfl)⟩

theorem seqctl_restart {s : State} {r : Requester} {l : LoomId} {v : Word} (h : performed s r (bLoom l) F.LOOM_SEQCTL_RESTART.off true
      (fldSet F.LOOM_SEQCTL_RUN (fldSet F.LOOM_SEQCTL_RESTART v 1) (rd s (bLoom l) F.LOOM_SEQCTL_RUN)) = true)
    (hr : (loom s l).seq.running = true) (h1 : rd s (bLoom l) F.LOOM_SEQCTL_RUN = 1) :
    ∃ t, exec (.loomSeqctlRestart r l v) s = .next t ∧ t.looms = (seqRestart (windowClose s) l).looms := by
  obtain ⟨hf1, hf2⟩ := restart_fields v
  have hq : seqOf (windowClose s) l = (loom s l).seq := seqOf_congr (windowClose_looms s) l
  have ha := seqctl_answered (r := r) (l := l) h
  dsimp only at ha
  rw [h1, hf1, hf2, if_pos rfl, decide_eq_true rfl, seqRunWrite_running (by rw [hq, hr])] at ha
  refine ⟨_, rfl, ?_⟩
  rw [h1]
  exact (answered_frame ha).1

theorem seqctl_restart_inRun {s : State} {r : Requester} {l : LoomId} {v : Word} (h : performed s r (bLoom l) F.LOOM_SEQCTL_RESTART.off true
      (fldSet F.LOOM_SEQCTL_RUN (fldSet F.LOOM_SEQCTL_RESTART v 1) (rd s (bLoom l) F.LOOM_SEQCTL_RUN)) = true)
    (hr : (loom s l).seq.running = true) (h1 : rd s (bLoom l) F.LOOM_SEQCTL_RUN = 1) (hi : inRun s = true) :
    ∃ t, exec (.loomSeqctlRestart r l v) s = .next t ∧ (seqOf t l).restart = true ∧ (seqOf t l).mpc = (loom s l).seq.mpc := by
  obtain ⟨t, hx, hl⟩ := seqctl_restart h hr h1
  have hq : seqOf (windowClose s) l = (loom s l).seq := seqOf_congr (windowClose_looms s) l
  rw [seqRestart_inRun (by rw [hq, hr]) (by rw [inRun_windowClose, hi])] at hl
  have ht := seqOf_congr hl l
  rw [seqOf_modSeq, hq] at ht
  exact ⟨t, hx, by rw [ht], by rw [ht]⟩

theorem seqctl_restart_idle {s : State} {r : Requester} {l : LoomId} {v : Word} (h : performed s r (bLoom l) F.LOOM_SEQCTL_RESTART.off true
      (fldSet F.LOOM_SEQCTL_RUN (fldSet F.LOOM_SEQCTL_RESTART v 1) (rd s (bLoom l) F.LOOM_SEQCTL_RUN)) = true)
    (hr : (loom s l).seq.running = true) (h1 : rd s (bLoom l) F.LOOM_SEQCTL_RUN = 1) (hi : inRun s = false) :
    ∃ t, exec (.loomSeqctlRestart r l v) s = .next t ∧ (seqOf t l).running = true ∧ (seqOf t l).act = none ∧
      pcOf t l = rd s (bLoom l) F.LOOM_SEQENTRY_ADDR * 4 ∧ ∀ k, g t l k = 0 := by
  obtain ⟨t, hx, hl⟩ := seqctl_restart h hr h1
  have hq : seqOf (windowClose s) l = (loom s l).seq := seqOf_congr (windowClose_looms s) l
  rw [seqRestart_idle (by rw [hq, hr]) (by rw [inRun_windowClose, hi])] at hl
  obtain ⟨u, hu, hm⟩ := restarted (windowClose s) l
  have ht := seqOf_congr hl l
  exact ⟨t, hx, by rw [ht, hm.running], by rw [ht, hm.act], by rw [pcOf, ht, ← pcOf, hm.pc, hu _ (by decide), rd_windowClose],
    fun k => by rw [g, ht]; exact hm.cleared k⟩

end Sys2Proof.Machine
end

section
/-!
PROOFS. The ends of the batten's operation and of a weight snapshot (chapters 06 and 07), and O22.
-/

namespace Sys2Proof.Machine

/-! ## The end of an operation of the batten (R224, R238) -/

theorem kept_operandsRead (l : Nat) (rs : List (Nat × Nat)) (s : State) : kept l (operandsRead l rs s).2 = kept l s := by
  induction rs generalizing s with
  | nil => rfl
  | cons r rs ih =>
    unfold operandsRead
    dsimp only
    split
    · exact (ih _).trans (kept_scratchCheck ..)
    · exact (kept_latchFault ..).trans (kept_scratchCheck ..)

theorem fetchOnly_operandsRead (l : Nat) (rs : List (Nat × Nat)) (s : State) : fetchOnly l s (operandsRead l rs s).2 := by
  induction rs generalizing s with
  | nil => exact fetchOnly_refl ..
  | cons r rs ih =>
    have hr : fetchOnly l s (scratchCheck s l r.1 r.2).2 := fetchOnly_scrCheck ..
    unfold operandsRead
    dsimp only
    split
    · exact fetchOnly_trans hr (ih _)
    · exact fetchOnly_trans hr (fetchOnly_latchFault ..)

theorem rd_latchFault_valid (s : State) (b code : Nat) : rd (latchFault s b code) b F.FAULTCAUSE_VALID = 1 := by
  simpa [rdB] using (latchFault_shows s b code).1

/-- An operand that cannot be corrected is a fault of the loom. -/
theorem operandsRead_fault {l : Nat} {rs : List (Nat × Nat)} {s : State} (h : (operandsRead l rs s).1 = false) :
    rd (operandsRead l rs s).2 (bLoom l) F.FAULTCAUSE_VALID = 1 := by
  induction rs generalizing s with
  | nil => simp [operandsRead] at h
  | cons r rs ih =>
    unfold operandsRead at h ⊢
    dsimp only at h ⊢
    split
    · rename_i hc
      rw [if_pos hc] at h
      exact ih h
    · exact rd_latchFault_valid ..

theorem scratch_of_fetchOnly {l : Nat} {s t : State} (h : fetchOnly l s t) : (loom t l).scratch = (loom s l).scratch := by
  obtain ⟨-, -, ⟨_, _, _, _, e⟩, -⟩ := h
  rw [e]

/-- The batten of loom `l` has nothing to do but its operation. -/
structure BattenAlone (s : State) (l : Nat) : Prop where
  fold : (loom s l).bFold = false
  settle : (loom s l).bSettle = false
  queue : (loom s l).bQueue = []

theorem BattenAlone.of_kept {s t : State} {l : Nat} (h : BattenAlone s l) (k : kept l t = kept l s) : BattenAlone t l := by
  have hl := lasting_of_kept k
  exact ⟨(congrArg Loom.bFold hl :).trans h.fold, (congrArg Loom.bSettle hl :).trans h.settle, (congrArg Loom.bQueue hl :).trans h.queue⟩

/-- The array free with nothing to start: LOOM_BSTAT shows it. -/
theorem battenNext_alone {s : State} {l : Nat} (h : BattenAlone s l) (ho : (loom s l).bOp = none) :
    battenNext s l = wr (wr (modLoom s l (fun m => { m with bQueue := [] })) (bLoom l) F.LOOM_BSTAT_BUSY 0) (bLoom l) F.LOOM_BSTAT_QUEUED 0 := by
  have hstart : battenNext s l = bstatShow (modLoom s l (fun m => { m with bQueue := [] })) l := by
    unfold battenNext
    simp only [h.fold, h.settle, ho, h.queue, startFirst, Bool.false_and, Bool.false_eq_true, if_false, Option.isNone_none, Bool.not_false,
      Bool.and_self, if_true]
  rw [hstart, bstatShow]
  simp only [loom_modLoom_self, ho]
  rfl

/-- What the end of an operation leaves of the state `s` in which its effect stands. -/
def battenFreed (s : State) (l : Nat) : State :=
  battenNext (progress (modLoom s l (fun m => { m with
    bOp := none
    drains := m.drains.map (fun e => (e.1, { e.2 with batten := false })) })) (bLoom l)) l

theorem battenFreed_ends {s : State} {l : Nat} (h : BattenAlone s l) : (loom (battenFreed s l) l).bOp = none ∧
    rd (battenFreed s l) (bLoom l) F.LOOM_BSTAT_BUSY = 0 ∧ (loom (battenFreed s l) l).scratch = (loom s l).scratch ∧
    ∀ f, fldsApart F.PROGRESS_COUNT f = true → fldsApart F.LOOM_BSTAT_BUSY f = true → fldsApart F.LOOM_BSTAT_QUEUED f = true →
      rd (battenFreed s l) (bLoom l) f = rd s (bLoom l) f := by
  generalize hu : progress (modLoom s l (fun m => { m with
    bOp := none
    drains := m.drains.map (fun e => (e.1, { e.2 with batten := false })) })) (bLoom l) = u
  have hm : loom u l = { loom s l with
      bOp := none
      drains := (loom s l).drains.map (fun e => (e.1, { e.2 with batten := false })) } := by
    rw [← hu, progress, loom_congr (inc_looms ..), loom_modLoom_self]
  have hr : ∀ f, fldsApart F.PROGRESS_COUNT f = true → rd u (bLoom l) f = rd s (bLoom l) f := fun f hf => by
    rw [← hu, progress, rd_inc_apart hf]
    rfl
  have ha : BattenAlone u l := ⟨by rw [hm, h.fold], by rw [hm, h.settle], by rw [hm, h.queue]⟩
  have hb : battenFreed s l = _ := (congrArg (battenNext · l) hu).trans (battenNext_alone ha (by rw [hm]))
  rw [hb]
  refine ⟨?_, ?_, ?_, fun f hp h1 h2 => ?_⟩
  · rw [loom_congr (wr_looms ..), loom_congr (wr_looms ..), loom_modLoom_self, hm]
  · rw [rd_wr_apart (by decide), rd_wr_self _ _ _ _ (by decide)]
    rfl
  · rw [loom_congr (wr_looms ..), loom_congr (wr_looms ..), loom_modLoom_self, hm]
  · rw [rd_wr_apart h2, rd_wr_apart h1, ← hr f hp]
    rfl

/-- One of the banks of the operation is moved or tested. -/
def battenBusy (s : State) (l : Nat) (d : Dop) : Bool := (runRanges s l d).any (fun r => scrBusy s l r.1 r.2)

theorem battenDone_busy {s : State} {l : Nat} {o : Nat × Bool} (ho : (loom s l).bOp = some o)
    (hb : battenBusy s l (dop s l o.1) = true) (ue : Bool) : battenDone s l ue = send s .hold (bLoom l) [] := by
  unfold battenDone
  rw [ho]
  exact if_pos hb

theorem battenDone_sound {s : State} {l : Nat} {o : Nat × Bool} (ho : (loom s l).bOp = some o)
    (hb : battenBusy s l (dop s l o.1) = false) (hs : (operandsRead l (runReads s l (dop s l o.1)) s).1 = true) :
    ∃ u, battenDone s l false = battenFreed (inc u (bLoom l) F.LOOM_DOPRUNS_COUNT) l ∧ kept l u = kept l s := by
  have hk := kept_operandsRead l (runReads s l (dop s l o.1)) s
  generalize hc : operandsRead l (runReads s l (dop s l o.1)) s = c at hs hk
  obtain ⟨sound, t⟩ := c
  obtain rfl : sound = true := hs
  refine ⟨if (dop s l o.1).kind = 1 then runMx t l (dop s l o.1) else runMatmul t l (dop s l o.1), ?_, ?_⟩
  · unfold battenDone
    rw [ho]
    dsimp only
    rw [if_neg (by rw [← battenBusy, hb]; decide), hc]
    rfl
  · exact kept_ite ((kept_runMx ..).trans hk) ((kept_runMatmul ..).trans hk)

theorem battenDone_unsound {s : State} {l : Nat} {o : Nat × Bool} (ho : (loom s l).bOp = some o)
    (hb : battenBusy s l (dop s l o.1) = false) {ue : Bool}
    (hs : (operandsRead l (runReads s l (dop s l o.1)) s).1 = false ∨ ue = true) :
    ∃ u, battenDone s l ue = battenFreed u l ∧ kept l u = kept l s ∧ fetchOnly l s u ∧ rd u (bLoom l) F.FAULTCAUSE_VALID = 1 := by
  have hk := kept_operandsRead l (runReads s l (dop s l o.1)) s
  have hf := fetchOnly_operandsRead l (runReads s l (dop s l o.1)) s
  have hv := operandsRead_fault (l := l) (rs := runReads s l (dop s l o.1)) (s := s)
  generalize hc : operandsRead l (runReads s l (dop s l o.1)) s = c at hs hk hf hv
  obtain ⟨sound, t⟩ := c
  cases sound with
  | false =>
    refine ⟨t, ?_, hk, hf, hv rfl⟩
    unfold battenDone
    rw [ho]
    dsimp only
    rw [if_neg (by rw [← battenBusy, hb]; decide), hc]
    rfl
  | true =>
    obtain rfl : ue = true := hs.resolve_left (by simp)
    refine ⟨latchFault t (bLoom l) 0x010C, ?_, (kept_latchFault ..).trans hk, fetchOnly_trans hf (fetchOnly_latchFault ..),
      rd_latchFault_valid ..⟩
    unfold battenDone
    rw [ho]
    dsimp only
    rw [if_neg (by rw [← battenBusy, hb]; decide), hc]
    rfl

theorem batten_sound {s : State} {l : LoomId} {o : Nat × Bool} (ho : (loom s l).bOp = some o) (ha : BattenAlone s l)
    (hs : (operandsRead l (runReads s l (dop s l o.1)) s).1 = true) (hb : battenBusy s l (dop s l o.1) = false) :
    ∃ t, exec (.battenOpDone l false) s = .next t ∧ (loom t l).bOp = none ∧ rd t (bLoom l) F.LOOM_BSTAT_BUSY = 0 ∧
      rd t (bLoom l) F.LOOM_DOPRUNS_COUNT = (rd s (bLoom l) F.LOOM_DOPRUNS_COUNT + 1) % 2 ^ 32 := by
  obtain ⟨u, hu, hk⟩ := battenDone_sound ho hb hs
  have hau := ha.of_kept hk
  obtain ⟨h1, h2, -, hr⟩ := battenFreed_ends (s := inc u (bLoom l) F.LOOM_DOPRUNS_COUNT) (l := l) ⟨hau.fold, hau.settle, hau.queue⟩
  refine ⟨_, congrArg Host.Outcome.next hu, h1, h2, ?_⟩
  rw [hr _ (by decide) (by decide) (by decide), rd_inc_self _ _ _ (by decide), runs_of_kept hk]
  rfl

theorem batten_unsound {s : State} {l : LoomId} {o : Nat × Bool} (ho : (loom s l).bOp = some o) (ha : BattenAlone s l) {ue : Bool}
    (hs : (operandsRead l (runReads s l (dop s l o.1)) s).1 = false ∨ ue = true) (hb : battenBusy s l (dop s l o.1) = false) :
    ∃ t, exec (.battenOpDone l ue) s = .next t ∧ (loom t l).bOp = none ∧ rd t (bLoom l) F.LOOM_BSTAT_BUSY = 0 ∧
      rd t (bLoom l) F.FAULTCAUSE_VALID = 1 ∧ (loom t l).scratch = (loom s l).scratch ∧
      rd t (bLoom l) F.LOOM_DOPRUNS_COUNT = rd s (bLoom l) F.LOOM_DOPRUNS_COUNT := by
  obtain ⟨u, hu, hk, hf, hv⟩ := battenDone_unsound ho hb hs
  obtain ⟨h1, h2, h3, hr⟩ := battenFreed_ends (ha.of_kept hk)
  refine ⟨_, congrArg Host.Outcome.next hu, h1, h2, ?_, h3.trans (scratch_of_fetchOnly hf), ?_⟩
  · rw [hr _ (by decide) (by decide) (by decide), hv]
  · rw [hr _ (by decide) (by decide) (by decide), runs_of_kept hk]

/-! ## The end of a weight snapshot (R266, R268) -/

theorem hbmTurn_frame (s : State) (req a : Nat) : (hbmTurn s req a).looms = s.looms ∧ (hbmTurn s req a).regs = s.regs := by
  unfold hbmTurn
  dsimp only
  split <;> exact ⟨rfl, rfl⟩

/-- From `s` to `t` the looms stand, and what no access to lines of HBM writes. -/
structure RunKept (s t : State) : Prop where
  looms : t.looms = s.looms
  flds : ∀ g, (∀ f ∈ lineShows, fldsApart f g = true) → ∀ b, rd t b g = rd s b g

theorem RunKept.turn {s t : State} (h : RunKept s t) (req a tag : Nat) (d : List Byte) :
    RunKept s (hbmWrite (hbmTurn t req a) tag a d).2 := by
  obtain ⟨hl, hr⟩ := hbmTurn_frame t req a
  have hw := turnKept_hbmWrite (hbmTurn t req a) tag a d
  exact ⟨hw.looms.trans (hl.trans h.looms), fun g hg b => (hw.flds g hg b).trans ((rd_congr hr b g).trans (h.flds g hg b))⟩

theorem runKept_hbmWriteRun (s : State) (req tag a : Nat) (d : List Byte) : RunKept s (hbmWriteRun s req tag a d).2.2 := by
  unfold hbmWriteRun
  refine List.foldlRecOn (motive := fun p : Nat × Nat × State => RunKept s p.2.2) _ _ ⟨rfl, fun _ _ _ => rfl⟩ fun p h x _ => ?_
  split
  · exact h
  · have hr := h.turn req x.1 tag ((d.drop (x.1 - a)).take x.2)
    dsimp only
    split <;> exact hr

/-- The snapshot of a loom has ended. -/
structure SnapEnded (t : State) (l : Nat) : Prop where
  gone : (loom t l).tsnap = none
  busy : rd t (bLoom l) F.LOOM_TSNAPCTL_BUSY = 0

/-- A change of the registers alone that leaves BUSY. -/
theorem SnapEnded.of_looms {s t : State} {l : Nat} (h : SnapEnded s l) (hl : t.looms = s.looms)
    (hb : rd t (bLoom l) F.LOOM_TSNAPCTL_BUSY = rd s (bLoom l) F.LOOM_TSNAPCTL_BUSY) : SnapEnded t l :=
  ⟨(congrArg Loom.tsnap (loom_congr hl l)).trans h.gone, hb.trans h.busy⟩

theorem SnapEnded.wr {s : State} {l b : Nat} {f : Fld} (h : SnapEnded s l) (hf : fldsApart f F.LOOM_TSNAPCTL_BUSY = true) (v : Nat) :
    SnapEnded (wr s b f v) l := h.of_looms (wr_looms ..) (rd_wr_apart hf ..)

theorem SnapEnded.wrPair {s : State} {l b : Nat} {f g : Fld} (h : SnapEnded s l) (hf : fldsApart f F.LOOM_TSNAPCTL_BUSY = true)
    (hg : fldsApart g F.LOOM_TSNAPCTL_BUSY = true) (v : Nat) : SnapEnded (wrPair s b f g v) l := (h.wr hf _).wr hg _

theorem SnapEnded.latchFault {s : State} {l : Nat} (h : SnapEnded s l) (b code : Nat) : SnapEnded (latchFault s b code) l :=
  h.of_looms (latchFault_looms ..) (rd_latchFault_apart (by decide) ..)

theorem SnapEnded.ckptFail {s : State} {l : Nat} (h : SnapEnded s l) : SnapEnded (ckptFail s) l :=
  (h.of_looms (t := { s with ll := { s.ll with ckpt := none } }) rfl rfl).wr (by decide) _

theorem rd_ckptFail {f : Fld} (hf : fldsApart F.LL_CKPTCTL_ERR f = true) (s : State) (b : Nat) : rd (ckptFail s) b f = rd s b f :=
  rd_wr_apart hf ..

theorem snapEnded_wr (s : State) (l : Nat) :
    SnapEnded (wr (modLoom s l (fun m => { m with tsnap := none })) (bLoom l) F.LOOM_TSNAPCTL_BUSY 0) l :=
  ⟨by rw [loom_congr (wr_looms ..), loom_modLoom_self], rd_wr_self _ _ _ _ (by decide)⟩

/-- A copy that failed. -/
structure SnapFailed (s t : State) (l : Nat) : Prop where
  fault : rd t (bLoom l) F.FAULTCAUSE_VALID = 1
  seq : rd t (bLoom l) F.LOOM_TSNAPSEQ_SEQ = rd s (bLoom l) F.LOOM_TSNAPSEQ_SEQ

theorem snapFailed {s t : State} {l : Nat} (h : rd t (bLoom l) F.LOOM_TSNAPSEQ_SEQ = rd s (bLoom l) F.LOOM_TSNAPSEQ_SEQ) :
    SnapFailed s (latchFault (wr t (bLoom l) F.LOOM_TSNAPCTL_ERR 1) (bLoom l) 0x010E) l :=
  ⟨rd_latchFault_valid .., by rw [rd_latchFault_apart (by decide), rd_wr_apart (by decide), h]⟩

theorem ckptSnapEnd_ends (s : State) (l : Nat) (x : TSnap) (ok : Bool) :
    SnapEnded (ckptSnapEnd s l x ok) l ∧ (ok = false → SnapFailed s (ckptSnapEnd s l x ok) l) := by
  have h := snapEnded_wr s l
  cases ok with
  | true => exact ⟨(h.wrPair (by decide) (by decide) _).wr (by decide) _, fun h => Bool.noConfusion h⟩
  | false =>
    have hf : SnapFailed s (latchFault (wr (wr (modLoom s l (fun m => { m with tsnap := none })) (bLoom l) F.LOOM_TSNAPCTL_BUSY 0)
        (bLoom l) F.LOOM_TSNAPCTL_ERR 1) (bLoom l) 0x010E) l := snapFailed (by
      rw [rd_wr_apart (by decide)]
      rfl)
    exact ⟨((h.wr (by decide) _).latchFault ..).ckptFail, fun _ => ⟨(rd_ckptFail (by decide) ..).trans hf.fault,
      (rd_ckptFail (by decide) ..).trans hf.seq⟩⟩

theorem tsnapEnd_ends {s : State} {l : Nat} {x : TSnap} (hx : (loom s l).tsnap = some x) (ok : Bool) :
    SnapEnded (tsnapEnd s l ok) l ∧ (ok = false → SnapFailed s (tsnapEnd s l ok) l) := by
  unfold tsnapEnd
  rw [hx]
  dsimp only
  split
  · exact ckptSnapEnd_ends s l x ok
  · have h := (snapEnded_wr s l).wr (b := bLoom l) (f := F.LOOM_TSNAPCTL_GO) (by decide) 0
    have hq : rd (wr (wr (modLoom s l (fun m => { m with tsnap := none })) (bLoom l) F.LOOM_TSNAPCTL_BUSY 0) (bLoom l) F.LOOM_TSNAPCTL_GO 0)
        (bLoom l) F.LOOM_TSNAPSEQ_SEQ = rd s (bLoom l) F.LOOM_TSNAPSEQ_SEQ := by
      rw [rd_wr_apart (by decide), rd_wr_apart (by decide)]
      rfl
    generalize wr (wr (modLoom s l (fun m => { m with tsnap := none })) (bLoom l) F.LOOM_TSNAPCTL_BUSY 0) (bLoom l) F.LOOM_TSNAPCTL_GO 0 = u
      at h hq
    cases ok with
    | false =>
      rw [if_neg Bool.false_ne_true, if_neg (show ¬ hMemerr = hOk by decide)]
      exact ⟨(h.wr (by decide) _).latchFault .., fun _ => snapFailed hq⟩
    | true =>
      rw [if_pos rfl]
      refine ⟨?_, fun h => Bool.noConfusion h⟩
      have hk := runKept_hbmWriteRun u (bLoom l) (rd u (bLoom l) F.OWNER_PART)
        (rdPair u (bLoom l) F.LOOM_TSNAPDST_LO_ADDR F.LOOM_TSNAPDST_HI_ADDR) (snapRecord l (rd u (bLoom l) F.LOOM_TSNAPSEQ_SEQ + 1) x)
      have hw := h.of_looms hk.looms (hk.flds _ (by decide) _)
      split
      · exact (hw.wrPair (by decide) (by decide) _).wr (by decide) _
      · exact (hw.wr (by decide) _).latchFault ..

/-! ## O22 -/

/-- Settles O22: each write is what its register does between the close of the window and the answer; the ends of the batten's operation and
of a snapshot follow from what the engines leave. -/
theorem loomControl : Obligations.LoomControl := by
  intro r l word v s b m u off i x
  refine ⟨thdata_taken, thdata_refused, fun o ho hs hf hq => ?_, brun_answered, fun y ok hy => ?_, fun h => ⟨seqctl_run_start h, seqctl_run_stop h⟩,
    fun h hr h1 => ⟨seqctl_restart_inRun h hr h1, seqctl_restart_idle h hr h1⟩⟩
  · have ha : BattenAlone s l := ⟨hf, hs, hq⟩
    exact ⟨fun ue hb => congrArg Host.Outcome.next (battenDone_busy ho hb ue), batten_sound ho ha, fun ue => batten_unsound ho ha⟩
  · obtain ⟨he, hfail⟩ := tsnapEnd_ends hy ok
    exact ⟨_, rfl, he.gone, he.busy, fun hok => ⟨(hfail hok).fault, (hfail hok).seq⟩⟩

end Sys2Proof.Machine
end

section
/-!
PROOFS. The routers of the warp fabric (chapter 10): what a packet's code does at a router, and what an input does with the flits of a packet
(R332 to R340, R346, R349, R355).
-/

namespace Sys2Proof.Machine

/-! ## Header fields above HPTR and HEND -/

theorem setBits_div (x v : Nat) {hi lo : Nat} (h : lo ≤ hi) : setBits x hi lo v / 2 ^ (hi + 1) = x / 2 ^ (hi + 1) := by
  have hp : 2 ^ (hi + 1) = 2 ^ lo * 2 ^ (hi - lo + 1) := by rw [← pow_add]; congr 1; omega
  unfold setBits bits
  rw [hp, ← Nat.div_div_eq_div_mul, ← Nat.div_div_eq_div_mul]
  have hn : 0 < 2 ^ lo := by positivity
  have hm : 0 < 2 ^ (hi - lo + 1) := by positivity
  generalize 2 ^ lo = n at hn ⊢
  generalize 2 ^ (hi - lo + 1) = m at hm ⊢
  have hsub : x - x / n % m * n = n * (m * (x / n / m)) + x % n := by
    have hx := Nat.div_add_mod x n
    have hq : n * (x / n) = n * (m * (x / n / m)) + x / n % m * n := by
      conv_lhs => rw [← Nat.div_add_mod (x / n) m]
      ring
    omega
  have hsum : x - x / n % m * n + v % m * n = x % n + n * (v % m + m * (x / n / m)) := by
    rw [hsub]
    ring
  rw [hsum, Nat.add_mul_div_left _ _ hn, Nat.div_eq_of_lt (Nat.mod_lt _ hn), Nat.zero_add, Nat.add_mul_div_left _ _ hm,
    Nat.div_eq_of_lt (Nat.mod_lt _ hm), Nat.zero_add]

theorem bits_setBits_above (x v : Nat) {hi lo hi' lo' : Nat} (h : lo ≤ hi) (ha : hi < lo') :
    bits (setBits x hi lo v) hi' lo' = bits x hi' lo' := by
  have hp : 2 ^ lo' = 2 ^ (hi + 1) * 2 ^ (lo' - (hi + 1)) := by rw [← pow_add]; congr 1; omega
  unfold bits
  rw [hp, ← Nat.div_div_eq_div_mul, ← Nat.div_div_eq_div_mul, setBits_div x v h]

/-- Moving HPTR and HEND leaves the fields above them. -/
theorem Transit.at_bits (k : Transit) (i e hi : Nat) {lo : Nat} (h : 205 < lo) : bits (k.at i e).head hi lo = bits k.head hi lo :=
  calc bits (setBits (setBits k.head 198 192 i) 205 199 e) hi lo
    _ = bits (setBits k.head 198 192 i) hi lo := bits_setBits_above _ _ (by omega) h
    _ = bits k.head hi lo := bits_setBits_above _ _ (by omega) (by omega)

/-- The kernel compares the packets first where both sides project, so the channel stands by itself. -/
@[simp] theorem Transit.at_vc (k : Transit) (i e : Nat) : (k.at i e).vc = k.vc :=
  match k with
  | ⟨vc, h, p, a⟩ => (rfl : (Transit.at ⟨vc, h, p, a⟩ i e).vc = vc)
@[simp] theorem Transit.at_class (k : Transit) (i e : Nat) : hdrClass (k.at i e).head = hdrClass k.head := k.at_bits i e _ (by decide)
@[simp] theorem Transit.at_len (k : Transit) (i e : Nat) : hdrFlits (k.at i e).head = hdrFlits k.head := k.at_bits i e _ (by decide)
@[simp] theorem Transit.at_dpkg (k : Transit) (i e : Nat) : hdrDpkg (k.at i e).head = hdrDpkg k.head := k.at_bits i e _ (by decide)

/-! ## Edge ports (R334, R340) -/

/-- The ports of an edge that XSEL selects from. -/
def Move.ports : Move → Nat
  | .west | .east => 4
  | .north | .south => 8
  | .seam => 16
  | _ => 0

/-- The endpoints behind the ports that chips, hubs and glimmer ports stand at. -/
def edgeNames (m : Move) (xsel ep : Nat) : Prop :=
  (m = .west → xsel < 2 → ep = 0x420 + xsel) ∧ (m = .east → xsel < 2 → ep = 0x422 + xsel) ∧ (m = .seam → ep = 0x410 + xsel) ∧
    (m.ports = 8 → xsel < 4 → ep = (if m = .north then 0x428 else 0x42C) + xsel)

theorem edgePort_named (m : Move) (row : Nat) {xsel : Nat} (h : xsel < m.ports) :
    ∃ ep, edgePort m row xsel = some ep ∧ edgeNames m xsel ep := by
  cases m with
  | pos | off => exact absurd h (Nat.not_lt_zero _)
  | west | east =>
    simp only [Move.ports] at h
    interval_cases xsel <;> simp [edgePort, edgeNames, Move.ports]
  | north | south =>
    by_cases hx : xsel < 4
    · simp [edgePort, edgeNames, Move.ports, hx]
    · exact ⟨_, (if_neg hx).trans (if_pos h), by simp [edgeNames, hx]⟩
  | seam => exact ⟨_, if_pos h, by simp [edgeNames, Move.ports]⟩

theorem edgePort_none (m : Move) (row : Nat) {xsel : Nat} (h : m.ports ≤ xsel) : edgePort m row xsel = none := by
  cases m with
  | pos | off => rfl
  | west | east =>
    change 4 ≤ xsel at h
    simp [edgePort, show ¬ xsel < 2 by omega, show xsel ≠ 2 by omega, show xsel ≠ 3 by omega]
  | north | south =>
    change 8 ≤ xsel at h
    simp [edgePort, show ¬ xsel < 4 by omega, show ¬ xsel < 8 by omega]
  | seam => exact if_neg (not_lt.2 h)

/-! ## What an edge does with a packet (R334, R340) -/

theorem edgeGo_along {s : State} {row mcol col : Nat} {m : Move} (h : edgeMesh m col mcol ≠ mcol) (k next : Transit) :
    edgeGo s row mcol col m k next = fwd s row (hopTo mcol (edgeMesh m col mcol)) col k := if_pos h

theorem edgeGo_dropped {s : State} {row mcol col : Nat} {m : Move} (h : edgeMesh m col mcol = mcol) {k : Transit}
    (hp : m.ports ≤ hdrXsel k.head) (next : Transit) : edgeGo s row mcol col m k next = inc s bSeam F.SEAM_SWDROP_COUNT := by
  simp only [edgeGo, h, ne_eq, not_true_eq_false, if_false, edgePort_none m row hp]

theorem edgeGo_port {s : State} {row mcol col ep : Nat} {m : Move} (h : edgeMesh m col mcol = mcol) {k : Transit}
    (hp : edgePort m row (hdrXsel k.head) = some ep) (next : Transit) : edgeGo s row mcol col m k next = edgeTake s row mcol ep next := by
  simp only [edgeGo, h, ne_eq, not_true_eq_false, if_false, hp]

theorem edgeTake_reserved {s : State} {k : Transit} (hc : classMax k.vc (hdrClass k.head) = none) (row mcol ep : Nat) :
    edgeTake s row mcol ep k = s := by
  simp only [edgeTake, hc]

/-- A packet of the own package at an edge endpoint: discarded for its length, or taken. -/
theorem edgeTake_own {s : State} {k : Transit} {n : Nat} (hd : hdrDpkg k.head = selfPkg s) (hc : classMax k.vc (hdrClass k.head) = some n)
    (row mcol ep : Nat) :
    edgeTake s row mcol ep k = if n < hdrFlits k.head then s else send s .forward (row * 34 + mcol) (2 :: ep :: k.flits) := by
  simp only [edgeTake, hc, hd, ne_eq, not_true_eq_false, and_false, if_false]

/-! ## The codes of a packet (R333, R337 to R340) -/

/-- LOCAL, BRANCH-PUSH and BRANCH-POP move no packet. -/
theorem codes_of_move {row col code : Nat} {x : Move} (h : moveTo row col code = x) (hx : x ≠ .off) : code ≠ 4 ∧ code ≠ 5 ∧ code ≠ 6 := by
  refine ⟨?_, ?_, ?_⟩ <;> rintro rfl <;> exact hx h.symm

/-- A packet for logical column `col` acts on its code at the router of mesh column `mcol`. -/
structure ActsAt (s : State) (row mcol col : Nat) (k : Transit) : Prop where
  own : hdrDpkg k.head = selfPkg s
  live : hdrHptr k.head < hdrHend k.head
  here : (meshOf s row col).filter (fun m => m != mcol) = none

theorem filter_here {s : State} {row mcol col : Nat} (h : meshOf s row col = some mcol) : (meshOf s row col).filter (fun m => m != mcol) = none := by
  simp [h]

section
variable {s : State} {row mcol col : Nat} {k : Transit}

theorem routerAct_ended (hd : hdrDpkg k.head = selfPkg s) (h : hdrHend k.head ≤ hdrHptr k.head) (fuel : Nat) :
    routerAct row mcol (fuel + 1) col k s = s := by
  unfold routerAct
  dsimp only
  rw [if_neg (not_not.2 hd), if_pos h]

/-- Away from the column's site a packet takes a correction hop … -/
theorem routerAct_away (hd : hdrDpkg k.head = selfPkg s) (h : hdrHptr k.head < hdrHend k.head) {m : Nat} (hm : meshOf s row col = some m)
    (hne : m ≠ mcol) (hx : ∀ x, rowExit row col k = some x → pastSite m (edgeMesh x col mcol) mcol = false) (fuel : Nat) :
    routerAct row mcol (fuel + 1) col k s = fwd s row (hopTo mcol m) col k := by
  have hf : (rowExit row col k).filter (fun x => pastSite m (edgeMesh x col mcol) mcol) = none := by simpa using hx
  simp [routerAct, hd, h.not_ge, hm, Option.filter_some_pos, hne, hf]

/-- … or is on its way from there to an edge port. -/
theorem routerAct_leaving (hd : hdrDpkg k.head = selfPkg s) (h : hdrHptr k.head < hdrHend k.head) {m : Nat} (hm : meshOf s row col = some m)
    (hne : m ≠ mcol) {x : Move} (hx : rowExit row col k = some x) (hp : pastSite m (edgeMesh x col mcol) mcol = true) (fuel : Nat) :
    routerAct row mcol (fuel + 1) col k s = edgeGo s row mcol col x k (k.at (hdrHptr k.head + 1) (hdrHend k.head)) := by
  simp [routerAct, hd, h.not_ge, hm, Option.filter_some_pos, hne, hx, hp]

section
variable (h : ActsAt s row mcol col k)
include h

theorem ActsAt.at_local (hc : hopCode k.head (hdrHptr k.head) = 4) (fuel : Nat) :
    routerAct row mcol (fuel + 1) col k s = if hdrHptr k.head + 1 < hdrHend k.head ∧ k.vc = 0 then
        routerAct row mcol fuel col (k.at (hdrHptr k.head + 1) (hdrHend k.head)) (localPort s row col k)
      else localPort s row col k := by
  simp [routerAct, h.own, h.live.not_ge, h.here, hc]

theorem ActsAt.branches (hc : hopCode k.head (hdrHptr k.head) = 5) (hv : k.vc = 0) (fuel : Nat) :
    routerAct row mcol (fuel + 1) col k s =
      let j := popMatch k.head 64 (hdrHptr k.head + 1) 1
      routerAct row mcol fuel col (k.at (j + 1) (hdrHend k.head)) (routerAct row mcol fuel col (k.at (hdrHptr k.head + 1) j) s) := by
  simp [routerAct, h.own, h.live.not_ge, h.here, hc, hv]

/-- Another row: the packet leaves along the column. -/
theorem ActsAt.row_step {r c : Nat} (hx : moveTo row col (hopCode k.head (hdrHptr k.head)) = .pos r c) (hr : r ≠ row) (fuel : Nat) :
    routerAct row mcol (fuel + 1) col k s = fwd s r mcol c (k.at (hdrHptr k.head + 1) (hdrHend k.head)) := by
  obtain ⟨h4, h5, h6⟩ := codes_of_move hx Move.noConfusion
  simp [routerAct, h.own, h.live.not_ge, h.here, hx, hr, h4, h5, h6]

/-- Another column of the row, whose site has a router of its own. -/
theorem ActsAt.col_step {c m : Nat} (hx : moveTo row col (hopCode k.head (hdrHptr k.head)) = .pos row c) (hm : meshOf s row c = some m)
    (hne : m ≠ mcol) (fuel : Nat) :
    routerAct row mcol (fuel + 1) col k s = fwd s row (hopTo mcol m) c (k.at (hdrHptr k.head + 1) (hdrHend k.head)) := by
  obtain ⟨h4, h5, h6⟩ := codes_of_move hx Move.noConfusion
  simp [routerAct, h.own, h.live.not_ge, h.here, hx, hm, hne, h4, h5, h6]

theorem ActsAt.leaves {x : Move} (hx : moveTo row col (hopCode k.head (hdrHptr k.head)) = x) (he : x.ports ≠ 0) (fuel : Nat) :
    routerAct row mcol (fuel + 1) col k s = edgeGo s row mcol col x k (k.at (hdrHptr k.head + 1) (hdrHend k.head)) := by
  obtain ⟨h4, h5, h6⟩ := codes_of_move hx (by rintro rfl; exact he rfl)
  cases x with
  | pos | off => exact absurd rfl he
  | west | east | north | south | seam => simp [routerAct, h.own, h.live.not_ge, h.here, hx, h4, h5, h6]

end

end

/-! ## The local port (R339, R355) -/

section
variable {s : State} {row col m : Nat} {k : Transit} (hm : meshOf s row col = some m) (hi : isolated s (row * 32 + col) = false)
  (ha : k.abort = false)
include hm

theorem siteOf_ne_none : siteOf s row col ≠ 0x1F := fun h => by simp [meshOf, h] at hm

include hi ha

/-- A site that is open takes the packet, or discards it for its length and counts it. -/
theorem localPort_open {n : Nat} (hc : classMax k.vc (hdrClass k.head) = some n) :
    localPort s row col k = if n < hdrFlits k.head then inc s (bLoom (row * 32 + col)) F.LOOM_NIBADPKT_COUNT
      else send s .forward (row * 32 + col) (0 :: k.flits) := by
  simp [localPort, siteOf_ne_none hm, hi, ha, hc]

theorem localPort_reserved (hc : classMax k.vc (hdrClass k.head) = none) :
    localPort s row col k = inc s (bLoom (row * 32 + col)) F.LOOM_NIBADPKT_COUNT := by
  simp [localPort, siteOf_ne_none hm, hi, ha, hc]

end

theorem localPort_isolated {s : State} {row col m : Nat} (hc : col < 32) (hm : meshOf s row col = some m)
    (hi : isolated s (row * 32 + col) = true) (k : Transit) : localPort s row col k = inc s (bHub (rowHalfOf row col).1) F.HUB_ISODROP_COUNT := by
  have hrow : (row * 32 + col) / 32 = row := by omega
  have hcol : (row * 32 + col) % 32 = col := by omega
  simp [localPort, siteOf_ne_none hm, hi, isoDrop, hrow, hcol]

theorem localPort_noSite {s : State} {row col : Nat} (hm : meshOf s row col = none) (k : Transit) :
    localPort s row col k = inc s (bHub (rowHalfOf row col).1) F.HUB_NOSITEDROP_COUNT := by
  have hs : siteOf s row col = 0x1F := by
    by_contra h
    simp [meshOf, h] at hm
  exact if_pos hs

/-! ## A router only sends and counts -/

/-- What was sent stays sent, and the package is the same. -/
structure OnlySends (s t : State) : Prop where
  gpkg : t.gpkg = s.gpkg
  sent : s.out <+: t.out

namespace OnlySends
variable {s t u : State}

theorem refl (s : State) : OnlySends s s := ⟨rfl, List.prefix_rfl⟩

theorem trans (h : OnlySends s t) (k : OnlySends t u) : OnlySends s u := ⟨k.gpkg.trans h.gpkg, h.sent.trans k.sent⟩

theorem inc (s : State) (b : Nat) (f : Fld) : OnlySends s (inc s b f) := ⟨rfl, List.prefix_rfl⟩

theorem send (s : State) (k : MsgKind) (d : Nat) (a : List Nat) : OnlySends s (send s k d a) := ⟨rfl, List.prefix_append _ _⟩

theorem ite {c : Prop} [Decidable c] (ht : OnlySends s t) (hu : OnlySends s u) : OnlySends s (if c then t else u) := by
  split
  · exact ht
  · exact hu

theorem self (h : OnlySends s t) : selfPkg t = selfPkg s := congrArg GlimPkg.self h.gpkg

theorem localPort (s : State) (row col : Nat) (k : Transit) : OnlySends s (localPort s row col k) := by
  unfold Machine.localPort
  refine .ite (.inc ..) (.ite (.inc ..) (.ite (.inc ..) ?_))
  split
  · exact .inc ..
  · exact .ite (.inc ..) (.send ..)

theorem edgeTake (row mcol ep : Nat) {k : Transit} (hd : hdrDpkg k.head = selfPkg s) : OnlySends s (edgeTake s row mcol ep k) := by
  cases hc : classMax k.vc (hdrClass k.head) with
  | none => exact edgeTake_reserved hc row mcol ep ▸ .refl s
  | some n => exact edgeTake_own hd hc row mcol ep ▸ .ite (.refl s) (.send ..)

theorem edgeGo (row mcol col : Nat) (m : Move) (k : Transit) {next : Transit} (hd : hdrDpkg next.head = selfPkg s) :
    OnlySends s (edgeGo s row mcol col m k next) := by
  unfold Machine.edgeGo
  refine .ite (.send ..) ?_
  split
  · exact .edgeTake row mcol _ hd
  · exact .inc ..

theorem routerAct (row mcol : Nat) : ∀ (fuel col : Nat) (k : Transit) (s : State), hdrDpkg k.head = selfPkg s →
    OnlySends s (routerAct row mcol fuel col k s)
  | 0, _, _, s, _ => .refl s
  | fuel + 1, col, k, s, hd => by
    have ih := fun col i e (t : State) (ht : selfPkg t = selfPkg s) =>
      routerAct row mcol fuel col (k.at i e) t ((k.at_dpkg i e).trans (hd.trans ht.symm))
    have hedge := fun x i e => OnlySends.edgeGo row mcol col x k ((k.at_dpkg i e).trans hd)
    unfold Machine.routerAct
    dsimp only
    rw [if_neg (not_not.2 hd)]
    refine .ite (.refl s) ?_
    split
    · split
      · exact hedge ..
      · exact .send ..
    · refine .ite ?_ (.ite (.ite (.refl s) ?_) (.ite (.refl s) ?_))
      · have hl := OnlySends.localPort s row col k
        exact .ite (hl.trans (ih _ _ _ _ hl.self)) hl
      · have hb := ih col (hdrHptr k.head + 1) (popMatch k.head 64 (hdrHptr k.head + 1) 1) s rfl
        exact hb.trans (ih _ _ _ _ hb.self)
      · split
        · refine .ite (.send ..) ?_
          split
          · exact .ite (ih _ _ _ _ rfl) (.send ..)
          · exact ih _ _ _ _ rfl
        · exact .refl s
        · exact hedge ..

end OnlySends

/-! ## The flits of a packet at an input (R349) -/

theorem findIdx_none {α : Type} {p : α → Bool} {l : List α} (h : ∀ a ∈ l, p a = false) : findIdx? p l = none := by
  induction l with
  | nil => rfl
  | cons a l ih => simp [findIdx?, h a List.mem_cons_self, ih fun x hx => h x (List.mem_cons_of_mem a hx)]

theorem findIdx_some {α : Type} {p : α → Bool} {l : List α} {n : Nat} (h : findIdx? p l = some n) : ∃ a ∈ l, p a = true := by
  by_contra hn
  rw [findIdx_none fun a ha => by simpa using fun hp => hn ⟨a, ha, hp⟩] at h
  cases h

/-- The last flit of a packet fails its CRC. -/
def tailBad (fs : List LinkFlit) : Bool := !(fs.getLast?.map LinkFlit.ok).getD true

/-- The flits of a packet that fail their CRC. -/
def badFlits (fs : List LinkFlit) : Nat := (fs.filter (fun f => !f.ok)).length

/-- A packet of flits that are no idle ones comes in at a port that the router has. -/
structure PacketAt (row mcol port : Nat) (fs : List LinkFlit) (k : Transit) : Prop where
  valid : ∀ f ∈ fs, f.valid = true
  packet : transitOf fs (fs.any LinkFlit.abort) = some k
  port : hasPort row mcol port = true

section
variable {s : State} {row mcol port col : Nat} {fs : List LinkFlit} {k : Transit} (h : PacketAt row mcol port fs k)
include h

/-- A packet has a last flit, which tells whether its tail fails. -/
theorem PacketAt.last : ∃ f, fs.getLast? = some f ∧ tailBad fs = !f.ok := by
  cases hl : fs.getLast? with
  | none =>
    have hp := h.packet
    rw [List.getLast?_eq_none_iff.1 hl] at hp
    cases hp
  | some f => exact ⟨f, rfl, by rw [tailBad, hl]; rfl⟩

theorem PacketAt.routerIn_cut (hc : routerInput row mcol port k.vc ∈ s.cuts) (left : Bool) :
    routerIn s row mcol port col fs left =
      if tailBad fs then crcFail s row mcol port (badFlits fs) false
      else { crcFail s row mcol port (badFlits fs) false with
        cuts := (crcFail s row mcol port (badFlits fs) false).cuts.erase (routerInput row mcol port k.vc) } := by
  have hf : fs.filter LinkFlit.valid = fs := List.filter_eq_self.2 h.valid
  obtain ⟨f, hl, ht⟩ := h.last
  simp [routerIn, hf, h.packet, h.port, hc, hl, ht, badFlits]

theorem PacketAt.routerIn_sound (hc : routerInput row mcol port k.vc ∉ s.cuts) (ho : ∀ f ∈ fs, f.ok = true) (ha : k.abort = false)
    (left : Bool) : routerIn s row mcol port col fs left = routerAct row mcol 64 col k s := by
  have hf : fs.filter LinkFlit.valid = fs := List.filter_eq_self.2 h.valid
  have hn : findIdx? (fun f => !LinkFlit.ok f) fs = none := findIdx_none fun f hm => by simp [ho f hm]
  simp [routerIn, hf, h.packet, h.port, hc, hn, ha]

theorem PacketAt.routerIn_bad (hc : routerInput row mcol port k.vc ∉ s.cuts) {n : Nat} (hn : findIdx? (fun f => !LinkFlit.ok f) fs = some n) :
    routerIn s row mcol port col fs false =
      if tailBad fs then { crcFail s row mcol port (badFlits fs) true with
        cuts := (crcFail s row mcol port (badFlits fs) true).cuts ++ [routerInput row mcol port k.vc] }
      else crcFail s row mcol port (badFlits fs) true := by
  have hf : fs.filter LinkFlit.valid = fs := List.filter_eq_self.2 h.valid
  obtain ⟨f, hl, ht⟩ := h.last
  cases hk : transitOf (fs.take n) true <;> simp [routerIn, hf, h.packet, h.port, hc, hn, hl, ht, hk, badFlits]

end

theorem crcFail_none (s : State) (row mcol port : Nat) (cut : Bool) : crcFail s row mcol port 0 cut = s := rfl

/-- The hub of a row that a mesh column belongs to. -/
def rowHub (row mcol : Nat) : Nat := bHub (row / 3 + (if 17 ≤ mcol then 8 else 0))

/-- What a hub counts and notes of `n` flits that fail at an input of a router of its rows. -/
structure CrcNoted (s t : State) (row mcol port n : Nat) : Prop where
  flits : rd t (rowHub row mcol) F.HUB_CRCERR_COUNT = (rd s (rowHub row mcol) F.HUB_CRCERR_COUNT + n) % 2 ^ 32
  packet : rd t (rowHub row mcol) F.HUB_PKTABORT_COUNT = (rd s (rowHub row mcol) F.HUB_PKTABORT_COUNT + 1) % 2 ^ 32
  atRow : rd t (rowHub row mcol) F.HUB_LASTERR_ROW = row
  atPort : rd t (rowHub row mcol) F.HUB_LASTERR_PORT = port
  atSite : rd t (rowHub row mcol) F.HUB_LASTERR_SITE = mcol % 17

theorem crcFail_stitched {row mcol port n : Nat} (h : stitched mcol port = true) (hn : n ≠ 0) (s : State) (cut : Bool) :
    crcFail s row mcol port n cut = incBy s bSeam F.SEAM_CRCERR_COUNT n := by
  simp [crcFail, h, hn]

theorem crcFail_frame (s : State) (row mcol port n : Nat) (cut : Bool) :
    (crcFail s row mcol port n cut).out = s.out ∧ (crcFail s row mcol port n cut).cuts = s.cuts := by
  unfold crcFail
  dsimp only
  split
  · exact ⟨rfl, rfl⟩
  · split
    · exact ⟨rfl, rfl⟩
    · cases cut <;> simp

theorem crcFail_noted {row mcol port n : Nat} (h : stitched mcol port = false) (hn : n ≠ 0) (hr : row < 32) (hp : port < 8) (s : State) :
    CrcNoted s (crcFail s row mcol port n true) row mcol port n := by
  have hs : mcol % 17 < 32 := lt_trans (Nat.mod_lt _ (by decide)) (by decide : 17 < 32)
  have he : crcFail s row mcol port n true = wr (wr (wr (wr (inc (incBy s (rowHub row mcol) F.HUB_CRCERR_COUNT n) (rowHub row mcol)
      F.HUB_PKTABORT_COUNT) (rowHub row mcol) F.HUB_LASTERR_SITE (mcol % 17)) (rowHub row mcol) F.HUB_LASTERR_ROW row) (rowHub row mcol)
      F.HUB_LASTERR_HALF (mcol / 17)) (rowHub row mcol) F.HUB_LASTERR_PORT port := by
    simp [crcFail, h, hn, rowHub]
  rw [he]
  constructor
  · rw [rd_wr_apart (by decide), rd_wr_apart (by decide), rd_wr_apart (by decide), rd_wr_apart (by decide), rd_inc_apart (by decide)]
    exact rd_wr_self _ _ F.HUB_CRCERR_COUNT _ (by decide)
  · rw [rd_wr_apart (by decide), rd_wr_apart (by decide), rd_wr_apart (by decide), rd_wr_apart (by decide),
      rd_inc_self _ _ F.HUB_PKTABORT_COUNT (by decide), incBy, rd_wr_apart (by decide)]
    rfl
  · rw [rd_wr_apart (by decide), rd_wr_apart (by decide), rd_wr_self _ _ F.HUB_LASTERR_ROW _ (by decide)]
    exact Nat.mod_eq_of_lt hr
  · rw [rd_wr_self _ _ F.HUB_LASTERR_PORT _ (by decide)]
    exact Nat.mod_eq_of_lt hp
  · rw [rd_wr_apart (by decide), rd_wr_apart (by decide), rd_wr_apart (by decide), rd_wr_self _ _ F.HUB_LASTERR_SITE _ (by decide)]
    exact Nat.mod_eq_of_lt hs

end Sys2Proof.Machine
end

section
/-!
PROOFS. The routers of the warp fabric, continued: where a code leads, what an edge does with a packet of the own package, and the clauses of O30
about an input.
-/

namespace Sys2Proof.Machine

/-! ## Where a code leads (R338) -/

theorem moveTo_row {row col code r : Nat} (h : (code = 0 ∧ 0 < row ∧ r = row - 1) ∨ (code = 2 ∧ row < 23 ∧ r = row + 1)) :
    moveTo row col code = .pos r col ∧ r ≠ row := by
  obtain ⟨rfl, h0, rfl⟩ | ⟨rfl, h23, rfl⟩ := h
  · exact ⟨by simp [moveTo, h0.ne'], by omega⟩
  · exact ⟨by simp [moveTo, h23.ne], by omega⟩

theorem moveTo_col {row col code c : Nat} (h : (code = 1 ∧ col ≠ 15 ∧ col ≠ 31 ∧ c = col + 1) ∨ (code = 3 ∧ col ≠ 0 ∧ col ≠ 16 ∧ c + 1 = col) ∨
    (code = 7 ∧ col = 15 ∧ c = 16) ∨ (code = 7 ∧ col = 16 ∧ c = 15)) : moveTo row col code = .pos row c := by
  obtain ⟨rfl, h15, h31, rfl⟩ | ⟨rfl, -, h16, rfl⟩ | ⟨rfl, rfl, rfl⟩ | ⟨rfl, rfl, rfl⟩ := h
  · simp [moveTo, h15, h31]
  · simp [moveTo, h16]
  · rfl
  · rfl

theorem moveTo_edge {row col code ports : Nat} {x : Move} (h : (code = 0 ∧ row = 0 ∧ x = .north ∧ ports = 8) ∨
    (code = 2 ∧ row = 23 ∧ x = .south ∧ ports = 8) ∨ (code = 1 ∧ col = 31 ∧ x = .east ∧ ports = 4) ∨
    (code = 3 ∧ col = 0 ∧ x = .west ∧ ports = 4) ∨ (((code = 1 ∧ col = 15) ∨ (code = 3 ∧ col = 16)) ∧ x = .seam ∧ ports = 16)) :
    moveTo row col code = x ∧ x.ports = ports ∧ ports ≠ 0 ∧ (ports = 8 → (x = .north ↔ row = 0)) := by
  obtain ⟨rfl, rfl, rfl, rfl⟩ | ⟨rfl, rfl, rfl, rfl⟩ | ⟨rfl, rfl, rfl, rfl⟩ | ⟨rfl, rfl, rfl, rfl⟩ | ⟨hc, rfl, rfl⟩ := h
  · exact ⟨rfl, rfl, by decide, fun _ => by simp⟩
  · exact ⟨rfl, rfl, by decide, fun _ => by simp⟩
  · exact ⟨rfl, rfl, by decide, nofun⟩
  · exact ⟨rfl, rfl, by decide, nofun⟩
  · refine ⟨?_, rfl, by decide, nofun⟩
    obtain ⟨rfl, rfl⟩ | ⟨rfl, rfl⟩ := hc <;> rfl

/-! ## A packet of the own package at the edge it leaves by -/

section
variable {s : State} {row mcol col : Nat} {x : Move} {k : Transit} (he : edgeMesh x col mcol = mcol) (hx : hdrXsel k.head < x.ports)
include he hx

theorem edgeGo_reserved (hc : classMax k.vc (hdrClass k.head) = none) (i e : Nat) : edgeGo s row mcol col x k (k.at i e) = s := by
  obtain ⟨ep, hp, -⟩ := edgePort_named x row hx
  rw [edgeGo_port he hp, edgeTake_reserved (by simpa using hc)]

theorem edgeGo_own {n : Nat} (hd : hdrDpkg k.head = selfPkg s) (hc : classMax k.vc (hdrClass k.head) = some n) (i e : Nat) :
    ∃ ep, edgeNames x (hdrXsel k.head) ep ∧ edgeGo s row mcol col x k (k.at i e) =
      if n < hdrFlits k.head then s else send s .forward (row * 34 + mcol) (2 :: ep :: (k.at i e).flits) := by
  obtain ⟨ep, hp, hn⟩ := edgePort_named x row hx
  exact ⟨ep, hn, by rw [edgeGo_port he hp, edgeTake_own (by simpa using hd) (by simpa using hc), Transit.at_len]⟩

end

/-! ## The local port of the column's site -/

section
variable {s : State} {row mcol col : Nat} {k : Transit} (h : ActsAt s row mcol col k) (hc : hopCode k.head (hdrHptr k.head) = 4)
include h hc

/-- At the last code of a packet, or off VC0, nothing follows what the local port does. -/
theorem ActsAt.local_last (hl : hdrHptr k.head + 1 = hdrHend k.head ∨ k.vc ≠ 0) (fuel : Nat) :
    routerAct row mcol (fuel + 1) col k s = localPort s row col k := by
  rw [h.at_local hc, if_neg]
  rintro ⟨hlt, hv⟩
  exact hl.elim (fun he => hlt.ne he) (· hv)

/-- What the local port took stays taken. -/
theorem ActsAt.local_more {o : Out} (ho : o ∈ (localPort s row col k).out) (fuel : Nat) : o ∈ (routerAct row mcol (fuel + 1) col k s).out := by
  rw [h.at_local hc]
  split
  · have hd : hdrDpkg (k.at (hdrHptr k.head + 1) (hdrHend k.head)).head = selfPkg (localPort s row col k) :=
      (k.at_dpkg _ _).trans (h.own.trans (OnlySends.localPort s row col k).self.symm)
    exact (OnlySends.routerAct row mcol fuel col _ _ hd).sent.subset ho
  · exact ho

end

/-! ## A packet with flits that fail (R349) -/

section
variable {s : State} {row mcol port col : Nat} {fs : List LinkFlit} {k : Transit} (h : PacketAt row mcol port fs k)

theorem badFlits_none (ho : ∀ f ∈ fs, f.ok = true) : badFlits fs = 0 := by
  have hn : fs.filter (fun f => !f.ok) = [] := List.filter_eq_nil_iff.2 fun f hf => by simp [ho f hf]
  rw [badFlits, hn]
  rfl

theorem badFlits_some {n : Nat} (hn : findIdx? (fun f => !LinkFlit.ok f) fs = some n) : badFlits fs ≠ 0 := by
  obtain ⟨f, hf, hb⟩ := findIdx_some hn
  exact (List.length_pos_of_mem (List.mem_filter.2 ⟨hf, hb⟩)).ne'

theorem tailBad_none (ho : ∀ f ∈ fs, f.ok = true) : tailBad fs = false := by
  cases hl : fs.getLast? with
  | none => rw [tailBad, hl]; rfl
  | some f => simp [tailBad, hl, ho f (List.mem_of_getLast? hl)]

include h

/-- The rest of a packet that was cut ends the cut with a tail that is sound. -/
theorem PacketAt.routerIn_rest (hc : routerInput row mcol port k.vc ∈ s.cuts) (ho : ∀ f ∈ fs, f.ok = true) (left : Bool) :
    routerIn s row mcol port col fs left = { s with cuts := s.cuts.erase (routerInput row mcol port k.vc) } := by
  rw [h.routerIn_cut hc, tailBad_none ho, badFlits_none ho]
  simp only [crcFail_none, Bool.false_eq_true, if_false]

/-- Flits that fail are counted; a cut lasts where the tail fails with them. -/
theorem PacketAt.routerIn_cuts (hc : routerInput row mcol port k.vc ∉ s.cuts) {n : Nat} (hn : findIdx? (fun f => !LinkFlit.ok f) fs = some n) :
    ∃ c, routerIn s row mcol port col fs false = { crcFail s row mcol port (badFlits fs) true with cuts := c } ∧
      (tailBad fs = true → routerInput row mcol port k.vc ∈ c) ∧ (tailBad fs = false → c = s.cuts) := by
  have hcuts := (crcFail_frame s row mcol port (badFlits fs) true).2
  rw [h.routerIn_bad hc hn]
  cases tailBad fs with
  | false => exact ⟨_, rfl, Bool.noConfusion, fun _ => hcuts⟩
  | true => exact ⟨_, rfl, fun _ => by simp, Bool.noConfusion⟩

end

theorem crcFail_counted {row mcol port n : Nat} (h : stitched mcol port = true) (hn : n ≠ 0) (s : State) (cut : Bool) :
    rd (crcFail s row mcol port n cut) bSeam F.SEAM_CRCERR_COUNT = (rd s bSeam F.SEAM_CRCERR_COUNT + n) % 2 ^ 32 := by
  rw [crcFail_stitched h hn]
  exact rd_wr_self _ _ F.SEAM_CRCERR_COUNT _ (by decide)

end Sys2Proof.Machine
end

section
/-!
PROOFS. The selvedge network and the stitched hops (chapter 10): R363, R365, R369.
-/

namespace Sys2Proof.Machine

/-! ## A stitched hop goes down (R369) -/

theorem bit_sub_self {x i : Nat} (h : bit x i = true) : bit (x - 2 ^ i) i = false := by
  simp only [bit, beq_iff_eq] at h
  have hp : 2 ^ i ≤ x := by
    by_contra hlt
    rw [Nat.div_eq_of_lt (not_le.1 hlt)] at h
    cases h
  have hd : (x - 2 ^ i) / 2 ^ i = x / 2 ^ i - 1 := by simpa using Nat.sub_mul_div x (2 ^ i) 1
  simp only [bit, hd, beq_eq_false_iff_ne]
  omega

theorem stitchedHop_down {row : Fin 24} {s : State} (h : bit (rd s bSeam F.SEAM_LINKUP_UP) row = true) :
    ∃ t, exec (.stitchedHopDown row) s = .next t ∧ bit (rd t bSeam F.SEAM_LINKUP_UP) row = false ∧ rd t bSeam F.FAULTCAUSE_VALID = 1 := by
  refine ⟨_, congrArg Host.Outcome.next (if_pos h), ?_, rd_latchFault_valid ..⟩
  have hlt : rd s bSeam F.SEAM_LINKUP_UP - 2 ^ row.val < 2 ^ fldWidth F.SEAM_LINKUP_UP := lt_of_le_of_lt (Nat.sub_le ..) (fldGet_lt ..)
  rw [rd_latchFault_apart (by decide), rd_wr_self _ _ _ _ (by decide), Nat.mod_eq_of_lt hlt]
  exact bit_sub_self h

/-! ## A packet on the selvedge link (R363, R365) -/

theorem forEach_send_out (k : MsgKind) (a : List Nat) (ds : List Nat) (s : State) :
    (forEach ds (fun d s => send s k d a) s).out = s.out ++ ds.map (fun d => outOf k d a) := by
  induction ds generalizing s with
  | nil => exact (List.append_nil _).symm
  | cons d ds ih =>
    rw [forEach_cons, ih, List.map_cons]
    exact List.append_assoc s.out [outOf k d a] _

theorem hub_of_hubs {s t : State} (h : t.hubs = s.hubs) (i : Nat) : hub t i = hub s i := congrArg (fun x => tabGet Hub.reset x i) h

theorem hub_sendAll (k : MsgKind) (a : List Nat) (ds : List Nat) (s : State) (i : Nat) :
    hub (forEach ds (fun d s => send s k d a) s) i = hub s i := forEach_keeps (fun s => hub s i) (f := fun d s => send s k d a) (fun _ _ => rfl) ds s

theorem hub_inc (s : State) (b : Nat) (f : Fld) (i : Nat) : hub (inc s b f) i = hub s i := rfl

section
variable {s : State} {h : Nat} {hdr : Word} {ws : List Word} {crc : Nat} (hd : (hub s h).selvDown = false)
include hd

/-- A sound packet goes to every block that it names. -/
theorem selvPacket_sound (hc : crc = selvCrc (hdr :: ws)) : (hub (selvPacket s h hdr ws crc) h).selvFail = 0 ∧
    (selvPacket s h hdr ws crc).out = s.out ++ (selvDests s hdr.toNat ws).map (fun d =>
      ⟨.forward, d, [hdr.toNat % 4, bits hdr.toNat 26 15] ++ ws.map (·.toNat)⟩) := by
  unfold selvPacket
  simp only [hd, hc, Bool.false_eq_true, if_false, if_true]
  rw [hub_sendAll, hub_modHub_self]
  exact ⟨rfl, forEach_send_out ..⟩

/-- One that fails its CRC is kept for a replay and counted … -/
theorem selvPacket_retried (hc : crc ≠ selvCrc (hdr :: ws)) (hf : (hub s h).selvFail < 16) :
    let t := selvPacket s h hdr ws crc
    t.out = s.out ∧ (hub t h).selvFail = (hub s h).selvFail + 1 ∧ hdr :: ws ∈ (hub t h).selvReplay ∧
      rd t (bHub h) F.HUB_SELVRETRY_COUNT = (rd s (bHub h) F.HUB_SELVRETRY_COUNT + 1) % 2 ^ 32 := by
  unfold selvPacket
  simp only [hd, hc, hf, Bool.false_eq_true, if_false, if_true]
  rw [hub_inc, hub_modHub_self]
  refine ⟨rfl, rfl, ?_, rd_inc_self _ _ F.HUB_SELVRETRY_COUNT (by decide)⟩
  dsimp only
  split
  next hm => exact List.contains_iff_mem.1 hm
  next => simp

/-- … and the seventeenth in a row takes the link down. -/
theorem selvPacket_fails (hc : crc ≠ selvCrc (hdr :: ws)) (hf : 16 ≤ (hub s h).selvFail) :
    (hub (selvPacket s h hdr ws crc) h).selvDown = true ∧ rd (selvPacket s h hdr ws crc) (bHub h) F.FAULTCAUSE_VALID = 1 := by
  unfold selvPacket
  simp only [hd, hc, hf.not_gt, Bool.false_eq_true, if_false]
  rw [hub_of_hubs (latchFault_hubs ..), hub_modHub_self]
  exact ⟨rfl, rd_latchFault_valid ..⟩

end

/-- With BCAST a packet names every loom of the partition in its first data word, or every loom. -/
theorem bLoom_mem_selvDests {s : State} {w : Nat} {ws : List Word} (hb : bit w 2 = true) (j : LoomId)
    (hj : 16 ≤ ((ws[0]?).getD 0x1F).toNat % 32 ∨ rd s (bLoom j) F.OWNER_PART = ((ws[0]?).getD 0x1F).toNat % 32) : bLoom j ∈ selvDests s w ws := by
  unfold selvDests
  dsimp only
  rw [if_pos hb]
  exact List.mem_map_of_mem (List.mem_filter.2 ⟨List.mem_range.2 j.isLt, by simpa using hj⟩)

theorem selvDests_one {w : Nat} (hb : bit w 2 = false) (s : State) (ws : List Word) : selvDests s w ws = [w / 8 % 4096] := by
  unfold selvDests
  dsimp only
  rw [if_neg (by simp [hb])]
  rfl

/-- A request that times out is a fault of the block whose it is (R51). -/
theorem selvedgeTimeout_faults (l : LoomId) (s : State) : ∃ t, exec (.selvedgeRequestTimeout (some (bLoom l))) s = .next t ∧
    rd t (bLoom l) F.FAULTCAUSE_VALID = 1 ∧ (rd s (bLoom l) F.FAULTCAUSE_VALID = 0 → rd t (bLoom l) F.FAULTCAUSE_CAUSE = 0x8002) :=
  ⟨latchFault s (bLoom l) 0x8002, congrArg Host.Outcome.next (if_pos (by rw [kindOf_bLoom l]; rfl)), rd_latchFault_valid ..,
    fun h => (latchFault_shows s (bLoom l) 0x8002).2 h⟩

end Sys2Proof.Machine
end

section
/-!
PROOFS. The throttle of a loom's network interface (chapter 10): a write of NITHROT (R367).
-/

namespace Sys2Proof.Machine

/-- The fields of NITHROT. -/
def nithrotMask : Word := fldMask F.LOOM_NITHROT_THRON ||| fldMask F.LOOM_NITHROT_THROFF ||| fldMask F.LOOM_NITHROT_VCMASK

theorem nithrot_masks : unguarded .loom F.LOOM_NITHROT_THRON.off = true ∧ codeMask .loom F.LOOM_NITHROT_THRON.off .rws = 0 ∧
    codeMask .loom F.LOOM_NITHROT_THRON.off .rw = nithrotMask ∧ codeMask .loom F.LOOM_NITHROT_THRON.off .w1c = 0 ∧
    codeMask .loom F.LOOM_NITHROT_THRON.off .w1s = 0 := by decide +kernel

theorem fldGet_nithrot (w v : Word) : fldGet F.LOOM_NITHROT_THRON (mergeBits nithrotMask w v) = fldGet F.LOOM_NITHROT_THRON v ∧
    fldGet F.LOOM_NITHROT_THROFF (mergeBits nithrotMask w v) = fldGet F.LOOM_NITHROT_THROFF v :=
  ⟨fldGet_mergeBits (by decide) w v, fldGet_mergeBits (by decide) w v⟩

/-- THRON may be 0, or above THROFF. -/
def nithrotMay (v : Word) : Bool := fldGet F.LOOM_NITHROT_THRON v = 0 || fldGet F.LOOM_NITHROT_THROFF v < fldGet F.LOOM_NITHROT_THRON v

/-- What a write of NITHROT leaves. -/
def nithrotWritten (s : State) (l : Nat) (v : Word) : State :=
  if nithrotMay v then regSet s (bLoom l) F.LOOM_NITHROT_THRON.off 0 (mergeBits nithrotMask (regGet s (bLoom l) F.LOOM_NITHROT_THRON.off 0) v)
  else txnRefuse s (bLoom l)

theorem mayBe_nithrot (s : State) (l : LoomId) (i : Nat) (w : Word) : mayBe s (bLoom l) F.LOOM_NITHROT_THRON.off i w = nithrotMay w := by
  have hc : ¬ F.LOOM_CHDATA0_CHAN.off ≤ F.LOOM_NITHROT_THRON.off := by decide
  have hn : ∀ f ∈ [F.LOOM_THDATA0_THETA, F.LOOM_DQBASE_BASE, F.LOOM_DQSIZE_SIZE, F.LOOM_AFFCFG_AFFBITS, F.LOOM_RCSIZE_SIZE, F.LOOM_BANKOWN_OWNER0,
      F.LOOM_BTESTINT_CYCLES], F.LOOM_NITHROT_THRON.off ≠ f.off := by decide
  simp only [List.forall_mem_cons] at hn
  obtain ⟨h0, h1, h2, h3, h4, h5, h6, -⟩ := hn
  unfold mayBe
  rw [kindOf_bLoom]
  simp only [loomMayBe, h0, h1, h2, h3, h4, h5, h6, hc, false_or, false_and, if_false, if_true]
  rfl

theorem rwWrite_nithrot (s : State) (r : Requester) (l : LoomId) (v : Word) :
    rwWrite s r (bLoom l) F.LOOM_NITHROT_THRON.off 0 nithrotMask v = nithrotWritten s l v := by
  obtain ⟨hon, hoff⟩ := fldGet_nithrot (viewWord s r (bLoom l) F.LOOM_NITHROT_THRON.off) v
  unfold rwWrite
  rw [if_neg (by decide), kindOf_bLoom]
  dsimp only
  rw [if_neg (by decide), mayBe_nithrot, nithrotMay, hon, hoff]
  dsimp only
  rw [nithrotWritten, nithrotMay]
  cases decide (fldGet F.LOOM_NITHROT_THRON v = 0) || decide (fldGet F.LOOM_NITHROT_THROFF v < fldGet F.LOOM_NITHROT_THRON v) <;> rfl

theorem selIndex_nithrot (s : State) (r : Requester) (l : LoomId) : selIndex s r (bLoom l) F.LOOM_NITHROT_THRON.off = 0 := by
  unfold selIndex
  rw [kindOf_bLoom]
  rfl

theorem writeDo_nithrot (s : State) (r : Requester) (l : LoomId) (v : Nat) : writeDo s r (bLoom l) F.LOOM_NITHROT_THRON.off v = s := by
  unfold writeDo
  rw [if_neg (by decide), kindOf_bLoom]
  unfold loomDo
  dsimp only
  rw [if_neg (by decide), if_neg (by decide), if_neg (by decide), if_neg (by decide), if_neg (by decide)]

theorem nithrot_answered {s : State} {r : Requester} {l : LoomId} {v : Word} (h : performed s r (bLoom l) F.LOOM_NITHROT_THRON.off true v = true) :
    answered r (nithrotWritten (windowClose s) l v) (busWrite s r .main (bLoom l) F.LOOM_NITHROT_THRON.off v) := by
  obtain ⟨hg, hs, hw, hc, h1⟩ := nithrot_masks
  refine busWrite_answered h ?_
  have hp : putMain (windowClose s) r (bLoom l) F.LOOM_NITHROT_THRON.off v =
      lineFollow (windowClose s) (nithrotWritten (windowClose s) l v) (bLoom l) := by
    rw [putMain_unguarded (k := .loom) (kindOf_bLoom l) hg (reservedAt_bLoom l _) (by decide), hs, hw, hc, h1]
    dsimp only
    rw [selIndex_nithrot, rwsWrite_zero, rwWrite_nithrot, w1cWrite_zero, w1sWrite_zero, writeDo_nithrot]
  exact hp ▸ lineFollow_frame _ _ _

section
variable {s : State} {r : Requester} {l : LoomId} {v : Word} (h : performed s r (bLoom l) F.LOOM_NITHROT_THRON.off true v = true)
include h

theorem nithrot_taken (hv : fldGet F.LOOM_NITHROT_THRON v = 0 ∨ fldGet F.LOOM_NITHROT_THROFF v < fldGet F.LOOM_NITHROT_THRON v) :
    ∃ t, exec (.loomNithrotWrite r l v) s = .next t ∧ okResp r 0 ∈ t.out ∧
      rd t (bLoom l) F.LOOM_NITHROT_THRON = fldGet F.LOOM_NITHROT_THRON v ∧ rd t (bLoom l) F.LOOM_NITHROT_THROFF = fldGet F.LOOM_NITHROT_THROFF v ∧
      regsBut s t (bLoom l) [F.LOOM_NITHROT_THRON.off] := by
  obtain ⟨-, hregs, hok⟩ := answered_frame (nithrot_answered h)
  obtain ⟨hon, hoff⟩ := fldGet_nithrot (regGet (windowClose s) (bLoom l) F.LOOM_NITHROT_THRON.off 0) v
  rw [nithrotWritten, if_pos (by simpa [nithrotMay] using hv)] at hregs
  have hget := (regGet_congr hregs (bLoom l) F.LOOM_NITHROT_THRON.off 0).trans (regGet_regSet_self ..)
  exact ⟨_, rfl, hok, (congrArg (fldGet F.LOOM_NITHROT_THRON) hget).trans hon, (congrArg (fldGet F.LOOM_NITHROT_THROFF) hget).trans hoff,
    regsBut_windowClose (regsBut_trans (regsBut_regSet _ _ _ (by decide)) (regsBut_of_regs _ _ hregs))⟩

theorem nithrot_refused (h0 : fldGet F.LOOM_NITHROT_THRON v ≠ 0) (hle : fldGet F.LOOM_NITHROT_THRON v ≤ fldGet F.LOOM_NITHROT_THROFF v) :
    ∃ t, exec (.loomNithrotWrite r l v) s = .next t ∧ rd t (bLoom l) F.LOOM_NITHROT_THRON = rd s (bLoom l) F.LOOM_NITHROT_THRON ∧
      rd t (bLoom l) F.TXNREFUSE_COUNT = (rd s (bLoom l) F.TXNREFUSE_COUNT + 1) % 2 ^ 32 := by
  obtain ⟨-, hregs, -⟩ := answered_frame (nithrot_answered h)
  rw [nithrotWritten, if_neg (by simp [nithrotMay, h0, hle])] at hregs
  refine ⟨_, rfl, (rd_congr hregs ..).trans ?_, (rd_congr hregs ..).trans ?_⟩
  · rw [txnRefuse, rd_inc_apart (by decide), rd_windowClose]
  · rw [txnRefuse, rd_inc_self _ _ _ (by decide), rd_windowClose]
    rfl

end

end Sys2Proof.Machine
end

section
/-!
PROOFS. Row maps and isolation (chapter 10): GO, the last router's answer, and a write of ROWISO (R353 to R355).
-/

namespace Sys2Proof.Machine

/-! ## Registers that any requester or Custody may write -/

/-- No row of the register is guarded but by Custody. -/
def custodial (k : Kind) (off : Nat) : Bool := (rowsAt k off).all (fun x => x.guard == .any || x.guard == .custody)

theorem accMask_custodial {k : Kind} {off : Nat} (h : custodial k off = true) {r : Requester} (hr : isCustody r = true) (s : State) (e : Bool)
    (a : Acc) : accMask s k r e off a = codeMask k off a := by
  unfold accMask codeMask maskWhere
  refine List.foldl_ext _ _ _ fun m x hx => ?_
  have hg := List.all_eq_true.1 h x hx
  simp only [Bool.or_eq_true, beq_iff_eq] at hg
  obtain hg | hg := hg <;> simp [hg, guardOk, hr]

/-- A main-page write by Custody. -/
theorem putMain_custodial {b off : Nat} {k : Kind} {r : Requester} (hk : kindOf b = some k) (ht : k ≠ .timer) (hg : custodial k off = true)
    (hr : isCustody r = true) (hv : reservedAt b off = false) (hc : off ≠ F.CONTROL_RESETREQ.off) (s : State) (v : Word) :
    let i := selIndex s r b off
    putMain s r b off v = lineFollow s (writeDo (w1sWrite (w1cWrite (rwWrite (rwsWrite s r b off i (codeMask k off .rws) v) r b off i
      (codeMask k off .rw) v) b off i (codeMask k off .w1c) v) b off (codeMask k off .w1s) v) r b off v.toNat) b := by
  unfold putMain
  simp only [hk, hv, hc, false_and, if_false, expertRw_eq_zero ht, accMask_custodial hg hr, rwsMask, word_or_zero, word_and_not_zero]
  rfl

/-! ## What a write sends -/

theorem out_lineFollow (old s : State) (b : Nat) : s.out <+: (lineFollow old s b).out := by
  have hl : ∀ (t : State) (m c : Nat), t.out <+: (faultLine t b m c).out := fun t m c => List.prefix_append _ _
  unfold lineFollow
  dsimp only
  split
  · have hs : s.out <+: (send s .apc b [1]).out := List.prefix_append _ _
    split
    · exact hs.trans (hl _ _ _)
    · exact hs
  · split
    · exact hl _ _ _
    · exact List.prefix_rfl

/-- A performed write that leaves `u` sends what `u` sent, and its answer. -/
theorem busWrite_leaves {s u : State} {r : Requester} {b off : Nat} {v : Word} (h : performed s r b off true v = true)
    (hp : putMain (windowClose s) r b off v = lineFollow (windowClose s) u b) :
    answered r u (busWrite s r .main b off v) ∧ u.out <+: (busWrite s r .main b off v).out := by
  refine ⟨busWrite_answered h (hp ▸ lineFollow_frame _ _ _), ?_⟩
  rw [busWrite_performed .main h]
  show u.out <+: (send (putMain (windowClose s) r b off v) _ _ _).out
  rw [hp]
  exact (out_lineFollow _ _ _).trans (List.prefix_append _ _)

theorem answered_hubs {r : Requester} {u t : State} (h : answered r u t) : t.hubs = u.hubs := by
  obtain ⟨⟨n, o, e⟩, -⟩ := h
  rw [e]

/-! ## Hubs -/

theorem kindOf_bHub (h : HubId) : kindOf (bHub h) = some .hub := by
  have hl := h.isLt
  unfold kindOf bHub
  repeat rw [if_neg (by omega)]
  exact if_pos (by omega)

theorem reservedAt_bHub (h : HubId) (off : Nat) : reservedAt (bHub h) off = false := by
  have hl := h.isLt
  have hb : decide (bHub h ≤ bGlimmer 7) = false ∨ decide (bGlimmer 0 < bHub h) = false := by
    simp only [decide_eq_false_iff_not, bHub, bGlimmer]
    omega
  obtain hb | hb := hb <;> simp [reservedAt, hb]

theorem bHub_site (h : Nat) : bHub h - bHub 0 = h := by simp only [bHub]; omega

theorem rowsel_lt (s : State) (b : Nat) : rd s b F.HUB_ROWSEL_ROW < 65536 := lt_trans (fldGet_lt F.HUB_ROWSEL_ROW _) (by decide)

theorem rdI_windowClose (s : State) (b : Nat) (f : Fld) (i : Nat) : rdI (windowClose s) b f i = rdI s b f i := rdI_congr (windowClose_regs s) b f i

theorem hub_windowClose (s : State) (h : Nat) : hub (windowClose s) h = hub s h := hub_of_hubs (windowClose_hubs s) h

theorem stagedMap_congr {s t : State} (h : t.regs = s.regs) : stagedMap t = stagedMap s := by
  funext b i
  simp only [stagedMap, rdI_congr h]

/-! ## GO (R354) -/

/-- What GO asks of a map. -/
def MapGood (s : State) (h i : Nat) : Prop :=
  (∀ c ∈ stagedMap s h i, c = 0x1F ∨ (c ≤ 16 ∧ bit (rdI s (bHub h) F.HUB_ROWPASS_PASS i) c = false)) ∧
    ((stagedMap s h i).filter (fun c => c != 0x1F)).Nodup

theorem mapOk_iff (s : State) (h i : Nat) : mapOk s h i (stagedMap s h i) = true ↔ MapGood s h i := by
  have hs : ∀ c, (c ∈ stagedMap s h i ∧ c ≠ 0x1F → c ≤ 16 ∧ bit (rdI s (bHub h) F.HUB_ROWPASS_PASS i) c = false) ↔
      (c ∈ stagedMap s h i → c = 0x1F ∨ (c ≤ 16 ∧ bit (rdI s (bHub h) F.HUB_ROWPASS_PASS i) c = false)) := fun c => by tauto
  simp only [mapOk, MapGood, Bool.and_eq_true, List.all_eq_true, decide_eq_true_eq, Bool.not_eq_true', List.mem_filter, bne_iff_ne, hs]

theorem mapGood_windowClose (s : State) (h i : Nat) : MapGood (windowClose s) h i ↔ MapGood s h i := by
  simp only [MapGood, stagedMap_congr (windowClose_regs s), rdI_windowClose]

/-- The hub of a row-half that takes the map `m`. -/
def mappedHub (i : Nat) (m : List Nat) (x : Hub) : Hub :=
  { x with map := x.map.take (16 * i) ++ m ++ x.map.drop (16 * i + 16), mapping := x.mapping.filter (· != i) ++ [i] }

theorem rowGo_taken {s : State} {h i : Nat} (hg : MapGood s h i) : rowGo s h i =
    send (wrI (modHub s h (mappedHub i (stagedMap s h i))) (bHub h) F.HUB_ROWSTAT_BUSY i 1) .rowMap (bHub h) (i :: stagedMap s h i) :=
  if_pos ((mapOk_iff s h i).2 hg)

theorem hub_rowGo {s : State} {h i : Nat} (hg : MapGood s h i) : hub (rowGo s h i) h = mappedHub i (stagedMap s h i) (hub s h) := by
  rw [rowGo_taken hg]
  exact hub_modHub_self s h _

theorem rowGo_refused {s : State} {h i : Nat} (hg : ¬ MapGood s h i) :
    rowGo s h i = txnRefuse (wrI s (bHub h) F.HUB_ROWSTAT_REFUSED i 1) (bHub h) := if_neg (mt (mapOk_iff s h i).1 hg)

theorem rowgo_masks : custodial .hub F.HUB_ROWGO_GO.off = true ∧ codeMask .hub F.HUB_ROWGO_GO.off .rws = 0 ∧
    codeMask .hub F.HUB_ROWGO_GO.off .rw = 0 ∧ codeMask .hub F.HUB_ROWGO_GO.off .w1c = 0 ∧ codeMask .hub F.HUB_ROWGO_GO.off .w1s = 0 := by
  decide +kernel

theorem writeDo_rowgo {r : Requester} (hr : isCustody r = true) (s : State) (h : HubId) (v : Word) :
    writeDo s r (bHub h) F.HUB_ROWGO_GO.off (fldSet F.HUB_ROWGO_GO v 1).toNat = rowGo s h (rd s (bHub h) F.HUB_ROWSEL_ROW) := by
  have hb : bit (fldSet F.HUB_ROWGO_GO v 1).toNat 0 = true := by
    rw [bit_lo (f := F.HUB_ROWGO_GO) rfl, fldGet_fldSet_self _ _ _ (by decide)]
    rfl
  unfold writeDo
  rw [if_neg (by decide), kindOf_bHub]
  unfold hubDo
  dsimp only
  rw [if_neg (by decide), if_pos rfl, if_pos ⟨hb, hr⟩, bHub_site]

/-- A performed write of ROWGO by Custody. -/
theorem rowgo_left {s : State} {r : Requester} {h : HubId} {v : Word}
    (hp : performed s r (bHub h) F.HUB_ROWGO_GO.off true (fldSet F.HUB_ROWGO_GO v 1) = true) (hr : isCustody r = true) :
    ∃ t, exec (.hubRowgo r h v) s = .next t ∧ answered r (rowGo (windowClose s) h (rd s (bHub h) F.HUB_ROWSEL_ROW)) t ∧
      (rowGo (windowClose s) h (rd s (bHub h) F.HUB_ROWSEL_ROW)).out <+: t.out := by
  obtain ⟨hg, hs, hw, hc, h1⟩ := rowgo_masks
  refine ⟨_, rfl, busWrite_leaves hp ?_⟩
  rw [putMain_custodial (kindOf_bHub h) (by decide) hg hr (reservedAt_bHub h _) (by decide), hs, hw, hc, h1]
  dsimp only
  rw [rwsWrite_zero, rwWrite_none, w1cWrite_zero, w1sWrite_zero, writeDo_rowgo hr, rd_windowClose]

section
variable {s : State} {r : Requester} {h : HubId} {v : Word}
  (hp : performed s r (bHub h) F.HUB_ROWGO_GO.off true (fldSet F.HUB_ROWGO_GO v 1) = true) (hr : isCustody r = true)
include hp hr

theorem rowgo_taken (hg : MapGood s h (rd s (bHub h) F.HUB_ROWSEL_ROW)) :
    let k := rd s (bHub h) F.HUB_ROWSEL_ROW
    let m := stagedMap s h k
    ∃ t, exec (.hubRowgo r h v) s = .next t ∧ okResp r 0 ∈ t.out ∧ rdI t (bHub h) F.HUB_ROWSTAT_BUSY k = 1 ∧
      (hub t h).map = (hub s h).map.take (16 * k) ++ m ++ (hub s h).map.drop (16 * k + 16) ∧ k ∈ (hub t h).mapping ∧
      ⟨.rowMap, bHub h, k :: m⟩ ∈ t.out := by
  intro k m
  obtain ⟨t, ht, ha, hout⟩ := rowgo_left hp hr
  have hw := (mapGood_windowClose s h k).2 hg
  have hm : stagedMap (windowClose s) h k = m := by rw [stagedMap_congr (windowClose_regs s)]
  obtain ⟨-, hregs, hok⟩ := answered_frame ha
  have hh : hub t h = mappedHub k m (hub s h) := by rw [hub_of_hubs (answered_hubs ha), hub_rowGo hw, hm, hub_windowClose]
  have hrt := rowGo_taken hw
  rw [hm] at hrt
  refine ⟨t, ht, hok, ?_, by rw [hh]; rfl, by rw [hh]; exact List.mem_append_right _ (List.mem_singleton_self _),
    hout.subset (by rw [hrt]; exact List.mem_append_right _ (List.mem_singleton_self _))⟩
  rw [rdI_congr hregs, hrt]
  exact rdI_wrI_self _ _ F.HUB_ROWSTAT_BUSY _ _ (by decide)

theorem rowgo_refused (hg : ¬ MapGood s h (rd s (bHub h) F.HUB_ROWSEL_ROW)) :
    ∃ t, exec (.hubRowgo r h v) s = .next t ∧ rdI t (bHub h) F.HUB_ROWSTAT_REFUSED (rd s (bHub h) F.HUB_ROWSEL_ROW) = 1 ∧ t.hubs = s.hubs ∧
      rd t (bHub h) F.TXNREFUSE_COUNT = (rd s (bHub h) F.TXNREFUSE_COUNT + 1) % 2 ^ 32 := by
  obtain ⟨t, ht, ha, -⟩ := rowgo_left hp hr
  have hk := rowsel_lt s (bHub h)
  generalize rd s (bHub h) F.HUB_ROWSEL_ROW = k at hg ha hk ⊢
  rw [rowGo_refused (mt (mapGood_windowClose s h k).1 hg)] at ha
  obtain ⟨-, hregs, -⟩ := answered_frame ha
  refine ⟨t, ht, (rdI_congr hregs ..).trans ?_, ?_, (rd_congr hregs ..).trans ?_⟩
  · rw [txnRefuse, inc, incBy, wr, rdI_wrI_ne _ _ _ _ _ _ _ _ (regKey_ne (by decide) (by decide) hk (by decide) (.inr (.inl (by decide)))),
      rdI_wrI_self _ _ F.HUB_ROWSTAT_REFUSED _ _ (by decide)]
    rfl
  · exact (answered_hubs ha).trans (windowClose_hubs s)
  · rw [txnRefuse, rd_inc_self _ _ F.TXNREFUSE_COUNT (by decide), rd_wrI_apart (by decide) _ _ _ _ hk, rd_windowClose]
    rfl

end

/-! ## The last router has the map -/

/-- The hub of a row-half whose last router has the map. -/
def settledHub (i : Nat) (x : Hub) : Hub := { x with mapping := x.mapping.filter (· != i) }

theorem rowApplied_ends {s : State} {h i : Nat} (hm : i ∈ (hub s h).mapping) : i ∉ (hub (rowApplied s h i) h).mapping ∧
    rdI (rowApplied s h i) (bHub h) F.HUB_ROWSTAT_BUSY i = 0 ∧ (hub (rowApplied s h i) h).map = (hub s h).map := by
  have he : rowApplied s h i = wrI (modHub s h (settledHub i)) (bHub h) F.HUB_ROWSTAT_BUSY i 0 := if_pos (List.contains_iff_mem.2 hm)
  have hh : hub (rowApplied s h i) h = settledHub i (hub s h) := by
    rw [he]
    exact hub_modHub_self s h _
  refine ⟨by simp [hh, settledHub], ?_, by rw [hh, settledHub]⟩
  rw [he]
  exact rdI_wrI_self _ _ F.HUB_ROWSTAT_BUSY _ _ (by decide)

theorem rowApplied_rests {s : State} {h i : Nat} (hm : i ∉ (hub s h).mapping) : rowApplied s h i = s :=
  if_neg (mt List.contains_iff_mem.1 hm)

/-! ## Isolated sites (R355) -/

/-- A field of another register than FAULTCAUSE. -/
theorem rdI_latchFault {g : Fld} (hg : g.off < 4096) (hn : ∀ f ∈ [F.FAULTCAUSE_VALID, F.FAULTCAUSE_CAUSE, F.FAULTCAUSE_REPEAT], g.off ≠ f.off)
    {i : Nat} (hi : i < 65536) (s : State) (b code b' : Nat) : rdI (latchFault s b code) b' g i = rdI s b' g i := by
  have hf : ∀ f ∈ [F.FAULTCAUSE_VALID, F.FAULTCAUSE_CAUSE, F.FAULTCAUSE_REPEAT], f.off < 4096 := by decide
  have hw : ∀ f ∈ [F.FAULTCAUSE_VALID, F.FAULTCAUSE_CAUSE, F.FAULTCAUSE_REPEAT], ∀ t v, rdI (wr t b f v) b' g i = rdI t b' g i :=
    fun f hm t v => rdI_wrI_ne _ _ _ _ _ _ _ _ (regKey_ne hg (hf f hm) hi (by decide) (.inr (.inl (hn f hm))))
  simp only [List.forall_mem_cons] at hw
  obtain ⟨hv, hc, hr, -⟩ := hw
  unfold latchFault latchCause
  split
  · calc rdI _ b' g i = rdI (wr (wr (wr s b F.FAULTCAUSE_VALID 1) b F.FAULTCAUSE_CAUSE code) b F.FAULTCAUSE_REPEAT 0) b' g i := rdI_congr rfl _ _ _
      _ = rdI s b' g i := by rw [hr, hc, hv]
  · exact hr s _

/-- A fault that is latched stays so when another is. -/
theorem valid_latchFault {s : State} {b : Nat} (h : rd s b F.FAULTCAUSE_VALID = 1) (b' code : Nat) :
    rd (latchFault s b' code) b F.FAULTCAUSE_VALID = 1 := by
  by_cases hb : b = b'
  · exact hb ▸ rd_latchFault_valid ..
  · rw [rd_latchFault_block (by decide) _ _ hb, h]

/-- What a site newly isolated asks for. -/
def isoSite (h i iso old site : Nat) (s : State) : State :=
  if bit iso site && !bit old site then ((loomAt s h i site).elim s fun l => latchFault s (bLoom l) 0x8005) else s

theorem rowIso_eq (s : State) (h i iso : Nat) : rowIso s h i iso =
    forEach (List.range 17) (isoSite h i iso (rdI s (bHub h) F.HUB_ROWISO_ISO i)) (wrI s (bHub h) F.HUB_ROWISO_ISO i iso) := by
  unfold rowIso
  dsimp only
  congr 1
  funext site t
  unfold isoSite
  cases loomAt t h i site <;> rfl

/-- Each site leaves its state, or one in which a loom has latched a fault. -/
theorem isoSite_cases (h i iso old site : Nat) (s : State) : isoSite h i iso old site s = s ∨
    ∃ l, isoSite h i iso old site s = latchFault s (bLoom l) 0x8005 := by
  unfold isoSite
  split
  · cases loomAt s h i site with
    | none => exact .inl rfl
    | some l => exact .inr ⟨l, rfl⟩
  · exact .inl rfl

theorem loomAt_congr {s t : State} (h : t.hubs = s.hubs) : loomAt t = loomAt s := by
  funext j i site
  rw [loomAt, hub_of_hubs h, loomAt]

section
variable (s : State) (h : Nat) {i iso : Nat}

theorem rdI_rowIso (hl : iso < 2 ^ 17) (hi : i < 65536) : rdI (rowIso s h i iso) (bHub h) F.HUB_ROWISO_ISO i = iso := by
  rw [rowIso_eq, forEach_keeps (fun t => rdI t (bHub h) F.HUB_ROWISO_ISO i) (fun site t => ?_),
    rdI_wrI_self _ _ F.HUB_ROWISO_ISO _ _ (by decide)]
  · exact Nat.mod_eq_of_lt hl
  · obtain e | ⟨l, e⟩ := isoSite_cases h i iso (rdI s (bHub h) F.HUB_ROWISO_ISO i) site t
    · rw [e]
    · rw [e, rdI_latchFault (by decide) (by decide) hi]

theorem rowIso_faults {site l : Nat} (hs : site < 17) (hn : bit iso site = true) (ho : bit (rdI s (bHub h) F.HUB_ROWISO_ISO i) site = false)
    (hl : loomAt s h i site = some l) : rd (rowIso s h i iso) (bLoom l) F.FAULTCAUSE_VALID = 1 := by
  rw [rowIso_eq]
  refine forEach_reaches (fun t => t.hubs = s.hubs) (fun t => rd t (bLoom l) F.FAULTCAUSE_VALID = 1) (fun k t ht => ?_) (fun k t ht => ?_)
    (fun t ht => ?_) (List.mem_range.2 hs) rfl
  · obtain e | ⟨j, e⟩ := isoSite_cases h i iso (rdI s (bHub h) F.HUB_ROWISO_ISO i) k t
    · rw [e, ht]
    · rw [e, latchFault_hubs, ht]
  · obtain e | ⟨j, e⟩ := isoSite_cases h i iso (rdI s (bHub h) F.HUB_ROWISO_ISO i) k t
    · rw [e, ht]
    · rw [e, valid_latchFault ht]
  · rw [isoSite, hn, ho, loomAt_congr ht, hl]
    exact rd_latchFault_valid ..

end

theorem rowiso_masks : custodial .hub F.HUB_ROWISO_ISO.off = true ∧ codeMask .hub F.HUB_ROWISO_ISO.off .rws = 0 ∧
    codeMask .hub F.HUB_ROWISO_ISO.off .rw = fldMask F.HUB_ROWISO_ISO ∧ codeMask .hub F.HUB_ROWISO_ISO.off .w1c = 0 ∧
    codeMask .hub F.HUB_ROWISO_ISO.off .w1s = 0 := by decide +kernel

theorem mayBe_rowiso (s : State) (h : HubId) (i : Nat) (w : Word) : mayBe s (bHub h) F.HUB_ROWISO_ISO.off i w = true := by
  unfold mayBe
  rw [kindOf_bHub]
  dsimp only
  unfold hubMayBe
  rw [if_neg (by decide), if_neg (by decide)]

theorem rwWrite_rowiso (s : State) (r : Requester) (h : HubId) (i : Nat) (v : Word) :
    rwWrite s r (bHub h) F.HUB_ROWISO_ISO.off i (fldMask F.HUB_ROWISO_ISO) v = rowIso s h i (fldGet F.HUB_ROWISO_ISO v) := by
  unfold rwWrite
  rw [if_neg (by decide), kindOf_bHub]
  dsimp only
  rw [if_pos (mayBe_rowiso s h i _)]
  unfold hubRw
  dsimp only
  rw [if_neg (by decide), if_pos rfl]
  dsimp only
  rw [fldGet_mergeBits (by decide), bHub_site]

theorem selIndex_rowiso (s : State) (r : Requester) (h : HubId) : selIndex s r (bHub h) F.HUB_ROWISO_ISO.off = rd s (bHub h) F.HUB_ROWSEL_ROW := by
  unfold selIndex
  rw [kindOf_bHub]
  rfl

theorem writeDo_rowiso (s : State) (r : Requester) (h : HubId) (v : Nat) : writeDo s r (bHub h) F.HUB_ROWISO_ISO.off v = s := by
  unfold writeDo
  rw [if_neg (by decide), kindOf_bHub]
  unfold hubDo
  dsimp only
  rw [if_neg (by decide), if_neg (by decide), if_neg (by decide), if_neg (by decide), if_neg (by decide), if_neg (by decide), if_neg (by decide)]

theorem rowiso_isolates {s : State} {r : Requester} {h : HubId} {v : Word} (hp : performed s r (bHub h) F.HUB_ROWISO_ISO.off true v = true)
    (hr : isCustody r = true) :
    let k := rd s (bHub h) F.HUB_ROWSEL_ROW
    let iso := fldGet F.HUB_ROWISO_ISO v
    ∃ t, exec (.hubRowisoWrite r h v) s = .next t ∧ okResp r 0 ∈ t.out ∧ rdI t (bHub h) F.HUB_ROWISO_ISO k = iso ∧
      ∀ site l, site < 17 → bit iso site = true → bit (rdI s (bHub h) F.HUB_ROWISO_ISO k) site = false →
        loomAt s h k site = some l → rd t (bLoom l) F.FAULTCAUSE_VALID = 1 := by
  intro k iso
  obtain ⟨hg, hs, hw, hc, h1⟩ := rowiso_masks
  have hleft : putMain (windowClose s) r (bHub h) F.HUB_ROWISO_ISO.off v = lineFollow (windowClose s) (rowIso (windowClose s) h k iso) (bHub h) := by
    rw [putMain_custodial (kindOf_bHub h) (by decide) hg hr (reservedAt_bHub h _) (by decide), hs, hw, hc, h1]
    dsimp only
    rw [selIndex_rowiso, rwsWrite_zero, rwWrite_rowiso, w1cWrite_zero, w1sWrite_zero, writeDo_rowiso, rd_windowClose]
  obtain ⟨-, hregs, hok⟩ := answered_frame (busWrite_leaves hp hleft).1
  refine ⟨_, rfl, hok, (rdI_congr hregs ..).trans (rdI_rowIso _ _ (fldGet_lt F.HUB_ROWISO_ISO v) (rowsel_lt s _)),
    fun site l hsite hn ho hl => ?_⟩
  refine (rd_congr hregs ..).trans (rowIso_faults (windowClose s) h hsite hn ?_ ?_)
  · rw [rdI_windowClose, ho]
  · rw [loomAt_congr (windowClose_hubs s), hl]

end Sys2Proof.Machine
end

section
/-!
PROOFS. O30.
-/

namespace Sys2Proof.Machine

/-- Settles O30: at an input, the router's clauses follow from what its code does at the column's site; on the selvedge network and at a hub,
each command is one of the machine's operations. -/
theorem fabricAndRowMaps : Obligations.FabricAndRowMaps := by
  refine ⟨?_, ?_, ?_⟩
  · intro row mcol port col fs left k s i e code next l half key run onwards nBad hv hk hp hd
    have hat : PacketAt row mcol port fs k := ⟨hv, hk, hp⟩
    refine ⟨fun hc ho => congrArg Host.Outcome.next (hat.routerIn_rest hc ho left), fun hc ho ha => ?_, fun n hc hn hleft => ?_⟩
    · have goes : ∀ {t : State}, routerAct row mcol 64 col k s = t → run = .next t :=
        fun h => congrArg Host.Outcome.next ((hat.routerIn_sound hc ho ha left).trans h)
      refine ⟨fun h => goes (routerAct_ended hd h 63), fun hl => ⟨fun m hm hne hx => goes (routerAct_away hd hl hm hne hx 63),
        fun m x hm hne hx hpast he => goes ((routerAct_leaving hd hl hm hne hx hpast 63).trans (edgeGo_along he k _)), fun hm => ?_,
        fun hm h4 he => ?_⟩⟩
      · have hact : ActsAt s row mcol col k := ⟨hd, hl, filter_here hm⟩
        refine ⟨fun h0 hr => ?_, fun h2 hr => ?_, fun c m hcode hcm hne => goes (hact.col_step (moveTo_col hcode) hcm hne 63),
          fun h5 hv => goes (hact.branches h5 hv 63), fun x ports hx => ?_, fun h4 hi n hcl => ?_, fun h4 he hi hcl => ?_, fun h4 he hi => ?_⟩
        · obtain ⟨hx, hne⟩ := moveTo_row (col := col) (.inl ⟨h0, hr, rfl⟩)
          exact goes (hact.row_step hx hne 63)
        · obtain ⟨hx, hne⟩ := moveTo_row (col := col) (.inr ⟨h2, hr, rfl⟩)
          exact goes (hact.row_step hx hne 63)
        · obtain ⟨hmove, rfl, h0, h8⟩ := moveTo_edge hx
          have hedge := hact.leaves hmove h0 63
          refine ⟨fun he => goes (hedge.trans (edgeGo_along he k _)), fun he hsel n hcl => ?_,
            fun he hsel hcl => goes (hedge.trans (edgeGo_reserved he hsel hcl _ _)), fun he hsel => goes (hedge.trans (edgeGo_dropped he hsel _))⟩
          obtain ⟨ep, ⟨hw, heast, hs, hns⟩, hgo⟩ := edgeGo_own (row := row) he hsel hd hcl i.succ e
          refine ⟨fun hlt => goes (hedge.trans (hgo.trans (if_pos hlt))), fun hle => ⟨ep, goes (hedge.trans (hgo.trans (if_neg hle.not_gt))),
            hw, heast, hs, fun hports h4 => ?_⟩⟩
          rw [hns hports h4, if_congr (h8 hports) rfl rfl]
        · have hport := localPort_open hm hi ha hcl
          refine ⟨fun hle hlast => goes ((hact.local_last h4 hlast 63).trans (hport.trans (if_neg hle.not_gt))),
            fun hle hlt hv => ⟨_, goes rfl, hact.local_more h4 ?_ 63⟩,
            fun hlt he => goes ((hact.local_last h4 (.inl he) 63).trans (hport.trans (if_pos hlt)))⟩
          rw [hport, if_neg hle.not_gt]
          exact List.mem_append_right _ (List.mem_singleton_self _)
        · exact goes ((hact.local_last h4 (.inl he) 63).trans (localPort_reserved hm hi ha hcl))
        · exact goes ((hact.local_last h4 (.inl he) 63).trans (localPort_isolated col.isLt hm hi k))
      · have hact : ActsAt s row mcol col k := ⟨hd, hl, by rw [hm]; rfl⟩
        exact goes ((hact.local_last h4 (.inl he) 63).trans (localPort_noSite hm k))
    · subst hleft
      obtain ⟨c, hin, hcut, hcuts⟩ := hat.routerIn_cuts (col := col) hc hn
      have hbad : badFlits fs ≠ 0 := badFlits_some hn
      refine ⟨{ crcFail s row mcol port (badFlits fs) true with cuts := c }, congrArg Host.Outcome.next hin,
        (crcFail_frame s row mcol port _ true).1, fun ht => hcut (by simp [tailBad, ht]), fun ht => hcuts (by simp [tailBad, ht]),
        fun hst => crcFail_counted hst hbad s true, fun hst => ?_⟩
      obtain ⟨hflits, hpacket, hrow, hport, hsite⟩ := crcFail_noted hst hbad (lt_trans row.isLt (by decide)) (lt_trans port.isLt (by decide)) s
      exact ⟨hflits, hpacket, hrow, hport, hsite⟩
  · intro row h hdr crc ws r l v s w data recv
    refine ⟨stitchedHop_down, fun hd => congrArg Host.Outcome.next (if_pos hd), fun hd => ⟨fun hc => ⟨fun hb => ?_, fun hb => ?_⟩,
      fun hc hf => ?_, fun hc hf => ?_⟩, selvedgeTimeout_faults l s, fun hp => ⟨nithrot_taken hp, nithrot_refused hp⟩⟩
    · obtain ⟨hfail, hout⟩ := selvPacket_sound hd hc
      exact ⟨_, rfl, by rw [hout, selvDests_one hb]; rfl, hfail⟩
    · obtain ⟨hfail, hout⟩ := selvPacket_sound hd hc
      exact ⟨_, rfl, hfail, fun j hj => by
        rw [hout]
        exact List.mem_append_right _ (List.mem_map_of_mem (bLoom_mem_selvDests hb j hj))⟩
    · exact ⟨_, rfl, selvPacket_retried hd hc hf⟩
    · exact ⟨_, rfl, selvPacket_fails hd hc hf⟩
  · intro r h i v s b k m good
    refine ⟨fun hp hr => ⟨rowgo_taken hp hr, rowgo_refused hp hr⟩, fun hm => ⟨_, rfl, rowApplied_ends hm⟩,
      fun hm => congrArg Host.Outcome.next (rowApplied_rests hm), rowiso_isolates⟩

end Sys2Proof.Machine
end

section
/-!
PROOFS. Route records of a loom (chapter 04): the directory's requests and answers, the fill of a record and the gathering of the chains (R127,
R135, R136, R350, R352).
-/

namespace Sys2Proof.Machine

/-! ## What the network interface keeps -/

theorem niSend_looms (s : State) (l d : Nat) (k : MsgKind) (a : List Nat) : (niSend s l d k a).looms = s.looms := by
  unfold niSend
  split
  · rfl
  · split <;> rfl

theorem hbmFeed_looms (req c n : Nat) (s : State) : (hbmFeed req c n s).looms = s.looms := by
  induction n generalizing s with
  | zero => rfl
  | succ n ih =>
    unfold hbmFeed
    dsimp only
    split
    · rfl
    · split
      · rfl
      · exact (ih _).trans (niSend_looms ..)

theorem hbmAsk_looms (s : State) (req : Nat) (write : Bool) (a size : Nat) (d : List Byte) : (hbmAsk s req write a size d).looms = s.looms :=
  hbmFeed_looms ..

/-! ## Packets that the interface takes (R352, R355) -/

section
variable {s : State} {l part : Nat} (hi : isolated s l = false) (f : State → State)
include hi

theorem niTake_foreign (hp : part ≠ rd s (bLoom l) F.OWNER_PART) :
    niTake s l part f = latchFault (inc (inc s (bLoom l) F.LOOM_NIPKTRX_COUNT) (bLoom l) F.LOOM_PARTDROP_COUNT) (bLoom l) 0x0115 := by
  unfold niTake
  dsimp only
  rw [if_neg (by simp [hi]), rd_inc_apart (by decide), if_pos hp]

theorem niTake_mine (hp : part = rd s (bLoom l) F.OWNER_PART) : niTake s l part f = f (inc s (bLoom l) F.LOOM_NIPKTRX_COUNT) := by
  unfold niTake
  dsimp only
  rw [if_neg (by simp [hi]), rd_inc_apart (by decide), if_neg (not_not.2 hp)]

/-- A directory request that is sent. -/
theorem dirAsk_open (pop : Nat) : dirAsk s l pop =
    send (inc s (bLoom l) F.LOOM_NIPKTTX_COUNT) .dirReq (bLoom l) (niFields s l 1 2 (0x410 + pop % 16) 1 [l, pop]) := by
  unfold dirAsk niSend
  rw [if_neg (by simp), if_neg (by simp [hi])]

end

/-! ## Records by their index -/

/-- The record of a population that comes first in a list. -/
def recAt (rs : List RouteRec) (pop idx : Nat) : Option RouteRec := rs.find? (fun r => r.pop = pop && r.idx = idx)

theorem recAt_append (rs xs : List RouteRec) (pop idx : Nat) : recAt (rs ++ xs) pop idx = (recAt rs pop idx).or (recAt xs pop idx) :=
  List.find?_append

theorem recAt_some {rs : List RouteRec} {pop idx : Nat} {r : RouteRec} (h : recAt rs pop idx = some r) : r ∈ rs ∧ r.pop = pop ∧ r.idx = idx :=
  ⟨List.mem_of_find?_eq_some h, by simpa using List.find?_some h⟩

theorem recAt_ne_none {rs : List RouteRec} {r : RouteRec} (h : r ∈ rs) : recAt rs r.pop r.idx ≠ none := by
  intro hn
  simpa using List.find?_eq_none.1 hn r h

theorem chainWalk_congr {rs xs : List RouteRec} (h : recAt xs = recAt rs) (pop fuel idx : Nat) :
    chainWalk xs pop fuel idx = chainWalk rs pop fuel idx := by
  induction fuel generalizing idx with
  | zero => rfl
  | succ fuel ih =>
    have hf : xs.find? (fun r => r.pop = pop && r.idx = idx) = rs.find? (fun r => r.pop = pop && r.idx = idx) := congrFun (congrFun h pop) idx
    simp only [chainWalk, hf, ih]

/-- A chain consists of records by their own index … -/
theorem recAt_of_chain {rs : List RouteRec} {pop fuel idx : Nat} {r : RouteRec} (h : r ∈ (chainWalk rs pop fuel idx).1) :
    recAt rs r.pop r.idx = some r := by
  induction fuel generalizing idx with
  | zero => cases h
  | succ fuel ih =>
    unfold chainWalk at h
    split at h
    · cases h
    next x hx =>
      obtain ⟨-, rfl, rfl⟩ := recAt_some (rs := rs) hx
      split at h
      · exact List.mem_singleton.1 h ▸ hx
      · obtain rfl | h := List.mem_cons.1 h
        · exact hx
        · exact ih h

/-- … and one that breaks off misses the record it breaks off at. -/
theorem recAt_of_missing {rs : List RouteRec} {pop fuel idx i : Nat} (h : (chainWalk rs pop fuel idx).2 = some i) : recAt rs pop i = none := by
  induction fuel generalizing idx with
  | zero => cases h
  | succ fuel ih =>
    unfold chainWalk at h
    split at h
    next hx => exact Option.some.inj h ▸ hx
    · split at h
      · cases h
      · exact ih h

/-- Records put by for the epoch hide none, when they are the ones at hand. -/
theorem recAt_gathered {opened fresh rs : List RouteRec} (h : ∀ r ∈ fresh, recAt (opened ++ rs) r.pop r.idx = some r) :
    recAt ((opened ++ fresh) ++ rs) = recAt (opened ++ rs) := by
  funext pop idx
  rw [recAt_append, recAt_append, recAt_append]
  cases ho : recAt opened pop idx with
  | some r => rfl
  | none =>
    cases hf : recAt fresh pop idx with
    | none => rfl
    | some r =>
      obtain ⟨hm, rfl, rfl⟩ := recAt_some hf
      have hr := h r hm
      rw [recAt_append, ho] at hr
      simpa using hr.symm

/-! ## A record is lost (R136) -/

/-- Segments are out of this beat. -/
def segsOut (m : Loom) (is : List Nat) : Loom := { m with badSegs := m.badSegs ++ is.filter (fun i => !m.badSegs.contains i) }

theorem mem_segsOut {m : Loom} {is : List Nat} {i : Nat} (h : i ∈ is) : i ∈ (segsOut m is).badSegs := by
  by_cases hb : i ∈ m.badSegs
  · exact List.mem_append_left _ hb
  · exact List.mem_append_right _ (List.mem_filter.2 ⟨h, by simpa using hb⟩)

theorem loom_routeLost (s : State) (l pop idx : Nat) :
    loom (routeLost s l pop idx) l = segsOut (routeEnd (loom s l) pop idx) (segsAt (loom s l) pop idx) := by
  rw [routeLost, routeBad, loom_congr (latchFault_looms ..), loom_modLoom_self, loom_modLoom_self]
  rfl

theorem routeLost_faults (s : State) (l pop idx : Nat) : rd (routeLost s l pop idx) (bLoom l) F.FAULTCAUSE_VALID = 1 := rd_latchFault_valid ..

theorem not_mem_routeEnd (m : Loom) (pop idx : Nat) : ∀ x ∈ (routeEnd m pop idx).dirWait, ¬ (x.pop = pop ∧ x.idx = idx) := by
  intro x hx hk
  simpa [hk] using (List.mem_filter.1 hx).2

theorem routeLost_ended (s : State) (l pop idx : Nat) : ∀ x ∈ (loom (routeLost s l pop idx) l).dirWait, ¬ (x.pop = pop ∧ x.idx = idx) := by
  rw [loom_routeLost]
  exact not_mem_routeEnd (loom s l) pop idx

/-- The segments whose chain breaks off at the record are out of this beat. -/
theorem routeLost_badSegs {s : State} {l pop idx : Nat} {g : Seg} (hg : g ∈ (loom s l).lat.segs) (hp : g.pop = pop)
    (hm : (chainWalk (routesHeld (loom s l)) pop (chainMax + 1) g.route).2 = some idx) : g.idx ∈ (loom (routeLost s l pop idx) l).badSegs := by
  rw [loom_routeLost]
  exact mem_segsOut (List.mem_map_of_mem (List.mem_filter.2 ⟨hg, by simp [hp, hm]⟩))

/-! ## The directory's answer (R136, R352) -/

theorem dirAnswer_lost {s : State} {l pop w1 w2 : Nat} {valid : Bool} {w : RouteWait}
    (hw : (loom s l).dirWait.find? (fun w => w.pop = pop && w.addr.isNone) = some w) (h : valid = false ∨ rcountOf w2 ≤ w.idx) :
    dirAnswer l pop valid w1 w2 s = routeLost s l pop w.idx := by
  unfold dirAnswer
  rw [hw]
  dsimp only
  rw [if_pos (by simpa using h)]

theorem dirAnswer_placed {s : State} {l pop w2 : Nat} {w : RouteWait}
    (hw : (loom s l).dirWait.find? (fun w => w.pop = pop && w.addr.isNone) = some w) (h : w.idx < rcountOf w2) (w1 : Nat) :
    ⟨pop, w.idx, some (rsetOf w1 w2 + 32 * w.idx), rcountOf w2⟩ ∈ (loom (dirAnswer l pop true w1 w2 s) l).dirWait ∧
      (loom (dirAnswer l pop true w1 w2 s) l).badSegs = (loom s l).badSegs := by
  have hm : w ∈ (loom s l).dirWait := List.mem_of_find?_eq_some hw
  have hp : w.pop = pop := by
    have := List.find?_some hw
    simp only [Bool.and_eq_true, decide_eq_true_eq] at this
    exact this.1
  unfold dirAnswer
  rw [hw]
  dsimp only
  rw [if_neg (by simpa using h), loom_congr (hbmAsk_looms ..), loom_modLoom_self]
  exact ⟨List.mem_map.2 ⟨w, hm, by simp [hp]⟩, rfl⟩

theorem dirRetry_waits {s : State} {l pop : Nat} (h : ∃ w ∈ (loom s l).dirWait, w.pop = pop ∧ w.addr = none) : dirRetry s l pop = dirAsk s l pop := by
  obtain ⟨w, hw, hp, ha⟩ := h
  exact if_pos (List.any_eq_true.2 ⟨w, hw, by simp [hp, ha]⟩)

theorem dirRetry_rests {s : State} {l pop : Nat} (h : ∀ w ∈ (loom s l).dirWait, w.pop = pop → w.addr ≠ none) : dirRetry s l pop = s := by
  refine if_neg fun ha => ?_
  obtain ⟨w, hw, hp⟩ := List.any_eq_true.1 ha
  simp only [Bool.and_eq_true, decide_eq_true_eq, Option.isNone_iff_eq_none] at hp
  exact h w hw hp.1 hp.2

/-! ## The chains are gathered (R136) -/

/-- The fetch of a record that is missing is noted. -/
def routeAsked (m : Loom) (pop idx : Nat) : Loom :=
  if m.dirWait.any (fun w => w.pop = pop && w.idx = idx) then m else { m with dirWait := m.dirWait ++ [⟨pop, idx, none, 0⟩] }

theorem loom_routeFetch (s : State) (l pop idx : Nat) : loom (routeFetch s l pop idx) l = routeAsked (loom s l) pop idx := by
  unfold routeFetch routeAsked
  dsimp only
  split
  · rfl
  · rw [dirAsk, loom_congr (niSend_looms ..)]
    exact loom_setLoom_self ..

theorem mem_routeAsked {m : Loom} {pop idx : Nat} {x : RouteWait} (h : x ∈ (routeAsked m pop idx).dirWait) :
    x ∈ m.dirWait ∨ (x.pop = pop ∧ x.idx = idx) := by
  unfold routeAsked at h
  split at h
  · exact .inl h
  · obtain h | h := List.mem_append.1 h
    · exact .inl h
    · obtain rfl := List.mem_singleton.1 h
      exact .inr ⟨rfl, rfl⟩

/-- While chains are gathered, the records at hand are the same, and none that is at hand is fetched. -/
structure Gathering (m : Loom) (pop idx : Nat) (x : Loom) : Prop where
  routes : x.routes = m.routes
  badSegs : x.badSegs = m.badSegs
  held : recAt (routesHeld x) = recAt (routesHeld m)
  ended : ∀ w ∈ x.dirWait, ¬ (w.pop = pop ∧ w.idx = idx)

/-- The records of a chain that the epoch has not got yet are put by. -/
def chainKept (m : Loom) (rs : List RouteRec) : Loom := { m with openRoutes := m.openRoutes ++ rs.filter (fun r => !m.openRoutes.contains r) }

section
variable {m x : Loom} {pop idx : Nat} (h : Gathering m pop idx x)
include h

theorem Gathering.chainKept (p fuel i : Nat) : Gathering m pop idx (Machine.chainKept x (chainWalk (routesHeld x) p fuel i).1) where
  routes := h.routes
  badSegs := h.badSegs
  held := (recAt_gathered fun _ hr => recAt_of_chain (List.mem_filter.1 hr).1).trans h.held
  ended := h.ended

theorem Gathering.routeAsked {p i : Nat} (hn : ¬ (p = pop ∧ i = idx)) : Gathering m pop idx (Machine.routeAsked x p i) where
  routes := (apply_ite Loom.routes _ _ _).trans ((ite_self _).trans h.routes)
  badSegs := (apply_ite Loom.badSegs _ _ _).trans ((ite_self _).trans h.badSegs)
  held := by
    unfold Machine.routeAsked
    split <;> exact h.held
  ended := fun w hw hk => (mem_routeAsked hw).elim (h.ended w · hk) fun hw => hn ⟨hw.1.symm.trans hk.1, hw.2.symm.trans hk.2⟩

end

/-- A segment whose chain is not too long, where the record is at hand. -/
theorem gathering_segGather {m : Loom} {pop idx l : Nat} {s : State} {g : Seg} (h : Gathering m pop idx (loom s l))
    (hr : recAt (routesHeld m) pop idx ≠ none) (hg : (chainWalk (routesHeld m) g.pop (chainMax + 1) g.route).1.length ≤ chainMax) :
    Gathering m pop idx (loom (segGather l g s) l) := by
  have hk := h.chainKept g.pop (chainMax + 1) g.route
  have hmiss := fun i => recAt_of_missing (rs := routesHeld m) (pop := g.pop) (fuel := chainMax + 1) (idx := g.route) (i := i)
  rw [← chainWalk_congr h.held] at hg hmiss
  have hkept := loom_setLoom_self s l (chainKept (loom s l) (chainWalk (routesHeld (loom s l)) g.pop (chainMax + 1) g.route).1)
  unfold segGather
  dsimp only
  split
  · exact h
  · rw [if_neg hg.not_gt]
    split
    next i hi =>
      rw [loom_routeFetch]
      refine Gathering.routeAsked (hkept.symm ▸ hk) ?_
      rintro ⟨rfl, rfl⟩
      exact hr (hmiss i hi)
    next => exact hkept.symm ▸ hk

theorem forEach_holds {α : Type} {P : State → Prop} {f : α → State → State} {xs : List α} (hf : ∀ a ∈ xs, ∀ t, P t → P (f a t)) {s : State}
    (h : P s) : P (forEach xs f s) := by
  induction xs generalizing s with
  | nil => exact h
  | cons x xs ih => exact ih (fun a ha => hf a (List.mem_cons_of_mem x ha)) (hf x List.mem_cons_self s h)

/-! ## A record arrives (R135, R136) -/

section
variable {s : State} {l pop idx : Nat} {w : RouteWait}
  (hw : (loom s l).dirWait.find? (fun w => w.pop = pop && w.idx = idx && w.addr.isSome) = some w)
include hw

theorem routeFill_lost {ok : Bool} {rc : List Byte} (h : ok = false ∨ recordOk (leNat (padTo 32 rc)) w.rcount (l / 32, l % 32) = false) :
    routeFill s l pop idx ok rc = routeLost s l pop idx := by
  unfold routeFill
  rw [hw]
  dsimp only
  rw [if_pos (by simpa using h)]

theorem routeFill_sound {rc : List Byte} (h : recordOk (leNat (padTo 32 rc)) w.rcount (l / 32, l % 32) = true)
    (hr : recRouted s (leNat (padTo 32 rc)) = true) : routeFill s l pop idx true rc =
      routeFetchAll (modLoom s l (fun m => routePut (routeEnd m pop idx) ⟨pop, idx, leNat (padTo 32 rc)⟩)) l := by
  unfold routeFill
  rw [hw]
  dsimp only
  rw [if_neg (by simp [h]), if_neg (by simp [hr])]

end

/-- A record that is cached where there is room, and the chains gathered with it. -/
theorem gathering_put {s : State} {l pop idx word : Nat} (hl : (loom s l).routes.length < routeCap)
    (hg : ∀ g ∈ (loom s l).lat.segs, (chainWalk ((loom s l).openRoutes ++ ((loom s l).routes ++ [⟨pop, idx, word⟩])) g.pop (chainMax + 1)
      g.route).1.length ≤ chainMax) :
    let t := routeFetchAll (modLoom s l (fun m => routePut (routeEnd m pop idx) ⟨pop, idx, word⟩)) l
    (loom t l).routes = (loom s l).routes ++ [⟨pop, idx, word⟩] ∧ (∀ x ∈ (loom t l).dirWait, ¬ (x.pop = pop ∧ x.idx = idx)) ∧
      (loom t l).badSegs = (loom s l).badSegs := by
  have hput : (routePut (routeEnd (loom s l) pop idx) ⟨pop, idx, word⟩).routes = (loom s l).routes ++ [⟨pop, idx, word⟩] := by
    have hz : (loom s l).routes.length + 1 - routeCap = 0 := by omega
    simp only [routePut, routeEnd, List.length_append, List.length_singleton, hz, List.drop_zero]
  generalize hm : routePut (routeEnd (loom s l) pop idx) ⟨pop, idx, word⟩ = m at hput
  have hheld : routesHeld m = (loom s l).openRoutes ++ ((loom s l).routes ++ [⟨pop, idx, word⟩]) := by
    rw [routesHeld, hput, ← hm]
    rfl
  have hfound : recAt (routesHeld m) pop idx ≠ none := recAt_ne_none (r := ⟨pop, idx, word⟩) (by rw [hheld]; simp)
  have hstart : Gathering m pop idx (loom (modLoom s l (fun m => routePut (routeEnd m pop idx) ⟨pop, idx, word⟩)) l) := by
    rw [loom_modLoom_self, hm]
    exact ⟨rfl, rfl, rfl, fun w h => not_mem_routeEnd (loom s l) pop idx w (by rw [← hm] at h; exact h)⟩
  have hend := forEach_holds (P := fun t => Gathering m pop idx (loom t l)) (f := segGather l)
    (xs := (loom (modLoom s l (fun m => routePut (routeEnd m pop idx) ⟨pop, idx, word⟩)) l).lat.segs)
    (fun g hgs t ht => gathering_segGather ht hfound (by
      rw [hheld]
      rw [loom_modLoom_self] at hgs
      exact hg g hgs)) hstart
  exact ⟨hend.routes.trans hput, hend.ended, hend.badSegs.trans (by rw [← hm]; rfl)⟩

/-! ## The hub answers (R127, R352) -/

theorem routeInvalidate_loom (s : State) (l pop : Nat) : loom (routeInvalidate s l pop) l =
    { loom s l with routes := (loom s l).routes.filter (fun r => r.pop != pop), dirWait := (loom s l).dirWait.filter (fun w => w.pop != pop) } :=
  loom_modLoom_self ..

theorem toNat_eq_ite {x : Bool} {c : Prop} [Decidable c] (h : x = true ↔ c) : x.toNat = if c then 1 else 0 := by
  by_cases hc : c
  · rw [if_pos hc, h.2 hc]
    rfl
  · rw [if_neg hc, Bool.eq_false_iff.2 (mt h.1 hc)]
    rfl

theorem dirRequest_answers {s : State} {h l pop : Nat} (hp : pop % 16 = h) :
    rd (dirRequest s h l pop) (bHub h) F.HUB_DIRREQ_COUNT = (rd s (bHub h) F.HUB_DIRREQ_COUNT + 1) % 2 ^ 32 ∧
      regsBut s (dirRequest s h l pop) (bHub h) [F.HUB_DIRREQ_COUNT.off] ∧
      (dirRequest s h l pop).out = s.out ++ [⟨.dirRsp, bLoom l, edgeFields s (0x410 + h) (rd s (bLoom l) F.OWNER_PART) l 1 3 2 [pop,
        if dirF s pop F.HUB_DIRDATA0_VALID = 1 ∧ (dirF s pop F.HUB_DIRDATA0_PART = rd s (bLoom l) F.OWNER_PART ∨
          dirF s pop F.HUB_DIRDATA0_PART = 0x1F) then 1 else 0,
        (regGet s (bHub h) F.HUB_DIRDATA1_RSETLO.off (pop / 16)).toNat, (regGet s (bHub h) F.HUB_DIRDATA2_RSETHI.off (pop / 16)).toNat]⟩] := by
  subst hp
  refine ⟨rd_inc_self s _ F.HUB_DIRREQ_COUNT (by decide), regsBut_inc s _ F.HUB_DIRREQ_COUNT (by decide), ?_⟩
  rw [← toNat_eq_ite (x := decide (pop % 16 = pop % 16) && dirF s pop F.HUB_DIRDATA0_VALID == 1 &&
    (dirF s pop F.HUB_DIRDATA0_PART == rd s (bLoom l) F.OWNER_PART || dirF s pop F.HUB_DIRDATA0_PART == 0x1F)) (by simp)]
  rfl

end Sys2Proof.Machine
end

section
/-!
PROOFS. The row cache of a loom (chapter 04): a line that HBM has sent (R150, R151), and INV.
-/

namespace Sys2Proof.Machine

/-! ## Bytes of a line -/

theorem leBytes_leNat (bs : List Byte) : leBytes bs.length (leNat bs) = bs := by
  induction bs with
  | nil => rfl
  | cons b bs ih =>
    have hb : b.toNat < 256 := b.isLt
    have hm : (b.toNat + 256 * leNat bs) % 256 = b.toNat := by omega
    have hd : (b.toNat + 256 * leNat bs) / 256 = leNat bs := by omega
    rw [List.length_cons, leNat, leBytes, hm, hd, ih, BitVec.ofNat_toNat, BitVec.setWidth_eq]

theorem padTo_get {n i : Nat} (h : i < n) (bs : List Byte) : (padTo n bs)[i]? = some ((bs[i]?).getD 0) := by
  unfold padTo
  rw [List.getElem?_take_of_lt h]
  by_cases hb : i < bs.length
  · rw [List.getElem?_append_left hb, List.getElem?_eq_getElem hb]
    rfl
  · rw [List.getElem?_append_right (not_lt.1 hb), List.getElem?_replicate_of_lt (by omega), List.getElem?_eq_none (not_lt.1 hb)]
    rfl

/-! ## A line is cached (R150) -/

theorem scrMend_frame (s : State) (l a n : Nat) (m : Loom) : ∃ x y, scrMend s l a n m = { m with xErr1 := x, xErr2 := y } := by
  unfold scrMend
  split
  · exact ⟨_, _, rfl⟩
  · exact ⟨_, _, rfl⟩

/-- The lines that stay in the set of a line that is cached. -/
def rcKept (m : Loom) (sets line : Nat) : List (Nat × Nat) :=
  ((tabGet [] m.rowCache (line % sets)).filter (fun e => e.1 != line)).drop
    (((tabGet [] m.rowCache (line % sets)).filter (fun e => e.1 != line)).length - 3)

/-- The way that it takes. -/
def rcWay (m : Loom) (sets line : Nat) : Nat := ((List.range 4).find? (fun w => !(rcKept m sets line).any (fun e => e.2 = w))).getD 0

/-- A cached line, but for the error marks of the scratch. -/
def lineCached (s : State) (l sets line : Nat) (d : List Byte) (m : Loom) : Loom :=
  { m with
    rowCache := tabSet [] m.rowCache (line % sets) (rcKept m sets line ++ [(line, rcWay m sets line)])
    scratch := memPut m.scratch (rcAt s l (line % sets) (rcWay m sets line)) 256 (leNat d) }

/-- What the error marks of the scratch do not tell of a loom with the line cached. -/
theorem loom_rcPut {α : Type} (φ : Loom → α) (h : ∀ m x y, φ { m with xErr1 := x, xErr2 := y } = φ m) (s : State) (l sets line : Nat)
    (d : List Byte) : φ (loom (rcPut s l sets line d) l) = φ (lineCached s l sets line d (loom s l)) := by
  obtain ⟨x, y, e⟩ := scrMend_frame (modLoom s l (fun m => { m with
      rowCache := tabSet [] m.rowCache (line % sets) (rcKept (loom s l) sets line ++ [(line, rcWay (loom s l) sets line)]) })) l
    (rcAt s l (line % sets) (rcWay (loom s l) sets line)) 256 (lineCached s l sets line d (loom s l))
  have he : loom (rcPut s l sets line d) l = { lineCached s l sets line d (loom s l) with xErr1 := x, xErr2 := y } := by
    rw [← e]
    unfold rcPut scrPut
    dsimp only
    rw [loom_modLoom_self, loom_modLoom_self]
    rfl
  rw [he, h]

theorem rcFind_congr {m x : Loom} (h : m.rowCache = x.rowCache) (sets line : Nat) : rcFind m sets line = rcFind x sets line := by
  rw [rcFind, h, rcFind]

theorem rcFind_lineCached (s : State) (l sets line : Nat) (d : List Byte) (m : Loom) :
    rcFind (lineCached s l sets line d m) sets line = some (rcWay m sets line) := by
  have hn : (rcKept m sets line).find? (fun e => e.1 = line) = none := List.find?_eq_none.2 fun e he => by
    simpa using (List.mem_filter.1 (List.mem_of_mem_drop he)).2
  unfold rcFind lineCached
  dsimp only
  rw [tabGet_tabSet_self, List.find?_append, hn]
  simp

theorem lineCached_byte (s : State) (l sets line : Nat) {d : List Byte} (hd : d.length = 256) (m : Loom) {i : Nat} (hi : i < 256) :
    some (tabGet 0 (lineCached s l sets line d m).scratch (rcAt s l (line % sets) (rcWay m sets line) + i)) = d[i]? := by
  have hb : leBytes 256 (leNat d) = d := hd ▸ leBytes_leNat d
  rw [lineCached, memPut, hb, tabGet_tabSetRun_in _ _ _ _ _ (hd ▸ hi), List.getElem?_eq_getElem]

/-! ## The tally -/

theorem loom_tryTally {α : Type} (φ : Loom → α) (h : ∀ m, φ { m with tallySent := true, phase := .close } = φ m) (s : State) (l : Nat) :
    φ (loom (tryTally s l) l) = φ (loom s l) := by
  obtain e | ⟨a, e⟩ := tryTally_eq s l
  · rw [e]
  · rw [e]
    exact (congrArg φ (loom_setLoom_self ..)).trans (h _)

theorem rd_tryTally (s : State) (l b : Nat) (f : Fld) : rd (tryTally s l) b f = rd s b f := by
  obtain e | ⟨a, e⟩ := tryTally_eq s l
  · rw [e]
  · rw [e]
    rfl

/-! ## A fill ends -/

/-- The fill is no longer under way. -/
def fillEnded (s : State) (l line : Nat) : State := setLoom s l { loom s l with fills := (loom s l).fills.erase line }

/-- A row that waits needs the line. -/
def needsLine (s : State) (l line : Nat) (w : RowWait) : Bool := if rcSets s l = 0 then w.asked.contains line else (waitLines w).contains line

section
variable {s : State} {l line : Nat} (hn : neuronHeld s l = false)
include hn

theorem rowFill_dead (hd : line ∈ (loom s l).deadFills) (ok : Bool) (data : List Byte) :
    rowFill s l line ok data = setLoom s l { loom s l with deadFills := (loom s l).deadFills.erase line } := by
  simp [rowFill, hn, hd]

section
variable (hd : line ∉ (loom s l).deadFills)
include hd

theorem rowFill_unknown (hf : line ∉ (loom s l).fills) (ok : Bool) (data : List Byte) : rowFill s l line ok data = s := by
  simp [rowFill, hn, hd, hf]

variable (hf : line ∈ (loom s l).fills)
include hf

/-- Where no row waits, a line is cached and no more. -/
theorem rowFill_cached (hs : rcSets s l ≠ 0) (hw : (loom s l).rowWaits = []) (data : List Byte) :
    rowFill s l line true data =
      tryTally (modLoom (rcPut (fillEnded s l line) l (rcSets s l) line (padTo 256 data)) l (fun m => { m with rowWaits := [] })) l := by
  have hrows : (loom (rcPut (fillEnded s l line) l (rcSets s l) line (padTo 256 data)) l).rowWaits = [] := by
    rw [loom_rcPut Loom.rowWaits fun _ _ _ => rfl, fillEnded, loom_setLoom_self]
    exact hw
  have hfeed : rowsFeed (rcPut (fillEnded s l line) l (rcSets s l) line (padTo 256 data)) l line (padTo 256 data) =
      modLoom (rcPut (fillEnded s l line) l (rcSets s l) line (padTo 256 data)) l (fun m => { m with rowWaits := [] }) := by
    unfold rowsFeed
    rw [hrows]
    rfl
  rw [← hfeed]
  unfold rowFill
  simp only [hn, List.contains_iff_mem, hd, hf, if_false, if_true, Bool.false_eq_true]
  exact congrArg (fun u => tryTally (rowsFeed u l line (padTo 256 data)) l) (if_neg hs)

/-- A line that failed is a fault, and no row that needs it is waited for. -/
theorem rowFill_failed (data : List Byte) : rowFill s l line false data =
    tryTally (latchFault (modLoom (fillEnded s l line) l (fun m => { m with rowWaits := m.rowWaits.filter (fun w => !needsLine s l line w) }))
      (bLoom l) 0x0105) l := by
  unfold rowFill
  simp only [hn, List.contains_iff_mem, hd, hf, if_false, if_true, Bool.false_eq_true]
  rfl

theorem rowFill_good (hs : rcSets s l ≠ 0) (hw : (loom s l).rowWaits = []) (data : List Byte) :
    let t := rowFill s l line true data
    ∃ way, rcFind (loom t l) (rcSets s l) line = some way ∧
      (∀ i, i < 256 → scratchByte t l (rcAt s l (line % rcSets s l) way + i) = (data[i]?).getD 0) ∧ (loom t l).fills = (loom s l).fills.erase line := by
  have hfills : (loom (fillEnded s l line) l).fills = (loom s l).fills.erase line := congrArg Loom.fills (loom_setLoom_self ..)
  rw [rowFill_cached hn hd hf hs hw data]
  generalize hu : fillEnded s l line = u at hfills
  have hat : rcAt u l = rcAt s l := hu ▸ rfl
  intro t
  have hkeeps : ∀ {α : Type} (φ : Loom → α), (∀ m, φ { m with tallySent := true, phase := .close } = φ m) →
      (∀ m, φ { m with rowWaits := [] } = φ m) → (∀ m x y, φ { m with xErr1 := x, xErr2 := y } = φ m) →
      φ (loom t l) = φ (lineCached u l (rcSets s l) line (padTo 256 data) (loom u l)) := fun φ ht hr hx => by
    rw [loom_tryTally φ ht, loom_modLoom_self, hr, loom_rcPut φ hx]
  have hcache := hkeeps Loom.rowCache (fun _ => rfl) (fun _ => rfl) (fun _ _ _ => rfl)
  have hscratch := hkeeps Loom.scratch (fun _ => rfl) (fun _ => rfl) (fun _ _ _ => rfl)
  refine ⟨rcWay (loom u l) (rcSets s l) line, (rcFind_congr hcache ..).trans (rcFind_lineCached ..), fun i hi => ?_,
    (hkeeps Loom.fills (fun _ => rfl) (fun _ => rfl) (fun _ _ _ => rfl)).trans hfills⟩
  have hbyte := (lineCached_byte u l (rcSets s l) line (padTo_length 256 data) (loom u l) hi).trans (padTo_get hi data)
  rw [scratchByte, hscratch, ← hat]
  exact Option.some.inj hbyte

theorem rowFill_bad (data : List Byte) :
    let t := rowFill s l line false data
    rd t (bLoom l) F.FAULTCAUSE_VALID = 1 ∧ ∀ w ∈ (loom t l).rowWaits, line ∉ if rcSets s l = 0 then w.asked else waitLines w := by
  rw [rowFill_failed hn hd hf]
  refine ⟨(rd_tryTally ..).trans (rd_latchFault_valid ..), fun w hw => ?_⟩
  rw [loom_tryTally Loom.rowWaits fun _ => rfl, loom_congr (latchFault_looms ..), loom_modLoom_self] at hw
  have hneed := (List.mem_filter.1 hw).2
  rw [needsLine] at hneed
  split
  next h0 => simpa [h0] using hneed
  next h0 => simpa [h0] using hneed

end
end

/-! ## INV (R150) -/

theorem rcinv_masks : unguarded .loom F.LOOM_RCINV_INV.off = true ∧ codeMask .loom F.LOOM_RCINV_INV.off .rws = 0 ∧
    codeMask .loom F.LOOM_RCINV_INV.off .rw = 0 ∧ codeMask .loom F.LOOM_RCINV_INV.off .w1c = 0 ∧ codeMask .loom F.LOOM_RCINV_INV.off .w1s = 0 := by
  decide +kernel

theorem writeDo_rcinv (s : State) (r : Requester) (l : LoomId) (v : Word) :
    writeDo s r (bLoom l) F.LOOM_RCINV_INV.off (fldSet F.LOOM_RCINV_INV v 1).toNat = modLoom s l (fun m => { m with rcinvPending := true }) := by
  have hb : bit (fldSet F.LOOM_RCINV_INV v 1).toNat 0 = true := by
    rw [bit_lo (f := F.LOOM_RCINV_INV) rfl, fldGet_fldSet_self _ _ _ (by decide)]
    rfl
  unfold writeDo
  rw [if_neg (by decide), kindOf_bLoom]
  unfold loomDo
  dsimp only
  rw [if_pos rfl, if_pos hb, bLoom_site]

theorem rcinv_answered {s : State} {r : Requester} {l : LoomId} {v : Word}
    (h : performed s r (bLoom l) F.LOOM_RCINV_INV.off true (fldSet F.LOOM_RCINV_INV v 1) = true) :
    ∃ t, exec (.loomRcinv r l v) s = .next t ∧ answered r (modLoom (windowClose s) l (fun m => { m with rcinvPending := true })) t := by
  obtain ⟨hg, hs, hw, hc, h1⟩ := rcinv_masks
  have hp : putMain (windowClose s) r (bLoom l) F.LOOM_RCINV_INV.off (fldSet F.LOOM_RCINV_INV v 1) =
      lineFollow (windowClose s) (modLoom (windowClose s) l (fun m => { m with rcinvPending := true })) (bLoom l) := by
    rw [putMain_unguarded (k := .loom) (kindOf_bLoom l) hg (reservedAt_bLoom l _) (by decide), hs, hw, hc, h1]
    dsimp only
    rw [rwsWrite_zero, rwWrite_none, w1cWrite_zero, w1sWrite_zero, writeDo_rcinv]
  exact ⟨_, rfl, busWrite_answered h (hp ▸ lineFollow_frame _ _ _)⟩

end Sys2Proof.Machine
end

section
/-!
PROOFS. O21.
-/

namespace Sys2Proof.Machine

/-- Settles O21: the directory and the record that it names, by what each answer leaves of the fetches and the cache; the row cache, by how a fill
ends. -/
theorem routesAndRowCache : Obligations.RoutesAndRowCache := by
  refine ⟨?_, ?_⟩
  · intro l h part pop idx valid w1 w2 rc s b m p word
    let u := inc s b F.LOOM_NIPKTRX_COUNT
    have taken : ∀ (valid : Bool), isolated s l = false → part.toNat = rd s b F.OWNER_PART →
        exec (.dirrspReceive l part pop valid w1 w2) s = .next (dirAnswer l p valid w1.toNat w2.toNat u) := fun valid hi hp =>
      congrArg Host.Outcome.next (niTake_mine hi _ hp)
    refine ⟨⟨_, rfl, ?_⟩, fun hp => ⟨_, rfl, dirRequest_answers hp⟩, fun hi => congrArg Host.Outcome.next (if_pos hi),
      fun hi hp => congrArg Host.Outcome.next (niTake_foreign hi _ hp), fun w hw hi hp => ⟨fun hlt => ⟨_, taken true hi hp, dirAnswer_placed (s := u) hw hlt _⟩,
        fun hle => ⟨_, taken true hi hp, ?_⟩, ⟨_, taken false hi hp, ?_⟩⟩,
      fun hw hi => congrArg Host.Outcome.next ((dirRetry_waits hw).trans (dirAsk_open hi p)),
      fun hw => congrArg Host.Outcome.next (dirRetry_rests hw), fun w hw => ⟨fun hrec hroute hlen hchain => ⟨_, rfl, ?_⟩, fun ok hbad => ⟨_, rfl, ?_⟩⟩⟩
    · rw [routeInvalidate_loom]
      exact ⟨rfl, rfl, rfl, rfl⟩
    · rw [dirAnswer_lost (s := u) hw (.inr hle)]
      exact ⟨routeLost_faults .., routeLost_ended u l p w.idx⟩
    · rw [dirAnswer_lost (s := u) hw (.inl rfl)]
      exact ⟨routeLost_faults .., routeLost_ended u l p w.idx⟩
    · rw [routeFill_sound hw hrec hroute]
      exact gathering_put hlen hchain
    · rw [routeFill_lost hw hbad]
      exact ⟨routeLost_faults .., by rw [loom_routeLost]; rfl, fun g hg hp hm => routeLost_badSegs hg hp hm⟩
  · intro r l line data v s b m
    refine ⟨fun hn ok => congrArg Host.Outcome.next (if_pos hn), fun hn hd ok => congrArg Host.Outcome.next (rowFill_dead hn hd ok data),
      fun hn hd hf => ⟨fun hs hw => ?_, ⟨_, rfl, rowFill_bad hn hd hf data⟩⟩,
      fun hn hd hf ok => congrArg Host.Outcome.next (rowFill_unknown hn hd hf ok data), rcinv_answered⟩
    obtain ⟨way, hway⟩ := rowFill_good hn hd hf hs hw data
    exact ⟨_, way, rfl, hway⟩

end Sys2Proof.Machine
end
